-- ==== Sys2Proof/Word.lean ====
section
/-!
DEFINITION. Word.lean: the words the Orkor handles.  A CSR is a 64-bit word (R6), a byte is eight bits,
and a protocol field taken out of either is a Nat.
-/

namespace Sys2Proof

/-- A 64-bit CSR, descriptor or entry word (R5, R6). -/
abbrev Word := BitVec 64

/-- One byte of packet payload or host data (R5). -/
abbrev Byte := BitVec 8

end Sys2Proof
end

