-- ==== Sys2Proof/Syntax/Types.lean ====
section
/-!
DEFINITION. Syntax/Types.lean: the plain data that commands carry: who writes, the armature and firmware images as the
boot checks see them, packets, frames, descriptors, and what the Orkor sends out.
-/

namespace Sys2Proof

/-- Who issues a CSR access: function f of host port hp (0 is the PF, 1 to 255 a VF), or the management controller
over MCTP (R557). -/
inductive Who where
  | fn (hp f : Nat)
  | mgmt
deriving DecidableEq, Repr

/-- What outside the registers a register write meets when it takes effect: the fault instances (source, instance) whose
pair still reads (1, 0), which an FC_CMD release asks for (R517), and whether flash reads back what a write of
TOP_DEVICE_ID stores (R536). -/
structure CsrEnv where
  held : List (Nat × Nat)
  flashOk : Bool
deriving DecidableEq, Repr

/-- A cell read for an output with an uncorrectable error (R188): its bank, and the cells that the bank holds, as packet number and cell,
which a failure of the bank frees (R190). -/
structure BadRead where
  outp : Nat
  bank : Nat
  held : List (Nat × Nat)
deriving DecidableEq, Repr

/-- One entry of an armature's or image's directory (Table 02-2), with the digest of the body as received. -/
structure DirEntry where
  id : Nat
  flags : Nat
  offset : Nat
  length : Nat
  sectVer : Nat
  digest : Nat
  bodyDigest : Nat
deriving DecidableEq, Repr

/-- The settings of an armature's six sections (Table 02-3): FRAME, VCBUF, ROLES, HPART, TABLES, FAULT.
Sizes of HPART are in MiB, in the order of Table 02-5; `hbmMap` stands for FRAME's HBM address mapping, whose form is not given. -/
structure Arm where
  version : Nat
  buildId : Nat
  signer : Nat
  digests : List Nat
  trunked : Bool
  p63Use : Nat
  spares : Nat
  stackPresent : List Nat
  hbmMap : Nat
  tcMap : Nat
  res : List (List Nat)
  iresReq : Nat
  iresRsp : Nat
  shrMax : Nat
  oqMax : Nat
  mcMax : Nat
  ceThr : List Nat
  roles : List Nat
  hpart : List Nat
  groups : Nat
  members : Nat
  mcSize : Nat
  spanSize : Nat
  regionSize : Nat
  matchSize : Nat
  react : List Nat
deriving DecidableEq, Repr

/-- An armature stream as received: the bytes of its header and directory (Tables 02-1 and 02-2), the bytes that came in, the
SHA-384 of the body that each directory entry points at, whether the signature of the 448 bytes verifies with the key in SIGNER_SLOT,
and the settings its bodies spell, whose form is not given. -/
structure ArmStream where
  head : List Byte
  bodies : List Nat
  recvLen : Nat
  sigOk : Bool
  arm : Arm
deriving DecidableEq, Repr

/-- A firmware image as the boot checks see it (Table 18-3): whether the slot holds one, whether the flash could be read, the 448 signed
bytes of its header (Table 18-2), the SHA-384 of the body that each of the three directory entries points at, whether PUBKEY's hash is
the fused one, whether the signature verifies, and the stream of the ARMATURE component. -/
structure Image where
  present : Bool
  readError : Bool
  head : List Byte
  bodies : List Nat
  keyHashOk : Bool
  sigOk : Bool
  armature : Option ArmStream
deriving DecidableEq, Repr

/-- What the check of a cage-power channel reads (R573): CSNSP and CVOUT in mV, and with 50 mA drawn from CSNSN the sense voltage in nV
and the fall of CSNSN in mV. -/
structure CageReads where
  csnsp : Nat
  cvout : Int
  sense : Int
  fall : Int
deriving DecidableEq, Repr

/-- A fabric packet: the header fields of Table 03-2, the payload, the trailer of Table 03-4, and the reserved header bits (R81): two
of word 0, seven of word 1 and eight of word 3, from the lowest up. -/
structure Pkt where
  dst : Nat
  src : Nat
  tc : Nat
  vc : Nat
  hop : Nat
  age : Nat
  flags : Nat
  op : Nat
  len : Nat
  ec : Nat
  hcrc : Nat
  off : Nat
  psn : Nat
  key : Nat
  msgid : Nat
  payload : List Byte
  e2e : Nat
  stomp : Nat
  rsv : Nat := 0
deriving DecidableEq, Repr

/-- A flit or a cell: 128 bytes (R138, R171). -/
abbrev Flit := List Byte

/-- What a lane's pads show in one codeword-pair period (R106, R110, R114): 5,440 symbols of two bits each, and the skew to the unit's
other lanes in ns. -/
structure LanePair where
  levels : Nat
  skewNs : Nat
deriving DecidableEq, Repr

/-- What a read of a page table returned (R306, R308): eight bytes, or an error completion, a timeout or poison. -/
inductive WalkRead where
  | word (w : Word)
  | aborted
deriving DecidableEq, Repr

/-- The configuration space of a host port that the Orkor's behaviour depends on (R450, R467, R468, R611, R613). -/
structure PortCfg where
  bme : Bool := false
  mse : Bool := false
  vfEnable : Bool := false
  numVfs : Nat := 0
  vfMse : Bool := false
  aspmL1 : Bool := false
  l1sub : Bool := false
  atomicCompleter : Bool := false
deriving DecidableEq, Repr

end Sys2Proof
end

