-- ==== Sys2Proof/Syntax.lean ====
section
/-!
DEFINITION. Syntax.lean: the commands of the block, one constructor for every row of spec/opcode_table.json.
The table gives the rows no operands and no bits; the operands here are what each row's rule says the command
carries: who writes, the value written, the packet or frame that arrives, or what the outside reports.
-/

namespace Sys2Proof

/-- The commands the Orkor takes (spec/opcode_table.json, in the table's order). -/
inductive Instr where
  /-- POWER_ON_RESET (R561): All rails and VMON reach their release levels and POR is released 2 ms after the last of them. -/
  | powerOnReset
  /-- CHIP_RST_N_ASSERT (R526): CHIP_RST_N is driven low, the lanes go to electrical idle and a chip reset begins. -/
  | chipRstNAssert
  /-- CHIP_RST_N_RELEASE (R614): The chip reset ends, BUILD starts and the host ports train again. -/
  | chipRstNRelease
  /-- BOOT_SLOT_VERIFIED (R539): The boot ROM finishes verifying the firmware slots, and BUILD continues with the armature or the device enters RECOVERY. -/
  | bootSlotVerified (a b : Image) (failedTiles : List Nat)
  /-- BUILD_ENTER_RUN (R31): BUILD completes its join and the device passes to RUN, as SERVICE or RELAY. -/
  | buildEnterRun (now : Nat)
  /-- MODE_CTL_ENTER_TEST (R36): A MODE_CTL enter request is checked and, if accepted, starts entry to TEST. -/
  | modeCtlEnterTest (who : Who) (width : Nat)
  /-- TEST_ENTRY_DONE (R38): The write-back of dirty contexts and channel state ends and BASE reads TEST. -/
  | testEntryDone
  /-- MODE_CTL_LEAVE_TEST (R37): A MODE_CTL leave request in TEST re-enters BUILD without a chip reset. -/
  | modeCtlLeaveTest (who : Who) (width : Nat)
  /-- DEVICE_ID_WRITE (R70): A write to TOP_DEVICE_ID sets the device ID in BUILD and stores it in the board record, or is refused. -/
  | deviceIdWrite (who : Who) (width : Nat) (val : Word) (flashOk : Bool)
  /-- CSR_WRITE_GENERIC (R6): A write to a CSR that has no row of its own is checked for width and encoding and then takes effect. -/
  | csrWriteGeneric (who : Who) (off : Nat) (width : Nat) (val : Word)
  /-- CSR_READ_CLEAR (R6): A read that returns a whole RC field returns its value and clears it. -/
  | csrReadClear (who : Who) (off : Nat) (width : Nat)
  /-- ARM_STAGE_FETCH_HOST (R50): ARM_STAGE with CMD FETCH_HOST starts copying an armature from host memory into the staging buffer. -/
  | armStageFetchHost (who : Who) (width : Nat) (len : Nat)
  /-- ARM_STAGE_FETCH_SLOT (R50): ARM_STAGE with CMD FETCH_SLOT, from the management controller, starts copying the inactive slot's armature. -/
  | armStageFetchSlot (who : Who) (width : Nat)
  /-- ARM_STAGE_DISCARD (R51): ARM_STAGE with CMD DISCARD empties the staging buffer. -/
  | armStageDiscard (who : Who) (width : Nat)
  /-- ARMATURE_FETCH_DONE (R50): The staged copy completes and is checked, and ST becomes VERIFIED or REJECTED. -/
  | armatureFetchDone (stream : ArmStream)
  /-- ARM_SIGNER_WRITE (R66): A write to ARM_SIGNER ANDs the written value into ENABLE. -/
  | armSignerWrite (who : Who) (width : Nat) (val : Word)
  /-- ARM_DRAIN_WRITE (R54): A write to ARM_DRAIN stops new streams to the marked tiles and moves their streams. -/
  | armDrainWrite (who : Who) (width : Nat) (val : Word)
  /-- TILE_DRAINED (R54): A tile marked in ARM_DRAIN holds no stream any more, and its DRAINED bit sets. -/
  | tileDrained (tile : Nat)
  /-- TXN_CLAIM (R56): A write of TXN_OWNER.CLAIM claims the transaction if it has no owner. -/
  | txnClaim (now : Nat) (who : Who) (width : Nat) (val : Word)
  /-- TXN_BEGIN (R57): The owner opens the maquette transaction. -/
  | txnBegin (now : Nat) (who : Who) (width : Nat) (val : Word)
  /-- TXN_STAGE_WRITE (R57): A write to an RWT register or staged entry goes into the maquette, or is refused. -/
  | txnStageWrite (now : Nat) (who : Who) (off : Nat) (width : Nat) (val : Word)
  /-- TXN_COMMIT (R52): The owner commits, the commit checks run and the Orkor prepares or refuses. -/
  | txnCommit (now : Nat) (who : Who) (width : Nat) (val : Word)
  /-- TXN_COMMIT_EPOCH (R59): The staged values of a commit with no re-cast take effect at one epoch boundary. -/
  | txnCommitEpoch (now : Nat)
  /-- RECAST_PREP_DONE (R53): Re-cast preparation ends, the device enters HOLD and switches the sections at one epoch. -/
  | recastPrepDone (now : Nat)
  /-- HOLD_EXIT (R34): HOLD ends; queued CSR writes, deferred drops and matching resume. -/
  | holdExit (now : Nat)
  /-- TXN_ABORT (R60): TXN_ABORT discards every staged entry and ends the transaction. -/
  | txnAbort (now : Nat) (who : Who) (width : Nat) (val : Word)
  /-- TXN_IDLE_LIMIT (R61): A transaction or claim idle for TXN_IDLE_LIMIT is aborted. -/
  | txnIdleLimit (now : Nat)
  /-- LOCK_BITS_SET (R67): A write to LCK_BITS sets lock bits, making the registers they cover read-only. -/
  | lockBitsSet (who : Who) (width : Nat) (val : Word)
  /-- PACKET_HEAD_LOOKUP (R172): A packet's head is stored, checked and routed to a VOQ. -/
  | packetHeadLookup (now : Nat) (inp : Nat) (vc : Nat)
  /-- CELL_EPOCH_MATCH (R176): One cell epoch matches inputs to outputs and moves the bound cells. -/
  | cellEpochMatch (now : Nat) (corr : List (Nat × Nat)) (uncorr : List BadRead)
  /-- BANK_SWAP_COPY_DONE (R189): The predictive copy to B24 completes and SWAPPING clears. -/
  | bankSwapCopyDone (tile : Nat)
  /-- CELL_STALL_LIMIT (R187): A bound output waits 30 µs for a cell and stomps the packet. -/
  | cellStallLimit (now : Nat) (o : Nat)
  /-- BANK_FAIL (R190): A bank fails its self-check and the tile pauses to replace it. -/
  | bankFail (now : Nat) (tile : Nat) (bank : Nat) (lost : List (Nat × Nat))
  /-- BANK_REPAIR_DONE (R190): B24 passes its march test and enters service in place of the failed bank. -/
  | bankRepairDone (tile : Nat)
  /-- CODEWORD_PAIR_RECEIVED (R112): A lane decodes one RS codeword pair and marks bad blocks. -/
  | codewordPairReceived (now : Nat) (lane : Nat) (pair : LanePair)
  /-- FRAME_RECEIVED (R139): A frame is taken whole, checked and its FCF acted upon. -/
  | frameReceived (now : Nat) (p : Nat) (lanes : List Nat)
  /-- FRAME_TRANSMIT (R137): Each codeword-pair period, the sender fills a frame with replays, new flits and the FCF. -/
  | frameTransmit (now : Nat) (p : Nat) (lost : List Nat)
  /-- NACK_WAIT_EXPIRED (R152): A gap still open NACK_WAIT after its NACK is NACKed again. -/
  | nackWaitExpired (now : Nat) (p : Nat) (base : Nat)
  /-- RECOVER_NO_FRAME_TIMEOUT (R155): No good frame for 1 µs with lock puts the link into RECOVER. -/
  | recoverNoFrameTimeout (now : Nat) (p : Nat)
  /-- RECOVER_LIMIT_EXPIRED (R155): 20 µs of RECOVER takes the link down with RECOVER_LIMIT. -/
  | recoverLimitExpired (now : Nat) (p : Nat)
  /-- NO_LANE_TIMEOUT (R158): No lane lock for 4 µs takes the link down with NO_LANE. -/
  | noLaneTimeout (now : Nat) (p : Nat)
  /-- RETURN_FORCE_TIMEOUT (R150): FORCE_NS passes with news to report and a RETURN frame is inserted. -/
  | returnForceTimeout (now : Nat) (p : Nat)
  /-- PROBE_TIMER (R156): Every 1 µs in INIT, the PROBE value changes. -/
  | probeTimer (now : Nat) (p : Nat)
  /-- LL_DRAIN_WRITE (R159): LL_CTL.DRAIN starts a graceful drain of the link. -/
  | llDrainWrite (now : Nat) (who : Who) (width : Nat) (p : Nat) (val : Word)
  /-- DRAIN_LIMIT_EXPIRED (R159): A drain not completed within 1 ms takes the link down with DRAIN_LIMIT. -/
  | drainLimitExpired (now : Nat) (p : Nat)
  /-- LANE_DETECT_DONE (R121): DETECT ends with a WIRE result and the lane moves to SIGNAL or restarts. -/
  | laneDetectDone (now : Nat) (lane : Nat) (wire : Nat)
  /-- LANE_SIGNAL_DETECTED (R115): Signal above threshold on RX moves the lane from SIGNAL to CDR. -/
  | laneSignalDetected (now : Nat) (lane : Nat)
  /-- TRAINING_FRAME_RECEIVED (R116): A training frame is taken whole and its control word acted on. -/
  | trainingFrameReceived (now : Nat) (lane : Nat) (levels : Nat) (settled : Bool) (ask : Nat)
  /-- LANE_QUALIFY_DONE (R115): 10 ms of qualification ends and the lane reaches READY or fails. -/
  | laneQualifyDone (now : Nat) (lane : Nat) (tj : Nat) (mv : Nat) (berOk : Bool)
  /-- LANE_PHASE_LIMIT_EXPIRED (R115): A training phase passes its limit and the attempt restarts at DETECT. -/
  | lanePhaseLimitExpired (now : Nat) (lane : Nat)
  /-- LANE_FAILED_RETRY_TIMER (R117): A FAILED lane restarts training every 10 s. -/
  | laneFailedRetryTimer (now : Nat) (lane : Nat)
  /-- LN_CTL_RETRAIN (R117): LN_CTL.RETRAIN restarts the lane at DETECT. -/
  | lnCtlRetrain (now : Nat) (who : Who) (width : Nat) (lane : Nat) (val : Word)
  /-- LN_CTL_RECAL (R125): LN_CTL.RECAL requests a rolling recalibration. -/
  | lnCtlRecal (now : Nat) (who : Who) (width : Nat) (lane : Nat) (val : Word)
  /-- LANE_RECAL_CHECK (R125): The 10 ms check compares READY lanes with their records and requests recalibrations. -/
  | laneRecalCheck (now : Nat) (lanes : List (Nat × Nat × Nat × Bool))
  /-- RECAL_SPARE_LOCKED (R126): The spare locks to the lane and takes over its RX and TX at pair boundaries. -/
  | recalSpareLocked (now : Nat) (tile : Nat)
  /-- RECAL_SLICE_QUALIFIED (R126): The lane's slice passes QUALIFY, stamps a record and takes back its pads. -/
  | recalSliceQualified (now : Nat) (tile : Nat) (tj : Nat) (mv : Nat)
  /-- LANE_SELF_CHECK_FAIL (R128): A slice self-check fault fails the lane. -/
  | laneSelfCheckFail (now : Nat) (lane : Nat)
  /-- LANE_LOCK_HUNT_EXPIRED (R128): Block lock not regained within 10 µs fails the lane with LOCK_LOST. -/
  | laneLockHuntExpired (now : Nat) (lane : Nat)
  /-- SPARE_SWAP_RESUME (R129): The spare gains lock and sees RX_READY, and groups are dealt to the lane again. -/
  | spareSwapResume (now : Nat) (tile : Nat)
  /-- FAILED_SLICE_RETEST_DONE (R130): A failed slice's self-test ends and it retrains behind the spare, or is retired. -/
  | failedSliceRetestDone (now : Nat) (tile : Nat) (pass : Bool)
  /-- ROUTE_NOTICE_RECEIVED (R201): A ROUTE_NOTICE updates the member and group tables. -/
  | routeNoticeReceived (now : Nat) (u : Nat) (p : Pkt)
  /-- SETTLE_TIMER_EXPIRED (R216): RT_SETTLE.MS passes with no topology event and SETTLING clears. -/
  | settleTimerExpired (now : Nat)
  /-- JOIN_RECEIVED (R219): A JOIN is answered with JOIN_ACK ACCEPT or GEOM. -/
  | joinReceived (now : Nat) (u : Nat) (p : Pkt)
  /-- JOIN_ACK_RECEIVED (R219): A JOIN_ACK sets the partner LIVE or marks GEOM, and may complete the join. -/
  | joinAckReceived (now : Nat) (u : Nat) (p : Pkt)
  /-- JOIN_REPEAT_TIMER (R219): Every 1 ms, JOIN is repeated on units not answered with ACCEPT. -/
  | joinRepeatTimer (now : Nat)
  /-- JOIN_WINDOW_EXPIRED (R219): 10 ms after the first JOIN with an ACCEPT in hand, the join completes. -/
  | joinWindowExpired (now : Nat)
  /-- EPOCH_REPEAT_TIMER (R220): The epoch announcement is repeated at 10 ms and 100 ms. -/
  | epochRepeatTimer (now : Nat)
  /-- EPOCH_NOTICE_RECEIVED (R221): An EPOCH_NOTICE is forwarded once and passed to the AT, MT and CL roles. -/
  | epochNoticeReceived (now : Nat) (u : Nat) (p : Pkt)
  /-- PACKET_INJECT (R218): A TP channel injects a request packet once the windows and the injection account allow it. -/
  | packetInject (now : Nat) (msgid : Nat) (read : List Byte)
  /-- CONTEXT_FETCH_DONE (R234): A fetched context arrives and its parked packets are processed in order. -/
  | contextFetchDone (now : Nat) (ec : Nat) (ue : Option Nat)
  /-- PUT_ARRIVED (R337): A PUT passes the ejection checks, region checks and translation and is placed. -/
  | putArrived (now : Nat) (u : Nat) (p : Pkt) (ue : Option Nat)
  /-- GET_REQ_ARRIVED (R249): A GET_REQ is checked and answered with GET_RSP packets. -/
  | getReqArrived (now : Nat) (u : Nat) (p : Pkt) (ue : Option Nat)
  /-- GET_RSP_ARRIVED (R249): A GET_RSP packet is placed at the requester. -/
  | getRspArrived (now : Nat) (u : Nat) (p : Pkt)
  /-- SEND_ARRIVED (R283): A SEND packet is matched against posted receives or stored as unexpected. -/
  | sendArrived (now : Nat) (u : Nat) (p : Pkt) (ue : Option Nat)
  /-- SEND_RTS_ARRIVED (R289): An RTS is matched, and the matched receive starts a GET, or the RTS joins the unexpected list. -/
  | sendRtsArrived (now : Nat) (u : Nat) (p : Pkt)
  /-- FIN_ARRIVED (R290): A FIN completes its rendezvous send and frees the entry. -/
  | finArrived (now : Nat) (u : Nat) (p : Pkt)
  /-- ACK_ARRIVED (R253): An ACK retires packets, samples RTT and updates the controls. -/
  | ackArrived (now : Nat) (u : Nat) (p : Pkt)
  /-- NACK_ARRIVED (R250): A NACK schedules a resend or fails the message. -/
  | nackArrived (now : Nat) (u : Nat) (p : Pkt)
  /-- ATOMIC_ARRIVED (R431): The home runs an ATOMIC in its AT channel and returns the old value. -/
  | atomicArrived (now : Nat) (u : Nat) (p : Pkt) (ue : Option Nat)
  /-- ATOMIC_RSP_ARRIVED (R341): An ATOMIC_RSP is placed, or kept until its page fault is resolved. -/
  | atomicRspArrived (now : Nat) (u : Nat) (p : Pkt)
  /-- LOCK_ARRIVED (R434): The home acts on a LOCK operation and grants, queues or refuses. -/
  | lockArrived (now : Nat) (u : Nat) (p : Pkt) (ue : Option Nat)
  /-- LOCK_RSP_ARRIVED (R440): A LOCK_RSP is placed and the holds record is made or removed. -/
  | lockRspArrived (now : Nat) (u : Nat) (p : Pkt)
  /-- LOCK_NOTICE_ARRIVED (R437): A LOCK_NOTICE writes LOCK_BOOST to the owner function's EQ. -/
  | lockNoticeArrived (now : Nat) (u : Nat) (p : Pkt)
  /-- MC_PUT_ARRIVED (R94): An MC_PUT copy is delivered to the EC named in the header. -/
  | mcPutArrived (now : Nat) (u : Nat) (p : Pkt)
  /-- CL_UP_ARRIVED (R395): A CL_UP DATA contribution is combined, held or answered BUSY. -/
  | clUpArrived (now : Nat) (u : Nat) (p : Pkt)
  /-- CL_DOWN_ARRIVED (R395): A CL_DOWN DATA result is placed and forwarded to the children. -/
  | clDownArrived (now : Nat) (u : Nat) (p : Pkt)
  /-- CL_ACK_ARRIVED (R401): A hop ACK releases the kept CL packet. -/
  | clAckArrived (now : Nat) (u : Nat) (p : Pkt)
  /-- CL_ABORT_ARRIVED (R405): An ABORT aborts the group and is passed on to the other neighbours. -/
  | clAbortArrived (now : Nat) (u : Nat) (p : Pkt)
  /-- CL_BUSY_ARRIVED (R402): A BUSY answer schedules a resend that counts no retry. -/
  | clBusyArrived (now : Nat) (u : Nat) (p : Pkt)
  /-- EX_BATCH_ARRIVED (R416): An EX_BATCH is deduplicated, staged and answered with a credit. -/
  | exBatchArrived (now : Nat) (u : Nat) (p : Pkt)
  /-- EX_CREDIT_ARRIVED (R415): An EX_CREDIT releases batches, opens the window or fails the job. -/
  | exCreditArrived (now : Nat) (u : Nat) (p : Pkt)
  /-- RETRANSMIT_TIMER_EXPIRED (R253): A message's timer expires, copies are built and the retry count rises. -/
  | retransmitTimerExpired (now : Nat) (msgid : Nat)
  /-- NACK_BACKOFF_EXPIRED (R251): BACKOFF_US passes and the NACKed copy is resent. -/
  | nackBackoffExpired (now : Nat) (msgid : Nat) (psn : Nat)
  /-- NACK_WAIT_LIMIT_EXPIRED (R250): Resend NACKs still drawn after NACK_WAIT_MS fail the message. -/
  | nackWaitLimitExpired (now : Nat) (msgid : Nat) (psn : Nat)
  /-- ACK_TIME_EXPIRED (R246): TIME_NS after an unacknowledged arrival, an ACK is sent. -/
  | ackTimeExpired (now : Nat) (src : Nat) (msgid : Nat)
  /-- RECEIVER_RECORD_EXPIRED (R243): A receiver record reaches STAMP plus 2 ms and is deleted. -/
  | receiverRecordExpired (now : Nat) (src : Nat) (msgid : Nat)
  /-- MSGID_QUARANTINE_END (R240): A retired MSGID leaves quarantine after 2 ms. -/
  | msgidQuarantineEnd (now : Nat) (msgid : Nat)
  /-- FLOW_ENTRY_IDLE (R265): A flow with no packet in flight for 100 µs gives up its entry. -/
  | flowEntryIdle (now : Nat) (ec : Nat) (dst : Nat) (tc : Nat)
  /-- RDV_LIMIT_EXPIRED (R292): RDV_LIMIT_MS ends a rendezvous send as NACKED. -/
  | rdvLimitExpired (now : Nat) (index : Nat)
  /-- RDV_CLOSE_EXPIRED (R302): RDV_CLOSE_MS after an EC close, its rendezvous entries end and the close completes. -/
  | rdvCloseExpired (now : Nat) (ec : Nat)
  /-- XL_INVAL_CMD_WRITE (R317): XL_INVAL_CMD issues a PAGES, DOMAIN or ALL invalidation. -/
  | xlInvalCmdWrite (who : Who) (width : Nat) (val : Word)
  /-- XL_INVAL_COMPLETE (R318): An invalidation completes and DONE advances. -/
  | xlInvalComplete (now : Nat) (id : Nat)
  /-- XL_DOM_WRITE (R322): A write to XL_DOM sets a domain or clears VALID and starts a sweep. -/
  | xlDomWrite (who : Who) (dom : Nat) (width : Nat) (val : Word)
  /-- DOMAIN_SWEEP_DONE (R322): A domain sweep ends and SWEEP clears. -/
  | domainSweepDone (dom : Nat)
  /-- PAGE_WALK_DONE (R309): A page walk ends, installing a translation or faulting. -/
  | pageWalkDone (now : Nat) (id : Nat) (reads : List WalkRead)
  /-- XL_PKRR_WRITE (R313): A store at doorbell offset 0xF00 sets the EC's XL_PKRR in descriptor order. -/
  | xlPkrrWrite (hp fn page : Nat) (width : Nat) (val : Word)
  /-- HOST_ACCESS_FINISHED (R338): An admitted access to host memory finishes and INFLIGHT falls. -/
  | hostAccessFinished (now : Nat) (id : Nat) (data : List Byte) (ok : Bool)
  /-- MR_CMD_REVOKE (R349): MR_CMD REVOKE marks a region REVOKING. -/
  | mrCmdRevoke (who : Who) (width : Nat) (val : Word)
  /-- REVOKE_FLUSH_READ_DONE (R348): The zero-length read after the drain completes and the region becomes FREE. -/
  | revokeFlushReadDone (now : Nat) (index : Nat)
  /-- MR_PAGE_RESOLVE_RETRY (R343): RETRY frees the fault entry and stalled work retries. -/
  | mrPageResolveRetry (who : Who) (width : Nat) (id : Nat)
  /-- MR_PAGE_RESOLVE_FAIL (R343): FAIL ends stalled work and holds the entry FAILED. -/
  | mrPageResolveFail (now : Nat) (who : Who) (width : Nat) (id : Nat)
  /-- FAULT_RESOLVE_LIMIT_EXPIRED (R344): An entry unresolved for RESOLVE_LIMIT_MS is treated as FAIL. -/
  | faultResolveLimitExpired (now : Nat) (id : Nat)
  /-- FAULT_FAIL_HOLD_EXPIRED (R343): FAIL_HOLD_MS passes and the FAILED entry is freed. -/
  | faultFailHoldExpired (now : Nat) (id : Nat)
  /-- CXL_MEM_READ (R366): A MemRd or MemRdData hits the far cache, fetches, or reads through. -/
  | cxlMemRead (now : Nat) (hp addr : Nat)
  /-- CXL_MEM_WRITE (R367): A MemWr of a whole sector dirties it, or goes to the home. -/
  | cxlMemWrite (now : Nat) (hp addr : Nat) (data : List Byte) (poison : Bool)
  /-- CXL_MEM_WRITE_PARTIAL (R367): A MemWrPtl merges into a sector, fetching first when it is invalid. -/
  | cxlMemWritePartial (now : Nat) (hp addr : Nat) (data : List Byte) (en : List Bool) (poison : Bool)
  /-- CXL_MEM_SPEC_READ (R358): A MemSpecRd is accepted and discarded. -/
  | cxlMemSpecRead (now : Nat)
  /-- FAR_CACHE_FETCH_DONE (R366): A line fetch completes and fills the invalid sectors. -/
  | farCacheFetchDone (now : Nat) (id : Nat)
  /-- WRITE_BACK_PUT_DONE (R370): A write-back PUT completes, cleaning its sectors or keeping the line for retry. -/
  | writeBackPutDone (now : Nat) (id : Nat)
  /-- SHARED_RW_PUT_DONE (R374): A SHARED_RW write's PUT completes and the host write completes. -/
  | sharedRwPutDone (now : Nat) (id : Nat)
  /-- WB_RETRY_TIMER (R370): A kept line is written back again every WB_RETRY_MS. -/
  | wbRetryTimer (now : Nat) (line : Nat)
  /-- GW_LIMIT_EXPIRED (R376): LIMIT_US passes: the read returns poison or the write is lost. -/
  | gwLimitExpired (now : Nat) (id : Nat)
  /-- GW_FLUSH_WRITEBACK (R372): A WRITEBACK command writes back the dirty sectors in its scope. -/
  | gwFlushWriteback (who : Who) (width scope lines : Nat)
  /-- GW_FLUSH_EVICT (R372): An EVICT command writes back and removes the lines in its scope. -/
  | gwFlushEvict (who : Who) (width scope lines : Nat)
  /-- GW_FLUSH_DISCARD (R372): A DISCARD command removes the lines in its scope, dropping dirty data. -/
  | gwFlushDiscard (who : Who) (width scope lines : Nat)
  /-- GW_FLUSH_COMPLETE (R373): A flush command completes with OK or WB_FAILED. -/
  | gwFlushComplete (now : Nat)
  /-- HDM_DECODER_COMMIT (R357): The host commits an HDM decoder, which succeeds or fails with error not committed. -/
  | hdmDecoderCommit (hp dec base size skip ways : Nat)
  /-- DOORBELL_WRITE (R459): A WQ doorbell advances PI, or puts the WQ into ERROR, or is discarded. -/
  | doorbellWrite (now : Nat) (hp fn page : Nat) (width : Nat) (val : Word)
  /-- PUSH_SLOT_WRITE (R458): Bytes written into a push slot form a pushed descriptor copy. -/
  | pushSlotWrite (hp fn page off : Nat) (bytes : List Byte)
  /-- DESCRIPTOR_FETCH_DONE (R460): A ring read returns descriptors into the prefetch cache, or ends in RING_READ. -/
  | descriptorFetchDone (now : Nat) (hp wq : Nat) (descs : List (List Word)) (ok : Bool)
  /-- DESC_NOP (R454): A NOP descriptor completes. -/
  | descNop (now : Nat) (hp wq : Nat)
  /-- DESC_PUT (R455): A PUT descriptor starts a PUT message. -/
  | descPut (now : Nat) (hp wq : Nat)
  /-- DESC_GET (R249): A GET descriptor starts a GET message. -/
  | descGet (now : Nat) (hp wq : Nat)
  /-- DESC_SEND (R287): A SEND descriptor sends eagerly or by RTS. -/
  | descSend (now : Nat) (hp wq : Nat)
  /-- DESC_RECV (R282): A RECV searches the unexpected list, then joins the posted list. -/
  | descRecv (now : Nat) (hp wq : Nat)
  /-- DESC_PROBE (R296): A PROBE searches the unexpected list without consuming. -/
  | descProbe (now : Nat) (hp wq : Nat)
  /-- DESC_CANCEL (R296): A CANCEL removes the oldest unmatched receive with the tag. -/
  | descCancel (now : Nat) (hp wq : Nat)
  /-- DESC_ATOMIC (R430): An ATOMIC descriptor sends an atomic request. -/
  | descAtomic (now : Nat) (hp wq : Nat)
  /-- DESC_LOCK (R434): A LOCK descriptor sends a lock operation. -/
  | descLock (now : Nat) (hp wq : Nat)
  /-- DESC_REG (R334): A REG descriptor registers a region and returns its key. -/
  | descReg (now : Nat) (hp wq : Nat)
  /-- DESC_REVOKE (R349): A REVOKE descriptor revokes one of the function's regions. -/
  | descRevoke (now : Nat) (hp wq : Nat)
  /-- DESC_RESOLVE (R343): A RESOLVE descriptor resolves a fault-table entry. -/
  | descResolve (now : Nat) (hp wq : Nat)
  /-- DESC_INVAL (R319): An INVAL descriptor invalidates translations of the function's own domain. -/
  | descInval (now : Nat) (hp wq : Nat)
  /-- DESC_COLL (R393): A COLL descriptor starts a collective operation on a group. -/
  | descColl (now : Nat) (hp wq : Nat) (data : List Byte)
  /-- DESC_COLL_ABORT (R405): A COLL_ABORT descriptor aborts the group with cause HOST. -/
  | descCollAbort (now : Nat) (hp wq : Nat)
  /-- DESC_EX_SEND (R411): An EX_SEND reads records and adds them to destination batches. -/
  | descExSend (now : Nat) (hp wq : Nat) (data : List Byte)
  /-- DESC_EX_FLUSH (R419): An EX_FLUSH sends every open batch of the job. -/
  | descExFlush (now : Nat) (hp wq : Nat)
  /-- DESC_EX_CONSUME (R410): An EX_CONSUME advances the job ring's CI. -/
  | descExConsume (now : Nat) (hp wq : Nat)
  /-- CQ_DOORBELL_WRITE (R466): QM_CQ_DB consumes CQ entries, releases held completions and may arm the interrupt. -/
  | cqDoorbellWrite (now : Nat) (who : Who) (hp fn : Nat) (width : Nat) (val : Word)
  /-- EQ_DOORBELL_WRITE (R466): QM_EQ_DB consumes EQ entries and may arm the interrupt. -/
  | eqDoorbellWrite (now : Nat) (who : Who) (hp fn : Nat) (width : Nat) (val : Word)
  /-- INTERRUPT_MODERATION_EXPIRED (R466): MOD_US passes on an armed queue and its vector fires. -/
  | interruptModerationExpired (now : Nat) (ofEq : Bool) (hp n : Nat)
  /-- CQ_STALL_LIMIT_EXPIRED (R463): A CQ full for the stall limit enters ERROR with its WQs and ECs. -/
  | cqStallLimitExpired (now : Nat) (hp cq : Nat)
  /-- QM_CMD_EQ_CREATE (R474): Queue command EQ_CREATE creates an EQ. -/
  | qmCmdEqCreate (who : Who) (hp fn : Nat) (width : Nat)
  /-- QM_CMD_CQ_CREATE (R474): Queue command CQ_CREATE creates a CQ. -/
  | qmCmdCqCreate (who : Who) (hp fn : Nat) (width : Nat)
  /-- QM_CMD_WQ_CREATE (R474): Queue command WQ_CREATE creates a WQ. -/
  | qmCmdWqCreate (who : Who) (hp fn : Nat) (width : Nat)
  /-- QM_CMD_EC_OPEN (R475): Queue command EC_OPEN opens an EC and binds its domain and receive CQ. -/
  | qmCmdEcOpen (who : Who) (hp fn : Nat) (width : Nat)
  /-- QM_CMD_EC_CLOSE (R297): Queue command EC_CLOSE cancels receives, frees unexpected entries and waits for rendezvous. -/
  | qmCmdEcClose (now : Nat) (who : Who) (hp fn : Nat) (width : Nat)
  /-- QM_CMD_DESTROY (R475): Queue command DESTROY frees an EQ, CQ or WQ. -/
  | qmCmdDestroy (who : Who) (hp fn : Nat) (width : Nat)
  /-- QM_CMD_RESET (R463): Queue command RESET returns an object from ERROR to READY. -/
  | qmCmdReset (who : Who) (hp fn : Nat) (width : Nat)
  /-- QM_CMD_QUERY (R474): Queue command QUERY returns the state, cause and indices of an object. -/
  | qmCmdQuery (who : Who) (hp fn : Nat) (width : Nat)
  /-- PERST_ASSERT (R469): PERSTn_N low starts HFUND of the port. -/
  | perstAssert (now : Nat) (hp : Nat)
  /-- HOT_RESET_START (R612): An in-band hot reset resets every function of the port. -/
  | hotResetStart (now : Nat) (hp : Nat)
  /-- SURPRISE_LINK_DOWN (R472): The host link drops, in-flight accesses end and the port's functions reset. -/
  | surpriseLinkDown (now : Nat) (hp : Nat)
  /-- PORT_RESET_COMPLETE (R469): A host-port reset completes once its accesses have finished and objects are FREE. -/
  | portResetComplete (hp : Nat)
  /-- HOST_LINK_UP (R447): A host port reaches L0 in FLIT mode and LINK_UP sets. -/
  | hostLinkUp (now : Nat) (hp : Nat) (flit : Bool) (speed width : Nat)
  /-- PF0_ENABLES_SET (R450): The host sets PF0's Bus Master and Memory Space enables and the port may serve. -/
  | pf0EnablesSet (now : Nat) (hp : Nat) (cfg : PortCfg) (masked : List Nat)
  /-- FLR_START (R469): A function-level reset begins for a function. -/
  | flrStart (now : Nat) (hp fn : Nat)
  /-- FLR_COMPLETE (R469): An FLR completes once its objects are freed. -/
  | flrComplete (hp fn : Nat)
  /-- FLR_WEDGE_TIMEOUT (R471): An FLR not done in 100 ms leaves the function wedged. -/
  | flrWedgeTimeout (now : Nat) (hp fn : Nat)
  /-- VF_ENABLE_CLEAR (R613): Clearing VF Enable resets every VF of the port. -/
  | vfEnableClear (now : Nat) (hp : Nat)
  /-- D3HOT_ENTER (R468): A function enters D3hot and stops taking doorbells. -/
  | d3hotEnter (hp fn : Nat)
  /-- D0_RETURN (R468): A function returns to D0 without reset. -/
  | d0Return (hp fn : Nat)
  /-- L0P_IDLE_NARROW (R467): After L0P_IDLE_US of low use, the port halves its width. -/
  | l0pIdleNarrow (hp lowNs : Nat)
  /-- L0P_RESTORE (R467): A direction's queue above 4 KiB restores full width. -/
  | l0pRestore (hp queued : Nat)
  /-- L1_IDLE_ENTRY (R467): After L1_IDLE_US with no traffic, the port enters L1. -/
  | l1IdleEntry (hp idleNs : Nat)
  /-- COLL_CL_CMD_ABORT (R405): CL_CMD ABORT aborts a group with cause HOST. -/
  | collClCmdAbort (who : Who) (g : Nat) (width : Nat)
  /-- CL_CMD_RESET (R405): CL_CMD RESET returns an ABORTED group to IDLE. -/
  | clCmdReset (who : Who) (g : Nat) (width : Nat)
  /-- CL_HOP_RTO_EXPIRED (R401): A hop timer expires and a new copy is sent, or the operation aborts HOP_LOST. -/
  | clHopRtoExpired (now : Nat) (g dev seq psn : Nat) (abort : Bool)
  /-- CL_OP_LIMIT_EXPIRED (R405): An operation not complete after OP_LIMIT_MS aborts. -/
  | clOpLimitExpired (now : Nat) (g seq : Nat)
  /-- EX_RING_CI_WRITE (R417): A write to EX_RING CI frees ring room. -/
  | exRingCiWrite (who : Who) (j : Nat) (width : Nat) (val : Word)
  /-- EX_BATCH_TIMER (R413): BATCH_US after its first record, an open batch is sent. -/
  | exBatchTimer (now : Nat) (j dev ec : Nat)
  /-- EX_RTO_EXPIRED (R415): An unacknowledged batch is resent, or the job fails after RETRIES. -/
  | exRtoExpired (now : Nat) (j dev bseq : Nat)
  /-- EX_PROBE_TIMER (R418): With the window closed, an empty probe batch is sent every BACKOFF_US. -/
  | exProbeTimer (now : Nat) (j dev : Nat)
  /-- EX_RING_COPY (R417): A staged batch is copied into the ring once it fits, and its credit is sent. -/
  | exRingCopy (now : Nat) (j : Nat)
  /-- EX_RING_STALL (R417): A ring full for 100 ms writes EX_STALL once. -/
  | exRingStall (now : Nat) (j : Nat)
  /-- ALIAS_ACQUIRE_READ (R438): A read of alias offset 0x00 sends ACQUIRE and stalls until the result. -/
  | aliasAcquireRead (now : Nat) (hp fn slot : Nat)
  /-- ALIAS_TRY_READ (R438): A read of alias offset 0x08 sends TRY. -/
  | aliasTryRead (now : Nat) (hp fn slot : Nat)
  /-- ALIAS_RELEASE_READ (R438): A read of alias offset 0x10 sends RELEASE. -/
  | aliasReleaseRead (now : Nat) (hp fn slot : Nat)
  /-- ALIAS_RESULT_READ (R438): A read of alias offset 0x18 returns the slot's last result. -/
  | aliasResultRead (now : Nat) (hp fn slot : Nat)
  /-- ALIAS_MARGIN_EXPIRED (R439): An alias read unanswered in time returns UNKNOWN and sends CLEANUP. -/
  | aliasMarginExpired (now : Nat) (slot : Nat)
  /-- LOCK_WAIT_EXPIRED (R435): A waiter queued for WAIT_US receives TIMEOUT. -/
  | lockWaitExpired (now : Nat) (dom dva src msgid : Nat)
  /-- ABANDON_WAIT_EXPIRED (R441): 50 ms into a reset, unfinished ABANDONs are marked ABANDONING. -/
  | abandonWaitExpired (now : Nat) (hp : Nat) (fn : Option Nat)
  /-- ABANDON_RESEND_TIMER (R441): ABANDON is resent every 10 ms for ABANDONING records. -/
  | abandonResendTimer (now : Nat) (record : Nat)
  /-- KILN_GATE_PASS (R491): A bulk unit waiting at the kiln gate starts once C is above its class threshold. -/
  | kilnGatePass (now : Nat) (kind a b : Nat)
  /-- POLICER_RELEASE (R489): A packet held by its policer is marked again when its buckets refill. -/
  | policerRelease (now : Nat) (msgid : Nat)
  /-- INJECTION_SELECT (R483): The injection scheduler picks the next packet by strictness and finish tag. -/
  | injectionSelect (now : Nat) (port : Nat)
  /-- SLICE_GRANT (R484): A tile's slice arbiter grants one slice. -/
  | sliceGrant (now : Nat) (tile : Nat)
  /-- CALENDAR_SLOT_ADVANCE (R487): The Mordom calendar moves to its next slot. -/
  | calendarSlotAdvance (now : Nat)
  /-- QUEUE_MONITOR_SAMPLE (R490): Each SAMPLE_US, a monitor samples depth and delay and may write SC_DELAY. -/
  | queueMonitorSample (now : Nat) (monitor : Nat)
  /-- KILN_PERIOD (R493): Every 10 µs, the kiln measures power and temperature and updates A and C. -/
  | kilnPeriod (now : Nat) (p : Nat) (temps speeds : List Nat) (rails : List (Nat × Nat))
  /-- VCORE_STEP (R496): Every 100 µs, the kiln steps VCORE under FIXED or SPEED. -/
  | vcoreStep (now : Nat) (ok : Bool)
  /-- THERM_SOFT_STEP (R496): While THERM_SOFT is set, VCORE falls 5 mV every 1 ms. -/
  | thermSoftStep (now : Nat) (ok : Bool)
  /-- AVS_CALIBRATION (R492): Every 1 ms, the kiln reads the regulator over AVSBus and corrects the current gain. -/
  | avsCalibration (now : Nat) (ok : Bool) (mv gain : Nat)
  /-- AVS_RETRY (R497): With AVS_FAULT set, AVSBus is retried every 1 ms. -/
  | avsRetry (now : Nat) (ok : Bool) (mv : Nat)
  /-- KN_BUDGET_WRITE (R502): A KN_BUDGET write takes effect at the next kiln period. -/
  | knBudgetWrite (who : Who) (width : Nat) (val : Word)
  /-- FAULT_RAISED (R512): A source's pair changes to error and the collector applies its reactions. -/
  | faultRaised (now : Nat) (src inst : Nat)
  /-- BROKEN_WIRE_DETECTED (R508): A pair with equal rails for 1 µs raises WIRE. -/
  | brokenWireDetected (now : Nat) (src : Nat)
  /-- FC_CMD_RELEASE (R517): FC_CMD RELEASE releases a fence. -/
  | fcCmdRelease (who : Who) (width : Nat) (all : Bool) (src inst : Nat) (held : List (Nat × Nat))
  /-- FC_CMD_CHIP_RESET (R527): FC_CMD CHIP_RESET with CONFIRM from the management controller resets the chip. -/
  | fcCmdChipReset (who : Who) (width : Nat) (confirm : Nat)
  /-- FC_CMD_SELFTEST (R530): FC_CMD SELFTEST starts the self test in TEST. -/
  | fcCmdSelftest (who : Who) (width : Nat)
  /-- SELFTEST_DONE (R530): The self test ends and FC_SELFTEST reports pass or fail. -/
  | selftestDone (failed : Option Nat)
  /-- FC_PEND_CLEAR (R514): A W1C of FC_PEND clears pending bits and may release ERROR_N. -/
  | fcPendClear (who : Who) (width : Nat) (val : Word)
  /-- TILE_FAIL (R21): An engine tile fails, is fenced and replaced by a spare or shed. -/
  | tileFail (now : Nat) (tile : Nat)
  /-- MGMT_PAIR_FAIL (R518): The active management pair diverges and the standby takes over. -/
  | mgmtPairFail (now : Nat)
  /-- MGMT_PAIR_RETEST_DONE (R519): A failed pair's self-test ends, making it the standby or retiring it. -/
  | mgmtPairRetestDone (now : Nat) (pair : Nat) (ok : Bool)
  /-- WATCHDOG_RESTART (R525): Firmware restarts FC_WDOG. -/
  | watchdogRestart (now : Nat)
  /-- WATCHDOG_EXPIRED (R525): The watchdog period passes without a restart. -/
  | watchdogExpired (now : Nat)
  /-- HBM_STACK_FAIL (R521): An HBM stack fails and its partitions move to their mirrors. -/
  | hbmStackFail (now : Nat) (stack : Nat)
  /-- HBM_REMIRROR_DONE (R522): The background re-mirroring ends and REMIRROR clears. -/
  | hbmRemirrorDone
  /-- FW_DL_CMD_WRITE (R540): FW_DL_CMD starts writing a block read from host memory into the inactive slot. -/
  | fwDlCmdWrite (who : Who) (width : Nat) (val : Word)
  /-- MCTP_DOWNLOAD (R540): A DOWNLOAD message starts writing a block into the inactive slot. -/
  | mctpDownload (via : Option Nat) (slot off : Nat) (data : List Byte)
  /-- FW_BLOCK_WRITTEN (R540): A block is erased, programmed and read back. -/
  | fwBlockWritten (now : Nat) (data : List Byte) (ok : Bool)
  /-- FW_CMD_ACTIVATE (R542): FW_CMD ACTIVATE warm-boots the management complex from the inactive slot. -/
  | fwCmdActivate (who : Who) (width slot : Nat)
  /-- MCTP_ACTIVATE (R542): An ACTIVATE message starts activation. -/
  | mctpActivate (via : Option Nat) (slot : Nat)
  /-- FW_WARM_BOOT_DONE (R543): The warm boot verifies the new slot or boots back the previous one. -/
  | fwWarmBootDone (now : Nat) (img : Image)
  /-- FW_SWAP_PREPARED (R543): Swap preparation ends and the activation HOLD switches microcode and sections. -/
  | fwSwapPrepared (now : Nat)
  /-- FW_HEALTH_OK (R544): The new firmware sets FW_HEALTH.OK. -/
  | fwHealthOk
  /-- FW_CMD_CONFIRM (R544): FW_CMD CONFIRM confirms health and sets PREFERRED. -/
  | fwCmdConfirm (who : Who) (width : Nat)
  /-- MCTP_CONFIRM (R556): A CONFIRM message acts as FW_CMD CONFIRM. -/
  | mctpConfirm (via : Option Nat)
  /-- HEALTH_WINDOW_EXPIRED (R544): 30 s without confirmation falls back to the previous slot. -/
  | healthWindowExpired (now : Nat)
  /-- FW_CMD_RECOVERY_REQ (R552): FW_CMD RECOVERY_REQ sets the recovery request flag. -/
  | fwCmdRecoveryReq (who : Who) (width confirm : Nat)
  /-- FW_CMD_COMMIT_SVN (R553): FW_CMD COMMIT_SVN raises SVN_MIN to the running SVN. -/
  | fwCmdCommitSvn (who : Who) (width : Nat)
  /-- FW_CMD_REVOKE_KEY (R554): FW_CMD REVOKE_KEY blows a firmware key revoke fuse. -/
  | fwCmdRevokeKey (who : Who) (width key confirm : Nat)
  /-- MCTP_GET_STATUS (R556): GET_STATUS returns FW_STAT and the slot registers. -/
  | mctpGetStatus (via : Option Nat)
  /-- MCTP_GET_CERT (R556): GET_CERT returns a DER certificate. -/
  | mctpGetCert (via : Option Nat) (index : Nat)
  /-- MCTP_ATTEST (R558): ATTEST returns a signed 512-byte report. -/
  | mctpAttest (via : Option Nat) (nonce : List Byte)
  /-- MCTP_CSR_READ (R557): CSR_READ reads a BAR0 register for the management controller. -/
  | mctpCsrRead (via : Option Nat) (off : Nat)
  /-- MCTP_CSR_WRITE (R557): CSR_WRITE writes a BAR0 register as the management controller. -/
  | mctpCsrWrite (via : Option Nat) (off : Nat) (val : Word) (env : CsrEnv)
  /-- JTAG_DEBUG_UNLOCK (R559): A valid unlock token opens debug access beyond boundary scan. -/
  | jtagDebugUnlock (key : Nat) (valid : Bool)
  /-- SUPPLY_WARNING (R564): A supply falls below its warning level, setting BROWNOUT and EARLY_WARN_N. -/
  | supplyWarning (now : Nat) (rail cv : Nat)
  /-- SUPPLY_ABOVE_RECOVERY (R565): The supply rises above its rising level and the 2 ms count starts. -/
  | supplyAboveRecovery (now : Nat) (rail cv : Nat)
  /-- SUPPLY_RECOVERY_DONE (R565): The 2 ms count completes and the supply source clears. -/
  | supplyRecoveryDone (now : Nat) (rail : Nat)
  /-- SUPPLY_RESET (R566): A supply below its reset level causes a chip reset. -/
  | supplyReset (now : Nat) (rail : Nat)
  /-- VMON_OPEN_TEST (R568): Every 1 ms, a current pulse tests the VMON pin for an open divider. -/
  | vmonOpenTest (now : Nat) (rise : Nat)
  /-- THERMTRIP (R585): A sensor at 110 °C for 2 µs latches THERMTRIP_N and shuts the outputs down. -/
  | thermtrip (now : Nat)
  /-- REFCLK_LOSS (R590): A reference clock stops or leaves its band for 10 µs and raises REFCLK. -/
  | refclkLoss (now : Nat) (clock : Nat)
  /-- I3C_BUS_STUCK (R589): A bus held low for over 10 ms raises SIDEBAND. -/
  | i3cBusStuck (now : Nat) (lowNs : Nat)
  /-- I3C_SDA_RELEASE (R589): The target releases SDA after 100 µs with no SCL edge. -/
  | i3cSdaRelease (now : Nat) (drivenNs : Nat)
  /-- CG_ENABLE (R573): Setting CG_CTL.EN starts the channel's check. -/
  | cgEnable (now : Nat) (who : Who) (c width ramp : Nat)
  /-- CG_DISABLE (R583): Clearing EN turns the channel off and ends its retries. -/
  | cgDisable (now : Nat) (who : Who) (c width ramp : Nat)
  /-- CG_CLEAR (R577): CG_CTL.CLEAR clears a latched fault or refusal. -/
  | cgClear (now : Nat) (who : Who) (c width ramp : Nat) (en : Bool)
  /-- CG_CHECK_DONE (R573): The 100 µs check passes and the ramp starts, or the channel is REFUSED. -/
  | cgCheckDone (now : Nat) (c : Nat) (reads : CageReads)
  /-- CG_RAMP_DONE (R574): The ramp ends when Vin − Vout ≤ 150 mV with LIMIT clear. -/
  | cgRampDone (now : Nat) (c : Nat)
  /-- CG_LIMIT_ENGAGE (R579): Foldback limiting engages, dropping CPG and asserting CWARN_N. -/
  | cgLimitEngage (now : Nat) (c : Nat)
  /-- CG_LIMIT_RELEASE (R579): Limiting ends, CWARN_N is released and power good re-qualifies. -/
  | cgLimitRelease (now : Nat) (c : Nat)
  /-- CG_FAULT_TIMER_EXPIRED (R575): The fault timer reaches TIMER_US and the gate is pulled off. -/
  | cgFaultTimerExpired (now : Nat) (c : Nat)
  /-- CG_HARD_SHORT (R576): A current above 2 × ILIM turns the gate off within 1 µs. -/
  | cgHardShort (now : Nat) (c : Nat)
  /-- CG_BACKOFF_EXPIRED (R577): The 1 s backoff ends and the channel retries from CHECK. -/
  | cgBackoffExpired (now : Nat) (c : Nat)
  /-- CG_PG_QUALIFIED (R578): 1 ms with LIMIT clear after the ramp releases CPG. -/
  | cgPgQualified (now : Nat) (c : Nat)
  /-- CG_OFFSET_REZERO (R573): Every 100 ms while OFF, the sense amplifier offset is re-zeroed. -/
  | cgOffsetRezero (now : Nat) (c : Nat)
  /-- CG_MEASURE_TICK (R580): Every 10 µs, the channel measures and accumulates energy. -/
  | cgMeasureTick (now : Nat) (c vin vout iout : Nat)
  /-- PM_LEVEL_SAMPLE (R594): Every 100 ns, level events are sampled into their counters. -/
  | pmLevelSample (now : Nat)
  /-- PM_FREEZE_WRITE (R597): Writing FREEZE stops or resumes all counters and sampling. -/
  | pmFreezeWrite (now : Nat) (who : Who) (width : Nat) (val : Word)
  /-- PM_SNAP_WRITE (R598): Writing SNAP latches all counters into a snapshot record. -/
  | pmSnapWrite (now : Nat) (who : Who) (width : Nat) (val : Word)
  /-- PM_SNAPSHOT_PERIOD (R598): Every PERIOD_US, a snapshot is taken. -/
  | pmSnapshotPeriod (now : Nat)
  /-- PM_DRAIN_CMD (R600): PM_DRAIN_CMD starts copying ring records to host memory. -/
  | pmDrainCmd (who : Who) (width : Nat) (val : Word)
  /-- PM_DRAIN_DONE (R600): A drain ends and COPIED reports the records. -/
  | pmDrainDone
  /-- PM_COUNTER_WRITE (R605): A write to PM_CNT replaces VALUE at once. -/
  | pmCounterWrite (who : Who) (ctr width : Nat) (val : Word)
  /-- PATINA_PERIODIC_WRITE (R602): Every 10 min, firmware writes the patina's other fields to flash. -/
  | patinaPeriodicWrite (now : Nat) (hot powered : Nat)
  /-- PF0_ENABLES_CLEARED (R450): The host clears PF0's Bus Master Enable or Memory Space Enable, and the port stops serving, with RELAY following if the other port does not serve. -/
  | pf0EnablesCleared (now : Nat) (hp : Nat) (bme mse : Bool)
  /-- PERST_DEASSERT (R450): PERSTn_N goes high, ending HFUND of the port, which then begins to train and must answer configuration within 100 ms. -/
  | perstDeassert (now : Nat) (hp : Nat)
  /-- BLOCK_RESET_DONE (R526): A block reset ends and the block resumes; for example, an LL link enters INIT, a switch tile's ports retrain, or the management complex returns from warm boot. -/
  | blockResetDone (now : Nat) (code unit : Nat)
  /-- NO_SIGNAL_TIMEOUT (R121): A lane in SIGNAL that has termination, while another lane of its unit has signal, sees none for 10 ms and reports WIRE = NO_SIGNAL. -/
  | noSignalTimeout (now : Nat) (lane : Nat)
  /-- I3C_TARGET_RESET (R589): The I3C target reset pattern or the I2C bus-clear of 9 clocks arrives on the sideband bus and the target resets its bus state. -/
  | i3cTargetReset
deriving DecidableEq, Repr

end Sys2Proof
end

