-- ==== Sys2Proof/Config.lean ====
section
/-!
DEFINITION. Config.lean: the values the specification leaves open.  They have no body, so nothing that is proved
can rest on a particular value.
-/

namespace Sys2Proof

/-- Draw number n of a value that the specification leaves open: a random pick (R206, R232, R265, R310, R601), an
undefined or unstated result.  The machine reads draw `State.free` and advances the counter (log entry 3). -/
opaque Config.freeValue : Nat → Word

/-- The set of a far-cache line: an internal hash of the window offset that the specification does not give (R365, log
entry 3). -/
opaque Config.lineSet : Nat → Nat

/-- The hash of R427 that picks the AT channel of a word: of the domain and DVA[47:3], by a rule that the specification does not
give (log entry 3). -/
opaque Config.wordHash : Nat → Nat → Nat

/-- The next bit of the test pattern SSPRQ after 64 bits of it: IEEE 802.3 defines it, the specification does not (R135, log entry
3). -/
opaque Config.ssprq : Nat → Bool

/-- The device's serial number in the on-package OTP, 128 bits (R555, Table 18-8); fixed for each device (log entry 5). -/
opaque Config.serial : Nat

/-- The DER certificates of GET_CERT in 64-bit words: 0 the identity key's, 1 the attestation key's (R555, R556; log entry
5). -/
opaque Config.certificate : Nat → List Word

end Sys2Proof
end

