-- ==== Sys2Proof/Machine/Bits.lean ====
section
/-!
DEFINITION. Machine/Bits.lean: bit fields of words and numbers, saturating counters, byte order, and the sparse
tables that hold the machine's keyed state in one canonical form (keys strictly rising).
-/

namespace Sys2Proof.Machine

/-- Bits [lo + width - 1 : lo] of a number. -/
def bits (x lo width : Nat) : Nat := x / 2 ^ lo % 2 ^ width

/-- One bit of a number. -/
def bitAt (x i : Nat) : Bool := x / 2 ^ i % 2 == 1

/-- A number with bits [lo + width - 1 : lo] replaced by the low bits of v. -/
def putBits (x lo width v : Nat) : Nat :=
  x % 2 ^ lo + (v % 2 ^ width) * 2 ^ lo + x / 2 ^ (lo + width) * 2 ^ (lo + width)

/-- A field of a word. -/
def wordGet (w : Word) (lo width : Nat) : Nat := w.toNat / 2 ^ lo % 2 ^ width

/-- The word whose bits [lo + width - 1 : lo] are the ones, the others zero. -/
def wordMask (lo width : Nat) : Word := BitVec.ofNat 64 ((2 ^ width - 1) * 2 ^ lo)

/-- A word with one field replaced; the other bits keep their value. -/
def wordSet (w : Word) (lo width v : Nat) : Word :=
  BitVec.ofNat 64 (putBits w.toNat lo width v)

/-- Two's complement reading of a number of the given width. -/
def toSigned (width x : Nat) : Int :=
  if x % 2 ^ width < 2 ^ (width - 1) then (x % 2 ^ width : Nat) else ((x % 2 ^ width : Nat) : Int) - (2 ^ width : Nat)

/-- The number of the given width that an integer is written as in two's complement. -/
def ofSigned (width : Nat) (i : Int) : Nat := (i % ((2 ^ width : Nat) : Int)).toNat

/-- A saturating sum: counters stop at their largest value. -/
def satAdd (width a b : Nat) : Nat := min (a + b) (2 ^ width - 1)

/-- One when the condition holds, else zero. -/
def bit (b : Bool) : Nat := if b then 1 else 0

/-- A quotient rounded up. -/
def ceilDiv (a b : Nat) : Nat := if b = 0 then 0 else (a + b - 1) / b

/-- The n bytes of a number, byte 0 holding bits [7:0] (R5). -/
def toBytes : Nat → Nat → List Byte
  | 0, _ => []
  | n + 1, x => BitVec.ofNat 8 x :: toBytes n (x / 256)

/-- The number that bytes spell, byte 0 holding bits [7:0] (R5). -/
def ofBytes : List Byte → Nat
  | [] => 0
  | b :: bs => b.toNat + 256 * ofBytes bs

/-- The n bytes of a number, most significant byte first: the order of packet fields. -/
def toBytesBE (n x : Nat) : List Byte := (toBytes n x).reverse

/-- The number that bytes spell, most significant first. -/
def ofBytesBE (bs : List Byte) : Nat := ofBytes bs.reverse

/-! ### Sparse tables -/

/-- A sparse table: pairs of key and entry, the keys strictly rising. -/
abbrev Map (α : Type) := List (Nat × α)

/-- The entry under a key. -/
def mget {α : Type} : Map α → Nat → Option α
  | [], _ => none
  | (k', v) :: t, k => if k = k' then some v else mget t k

/-- The table with the entry under a key written. -/
def mset {α : Type} : Map α → Nat → α → Map α
  | [], k, v => [(k, v)]
  | (k', v') :: t, k, v =>
    if k < k' then (k, v) :: (k', v') :: t
    else if k = k' then (k, v) :: t
    else (k', v') :: mset t k v

/-- The table without the entry under a key. -/
def mdel {α : Type} : Map α → Nat → Map α
  | [], _ => []
  | (k', v') :: t, k => if k = k' then mdel t k else (k', v') :: mdel t k

/-- The entry under a key, or a default. -/
def mgetD {α : Type} (m : Map α) (k : Nat) (d : α) : α := (mget m k).getD d

/-- Whether a table lists a key. -/
def mhas {α : Type} (m : Map α) (k : Nat) : Bool := (mget m k).isSome

/-- The entry under a key changed by f, when there is one. -/
def mmod {α : Type} (m : Map α) (k : Nat) (f : α → α) : Map α :=
  match mget m k with
  | some v => mset m k (f v)
  | none => m

/-- The entries that satisfy a test. -/
def mfilter {α : Type} (m : Map α) (p : Nat → α → Bool) : Map α := m.filter fun e => p e.1 e.2

/-- The number of entries that satisfy a test. -/
def mcount {α : Type} (m : Map α) (p : Nat → α → Bool) : Nat := (m.filter fun e => p e.1 e.2).length

/-- Every entry changed by f. -/
def mmap {α : Type} (m : Map α) (f : Nat → α → α) : Map α := m.map fun e => (e.1, f e.1 e.2)

/-- The lowest number below n that is not a key, if there is one. -/
def mfree {α : Type} (m : Map α) (n : Nat) : Option Nat := (List.range n).find? fun k => !(mhas m k)

/-- The lowest number from start that is not a key, looking no further than the table's length. -/
def mnext {α : Type} (m : Map α) (start : Nat) : Nat :=
  ((List.range (m.length + 1)).map (start + ·)).find? (fun k => !(mhas m k)) |>.getD start

/-- Keys strictly rising: the canonical form of a sparse table. -/
def sortedKeys {α : Type} : Map α → Bool
  | [] => true
  | [_] => true
  | a :: b :: t => decide (a.1 < b.1) && sortedKeys (b :: t)

end Sys2Proof.Machine
end

