-- ==== Sys2Proof/Machine/Float.lean ====
section
/-!
DEFINITION. Machine/Float.lean: binary floating point as bit patterns, for FP32, BF16 and FP64 (R397 to R400, R430):
exact sums as integers, rounding to nearest with ties to even, minimum and maximum.
-/

namespace Sys2Proof.Machine

/-- A binary format: exponent bits and fraction bits. -/
structure Fmt where
  ew : Nat
  mw : Nat
deriving DecidableEq, Repr

def fp32 : Fmt := ⟨8, 23⟩
def bf16 : Fmt := ⟨8, 7⟩
def fp64 : Fmt := ⟨11, 52⟩

/-- Sign, exponent and fraction of a pattern. -/
def Fmt.neg (f : Fmt) (x : Nat) : Bool := bitAt x (f.ew + f.mw)
def Fmt.expo (f : Fmt) (x : Nat) : Nat := bits x f.mw f.ew
def Fmt.frac (f : Fmt) (x : Nat) : Nat := bits x 0 f.mw

def Fmt.isNan (f : Fmt) (x : Nat) : Bool := f.expo x == 2 ^ f.ew - 1 && f.frac x != 0
def Fmt.isInf (f : Fmt) (x : Nat) : Bool := f.expo x == 2 ^ f.ew - 1 && f.frac x == 0
def Fmt.isNegZero (f : Fmt) (x : Nat) : Bool := f.neg x && f.expo x == 0 && f.frac x == 0

/-- The magnitude of a finite pattern in units of the smallest subnormal. -/
def Fmt.mag (f : Fmt) (x : Nat) : Nat :=
  if f.expo x = 0 then f.frac x else (2 ^ f.mw + f.frac x) * 2 ^ (f.expo x - 1)

/-- A finite pattern as an integer in units of the smallest subnormal. -/
def Fmt.toInt (f : Fmt) (x : Nat) : Int := if f.neg x then -(f.mag x : Int) else (f.mag x : Int)

/-- A pattern with the given sign. -/
def Fmt.signed (f : Fmt) (neg : Bool) (x : Nat) : Nat := (if neg then 2 ^ (f.ew + f.mw) else 0) + x

/-- Infinity with a sign. -/
def Fmt.inf (f : Fmt) (neg : Bool) : Nat := f.signed neg ((2 ^ f.ew - 1) * 2 ^ f.mw)

/-- The canonical quiet NaN. -/
def Fmt.qnan (f : Fmt) : Nat := (2 ^ f.ew - 1) * 2 ^ f.mw + 2 ^ (f.mw - 1)

/-- The number of bits of a number, looking at most n bits far. -/
def bitLen : Nat → Nat → Nat
  | 0, _ => 0
  | n + 1, x => if x = 0 then 0 else bitLen n (x / 2) + 1

/-- A magnitude in units of the smallest subnormal rounded to the format, to nearest with ties to even; past the largest
finite value it is infinity (R397). -/
def Fmt.round (f : Fmt) (neg : Bool) (m : Nat) : Nat :=
  let l := bitLen 2400 m
  if l ≤ f.mw + 1 then f.signed neg m
  else
    let sh := l - (f.mw + 1)
    let q := m / 2 ^ sh
    let r := m % 2 ^ sh
    let up := decide (2 ^ (sh - 1) < r) || (r == 2 ^ (sh - 1) && q % 2 == 1)
    let q := if up then q + 1 else q
    let e := sh + q / 2 ^ (f.mw + 1)
    let q := if q = 2 ^ (f.mw + 1) then 2 ^ f.mw else q
    if 2 ^ f.ew - 1 ≤ e + 1 then f.inf neg else f.signed neg ((e + 1) * 2 ^ f.mw + q % 2 ^ f.mw)

/-- A rounded integer; zero is +0. -/
def Fmt.ofInt (f : Fmt) (i : Int) : Nat := f.round (decide (i < 0)) i.natAbs

/-- A sum rounded once; none when it is a NaN. -/
def Fmt.add (f : Fmt) (x y : Nat) : Option Nat :=
  if f.isNan x || f.isNan y then none
  else if f.isInf x && f.isInf y then (if f.neg x == f.neg y then some x else none)
  else if f.isInf x then some x
  else if f.isInf y then some y
  else if f.isNegZero x && f.isNegZero y then some x
  else some (f.ofInt (f.toInt x + f.toInt y))

/-- A key that orders the patterns that are no NaN, -0 below +0 (R400). -/
def Fmt.ordKey (f : Fmt) (x : Nat) : Int :=
  let m : Int := (x % 2 ^ (f.ew + f.mw) : Nat)
  if f.neg x then -m - 1 else m

/-- Minimum and maximum: any NaN gives the canonical quiet NaN (R400). -/
def Fmt.minmax (f : Fmt) (isMax : Bool) (x y : Nat) : Nat :=
  if f.isNan x || f.isNan y then f.qnan
  else if (decide (f.ordKey x < f.ordKey y)) == isMax then y else x

end Sys2Proof.Machine
end

