-- ==== Sys2Proof/Machine/State.lean ====
section
/-!
DEFINITION. Machine/State.lean: the state of the Orkor as plain data.  `csr` is the one home of every field that a
register of BAR0 shows; each block's structure holds what no register shows (buffers, queues, tables, timers).
-/

namespace Sys2Proof.Machine

/-- Nothing that a command asks of the Orkor stops it with a fault: an error is a register field, an event, a NACK
or a reaction of the fault collector (R507 to R534).  There is no constructor. -/
inductive Fault where
deriving DecidableEq, Repr

/-- Why a command has no meaning. -/
inductive Refusal where
  /-- Raised by the dispatch of a command that has no meaning yet; safe, the run stops. -/
  | notModelled (mnemonic : String)
deriving DecidableEq, Repr

/-! ### What the Orkor sends out -/

/-- One thing the Orkor sends out, in the order sent (the model's own record, log entry 4). -/
inductive Out where
  /-- Words written to host memory at a bus address through a host port (R452, R453). -/
  | hostWords (hp addr : Nat) (ws : List Word)
  /-- Bytes placed in host memory at a bus address through a host port. -/
  | hostBytes (hp addr : Nat) (bs : List Byte)
  /-- A read of host memory started through a host port: bus address and bytes. -/
  | hostRead (hp addr len : Nat)
  /-- A PCIe AtomicOp through a host port (R431): bus address, AOP, size in bytes, operands. -/
  | hostAtomic (hp addr aop size op1 op2 : Nat)
  /-- An MSI-X vector of a function raised (R466). -/
  | msix (hp fn vec : Nat)
  /-- The value a CSR or BAR read returns. -/
  | readData (who : Who) (off : Nat) (v : Word)
  /-- A memory request answered Unsupported Request (R611). -/
  | unsupported (who : Who) (off : Nat)
  /-- An MCTP response: completion code and words (Table 18-7). -/
  | mctp (code : Nat) (ws : List Word)
  /-- A packet handed to an injection port of the switch. -/
  | inject (port : Nat) (p : Pkt)
  /-- A frame sent on a port unit. -/
  | frame (port : Nat) (slots : List Flit)
  /-- Symbols that a lane sends in one codeword-pair period, or one training frame: two bits each (R106, R116). -/
  | lane (n levels : Nat)
  /-- A CXL.mem response: port, address, data, poison. -/
  | cxl (hp addr : Nat) (bs : List Byte) (poison : Bool)
  /-- A write over AVSBus: VCORE in mV. -/
  | avs (mv : Nat)
  /-- Bytes programmed into flash at an offset. -/
  | flash (off len : Nat)
  /-- A non-maskable trap to the active management pair: source and instance (Table 17-2). -/
  | trap (src inst : Nat)
  /-- A chip reset begins (cause of FC_RESET_CAUSE). -/
  | chipReset (cause : Nat)
  /-- A JTAG response: whether the unlock token was accepted. -/
  | jtag (ok : Bool)
  /-- The I3C target: 0 releases SDA, 1 resets its bus state (R589). -/
  | i3c (what : Nat)
deriving DecidableEq, Repr

/-! ### Lanes (04), links (05), switch (06), routing (07) -/

/-- What a lane made of the last codeword pair that it received and no frame has taken (R112, R139): whether a codeword was
uncorrectable, whether any group is a lane-control group, whether the pair before was data, and the 10,240 block bits. -/
structure RxPair where
  bad : Bool
  ctrl : Bool
  wasData : Bool
  blocks : Nat
deriving DecidableEq, Repr

/-- What a lane's slice holds beside its registers (R108 to R135): of training, the bits before the hunt's offset, the scramblers'
registers, the last pair, what the lane asks of its partner's taps (REQ and PRESET) and how its own stand (TAPSTAT), the registers of
the pattern generator and checker, and the symbols that it sent and received last. -/
structure LaneSt where
  phaseSince : Nat := 0
  reason : Nat := 0
  wireFaults : Nat := 0
  terminated : Bool := false
  signal : Bool := false
  markerRun : Nat := 0
  readyRun : Nat := 0
  settled : Bool := false
  partnerLane : Option Nat := none
  partnerPort : Option Nat := none
  hdrRun : Nat := 0
  hdrWin : List Bool := []
  deskew : Bool := false
  partnerReady : Bool := false
  lockLostAt : Option Nat := none
  uncorrTimes : List Nat := []
  qualBad : Bool := false
  stampAt : Option Nat := none
  failTimes : List Nat := []
  outside : Bool := false
  txScr : Nat := 0
  rxScr : Nat := 0
  rxOff : Nat := 0
  rxPrev : Nat := 0
  pair : Option RxPair := none
  data : Bool := false
  ask : Nat := 0
  tapStat : Nat := 0
  gen : Nat := 0
  chk : Nat := 0
  chkRun : Nat := 0
  txLast : Nat := 0
  rxLast : Nat := 0
deriving DecidableEq, Repr

/-- What a tile's spare slice is doing: nothing, a rolling recalibration before or after it carries the lane (R126),
a failure swap before or after it carries the lane (Table 04-6), a swap whose failed slice has passed its self-test and retrains
behind the spare (R130), or one training attempt on a lane's pads (R117). -/
inductive SpareStage where
  | idle | recalLock | recalCarry | swapLock | swapped | retrain | attempt
deriving DecidableEq, Repr

/-- A tile's spare slice: its stage and the recalibration requests that wait for it (lane and reason). -/
structure SpareSt where
  enabled : Bool := true
  stage : SpareStage := .idle
  queue : List (Nat × Nat) := []
deriving DecidableEq, Repr

/-- One entry of a replay buffer (R141): its FSEQ, its flit, the VC and packet it belongs to, whether it is the
packet's head, the packet's flits, its age, whether this device injected it and whether as a transport request. -/
structure RplEnt where
  fseq : Nat
  flit : Flit
  vc : Nat
  pkt : Nat
  head : Bool
  flits : Nat
  injected : Bool
  req : Bool
  ec : Nat
  msgid : Nat
  psn : Nat
  builtAt : Nat
  age : Nat
  spilled : Bool
  spillLost : Bool
deriving DecidableEq, Repr

/-- A flit that the switch has handed to an output link and that has no FSEQ yet. -/
structure TxFlit where
  flit : Flit
  vc : Nat
  pkt : Nat
  head : Bool
  flits : Nat
  injected : Bool
  req : Bool
  ec : Nat
  msgid : Nat
  psn : Nat
  builtAt : Nat
  age : Nat
deriving DecidableEq, Repr

/-- An open gap of a receiver (R152). -/
structure Gap where
  base : Nat
  count : Nat
  nacks : Nat
  lastAt : Nat
  due : Bool
deriving DecidableEq, Repr

/-- What a port unit's link layer holds beside its registers (05): of its spill ring, each slot's FSEQ and flit (R142); packets that it
gives up before their flits have all come (R88, R166); and void FSEQs credited and not yet passed (R166). -/
structure LinkSt where
  epoch : Nat := 0
  peerEpoch : Nat := 0
  peerSeen : Bool := false
  sentSeen : Bool := false
  peerSawUs : Bool := false
  probe : Nat := 0
  probeAt : Nat := 0
  peerProbe : Nat := 0
  initCred : List Nat := []
  credIn : List Nat := [0, 0, 0, 0, 0, 0, 0, 0]
  used : List Nat := [0, 0, 0, 0, 0, 0, 0, 0]
  freed : List Nat := [0, 0, 0, 0, 0, 0, 0, 0]
  resNow : List Nat := []
  rxHeld : List (Nat × Flit) := []
  rxHigh : Nat := 0
  gaps : List Gap := []
  rxPkt : Option Nat := none
  txq : List TxFlit := []
  replay : List RplEnt := []
  rpl : List (Nat × Nat) := []
  peerLanes : Nat := 0
  lastGood : Nat := 0
  recoverAt : Nat := 0
  resume : Option Nat := none
  draining : Bool := false
  retDue : Bool := false
  drainAt : Nat := 0
  drainReqLeft : Nat := 0
  drainDoneSent : Bool := false
  drainDoneRcvd : Bool := false
  abruptLeft : Nat := 0
  rxSince : Nat := 0
  lastReturn : Nat := 0
  news : Bool := false
  noLaneAt : Option Nat := none
  swapUntil : Option Nat := none
  holdDrop : Bool := false
  inReset : Bool := false
  testRx : List Flit := []
  testGen : Option Nat := none
  ring : Map (Nat × Flit) := []
  gone : List Nat := []
  voided : List Nat := []
  probeSent : Option Nat := none
  probeDone : Bool := false
deriving DecidableEq, Repr

/-- One copy of a stored packet, towards one output (R173, R178, R184): output, VC on that output, cells crossed,
whether a binding holds it, the time of its last cell, and whether it is to be stomped. -/
structure Copy where
  outp : Nat
  vc : Nat
  sent : Nat
  bound : Bool
  cellAt : Nat
  done : Bool
  stomped : Bool
deriving DecidableEq, Repr

/-- A packet stored in the tile of its input (R170 to R174): its cells in arrival order with whether each is adopted
into the pool, how many are freed, its header as it stands, and its copies. -/
structure SwPkt where
  inp : Nat
  hdr : Pkt
  arriveAt : Nat
  flits : Nat
  cells : List Flit
  adopted : List Bool
  bad : List Nat
  lost : List Nat
  inputLost : Bool
  routed : Bool
  unitBound : Bool
  marked : Bool
  inAccount : Bool
  copies : List Copy
  order : Nat
deriving DecidableEq, Repr

/-- A switch tile beside its registers: a running bank repair or predictive copy, and the corrected-error times. -/
structure TileSt where
  repair : Option Nat := none
  pausedMatch : Bool := false
  eccTimes : List (Nat × Nat) := []
  badCells : List (Nat × Nat) := []
  spareLost : Bool := false
deriving DecidableEq, Repr

/-- The switch: stored packets under their numbers, the next number, the pointers of R177, tiles, and the receive
buffers of the ejection ports (R609). -/
structure SwSt where
  pkts : Map SwPkt := []
  next : Nat := 0
  grant : Map Nat := []
  accept : Map Nat := []
  vcTime : Map Nat := []
  vcPrev : Map Nat := []
  vcHead : Map (Nat × Nat) := []
  tiles : Map TileSt := []
  handed : List (Nat × Pkt) := []
deriving DecidableEq, Repr

/-- The routing unit beside its registers: which of its own units the join has made live, what notices have told
about other members' units (key member * 64 + unit), the joins in progress and the epoch keys forwarded. -/
structure RtSt where
  joined : List Nat := []
  geomRefused : List Nat := []
  answered : List Nat := []
  gotAccept : Bool := false
  joinSent : Map Nat := []
  otherLocal : Map Bool := []
  otherGlobal : Map (Nat × Bool) := []
  joinAt : Option Nat := none
  joinedAt : Option Nat := none
  announced : Nat := 0
  settleAt : Nat := 0
  epochKeys : List (Nat × Nat) := []
deriving DecidableEq, Repr
/-! ### Armature and transactions (02), engine tiles (01) -/

/-- Default roles of E0 to E47 (Table 02-4): 0 TP, 1 MT, 2 CL, 3 EX, 4 AT. -/
def rolesDefault : List Nat :=
  List.replicate 12 0 ++ List.replicate 3 1 ++ List.replicate 4 2 ++ List.replicate 4 3 ++ [4]
    ++ (List.replicate 12 0 ++ List.replicate 3 1 ++ List.replicate 4 2 ++ List.replicate 4 3 ++ [4])

/-- Default reactions of sources 0 to 22 (Table 17-1) in the layout of FC_REACT. -/
def reactDefault : List Nat :=
  [3, 1, 7, 1, 1, 1, 1, 7, 1, 1, 9, 39, 1, 1, 5, 1, 1, 1, 3, 5, 5, 1, 13]

/-- The default armature (Tables 02-4, 02-5, 06-1, 17-1 and 00-2); its VERSION and digests are not fixed by the
specification (log entry 6). -/
def armDefault : Arm :=
  { version := 0, buildId := 0, signer := 0, digests := [0, 0, 0, 0, 0, 0], trunked := false, p63Use := 0, spares := 0xFFFF,
    stackPresent := [0, 1, 2, 3], hbmMap := 0, tcMap := 0,
    res := List.replicate 8 (List.replicate 8 160) ++ List.replicate 8 (List.replicate 8 224),
    iresReq := 256, iresRsp := 256, shrMax := 4096, oqMax := 6144, mcMax := 4096, ceThr := [192, 192, 192, 192],
    roles := rolesDefault, hpart := [131072, 4096, 16384, 32768, 2048, 1024, 1024, 8192],
    groups := 4096, members := 64, mcSize := 65536, spanSize := 131072, regionSize := 131072, matchSize := 32768,
    react := reactDefault }

/-- A stream on an engine channel (R18, R484): role, what it serves (EC, group, job or lock word), its tile and
channel, the TC it runs at, its slices waiting, its finish tag, and since when its next slice waits (R490). -/
structure Stream where
  role : Nat
  key : Nat
  tile : Nat
  chan : Nat
  tc : Nat
  slices : Nat
  tag : Nat
  waiting : Bool
  since : Nat
deriving DecidableEq, Repr

/-- The engine tiles beside ARM_ROLE and TOP_TILE_SPARE: streams, virtual time and previous finish tags of each
channel (key: tile * 8 + channel), physical tiles recorded as failed, and the backing copy of each stream's durable state in HBM
(R20): the stream as the last slice that changed it left it. -/
structure TileEng where
  streams : Map Stream := []
  backing : Map Stream := []
  next : Nat := 0
  vtime : Map Nat := []
  prevTag : Map Nat := []
  failed : List Nat := []
  lost : List Nat := []
deriving DecidableEq, Repr

/-- A re-cast commit or a firmware swap that waits for its HOLD or is in it (R53, R543). -/
inductive Swap where
  | none
  | recast
  | activation
  | fallback
deriving DecidableEq, Repr

/-- What HOLD puts off (R34): a host's register write or read, and a packet that arrives, with the port that it came in on. -/
inductive HeldAcc where
  | write (who : Who) (key : Nat) (w : Word) (env : CsrEnv)
  | read (who : Who) (off width : Nat)
  | arrival (inp : Nat) (p : Pkt)
  | aliasRd (hp fn i off : Nat)
deriving DecidableEq, Repr

/-- The armature in force, the one staged, with the LEN of the FETCH_HOST that runs, the maquette (R50 to R65), and what HOLD puts off,
in order. -/
structure TxnSt where
  arm : Arm := armDefault
  resBuilt : List (List Nat) := armDefault.res
  staged : Option Arm := none
  stagedBytesOn : List Nat := []
  fetchLen : Option Nat := none
  maquette : Map Word := []
  lastUse : Nat := 0
  swap : Swap := .none
  held : List HeldAcc := []
deriving DecidableEq, Repr

/-! ### Queues (15) -/

/-- READY or ERROR (Table 15-7); an object that is FREE is absent from its table. -/
inductive QState where
  | ready | error
deriving DecidableEq, Repr

/-- A completion before it has a ring position: words 0 (without PHASE) to 3 (R456). -/
structure Cqe where
  w0 : Nat
  w1 : Nat
  w2 : Nat
  w3 : Nat
  wq : Option Nat := none
deriving DecidableEq, Repr

/-- A work queue (R451, R453, R459 to R461).  `next` is the position of the next descriptor to start, `cache` the
prefetched descriptors and pushed copies by position, each with the XL_PKRR of its EC at its fetch as word 8 (R313), `reading`
the positions that a ring read under way covers, `live` the started descriptors by position, `done` the
completed positions beyond CI; `stall` and `walking` say that the next descriptor waits for a page, on its fault-table entry, or for
a walk (R340). -/
structure Wq where
  fn : Nat
  addr : Nat
  log2 : Nat
  cq : Nat
  ec : Nat
  shadow : Nat
  state : QState
  cause : Nat
  pi : Nat
  ci : Nat
  next : Nat
  cache : Map (List Word)
  reading : List Nat
  live : List Nat
  done : List Nat
  shadowAt : Nat
  shadowCi : Nat
  destroying : Bool
  stall : Option Nat := none
  walking : Bool := false
deriving DecidableEq, Repr

/-- A completion queue (R452, R462, R463, R466). -/
structure Cq where
  fn : Nat
  addr : Nat
  log2 : Nat
  vec : Nat
  poll : Bool
  modCount : Nat
  modUs : Nat
  state : QState
  cause : Nat
  pi : Nat
  ci : Nat
  held : List Cqe
  pendWritten : Bool
  fullSince : Option Nat
  armed : Bool
  count : Nat
  firstAt : Option Nat
deriving DecidableEq, Repr

/-- An event queue (R452, R464 to R466). -/
structure Evq where
  fn : Nat
  addr : Nat
  log2 : Nat
  vec : Nat
  poll : Bool
  modCount : Nat
  modUs : Nat
  pi : Nat
  ci : Nat
  lost : Nat
  cause : Nat
  armed : Bool
  count : Nat
  firstAt : Option Nat
deriving DecidableEq, Repr

/-- A host port beside its registers (15). -/
structure PortSt where
  cfg : PortCfg := {}
  perstLow : Bool := false
  resetting : Bool := false
  flr : Map Nat := []
  d3hot : List Nat := []
  msixMask : List Nat := []
  msixPending : List Nat := []
deriving DecidableEq, Repr

/-- The host interface: the ports and every WQ, CQ and EQ (key: port * 16384 + number, EQ: port * 4096 + number),
push slots (key: WQ key; bytes by slot), and functions (by function page) whose
EC_CLOSE waits for its EC, or whose RESET waits for a CQ, and descriptors that have ended and are not retired for want of room in their CQ
(R462): CQ, WQ, position and entry. -/
structure HiSt where
  ports : Map PortSt := []
  wqs : Map Wq := []
  cqs : Map Cq := []
  eqs : Map Evq := []
  push : Map (List (Option Byte)) := []
  closing : Map Nat := []
  resets : Map Nat := []
  unretired : List (Nat × Nat × Nat × Cqe) := []
deriving DecidableEq, Repr

/-! ### Scheduling and the kiln (16) -/

/-- The schedulers beside their registers: virtual times and previous finish tags of the function level (key: port * 8
+ TC, and that * 1024 + function queue) and of the TC level (key: port, and port * 8 + TC), the fixed head of each TC
queue with its tag (R483), shaper credits in eightieths of a byte (R486), the calendar's slot, its start and the bytes
used on each port (R487), and policer buckets in eight-thousandths of a byte (R488), each with the time of its last
refill; and for each monitor the times of its last event and its last sample (R490). -/
structure SchedSt where
  fnV : Map Nat := []
  fnPrev : Map Nat := []
  tcV : Map Nat := []
  tcPrev : Map Nat := []
  head : Map (Nat × Nat) := []
  shape : Map (Int × Nat) := []
  calSlot : Nat := 0
  calAt : Nat := 0
  calUsed : Map Nat := []
  pol : Map (Nat × Nat × Nat) := []
  monEvent : Map Nat := []
  monAt : Map Nat := []
deriving DecidableEq, Repr

/-- The kiln beside its registers: the classes that waited at the gate in this period (R494), the bulk units that wait there
(1 a message's next packet, 2 a CL packet by group and number, 3 a batch by job and number, 4 record reading by job), periods over HARD_W in a row
and since when both exit conditions of R499 hold, whether the actions of R500 are in force, whether VoltageTarget =
BROWN_MV still has to be written (R505), AVSBus failures in a row (R497), sensors at TJ_HARD or more, and the gain of the
VCORE current sensors in thousandths (R492). -/
structure KilnSt where
  waited : List Nat := []
  deferred : List (Nat × Nat × Nat) := []
  overRuns : Nat := 0
  calmSince : Option Nat := none
  applied : Bool := false
  brownWrite : Bool := false
  avsFails : Nat := 0
  overHard : List Nat := []
  gain : Nat := 1000
deriving DecidableEq, Repr

/-! ### Transport (08), matching (09), translation (10), regions (11) -/

/-- What a message's end is reported to: a descriptor (WQ key, ring position, OP, SIGNAL, USER), the GET of a matched
rendezvous (receive number), a FIN, window traffic (12), an ABANDON for a holds record, a CLEANUP, or an alias read (14). -/
inductive Origin where
  | desc (wq pos op : Nat) (signal : Bool) (user : Nat)
  | rdvGet (recv : Nat)
  | fin
  | window (id : Nat)
  | abandon (hold : Nat)
  | cleanup
  | aliasRd (slot read : Nat)
deriving DecidableEq, Repr

/-- Where a message's data comes from or goes to: nothing, bytes held, or an address of the sending EC's domain. -/
inductive Buf where
  | none
  | bytes (bs : List Byte)
  | dva (a : Nat)
deriving DecidableEq, Repr

/-- The copies of one packet of a message (R238, R244): build times of the first of the span and the latest, copies
built, copies accounted for by a NACK of a no-effect kind, the first copy of all, a resend that waits for its backoff,
the time of the last fast retransmission, the packet's header fields and payload; of a GET, how many packets the last request that starts
here asked for (`asked`), and how many copies never left this device (`stayed`, Table 08-7). -/
structure CopySt where
  first : Nat
  last : Nat
  built : Nat
  accounted : Nat
  spanBuilt : Nat
  spanAccounted : Nat
  firstEver : Nat
  waiting : Bool
  nackKind : Nat
  fastAt : Option Nat
  flags : Nat
  payload : List Byte
  flits : Nat
  waitUntil : Nat := 0
  asked : Nat := 0
  stayed : Nat := 0
deriving DecidableEq, Repr

/-- A sender slot (R238), or a message that waits for one: `ec` is the sending EC, `dec` the EC at the destination.  `gate` says the next packet has passed the kiln gate, `held`
that its policer holds it, `stall` the fault-table entry that it waits for, `finish` an end that waits for room in the
CQ (R462). -/
structure Slot where
  dst : Nat
  ec : Nat
  dec : Nat
  tc : Nat
  op : Nat
  total : Nat
  npkts : Nat
  key : Nat
  off : Nat
  flag : Option (Nat × Nat)
  order : Bool
  buf : Buf
  result : Buf
  pkrr : Nat
  prefixBytes : List Byte
  origin : Origin
  msgid : Nat
  base : Nat
  acked : List Nat
  next : Nat
  copies : Map CopySt
  retries : Nat
  timerAt : Option Nat
  timerLen : Nat := 0
  quietUntil : Nat
  anyAcked : Bool
  lost : Bool
  gate : Bool
  held : Bool
  polPassed : Bool
  qtc : Option Nat := none
  stalledE2e : Bool
  walking : Bool
  stall : Option Nat
  chunkEnd : Nat
  bulk : Bool
  rdv : Option Nat
  kept : Option (List Byte)
  finish : Option (Nat × Nat × Nat)
deriving DecidableEq, Repr

/-- An entry of the flag-hold table (R260): the flagged packet, the flag's offset and value, the message's data length, and
where the flag word lies: host port and pieces of host memory, with the admission that it still counts in (R338) and its
pages, and whether the flagged packet carried CE. -/
structure FlagHold where
  psn : Nat
  off : Nat
  value : Nat
  dataLen : Nat
  hp : Nat
  pieces : List (Nat × Nat)
  mr : Option (Nat × Nat)
  pages : List (Nat × Nat)
  ce : Bool := false
deriving DecidableEq, Repr

/-- A receiver record (R241 to R245): the lowest packet not placed and those placed above it, the packet with LAST,
STAMP, packets placed since the last ACK and the first of them (time of its arrival, PSN), whether any of them carried CE, data bytes
placed, the held flag, the kept response, an operation that runs, packets taken in and not yet placed (PSN, time of arrival, CE), the receive or unexpected entry of a SEND, and whether all is placed. -/
structure Rec where
  ec : Nat
  op : Nat
  tc : Nat
  base : Nat
  placed : List Nat
  last : Option Nat
  stamp : Int
  since : Nat
  firstAt : Option (Nat × Nat)
  ce : Bool
  bytes : Nat
  flag : Option FlagHold
  rsp : Option (List Byte)
  running : Bool
  seen : List (Nat × Nat × Bool)
  place : Option Nat
  done : Bool
deriving DecidableEq, Repr

/-- An endpoint context that is not CLOSED (Tables 08-1, 08-2, 11-1). -/
structure EcCtx where
  state : Nat
  hp : Nat
  fn : Nat
  agg : Nat
  ops : Nat
  dom : Nat
  pkrr : Nat
  rcq : Nat
  closing : Bool
  closeAt : Nat
deriving DecidableEq, Repr

/-- A cached context: dirty, and being fetched (R232). -/
structure CacheEnt where
  dirty : Bool
  fetching : Bool
deriving DecidableEq, Repr

/-- A flow (R265, R266). -/
structure Flow where
  w : Nat
  cutAt : Nat
  lastAt : Nat
deriving DecidableEq, Repr

/-- A pair of aggregate and TC beside TP_DC (R252, R267): RTTVAR and RTO in ns, and the times of R267. -/
structure PairSt where
  rttvar : Nat
  rtoNs : Nat
  cutAt : Nat
  raiseAt : Nat
deriving DecidableEq, Repr

/-- A packet that waits at an injection port (R483): the port, the TC queue, the function queue (host port * 256 +
function, or 512 for the device queue), the header fields, and the slot and packet it is a copy of. -/
structure InjItem where
  port : Nat
  tc : Nat
  fn : Nat
  dst : Nat
  htc : Nat
  op : Nat
  ec : Nat
  flags : Nat
  off : Nat
  psn : Nat
  key : Nat
  msgid : Nat
  payload : List Byte
  slot : Option (Nat × Bool)
  unit : Option Nat
  enqAt : Nat
  fnTag : Option Nat
deriving DecidableEq, Repr

/-- An arrival admitted for translation: the region entry and epoch it counts in (R338), the domain, the function it
acts for, the key rights and class it is checked with, and the spans of DVAs it touches (R336, R337). -/
structure Adm where
  mr : Option (Nat × Nat)
  dom : Nat
  hp : Nat
  fn : Nat
  pkrr : Nat
  cls : Nat
  spans : List (Nat × Nat)
  recv : Option Nat
deriving DecidableEq, Repr

/-- What an access to host memory that has begun and not finished is for (R338): a write, the reads of a GET_REQ, or the
read of an atomic or lock operation at a host address. -/
inductive AccFor where
  | write
  | getRead (p : Pkt)
  | atomic (p : Pkt) (pa : Nat)
deriving DecidableEq, Repr

/-- An access: the region and epoch it counts in, the host port, and the pages (domain, page) it used. -/
structure Acc where
  what : AccFor
  mr : Option (Nat × Nat)
  hp : Nat
  pages : List (Nat × Nat)
deriving DecidableEq, Repr

/-- What waits for a page walk: an arrival with what it was admitted with, or a message. -/
inductive Waiter where
  | arrival (p : Pkt) (a : Adm)
  | msg (id : Nat)
  | recv (id : Nat)
  | coll (g : Nat)
  | ring (job : Nat)
  | desc (wq : Nat)
deriving DecidableEq, Repr

/-- A page walk, running or waiting for a walker (R309); a cancelled one installs nothing (R318); its waiters, each with the
DVA that it waits for. -/
structure Walk where
  dom : Nat
  page : Nat
  running : Bool
  cancelled : Bool
  waiters : List (Nat × Waiter)
deriving DecidableEq, Repr

/-- An invalidation that is pending (R317): domain, first page, pages, and the WQ origin of an INVAL descriptor. -/
structure Inval where
  seq : Option Nat
  dom : Nat
  first : Nat
  count : Nat
  accs : List Nat
  walks : List Nat
  origin : Option Origin
deriving DecidableEq, Repr

/-- The translation unit beside its registers (10). -/
structure XlSt where
  l1 : Map Nat := []
  l2 : Map Nat := []
  walks : Map Walk := []
  next : Nat := 0
  invals : Map Inval := []
  nextInv : Nat := 0
  sweeps : List Nat := []
deriving DecidableEq, Repr

/-- An entry of the fault table (R342): key, first kind and class, failed, and since when. -/
structure FaultEnt where
  dom : Nat
  page : Nat
  kind : Nat
  cls : Nat
  failed : Bool
  since : Nat
deriving DecidableEq, Repr

/-- A revocation that is draining (R348): region, the MR_CMD sequence numbers and REVOKE descriptors that it ends, and
whether its zero-length read has begun. -/
structure Revoke where
  seqs : List (Nat × Nat)
  descs : List (Origin × Nat)
  reading : Bool
deriving DecidableEq, Repr

/-- Regions and paging beside their registers (11).  `results` holds results of MR_CMDs that ended out of order. -/
structure MrSt where
  lastIdx : Nat := 0
  faults : Map FaultEnt := []
  revokes : Map Revoke := []
  results : Map Nat := []
  accs : Map Acc := []
  nextAcc : Nat := 0
  epochs : Map Nat := []
deriving DecidableEq, Repr

/-- A posted receive (R279), and the same receive once matched: the arrival's fields, how far it has come, data that
waits to be copied into the buffer, and an end (status and detail) that waits for room in the CQ. -/
structure Recv where
  origin : Origin
  ec : Nat
  anySrc : Bool
  srcDev : Nat
  srcEc : Nat
  comm : Nat
  bits : Nat
  ignore : Nat
  dva : Nat
  len : Nat
  pkrr : Nat
  onDie : Bool
  matched : Bool
  fromDev : Nat
  fromEc : Nat
  fromBits : Nat
  dataLen : Nat
  got : Nat
  rdvTag : Option Nat
  tc : Nat
  failed : Bool
  pend : Map (List Byte)
  stall : Option Nat
  walking : Bool
  finish : Option (Nat × Nat)
  units : Nat := 0
deriving DecidableEq, Repr

/-- An unexpected arrival (R282, R286). -/
structure Unexp where
  ec : Nat
  src : Nat
  srcEc : Nat
  bits : Nat
  comm : Nat
  dataLen : Nat
  tc : Nat
  units : Nat
  msgid : Nat
  rts : Option (Nat × Nat × Nat)
  data : Map (List Byte)
deriving DecidableEq, Repr

/-- An entry of the rendezvous table (R288). -/
structure Rdv where
  gen : Nat
  ec : Nat
  dst : Nat
  len : Nat
  origin : Origin
  sentAt : Option Nat
deriving DecidableEq, Repr

/-- Matching beside its registers (09): receives by number (post order), unexpected arrivals by number (arrival order),
data stored before PSN 0 (key: record), the rendezvous table and its generations. -/
structure MtSt where
  recvs : Map Recv := []
  unexp : Map Unexp := []
  early : Map (Map (List Byte)) := []
  next : Nat := 0
  rotate : Nat := 0
  rdv : Map Rdv := []
  gens : Map Nat := []
  unexpFullAt : Option Nat := none
deriving DecidableEq, Repr

/-- The transport beside its registers (08).  `wait` holds messages that wait for a slot, a rendezvous entry or an
earlier ordered send, in post order, with the waits already counted (1 order, 2 rendezvous, 4 slot). -/
structure TpSt where
  ecs : Map EcCtx := []
  cache : Map CacheEnt := []
  parked : Map (List (Nat × Pkt)) := []
  slots : Map Slot := []
  wait : List (Slot × Nat) := []
  nextMsg : Nat := 0
  quarantine : Map Nat := []
  recs : Map Rec := []
  flows : Map Flow := []
  pairs : Map PairSt := []
  inj : Map InjItem := []
  nextInj : Nat := 0
  holdSince : Option Nat := none
  lastHold : Nat := 0
deriving DecidableEq, Repr

/-- What one unit tells another within a command: a source raised at the fault collector (R512), a message's end (the
slot as it ended, status, detail, outcome), a LINK_LOST completion (R162), a copy that was dropped before it left the device, a receive or a message
whose page fault is resolved, the next descriptor of a WQ that ends with an error before it runs, an entry for the patina (R602), an event for the performance counters (R594: block code,
event, instance, value), a step of an operation that precise sampling watches (R601: 0 start, 1 first slice, 2 end). -/
inductive Notice where
  | fault (src inst : Nat)
  | ended (slot : Slot) (status detail outcome : Nat)
  | linkLost (req : Bool) (ec msgid psn : Nat)
  | neverLeft (msgid psn : Nat)
  | recvRetry (id : Nat)
  | slotRetry (id : Nat)
  | collRetry (g : Nat)
  | descFail (wq kind : Nat)
  | patina (kind : Nat) (item : Nat)
  | count (block code inst value : Nat)
  | sample (phase kind id : Nat) (info : List Nat)
deriving DecidableEq, Repr

/-! ### Atomics and locks (14) -/

/-- A waiter of a lock (R435). -/
structure LockWait where
  src : Nat
  ec : Nat
  tc : Nat
  msgid : Nat
  req : Nat
  prio : Nat
  waitUs : Nat
  since : Nat
  key : Nat
  off : Nat
  queued : Nat
deriving DecidableEq, Repr

/-- A held lock at its home: where the word lies, the owner and its PRIO, the grant's MSGID, GRANTS, ABANDONED, and the
waiters in arrival order (R432, R434, R437). -/
structure LockSt where
  pa : Nat
  hp : Nat
  dev : Nat
  req : Nat
  prio : Nat
  msgid : Nat
  grants : Nat
  abandoned : Bool
  key : Nat
  off : Nat
  waiters : List LockWait
deriving DecidableEq, Repr

/-- A holds record of a requester (R440, R441). -/
structure Hold where
  dev : Nat
  ec : Nat
  dec : Nat
  tc : Nat
  key : Nat
  off : Nat
  req : Nat
  abandoning : Bool
  marked : Bool
  since : Nat
  sentAt : Nat
deriving DecidableEq, Repr

/-- A read of an alias slot (R438, R439): its serial number, who reads, its offset, when it arrived and when it must be answered. -/
structure AliasRead where
  id : Nat
  hp : Nat
  fn : Nat
  off : Nat
  since : Nat
  dueAt : Nat
deriving DecidableEq, Repr

/-- The AT role beside its registers: the held locks (key: word), operations that wait for a word, the words with a
read under way, holds records, alias reads by slot (the first is being served) and each slot's last result, and what
the LOCK and ABANDON messages of the role itself are for. -/
structure AtSt where
  locks : Map LockSt := []
  waitq : Map (List (Pkt × Adm × Nat)) := []
  busy : List Nat := []
  holds : Map Hold := []
  reads : Map (List AliasRead) := []
  nextRead : Nat := 0
  last : Map Nat := []
deriving DecidableEq, Repr

/-! ### Collectives and exchange (13) -/

/-- An operation of a group (R393, R394): its parameters, its stream position and chunks, the member's data and result
buffer with what they are translated with, chunks whose result this device has, data that waits to be placed, and its
end. -/
structure CollOp where
  coll : Nat
  oper : Nat
  dtype : Nat
  exact : Bool
  count : Nat
  pos : Nat
  chunks : Nat
  data : List Byte
  res : Nat
  ec : Nat
  pkrr : Nat
  origin : Option Origin
  since : Nat
  arrived : Nat
  pend : Map (List Byte)
  stall : Option Nat
  walking : Bool
  failed : Bool
  done : Bool
deriving DecidableEq, Repr

/-- A stream position whose slot is live (R396, R399): operation and chunk, accumulator, the sources combined (0 local,
i + 1 child i), contributions held, whether it has gone up, and the result. -/
structure CollPos where
  seq : Nat
  psn : Nat
  acc : Option (List Byte)
  got : List Nat
  held : Map (List Byte)
  upDone : Bool
  result : Option (List Byte)
deriving DecidableEq, Repr

/-- A CL packet that waits at the kiln gate or for its ACK (R401, R421); `busy` says that BUSY was answered (R402). -/
structure CollPkt where
  dev : Nat
  up : Bool
  kind : Nat
  seq : Nat
  psn : Nat
  pos : Nat
  key : Nat
  off : Nat
  last : Bool
  tc : Nat
  payload : List Byte
  bulk : Bool
  gated : Bool
  retries : Nat
  at' : Nat
  busy : Bool := false
deriving DecidableEq, Repr

/-- A group beside its entry: operations by OP_SEQ, the position of the next one, live positions, positions received
from the parent, packets sent, and contributions for operations not yet known here. -/
structure CollGrp where
  ops : Map CollOp := []
  nextPos : Nat := 0
  poss : Map CollPos := []
  downs : List Nat := []
  sends : Map CollPkt := []
  next : Nat := 0
  early : List (Nat × Pkt) := []
deriving DecidableEq, Repr

/-- A send batch of a job (R413, R415): destination, BSEQ once it is closed, records and their count, when its first
record joined, copies, and whether it is sent, held back by NOROOM, or waits at the gate. -/
structure ExBatch where
  dev : Nat
  ec : Nat
  bseq : Option Nat
  bytes : List Byte
  count : Nat
  since : Nat
  sent : Bool
  sentAt : Nat
  retries : Nat
  noroom : Bool
  gated : Bool
deriving DecidableEq, Repr

/-- A stream of a job to a device (R414, R415): the next BSEQ, the receiver's BASE and WIN. -/
structure ExStream where
  next : Nat := 0
  base : Nat := 0
  win : Nat := 1
  probeAt : Nat := 0
  ec : Nat := 0
deriving DecidableEq, Repr

/-- The receiver's record of a job and source device (R416): BASE and the batches above it in the ring, batches staged by
number, units reserved for the window, and the window granted. -/
structure ExRecv where
  base : Nat := 0
  have' : List Nat := []
  staged : Map (List Byte) := []
  win : Nat := 0
  tc : Nat := 0
  ec : Nat := 0
deriving DecidableEq, Repr

/-- An EX_SEND under way, or an EX_FLUSH that waits (R411, R419): its bytes not yet read, bytes read and not yet in
batches, records sent and skipped, and, of a flush whose turn has come, the number of the first batch that it does not
wait for. -/
structure ExSend where
  origin : Origin
  flush : Bool
  unread : List Byte
  rest : List Byte
  sent : Nat
  skipped : Nat
  mark : Option Nat
deriving DecidableEq, Repr

/-- A job beside its entry. -/
structure ExJobSt where
  batches : Map ExBatch := []
  next : Nat := 0
  streams : Map ExStream := []
  recvs : Map ExRecv := []
  arrival : List (Nat × Nat) := []
  sends : List ExSend := []
  fullSince : Option Nat := none
  stallTold : Bool := false
deriving DecidableEq, Repr

/-- The CL and EX roles: groups and jobs. -/
structure CollSt where
  groups : Map CollGrp := []
  jobs : Map ExJobSt := []
deriving DecidableEq, Repr


/-! ### The global memory window (12) -/

/-- A valid sector of a far-cache line (R365, R378): its 64 bytes, dirty, poisoned, and written again since its running
write-back was built (R383), and failed in its last write-back (R370). -/
structure Sect where
  data : List Byte
  dirty : Bool
  poison : Bool
  again : Bool
  failed : Bool
deriving DecidableEq, Repr

/-- A far-cache line: its valid sectors, the time of its last use in the order of uses, whether it is kept after a failed
write-back (R370) and since when, and whether it waits for a port to write it back (R361). -/
structure Line where
  sects : Map Sect
  used : Nat
  kept : Bool
  keptAt : Nat
  wants : Bool
deriving DecidableEq, Repr

/-- A CXL.mem access that is not answered (R366, R367, R374): port, window offset of its sector, 0 read, 1 whole write, 2
partial write, data and byte enables, poison, arrival; the fetch that it has joined, its own messages still running,
whether one of them failed, whether it waits under R368, whether it has been answered under LIMIT_US, and whether its span entry has been
judged to serve it (R359). -/
structure GwAcc where
  hp : Nat
  addr : Nat
  off : Nat
  op : Nat
  data : List Byte
  en : List Bool
  poison : Bool
  since : Nat
  fetch : Option Nat
  msgs : List Nat
  failed : Bool
  stalled : Bool
  answered : Bool
  judged : Bool
deriving DecidableEq, Repr

/-- What a window message is for: the fetch of a line, the GET of one sector around the far cache or of a SHARED_RW span,
a write-back of `count` sectors from `first`, or a write sent to the home. -/
inductive GwFor where
  | fetch (line : Nat) (noInstall : Bool)
  | sector (acc : Nat)
  | writeBack (line first count : Nat)
  | put (acc : Nat)
deriving DecidableEq, Repr

/-- A window message, and its status and data once it has ended. -/
structure GwMsg where
  what : GwFor
  done : Option (Nat × List Byte)
deriving DecidableEq, Repr

/-- A flush command that is pending (R372, R373): its sequence number (none for the write-back of R380), action, the lines
in scope, the sectors it waits for (line and sector; 16 more than the sector when the write-back under way carries older data, R373,
R383), the fetches it waits for, and whether a write-back failed. -/
structure GwFlush where
  seq : Option Nat
  action : Nat
  lo : Nat
  hi : Nat
  todo : List (Nat × Nat)
  fetches : List Nat
  failed : Bool
deriving DecidableEq, Repr

/-- An HDM decoder (R357). -/
structure Hdm where
  base : Nat
  size : Nat
  skip : Nat
  committed : Bool
  error : Bool
deriving DecidableEq, Repr

/-- The window beside its registers: lines, accesses, messages, flushes, the time of the last event of each span and cause
(key: span * 8 + cause, R379), and decoders (key: port * 8 + decoder). -/
structure GwSt where
  lines : Map Line := []
  clock : Nat := 0
  accs : Map GwAcc := []
  nextAcc : Nat := 0
  msgs : Map GwMsg := []
  nextMsg : Nat := 0
  flushes : List GwFlush := []
  events : Map Nat := []
  hdm : Map Hdm := []
deriving DecidableEq, Repr
/-- The fault collector and the repairs of 17 beside their registers: partial fences (source and instance), blocks held
in reset (code of Table 20-1 and unit), the time of the last FAULT event and of the last block reset of a source, the
level of ERROR_N, the last restart of the watchdog, the management pairs, the HBM stacks that have failed, and whether a
chip reset is under way. -/
structure FcSt where
  fences : List (Nat × Nat) := []
  inReset : List (Nat × Nat) := []
  lastEvent : Map Nat := []
  blkAt : Map Nat := []
  errLow : Bool := false
  wdogAt : Nat := 0
  active : Option Nat := some 0
  standby : Option Nat := some 1
  pairFails : List (Nat × Nat) := []
  retired : List Nat := []
  deadStacks : List Nat := []
  unmirrored : Bool := false
  chipReset : Bool := false
  patina : Map Nat := []
  patinaFlash : Map Nat := []
  patinaRead : Nat := 0
deriving DecidableEq, Repr

/-- One copy of the board record (R536). -/
structure Board where
  seq : Nat := 0
  idValid : Bool := false
  id : Nat := 0
  bootEpoch : Nat := 0
  preferred : Nat := 0
  recovery : Bool := false
deriving DecidableEq, Repr

/-- A block being written into flash (R540): slot, offset, bytes, the port it came over when it comes from a host. -/
structure Block where
  slot : Nat
  off : Nat
  len : Nat
  hp : Option Nat
  data : List Byte
deriving DecidableEq, Repr

/-- What the management cores run: the slot's image as Table 18-8 reports it. -/
structure RunImage where
  version : Nat := 0
  svn : Nat := 0
  signer : Nat := 0
  digestFw : Nat := 0
  digestMicro : Nat := 0
deriving DecidableEq, Repr

/-- An MCTP request (Table 18-7) that waits; the flag says that it came over I3C. -/
inductive MctpReq where
  | status
  | download (slot off : Nat) (data : List Byte)
  | activate (slot : Nat)
  | cert (index : Nat)
  | attest (i3c : Bool) (nonce : List Byte)
  | confirm
  | csrRead (off : Nat)
  | csrWrite (off : Nat) (v : Word) (env : CsrEnv)
deriving DecidableEq, Repr

/-- Firmware, boot and security (18) beside the registers: flash by 4 KiB sector, the two copies of the board record, the
block being written, the warm boot under way (kind: 1 activation, 2 fallback, 3 back to the slot that ran, 4 after a block
reset; the slot that boots, and the image that it verified), what runs now and
what ran before it with its armature, the armatures of the running slot and of the one that ran before it, the start of the health window, requests that wait for the firmware, and the debug
session. -/
structure FwSt where
  flash : Map (List Byte) := []
  boards : List Board := [{}, {}]
  block : Option Block := none
  booting : Bool := false
  bootKind : Nat := 0
  bootSlot : Nat := 0
  newImage : Option (RunImage × Arm) := none
  run : RunImage := {}
  prev : Option (RunImage × Arm × Nat) := none
  slotArm : Arm := armDefault
  prevSlotArm : Arm := armDefault
  windowAt : Option Nat := none
  pendFall : Bool := false
  waiting : List (Nat × MctpReq) := []
  debugOpen : Bool := false
  debugEver : Bool := false
deriving DecidableEq, Repr

/-- Supply monitors (19) beside PW_STAT: the recovery counts that run, by rail, the rails below their reset levels, and
the latch of THERMTRIP_N. -/
structure SupplySt where
  recoverAt : Map Nat := []
  low : List Nat := []
  tripped : Bool := false
deriving DecidableEq, Repr

/-- A cage-power channel beside its registers: whether its check waits for supply warnings to clear, its fault timer in
eighths of a ns and when it was last brought up to date, the start of the qualification and of the backoff, energy not yet a whole mJ in pJ,
the last re-zeroing, and the current in mA at which the foldback holds the channel while it limits (R574). -/
structure CageSt where
  waits : Bool := false
  timer : Nat := 0
  timerAt : Nat := 0
  qualAt : Nat := 0
  backoffAt : Nat := 0
  part : Nat := 0
  zeroAt : Nat := 0
  heldMa : Option Nat := none
deriving DecidableEq, Repr

/-- An operation that precise sampling has picked (R601, Table 20-2). -/
structure SampleOp where
  start : Nat
  slice : Nat
  ec : Nat
  op : Nat
  addr : Nat
  src : Nat
  dst : Nat
  tc : Nat
  len : Nat
deriving DecidableEq, Repr

/-- Performance counters (20) beside the registers: the undrained records of both rings, the sequence number of the next
snapshot, the drain under way, what sampling has picked and the operations left to the next pick, the last level of each
counter's event, the time of each counter's last PM_OVF, whether counting is frozen, the time of the last periodic snapshot,
and the quarters of the rings lost with stacks (R604). -/
structure PmSt where
  snaps : List (List Word) := []
  samples : List (List Word) := []
  snapSeq : Nat := 0
  drain : Option (Nat × Nat × Nat) := none
  left : Nat := 0
  ops : Map SampleOp := []
  levels : Map Nat := []
  ovfAt : Map Nat := []
  frozen : Bool := false
  snapAt : Nat := 0
  shrunk : Nat := 0
deriving DecidableEq, Repr

/-- The MODE_CTL request that is accepted and not yet done (R36). -/
inductive TestReq where
  | none | enter | leave
deriving DecidableEq, Repr

/-- The state of the Orkor. -/
structure State where
  /-- Commands that wait, first in, first out. -/
  pending : List Instr := []
  /-- The registers of BAR0, sparse: a word that is not listed reads its reset value. -/
  csr : Map Word := []
  /-- What the Orkor has sent out, oldest first (log entry 4). -/
  out : List Out := []
  /-- The number of open values used so far (log entry 3). -/
  free : Nat := 0
  /-- Time since power-on in ns (R593). -/
  timeNs : Nat := 0
  lanes : Map LaneSt := []
  spares : Map SpareSt := []
  links : Map LinkSt := []
  sw : SwSt := {}
  rt : RtSt := {}
  hi : HiSt := {}
  txn : TxnSt := {}
  eng : TileEng := {}
  tp : TpSt := {}
  mt : MtSt := {}
  xl : XlSt := {}
  mr : MrSt := {}
  sc : SchedSt := {}
  kn : KilnSt := {}
  at' : AtSt := {}
  cl : CollSt := {}
  gw : GwSt := {}
  fc : FcSt := {}
  fw : FwSt := {}
  pw : SupplySt := {}
  cage : Map CageSt := []
  pm : PmSt := {}
  /-- The accepted MODE_CTL request in progress (R36). -/
  testReq : TestReq := .none
  /-- What units have told one another and is not yet acted on; empty between commands. -/
  notices : List Notice := []
deriving DecidableEq, Repr

/-- The machine right after power-on reset: BUILD, every register at its reset value, nothing in flight, PERSTn_N high on both ports
(log entry 2). -/
def State.reset : State := {}

end Sys2Proof.Machine
end

