-- ==== Sys2Proof/Machine/Regs.lean ====
section
/-!
DEFINITION. Machine/Regs.lean: every register of BAR0 as the tables of spec/00 to spec/20 give it:
where each register lies (R68 and the register's own line), and each field's bits, access code (Table 00-3),
reset code (Table 00-4), reset value and listed encodings (R7).  A register of several 64-bit words is one entry
per word; a field that crosses a word boundary is two fields, Lo and Hi.
-/

namespace Sys2Proof.Machine

/-- Access codes of Table 00-3. -/
inductive Access where
  | rw | ro | wo | rc | w1c | w1s | rwl | rwt
deriving DecidableEq, Repr

/-- Reset codes of Table 00-4. -/
inductive ResetKind where
  | por | chip | hfund | hot | flr | blk | none
deriving DecidableEq, Repr

/-- The encodings a field lists (R7). -/
inductive Legal where
  | any
  | range (lo hi : Nat)
  | zeroOr (lo hi : Nat)
  | codes (l : List Nat)
deriving DecidableEq, Repr

/-- One field of a register's 64-bit word: its bits, access, reset code, reset value and listed encodings. -/
structure Field where
  lo : Nat
  width : Nat
  acc : Access
  rst : ResetKind
  val : Nat
  legal : Legal
deriving DecidableEq, Repr

/-- One register word, or an array of them: word i lies at base + i * stride. -/
structure Reg where
  base : Nat
  stride : Nat
  count : Nat
  fields : List Field
deriving DecidableEq, Repr

/-- Where a named field lies: bits (lo + j * bstep) .. of the word at addr + i * stride. -/
structure Fld where
  addr : Nat
  stride : Nat
  lo : Nat
  bstep : Nat
  width : Nat
deriving DecidableEq, Repr

namespace R

/-- TOP_CSR_REFUSED (spec/00). -/
def topCsrRefused : Reg := ⟨0x00000040, 0x8, 1, [⟨0, 32, .rc, .chip, 0, .any⟩]⟩
/-- TOP_TILE_SPARE (spec/01). -/
def topTileSpare : Reg := ⟨0x00000080, 0x8, 1, [⟨31, 1, .ro, .chip, 0, .any⟩,
    ⟨24, 6, .ro, .chip, 0, .any⟩,
    ⟨23, 1, .ro, .chip, 0, .any⟩,
    ⟨16, 6, .ro, .chip, 0, .any⟩,
    ⟨15, 1, .ro, .chip, 0, .any⟩,
    ⟨8, 6, .ro, .chip, 0, .any⟩,
    ⟨7, 1, .ro, .chip, 0, .any⟩,
    ⟨0, 6, .ro, .chip, 0, .any⟩]⟩
/-- MODE_STAT (spec/01). -/
def modeStat : Reg := ⟨0x00000100, 0x8, 1, [⟨15, 1, .ro, .chip, 0, .any⟩,
    ⟨14, 1, .ro, .chip, 0, .any⟩,
    ⟨13, 1, .ro, .chip, 0, .any⟩,
    ⟨12, 1, .ro, .chip, 0, .any⟩,
    ⟨11, 1, .ro, .chip, 0, .any⟩,
    ⟨10, 1, .ro, .chip, 0, .any⟩,
    ⟨9, 1, .ro, .chip, 0, .any⟩,
    ⟨4, 2, .ro, .chip, 1, .any⟩,
    ⟨0, 3, .ro, .chip, 1, .any⟩]⟩
/-- MODE_EVT (spec/01). -/
def modeEvt : Reg := ⟨0x00000110, 0x8, 1, [⟨6, 1, .w1c, .chip, 0, .any⟩,
    ⟨5, 1, .w1c, .chip, 0, .any⟩,
    ⟨4, 1, .w1c, .chip, 0, .any⟩,
    ⟨3, 1, .w1c, .chip, 0, .any⟩,
    ⟨2, 1, .w1c, .chip, 0, .any⟩,
    ⟨1, 1, .w1c, .chip, 0, .any⟩,
    ⟨0, 1, .w1c, .chip, 0, .any⟩]⟩
/-- MODE_CTL (spec/01). -/
def modeCtl : Reg := ⟨0x00000108, 0x8, 1, [⟨12, 4, .ro, .chip, 0, .any⟩,
    ⟨8, 2, .ro, .chip, 0, .any⟩,
    ⟨0, 2, .wo, .none, 0, (.range 0 2)⟩]⟩
/-- ARM_STAT (spec/02). -/
def armStat : Reg := ⟨0x00100000, 0x8, 1, [⟨40, 2, .ro, .chip, 0, .any⟩,
    ⟨32, 6, .ro, .chip, 0, .any⟩,
    ⟨0, 32, .ro, .chip, 0, .any⟩]⟩
/-- ARM_SIGNER (spec/02). -/
def armSigner : Reg := ⟨0x00100008, 0x8, 1, [⟨0, 4, .rwl, .chip, 0, .any⟩]⟩
/-- ARM_SRC (spec/02). -/
def armSrc : Reg := ⟨0x00100010, 0x8, 1, [⟨12, 52, .rw, .chip, 0, .any⟩]⟩
/-- ARM_STAGE (spec/02). -/
def armStage : Reg := ⟨0x00100018, 0x8, 1, [⟨48, 6, .ro, .chip, 0, .any⟩,
    ⟨44, 4, .ro, .chip, 0, .any⟩,
    ⟨40, 2, .ro, .chip, 0, .any⟩,
    ⟨32, 2, .wo, .none, 0, (.range 0 3)⟩,
    ⟨0, 25, .rw, .chip, 0, (.range 0 0x1000000)⟩]⟩
/-- ARM_ROLE (spec/02). -/
def armRole : Reg := ⟨0x00100040, 0x8, 3, [⟨0, 4, .ro, .chip, 0, .any⟩,
    ⟨4, 4, .ro, .chip, 0, .any⟩,
    ⟨8, 4, .ro, .chip, 0, .any⟩,
    ⟨12, 4, .ro, .chip, 0, .any⟩,
    ⟨16, 4, .ro, .chip, 0, .any⟩,
    ⟨20, 4, .ro, .chip, 0, .any⟩,
    ⟨24, 4, .ro, .chip, 0, .any⟩,
    ⟨28, 4, .ro, .chip, 0, .any⟩,
    ⟨32, 4, .ro, .chip, 0, .any⟩,
    ⟨36, 4, .ro, .chip, 0, .any⟩,
    ⟨40, 4, .ro, .chip, 0, .any⟩,
    ⟨44, 4, .ro, .chip, 0, .any⟩,
    ⟨48, 4, .ro, .chip, 0, .any⟩,
    ⟨52, 4, .ro, .chip, 0, .any⟩,
    ⟨56, 4, .ro, .chip, 0, .any⟩,
    ⟨60, 4, .ro, .chip, 0, .any⟩]⟩
/-- ARM_DRAIN (spec/02). -/
def armDrain : Reg := ⟨0x00100060, 0x8, 1, [⟨0, 48, .rw, .chip, 0, .any⟩]⟩
/-- ARM_DRAIN_STAT (spec/02). -/
def armDrainStat : Reg := ⟨0x00100068, 0x8, 1, [⟨0, 48, .ro, .chip, 0, .any⟩]⟩
/-- ARM_RECAST (spec/02). -/
def armRecast : Reg := ⟨0x00100070, 0x8, 1, [⟨1, 5, .rwt, .chip, 0, .any⟩]⟩
/-- TXN_OWNER (spec/02). -/
def txnOwner : Reg := ⟨0x00101000, 0x8, 1, [⟨8, 2, .ro, .chip, 0, .any⟩,
    ⟨0, 1, .wo, .none, 0, .any⟩]⟩
/-- TXN_BEGIN (spec/02). -/
def txnBegin : Reg := ⟨0x00101008, 0x8, 1, [⟨0, 1, .wo, .none, 0, .any⟩]⟩
/-- TXN_COMMIT (spec/02). -/
def txnCommit : Reg := ⟨0x00101010, 0x8, 1, [⟨0, 1, .wo, .none, 0, .any⟩]⟩
/-- TXN_ABORT (spec/02). -/
def txnAbort : Reg := ⟨0x00101018, 0x8, 1, [⟨0, 1, .wo, .none, 0, .any⟩]⟩
/-- TXN_STAT (spec/02). -/
def txnStat : Reg := ⟨0x00101020, 0x8, 1, [⟨28, 4, .ro, .chip, 0, .any⟩,
    ⟨27, 1, .ro, .chip, 0, .any⟩,
    ⟨24, 3, .ro, .chip, 0, .any⟩,
    ⟨0, 15, .ro, .chip, 0, .any⟩]⟩
/-- TXN_EPOCH (spec/02). -/
def txnEpoch : Reg := ⟨0x00101028, 0x8, 1, [⟨0, 64, .ro, .chip, 0, .any⟩]⟩
/-- TXN_IDLE_LIMIT (spec/02). -/
def txnIdleLimit : Reg := ⟨0x00101030, 0x8, 1, [⟨0, 16, .rw, .chip, 10000, (.range 100 60000)⟩]⟩
/-- LCK_BITS (spec/02). -/
def lckBits : Reg := ⟨0x00102000, 0x8, 1, [⟨4, 1, .w1s, .chip, 0, .any⟩,
    ⟨3, 1, .w1s, .chip, 0, .any⟩,
    ⟨2, 1, .w1s, .chip, 0, .any⟩,
    ⟨1, 1, .w1s, .chip, 0, .any⟩,
    ⟨0, 1, .w1s, .chip, 0, .any⟩]⟩
/-- TOP_DEVICE_ID (spec/03). -/
def topDeviceId : Reg := ⟨0x00000010, 0x8, 1, [⟨63, 1, .ro, .none, 0, .any⟩,
    ⟨0, 18, .rw, .none, 0, .any⟩]⟩
/-- RT_GEOM (spec/03). -/
def rtGeom : Reg := ⟨0x04000000, 0x8, 1, [⟨25, 2, .ro, .chip, 0, .any⟩,
    ⟨24, 1, .ro, .chip, 0, .any⟩,
    ⟨16, 7, .ro, .chip, 0, .any⟩,
    ⟨0, 13, .ro, .chip, 0, .any⟩]⟩
/-- RT_PARTNER (spec/03). -/
def rtPartner : Reg := ⟨0x04001000, 0x8, 128, [⟨63, 1, .ro, .chip, 0, .any⟩,
    ⟨59, 4, .ro, .chip, 0, .any⟩,
    ⟨18, 7, .ro, .chip, 0, .any⟩,
    ⟨0, 18, .ro, .chip, 0, .any⟩]⟩
/-- RT_TC_MAP (spec/03). -/
def rtTcMap : Reg := ⟨0x04000020, 0x8, 1, [⟨2, 2, .ro, .chip, 0, .any⟩,
    ⟨6, 2, .ro, .chip, 0, .any⟩,
    ⟨10, 2, .ro, .chip, 0, .any⟩,
    ⟨14, 2, .ro, .chip, 0, .any⟩,
    ⟨18, 2, .ro, .chip, 0, .any⟩,
    ⟨22, 2, .ro, .chip, 0, .any⟩,
    ⟨26, 2, .ro, .chip, 0, .any⟩,
    ⟨30, 2, .ro, .chip, 0, .any⟩,
    ⟨0, 2, .ro, .chip, 0, .any⟩,
    ⟨4, 2, .ro, .chip, 0, .any⟩,
    ⟨8, 2, .ro, .chip, 0, .any⟩,
    ⟨12, 2, .ro, .chip, 0, .any⟩,
    ⟨16, 2, .ro, .chip, 0, .any⟩,
    ⟨20, 2, .ro, .chip, 0, .any⟩,
    ⟨24, 2, .ro, .chip, 0, .any⟩,
    ⟨28, 2, .ro, .chip, 0, .any⟩]⟩
/-- RT_PKT_DROP0 (spec/03). -/
def rtPktDrop0 : Reg := ⟨0x04000200, 0x8, 1, [⟨32, 32, .rc, .chip, 0, .any⟩,
    ⟨0, 32, .rc, .chip, 0, .any⟩]⟩
/-- RT_PKT_DROP1 (spec/03). -/
def rtPktDrop1 : Reg := ⟨0x04000208, 0x8, 1, [⟨32, 32, .rc, .chip, 0, .any⟩,
    ⟨0, 32, .rc, .chip, 0, .any⟩]⟩
/-- RT_PKT_DROP2 (spec/03). -/
def rtPktDrop2 : Reg := ⟨0x04000210, 0x8, 1, [⟨32, 32, .rc, .chip, 0, .any⟩,
    ⟨0, 32, .rc, .chip, 0, .any⟩]⟩
/-- LN_CTL (spec/04). -/
def lnCtl : Reg := ⟨0x01000000, 0x1000, 272, [⟨13, 3, .rw, .chip, 0, (.range 0 3)⟩,
    ⟨10, 3, .rw, .chip, 0, (.range 0 5)⟩,
    ⟨7, 3, .rw, .chip, 0, (.range 0 5)⟩,
    ⟨5, 2, .rw, .chip, 0, (.range 0 2)⟩,
    ⟨1, 1, .w1s, .chip, 0, .any⟩,
    ⟨0, 1, .w1s, .chip, 0, .any⟩]⟩
/-- LN_STAT (spec/04). -/
def lnStat : Reg := ⟨0x01000008, 0x1000, 272, [⟨41, 1, .ro, .chip, 0, .any⟩,
    ⟨40, 1, .ro, .chip, 0, .any⟩,
    ⟨32, 8, .ro, .chip, 0, .any⟩,
    ⟨28, 1, .ro, .chip, 0, .any⟩,
    ⟨24, 4, .ro, .chip, 0, .any⟩,
    ⟨23, 1, .ro, .chip, 0, .any⟩,
    ⟨22, 1, .ro, .chip, 0, .any⟩,
    ⟨20, 2, .ro, .chip, 0, .any⟩,
    ⟨16, 4, .ro, .chip, 0, .any⟩,
    ⟨15, 1, .ro, .chip, 0, .any⟩,
    ⟨13, 2, .ro, .chip, 0, .any⟩,
    ⟨12, 1, .ro, .chip, 0, .any⟩,
    ⟨8, 4, .ro, .chip, 0, .any⟩,
    ⟨4, 4, .ro, .chip, 0, .any⟩,
    ⟨0, 4, .ro, .chip, 0, .any⟩]⟩
/-- LN_REC (spec/04). -/
def lnRec : Reg := ⟨0x01000010, 0x1000, 272, [⟨32, 32, .ro, .chip, 0, .any⟩,
    ⟨16, 16, .ro, .chip, 0, .any⟩,
    ⟨8, 8, .ro, .chip, 0, .any⟩,
    ⟨4, 4, .ro, .chip, 0, .any⟩]⟩
/-- LN_FEC (spec/04). -/
def lnFec : Reg := ⟨0x01000018, 0x1000, 272, [⟨32, 32, .rc, .chip, 0, .any⟩,
    ⟨0, 32, .rc, .chip, 0, .any⟩]⟩
/-- LN_FEC_SYM (spec/04). -/
def lnFecSym : Reg := ⟨0x01000020, 0x1000, 272, [⟨60, 4, .rc, .chip, 0, .any⟩,
    ⟨0, 48, .rc, .chip, 0, .any⟩]⟩
/-- LN_BLK (spec/04). -/
def lnBlk : Reg := ⟨0x01000028, 0x1000, 272, [⟨32, 32, .rc, .chip, 0, .any⟩,
    ⟨0, 32, .rc, .chip, 0, .any⟩]⟩
/-- LN_PRBS (spec/04). -/
def lnPrbs : Reg := ⟨0x01000030, 0x1000, 272, [⟨63, 1, .ro, .chip, 0, .any⟩,
    ⟨0, 48, .rc, .chip, 0, .any⟩]⟩
/-- LN_TXEQ (spec/04). -/
def lnTxeq : Reg := ⟨0x01000038, 0x1000, 272, [⟨32, 8, .ro, .chip, 0, .any⟩,
    ⟨24, 8, .ro, .chip, 0, .any⟩,
    ⟨16, 8, .ro, .chip, 0, .any⟩,
    ⟨8, 8, .ro, .chip, 0, .any⟩,
    ⟨0, 8, .ro, .chip, 0, .any⟩]⟩
/-- LN_EVENTS (spec/04). -/
def lnEvents : Reg := ⟨0x01000040, 0x1000, 272, [⟨32, 32, .rc, .chip, 0, .any⟩,
    ⟨0, 32, .rc, .chip, 0, .any⟩]⟩
/-- LL_CTL (spec/05). -/
def llCtl : Reg := ⟨0x02000000, 0x2000, 128, [⟨24, 16, .rw, .chip, 400, (.range 100 65535)⟩,
    ⟨8, 16, .rw, .chip, 64, (.range 1 16384)⟩,
    ⟨3, 1, .rw, .chip, 0, .any⟩,
    ⟨2, 1, .rw, .chip, 0, .any⟩,
    ⟨1, 1, .w1s, .chip, 0, .any⟩]⟩
/-- LL_STAT (spec/05). -/
def llStat : Reg := ⟨0x02000008, 0x2000, 128, [⟨48, 16, .ro, .chip, 0, .any⟩,
    ⟨44, 4, .ro, .chip, 0, .any⟩,
    ⟨40, 4, .ro, .chip, 0, .any⟩,
    ⟨36, 4, .ro, .chip, 0, .any⟩,
    ⟨32, 4, .ro, .chip, 0, .any⟩,
    ⟨8, 24, .ro, .chip, 0, .any⟩,
    ⟨0, 3, .ro, .chip, 0, .any⟩]⟩
/-- LL_SEQ (spec/05). -/
def llSeq : Reg := ⟨0x02000010, 0x2000, 128, [⟨24, 24, .ro, .chip, 0, .any⟩,
    ⟨0, 24, .ro, .chip, 0, .any⟩]⟩
/-- LL_REPLAY (spec/05). -/
def llReplay : Reg := ⟨0x02000018, 0x2000, 128, [⟨48, 16, .rc, .chip, 0, .any⟩,
    ⟨16, 16, .ro, .chip, 0, .any⟩,
    ⟨0, 16, .ro, .chip, 0, .any⟩]⟩
/-- LL_CRED0 (spec/05). -/
def llCred0 : Reg := ⟨0x02000020, 0x2000, 128, [⟨0, 16, .ro, .chip, 0, .any⟩,
    ⟨16, 16, .ro, .chip, 0, .any⟩,
    ⟨32, 16, .ro, .chip, 0, .any⟩,
    ⟨48, 16, .ro, .chip, 0, .any⟩]⟩
/-- LL_CRED1 (spec/05). -/
def llCred1 : Reg := ⟨0x02000028, 0x2000, 128, [⟨0, 16, .ro, .chip, 0, .any⟩,
    ⟨16, 16, .ro, .chip, 0, .any⟩,
    ⟨32, 16, .ro, .chip, 0, .any⟩,
    ⟨48, 16, .ro, .chip, 0, .any⟩]⟩
/-- LL_CNT0 (spec/05). -/
def llCnt0 : Reg := ⟨0x02000030, 0x2000, 128, [⟨32, 32, .rc, .chip, 0, .any⟩,
    ⟨0, 32, .rc, .chip, 0, .any⟩]⟩
/-- LL_CNT1 (spec/05). -/
def llCnt1 : Reg := ⟨0x02000038, 0x2000, 128, [⟨32, 32, .rc, .chip, 0, .any⟩,
    ⟨0, 32, .rc, .chip, 0, .any⟩]⟩
/-- LL_CNT2 (spec/05). -/
def llCnt2 : Reg := ⟨0x02000040, 0x2000, 128, [⟨48, 16, .rc, .chip, 0, .any⟩,
    ⟨32, 16, .rc, .chip, 0, .any⟩,
    ⟨0, 32, .rc, .chip, 0, .any⟩]⟩
/-- LL_DROP (spec/05). -/
def llDrop : Reg := ⟨0x02000048, 0x2000, 128, [⟨32, 32, .rc, .chip, 0, .any⟩,
    ⟨0, 32, .rc, .chip, 0, .any⟩]⟩
/-- LL_TEST (spec/05). -/
def llTest : Reg := ⟨0x02000050, 0x2000, 128, [⟨32, 32, .rc, .chip, 0, .any⟩,
    ⟨0, 32, .rc, .chip, 0, .any⟩]⟩
/-- SW_BUF_STAT (spec/06). -/
def swBufStat : Reg := ⟨0x03000000, 0x80000, 16, [⟨32, 16, .ro, .chip, 0, .any⟩,
    ⟨16, 16, .ro, .chip, 0, .any⟩,
    ⟨0, 16, .ro, .chip, 0, .any⟩]⟩
/-- SW_BUF_CFG (spec/06). -/
def swBufCfg : Reg := ⟨0x03000008, 0x80000, 16, [⟨32, 16, .ro, .chip, 0, .any⟩,
    ⟨16, 16, .ro, .chip, 0, .any⟩,
    ⟨0, 16, .ro, .chip, 0, .any⟩]⟩
/-- SW_RES0 (spec/06). -/
def swRes0 : Reg := ⟨0x03000010, 0x80000, 16, [⟨0, 16, .ro, .chip, 0, .any⟩,
    ⟨16, 16, .ro, .chip, 0, .any⟩,
    ⟨32, 16, .ro, .chip, 0, .any⟩,
    ⟨48, 16, .ro, .chip, 0, .any⟩]⟩
/-- SW_RES1 (spec/06). -/
def swRes1 : Reg := ⟨0x03000018, 0x80000, 16, [⟨0, 16, .ro, .chip, 0, .any⟩,
    ⟨16, 16, .ro, .chip, 0, .any⟩,
    ⟨32, 16, .ro, .chip, 0, .any⟩,
    ⟨48, 16, .ro, .chip, 0, .any⟩]⟩
/-- SW_IRES (spec/06). -/
def swIres : Reg := ⟨0x03000020, 0x80000, 16, [⟨16, 16, .ro, .chip, 0, .any⟩,
    ⟨0, 16, .ro, .chip, 0, .any⟩]⟩
/-- SW_CE_THR (spec/06). -/
def swCeThr : Reg := ⟨0x03000028, 0x80000, 16, [⟨0, 16, .ro, .chip, 0, .any⟩,
    ⟨16, 16, .ro, .chip, 0, .any⟩,
    ⟨32, 16, .ro, .chip, 0, .any⟩,
    ⟨48, 16, .ro, .chip, 0, .any⟩]⟩
/-- SW_BANK (spec/06). -/
def swBank : Reg := ⟨0x03000030, 0x80000, 16, [⟨37, 1, .ro, .chip, 0, .any⟩,
    ⟨36, 1, .ro, .chip, 0, .any⟩,
    ⟨31, 5, .ro, .chip, 0, .any⟩,
    ⟨0, 25, .ro, .chip, 0, .any⟩]⟩
/-- SW_CNT0 (spec/06). -/
def swCnt0 : Reg := ⟨0x03000038, 0x80000, 16, [⟨32, 32, .rc, .chip, 0, .any⟩,
    ⟨0, 32, .rc, .chip, 0, .any⟩]⟩
/-- SW_CNT1 (spec/06). -/
def swCnt1 : Reg := ⟨0x03000040, 0x80000, 16, [⟨32, 32, .rc, .chip, 0, .any⟩,
    ⟨0, 32, .rc, .chip, 0, .any⟩]⟩
/-- SW_DROP (spec/06). -/
def swDrop : Reg := ⟨0x03000048, 0x80000, 16, [⟨32, 32, .rc, .chip, 0, .any⟩,
    ⟨0, 32, .rc, .chip, 0, .any⟩]⟩
/-- SW_EPOCH (spec/06). -/
def swEpoch : Reg := ⟨0x03800000, 0x8, 1, [⟨0, 16, .ro, .chip, 0, .any⟩]⟩
/-- SW_MC (spec/06). -/
def swMc0 : Reg := ⟨0x03900000, 0x20, 65536, [⟨0, 64, .rwt, .chip, 0, .any⟩]⟩
/-- SW_MC (spec/06). -/
def swMc1 : Reg := ⟨0x03900008, 0x20, 65536, [⟨0, 64, .rwt, .chip, 0, .any⟩]⟩
/-- SW_MC (spec/06). -/
def swMc2 : Reg := ⟨0x03900010, 0x20, 65536, [⟨0, 1, .rwt, .chip, 0, .any⟩]⟩
/-- SW_MC (spec/06). -/
def swMc3 : Reg := ⟨0x03900018, 0x20, 65536, [⟨63, 1, .rwt, .chip, 0, .any⟩]⟩
/-- RT_STAT (spec/07). -/
def rtStat : Reg := ⟨0x04000008, 0x8, 1, [⟨32, 32, .ro, .none, 0, .any⟩,
    ⟨4, 2, .ro, .chip, 0, .any⟩,
    ⟨2, 1, .ro, .chip, 0, .any⟩,
    ⟨1, 1, .ro, .chip, 0, .any⟩,
    ⟨0, 1, .ro, .chip, 0, .any⟩]⟩
/-- RT_SETTLE (spec/07). -/
def rtSettle : Reg := ⟨0x04000010, 0x8, 1, [⟨0, 16, .rw, .chip, 5, (.range 2 1000)⟩]⟩
/-- RT_ADAPT (spec/07). -/
def rtAdapt : Reg := ⟨0x04000028, 0x8, 1, [⟨32, 1, .rwt, .chip, 1, .any⟩,
    ⟨16, 16, .rwt, .chip, 512, .any⟩,
    ⟨0, 16, .rwt, .chip, 64, .any⟩]⟩
/-- RT_PORT_MASK (spec/07). -/
def rtPortMask : Reg := ⟨0x04000030, 0x8, 2, [⟨0, 64, .rwt, .chip, 0, .any⟩]⟩
/-- RT_E2E_CFG (spec/07). -/
def rtE2eCfg : Reg := ⟨0x04000040, 0x8, 1, [⟨16, 16, .rwt, .chip, 2048, (.range 16 65535)⟩,
    ⟨0, 16, .rwt, .chip, 4096, (.range 256 65535)⟩]⟩
/-- RT_E2E_TOT (spec/07). -/
def rtE2eTot : Reg := ⟨0x04000048, 0x8, 1, [⟨0, 20, .ro, .chip, 0, .any⟩]⟩
/-- RT_PKT_DROP3 (spec/07). -/
def rtPktDrop3 : Reg := ⟨0x04000218, 0x8, 1, [⟨0, 32, .rc, .chip, 0, .any⟩]⟩
/-- RT_CNT0 (spec/07). -/
def rtCnt0 : Reg := ⟨0x04000220, 0x8, 1, [⟨32, 32, .rc, .chip, 0, .any⟩,
    ⟨0, 32, .rc, .chip, 0, .any⟩]⟩
/-- RT_CNT1 (spec/07). -/
def rtCnt1 : Reg := ⟨0x04000228, 0x8, 1, [⟨32, 32, .rc, .chip, 0, .any⟩,
    ⟨0, 32, .rc, .chip, 0, .any⟩]⟩
/-- RT_MBR (spec/07). -/
def rtMbr : Reg := ⟨0x04002000, 0x8, 64, [⟨21, 1, .ro, .chip, 0, .any⟩,
    ⟨15, 6, .ro, .chip, 0, .any⟩,
    ⟨14, 1, .ro, .chip, 0, .any⟩,
    ⟨8, 6, .ro, .chip, 0, .any⟩,
    ⟨7, 1, .ro, .chip, 0, .any⟩,
    ⟨6, 1, .ro, .chip, 0, .any⟩,
    ⟨0, 6, .ro, .chip, 0, .any⟩]⟩
/-- RT_GRP (spec/07). -/
def rtGrp : Reg := ⟨0x04008000, 0x8, 4096, [⟨63, 1, .ro, .chip, 0, .any⟩,
    ⟨13, 1, .ro, .chip, 0, .any⟩,
    ⟨27, 1, .ro, .chip, 0, .any⟩,
    ⟨41, 1, .ro, .chip, 0, .any⟩,
    ⟨55, 1, .ro, .chip, 0, .any⟩,
    ⟨12, 1, .ro, .chip, 0, .any⟩,
    ⟨26, 1, .ro, .chip, 0, .any⟩,
    ⟨40, 1, .ro, .chip, 0, .any⟩,
    ⟨54, 1, .ro, .chip, 0, .any⟩,
    ⟨6, 6, .ro, .chip, 0, .any⟩,
    ⟨20, 6, .ro, .chip, 0, .any⟩,
    ⟨34, 6, .ro, .chip, 0, .any⟩,
    ⟨48, 6, .ro, .chip, 0, .any⟩,
    ⟨0, 6, .ro, .chip, 0, .any⟩,
    ⟨14, 6, .ro, .chip, 0, .any⟩,
    ⟨28, 6, .ro, .chip, 0, .any⟩,
    ⟨42, 6, .ro, .chip, 0, .any⟩]⟩
/-- RT_E2E_OUT (spec/07). -/
def rtE2eOut : Reg := ⟨0x04010000, 0x8, 4096, [⟨0, 16, .ro, .chip, 0, .any⟩]⟩
/-- TP_RETRY (spec/08). -/
def tpRetry : Reg := ⟨0x05000000, 0x8, 1, [⟨48, 16, .rwt, .chip, 100, (.range 1 65535)⟩,
    ⟨38, 10, .rwt, .chip, 900, (.range 100 900)⟩,
    ⟨33, 5, .rwt, .chip, 16, (.range 1 16)⟩,
    ⟨23, 10, .rwt, .chip, 512, (.range 8 512)⟩,
    ⟨13, 10, .rwt, .chip, 8, (.range 8 512)⟩,
    ⟨3, 10, .rwt, .chip, 16, (.range 8 512)⟩]⟩
/-- TP_ACK (spec/08). -/
def tpAck : Reg := ⟨0x05000008, 0x8, 1, [⟨16, 16, .rwt, .chip, 1000, (.range 100 65535)⟩,
    ⟨0, 8, .rwt, .chip, 4, (.range 1 64)⟩]⟩
/-- TP_CC_ME (spec/08). -/
def tpCcMe : Reg := ⟨0x05000010, 0x8, 1, [⟨16, 16, .rwt, .chip, 4096, (.range 1024 65535)⟩,
    ⟨0, 3, .rwt, .chip, 1, (.range 1 4)⟩]⟩
/-- TP_CC_DC (spec/08). -/
def tpCcDc : Reg := ⟨0x05000018, 0x8, 1, [⟨48, 16, .rwt, .chip, 6000, (.range 1000 65535)⟩,
    ⟨32, 16, .rwt, .chip, 1024, (.range 16 16384)⟩,
    ⟨16, 16, .rwt, .chip, 8, (.range 4 16384)⟩,
    ⟨4, 12, .rwt, .chip, 64, (.range 1 4095)⟩,
    ⟨0, 4, .rwt, .chip, 1, (.range 1 4)⟩]⟩
/-- TP_OCC (spec/08). -/
def tpOcc : Reg := ⟨0x05000020, 0x8, 1, [⟨32, 17, .ro, .chip, 0, .any⟩,
    ⟨0, 19, .ro, .chip, 0, .any⟩]⟩
/-- TP_NACK_CFG (spec/08). -/
def tpNackCfg : Reg := ⟨0x05000028, 0x8, 1, [⟨32, 16, .rwt, .chip, 10, (.range 1 65535)⟩,
    ⟨16, 16, .rwt, .chip, 20, (.range 1 65535)⟩,
    ⟨0, 16, .rwt, .chip, 4, (.range 1 65535)⟩]⟩
/-- TP_EC_MAP (spec/08). -/
def tpEcMap : Reg := ⟨0x05000200, 0x8, 16, [⟨24, 40, .rw, .chip, 0, .any⟩,
    ⟨0, 2, .rw, .chip, 0, (.range 0 2)⟩]⟩
/-- TP_CNT0 (spec/08). -/
def tpCnt0 : Reg := ⟨0x05000100, 0x8, 1, [⟨32, 32, .rc, .chip, 0, .any⟩,
    ⟨0, 32, .rc, .chip, 0, .any⟩]⟩
/-- TP_CNT1 (spec/08). -/
def tpCnt1 : Reg := ⟨0x05000108, 0x8, 1, [⟨32, 32, .rc, .chip, 0, .any⟩,
    ⟨0, 32, .rc, .chip, 0, .any⟩]⟩
/-- TP_CNT2 (spec/08). -/
def tpCnt2 : Reg := ⟨0x05000110, 0x8, 1, [⟨32, 32, .rc, .chip, 0, .any⟩,
    ⟨0, 32, .rc, .chip, 0, .any⟩]⟩
/-- TP_CNT3 (spec/08). -/
def tpCnt3 : Reg := ⟨0x05000118, 0x8, 1, [⟨32, 32, .rc, .chip, 0, .any⟩,
    ⟨0, 32, .rc, .chip, 0, .any⟩]⟩
/-- TP_LATE_RSP (spec/08). -/
def tpLateRsp : Reg := ⟨0x05000120, 0x8, 1, [⟨32, 32, .rc, .chip, 0, .any⟩,
    ⟨0, 32, .rc, .chip, 0, .any⟩]⟩
/-- TP_CNT4 (spec/08). -/
def tpCnt4 : Reg := ⟨0x05000128, 0x8, 1, [⟨32, 32, .rc, .chip, 0, .any⟩,
    ⟨0, 32, .rc, .chip, 0, .any⟩]⟩
/-- TP_CAP (spec/08). -/
def tpCap : Reg := ⟨0x05000130, 0x8, 1, [⟨32, 32, .rc, .chip, 0, .any⟩,
    ⟨0, 32, .rc, .chip, 0, .any⟩]⟩
/-- TP_CNT5 (spec/08). -/
def tpCnt5 : Reg := ⟨0x05000138, 0x8, 1, [⟨32, 32, .rc, .chip, 0, .any⟩,
    ⟨0, 32, .rc, .chip, 0, .any⟩]⟩
/-- TP_DC (spec/08). -/
def tpDc : Reg := ⟨0x05010000, 0x8, 32768, [⟨46, 10, .ro, .chip, 0, .any⟩,
    ⟨24, 22, .ro, .chip, 0, .any⟩,
    ⟨0, 24, .ro, .chip, 0, .any⟩]⟩
/-- MT_CFG (spec/09). -/
def mtCfg : Reg := ⟨0x05800000, 0x8, 1, [⟨48, 16, .rwt, .chip, 20, (.range 1 65535)⟩,
    ⟨32, 16, .rwt, .chip, 0, (.range 0 65535)⟩,
    ⟨24, 8, .rwt, .chip, 50, (.range 1 80)⟩,
    ⟨0, 17, .rwt, .chip, 8176, (.range 0 65520)⟩]⟩
/-- MT_OCC (spec/09). -/
def mtOcc : Reg := ⟨0x05800008, 0x8, 1, [⟨32, 32, .ro, .chip, 0, .any⟩,
    ⟨0, 17, .ro, .chip, 0, .any⟩]⟩
/-- MT_UNEXP (spec/09). -/
def mtUnexp : Reg := ⟨0x05800010, 0x8, 1, [⟨32, 28, .ro, .chip, 0, .any⟩,
    ⟨0, 28, .ro, .chip, 0, .any⟩]⟩
/-- MT_RDV (spec/09). -/
def mtRdv : Reg := ⟨0x05800018, 0x8, 1, [⟨0, 17, .ro, .chip, 0, .any⟩]⟩
/-- MT_CNT0 (spec/09). -/
def mtCnt0 : Reg := ⟨0x05800100, 0x8, 1, [⟨32, 32, .rc, .chip, 0, .any⟩,
    ⟨0, 32, .rc, .chip, 0, .any⟩]⟩
/-- MT_CNT1 (spec/09). -/
def mtCnt1 : Reg := ⟨0x05800108, 0x8, 1, [⟨32, 32, .rc, .chip, 0, .any⟩,
    ⟨0, 32, .rc, .chip, 0, .any⟩]⟩
/-- MT_CNT2 (spec/09). -/
def mtCnt2 : Reg := ⟨0x05800110, 0x8, 1, [⟨32, 32, .rc, .chip, 0, .any⟩,
    ⟨0, 32, .rc, .chip, 0, .any⟩]⟩
/-- MT_CNT3 (spec/09). -/
def mtCnt3 : Reg := ⟨0x05800118, 0x8, 1, [⟨32, 32, .rc, .chip, 0, .any⟩,
    ⟨0, 32, .rc, .chip, 0, .any⟩]⟩
/-- MT_CNT4 (spec/09). -/
def mtCnt4 : Reg := ⟨0x05800120, 0x8, 1, [⟨32, 32, .rc, .chip, 0, .any⟩,
    ⟨0, 32, .rc, .chip, 0, .any⟩]⟩
/-- XL_INVAL_ADDR (spec/10). -/
def xlInvalAddr : Reg := ⟨0x06000100, 0x8, 1, [⟨12, 36, .rw, .chip, 0, .any⟩]⟩
/-- XL_INVAL_CMD (spec/10). -/
def xlInvalCmd : Reg := ⟨0x06000108, 0x8, 1, [⟨30, 17, .wo, .none, 0, .any⟩,
    ⟨16, 12, .wo, .none, 0, .any⟩,
    ⟨0, 2, .wo, .none, 0, (.range 1 3)⟩]⟩
/-- XL_INVAL_STAT (spec/10). -/
def xlInvalStat : Reg := ⟨0x06000110, 0x8, 1, [⟨32, 32, .ro, .chip, 0, .any⟩,
    ⟨0, 32, .ro, .chip, 0, .any⟩]⟩
/-- XL_FAULT_LAST (spec/10). -/
def xlFaultLast : Reg := ⟨0x06000120, 0x8, 1, [⟨0, 48, .ro, .chip, 0, .any⟩]⟩
/-- XL_FAULT_INFO (spec/10). -/
def xlFaultInfo : Reg := ⟨0x06000128, 0x8, 1, [⟨20, 20, .ro, .chip, 0, .any⟩,
    ⟨8, 12, .ro, .chip, 0, .any⟩,
    ⟨6, 2, .ro, .chip, 0, .any⟩,
    ⟨4, 2, .ro, .chip, 0, .any⟩,
    ⟨0, 4, .ro, .chip, 0, .any⟩]⟩
/-- XL_WIN_BASE (spec/10). -/
def xlWinBase : Reg := ⟨0x06000200, 0x10, 16, [⟨63, 1, .rw, .chip, 0, .any⟩,
    ⟨62, 1, .rw, .chip, 0, .any⟩,
    ⟨61, 1, .rw, .chip, 0, .any⟩,
    ⟨12, 40, .rw, .chip, 0, .any⟩]⟩
/-- XL_WIN_LIMIT (spec/10). -/
def xlWinLimit : Reg := ⟨0x06000208, 0x10, 16, [⟨12, 40, .rw, .chip, 0, .any⟩]⟩
/-- XL_DOM (spec/10). -/
def xlDom : Reg := ⟨0x06008000, 0x8, 4096, [⟨63, 1, .rw, .flr, 0, .any⟩,
    ⟨62, 1, .rw, .chip, 0, .any⟩,
    ⟨54, 8, .rw, .chip, 0, .any⟩,
    ⟨53, 1, .ro, .chip, 0, .any⟩,
    ⟨12, 40, .rw, .chip, 0, .any⟩]⟩
/-- XL_CNT0 (spec/10). -/
def xlCnt0 : Reg := ⟨0x06000300, 0x8, 1, [⟨32, 32, .rc, .chip, 0, .any⟩,
    ⟨0, 32, .rc, .chip, 0, .any⟩]⟩
/-- XL_CNT1 (spec/10). -/
def xlCnt1 : Reg := ⟨0x06000308, 0x8, 1, [⟨32, 32, .rc, .chip, 0, .any⟩,
    ⟨0, 32, .rc, .chip, 0, .any⟩]⟩
/-- XL_CNT2 (spec/10). -/
def xlCnt2 : Reg := ⟨0x06000310, 0x8, 1, [⟨32, 32, .rc, .chip, 0, .any⟩,
    ⟨0, 32, .rc, .chip, 0, .any⟩]⟩
/-- MR_CFG (spec/11). -/
def mrCfg : Reg := ⟨0x06800000, 0x8, 1, [⟨32, 18, .ro, .chip, 0, .any⟩,
    ⟨0, 18, .rw, .chip, 4096, (.range 0 131072)⟩]⟩
/-- MR_CMD (spec/11). -/
def mrCmd : Reg := ⟨0x06800008, 0x8, 1, [⟨32, 2, .wo, .none, 0, (.range 0 1)⟩,
    ⟨0, 32, .wo, .none, 0, .any⟩]⟩
/-- MR_CMD_STAT (spec/11). -/
def mrCmdStat : Reg := ⟨0x06800010, 0x8, 1, [⟨32, 4, .ro, .chip, 0, .any⟩,
    ⟨16, 16, .ro, .chip, 0, .any⟩,
    ⟨0, 16, .ro, .chip, 0, .any⟩]⟩
/-- MR_PAGE_CFG (spec/11). -/
def mrPageCfg : Reg := ⟨0x06800018, 0x8, 1, [⟨32, 16, .rw, .chip, 1000, (.range 1 60000)⟩,
    ⟨16, 16, .rw, .chip, 1000, (.range 10 60000)⟩,
    ⟨0, 16, .rw, .chip, 50, (.range 1 65535)⟩]⟩
/-- MR_PAGE_RESOLVE (spec/11). -/
def mrPageResolve : Reg := ⟨0x06800020, 0x8, 1, [⟨12, 2, .wo, .none, 0, (.range 1 2)⟩,
    ⟨0, 12, .wo, .none, 0, .any⟩]⟩
/-- MR_PAGE_STAT (spec/11). -/
def mrPageStat : Reg := ⟨0x06800028, 0x8, 1, [⟨16, 13, .ro, .chip, 0, .any⟩,
    ⟨0, 13, .ro, .chip, 0, .any⟩]⟩
/-- MR_EPOCH_DONE (spec/11). -/
def mrEpochDone : Reg := ⟨0x06800030, 0x8, 1, [⟨0, 64, .ro, .chip, 0, .any⟩]⟩
/-- MR_ERR_LAST (spec/11). -/
def mrErrLast : Reg := ⟨0x06800038, 0x8, 1, [⟨20, 4, .ro, .chip, 0, .any⟩,
    ⟨0, 17, .ro, .chip, 0, .any⟩]⟩
/-- MR_CNT0 (spec/11). -/
def mrCnt0 : Reg := ⟨0x06800100, 0x8, 1, [⟨32, 32, .rc, .chip, 0, .any⟩,
    ⟨0, 32, .rc, .chip, 0, .any⟩]⟩
/-- MR_CNT1 (spec/11). -/
def mrCnt1 : Reg := ⟨0x06800108, 0x8, 1, [⟨32, 32, .rc, .chip, 0, .any⟩,
    ⟨0, 32, .rc, .chip, 0, .any⟩]⟩
/-- MR_CNT2 (spec/11). -/
def mrCnt2 : Reg := ⟨0x06800110, 0x8, 1, [⟨32, 32, .rc, .chip, 0, .any⟩,
    ⟨0, 32, .rc, .chip, 0, .any⟩]⟩
/-- MR_CNT3 (spec/11). -/
def mrCnt3 : Reg := ⟨0x06800118, 0x8, 1, [⟨32, 32, .rc, .chip, 0, .any⟩,
    ⟨0, 32, .rc, .chip, 0, .any⟩]⟩
/-- MR_ENTRY (spec/11). -/
def mrEntry0 : Reg := ⟨0x06C00000, 0x20, 131072, [⟨32, 32, .rwt, .chip, 0, .any⟩,
    ⟨20, 12, .ro, .chip, 0, .any⟩,
    ⟨16, 1, .ro, .chip, 0, .any⟩,
    ⟨8, 8, .ro, .chip, 0, .any⟩,
    ⟨6, 1, .rwt, .chip, 0, .any⟩,
    ⟨5, 1, .rwt, .chip, 0, .any⟩,
    ⟨4, 1, .rwt, .chip, 0, .any⟩,
    ⟨3, 1, .rwt, .chip, 0, .any⟩,
    ⟨2, 1, .ro, .chip, 0, .any⟩,
    ⟨0, 2, .ro, .chip, 0, .any⟩]⟩
/-- MR_ENTRY (spec/11). -/
def mrEntry1 : Reg := ⟨0x06C00008, 0x20, 131072, [⟨46, 15, .ro, .chip, 0, .any⟩,
    ⟨0, 46, .rwt, .chip, 0, .any⟩]⟩
/-- MR_ENTRY (spec/11). -/
def mrEntry2 : Reg := ⟨0x06C00010, 0x20, 131072, [⟨48, 16, .ro, .chip, 0, .any⟩,
    ⟨0, 47, .rwt, .chip, 0, .any⟩]⟩
/-- MR_ENTRY (spec/11). -/
def mrEntry3 : Reg := ⟨0x06C00018, 0x20, 131072, [⟨0, 48, .rwt, .chip, 0, .any⟩]⟩
/-- GW_SPAN (spec/12). -/
def gwSpan0 : Reg := ⟨0x07100000, 0x10, 131072, [⟨46, 18, .rwt, .chip, 0, .any⟩,
    ⟨30, 16, .rwt, .chip, 0, .any⟩,
    ⟨8, 3, .rwt, .chip, 0, .any⟩,
    ⟨5, 1, .ro, .chip, 0, .any⟩,
    ⟨4, 1, .rwt, .chip, 0, .any⟩,
    ⟨3, 1, .rwt, .chip, 0, .any⟩,
    ⟨0, 3, .rwt, .chip, 0, (.range 0 3)⟩]⟩
/-- GW_SPAN (spec/12). -/
def gwSpan1 : Reg := ⟨0x07100008, 0x10, 131072, [⟨32, 20, .rwt, .chip, 0, .any⟩,
    ⟨0, 32, .rwt, .chip, 0, .any⟩]⟩
/-- GW_CFG (spec/12). -/
def gwCfg : Reg := ⟨0x07000000, 0x8, 1, [⟨48, 16, .rwt, .chip, 1000, (.range 50 60000)⟩,
    ⟨16, 6, .rwt, .chip, 16, (.range 1 32)⟩,
    ⟨0, 16, .rwt, .chip, 100, (.range 10 60000)⟩]⟩
/-- GW_SEC (spec/12). -/
def gwSec : Reg := ⟨0x07000008, 0x8, 1, [⟨0, 1, .rwl, .chip, 0, .any⟩]⟩
/-- GW_PORT (spec/12). -/
def gwPort : Reg := ⟨0x07000010, 0x8, 2, [⟨63, 1, .rw, .hot, 0, .any⟩,
    ⟨0, 20, .rw, .hot, 0, .any⟩]⟩
/-- GW_FLUSH_ADDR (spec/12). -/
def gwFlushAddr : Reg := ⟨0x07000100, 0x8, 1, [⟨10, 37, .rw, .chip, 0, .any⟩]⟩
/-- GW_FLUSH_CMD (spec/12). -/
def gwFlushCmd : Reg := ⟨0x07000108, 0x8, 1, [⟨24, 21, .wo, .none, 0, .any⟩,
    ⟨2, 2, .wo, .none, 0, (.range 1 3)⟩,
    ⟨0, 2, .wo, .none, 0, (.range 1 3)⟩]⟩
/-- GW_FLUSH_STAT (spec/12). -/
def gwFlushStat : Reg := ⟨0x07000110, 0x8, 1, [⟨62, 2, .ro, .chip, 0, .any⟩,
    ⟨32, 30, .ro, .chip, 0, .any⟩,
    ⟨0, 32, .ro, .chip, 0, .any⟩]⟩
/-- GW_FC_STAT (spec/12). -/
def gwFcStat : Reg := ⟨0x07000120, 0x8, 1, [⟨32, 13, .ro, .chip, 0, .any⟩,
    ⟨0, 32, .ro, .chip, 0, .any⟩]⟩
/-- GW_ERR_LAST (spec/12). -/
def gwErrLast : Reg := ⟨0x07000130, 0x8, 1, [⟨20, 4, .ro, .chip, 0, .any⟩,
    ⟨0, 17, .ro, .chip, 0, .any⟩]⟩
/-- GW_CNT0 (spec/12). -/
def gwCnt0 : Reg := ⟨0x07000200, 0x8, 1, [⟨32, 32, .rc, .chip, 0, .any⟩,
    ⟨0, 32, .rc, .chip, 0, .any⟩]⟩
/-- GW_CNT1 (spec/12). -/
def gwCnt1 : Reg := ⟨0x07000208, 0x8, 1, [⟨32, 32, .rc, .chip, 0, .any⟩,
    ⟨0, 32, .rc, .chip, 0, .any⟩]⟩
/-- GW_CNT2 (spec/12). -/
def gwCnt2 : Reg := ⟨0x07000210, 0x8, 1, [⟨32, 32, .rc, .chip, 0, .any⟩,
    ⟨0, 32, .rc, .chip, 0, .any⟩]⟩
/-- GW_CNT3 (spec/12). -/
def gwCnt3 : Reg := ⟨0x07000218, 0x8, 1, [⟨32, 32, .rc, .chip, 0, .any⟩,
    ⟨0, 32, .rc, .chip, 0, .any⟩]⟩
/-- GW_CNT4 (spec/12). -/
def gwCnt4 : Reg := ⟨0x07000220, 0x8, 1, [⟨32, 32, .rc, .chip, 0, .any⟩,
    ⟨0, 32, .rc, .chip, 0, .any⟩]⟩
/-- GW_CNT5 (spec/12). -/
def gwCnt5 : Reg := ⟨0x07000228, 0x8, 1, [⟨0, 32, .rc, .chip, 0, .any⟩]⟩
/-- GW_SPAN_ERR (spec/12). -/
def gwSpanErr : Reg := ⟨0x07080000, 0x8, 2048, [⟨0, 64, .w1c, .chip, 0, .any⟩]⟩
/-- CL_CFG (spec/13). -/
def clCfg : Reg := ⟨0x08000000, 0x8, 1, [⟨48, 16, .rwt, .chip, 0, (.range 0 60000)⟩,
    ⟨28, 20, .rwt, .chip, 8192, (.range 0 1048575)⟩,
    ⟨23, 5, .rwt, .chip, 8, (.range 1 16)⟩,
    ⟨13, 10, .rwt, .chip, 32, (.range 8 512)⟩]⟩
/-- CL_POOL (spec/13). -/
def clPool : Reg := ⟨0x08000008, 0x8, 1, [⟨32, 19, .ro, .chip, 0, .any⟩,
    ⟨0, 17, .ro, .chip, 0, .any⟩]⟩
/-- CL_CMD (spec/13). -/
def clCmd : Reg := ⟨0x08000010, 0x8, 1, [⟨32, 2, .wo, .none, 0, (.range 1 2)⟩,
    ⟨0, 12, .wo, .none, 0, .any⟩]⟩
/-- CL_ERR_LAST (spec/13). -/
def clErrLast : Reg := ⟨0x08000018, 0x8, 1, [⟨17, 3, .ro, .chip, 0, .any⟩,
    ⟨16, 1, .ro, .chip, 0, .any⟩,
    ⟨0, 16, .ro, .chip, 0, .any⟩]⟩
/-- CL_CNT0 (spec/13). -/
def clCnt0 : Reg := ⟨0x08000100, 0x8, 1, [⟨32, 32, .rc, .chip, 0, .any⟩,
    ⟨0, 32, .rc, .chip, 0, .any⟩]⟩
/-- CL_CNT1 (spec/13). -/
def clCnt1 : Reg := ⟨0x08000108, 0x8, 1, [⟨32, 32, .rc, .chip, 0, .any⟩,
    ⟨0, 32, .rc, .chip, 0, .any⟩]⟩
/-- CL_CNT2 (spec/13). -/
def clCnt2 : Reg := ⟨0x08000110, 0x8, 1, [⟨32, 32, .rc, .chip, 0, .any⟩,
    ⟨0, 32, .rc, .chip, 0, .any⟩]⟩
/-- CL_GROUP (spec/13). -/
def clGroup0 : Reg := ⟨0x08010000, 0x20, 4096, [⟨63, 1, .rwt, .chip, 0, .any⟩,
    ⟨62, 1, .rwt, .chip, 0, .any⟩,
    ⟨61, 1, .rwt, .chip, 0, .any⟩,
    ⟨60, 1, .rwt, .chip, 0, .any⟩,
    ⟨52, 8, .rwt, .chip, 0, .any⟩,
    ⟨46, 6, .rwt, .chip, 0, (.range 1 32)⟩,
    ⟨43, 3, .rwt, .chip, 3, .any⟩,
    ⟨40, 3, .rwt, .chip, 6, .any⟩,
    ⟨0, 18, .rwt, .chip, 0, .any⟩]⟩
/-- CL_GROUP (spec/13). -/
def clGroup1 : Reg := ⟨0x08010008, 0x20, 4096, [⟨18, 19, .rwt, .chip, 0, (.range 1 262144)⟩,
    ⟨0, 18, .rwt, .chip, 0, .any⟩]⟩
/-- CL_GROUP (spec/13). -/
def clGroup2 : Reg := ⟨0x08010010, 0x20, 4096, [⟨16, 7, .rwt, .chip, 0, (.range 0 64)⟩,
    ⟨0, 16, .rwt, .chip, 0, .any⟩]⟩
/-- CL_GROUP (spec/13). -/
def clGroup3 : Reg := ⟨0x08010018, 0x20, 4096, [⟨26, 8, .ro, .chip, 0, .any⟩,
    ⟨24, 2, .ro, .chip, 0, .any⟩,
    ⟨0, 24, .ro, .chip, 0, .any⟩]⟩
/-- CL_CHILD (spec/13). -/
def clChild : Reg := ⟨0x08100000, 0x8, 65536, [⟨36, 18, .rwt, .chip, 0, .any⟩,
    ⟨18, 18, .rwt, .chip, 0, .any⟩,
    ⟨0, 18, .rwt, .chip, 0, .any⟩]⟩
/-- EX_CFG (spec/13). -/
def exCfg : Reg := ⟨0x08800000, 0x8, 1, [⟨54, 10, .rwt, .chip, 64, (.range 8 512)⟩,
    ⟨49, 5, .rwt, .chip, 16, (.range 1 16)⟩,
    ⟨33, 16, .rwt, .chip, 20, (.range 1 65535)⟩,
    ⟨17, 16, .rwt, .chip, 20, (.range 1 65535)⟩,
    ⟨12, 5, .rwt, .chip, 16, (.range 1 31)⟩]⟩
/-- EX_STAGE (spec/13). -/
def exStage : Reg := ⟨0x08800008, 0x8, 1, [⟨32, 32, .ro, .chip, 0, .any⟩,
    ⟨0, 32, .ro, .chip, 0, .any⟩]⟩
/-- EX_ERR_LAST (spec/13). -/
def exErrLast : Reg := ⟨0x08800010, 0x8, 1, [⟨17, 3, .ro, .chip, 0, .any⟩,
    ⟨16, 1, .ro, .chip, 0, .any⟩,
    ⟨0, 16, .ro, .chip, 0, .any⟩]⟩
/-- EX_CNT0 (spec/13). -/
def exCnt0 : Reg := ⟨0x08800100, 0x8, 1, [⟨32, 32, .rc, .chip, 0, .any⟩,
    ⟨0, 32, .rc, .chip, 0, .any⟩]⟩
/-- EX_CNT1 (spec/13). -/
def exCnt1 : Reg := ⟨0x08800108, 0x8, 1, [⟨32, 32, .rc, .chip, 0, .any⟩,
    ⟨0, 32, .rc, .chip, 0, .any⟩]⟩
/-- EX_CNT2 (spec/13). -/
def exCnt2 : Reg := ⟨0x08800110, 0x8, 1, [⟨32, 32, .rc, .chip, 0, .any⟩,
    ⟨0, 32, .rc, .chip, 0, .any⟩]⟩
/-- EX_CNT3 (spec/13). -/
def exCnt3 : Reg := ⟨0x08800118, 0x8, 1, [⟨32, 32, .rc, .chip, 0, .any⟩,
    ⟨0, 32, .rc, .chip, 0, .any⟩]⟩
/-- EX_JOB (spec/13). -/
def exJob0 : Reg := ⟨0x08810000, 0x20, 64, [⟨63, 1, .rwt, .chip, 0, .any⟩,
    ⟨62, 1, .rwt, .chip, 0, .any⟩,
    ⟨54, 8, .rwt, .chip, 0, .any⟩,
    ⟨52, 2, .rwt, .chip, 0, (.range 0 1)⟩,
    ⟨40, 12, .rwt, .chip, 0, .any⟩,
    ⟨20, 20, .rwt, .chip, 0, .any⟩]⟩
/-- EX_JOB (spec/13). -/
def exJob1 : Reg := ⟨0x08810008, 0x20, 64, [⟨51, 6, .rwt, .chip, 0, (.range 0 32)⟩,
    ⟨39, 12, .rwt, .chip, 0, .any⟩,
    ⟨33, 6, .rwt, .chip, 0, (.range 0 32)⟩,
    ⟨21, 12, .rwt, .chip, 0, .any⟩,
    ⟨16, 5, .rwt, .chip, 0, (.range 0 16)⟩,
    ⟨0, 16, .rwt, .chip, 0, .any⟩]⟩
/-- EX_JOB (spec/13). -/
def exJob2 : Reg := ⟨0x08810010, 0x20, 64, [⟨54, 10, .ro, .chip, 0, .any⟩,
    ⟨32, 3, .rwt, .chip, 2, .any⟩,
    ⟨0, 32, .rwt, .chip, 0, .any⟩]⟩
/-- EX_JOB (spec/13). -/
def exJob3 : Reg := ⟨0x08810018, 0x20, 64, [⟨10, 2, .ro, .chip, 0, .any⟩,
    ⟨8, 2, .ro, .chip, 0, .any⟩,
    ⟨0, 8, .ro, .chip, 0, .any⟩]⟩
/-- EX_RING (spec/13). -/
def exRing0 : Reg := ⟨0x08820000, 0x20, 64, [⟨48, 5, .rwt, .chip, 0, (.range 16 32)⟩,
    ⟨12, 36, .rwt, .chip, 0, .any⟩]⟩
/-- EX_RING (spec/13). -/
def exRing1 : Reg := ⟨0x08820008, 0x20, 64, [⟨3, 45, .rwt, .chip, 0, .any⟩]⟩
/-- EX_RING (spec/13). -/
def exRing2 : Reg := ⟨0x08820010, 0x20, 64, [⟨0, 64, .rw, .chip, 0, .any⟩]⟩
/-- EX_RING (spec/13). -/
def exRing3 : Reg := ⟨0x08820018, 0x20, 64, [⟨0, 64, .ro, .chip, 0, .any⟩]⟩
/-- EX_PART (spec/13). -/
def exPart : Reg := ⟨0x08900000, 0x8, 65536, [⟨63, 1, .rwt, .chip, 0, .any⟩,
    ⟨18, 20, .rwt, .chip, 0, .any⟩,
    ⟨0, 18, .rwt, .chip, 0, .any⟩]⟩
/-- AT_CFG (spec/14). -/
def atCfg : Reg := ⟨0x09000000, 0x8, 1, [⟨33, 1, .rwt, .chip, 1, .any⟩,
    ⟨32, 1, .rwt, .chip, 1, .any⟩,
    ⟨16, 16, .rwt, .chip, 300, (.range 100 900)⟩,
    ⟨8, 8, .rwt, .chip, 200, (.range 1 200)⟩,
    ⟨0, 8, .rwt, .chip, 20, (.range 1 200)⟩]⟩
/-- AT_TABLE (spec/14). -/
def atTable : Reg := ⟨0x09000008, 0x8, 1, [⟨32, 25, .ro, .chip, 0, .any⟩,
    ⟨0, 25, .ro, .chip, 0, .any⟩]⟩
/-- AT_CNT0 (spec/14). -/
def atCnt0 : Reg := ⟨0x09000100, 0x8, 1, [⟨32, 32, .rc, .chip, 0, .any⟩,
    ⟨0, 32, .rc, .chip, 0, .any⟩]⟩
/-- AT_CNT1 (spec/14). -/
def atCnt1 : Reg := ⟨0x09000108, 0x8, 1, [⟨32, 32, .rc, .chip, 0, .any⟩,
    ⟨0, 32, .rc, .chip, 0, .any⟩]⟩
/-- AT_CNT2 (spec/14). -/
def atCnt2 : Reg := ⟨0x09000110, 0x8, 1, [⟨32, 32, .rc, .chip, 0, .any⟩,
    ⟨0, 32, .rc, .chip, 0, .any⟩]⟩
/-- AT_ALIAS (spec/14). -/
def atAlias0 : Reg := ⟨0x09010000, 0x20, 65536, [⟨63, 1, .rw, .hfund, 0, .any⟩,
    ⟨62, 1, .rw, .chip, 0, .any⟩,
    ⟨54, 8, .rw, .chip, 0, .any⟩,
    ⟨49, 5, .rw, .chip, 0, .any⟩,
    ⟨45, 4, .rw, .chip, 0, .any⟩,
    ⟨37, 8, .rw, .chip, 0, .any⟩,
    ⟨36, 1, .ro, .chip, 0, .any⟩]⟩
/-- AT_ALIAS (spec/14). -/
def atAlias1 : Reg := ⟨0x09010008, 0x20, 65536, [⟨44, 20, .rw, .chip, 0, .any⟩]⟩
/-- AT_ALIAS (spec/14). -/
def atAlias2 : Reg := ⟨0x09010010, 0x20, 65536, [⟨36, 28, .rw, .chip, 0, .any⟩,
    ⟨18, 18, .rw, .chip, 0, .any⟩]⟩
/-- AT_ALIAS (spec/14). -/
def atAlias3 : Reg := ⟨0x09010018, 0x20, 65536, [⟨32, 32, .rw, .chip, 0, .any⟩,
    ⟨0, 18, .rw, .chip, 0, .any⟩]⟩
/-- TOP_IDENT (spec/15). -/
def topIdent : Reg := ⟨0x00000000, 0x8, 1, [⟨32, 32, .ro, .none, 0x4e594d48, .any⟩,
    ⟨16, 8, .ro, .none, 1, .any⟩,
    ⟨0, 16, .ro, .none, 296, .any⟩]⟩
/-- HI_PORT_STAT (spec/15). -/
def hiPortStat : Reg := ⟨0x0A000000, 0x8, 2, [⟨32, 9, .ro, .hfund, 0, .any⟩,
    ⟨24, 2, .ro, .hfund, 0, .any⟩,
    ⟨16, 5, .ro, .hfund, 0, .any⟩,
    ⟨8, 5, .ro, .hfund, 0, .any⟩,
    ⟨6, 2, .ro, .hfund, 0, .any⟩,
    ⟨3, 1, .ro, .hfund, 0, .any⟩,
    ⟨2, 1, .ro, .none, 0, .any⟩,
    ⟨1, 1, .ro, .hfund, 0, .any⟩,
    ⟨0, 1, .ro, .hfund, 0, .any⟩]⟩
/-- HI_PM (spec/15). -/
def hiPm : Reg := ⟨0x0A000010, 0x8, 2, [⟨32, 1, .rw, .hfund, 1, .any⟩,
    ⟨16, 16, .rw, .hfund, 10, (.range 1 65535)⟩,
    ⟨0, 16, .rw, .hfund, 100, (.range 1 65535)⟩]⟩
/-- HI_WEDGED (spec/15). -/
def hiWedged : Reg := ⟨0x0A000040, 0x8, 8, [⟨0, 64, .ro, .hfund, 0, .any⟩]⟩
/-- QM_CQ_STALL_LIMIT (spec/15). -/
def qmCqStallLimit : Reg := ⟨0x0A000100, 0x8, 2, [⟨0, 16, .rw, .hfund, 100, (.range 10 60000)⟩]⟩
/-- HI_VF_MAP (spec/15). -/
def hiVfMap : Reg := ⟨0x0A010000, 0x8, 512, [⟨63, 1, .rw, .hfund, 0, .any⟩,
    ⟨32, 17, .rw, .hfund, 0, (.range 0 65536)⟩,
    ⟨24, 7, .rw, .hfund, 0, (.range 0 64)⟩,
    ⟨16, 7, .rw, .hfund, 0, (.range 0 64)⟩,
    ⟨0, 8, .rw, .hfund, 0, .any⟩]⟩
/-- QM_CMD (spec/15). -/
def qmCmd : Reg := ⟨0x0A800000, 0x8000, 8448, [⟨0, 4, .wo, .none, 0, .any⟩]⟩
/-- QM_ARG0 (spec/15). -/
def qmArg0 : Reg := ⟨0x0A800008, 0x8000, 8448, [⟨0, 64, .rw, .flr, 0, .any⟩]⟩
/-- QM_ARG1 (spec/15). -/
def qmArg1 : Reg := ⟨0x0A800010, 0x8000, 8448, [⟨0, 64, .rw, .flr, 0, .any⟩]⟩
/-- QM_ARG2 (spec/15). -/
def qmArg2 : Reg := ⟨0x0A800018, 0x8000, 8448, [⟨0, 64, .rw, .flr, 0, .any⟩]⟩
/-- QM_CMD_STAT (spec/15). -/
def qmCmdStat : Reg := ⟨0x0A800028, 0x8000, 8448, [⟨32, 32, .ro, .flr, 0, .any⟩,
    ⟨8, 4, .ro, .flr, 0, .any⟩,
    ⟨0, 2, .ro, .flr, 0, .any⟩]⟩
/-- QM_FN_CFG (spec/15). -/
def qmFnCfg : Reg := ⟨0x0A800030, 0x8000, 8448, [⟨12, 1, .rw, .flr, 0, .any⟩,
    ⟨0, 12, .rw, .flr, 0, .any⟩]⟩
/-- QM_FN_STAT (spec/15). -/
def qmFnStat : Reg := ⟨0x0A800038, 0x8000, 8448, [⟨32, 32, .rc, .flr, 0, .any⟩,
    ⟨16, 16, .ro, .flr, 0, .any⟩,
    ⟨0, 16, .ro, .flr, 0, .any⟩]⟩
/-- QM_CQ_DB (spec/15). -/
def qmCqDb : Reg := ⟨0x0A801000, 0x8000, 8448, [⟨32, 14, .wo, .none, 0, .any⟩,
    ⟨17, 1, .wo, .none, 0, .any⟩,
    ⟨0, 17, .wo, .none, 0, .any⟩]⟩
/-- QM_EQ_DB (spec/15). -/
def qmEqDb : Reg := ⟨0x0A801008, 0x8000, 8448, [⟨32, 14, .wo, .none, 0, .any⟩,
    ⟨17, 1, .wo, .none, 0, .any⟩,
    ⟨0, 17, .wo, .none, 0, .any⟩]⟩
/-- SC_CFG (spec/16). -/
def scCfg : Reg := ⟨0x0B000000, 0x8, 1, [⟨48, 1, .rwt, .chip, 0, .any⟩,
    ⟨32, 16, .rwt, .chip, 10, (.range 1 1000)⟩,
    ⟨0, 20, .rwt, .chip, 8192, .any⟩]⟩
/-- SC_VC_W (spec/16). -/
def scVcW : Reg := ⟨0x0B000008, 0x8, 1, [⟨0, 8, .rwt, .chip, 0, .any⟩,
    ⟨8, 8, .rwt, .chip, 0, .any⟩,
    ⟨16, 8, .rwt, .chip, 0, .any⟩,
    ⟨24, 8, .rwt, .chip, 0, .any⟩,
    ⟨32, 8, .rwt, .chip, 0, .any⟩,
    ⟨40, 8, .rwt, .chip, 0, .any⟩,
    ⟨48, 8, .rwt, .chip, 0, .any⟩,
    ⟨56, 8, .rwt, .chip, 0, .any⟩]⟩
/-- SC_TC (spec/16). -/
def scTc : Reg := ⟨0x0B000100, 0x8, 8, [⟨17, 1, .rwt, .chip, 0, .any⟩,
    ⟨16, 1, .rwt, .chip, 0, .any⟩,
    ⟨8, 8, .rwt, .chip, 0, (.range 1 255)⟩,
    ⟨0, 8, .rwt, .chip, 0, (.range 1 255)⟩]⟩
/-- SC_CAL_CFG (spec/16). -/
def scCalCfg : Reg := ⟨0x0B000200, 0x8, 1, [⟨16, 16, .rwt, .chip, 1000, (.range 100 10000)⟩,
    ⟨0, 11, .rwt, .chip, 1, (.range 1 1024)⟩]⟩
/-- SC_SHAPE (spec/16). -/
def scShape : Reg := ⟨0x0B001000, 0x8, 64, [⟨63, 1, .rwt, .chip, 0, .any⟩,
    ⟨62, 1, .rwt, .chip, 1, .any⟩,
    ⟨32, 16, .rwt, .chip, 40, (.range 1 4000)⟩,
    ⟨0, 16, .rwt, .chip, 256, .any⟩]⟩
/-- SC_CAL (spec/16). -/
def scCal : Reg := ⟨0x0B002000, 0x8, 1024, [⟨16, 4, .rwt, .chip, 15, .any⟩,
    ⟨0, 16, .rwt, .chip, 0, .any⟩]⟩
/-- SC_FN (spec/16). -/
def scFn : Reg := ⟨0x0B010000, 0x8, 512, [⟨63, 1, .rwt, .chip, 0, .any⟩,
    ⟨48, 10, .rwt, .chip, 0, (.range 0 1023)⟩,
    ⟨0, 8, .rwt, .chip, 16, (.range 1 255)⟩]⟩
/-- SC_POL (spec/16). -/
def scPol0 : Reg := ⟨0x0B020000, 0x20, 1024, [⟨32, 32, .rwt, .chip, 0, .any⟩,
    ⟨0, 32, .rwt, .chip, 0, .any⟩]⟩
/-- SC_POL (spec/16). -/
def scPol1 : Reg := ⟨0x0B020008, 0x20, 1024, [⟨32, 32, .rwt, .chip, 0, .any⟩,
    ⟨0, 32, .rwt, .chip, 0, .any⟩]⟩
/-- SC_POL (spec/16). -/
def scPol2 : Reg := ⟨0x0B020010, 0x20, 1024, [⟨4, 3, .rwt, .chip, 0, .any⟩,
    ⟨2, 2, .rwt, .chip, 2, (.range 0 2)⟩,
    ⟨0, 2, .rwt, .chip, 0, (.range 0 2)⟩]⟩
/-- SC_POL (spec/16). -/
def scPol3 : Reg := ⟨0x0B020018, 0x20, 1024, [⟨32, 32, .rc, .chip, 0, .any⟩,
    ⟨0, 32, .rc, .chip, 0, .any⟩]⟩
/-- SC_QSMP_SEL (spec/16). -/
def scQsmpSel : Reg := ⟨0x0B030000, 0x10, 64, [⟨63, 1, .rw, .chip, 0, .any⟩,
    ⟨60, 3, .rw, .chip, 0, (.range 0 2)⟩,
    ⟨32, 16, .rw, .chip, 0, .any⟩,
    ⟨8, 3, .rw, .chip, 0, .any⟩,
    ⟨0, 8, .rw, .chip, 0, .any⟩]⟩
/-- SC_QSMP_VAL (spec/16). -/
def scQsmpVal : Reg := ⟨0x0B030008, 0x10, 64, [⟨48, 16, .rc, .chip, 0, .any⟩,
    ⟨32, 16, .ro, .chip, 0, .any⟩,
    ⟨16, 16, .rc, .chip, 0, .any⟩,
    ⟨0, 16, .ro, .chip, 0, .any⟩]⟩
/-- KN_BUDGET (spec/16). -/
def knBudget : Reg := ⟨0x00400000, 0x8, 1, [⟨16, 10, .rw, .chip, 540, (.range 100 560)⟩,
    ⟨0, 10, .rw, .chip, 480, (.range 100 560)⟩]⟩
/-- KN_THERM (spec/16). -/
def knTherm : Reg := ⟨0x00400008, 0x8, 1, [⟨8, 8, .rw, .chip, 95, (.range 60 100)⟩,
    ⟨0, 8, .rw, .chip, 90, (.range 50 100)⟩]⟩
/-- KN_VCORE (spec/16). -/
def knVcore : Reg := ⟨0x00400010, 0x8, 1, [⟨48, 8, .rw, .chip, 100, (.range 50 143)⟩,
    ⟨36, 10, .rw, .chip, 620, (.range 600 850)⟩,
    ⟨26, 10, .rw, .chip, 850, (.range 600 850)⟩,
    ⟨16, 10, .rw, .chip, 600, (.range 600 850)⟩,
    ⟨6, 10, .rw, .chip, 750, (.range 600 850)⟩,
    ⟨0, 2, .rw, .chip, 1, (.range 0 1)⟩]⟩
/-- KN_STAT (spec/16). -/
def knStat : Reg := ⟨0x00400018, 0x8, 1, [⟨48, 16, .ro, .chip, 0, .any⟩,
    ⟨45, 3, .ro, .chip, 0, .any⟩,
    ⟨44, 1, .ro, .chip, 0, .any⟩,
    ⟨43, 1, .ro, .chip, 0, .any⟩,
    ⟨42, 1, .ro, .chip, 0, .any⟩,
    ⟨41, 1, .ro, .chip, 0, .any⟩,
    ⟨40, 1, .ro, .chip, 0, .any⟩,
    ⟨24, 11, .ro, .chip, 0, .any⟩,
    ⟨16, 8, .ro, .chip, 0, .any⟩,
    ⟨0, 10, .ro, .chip, 750, .any⟩]⟩
/-- KN_CREDIT (spec/16). -/
def knCredit : Reg := ⟨0x00400020, 0x8, 1, [⟨32, 32, .ro, .chip, 0, .any⟩,
    ⟨0, 32, .ro, .chip, 0, .any⟩]⟩
/-- KN_ALLOW_MAX (spec/16). -/
def knAllowMax : Reg := ⟨0x00400028, 0x8, 1, [⟨0, 32, .rw, .chip, 0x493e0, .any⟩]⟩
/-- KN_ECOST (spec/16). -/
def knEcost : Reg := ⟨0x00400030, 0x8, 1, [⟨32, 16, .rw, .chip, 8000, .any⟩,
    ⟨16, 16, .rw, .chip, 6500, .any⟩,
    ⟨0, 16, .rw, .chip, 5000, .any⟩]⟩
/-- KN_SPEED (spec/16). -/
def knSpeed : Reg := ⟨0x00400040, 0x8, 8, [⟨0, 11, .ro, .chip, 0, .any⟩]⟩
/-- KN_TEMP (spec/16). -/
def knTemp : Reg := ⟨0x00400100, 0x8, 64, [⟨0, 8, .ro, .chip, 0, .any⟩]⟩
/-- KN_CNT (spec/16). -/
def knCnt : Reg := ⟨0x00400300, 0x8, 1, [⟨32, 32, .rc, .chip, 0, .any⟩,
    ⟨0, 32, .rc, .chip, 0, .any⟩]⟩
/-- FC_PEND (spec/17). -/
def fcPend : Reg := ⟨0x00200000, 0x8, 1, [⟨0, 23, .w1c, .por, 0, .any⟩]⟩
/-- FC_MASK (spec/17). -/
def fcMask : Reg := ⟨0x00200008, 0x8, 1, [⟨0, 23, .rw, .chip, 0, .any⟩]⟩
/-- FC_CMD (spec/17). -/
def fcCmd : Reg := ⟨0x00200010, 0x8, 1, [⟨48, 16, .wo, .none, 0, .any⟩,
    ⟨40, 1, .wo, .none, 0, .any⟩,
    ⟨24, 16, .wo, .none, 0, .any⟩,
    ⟨16, 6, .wo, .none, 0, .any⟩,
    ⟨0, 2, .wo, .none, 0, (.range 1 3)⟩]⟩
/-- FC_FENCE (spec/17). -/
def fcFence : Reg := ⟨0x00200018, 0x8, 1, [⟨40, 1, .ro, .chip, 0, .any⟩,
    ⟨24, 16, .ro, .chip, 0, .any⟩,
    ⟨16, 6, .ro, .chip, 0, .any⟩,
    ⟨0, 16, .ro, .chip, 0, .any⟩]⟩
/-- FC_RESET_CAUSE (spec/17). -/
def fcResetCause : Reg := ⟨0x00200020, 0x8, 1, [⟨48, 16, .ro, .por, 0, .any⟩,
    ⟨32, 16, .ro, .por, 0, .any⟩,
    ⟨24, 6, .ro, .por, 0, .any⟩,
    ⟨0, 3, .ro, .por, 0, .any⟩]⟩
/-- FC_SPARES (spec/17). -/
def fcSpares : Reg := ⟨0x00200028, 0x8, 1, [⟨24, 1, .ro, .chip, 0, .any⟩,
    ⟨23, 1, .ro, .chip, 0, .any⟩,
    ⟨20, 3, .ro, .chip, 0, .any⟩,
    ⟨12, 5, .ro, .chip, 0, .any⟩,
    ⟨10, 2, .ro, .chip, 0, .any⟩,
    ⟨8, 2, .ro, .chip, 0, .any⟩,
    ⟨0, 5, .ro, .chip, 0, .any⟩]⟩
/-- FC_WDOG (spec/17). -/
def fcWdog : Reg := ⟨0x00200030, 0x8, 1, [⟨32, 16, .ro, .chip, 0, .any⟩,
    ⟨0, 16, .ro, .chip, 0, .any⟩]⟩
/-- FC_SELFTEST (spec/17). -/
def fcSelftest : Reg := ⟨0x00200038, 0x8, 1, [⟨16, 6, .ro, .chip, 0, .any⟩,
    ⟨0, 2, .ro, .chip, 0, .any⟩]⟩
/-- FC_LOG_IDX (spec/17). -/
def fcLogIdx : Reg := ⟨0x00200040, 0x8, 1, [⟨8, 32, .ro, .por, 0, .any⟩,
    ⟨0, 8, .ro, .por, 0, .any⟩]⟩
/-- FC_REACT (spec/17). -/
def fcReact : Reg := ⟨0x00200100, 0x8, 23, [⟨6, 1, .ro, .chip, 0, .any⟩,
    ⟨4, 2, .ro, .chip, 0, .any⟩,
    ⟨3, 1, .ro, .chip, 0, .any⟩,
    ⟨2, 1, .ro, .chip, 0, .any⟩,
    ⟨1, 1, .ro, .chip, 0, .any⟩,
    ⟨0, 1, .ro, .chip, 0, .any⟩]⟩
/-- FC_SRC (spec/17). -/
def fcSrc : Reg := ⟨0x00200200, 0x8, 23, [⟨63, 1, .ro, .chip, 0, .any⟩,
    ⟨62, 1, .ro, .chip, 0, .any⟩,
    ⟨32, 16, .ro, .por, 0, .any⟩,
    ⟨0, 32, .rc, .por, 0, .any⟩]⟩
/-- FC_LOG (spec/17). -/
def fcLog0 : Reg := ⟨0x00201000, 0x10, 256, [⟨48, 6, .ro, .por, 0, .any⟩,
    ⟨0, 48, .ro, .por, 0, .any⟩]⟩
/-- FC_LOG (spec/17). -/
def fcLog1 : Reg := ⟨0x00201008, 0x10, 256, [⟨23, 1, .ro, .por, 0, .any⟩,
    ⟨16, 7, .ro, .por, 0, .any⟩,
    ⟨0, 16, .ro, .por, 0, .any⟩]⟩
/-- FW_STAT (spec/18). -/
def fwStat : Reg := ⟨0x00300000, 0x8, 1, [⟨16, 3, .ro, .chip, 0, .any⟩,
    ⟨12, 4, .ro, .chip, 0, .any⟩,
    ⟨8, 3, .ro, .chip, 0, .any⟩,
    ⟨1, 1, .ro, .none, 0, .any⟩,
    ⟨0, 1, .ro, .chip, 0, .any⟩]⟩
/-- FW_SLOT (spec/18). -/
def fwSlot : Reg := ⟨0x00300008, 0x8, 2, [⟨48, 2, .ro, .chip, 0, .any⟩,
    ⟨40, 4, .ro, .chip, 0, .any⟩,
    ⟨32, 7, .ro, .chip, 0, .any⟩,
    ⟨0, 32, .ro, .chip, 0, .any⟩]⟩
/-- FW_CMD (spec/18). -/
def fwCmd : Reg := ⟨0x00300018, 0x8, 1, [⟨48, 16, .wo, .none, 0, .any⟩,
    ⟨12, 2, .wo, .none, 0, .any⟩,
    ⟨8, 1, .wo, .none, 0, .any⟩,
    ⟨0, 4, .wo, .none, 0, (.range 1 5)⟩]⟩
/-- FW_DL_SRC (spec/18). -/
def fwDlSrc : Reg := ⟨0x00300020, 0x8, 1, [⟨12, 52, .rw, .chip, 0, .any⟩]⟩
/-- FW_DL_CMD (spec/18). -/
def fwDlCmd : Reg := ⟨0x00300028, 0x8, 1, [⟨32, 5, .wo, .none, 0, (.range 1 16)⟩,
    ⟨12, 14, .wo, .none, 0, .any⟩,
    ⟨8, 1, .wo, .none, 0, .any⟩,
    ⟨0, 1, .wo, .none, 0, .any⟩]⟩
/-- FW_DL_STAT (spec/18). -/
def fwDlStat : Reg := ⟨0x00300030, 0x8, 1, [⟨16, 32, .ro, .chip, 0, .any⟩,
    ⟨4, 4, .ro, .chip, 0, .any⟩,
    ⟨0, 2, .ro, .chip, 0, .any⟩]⟩
/-- FW_HEALTH (spec/18). -/
def fwHealth : Reg := ⟨0x00300038, 0x8, 1, [⟨16, 16, .ro, .chip, 0, .any⟩,
    ⟨0, 1, .ro, .chip, 0, .any⟩]⟩
/-- FW_CTL (spec/18). -/
def fwCtl : Reg := ⟨0x00300040, 0x8, 1, [⟨0, 1, .rwl, .chip, 0, .any⟩]⟩
/-- FW_ID_POLICY (spec/18). -/
def fwIdPolicy : Reg := ⟨0x00300048, 0x8, 1, [⟨2, 1, .rwl, .chip, 0, .any⟩,
    ⟨1, 1, .rwl, .chip, 1, .any⟩,
    ⟨0, 1, .rwl, .chip, 1, .any⟩]⟩
/-- FW_FUSE (spec/18). -/
def fwFuse : Reg := ⟨0x00300050, 0x8, 1, [⟨20, 1, .ro, .none, 0, .any⟩,
    ⟨16, 4, .ro, .none, 1, .any⟩,
    ⟨12, 4, .ro, .none, 1, .any⟩,
    ⟨8, 4, .ro, .none, 0, .any⟩,
    ⟨0, 7, .ro, .none, 0, .any⟩]⟩
/-- PW_STAT (spec/19). -/
def pwStat : Reg := ⟨0x00410000, 0x8, 1, [⟨28, 12, .rc, .por, 0, .any⟩,
    ⟨16, 12, .ro, .por, 0, .any⟩,
    ⟨7, 1, .ro, .por, 0, .any⟩,
    ⟨6, 1, .ro, .por, 0, .any⟩,
    ⟨5, 1, .ro, .por, 0, .any⟩,
    ⟨4, 1, .ro, .por, 0, .any⟩,
    ⟨0, 1, .ro, .por, 0, .any⟩]⟩
/-- PW_EVT (spec/19). -/
def pwEvt : Reg := ⟨0x00410008, 0x8, 1, [⟨4, 1, .w1c, .por, 0, .any⟩,
    ⟨3, 1, .w1c, .por, 0, .any⟩,
    ⟨2, 1, .w1c, .por, 0, .any⟩,
    ⟨1, 1, .w1c, .por, 0, .any⟩,
    ⟨0, 1, .w1c, .por, 0, .any⟩]⟩
/-- PW_RAIL (spec/19). -/
def pwRail : Reg := ⟨0x00410108, 0x8, 8, [⟨32, 32, .ro, .chip, 0, .any⟩,
    ⟨0, 16, .ro, .chip, 0, .any⟩]⟩
/-- CG_CTL (spec/19). -/
def cgCtl : Reg := ⟨0x00420000, 0x40, 64, [⟨8, 8, .rw, .por, 10, (.range 5 80)⟩,
    ⟨1, 1, .w1s, .por, 0, .any⟩,
    ⟨0, 1, .rw, .por, 0, .any⟩]⟩
/-- CG_PLIM (spec/19). -/
def cgPlim : Reg := ⟨0x00420008, 0x40, 64, [⟨48, 16, .rw, .por, 2000, (.range 1000 5000)⟩,
    ⟨32, 16, .rw, .por, 2000, (.range 100 50000)⟩,
    ⟨16, 16, .rw, .por, 4000, (.range 100 8000)⟩,
    ⟨0, 16, .rw, .por, 1000, (.range 100 4000)⟩]⟩
/-- CG_RETRY (spec/19). -/
def cgRetry : Reg := ⟨0x00420010, 0x40, 64, [⟨8, 2, .ro, .por, 0, .any⟩,
    ⟨0, 1, .rw, .por, 0, .any⟩]⟩
/-- CG_STAT (spec/19). -/
def cgStat : Reg := ⟨0x00420018, 0x40, 64, [⟨8, 4, .ro, .por, 0, .any⟩,
    ⟨5, 1, .ro, .por, 0, .any⟩,
    ⟨4, 1, .ro, .por, 0, .any⟩,
    ⟨3, 1, .ro, .por, 0, .any⟩,
    ⟨0, 3, .ro, .por, 0, .any⟩]⟩
/-- CG_MEAS (spec/19). -/
def cgMeas : Reg := ⟨0x00420020, 0x40, 64, [⟨48, 16, .ro, .por, 0, .any⟩,
    ⟨32, 16, .ro, .por, 0, .any⟩,
    ⟨16, 16, .ro, .por, 0, .any⟩,
    ⟨0, 16, .ro, .por, 0, .any⟩]⟩
/-- CG_ENERGY (spec/19). -/
def cgEnergy : Reg := ⟨0x00420028, 0x40, 64, [⟨0, 64, .ro, .por, 0, .any⟩]⟩
/-- PM_CTL (spec/20). -/
def pmCtl : Reg := ⟨0x00500000, 0x8, 1, [⟨16, 16, .rw, .chip, 0, (.zeroOr 10 65535)⟩,
    ⟨4, 1, .rw, .chip, 0, .any⟩,
    ⟨3, 1, .rw, .chip, 0, .any⟩,
    ⟨2, 1, .w1s, .chip, 0, .any⟩,
    ⟨1, 1, .rw, .chip, 0, .any⟩,
    ⟨0, 1, .rw, .chip, 0, .any⟩]⟩
/-- PM_STAT (spec/20). -/
def pmStat : Reg := ⟨0x00500008, 0x8, 1, [⟨32, 2, .ro, .chip, 0, .any⟩,
    ⟨0, 32, .rc, .chip, 0, .any⟩]⟩
/-- PM_TIME (spec/20). -/
def pmTime : Reg := ⟨0x00500010, 0x8, 1, [⟨0, 64, .ro, .por, 0, .any⟩]⟩
/-- PM_SMP_CFG (spec/20). -/
def pmSmpCfg : Reg := ⟨0x00500100, 0x8, 1, [⟨63, 1, .rw, .chip, 0, .any⟩,
    ⟨62, 1, .rw, .chip, 0, .any⟩,
    ⟨59, 3, .rw, .chip, 0, .any⟩,
    ⟨39, 1, .rw, .chip, 0, .any⟩,
    ⟨19, 20, .rw, .chip, 0, .any⟩,
    ⟨0, 16, .rw, .chip, 0, (.range 1 65535)⟩]⟩
/-- PM_SMP_STAT (spec/20). -/
def pmSmpStat : Reg := ⟨0x00500108, 0x8, 1, [⟨32, 32, .rc, .chip, 0, .any⟩,
    ⟨0, 32, .ro, .chip, 0, .any⟩]⟩
/-- PM_DRAIN_ADDR (spec/20). -/
def pmDrainAddr : Reg := ⟨0x00500110, 0x8, 1, [⟨6, 58, .rw, .chip, 0, .any⟩]⟩
/-- PM_DRAIN_CMD (spec/20). -/
def pmDrainCmd : Reg := ⟨0x00500118, 0x8, 1, [⟨16, 16, .wo, .none, 0, (.range 1 65535)⟩,
    ⟨8, 1, .wo, .none, 0, .any⟩,
    ⟨0, 1, .wo, .none, 0, .any⟩]⟩
/-- PM_DRAIN_STAT (spec/20). -/
def pmDrainStat : Reg := ⟨0x00500120, 0x8, 1, [⟨32, 2, .ro, .chip, 0, .any⟩,
    ⟨0, 32, .ro, .chip, 0, .any⟩]⟩
/-- PM_PATINA_IDX (spec/20). -/
def pmPatinaIdx : Reg := ⟨0x00500200, 0x8, 1, [⟨16, 4, .rw, .chip, 0, .any⟩,
    ⟨0, 16, .rw, .chip, 0, .any⟩]⟩
/-- PM_PATINA_DATA (spec/20). -/
def pmPatinaData : Reg := ⟨0x00500208, 0x8, 1, [⟨0, 64, .ro, .none, 0, .any⟩]⟩
/-- PM_SEL (spec/20). -/
def pmSel : Reg := ⟨0x00501000, 0x8, 256, [⟨63, 1, .rw, .chip, 0, .any⟩,
    ⟨61, 2, .rw, .chip, 0, .any⟩,
    ⟨60, 1, .rw, .chip, 0, .any⟩,
    ⟨32, 16, .rw, .chip, 0, .any⟩,
    ⟨16, 8, .rw, .chip, 0, .any⟩,
    ⟨8, 8, .rw, .chip, 0, .any⟩,
    ⟨0, 8, .rw, .chip, 0, .any⟩]⟩
/-- PM_CNT (spec/20). -/
def pmCnt : Reg := ⟨0x00501800, 0x8, 256, [⟨63, 1, .w1c, .chip, 0, .any⟩,
    ⟨0, 48, .rw, .chip, 0, .any⟩]⟩

end R

namespace F

/-- TOP_CSR_REFUSED.COUNT [31:0] RC. -/
def topCsrRefusedCount : Fld := ⟨0x00000040, 0x8, 0, 0, 32⟩
/-- TOP_TILE_SPARE.SP51_USED [31] RO. -/
def topTileSpareSp51Used : Fld := ⟨0x00000080, 0x8, 31, 0, 1⟩
/-- TOP_TILE_SPARE.SP51_TILE [29:24] RO. -/
def topTileSpareSp51Tile : Fld := ⟨0x00000080, 0x8, 24, 0, 6⟩
/-- TOP_TILE_SPARE.SP50_USED [23] RO. -/
def topTileSpareSp50Used : Fld := ⟨0x00000080, 0x8, 23, 0, 1⟩
/-- TOP_TILE_SPARE.SP50_TILE [21:16] RO. -/
def topTileSpareSp50Tile : Fld := ⟨0x00000080, 0x8, 16, 0, 6⟩
/-- TOP_TILE_SPARE.SP49_USED [15] RO. -/
def topTileSpareSp49Used : Fld := ⟨0x00000080, 0x8, 15, 0, 1⟩
/-- TOP_TILE_SPARE.SP49_TILE [13:8] RO. -/
def topTileSpareSp49Tile : Fld := ⟨0x00000080, 0x8, 8, 0, 6⟩
/-- TOP_TILE_SPARE.SP48_USED [7] RO. -/
def topTileSpareSp48Used : Fld := ⟨0x00000080, 0x8, 7, 0, 1⟩
/-- TOP_TILE_SPARE.SP48_TILE [5:0] RO. -/
def topTileSpareSp48Tile : Fld := ⟨0x00000080, 0x8, 0, 0, 6⟩
/-- MODE_STAT.HP1_SERVING [15] RO. -/
def modeStatHp1Serving : Fld := ⟨0x00000100, 0x8, 15, 0, 1⟩
/-- MODE_STAT.HP0_SERVING [14] RO. -/
def modeStatHp0Serving : Fld := ⟨0x00000100, 0x8, 14, 0, 1⟩
/-- MODE_STAT.FENCE_FULL [13] RO. -/
def modeStatFenceFull : Fld := ⟨0x00000100, 0x8, 13, 0, 1⟩
/-- MODE_STAT.RELAY_ACT [12] RO. -/
def modeStatRelayAct : Fld := ⟨0x00000100, 0x8, 12, 0, 1⟩
/-- MODE_STAT.FENCE_ACT [11] RO. -/
def modeStatFenceAct : Fld := ⟨0x00000100, 0x8, 11, 0, 1⟩
/-- MODE_STAT.BROWNOUT_ACT [10] RO. -/
def modeStatBrownoutAct : Fld := ⟨0x00000100, 0x8, 10, 0, 1⟩
/-- MODE_STAT.HOLD_ACT [9] RO. -/
def modeStatHoldAct : Fld := ⟨0x00000100, 0x8, 9, 0, 1⟩
/-- MODE_STAT.BASE [5:4] RO. -/
def modeStatBase : Fld := ⟨0x00000100, 0x8, 4, 0, 2⟩
/-- MODE_STAT.MODE [2:0] RO. -/
def modeStatMode : Fld := ⟨0x00000100, 0x8, 0, 0, 3⟩
/-- MODE_EVT.SERVICE_ENT [6] W1C. -/
def modeEvtServiceEnt : Fld := ⟨0x00000110, 0x8, 6, 0, 1⟩
/-- MODE_EVT.TEST_ENT [5] W1C. -/
def modeEvtTestEnt : Fld := ⟨0x00000110, 0x8, 5, 0, 1⟩
/-- MODE_EVT.RELAY_ENT [4] W1C. -/
def modeEvtRelayEnt : Fld := ⟨0x00000110, 0x8, 4, 0, 1⟩
/-- MODE_EVT.FENCE_ENT [3] W1C. -/
def modeEvtFenceEnt : Fld := ⟨0x00000110, 0x8, 3, 0, 1⟩
/-- MODE_EVT.BROWNOUT_ENT [2] W1C. -/
def modeEvtBrownoutEnt : Fld := ⟨0x00000110, 0x8, 2, 0, 1⟩
/-- MODE_EVT.HOLD_ENT [1] W1C. -/
def modeEvtHoldEnt : Fld := ⟨0x00000110, 0x8, 1, 0, 1⟩
/-- MODE_EVT.HOLD_ABANDONED [0] W1C. -/
def modeEvtHoldAbandoned : Fld := ⟨0x00000110, 0x8, 0, 0, 1⟩
/-- MODE_CTL.REFUSE_CAUSE [15:12] RO. -/
def modeCtlRefuseCause : Fld := ⟨0x00000108, 0x8, 12, 0, 4⟩
/-- MODE_CTL.REQ_ST [9:8] RO. -/
def modeCtlReqSt : Fld := ⟨0x00000108, 0x8, 8, 0, 2⟩
/-- MODE_CTL.REQ [1:0] WO. -/
def modeCtlReq : Fld := ⟨0x00000108, 0x8, 0, 0, 2⟩
/-- ARM_STAT.SIGNER [41:40] RO. -/
def armStatSigner : Fld := ⟨0x00100000, 0x8, 40, 0, 2⟩
/-- ARM_STAT.LOADED [37:32] RO. -/
def armStatLoaded : Fld := ⟨0x00100000, 0x8, 32, 0, 6⟩
/-- ARM_STAT.VERSION [31:0] RO. -/
def armStatVersion : Fld := ⟨0x00100000, 0x8, 0, 0, 32⟩
/-- ARM_SIGNER.ENABLE [3:0] RWL. -/
def armSignerEnable : Fld := ⟨0x00100008, 0x8, 0, 0, 4⟩
/-- ARM_SRC.ADDR [63:12] RW. -/
def armSrcAddr : Fld := ⟨0x00100010, 0x8, 12, 0, 52⟩
/-- ARM_STAGE.DIFF [53:48] RO. -/
def armStageDiff : Fld := ⟨0x00100018, 0x8, 48, 0, 6⟩
/-- ARM_STAGE.CAUSE [47:44] RO. -/
def armStageCause : Fld := ⟨0x00100018, 0x8, 44, 0, 4⟩
/-- ARM_STAGE.ST [41:40] RO. -/
def armStageSt : Fld := ⟨0x00100018, 0x8, 40, 0, 2⟩
/-- ARM_STAGE.CMD [33:32] WO. -/
def armStageCmd : Fld := ⟨0x00100018, 0x8, 32, 0, 2⟩
/-- ARM_STAGE.LEN [24:0] RW. -/
def armStageLen : Fld := ⟨0x00100018, 0x8, 0, 0, 25⟩
/-- ARM_ROLE.TILEk [4k+3:4k] RO. -/
def armRoleTile : Fld := ⟨0x00100040, 0x8, 0, 4, 4⟩
/-- ARM_DRAIN.TILES [47:0] RW. -/
def armDrainTiles : Fld := ⟨0x00100060, 0x8, 0, 0, 48⟩
/-- ARM_DRAIN_STAT.DRAINED [47:0] RO. -/
def armDrainStatDrained : Fld := ⟨0x00100068, 0x8, 0, 0, 48⟩
/-- ARM_RECAST.SECTIONS [5:1] RWT. -/
def armRecastSections : Fld := ⟨0x00100070, 0x8, 1, 0, 5⟩
/-- TXN_OWNER.OWNER [9:8] RO. -/
def txnOwnerOwner : Fld := ⟨0x00101000, 0x8, 8, 0, 2⟩
/-- TXN_OWNER.CLAIM [0] WO. -/
def txnOwnerClaim : Fld := ⟨0x00101000, 0x8, 0, 0, 1⟩
/-- TXN_BEGIN.GO [0] WO. -/
def txnBeginGo : Fld := ⟨0x00101008, 0x8, 0, 0, 1⟩
/-- TXN_COMMIT.GO [0] WO. -/
def txnCommitGo : Fld := ⟨0x00101010, 0x8, 0, 0, 1⟩
/-- TXN_ABORT.GO [0] WO. -/
def txnAbortGo : Fld := ⟨0x00101018, 0x8, 0, 0, 1⟩
/-- TXN_STAT.CAUSE [31:28] RO. -/
def txnStatCause : Fld := ⟨0x00101020, 0x8, 28, 0, 4⟩
/-- TXN_STAT.FAILED [27] RO. -/
def txnStatFailed : Fld := ⟨0x00101020, 0x8, 27, 0, 1⟩
/-- TXN_STAT.ST [26:24] RO. -/
def txnStatSt : Fld := ⟨0x00101020, 0x8, 24, 0, 3⟩
/-- TXN_STAT.STAGED [14:0] RO. -/
def txnStatStaged : Fld := ⟨0x00101020, 0x8, 0, 0, 15⟩
/-- TXN_EPOCH.EPOCH [63:0] RO. -/
def txnEpochEpoch : Fld := ⟨0x00101028, 0x8, 0, 0, 64⟩
/-- TXN_IDLE_LIMIT.MS [15:0] RW. -/
def txnIdleLimitMs : Fld := ⟨0x00101030, 0x8, 0, 0, 16⟩
/-- LCK_BITS.SPAN_SEC_LOCK [4] W1S. -/
def lckBitsSpanSecLock : Fld := ⟨0x00102000, 0x8, 4, 0, 1⟩
/-- LCK_BITS.ID_KEY_LOCK [3] W1S. -/
def lckBitsIdKeyLock : Fld := ⟨0x00102000, 0x8, 3, 0, 1⟩
/-- LCK_BITS.DEBUG_DIS [2] W1S. -/
def lckBitsDebugDis : Fld := ⟨0x00102000, 0x8, 2, 0, 1⟩
/-- LCK_BITS.ARM_SIGNER_LOCK [1] W1S. -/
def lckBitsArmSignerLock : Fld := ⟨0x00102000, 0x8, 1, 0, 1⟩
/-- LCK_BITS.FW_OWNER_LOCK [0] W1S. -/
def lckBitsFwOwnerLock : Fld := ⟨0x00102000, 0x8, 0, 0, 1⟩
/-- TOP_DEVICE_ID.VALID [63] RO. -/
def topDeviceIdValid : Fld := ⟨0x00000010, 0x8, 63, 0, 1⟩
/-- TOP_DEVICE_ID.ID [17:0] RW. -/
def topDeviceIdId : Fld := ⟨0x00000010, 0x8, 0, 0, 18⟩
/-- RT_GEOM.P63_USE [26:25] RO. -/
def rtGeomP63Use : Fld := ⟨0x04000000, 0x8, 25, 0, 2⟩
/-- RT_GEOM.TRUNKED [24] RO. -/
def rtGeomTrunked : Fld := ⟨0x04000000, 0x8, 24, 0, 1⟩
/-- RT_GEOM.MEMBERS [22:16] RO. -/
def rtGeomMembers : Fld := ⟨0x04000000, 0x8, 16, 0, 7⟩
/-- RT_GEOM.GROUPS [12:0] RO. -/
def rtGeomGroups : Fld := ⟨0x04000000, 0x8, 0, 0, 13⟩
/-- RT_PARTNER.VALID [63] RO. -/
def rtPartnerValid : Fld := ⟨0x04001000, 0x8, 63, 0, 1⟩
/-- RT_PARTNER.CHECK [62:59] RO. -/
def rtPartnerCheck : Fld := ⟨0x04001000, 0x8, 59, 0, 4⟩
/-- RT_PARTNER.PARTNER_PORT [24:18] RO. -/
def rtPartnerPartnerPort : Fld := ⟨0x04001000, 0x8, 18, 0, 7⟩
/-- RT_PARTNER.PARTNER_ID [17:0] RO. -/
def rtPartnerPartnerId : Fld := ⟨0x04001000, 0x8, 0, 0, 18⟩
/-- RT_TC_MAP.RSPt [4t+3:4t+2] RO. -/
def rtTcMapRsp : Fld := ⟨0x04000020, 0x8, 2, 4, 2⟩
/-- RT_TC_MAP.REQt [4t+1:4t] RO. -/
def rtTcMapReq : Fld := ⟨0x04000020, 0x8, 0, 4, 2⟩
/-- RT_PKT_DROP0.AGE [63:32] RC. -/
def rtPktDrop0Age : Fld := ⟨0x04000200, 0x8, 32, 0, 32⟩
/-- RT_PKT_DROP0.HCRC [31:0] RC. -/
def rtPktDrop0Hcrc : Fld := ⟨0x04000200, 0x8, 0, 0, 32⟩
/-- RT_PKT_DROP1.FORMAT [63:32] RC. -/
def rtPktDrop1Format : Fld := ⟨0x04000208, 0x8, 32, 0, 32⟩
/-- RT_PKT_DROP1.HOP [31:0] RC. -/
def rtPktDrop1Hop : Fld := ⟨0x04000208, 0x8, 0, 0, 32⟩
/-- RT_PKT_DROP2.STOMPED [63:32] RC. -/
def rtPktDrop2Stomped : Fld := ⟨0x04000210, 0x8, 32, 0, 32⟩
/-- RT_PKT_DROP2.E2E_CRC [31:0] RC. -/
def rtPktDrop2E2eCrc : Fld := ⟨0x04000210, 0x8, 0, 0, 32⟩
/-- LN_CTL.LOOP [15:13] RW. -/
def lnCtlLoop : Fld := ⟨0x01000000, 0x1000, 13, 0, 3⟩
/-- LN_CTL.PRBS_GEN [12:10] RW. -/
def lnCtlPrbsGen : Fld := ⟨0x01000000, 0x1000, 10, 0, 3⟩
/-- LN_CTL.PRBS_CHK [9:7] RW. -/
def lnCtlPrbsChk : Fld := ⟨0x01000000, 0x1000, 7, 0, 3⟩
/-- LN_CTL.RATE [6:5] RW. -/
def lnCtlRate : Fld := ⟨0x01000000, 0x1000, 5, 0, 2⟩
/-- LN_CTL.RECAL [1] W1S. -/
def lnCtlRecal : Fld := ⟨0x01000000, 0x1000, 1, 0, 1⟩
/-- LN_CTL.RETRAIN [0] W1S. -/
def lnCtlRetrain : Fld := ⟨0x01000000, 0x1000, 0, 0, 1⟩
/-- LN_STAT.SPARE_MODE [41] RO. -/
def lnStatSpareMode : Fld := ⟨0x01000008, 0x1000, 41, 0, 1⟩
/-- LN_STAT.SPARE_BUSY [40] RO. -/
def lnStatSpareBusy : Fld := ⟨0x01000008, 0x1000, 40, 0, 1⟩
/-- LN_STAT.SERVING [39:32] RO. -/
def lnStatServing : Fld := ⟨0x01000008, 0x1000, 32, 0, 8⟩
/-- LN_STAT.RECAL_DEFERRED [28] RO. -/
def lnStatRecalDeferred : Fld := ⟨0x01000008, 0x1000, 28, 0, 1⟩
/-- LN_STAT.ATTEMPTS [27:24] RO. -/
def lnStatAttempts : Fld := ⟨0x01000008, 0x1000, 24, 0, 4⟩
/-- LN_STAT.FEC_LOCK [23] RO. -/
def lnStatFecLock : Fld := ⟨0x01000008, 0x1000, 23, 0, 1⟩
/-- LN_STAT.BLK_LOCK [22] RO. -/
def lnStatBlkLock : Fld := ⟨0x01000008, 0x1000, 22, 0, 1⟩
/-- LN_STAT.RATE_NOW [21:20] RO. -/
def lnStatRateNow : Fld := ⟨0x01000008, 0x1000, 20, 0, 2⟩
/-- LN_STAT.FAIL_CAUSE [19:16] RO. -/
def lnStatFailCause : Fld := ⟨0x01000008, 0x1000, 16, 0, 4⟩
/-- LN_STAT.ON_SPARE [15] RO. -/
def lnStatOnSpare : Fld := ⟨0x01000008, 0x1000, 15, 0, 1⟩
/-- LN_STAT.LLANE [14:13] RO. -/
def lnStatLlane : Fld := ⟨0x01000008, 0x1000, 13, 0, 2⟩
/-- LN_STAT.RX_INV [12] RO. -/
def lnStatRxInv : Fld := ⟨0x01000008, 0x1000, 12, 0, 1⟩
/-- LN_STAT.ORDER_CHECK [11:8] RO. -/
def lnStatOrderCheck : Fld := ⟨0x01000008, 0x1000, 8, 0, 4⟩
/-- LN_STAT.WIRE [7:4] RO. -/
def lnStatWire : Fld := ⟨0x01000008, 0x1000, 4, 0, 4⟩
/-- LN_STAT.PHASE [3:0] RO. -/
def lnStatPhase : Fld := ⟨0x01000008, 0x1000, 0, 0, 4⟩
/-- LN_REC.AGE_MS [63:32] RO. -/
def lnRecAgeMs : Fld := ⟨0x01000010, 0x1000, 32, 0, 32⟩
/-- LN_REC.VSERDES_MV [31:16] RO. -/
def lnRecVserdesMv : Fld := ⟨0x01000010, 0x1000, 16, 0, 16⟩
/-- LN_REC.TJ [15:8] RO. -/
def lnRecTj : Fld := ⟨0x01000010, 0x1000, 8, 0, 8⟩
/-- LN_REC.REASON [7:4] RO. -/
def lnRecReason : Fld := ⟨0x01000010, 0x1000, 4, 0, 4⟩
/-- LN_FEC.UNCORR [63:32] RC. -/
def lnFecUncorr : Fld := ⟨0x01000018, 0x1000, 32, 0, 32⟩
/-- LN_FEC.CORR [31:0] RC. -/
def lnFecCorr : Fld := ⟨0x01000018, 0x1000, 0, 0, 32⟩
/-- LN_FEC_SYM.MAX [63:60] RC. -/
def lnFecSymMax : Fld := ⟨0x01000020, 0x1000, 60, 0, 4⟩
/-- LN_FEC_SYM.SYM [47:0] RC. -/
def lnFecSymSym : Fld := ⟨0x01000020, 0x1000, 0, 0, 48⟩
/-- LN_BLK.LOCK_LOSS [63:32] RC. -/
def lnBlkLockLoss : Fld := ⟨0x01000028, 0x1000, 32, 0, 32⟩
/-- LN_BLK.BAD_HDR [31:0] RC. -/
def lnBlkBadHdr : Fld := ⟨0x01000028, 0x1000, 0, 0, 32⟩
/-- LN_PRBS.CHK_LOCK [63] RO. -/
def lnPrbsChkLock : Fld := ⟨0x01000030, 0x1000, 63, 0, 1⟩
/-- LN_PRBS.ERRORS [47:0] RC. -/
def lnPrbsErrors : Fld := ⟨0x01000030, 0x1000, 0, 0, 48⟩
/-- LN_TXEQ.C2 [39:32] RO. -/
def lnTxeqC2 : Fld := ⟨0x01000038, 0x1000, 32, 0, 8⟩
/-- LN_TXEQ.C1 [31:24] RO. -/
def lnTxeqC1 : Fld := ⟨0x01000038, 0x1000, 24, 0, 8⟩
/-- LN_TXEQ.C0 [23:16] RO. -/
def lnTxeqC0 : Fld := ⟨0x01000038, 0x1000, 16, 0, 8⟩
/-- LN_TXEQ.CM1 [15:8] RO. -/
def lnTxeqCm1 : Fld := ⟨0x01000038, 0x1000, 8, 0, 8⟩
/-- LN_TXEQ.CM2 [7:0] RO. -/
def lnTxeqCm2 : Fld := ⟨0x01000038, 0x1000, 0, 0, 8⟩
/-- LN_EVENTS.RECALS [63:32] RC. -/
def lnEventsRecals : Fld := ⟨0x01000040, 0x1000, 32, 0, 32⟩
/-- LN_EVENTS.SWAPS [31:0] RC. -/
def lnEventsSwaps : Fld := ⟨0x01000040, 0x1000, 0, 0, 32⟩
/-- LL_CTL.FORCE_NS [39:24] RW. -/
def llCtlForceNs : Fld := ⟨0x02000000, 0x2000, 24, 0, 16⟩
/-- LL_CTL.COUNT [23:8] RW. -/
def llCtlCount : Fld := ⟨0x02000000, 0x2000, 8, 0, 16⟩
/-- LL_CTL.TGEN [3] RW. -/
def llCtlTgen : Fld := ⟨0x02000000, 0x2000, 3, 0, 1⟩
/-- LL_CTL.SELFLINK [2] RW. -/
def llCtlSelflink : Fld := ⟨0x02000000, 0x2000, 2, 0, 1⟩
/-- LL_CTL.DRAIN [1] W1S. -/
def llCtlDrain : Fld := ⟨0x02000000, 0x2000, 1, 0, 1⟩
/-- LL_STAT.RTT_NS [63:48] RO. -/
def llStatRttNs : Fld := ⟨0x02000008, 0x2000, 48, 0, 16⟩
/-- LL_STAT.DOWN_CAUSE [47:44] RO. -/
def llStatDownCause : Fld := ⟨0x02000008, 0x2000, 44, 0, 4⟩
/-- LL_STAT.GAPS [43:40] RO. -/
def llStatGaps : Fld := ⟨0x02000008, 0x2000, 40, 0, 4⟩
/-- LL_STAT.TX_LANES [39:36] RO. -/
def llStatTxLanes : Fld := ⟨0x02000008, 0x2000, 36, 0, 4⟩
/-- LL_STAT.RX_LANES [35:32] RO. -/
def llStatRxLanes : Fld := ⟨0x02000008, 0x2000, 32, 0, 4⟩
/-- LL_STAT.RX_NEXT [31:8] RO. -/
def llStatRxNext : Fld := ⟨0x02000008, 0x2000, 8, 0, 24⟩
/-- LL_STAT.STATE [2:0] RO. -/
def llStatState : Fld := ⟨0x02000008, 0x2000, 0, 0, 3⟩
/-- LL_SEQ.TX_ACKED [47:24] RO. -/
def llSeqTxAcked : Fld := ⟨0x02000010, 0x2000, 24, 0, 24⟩
/-- LL_SEQ.TX_NEXT [23:0] RO. -/
def llSeqTxNext : Fld := ⟨0x02000010, 0x2000, 0, 0, 24⟩
/-- LL_REPLAY.PEAK [63:48] RC. -/
def llReplayPeak : Fld := ⟨0x02000018, 0x2000, 48, 0, 16⟩
/-- LL_REPLAY.SPILLED [31:16] RO. -/
def llReplaySpilled : Fld := ⟨0x02000018, 0x2000, 16, 0, 16⟩
/-- LL_REPLAY.ON_DIE [15:0] RO. -/
def llReplayOnDie : Fld := ⟨0x02000018, 0x2000, 0, 0, 16⟩
/-- LL_CRED0.AVAILk [16k+15:16k] RO. -/
def llCred0Avail : Fld := ⟨0x02000020, 0x2000, 0, 16, 16⟩
/-- LL_CRED1.AVAILk [16k+15:16k] RO. -/
def llCred1Avail : Fld := ⟨0x02000028, 0x2000, 0, 16, 16⟩
/-- LL_CNT0.RETX_FLITS [63:32] RC. -/
def llCnt0RetxFlits : Fld := ⟨0x02000030, 0x2000, 32, 0, 32⟩
/-- LL_CNT0.LOST_FRAMES [31:0] RC. -/
def llCnt0LostFrames : Fld := ⟨0x02000030, 0x2000, 0, 0, 32⟩
/-- LL_CNT1.DUP_DISCARD [63:32] RC. -/
def llCnt1DupDiscard : Fld := ⟨0x02000038, 0x2000, 32, 0, 32⟩
/-- LL_CNT1.NACKS [31:0] RC. -/
def llCnt1Nacks : Fld := ⟨0x02000038, 0x2000, 0, 0, 32⟩
/-- LL_CNT2.DOWNS [63:48] RC. -/
def llCnt2Downs : Fld := ⟨0x02000040, 0x2000, 48, 0, 16⟩
/-- LL_CNT2.RECOVERS [47:32] RC. -/
def llCnt2Recovers : Fld := ⟨0x02000040, 0x2000, 32, 0, 16⟩
/-- LL_CNT2.SPILL_FETCH [31:0] RC. -/
def llCnt2SpillFetch : Fld := ⟨0x02000040, 0x2000, 0, 0, 32⟩
/-- LL_DROP.FWD [63:32] RC. -/
def llDropFwd : Fld := ⟨0x02000048, 0x2000, 32, 0, 32⟩
/-- LL_DROP.LOCAL [31:0] RC. -/
def llDropLocal : Fld := ⟨0x02000048, 0x2000, 0, 0, 32⟩
/-- LL_TEST.PKTS [63:32] RC. -/
def llTestPkts : Fld := ⟨0x02000050, 0x2000, 32, 0, 32⟩
/-- LL_TEST.BAD [31:0] RC. -/
def llTestBad : Fld := ⟨0x02000050, 0x2000, 0, 0, 32⟩
/-- SW_BUF_STAT.POOL_SIZE [47:32] RO. -/
def swBufStatPoolSize : Fld := ⟨0x03000000, 0x80000, 32, 0, 16⟩
/-- SW_BUF_STAT.POOL_FREE [31:16] RO. -/
def swBufStatPoolFree : Fld := ⟨0x03000000, 0x80000, 16, 0, 16⟩
/-- SW_BUF_STAT.MC_USED [15:0] RO. -/
def swBufStatMcUsed : Fld := ⟨0x03000000, 0x80000, 0, 0, 16⟩
/-- SW_BUF_CFG.MC_MAX [47:32] RO. -/
def swBufCfgMcMax : Fld := ⟨0x03000008, 0x80000, 32, 0, 16⟩
/-- SW_BUF_CFG.OQ_MAX [31:16] RO. -/
def swBufCfgOqMax : Fld := ⟨0x03000008, 0x80000, 16, 0, 16⟩
/-- SW_BUF_CFG.SHR_MAX [15:0] RO. -/
def swBufCfgShrMax : Fld := ⟨0x03000008, 0x80000, 0, 0, 16⟩
/-- SW_RES0.RESk [16k+15:16k] RO. -/
def swRes0Res : Fld := ⟨0x03000010, 0x80000, 0, 16, 16⟩
/-- SW_RES1.RESk [16k+15:16k] RO. -/
def swRes1Res : Fld := ⟨0x03000018, 0x80000, 0, 16, 16⟩
/-- SW_IRES.RSP [31:16] RO. -/
def swIresRsp : Fld := ⟨0x03000020, 0x80000, 16, 0, 16⟩
/-- SW_IRES.REQ [15:0] RO. -/
def swIresReq : Fld := ⟨0x03000020, 0x80000, 0, 0, 16⟩
/-- SW_CE_THR.THRk [16k+15:16k] RO. -/
def swCeThrThr : Fld := ⟨0x03000028, 0x80000, 0, 16, 16⟩
/-- SW_BANK.SWAPPING [37] RO. -/
def swBankSwapping : Fld := ⟨0x03000030, 0x80000, 37, 0, 1⟩
/-- SW_BANK.SPARE_USED [36] RO. -/
def swBankSpareUsed : Fld := ⟨0x03000030, 0x80000, 36, 0, 1⟩
/-- SW_BANK.SPARE_FOR [35:31] RO. -/
def swBankSpareFor : Fld := ⟨0x03000030, 0x80000, 31, 0, 5⟩
/-- SW_BANK.FAILED [24:0] RO. -/
def swBankFailed : Fld := ⟨0x03000030, 0x80000, 0, 0, 25⟩
/-- SW_CNT0.STOMPS [63:32] RC. -/
def swCnt0Stomps : Fld := ⟨0x03000038, 0x80000, 32, 0, 32⟩
/-- SW_CNT0.CE_MARKS [31:0] RC. -/
def swCnt0CeMarks : Fld := ⟨0x03000038, 0x80000, 0, 0, 32⟩
/-- SW_CNT1.ECC_CORR [63:32] RC. -/
def swCnt1EccCorr : Fld := ⟨0x03000040, 0x80000, 32, 0, 32⟩
/-- SW_CNT1.ADOPT_DENY [31:0] RC. -/
def swCnt1AdoptDeny : Fld := ⟨0x03000040, 0x80000, 0, 0, 32⟩
/-- SW_DROP.MC_INVALID [63:32] RC. -/
def swDropMcInvalid : Fld := ⟨0x03000048, 0x80000, 32, 0, 32⟩
/-- SW_DROP.HEAD_LOST [31:0] RC. -/
def swDropHeadLost : Fld := ⟨0x03000048, 0x80000, 0, 0, 32⟩
/-- SW_EPOCH.PS [15:0] RO. -/
def swEpochPs : Fld := ⟨0x03800000, 0x8, 0, 0, 16⟩
/-- SW_MC.VALID [255] RWT. -/
def swMcValid : Fld := ⟨0x03900018, 0x20, 63, 0, 1⟩
/-- SW_MC.EJECT [128] RWT. -/
def swMcEject : Fld := ⟨0x03900010, 0x20, 0, 0, 1⟩
/-- SW_MC.PORTS [127:0] RWT. -/
def swMcPortsLo : Fld := ⟨0x03900000, 0x20, 0, 0, 64⟩
/-- SW_MC.PORTS [127:0] RWT. -/
def swMcPortsHi : Fld := ⟨0x03900008, 0x20, 0, 0, 64⟩
/-- RT_STAT.BOOT_EPOCH [63:32] RO. -/
def rtStatBootEpoch : Fld := ⟨0x04000008, 0x8, 32, 0, 32⟩
/-- RT_STAT.JOIN [5:4] RO. -/
def rtStatJoin : Fld := ⟨0x04000008, 0x8, 4, 0, 2⟩
/-- RT_STAT.GEOM_REFUSED [2] RO. -/
def rtStatGeomRefused : Fld := ⟨0x04000008, 0x8, 2, 0, 1⟩
/-- RT_STAT.ISOLATED [1] RO. -/
def rtStatIsolated : Fld := ⟨0x04000008, 0x8, 1, 0, 1⟩
/-- RT_STAT.SETTLING [0] RO. -/
def rtStatSettling : Fld := ⟨0x04000008, 0x8, 0, 0, 1⟩
/-- RT_SETTLE.MS [15:0] RW. -/
def rtSettleMs : Fld := ⟨0x04000010, 0x8, 0, 0, 16⟩
/-- RT_ADAPT.NONMIN_EN [32] RWT. -/
def rtAdaptNonminEn : Fld := ⟨0x04000028, 0x8, 32, 0, 1⟩
/-- RT_ADAPT.DETOUR_THR [31:16] RWT. -/
def rtAdaptDetourThr : Fld := ⟨0x04000028, 0x8, 16, 0, 16⟩
/-- RT_ADAPT.BIAS [15:0] RWT. -/
def rtAdaptBias : Fld := ⟨0x04000028, 0x8, 0, 0, 16⟩
/-- RT_PORT_MASK.MASK [63:0] RWT. -/
def rtPortMaskMask : Fld := ⟨0x04000030, 0x8, 0, 0, 64⟩
/-- RT_E2E_CFG.TOTAL [31:16] RWT. -/
def rtE2eCfgTotal : Fld := ⟨0x04000040, 0x8, 16, 0, 16⟩
/-- RT_E2E_CFG.WIN [15:0] RWT. -/
def rtE2eCfgWin : Fld := ⟨0x04000040, 0x8, 0, 0, 16⟩
/-- RT_E2E_TOT.FLITS [19:0] RO. -/
def rtE2eTotFlits : Fld := ⟨0x04000048, 0x8, 0, 0, 20⟩
/-- RT_PKT_DROP3.UNREACH [31:0] RC. -/
def rtPktDrop3Unreach : Fld := ⟨0x04000218, 0x8, 0, 0, 32⟩
/-- RT_CNT0.NONMIN [63:32] RC. -/
def rtCnt0Nonmin : Fld := ⟨0x04000220, 0x8, 32, 0, 32⟩
/-- RT_CNT0.DETOUR [31:0] RC. -/
def rtCnt0Detour : Fld := ⟨0x04000220, 0x8, 0, 0, 32⟩
/-- RT_CNT1.REROUTE [63:32] RC. -/
def rtCnt1Reroute : Fld := ⟨0x04000228, 0x8, 32, 0, 32⟩
/-- RT_CNT1.E2E_STALL [31:0] RC. -/
def rtCnt1E2eStall : Fld := ⟨0x04000228, 0x8, 0, 0, 32⟩
/-- RT_MBR.ALT1_VALID [21] RO. -/
def rtMbrAlt1Valid : Fld := ⟨0x04002000, 0x8, 21, 0, 1⟩
/-- RT_MBR.ALT1 [20:15] RO. -/
def rtMbrAlt1 : Fld := ⟨0x04002000, 0x8, 15, 0, 6⟩
/-- RT_MBR.ALT0_VALID [14] RO. -/
def rtMbrAlt0Valid : Fld := ⟨0x04002000, 0x8, 14, 0, 1⟩
/-- RT_MBR.ALT0 [13:8] RO. -/
def rtMbrAlt0 : Fld := ⟨0x04002000, 0x8, 8, 0, 6⟩
/-- RT_MBR.PEER_LIVE [7] RO. -/
def rtMbrPeerLive : Fld := ⟨0x04002000, 0x8, 7, 0, 1⟩
/-- RT_MBR.LIVE [6] RO. -/
def rtMbrLive : Fld := ⟨0x04002000, 0x8, 6, 0, 1⟩
/-- RT_MBR.UNIT [5:0] RO. -/
def rtMbrUnit : Fld := ⟨0x04002000, 0x8, 0, 0, 6⟩
/-- RT_GRP.MIN [63] RO. -/
def rtGrpMin : Fld := ⟨0x04008000, 0x8, 63, 0, 1⟩
/-- RT_GRP.LISTEDn [14n+13] RO. -/
def rtGrpListed : Fld := ⟨0x04008000, 0x8, 13, 14, 1⟩
/-- RT_GRP.LIVEn [14n+12] RO. -/
def rtGrpLive : Fld := ⟨0x04008000, 0x8, 12, 14, 1⟩
/-- RT_GRP.MEMBERn [14n+11:14n+6] RO. -/
def rtGrpMember : Fld := ⟨0x04008000, 0x8, 6, 14, 6⟩
/-- RT_GRP.UNITn [14n+5:14n] RO. -/
def rtGrpUnit : Fld := ⟨0x04008000, 0x8, 0, 14, 6⟩
/-- RT_E2E_OUT.FLITS [15:0] RO. -/
def rtE2eOutFlits : Fld := ⟨0x04010000, 0x8, 0, 0, 16⟩
/-- TP_RETRY.NACK_WAIT_MS [63:48] RWT. -/
def tpRetryNackWaitMs : Fld := ⟨0x05000000, 0x8, 48, 0, 16⟩
/-- TP_RETRY.SPAN_US [47:38] RWT. -/
def tpRetrySpanUs : Fld := ⟨0x05000000, 0x8, 38, 0, 10⟩
/-- TP_RETRY.RETRIES [37:33] RWT. -/
def tpRetryRetries : Fld := ⟨0x05000000, 0x8, 33, 0, 5⟩
/-- TP_RETRY.RTO_MAX_US [32:23] RWT. -/
def tpRetryRtoMaxUs : Fld := ⟨0x05000000, 0x8, 23, 0, 10⟩
/-- TP_RETRY.RTO_MIN_US [22:13] RWT. -/
def tpRetryRtoMinUs : Fld := ⟨0x05000000, 0x8, 13, 0, 10⟩
/-- TP_RETRY.RTO_INIT_US [12:3] RWT. -/
def tpRetryRtoInitUs : Fld := ⟨0x05000000, 0x8, 3, 0, 10⟩
/-- TP_ACK.TIME_NS [31:16] RWT. -/
def tpAckTimeNs : Fld := ⟨0x05000008, 0x8, 16, 0, 16⟩
/-- TP_ACK.COUNT [7:0] RWT. -/
def tpAckCount : Fld := ⟨0x05000008, 0x8, 0, 0, 8⟩
/-- TP_CC_ME.AI_BYTES [31:16] RWT. -/
def tpCcMeAiBytes : Fld := ⟨0x05000010, 0x8, 16, 0, 16⟩
/-- TP_CC_ME.MD_SHIFT [2:0] RWT. -/
def tpCcMeMdShift : Fld := ⟨0x05000010, 0x8, 0, 0, 3⟩
/-- TP_CC_DC.TARGET_NS [63:48] RWT. -/
def tpCcDcTargetNs : Fld := ⟨0x05000018, 0x8, 48, 0, 16⟩
/-- TP_CC_DC.C_MAX [47:32] RWT. -/
def tpCcDcCMax : Fld := ⟨0x05000018, 0x8, 32, 0, 16⟩
/-- TP_CC_DC.C_MIN [31:16] RWT. -/
def tpCcDcCMin : Fld := ⟨0x05000018, 0x8, 16, 0, 16⟩
/-- TP_CC_DC.DC_AI [15:4] RWT. -/
def tpCcDcDcAi : Fld := ⟨0x05000018, 0x8, 4, 0, 12⟩
/-- TP_CC_DC.BETA_SHIFT [3:0] RWT. -/
def tpCcDcBetaShift : Fld := ⟨0x05000018, 0x8, 0, 0, 4⟩
/-- TP_OCC.CACHED [48:32] RO. -/
def tpOccCached : Fld := ⟨0x05000020, 0x8, 32, 0, 17⟩
/-- TP_OCC.SLOTS [18:0] RO. -/
def tpOccSlots : Fld := ⟨0x05000020, 0x8, 0, 0, 19⟩
/-- TP_NACK_CFG.FLAG_US [47:32] RWT. -/
def tpNackCfgFlagUs : Fld := ⟨0x05000028, 0x8, 32, 0, 16⟩
/-- TP_NACK_CFG.REC_US [31:16] RWT. -/
def tpNackCfgRecUs : Fld := ⟨0x05000028, 0x8, 16, 0, 16⟩
/-- TP_NACK_CFG.PARK_US [15:0] RWT. -/
def tpNackCfgParkUs : Fld := ⟨0x05000028, 0x8, 0, 0, 16⟩
/-- TP_EC_MAP.ADDR [63:24] RW. -/
def tpEcMapAddr : Fld := ⟨0x05000200, 0x8, 24, 0, 40⟩
/-- TP_EC_MAP.LOC [1:0] RW. -/
def tpEcMapLoc : Fld := ⟨0x05000200, 0x8, 0, 0, 2⟩
/-- TP_CNT0.PARK_NACK [63:32] RC. -/
def tpCnt0ParkNack : Fld := ⟨0x05000100, 0x8, 32, 0, 32⟩
/-- TP_CNT0.CTX_MISS [31:0] RC. -/
def tpCnt0CtxMiss : Fld := ⟨0x05000100, 0x8, 0, 0, 32⟩
/-- TP_CNT1.GIVEUP [63:32] RC. -/
def tpCnt1Giveup : Fld := ⟨0x05000108, 0x8, 32, 0, 32⟩
/-- TP_CNT1.RETX [31:0] RC. -/
def tpCnt1Retx : Fld := ⟨0x05000108, 0x8, 0, 0, 32⟩
/-- TP_CNT2.EO_HIT [63:32] RC. -/
def tpCnt2EoHit : Fld := ⟨0x05000110, 0x8, 32, 0, 32⟩
/-- TP_CNT2.DUP [31:0] RC. -/
def tpCnt2Dup : Fld := ⟨0x05000110, 0x8, 0, 0, 32⟩
/-- TP_CNT3.FLAG_NACK [63:32] RC. -/
def tpCnt3FlagNack : Fld := ⟨0x05000118, 0x8, 32, 0, 32⟩
/-- TP_CNT3.FLAG_HOLD [31:0] RC. -/
def tpCnt3FlagHold : Fld := ⟨0x05000118, 0x8, 0, 0, 32⟩
/-- TP_LATE_RSP.STRAY [63:32] RC. -/
def tpLateRspStray : Fld := ⟨0x05000120, 0x8, 32, 0, 32⟩
/-- TP_LATE_RSP.LATE [31:0] RC. -/
def tpLateRspLate : Fld := ⟨0x05000120, 0x8, 0, 0, 32⟩
/-- TP_CNT4.REC_NACK [63:32] RC. -/
def tpCnt4RecNack : Fld := ⟨0x05000128, 0x8, 32, 0, 32⟩
/-- TP_CNT4.CTX_EVICT [31:0] RC. -/
def tpCnt4CtxEvict : Fld := ⟨0x05000128, 0x8, 0, 0, 32⟩
/-- TP_CAP.FLOW_EVICT [63:32] RC. -/
def tpCapFlowEvict : Fld := ⟨0x05000130, 0x8, 32, 0, 32⟩
/-- TP_CAP.SLOT_WAIT [31:0] RC. -/
def tpCapSlotWait : Fld := ⟨0x05000130, 0x8, 0, 0, 32⟩
/-- TP_CNT5.REC_EXPIRE [63:32] RC. -/
def tpCnt5RecExpire : Fld := ⟨0x05000138, 0x8, 32, 0, 32⟩
/-- TP_CNT5.LINK_LOST [31:0] RC. -/
def tpCnt5LinkLost : Fld := ⟨0x05000138, 0x8, 0, 0, 32⟩
/-- TP_DC.RTO_US [55:46] RO. -/
def tpDcRtoUs : Fld := ⟨0x05010000, 0x8, 46, 0, 10⟩
/-- TP_DC.SRTT_NS [45:24] RO. -/
def tpDcSrttNs : Fld := ⟨0x05010000, 0x8, 24, 0, 22⟩
/-- TP_DC.CEIL [23:0] RO. -/
def tpDcCeil : Fld := ⟨0x05010000, 0x8, 0, 0, 24⟩
/-- MT_CFG.BACKOFF_US [63:48] RWT. -/
def mtCfgBackoffUs : Fld := ⟨0x05800000, 0x8, 48, 0, 16⟩
/-- MT_CFG.RDV_LIMIT_MS [47:32] RWT. -/
def mtCfgRdvLimitMs : Fld := ⟨0x05800000, 0x8, 32, 0, 16⟩
/-- MT_CFG.RDV_CLOSE_MS [31:24] RWT. -/
def mtCfgRdvCloseMs : Fld := ⟨0x05800000, 0x8, 24, 0, 8⟩
/-- MT_CFG.EAGER_MAX [16:0] RWT. -/
def mtCfgEagerMax : Fld := ⟨0x05800000, 0x8, 0, 0, 17⟩
/-- MT_OCC.OVF [63:32] RO. -/
def mtOccOvf : Fld := ⟨0x05800008, 0x8, 32, 0, 32⟩
/-- MT_OCC.ON_DIE [16:0] RO. -/
def mtOccOnDie : Fld := ⟨0x05800008, 0x8, 0, 0, 17⟩
/-- MT_UNEXP.FREE [59:32] RO. -/
def mtUnexpFree : Fld := ⟨0x05800010, 0x8, 32, 0, 28⟩
/-- MT_UNEXP.SIZE [27:0] RO. -/
def mtUnexpSize : Fld := ⟨0x05800010, 0x8, 0, 0, 28⟩
/-- MT_RDV.PENDING [16:0] RO. -/
def mtRdvPending : Fld := ⟨0x05800018, 0x8, 0, 0, 17⟩
/-- MT_CNT0.MATCH_UNEXP [63:32] RC. -/
def mtCnt0MatchUnexp : Fld := ⟨0x05800100, 0x8, 32, 0, 32⟩
/-- MT_CNT0.MATCH_POSTED [31:0] RC. -/
def mtCnt0MatchPosted : Fld := ⟨0x05800100, 0x8, 0, 0, 32⟩
/-- MT_CNT1.OVF_MATCH [63:32] RC. -/
def mtCnt1OvfMatch : Fld := ⟨0x05800108, 0x8, 32, 0, 32⟩
/-- MT_CNT1.OVF_POSTS [31:0] RC. -/
def mtCnt1OvfPosts : Fld := ⟨0x05800108, 0x8, 0, 0, 32⟩
/-- MT_CNT2.TRUNCATED [63:32] RC. -/
def mtCnt2Truncated : Fld := ⟨0x05800110, 0x8, 32, 0, 32⟩
/-- MT_CNT2.UNEXP_NACK [31:0] RC. -/
def mtCnt2UnexpNack : Fld := ⟨0x05800110, 0x8, 0, 0, 32⟩
/-- MT_CNT3.RDV_FAILED [63:32] RC. -/
def mtCnt3RdvFailed : Fld := ⟨0x05800118, 0x8, 32, 0, 32⟩
/-- MT_CNT3.RDV_WAIT [31:0] RC. -/
def mtCnt3RdvWait : Fld := ⟨0x05800118, 0x8, 0, 0, 32⟩
/-- MT_CNT4.STRAY_FIN [63:32] RC. -/
def mtCnt4StrayFin : Fld := ⟨0x05800120, 0x8, 32, 0, 32⟩
/-- MT_CNT4.ORDER_WAIT [31:0] RC. -/
def mtCnt4OrderWait : Fld := ⟨0x05800120, 0x8, 0, 0, 32⟩
/-- XL_INVAL_ADDR.DVA [47:12] RW. -/
def xlInvalAddrDva : Fld := ⟨0x06000100, 0x8, 12, 0, 36⟩
/-- XL_INVAL_CMD.PAGES [46:30] WO. -/
def xlInvalCmdPages : Fld := ⟨0x06000108, 0x8, 30, 0, 17⟩
/-- XL_INVAL_CMD.DOMAIN [27:16] WO. -/
def xlInvalCmdDomain : Fld := ⟨0x06000108, 0x8, 16, 0, 12⟩
/-- XL_INVAL_CMD.SCOPE [1:0] WO. -/
def xlInvalCmdScope : Fld := ⟨0x06000108, 0x8, 0, 0, 2⟩
/-- XL_INVAL_STAT.DONE [63:32] RO. -/
def xlInvalStatDone : Fld := ⟨0x06000110, 0x8, 32, 0, 32⟩
/-- XL_INVAL_STAT.ISSUED [31:0] RO. -/
def xlInvalStatIssued : Fld := ⟨0x06000110, 0x8, 0, 0, 32⟩
/-- XL_FAULT_LAST.DVA [47:0] RO. -/
def xlFaultLastDva : Fld := ⟨0x06000120, 0x8, 0, 0, 48⟩
/-- XL_FAULT_INFO.EC [39:20] RO. -/
def xlFaultInfoEc : Fld := ⟨0x06000128, 0x8, 20, 0, 20⟩
/-- XL_FAULT_INFO.DOMAIN [19:8] RO. -/
def xlFaultInfoDomain : Fld := ⟨0x06000128, 0x8, 8, 0, 12⟩
/-- XL_FAULT_INFO.CLASS [7:6] RO. -/
def xlFaultInfoClass : Fld := ⟨0x06000128, 0x8, 6, 0, 2⟩
/-- XL_FAULT_INFO.LEVEL [5:4] RO. -/
def xlFaultInfoLevel : Fld := ⟨0x06000128, 0x8, 4, 0, 2⟩
/-- XL_FAULT_INFO.KIND [3:0] RO. -/
def xlFaultInfoKind : Fld := ⟨0x06000128, 0x8, 0, 0, 4⟩
/-- XL_WIN_BASE.VALID [63] RW. -/
def xlWinBaseValid : Fld := ⟨0x06000200, 0x10, 63, 0, 1⟩
/-- XL_WIN_BASE.HP [62] RW. -/
def xlWinBaseHp : Fld := ⟨0x06000200, 0x10, 62, 0, 1⟩
/-- XL_WIN_BASE.MEM [61] RW. -/
def xlWinBaseMem : Fld := ⟨0x06000200, 0x10, 61, 0, 1⟩
/-- XL_WIN_BASE.ADDR [51:12] RW. -/
def xlWinBaseAddr : Fld := ⟨0x06000200, 0x10, 12, 0, 40⟩
/-- XL_WIN_LIMIT.ADDR [51:12] RW. -/
def xlWinLimitAddr : Fld := ⟨0x06000208, 0x10, 12, 0, 40⟩
/-- XL_DOM.VALID [63] RW. -/
def xlDomValid : Fld := ⟨0x06008000, 0x8, 63, 0, 1⟩
/-- XL_DOM.HP [62] RW. -/
def xlDomHp : Fld := ⟨0x06008000, 0x8, 62, 0, 1⟩
/-- XL_DOM.FUNC [61:54] RW. -/
def xlDomFunc : Fld := ⟨0x06008000, 0x8, 54, 0, 8⟩
/-- XL_DOM.SWEEP [53] RO. -/
def xlDomSweep : Fld := ⟨0x06008000, 0x8, 53, 0, 1⟩
/-- XL_DOM.ROOT [51:12] RW. -/
def xlDomRoot : Fld := ⟨0x06008000, 0x8, 12, 0, 40⟩
/-- XL_CNT0.L1_MISS [63:32] RC. -/
def xlCnt0L1Miss : Fld := ⟨0x06000300, 0x8, 32, 0, 32⟩
/-- XL_CNT0.L2_MISS [31:0] RC. -/
def xlCnt0L2Miss : Fld := ⟨0x06000300, 0x8, 0, 0, 32⟩
/-- XL_CNT1.WALK_WAIT [63:32] RC. -/
def xlCnt1WalkWait : Fld := ⟨0x06000308, 0x8, 32, 0, 32⟩
/-- XL_CNT1.L2_ECC [31:0] RC. -/
def xlCnt1L2Ecc : Fld := ⟨0x06000308, 0x8, 0, 0, 32⟩
/-- XL_CNT2.PAGING [63:32] RC. -/
def xlCnt2Paging : Fld := ⟨0x06000310, 0x8, 32, 0, 32⟩
/-- XL_CNT2.HARD [31:0] RC. -/
def xlCnt2Hard : Fld := ⟨0x06000310, 0x8, 0, 0, 32⟩
/-- MR_CFG.SIZE [49:32] RO. -/
def mrCfgSize : Fld := ⟨0x06800000, 0x8, 32, 0, 18⟩
/-- MR_CFG.VF_MAX [17:0] RW. -/
def mrCfgVfMax : Fld := ⟨0x06800000, 0x8, 0, 0, 18⟩
/-- MR_CMD.CMD [33:32] WO. -/
def mrCmdCmd : Fld := ⟨0x06800008, 0x8, 32, 0, 2⟩
/-- MR_CMD.KEY [31:0] WO. -/
def mrCmdKey : Fld := ⟨0x06800008, 0x8, 0, 0, 32⟩
/-- MR_CMD_STAT.LAST_RESULT [35:32] RO. -/
def mrCmdStatLastResult : Fld := ⟨0x06800010, 0x8, 32, 0, 4⟩
/-- MR_CMD_STAT.DONE [31:16] RO. -/
def mrCmdStatDone : Fld := ⟨0x06800010, 0x8, 16, 0, 16⟩
/-- MR_CMD_STAT.ISSUED [15:0] RO. -/
def mrCmdStatIssued : Fld := ⟨0x06800010, 0x8, 0, 0, 16⟩
/-- MR_PAGE_CFG.FAIL_HOLD_MS [47:32] RW. -/
def mrPageCfgFailHoldMs : Fld := ⟨0x06800018, 0x8, 32, 0, 16⟩
/-- MR_PAGE_CFG.RESOLVE_LIMIT_MS [31:16] RW. -/
def mrPageCfgResolveLimitMs : Fld := ⟨0x06800018, 0x8, 16, 0, 16⟩
/-- MR_PAGE_CFG.BACKOFF_US [15:0] RW. -/
def mrPageCfgBackoffUs : Fld := ⟨0x06800018, 0x8, 0, 0, 16⟩
/-- MR_PAGE_RESOLVE.ACTION [13:12] WO. -/
def mrPageResolveAction : Fld := ⟨0x06800020, 0x8, 12, 0, 2⟩
/-- MR_PAGE_RESOLVE.FAULT_ID [11:0] WO. -/
def mrPageResolveFaultId : Fld := ⟨0x06800020, 0x8, 0, 0, 12⟩
/-- MR_PAGE_STAT.FAILED [28:16] RO. -/
def mrPageStatFailed : Fld := ⟨0x06800028, 0x8, 16, 0, 13⟩
/-- MR_PAGE_STAT.OPEN [12:0] RO. -/
def mrPageStatOpen : Fld := ⟨0x06800028, 0x8, 0, 0, 13⟩
/-- MR_EPOCH_DONE.EPOCH [63:0] RO. -/
def mrEpochDoneEpoch : Fld := ⟨0x06800030, 0x8, 0, 0, 64⟩
/-- MR_ERR_LAST.CAUSE [23:20] RO. -/
def mrErrLastCause : Fld := ⟨0x06800038, 0x8, 20, 0, 4⟩
/-- MR_ERR_LAST.INDEX [16:0] RO. -/
def mrErrLastIndex : Fld := ⟨0x06800038, 0x8, 0, 0, 17⟩
/-- MR_CNT0.KEY_INVALID [63:32] RC. -/
def mrCnt0KeyInvalid : Fld := ⟨0x06800100, 0x8, 32, 0, 32⟩
/-- MR_CNT0.ACCESS_DENIED [31:0] RC. -/
def mrCnt0AccessDenied : Fld := ⟨0x06800100, 0x8, 0, 0, 32⟩
/-- MR_CNT1.BOUNDS [63:32] RC. -/
def mrCnt1Bounds : Fld := ⟨0x06800108, 0x8, 32, 0, 32⟩
/-- MR_CNT1.REVOKED [31:0] RC. -/
def mrCnt1Revoked : Fld := ⟨0x06800108, 0x8, 0, 0, 32⟩
/-- MR_CNT2.PAGE_NACK [63:32] RC. -/
def mrCnt2PageNack : Fld := ⟨0x06800110, 0x8, 32, 0, 32⟩
/-- MR_CNT2.FAULT_FULL [31:0] RC. -/
def mrCnt2FaultFull : Fld := ⟨0x06800110, 0x8, 0, 0, 32⟩
/-- MR_CNT3.TXN_REQUIRED [63:32] RC. -/
def mrCnt3TxnRequired : Fld := ⟨0x06800118, 0x8, 32, 0, 32⟩
/-- MR_CNT3.STAGE_DROPPED [31:0] RC. -/
def mrCnt3StageDropped : Fld := ⟨0x06800118, 0x8, 0, 0, 32⟩
/-- MR_ENTRY.DVA [239:192] RWT. -/
def mrEntryDva : Fld := ⟨0x06C00018, 0x20, 0, 0, 48⟩
/-- MR_ENTRY.INFLIGHT [191:176] RO. -/
def mrEntryInflight : Fld := ⟨0x06C00010, 0x20, 48, 0, 16⟩
/-- MR_ENTRY.LEN [174:128] RWT. -/
def mrEntryLen : Fld := ⟨0x06C00010, 0x20, 0, 0, 47⟩
/-- MR_ENTRY.GEN [124:110] RO. -/
def mrEntryGen : Fld := ⟨0x06C00008, 0x20, 46, 0, 15⟩
/-- MR_ENTRY.OFF_BASE [109:64] RWT. -/
def mrEntryOffBase : Fld := ⟨0x06C00008, 0x20, 0, 0, 46⟩
/-- MR_ENTRY.PKRR [63:32] RWT. -/
def mrEntryPkrr : Fld := ⟨0x06C00000, 0x20, 32, 0, 32⟩
/-- MR_ENTRY.DOMAIN [31:20] RO. -/
def mrEntryDomain : Fld := ⟨0x06C00000, 0x20, 20, 0, 12⟩
/-- MR_ENTRY.HP [16] RO. -/
def mrEntryHp : Fld := ⟨0x06C00000, 0x20, 16, 0, 1⟩
/-- MR_ENTRY.FUNC [15:8] RO. -/
def mrEntryFunc : Fld := ⟨0x06C00000, 0x20, 8, 0, 8⟩
/-- MR_ENTRY.PK_MODE [6] RWT. -/
def mrEntryPkMode : Fld := ⟨0x06C00000, 0x20, 6, 0, 1⟩
/-- MR_ENTRY.AT [5] RWT. -/
def mrEntryAt : Fld := ⟨0x06C00000, 0x20, 5, 0, 1⟩
/-- MR_ENTRY.WR [4] RWT. -/
def mrEntryWr : Fld := ⟨0x06C00000, 0x20, 4, 0, 1⟩
/-- MR_ENTRY.RD [3] RWT. -/
def mrEntryRd : Fld := ⟨0x06C00000, 0x20, 3, 0, 1⟩
/-- MR_ENTRY.IN_USE [2] RO. -/
def mrEntryInUse : Fld := ⟨0x06C00000, 0x20, 2, 0, 1⟩
/-- MR_ENTRY.STATE [1:0] RO. -/
def mrEntryState : Fld := ⟨0x06C00000, 0x20, 0, 0, 2⟩
/-- GW_SPAN.HOME_EC [115:96] RWT. -/
def gwSpanHomeEc : Fld := ⟨0x07100008, 0x10, 32, 0, 20⟩
/-- GW_SPAN.KEY [95:64] RWT. -/
def gwSpanKey : Fld := ⟨0x07100008, 0x10, 0, 0, 32⟩
/-- GW_SPAN.HOME_DEV [63:46] RWT. -/
def gwSpanHomeDev : Fld := ⟨0x07100000, 0x10, 46, 0, 18⟩
/-- GW_SPAN.HOME_OFF [45:30] RWT. -/
def gwSpanHomeOff : Fld := ⟨0x07100000, 0x10, 30, 0, 16⟩
/-- GW_SPAN.TC [10:8] RWT. -/
def gwSpanTc : Fld := ⟨0x07100000, 0x10, 8, 0, 3⟩
/-- GW_SPAN.IN_USE [5] RO. -/
def gwSpanInUse : Fld := ⟨0x07100000, 0x10, 5, 0, 1⟩
/-- GW_SPAN.HP1_EN [4] RWT. -/
def gwSpanHp1En : Fld := ⟨0x07100000, 0x10, 4, 0, 1⟩
/-- GW_SPAN.HP0_EN [3] RWT. -/
def gwSpanHp0En : Fld := ⟨0x07100000, 0x10, 3, 0, 1⟩
/-- GW_SPAN.MODE [2:0] RWT. -/
def gwSpanMode : Fld := ⟨0x07100000, 0x10, 0, 0, 3⟩
/-- GW_CFG.LIMIT_US [63:48] RWT. -/
def gwCfgLimitUs : Fld := ⟨0x07000000, 0x8, 48, 0, 16⟩
/-- GW_CFG.DIRTY_MAX [21:16] RWT. -/
def gwCfgDirtyMax : Fld := ⟨0x07000000, 0x8, 16, 0, 6⟩
/-- GW_CFG.WB_RETRY_MS [15:0] RWT. -/
def gwCfgWbRetryMs : Fld := ⟨0x07000000, 0x8, 0, 0, 16⟩
/-- GW_SEC.MODE [0] RWL. -/
def gwSecMode : Fld := ⟨0x07000008, 0x8, 0, 0, 1⟩
/-- GW_PORT.ENABLE [63] RW. -/
def gwPortEnable : Fld := ⟨0x07000010, 0x8, 63, 0, 1⟩
/-- GW_PORT.EC [19:0] RW. -/
def gwPortEc : Fld := ⟨0x07000010, 0x8, 0, 0, 20⟩
/-- GW_FLUSH_ADDR.OFFSET [46:10] RW. -/
def gwFlushAddrOffset : Fld := ⟨0x07000100, 0x8, 10, 0, 37⟩
/-- GW_FLUSH_CMD.LINES [44:24] WO. -/
def gwFlushCmdLines : Fld := ⟨0x07000108, 0x8, 24, 0, 21⟩
/-- GW_FLUSH_CMD.SCOPE [3:2] WO. -/
def gwFlushCmdScope : Fld := ⟨0x07000108, 0x8, 2, 0, 2⟩
/-- GW_FLUSH_CMD.ACTION [1:0] WO. -/
def gwFlushCmdAction : Fld := ⟨0x07000108, 0x8, 0, 0, 2⟩
/-- GW_FLUSH_STAT.RESULT [63:62] RO. -/
def gwFlushStatResult : Fld := ⟨0x07000110, 0x8, 62, 0, 2⟩
/-- GW_FLUSH_STAT.DONE [61:32] RO. -/
def gwFlushStatDone : Fld := ⟨0x07000110, 0x8, 32, 0, 30⟩
/-- GW_FLUSH_STAT.ISSUED [31:0] RO. -/
def gwFlushStatIssued : Fld := ⟨0x07000110, 0x8, 0, 0, 32⟩
/-- GW_FC_STAT.FETCHES [44:32] RO. -/
def gwFcStatFetches : Fld := ⟨0x07000120, 0x8, 32, 0, 13⟩
/-- GW_FC_STAT.DIRTY_KIB [31:0] RO. -/
def gwFcStatDirtyKib : Fld := ⟨0x07000120, 0x8, 0, 0, 32⟩
/-- GW_ERR_LAST.CAUSE [23:20] RO. -/
def gwErrLastCause : Fld := ⟨0x07000130, 0x8, 20, 0, 4⟩
/-- GW_ERR_LAST.SPAN [16:0] RO. -/
def gwErrLastSpan : Fld := ⟨0x07000130, 0x8, 0, 0, 17⟩
/-- GW_CNT0.HIT [63:32] RC. -/
def gwCnt0Hit : Fld := ⟨0x07000200, 0x8, 32, 0, 32⟩
/-- GW_CNT0.MISS [31:0] RC. -/
def gwCnt0Miss : Fld := ⟨0x07000200, 0x8, 0, 0, 32⟩
/-- GW_CNT1.POISON [63:32] RC. -/
def gwCnt1Poison : Fld := ⟨0x07000208, 0x8, 32, 0, 32⟩
/-- GW_CNT1.WRITE_LOST [31:0] RC. -/
def gwCnt1WriteLost : Fld := ⟨0x07000208, 0x8, 0, 0, 32⟩
/-- GW_CNT2.RO_WRITE [63:32] RC. -/
def gwCnt2RoWrite : Fld := ⟨0x07000210, 0x8, 32, 0, 32⟩
/-- GW_CNT2.NO_SPAN [31:0] RC. -/
def gwCnt2NoSpan : Fld := ⟨0x07000210, 0x8, 0, 0, 32⟩
/-- GW_CNT3.TXN_REQUIRED [63:32] RC. -/
def gwCnt3TxnRequired : Fld := ⟨0x07000218, 0x8, 32, 0, 32⟩
/-- GW_CNT3.STAGE_DROPPED [31:0] RC. -/
def gwCnt3StageDropped : Fld := ⟨0x07000218, 0x8, 0, 0, 32⟩
/-- GW_CNT4.WB_FAILED [63:32] RC. -/
def gwCnt4WbFailed : Fld := ⟨0x07000220, 0x8, 32, 0, 32⟩
/-- GW_CNT4.DIRTY_STALL [31:0] RC. -/
def gwCnt4DirtyStall : Fld := ⟨0x07000220, 0x8, 0, 0, 32⟩
/-- GW_CNT5.BYPASS [31:0] RC. -/
def gwCnt5Bypass : Fld := ⟨0x07000228, 0x8, 0, 0, 32⟩
/-- GW_SPAN_ERR.ERR [63:0] W1C. -/
def gwSpanErrErr : Fld := ⟨0x07080000, 0x8, 0, 0, 64⟩
/-- CL_CFG.OP_LIMIT_MS [63:48] RWT. -/
def clCfgOpLimitMs : Fld := ⟨0x08000000, 0x8, 48, 0, 16⟩
/-- CL_CFG.SMALL_MAX [47:28] RWT. -/
def clCfgSmallMax : Fld := ⟨0x08000000, 0x8, 28, 0, 20⟩
/-- CL_CFG.HOP_RETRIES [27:23] RWT. -/
def clCfgHopRetries : Fld := ⟨0x08000000, 0x8, 23, 0, 5⟩
/-- CL_CFG.HOP_RTO_US [22:13] RWT. -/
def clCfgHopRtoUs : Fld := ⟨0x08000000, 0x8, 13, 0, 10⟩
/-- CL_POOL.SLOTS_FREE [50:32] RO. -/
def clPoolSlotsFree : Fld := ⟨0x08000008, 0x8, 32, 0, 19⟩
/-- CL_POOL.HOLD_FREE [16:0] RO. -/
def clPoolHoldFree : Fld := ⟨0x08000008, 0x8, 0, 0, 17⟩
/-- CL_CMD.CMD [33:32] WO. -/
def clCmdCmd : Fld := ⟨0x08000010, 0x8, 32, 0, 2⟩
/-- CL_CMD.GROUP [11:0] WO. -/
def clCmdGroup : Fld := ⟨0x08000010, 0x8, 0, 0, 12⟩
/-- CL_ERR_LAST.CAUSE [19:17] RO. -/
def clErrLastCause : Fld := ⟨0x08000018, 0x8, 17, 0, 3⟩
/-- CL_ERR_LAST.CHILD [16] RO. -/
def clErrLastChild : Fld := ⟨0x08000018, 0x8, 16, 0, 1⟩
/-- CL_ERR_LAST.INDEX [15:0] RO. -/
def clErrLastIndex : Fld := ⟨0x08000018, 0x8, 0, 0, 16⟩
/-- CL_CNT0.RETX [63:32] RC. -/
def clCnt0Retx : Fld := ⟨0x08000100, 0x8, 32, 0, 32⟩
/-- CL_CNT0.DUP [31:0] RC. -/
def clCnt0Dup : Fld := ⟨0x08000100, 0x8, 0, 0, 32⟩
/-- CL_CNT1.STRAY [63:32] RC. -/
def clCnt1Stray : Fld := ⟨0x08000108, 0x8, 32, 0, 32⟩
/-- CL_CNT1.HOLD_BUSY [31:0] RC. -/
def clCnt1HoldBusy : Fld := ⟨0x08000108, 0x8, 0, 0, 32⟩
/-- CL_CNT2.ABORTS [63:32] RC. -/
def clCnt2Aborts : Fld := ⟨0x08000110, 0x8, 32, 0, 32⟩
/-- CL_CNT2.STAGE_DROPPED [31:0] RC. -/
def clCnt2StageDropped : Fld := ⟨0x08000110, 0x8, 0, 0, 32⟩
/-- CL_GROUP.CAUSE [225:218] RO. -/
def clGroupCause : Fld := ⟨0x08010018, 0x20, 26, 0, 8⟩
/-- CL_GROUP.STATE [217:216] RO. -/
def clGroupState : Fld := ⟨0x08010018, 0x20, 24, 0, 2⟩
/-- CL_GROUP.OP_SEQ [215:192] RO. -/
def clGroupOpSeq : Fld := ⟨0x08010018, 0x20, 0, 0, 24⟩
/-- CL_GROUP.CHILD_COUNT [150:144] RWT. -/
def clGroupChildCount : Fld := ⟨0x08010010, 0x20, 16, 0, 7⟩
/-- CL_GROUP.CHILD_BASE [143:128] RWT. -/
def clGroupChildBase : Fld := ⟨0x08010010, 0x20, 0, 0, 16⟩
/-- CL_GROUP.MEMBERS [100:82] RWT. -/
def clGroupMembers : Fld := ⟨0x08010008, 0x20, 18, 0, 19⟩
/-- CL_GROUP.RANK [81:64] RWT. -/
def clGroupRank : Fld := ⟨0x08010008, 0x20, 0, 0, 18⟩
/-- CL_GROUP.VALID [63] RWT. -/
def clGroupValid : Fld := ⟨0x08010000, 0x20, 63, 0, 1⟩
/-- CL_GROUP.LOCAL [62] RWT. -/
def clGroupLocal : Fld := ⟨0x08010000, 0x20, 62, 0, 1⟩
/-- CL_GROUP.ROOT [61] RWT. -/
def clGroupRoot : Fld := ⟨0x08010000, 0x20, 61, 0, 1⟩
/-- CL_GROUP.HP [60] RWT. -/
def clGroupHp : Fld := ⟨0x08010000, 0x20, 60, 0, 1⟩
/-- CL_GROUP.FUNC [59:52] RWT. -/
def clGroupFunc : Fld := ⟨0x08010000, 0x20, 52, 0, 8⟩
/-- CL_GROUP.WINDOW [51:46] RWT. -/
def clGroupWindow : Fld := ⟨0x08010000, 0x20, 46, 0, 6⟩
/-- CL_GROUP.TC_BULK [45:43] RWT. -/
def clGroupTcBulk : Fld := ⟨0x08010000, 0x20, 43, 0, 3⟩
/-- CL_GROUP.TC_SMALL [42:40] RWT. -/
def clGroupTcSmall : Fld := ⟨0x08010000, 0x20, 40, 0, 3⟩
/-- CL_GROUP.PARENT [17:0] RWT. -/
def clGroupParent : Fld := ⟨0x08010000, 0x20, 0, 0, 18⟩
/-- CL_CHILD.RANK_HI [53:36] RWT. -/
def clChildRankHi : Fld := ⟨0x08100000, 0x8, 36, 0, 18⟩
/-- CL_CHILD.RANK_LO [35:18] RWT. -/
def clChildRankLo : Fld := ⟨0x08100000, 0x8, 18, 0, 18⟩
/-- CL_CHILD.DEV [17:0] RWT. -/
def clChildDev : Fld := ⟨0x08100000, 0x8, 0, 0, 18⟩
/-- EX_CFG.RTO_US [63:54] RWT. -/
def exCfgRtoUs : Fld := ⟨0x08800000, 0x8, 54, 0, 10⟩
/-- EX_CFG.RETRIES [53:49] RWT. -/
def exCfgRetries : Fld := ⟨0x08800000, 0x8, 49, 0, 5⟩
/-- EX_CFG.BACKOFF_US [48:33] RWT. -/
def exCfgBackoffUs : Fld := ⟨0x08800000, 0x8, 33, 0, 16⟩
/-- EX_CFG.BATCH_US [32:17] RWT. -/
def exCfgBatchUs : Fld := ⟨0x08800000, 0x8, 17, 0, 16⟩
/-- EX_CFG.RX_SHARE [16:12] RWT. -/
def exCfgRxShare : Fld := ⟨0x08800000, 0x8, 12, 0, 5⟩
/-- EX_STAGE.RX_FREE [63:32] RO. -/
def exStageRxFree : Fld := ⟨0x08800008, 0x8, 32, 0, 32⟩
/-- EX_STAGE.TX_FREE [31:0] RO. -/
def exStageTxFree : Fld := ⟨0x08800008, 0x8, 0, 0, 32⟩
/-- EX_ERR_LAST.CAUSE [19:17] RO. -/
def exErrLastCause : Fld := ⟨0x08800010, 0x8, 17, 0, 3⟩
/-- EX_ERR_LAST.PART [16] RO. -/
def exErrLastPart : Fld := ⟨0x08800010, 0x8, 16, 0, 1⟩
/-- EX_ERR_LAST.INDEX [15:0] RO. -/
def exErrLastIndex : Fld := ⟨0x08800010, 0x8, 0, 0, 16⟩
/-- EX_CNT0.BATCHES [63:32] RC. -/
def exCnt0Batches : Fld := ⟨0x08800100, 0x8, 32, 0, 32⟩
/-- EX_CNT0.RETX [31:0] RC. -/
def exCnt0Retx : Fld := ⟨0x08800100, 0x8, 0, 0, 32⟩
/-- EX_CNT1.RX_NOROOM [63:32] RC. -/
def exCnt1RxNoroom : Fld := ⟨0x08800108, 0x8, 32, 0, 32⟩
/-- EX_CNT1.DUP [31:0] RC. -/
def exCnt1Dup : Fld := ⟨0x08800108, 0x8, 0, 0, 32⟩
/-- EX_CNT2.KEY_SHORT [63:32] RC. -/
def exCnt2KeyShort : Fld := ⟨0x08800110, 0x8, 32, 0, 32⟩
/-- EX_CNT2.NO_BUCKET [31:0] RC. -/
def exCnt2NoBucket : Fld := ⟨0x08800110, 0x8, 0, 0, 32⟩
/-- EX_CNT3.STAGE_DROPPED [63:32] RC. -/
def exCnt3StageDropped : Fld := ⟨0x08800118, 0x8, 32, 0, 32⟩
/-- EX_CNT3.CLOSED_RX [31:0] RC. -/
def exCnt3ClosedRx : Fld := ⟨0x08800118, 0x8, 0, 0, 32⟩
/-- EX_JOB.CAUSE [203:202] RO. -/
def exJobCause : Fld := ⟨0x08810018, 0x20, 10, 0, 2⟩
/-- EX_JOB.STATE [201:200] RO. -/
def exJobState : Fld := ⟨0x08810018, 0x20, 8, 0, 2⟩
/-- EX_JOB.FAILED_DEV [199:182] RO. -/
def exJobFailedDevLo : Fld := ⟨0x08810010, 0x20, 54, 0, 10⟩
/-- EX_JOB.FAILED_DEV [199:182] RO. -/
def exJobFailedDevHi : Fld := ⟨0x08810018, 0x20, 0, 0, 8⟩
/-- EX_JOB.TC [162:160] RWT. -/
def exJobTc : Fld := ⟨0x08810010, 0x20, 32, 0, 3⟩
/-- EX_JOB.SEED [159:128] RWT. -/
def exJobSeed : Fld := ⟨0x08810010, 0x20, 0, 0, 32⟩
/-- EX_JOB.K1_LEN [120:115] RWT. -/
def exJobK1Len : Fld := ⟨0x08810008, 0x20, 51, 0, 6⟩
/-- EX_JOB.K1_OFF [114:103] RWT. -/
def exJobK1Off : Fld := ⟨0x08810008, 0x20, 39, 0, 12⟩
/-- EX_JOB.K0_LEN [102:97] RWT. -/
def exJobK0Len : Fld := ⟨0x08810008, 0x20, 33, 0, 6⟩
/-- EX_JOB.K0_OFF [96:85] RWT. -/
def exJobK0Off : Fld := ⟨0x08810008, 0x20, 21, 0, 12⟩
/-- EX_JOB.BUCKET_BITS [84:80] RWT. -/
def exJobBucketBits : Fld := ⟨0x08810008, 0x20, 16, 0, 5⟩
/-- EX_JOB.BUCKET_BASE [79:64] RWT. -/
def exJobBucketBase : Fld := ⟨0x08810008, 0x20, 0, 0, 16⟩
/-- EX_JOB.OPEN [63] RWT. -/
def exJobOpen : Fld := ⟨0x08810000, 0x20, 63, 0, 1⟩
/-- EX_JOB.HP [62] RWT. -/
def exJobHp : Fld := ⟨0x08810000, 0x20, 62, 0, 1⟩
/-- EX_JOB.FUNC [61:54] RWT. -/
def exJobFunc : Fld := ⟨0x08810000, 0x20, 54, 0, 8⟩
/-- EX_JOB.FORMAT [53:52] RWT. -/
def exJobFormat : Fld := ⟨0x08810000, 0x20, 52, 0, 2⟩
/-- EX_JOB.RLEN [51:40] RWT. -/
def exJobRlen : Fld := ⟨0x08810000, 0x20, 40, 0, 12⟩
/-- EX_JOB.RX_EC [39:20] RWT. -/
def exJobRxEc : Fld := ⟨0x08810000, 0x20, 20, 0, 20⟩
/-- EX_RING.PI [255:192] RO. -/
def exRingPi : Fld := ⟨0x08820018, 0x20, 0, 0, 64⟩
/-- EX_RING.CI [191:128] RW. -/
def exRingCi : Fld := ⟨0x08820010, 0x20, 0, 0, 64⟩
/-- EX_RING.PI_DVA [111:67] RWT. -/
def exRingPiDva : Fld := ⟨0x08820008, 0x20, 3, 0, 45⟩
/-- EX_RING.LOG2 [52:48] RWT. -/
def exRingLog2 : Fld := ⟨0x08820000, 0x20, 48, 0, 5⟩
/-- EX_RING.BASE [47:12] RWT. -/
def exRingBase : Fld := ⟨0x08820000, 0x20, 12, 0, 36⟩
/-- EX_PART.VALID [63] RWT. -/
def exPartValid : Fld := ⟨0x08900000, 0x8, 63, 0, 1⟩
/-- EX_PART.EC [37:18] RWT. -/
def exPartEc : Fld := ⟨0x08900000, 0x8, 18, 0, 20⟩
/-- EX_PART.DEV [17:0] RWT. -/
def exPartDev : Fld := ⟨0x08900000, 0x8, 0, 0, 18⟩
/-- AT_CFG.NOTICE_EN [33] RWT. -/
def atCfgNoticeEn : Fld := ⟨0x09000000, 0x8, 33, 0, 1⟩
/-- AT_CFG.PCIE_ATOMIC [32] RWT. -/
def atCfgPcieAtomic : Fld := ⟨0x09000000, 0x8, 32, 0, 1⟩
/-- AT_CFG.ALIAS_MARGIN_US [31:16] RWT. -/
def atCfgAliasMarginUs : Fld := ⟨0x09000000, 0x8, 16, 0, 16⟩
/-- AT_CFG.WAIT_MAX_US [15:8] RWT. -/
def atCfgWaitMaxUs : Fld := ⟨0x09000000, 0x8, 8, 0, 8⟩
/-- AT_CFG.WAIT_DEF_US [7:0] RWT. -/
def atCfgWaitDefUs : Fld := ⟨0x09000000, 0x8, 0, 0, 8⟩
/-- AT_TABLE.FREE [56:32] RO. -/
def atTableFree : Fld := ⟨0x09000008, 0x8, 32, 0, 25⟩
/-- AT_TABLE.HELD [24:0] RO. -/
def atTableHeld : Fld := ⟨0x09000008, 0x8, 0, 0, 25⟩
/-- AT_CNT0.GRANTS [63:32] RC. -/
def atCnt0Grants : Fld := ⟨0x09000100, 0x8, 32, 0, 32⟩
/-- AT_CNT0.ATOMICS [31:0] RC. -/
def atCnt0Atomics : Fld := ⟨0x09000100, 0x8, 0, 0, 32⟩
/-- AT_CNT1.TIMEOUTS [63:32] RC. -/
def atCnt1Timeouts : Fld := ⟨0x09000108, 0x8, 32, 0, 32⟩
/-- AT_CNT1.ABANDONED [31:0] RC. -/
def atCnt1Abandoned : Fld := ⟨0x09000108, 0x8, 0, 0, 32⟩
/-- AT_CNT2.NOTICES [63:32] RC. -/
def atCnt2Notices : Fld := ⟨0x09000110, 0x8, 32, 0, 32⟩
/-- AT_CNT2.TABLE_FULL [31:0] RC. -/
def atCnt2TableFull : Fld := ⟨0x09000110, 0x8, 0, 0, 32⟩
/-- AT_ALIAS.KEY [255:224] RW. -/
def atAliasKey : Fld := ⟨0x09010018, 0x20, 32, 0, 32⟩
/-- AT_ALIAS.OFF [209:164] RW. -/
def atAliasOffLo : Fld := ⟨0x09010010, 0x20, 36, 0, 28⟩
/-- AT_ALIAS.OFF [209:164] RW. -/
def atAliasOffHi : Fld := ⟨0x09010018, 0x20, 0, 0, 18⟩
/-- AT_ALIAS.DEV [163:146] RW. -/
def atAliasDev : Fld := ⟨0x09010010, 0x20, 18, 0, 18⟩
/-- AT_ALIAS.EC [127:108] RW. -/
def atAliasEc : Fld := ⟨0x09010008, 0x20, 44, 0, 20⟩
/-- AT_ALIAS.VALID [63] RW. -/
def atAliasValid : Fld := ⟨0x09010000, 0x20, 63, 0, 1⟩
/-- AT_ALIAS.HP [62] RW. -/
def atAliasHp : Fld := ⟨0x09010000, 0x20, 62, 0, 1⟩
/-- AT_ALIAS.FUNC [61:54] RW. -/
def atAliasFunc : Fld := ⟨0x09010000, 0x20, 54, 0, 8⟩
/-- AT_ALIAS.LANE [53:49] RW. -/
def atAliasLane : Fld := ⟨0x09010000, 0x20, 49, 0, 5⟩
/-- AT_ALIAS.PRIO [48:45] RW. -/
def atAliasPrio : Fld := ⟨0x09010000, 0x20, 45, 0, 4⟩
/-- AT_ALIAS.WAIT_US [44:37] RW. -/
def atAliasWaitUs : Fld := ⟨0x09010000, 0x20, 37, 0, 8⟩
/-- AT_ALIAS.PENDING [36] RO. -/
def atAliasPending : Fld := ⟨0x09010000, 0x20, 36, 0, 1⟩
/-- TOP_IDENT.VENDOR [63:32] RO. -/
def topIdentVendor : Fld := ⟨0x00000000, 0x8, 32, 0, 32⟩
/-- TOP_IDENT.STEP [23:16] RO. -/
def topIdentStep : Fld := ⟨0x00000000, 0x8, 16, 0, 8⟩
/-- TOP_IDENT.DEVICE [15:0] RO. -/
def topIdentDevice : Fld := ⟨0x00000000, 0x8, 0, 0, 16⟩
/-- HI_PORT_STAT.WEDGED_FNS [40:32] RO. -/
def hiPortStatWedgedFns : Fld := ⟨0x0A000000, 0x8, 32, 0, 9⟩
/-- HI_PORT_STAT.PM [25:24] RO. -/
def hiPortStatPm : Fld := ⟨0x0A000000, 0x8, 24, 0, 2⟩
/-- HI_PORT_STAT.L0P_WIDTH [20:16] RO. -/
def hiPortStatL0pWidth : Fld := ⟨0x0A000000, 0x8, 16, 0, 5⟩
/-- HI_PORT_STAT.WIDTH [12:8] RO. -/
def hiPortStatWidth : Fld := ⟨0x0A000000, 0x8, 8, 0, 5⟩
/-- HI_PORT_STAT.SPEED [7:6] RO. -/
def hiPortStatSpeed : Fld := ⟨0x0A000000, 0x8, 6, 0, 2⟩
/-- HI_PORT_STAT.HOT_RESET [3] RO. -/
def hiPortStatHotReset : Fld := ⟨0x0A000000, 0x8, 3, 0, 1⟩
/-- HI_PORT_STAT.PERST [2] RO. -/
def hiPortStatPerst : Fld := ⟨0x0A000000, 0x8, 2, 0, 1⟩
/-- HI_PORT_STAT.LINK_UP [1] RO. -/
def hiPortStatLinkUp : Fld := ⟨0x0A000000, 0x8, 1, 0, 1⟩
/-- HI_PORT_STAT.SERVING [0] RO. -/
def hiPortStatServing : Fld := ⟨0x0A000000, 0x8, 0, 0, 1⟩
/-- HI_PM.L0P_EN [32] RW. -/
def hiPmL0pEn : Fld := ⟨0x0A000010, 0x8, 32, 0, 1⟩
/-- HI_PM.L0P_IDLE_US [31:16] RW. -/
def hiPmL0pIdleUs : Fld := ⟨0x0A000010, 0x8, 16, 0, 16⟩
/-- HI_PM.L1_IDLE_US [15:0] RW. -/
def hiPmL1IdleUs : Fld := ⟨0x0A000010, 0x8, 0, 0, 16⟩
/-- HI_WEDGED.FN [63:0] RO. -/
def hiWedgedFn : Fld := ⟨0x0A000040, 0x8, 0, 0, 64⟩
/-- QM_CQ_STALL_LIMIT.MS [15:0] RW. -/
def qmCqStallLimitMs : Fld := ⟨0x0A000100, 0x8, 0, 0, 16⟩
/-- HI_VF_MAP.VALID [63] RW. -/
def hiVfMapValid : Fld := ⟨0x0A010000, 0x8, 63, 0, 1⟩
/-- HI_VF_MAP.EC_MAX [48:32] RW. -/
def hiVfMapEcMax : Fld := ⟨0x0A010000, 0x8, 32, 0, 17⟩
/-- HI_VF_MAP.EQ_MAX [30:24] RW. -/
def hiVfMapEqMax : Fld := ⟨0x0A010000, 0x8, 24, 0, 7⟩
/-- HI_VF_MAP.CQ_MAX [22:16] RW. -/
def hiVfMapCqMax : Fld := ⟨0x0A010000, 0x8, 16, 0, 7⟩
/-- HI_VF_MAP.WQ_BLOCK [7:0] RW. -/
def hiVfMapWqBlock : Fld := ⟨0x0A010000, 0x8, 0, 0, 8⟩
/-- QM_CMD.CMD [3:0] WO. -/
def qmCmdCmd : Fld := ⟨0x0A800000, 0x8000, 0, 0, 4⟩
/-- QM_ARG0.ARG [63:0] RW. -/
def qmArg0Arg : Fld := ⟨0x0A800008, 0x8000, 0, 0, 64⟩
/-- QM_ARG1.ARG [63:0] RW. -/
def qmArg1Arg : Fld := ⟨0x0A800010, 0x8000, 0, 0, 64⟩
/-- QM_ARG2.ARG [63:0] RW. -/
def qmArg2Arg : Fld := ⟨0x0A800018, 0x8000, 0, 0, 64⟩
/-- QM_CMD_STAT.VALUE [63:32] RO. -/
def qmCmdStatValue : Fld := ⟨0x0A800028, 0x8000, 32, 0, 32⟩
/-- QM_CMD_STAT.ERR [11:8] RO. -/
def qmCmdStatErr : Fld := ⟨0x0A800028, 0x8000, 8, 0, 4⟩
/-- QM_CMD_STAT.ST [1:0] RO. -/
def qmCmdStatSt : Fld := ⟨0x0A800028, 0x8000, 0, 0, 2⟩
/-- QM_FN_CFG.EVT_EN [12] RW. -/
def qmFnCfgEvtEn : Fld := ⟨0x0A800030, 0x8000, 12, 0, 1⟩
/-- QM_FN_CFG.EVT_EQ [11:0] RW. -/
def qmFnCfgEvtEq : Fld := ⟨0x0A800030, 0x8000, 0, 0, 12⟩
/-- QM_FN_STAT.DB_DISCARD [63:32] RC. -/
def qmFnStatDbDiscard : Fld := ⟨0x0A800038, 0x8000, 32, 0, 32⟩
/-- QM_FN_STAT.WQ_ERR [31:16] RO. -/
def qmFnStatWqErr : Fld := ⟨0x0A800038, 0x8000, 16, 0, 16⟩
/-- QM_FN_STAT.CQ_ERR [15:0] RO. -/
def qmFnStatCqErr : Fld := ⟨0x0A800038, 0x8000, 0, 0, 16⟩
/-- QM_CQ_DB.QUEUE [45:32] WO. -/
def qmCqDbQueue : Fld := ⟨0x0A801000, 0x8000, 32, 0, 14⟩
/-- QM_CQ_DB.ARM [17] WO. -/
def qmCqDbArm : Fld := ⟨0x0A801000, 0x8000, 17, 0, 1⟩
/-- QM_CQ_DB.CI [16:0] WO. -/
def qmCqDbCi : Fld := ⟨0x0A801000, 0x8000, 0, 0, 17⟩
/-- QM_EQ_DB.QUEUE [45:32] WO. -/
def qmEqDbQueue : Fld := ⟨0x0A801008, 0x8000, 32, 0, 14⟩
/-- QM_EQ_DB.ARM [17] WO. -/
def qmEqDbArm : Fld := ⟨0x0A801008, 0x8000, 17, 0, 1⟩
/-- QM_EQ_DB.CI [16:0] WO. -/
def qmEqDbCi : Fld := ⟨0x0A801008, 0x8000, 0, 0, 17⟩
/-- SC_CFG.CAL [48] RWT. -/
def scCfgCal : Fld := ⟨0x0B000000, 0x8, 48, 0, 1⟩
/-- SC_CFG.SAMPLE_US [47:32] RWT. -/
def scCfgSampleUs : Fld := ⟨0x0B000000, 0x8, 32, 0, 16⟩
/-- SC_CFG.SMALL_MAX [19:0] RWT. -/
def scCfgSmallMax : Fld := ⟨0x0B000000, 0x8, 0, 0, 20⟩
/-- SC_VC_W.Wk [8k+7:8k] RWT. -/
def scVcWW : Fld := ⟨0x0B000008, 0x8, 0, 8, 8⟩
/-- SC_TC.CAL_FREE [17] RWT. -/
def scTcCalFree : Fld := ⟨0x0B000100, 0x8, 17, 0, 1⟩
/-- SC_TC.STRICT [16] RWT. -/
def scTcStrict : Fld := ⟨0x0B000100, 0x8, 16, 0, 1⟩
/-- SC_TC.SLICE_W [15:8] RWT. -/
def scTcSliceW : Fld := ⟨0x0B000100, 0x8, 8, 0, 8⟩
/-- SC_TC.WEIGHT [7:0] RWT. -/
def scTcWeight : Fld := ⟨0x0B000100, 0x8, 0, 0, 8⟩
/-- SC_CAL_CFG.SLOT_NS [31:16] RWT. -/
def scCalCfgSlotNs : Fld := ⟨0x0B000200, 0x8, 16, 0, 16⟩
/-- SC_CAL_CFG.LEN [10:0] RWT. -/
def scCalCfgLen : Fld := ⟨0x0B000200, 0x8, 0, 0, 11⟩
/-- SC_SHAPE.EN [63] RWT. -/
def scShapeEn : Fld := ⟨0x0B001000, 0x8, 63, 0, 1⟩
/-- SC_SHAPE.ACCUM [62] RWT. -/
def scShapeAccum : Fld := ⟨0x0B001000, 0x8, 62, 0, 1⟩
/-- SC_SHAPE.RATE [47:32] RWT. -/
def scShapeRate : Fld := ⟨0x0B001000, 0x8, 32, 0, 16⟩
/-- SC_SHAPE.BURST [15:0] RWT. -/
def scShapeBurst : Fld := ⟨0x0B001000, 0x8, 0, 0, 16⟩
/-- SC_CAL.TC [19:16] RWT. -/
def scCalTc : Fld := ⟨0x0B002000, 0x8, 16, 0, 4⟩
/-- SC_CAL.BYTES [15:0] RWT. -/
def scCalBytes : Fld := ⟨0x0B002000, 0x8, 0, 0, 16⟩
/-- SC_FN.POL_EN [63] RWT. -/
def scFnPolEn : Fld := ⟨0x0B010000, 0x8, 63, 0, 1⟩
/-- SC_FN.POL [57:48] RWT. -/
def scFnPol : Fld := ⟨0x0B010000, 0x8, 48, 0, 10⟩
/-- SC_FN.WEIGHT [7:0] RWT. -/
def scFnWeight : Fld := ⟨0x0B010000, 0x8, 0, 0, 8⟩
/-- SC_POL.RED [255:224] RC. -/
def scPolRed : Fld := ⟨0x0B020018, 0x20, 32, 0, 32⟩
/-- SC_POL.YELLOW [223:192] RC. -/
def scPolYellow : Fld := ⟨0x0B020018, 0x20, 0, 0, 32⟩
/-- SC_POL.DEMOTE_TC [134:132] RWT. -/
def scPolDemoteTc : Fld := ⟨0x0B020010, 0x20, 4, 0, 3⟩
/-- SC_POL.RED_ACT [131:130] RWT. -/
def scPolRedAct : Fld := ⟨0x0B020010, 0x20, 2, 0, 2⟩
/-- SC_POL.YELLOW_ACT [129:128] RWT. -/
def scPolYellowAct : Fld := ⟨0x0B020010, 0x20, 0, 0, 2⟩
/-- SC_POL.PBS [127:96] RWT. -/
def scPolPbs : Fld := ⟨0x0B020008, 0x20, 32, 0, 32⟩
/-- SC_POL.CBS [95:64] RWT. -/
def scPolCbs : Fld := ⟨0x0B020008, 0x20, 0, 0, 32⟩
/-- SC_POL.PIR [63:32] RWT. -/
def scPolPir : Fld := ⟨0x0B020000, 0x20, 32, 0, 32⟩
/-- SC_POL.CIR [31:0] RWT. -/
def scPolCir : Fld := ⟨0x0B020000, 0x20, 0, 0, 32⟩
/-- SC_QSMP_SEL.EN [63] RW. -/
def scQsmpSelEn : Fld := ⟨0x0B030000, 0x10, 63, 0, 1⟩
/-- SC_QSMP_SEL.KIND [62:60] RW. -/
def scQsmpSelKind : Fld := ⟨0x0B030000, 0x10, 60, 0, 3⟩
/-- SC_QSMP_SEL.DELAY_THR_US [47:32] RW. -/
def scQsmpSelDelayThrUs : Fld := ⟨0x0B030000, 0x10, 32, 0, 16⟩
/-- SC_QSMP_SEL.SUB [10:8] RW. -/
def scQsmpSelSub : Fld := ⟨0x0B030000, 0x10, 8, 0, 3⟩
/-- SC_QSMP_SEL.UNIT [7:0] RW. -/
def scQsmpSelUnit : Fld := ⟨0x0B030000, 0x10, 0, 0, 8⟩
/-- SC_QSMP_VAL.DELAY_MAX [63:48] RC. -/
def scQsmpValDelayMax : Fld := ⟨0x0B030008, 0x10, 48, 0, 16⟩
/-- SC_QSMP_VAL.DELAY_AVG [47:32] RO. -/
def scQsmpValDelayAvg : Fld := ⟨0x0B030008, 0x10, 32, 0, 16⟩
/-- SC_QSMP_VAL.DEPTH_MAX [31:16] RC. -/
def scQsmpValDepthMax : Fld := ⟨0x0B030008, 0x10, 16, 0, 16⟩
/-- SC_QSMP_VAL.DEPTH_LAST [15:0] RO. -/
def scQsmpValDepthLast : Fld := ⟨0x0B030008, 0x10, 0, 0, 16⟩
/-- KN_BUDGET.HARD_W [25:16] RW. -/
def knBudgetHardW : Fld := ⟨0x00400000, 0x8, 16, 0, 10⟩
/-- KN_BUDGET.SOFT_W [9:0] RW. -/
def knBudgetSoftW : Fld := ⟨0x00400000, 0x8, 0, 0, 10⟩
/-- KN_THERM.TJ_HARD [15:8] RW. -/
def knThermTjHard : Fld := ⟨0x00400008, 0x8, 8, 0, 8⟩
/-- KN_THERM.TJ_SOFT [7:0] RW. -/
def knThermTjSoft : Fld := ⟨0x00400008, 0x8, 0, 0, 8⟩
/-- KN_VCORE.SPEED_TGT [55:48] RW. -/
def knVcoreSpeedTgt : Fld := ⟨0x00400010, 0x8, 48, 0, 8⟩
/-- KN_VCORE.BROWN_MV [45:36] RW. -/
def knVcoreBrownMv : Fld := ⟨0x00400010, 0x8, 36, 0, 10⟩
/-- KN_VCORE.MAX_MV [35:26] RW. -/
def knVcoreMaxMv : Fld := ⟨0x00400010, 0x8, 26, 0, 10⟩
/-- KN_VCORE.MIN_MV [25:16] RW. -/
def knVcoreMinMv : Fld := ⟨0x00400010, 0x8, 16, 0, 10⟩
/-- KN_VCORE.SET_MV [15:6] RW. -/
def knVcoreSetMv : Fld := ⟨0x00400010, 0x8, 6, 0, 10⟩
/-- KN_VCORE.POLICY [1:0] RW. -/
def knVcorePolicy : Fld := ⟨0x00400010, 0x8, 0, 0, 2⟩
/-- KN_STAT.P_W [63:48] RO. -/
def knStatPW : Fld := ⟨0x00400018, 0x8, 48, 0, 16⟩
/-- KN_STAT.DEFER [47:45] RO. -/
def knStatDefer : Fld := ⟨0x00400018, 0x8, 45, 0, 3⟩
/-- KN_STAT.THERM_SOFT [44] RO. -/
def knStatThermSoft : Fld := ⟨0x00400018, 0x8, 44, 0, 1⟩
/-- KN_STAT.AVS_FAULT [43] RO. -/
def knStatAvsFault : Fld := ⟨0x00400018, 0x8, 43, 0, 1⟩
/-- KN_STAT.BROWN_THERM [42] RO. -/
def knStatBrownTherm : Fld := ⟨0x00400018, 0x8, 42, 0, 1⟩
/-- KN_STAT.BROWN_POWER [41] RO. -/
def knStatBrownPower : Fld := ⟨0x00400018, 0x8, 41, 0, 1⟩
/-- KN_STAT.BROWN_SUPPLY [40] RO. -/
def knStatBrownSupply : Fld := ⟨0x00400018, 0x8, 40, 0, 1⟩
/-- KN_STAT.SPEED [34:24] RO. -/
def knStatSpeed : Fld := ⟨0x00400018, 0x8, 24, 0, 11⟩
/-- KN_STAT.TJ_MAX [23:16] RO. -/
def knStatTjMax : Fld := ⟨0x00400018, 0x8, 16, 0, 8⟩
/-- KN_STAT.VCORE_MV [9:0] RO. -/
def knStatVcoreMv : Fld := ⟨0x00400018, 0x8, 0, 0, 10⟩
/-- KN_CREDIT.POOL_NJ [63:32] RO. -/
def knCreditPoolNj : Fld := ⟨0x00400020, 0x8, 32, 0, 32⟩
/-- KN_CREDIT.ALLOW_NJ [31:0] RO. -/
def knCreditAllowNj : Fld := ⟨0x00400020, 0x8, 0, 0, 32⟩
/-- KN_ALLOW_MAX.NJ [31:0] RW. -/
def knAllowMaxNj : Fld := ⟨0x00400028, 0x8, 0, 0, 32⟩
/-- KN_ECOST.B3_PJ [47:32] RW. -/
def knEcostB3Pj : Fld := ⟨0x00400030, 0x8, 32, 0, 16⟩
/-- KN_ECOST.B2_PJ [31:16] RW. -/
def knEcostB2Pj : Fld := ⟨0x00400030, 0x8, 16, 0, 16⟩
/-- KN_ECOST.B1_PJ [15:0] RW. -/
def knEcostB1Pj : Fld := ⟨0x00400030, 0x8, 0, 0, 16⟩
/-- KN_SPEED.SPEED [10:0] RO. -/
def knSpeedSpeed : Fld := ⟨0x00400040, 0x8, 0, 0, 11⟩
/-- KN_TEMP.TJ [7:0] RO. -/
def knTempTj : Fld := ⟨0x00400100, 0x8, 0, 0, 8⟩
/-- KN_CNT.DEFER_PERIODS [63:32] RC. -/
def knCntDeferPeriods : Fld := ⟨0x00400300, 0x8, 32, 0, 32⟩
/-- KN_CNT.BROWN_ENTRIES [31:0] RC. -/
def knCntBrownEntries : Fld := ⟨0x00400300, 0x8, 0, 0, 32⟩
/-- FC_PEND.SRC [22:0] W1C. -/
def fcPendSrc : Fld := ⟨0x00200000, 0x8, 0, 0, 23⟩
/-- FC_MASK.MASK [22:0] RW. -/
def fcMaskMask : Fld := ⟨0x00200008, 0x8, 0, 0, 23⟩
/-- FC_CMD.CONFIRM [63:48] WO. -/
def fcCmdConfirm : Fld := ⟨0x00200010, 0x8, 48, 0, 16⟩
/-- FC_CMD.ALL [40] WO. -/
def fcCmdAll : Fld := ⟨0x00200010, 0x8, 40, 0, 1⟩
/-- FC_CMD.INST [39:24] WO. -/
def fcCmdInst : Fld := ⟨0x00200010, 0x8, 24, 0, 16⟩
/-- FC_CMD.SRC [21:16] WO. -/
def fcCmdSrc : Fld := ⟨0x00200010, 0x8, 16, 0, 6⟩
/-- FC_CMD.CMD [1:0] WO. -/
def fcCmdCmd : Fld := ⟨0x00200010, 0x8, 0, 0, 2⟩
/-- FC_FENCE.FULL [40] RO. -/
def fcFenceFull : Fld := ⟨0x00200018, 0x8, 40, 0, 1⟩
/-- FC_FENCE.FULL_INST [39:24] RO. -/
def fcFenceFullInst : Fld := ⟨0x00200018, 0x8, 24, 0, 16⟩
/-- FC_FENCE.FULL_SRC [21:16] RO. -/
def fcFenceFullSrc : Fld := ⟨0x00200018, 0x8, 16, 0, 6⟩
/-- FC_FENCE.PARTIAL [15:0] RO. -/
def fcFencePartial : Fld := ⟨0x00200018, 0x8, 0, 0, 16⟩
/-- FC_RESET_CAUSE.COUNT [63:48] RO. -/
def fcResetCauseCount : Fld := ⟨0x00200020, 0x8, 48, 0, 16⟩
/-- FC_RESET_CAUSE.INST [47:32] RO. -/
def fcResetCauseInst : Fld := ⟨0x00200020, 0x8, 32, 0, 16⟩
/-- FC_RESET_CAUSE.SRC [29:24] RO. -/
def fcResetCauseSrc : Fld := ⟨0x00200020, 0x8, 24, 0, 6⟩
/-- FC_RESET_CAUSE.CAUSE [2:0] RO. -/
def fcResetCauseCause : Fld := ⟨0x00200020, 0x8, 0, 0, 3⟩
/-- FC_SPARES.STANDBY [24] RO. -/
def fcSparesStandby : Fld := ⟨0x00200028, 0x8, 24, 0, 1⟩
/-- FC_SPARES.REMIRROR [23] RO. -/
def fcSparesRemirror : Fld := ⟨0x00200028, 0x8, 23, 0, 1⟩
/-- FC_SPARES.STACKS_LIVE [22:20] RO. -/
def fcSparesStacksLive : Fld := ⟨0x00200028, 0x8, 20, 0, 3⟩
/-- FC_SPARES.BANKS_FREE [16:12] RO. -/
def fcSparesBanksFree : Fld := ⟨0x00200028, 0x8, 12, 0, 5⟩
/-- FC_SPARES.TILES_FREE1 [11:10] RO. -/
def fcSparesTilesFree1 : Fld := ⟨0x00200028, 0x8, 10, 0, 2⟩
/-- FC_SPARES.TILES_FREE0 [9:8] RO. -/
def fcSparesTilesFree0 : Fld := ⟨0x00200028, 0x8, 8, 0, 2⟩
/-- FC_SPARES.LANES_FREE [4:0] RO. -/
def fcSparesLanesFree : Fld := ⟨0x00200028, 0x8, 0, 0, 5⟩
/-- FC_WDOG.LEFT_MS [47:32] RO. -/
def fcWdogLeftMs : Fld := ⟨0x00200030, 0x8, 32, 0, 16⟩
/-- FC_WDOG.PERIOD_MS [15:0] RO. -/
def fcWdogPeriodMs : Fld := ⟨0x00200030, 0x8, 0, 0, 16⟩
/-- FC_SELFTEST.FAIL_SRC [21:16] RO. -/
def fcSelftestFailSrc : Fld := ⟨0x00200038, 0x8, 16, 0, 6⟩
/-- FC_SELFTEST.ST [1:0] RO. -/
def fcSelftestSt : Fld := ⟨0x00200038, 0x8, 0, 0, 2⟩
/-- FC_LOG_IDX.WRAPS [39:8] RO. -/
def fcLogIdxWraps : Fld := ⟨0x00200040, 0x8, 8, 0, 32⟩
/-- FC_LOG_IDX.NEXT [7:0] RO. -/
def fcLogIdxNext : Fld := ⟨0x00200040, 0x8, 0, 0, 8⟩
/-- FC_REACT.CHIP [6] RO. -/
def fcReactChip : Fld := ⟨0x00200100, 0x8, 6, 0, 1⟩
/-- FC_REACT.FENCE [5:4] RO. -/
def fcReactFence : Fld := ⟨0x00200100, 0x8, 4, 0, 2⟩
/-- FC_REACT.BLK [3] RO. -/
def fcReactBlk : Fld := ⟨0x00200100, 0x8, 3, 0, 1⟩
/-- FC_REACT.ERRN [2] RO. -/
def fcReactErrn : Fld := ⟨0x00200100, 0x8, 2, 0, 1⟩
/-- FC_REACT.TRAP [1] RO. -/
def fcReactTrap : Fld := ⟨0x00200100, 0x8, 1, 0, 1⟩
/-- FC_REACT.INT [0] RO. -/
def fcReactInt : Fld := ⟨0x00200100, 0x8, 0, 0, 1⟩
/-- FC_SRC.WIRE_BROKEN [63] RO. -/
def fcSrcWireBroken : Fld := ⟨0x00200200, 0x8, 63, 0, 1⟩
/-- FC_SRC.FENCED [62] RO. -/
def fcSrcFenced : Fld := ⟨0x00200200, 0x8, 62, 0, 1⟩
/-- FC_SRC.LAST_INST [47:32] RO. -/
def fcSrcLastInst : Fld := ⟨0x00200200, 0x8, 32, 0, 16⟩
/-- FC_SRC.COUNT [31:0] RC. -/
def fcSrcCount : Fld := ⟨0x00200200, 0x8, 0, 0, 32⟩
/-- FC_LOG.WIRE [87] RO. -/
def fcLogWire : Fld := ⟨0x00201008, 0x10, 23, 0, 1⟩
/-- FC_LOG.REACT [86:80] RO. -/
def fcLogReact : Fld := ⟨0x00201008, 0x10, 16, 0, 7⟩
/-- FC_LOG.INST [79:64] RO. -/
def fcLogInst : Fld := ⟨0x00201008, 0x10, 0, 0, 16⟩
/-- FC_LOG.SRC [53:48] RO. -/
def fcLogSrc : Fld := ⟨0x00201000, 0x10, 48, 0, 6⟩
/-- FC_LOG.TIME_US [47:0] RO. -/
def fcLogTimeUs : Fld := ⟨0x00201000, 0x10, 0, 0, 48⟩
/-- FW_STAT.DEFERRED [18:16] RO. -/
def fwStatDeferred : Fld := ⟨0x00300000, 0x8, 16, 0, 3⟩
/-- FW_STAT.CAUSE [15:12] RO. -/
def fwStatCause : Fld := ⟨0x00300000, 0x8, 12, 0, 4⟩
/-- FW_STAT.ACT_ST [10:8] RO. -/
def fwStatActSt : Fld := ⟨0x00300000, 0x8, 8, 0, 3⟩
/-- FW_STAT.PREFERRED [1] RO. -/
def fwStatPreferred : Fld := ⟨0x00300000, 0x8, 1, 0, 1⟩
/-- FW_STAT.RUNNING [0] RO. -/
def fwStatRunning : Fld := ⟨0x00300000, 0x8, 0, 0, 1⟩
/-- FW_SLOT.STATE [49:48] RO. -/
def fwSlotState : Fld := ⟨0x00300008, 0x8, 48, 0, 2⟩
/-- FW_SLOT.VCAUSE [43:40] RO. -/
def fwSlotVcause : Fld := ⟨0x00300008, 0x8, 40, 0, 4⟩
/-- FW_SLOT.SVN [38:32] RO. -/
def fwSlotSvn : Fld := ⟨0x00300008, 0x8, 32, 0, 7⟩
/-- FW_SLOT.VERSION [31:0] RO. -/
def fwSlotVersion : Fld := ⟨0x00300008, 0x8, 0, 0, 32⟩
/-- FW_CMD.CONFIRM [63:48] WO. -/
def fwCmdConfirm : Fld := ⟨0x00300018, 0x8, 48, 0, 16⟩
/-- FW_CMD.KEY_SLOT [13:12] WO. -/
def fwCmdKeySlot : Fld := ⟨0x00300018, 0x8, 12, 0, 2⟩
/-- FW_CMD.SLOT [8] WO. -/
def fwCmdSlot : Fld := ⟨0x00300018, 0x8, 8, 0, 1⟩
/-- FW_CMD.CMD [3:0] WO. -/
def fwCmdCmd : Fld := ⟨0x00300018, 0x8, 0, 0, 4⟩
/-- FW_DL_SRC.ADDR [63:12] RW. -/
def fwDlSrcAddr : Fld := ⟨0x00300020, 0x8, 12, 0, 52⟩
/-- FW_DL_CMD.LEN4K [36:32] WO. -/
def fwDlCmdLen4k : Fld := ⟨0x00300028, 0x8, 32, 0, 5⟩
/-- FW_DL_CMD.OFFSET [25:12] WO. -/
def fwDlCmdOffset : Fld := ⟨0x00300028, 0x8, 12, 0, 14⟩
/-- FW_DL_CMD.SLOT [8] WO. -/
def fwDlCmdSlot : Fld := ⟨0x00300028, 0x8, 8, 0, 1⟩
/-- FW_DL_CMD.GO [0] WO. -/
def fwDlCmdGo : Fld := ⟨0x00300028, 0x8, 0, 0, 1⟩
/-- FW_DL_STAT.BLOCKS [47:16] RO. -/
def fwDlStatBlocks : Fld := ⟨0x00300030, 0x8, 16, 0, 32⟩
/-- FW_DL_STAT.CAUSE [7:4] RO. -/
def fwDlStatCause : Fld := ⟨0x00300030, 0x8, 4, 0, 4⟩
/-- FW_DL_STAT.ST [1:0] RO. -/
def fwDlStatSt : Fld := ⟨0x00300030, 0x8, 0, 0, 2⟩
/-- FW_HEALTH.LEFT_MS [31:16] RO. -/
def fwHealthLeftMs : Fld := ⟨0x00300038, 0x8, 16, 0, 16⟩
/-- FW_HEALTH.OK [0] RO. -/
def fwHealthOk : Fld := ⟨0x00300038, 0x8, 0, 0, 1⟩
/-- FW_CTL.HOST_CONFIRM [0] RWL. -/
def fwCtlHostConfirm : Fld := ⟨0x00300040, 0x8, 0, 0, 1⟩
/-- FW_ID_POLICY.ID_DIRECT [2] RWL. -/
def fwIdPolicyIdDirect : Fld := ⟨0x00300048, 0x8, 2, 0, 1⟩
/-- FW_ID_POLICY.ATTEST_I3C [1] RWL. -/
def fwIdPolicyAttestI3c : Fld := ⟨0x00300048, 0x8, 1, 0, 1⟩
/-- FW_ID_POLICY.ATTEST_VDM [0] RWL. -/
def fwIdPolicyAttestVdm : Fld := ⟨0x00300048, 0x8, 0, 0, 1⟩
/-- FW_FUSE.DEBUG_EN [20] RO. -/
def fwFuseDebugEn : Fld := ⟨0x00300050, 0x8, 20, 0, 1⟩
/-- FW_FUSE.ARM_MASK [19:16] RO. -/
def fwFuseArmMask : Fld := ⟨0x00300050, 0x8, 16, 0, 4⟩
/-- FW_FUSE.FW_PROG [15:12] RO. -/
def fwFuseFwProg : Fld := ⟨0x00300050, 0x8, 12, 0, 4⟩
/-- FW_FUSE.FW_REVOKED [11:8] RO. -/
def fwFuseFwRevoked : Fld := ⟨0x00300050, 0x8, 8, 0, 4⟩
/-- FW_FUSE.SVN_MIN [6:0] RO. -/
def fwFuseSvnMin : Fld := ⟨0x00300050, 0x8, 0, 0, 7⟩
/-- PW_STAT.VMON_MIN_CV [39:28] RC. -/
def pwStatVmonMinCv : Fld := ⟨0x00410000, 0x8, 28, 0, 12⟩
/-- PW_STAT.VMON_CV [27:16] RO. -/
def pwStatVmonCv : Fld := ⟨0x00410000, 0x8, 16, 0, 12⟩
/-- PW_STAT.VMON_OPEN [7] RO. -/
def pwStatVmonOpen : Fld := ⟨0x00410000, 0x8, 7, 0, 1⟩
/-- PW_STAT.VSERDES_WARN [6] RO. -/
def pwStatVserdesWarn : Fld := ⟨0x00410000, 0x8, 6, 0, 1⟩
/-- PW_STAT.VSRAM_WARN [5] RO. -/
def pwStatVsramWarn : Fld := ⟨0x00410000, 0x8, 5, 0, 1⟩
/-- PW_STAT.VMON_WARN [4] RO. -/
def pwStatVmonWarn : Fld := ⟨0x00410000, 0x8, 4, 0, 1⟩
/-- PW_STAT.RECOVERING [0] RO. -/
def pwStatRecovering : Fld := ⟨0x00410000, 0x8, 0, 0, 1⟩
/-- PW_EVT.SUPPLY_RESET [4] W1C. -/
def pwEvtSupplyReset : Fld := ⟨0x00410008, 0x8, 4, 0, 1⟩
/-- PW_EVT.VMON_OPEN_SEEN [3] W1C. -/
def pwEvtVmonOpenSeen : Fld := ⟨0x00410008, 0x8, 3, 0, 1⟩
/-- PW_EVT.VSERDES_DIP [2] W1C. -/
def pwEvtVserdesDip : Fld := ⟨0x00410008, 0x8, 2, 0, 1⟩
/-- PW_EVT.VSRAM_DIP [1] W1C. -/
def pwEvtVsramDip : Fld := ⟨0x00410008, 0x8, 1, 0, 1⟩
/-- PW_EVT.VMON_DIP [0] W1C. -/
def pwEvtVmonDip : Fld := ⟨0x00410008, 0x8, 0, 0, 1⟩
/-- PW_RAIL.MA [63:32] RO. -/
def pwRailMa : Fld := ⟨0x00410108, 0x8, 32, 0, 32⟩
/-- PW_RAIL.MV [15:0] RO. -/
def pwRailMv : Fld := ⟨0x00410108, 0x8, 0, 0, 16⟩
/-- CG_CTL.RAMP [15:8] RW. -/
def cgCtlRamp : Fld := ⟨0x00420000, 0x40, 8, 0, 8⟩
/-- CG_CTL.CLEAR [1] W1S. -/
def cgCtlClear : Fld := ⟨0x00420000, 0x40, 1, 0, 1⟩
/-- CG_CTL.EN [0] RW. -/
def cgCtlEn : Fld := ⟨0x00420000, 0x40, 0, 0, 1⟩
/-- CG_PLIM.RSENSE_UOHM [63:48] RW. -/
def cgPlimRsenseUohm : Fld := ⟨0x00420008, 0x40, 48, 0, 16⟩
/-- CG_PLIM.TIMER_US [47:32] RW. -/
def cgPlimTimerUs : Fld := ⟨0x00420008, 0x40, 32, 0, 16⟩
/-- CG_PLIM.ILIM_MA [31:16] RW. -/
def cgPlimIlimMa : Fld := ⟨0x00420008, 0x40, 16, 0, 16⟩
/-- CG_PLIM.PLIM [15:0] RW. -/
def cgPlimPlim : Fld := ⟨0x00420008, 0x40, 0, 0, 16⟩
/-- CG_RETRY.USED [9:8] RO. -/
def cgRetryUsed : Fld := ⟨0x00420010, 0x40, 8, 0, 2⟩
/-- CG_RETRY.AUTO [0] RW. -/
def cgRetryAuto : Fld := ⟨0x00420010, 0x40, 0, 0, 1⟩
/-- CG_STAT.CAUSE [11:8] RO. -/
def cgStatCause : Fld := ⟨0x00420018, 0x40, 8, 0, 4⟩
/-- CG_STAT.CWARN [5] RO. -/
def cgStatCwarn : Fld := ⟨0x00420018, 0x40, 5, 0, 1⟩
/-- CG_STAT.PG [4] RO. -/
def cgStatPg : Fld := ⟨0x00420018, 0x40, 4, 0, 1⟩
/-- CG_STAT.LIMIT [3] RO. -/
def cgStatLimit : Fld := ⟨0x00420018, 0x40, 3, 0, 1⟩
/-- CG_STAT.STATE [2:0] RO. -/
def cgStatState : Fld := ⟨0x00420018, 0x40, 0, 0, 3⟩
/-- CG_MEAS.P [63:48] RO. -/
def cgMeasP : Fld := ⟨0x00420020, 0x40, 48, 0, 16⟩
/-- CG_MEAS.IOUT_MA [47:32] RO. -/
def cgMeasIoutMa : Fld := ⟨0x00420020, 0x40, 32, 0, 16⟩
/-- CG_MEAS.VOUT_MV [31:16] RO. -/
def cgMeasVoutMv : Fld := ⟨0x00420020, 0x40, 16, 0, 16⟩
/-- CG_MEAS.VIN_MV [15:0] RO. -/
def cgMeasVinMv : Fld := ⟨0x00420020, 0x40, 0, 0, 16⟩
/-- CG_ENERGY.MJ [63:0] RO. -/
def cgEnergyMj : Fld := ⟨0x00420028, 0x40, 0, 0, 64⟩
/-- PM_CTL.PERIOD_US [31:16] RW. -/
def pmCtlPeriodUs : Fld := ⟨0x00500000, 0x8, 16, 0, 16⟩
/-- PM_CTL.FRZ_ON_FAULT [4] RW. -/
def pmCtlFrzOnFault : Fld := ⟨0x00500000, 0x8, 4, 0, 1⟩
/-- PM_CTL.FRZ_ON_OVF [3] RW. -/
def pmCtlFrzOnOvf : Fld := ⟨0x00500000, 0x8, 3, 0, 1⟩
/-- PM_CTL.SNAP [2] W1S. -/
def pmCtlSnap : Fld := ⟨0x00500000, 0x8, 2, 0, 1⟩
/-- PM_CTL.FREEZE [1] RW. -/
def pmCtlFreeze : Fld := ⟨0x00500000, 0x8, 1, 0, 1⟩
/-- PM_CTL.EN [0] RW. -/
def pmCtlEn : Fld := ⟨0x00500000, 0x8, 0, 0, 1⟩
/-- PM_STAT.FRZ_CAUSE [33:32] RO. -/
def pmStatFrzCause : Fld := ⟨0x00500008, 0x8, 32, 0, 2⟩
/-- PM_STAT.SNAP_LOST [31:0] RC. -/
def pmStatSnapLost : Fld := ⟨0x00500008, 0x8, 0, 0, 32⟩
/-- PM_TIME.NS [63:0] RO. -/
def pmTimeNs : Fld := ⟨0x00500010, 0x8, 0, 0, 64⟩
/-- PM_SMP_CFG.EN [63] RW. -/
def pmSmpCfgEn : Fld := ⟨0x00500100, 0x8, 63, 0, 1⟩
/-- PM_SMP_CFG.WRAP [62] RW. -/
def pmSmpCfgWrap : Fld := ⟨0x00500100, 0x8, 62, 0, 1⟩
/-- PM_SMP_CFG.KIND [61:59] RW. -/
def pmSmpCfgKind : Fld := ⟨0x00500100, 0x8, 59, 0, 3⟩
/-- PM_SMP_CFG.FILTER_EN [39] RW. -/
def pmSmpCfgFilterEn : Fld := ⟨0x00500100, 0x8, 39, 0, 1⟩
/-- PM_SMP_CFG.FILTER_EC [38:19] RW. -/
def pmSmpCfgFilterEc : Fld := ⟨0x00500100, 0x8, 19, 0, 20⟩
/-- PM_SMP_CFG.PERIOD [15:0] RW. -/
def pmSmpCfgPeriod : Fld := ⟨0x00500100, 0x8, 0, 0, 16⟩
/-- PM_SMP_STAT.SMP_LOST [63:32] RC. -/
def pmSmpStatSmpLost : Fld := ⟨0x00500108, 0x8, 32, 0, 32⟩
/-- PM_SMP_STAT.RECORDS [31:0] RO. -/
def pmSmpStatRecords : Fld := ⟨0x00500108, 0x8, 0, 0, 32⟩
/-- PM_DRAIN_ADDR.ADDR [63:6] RW. -/
def pmDrainAddrAddr : Fld := ⟨0x00500110, 0x8, 6, 0, 58⟩
/-- PM_DRAIN_CMD.COUNT [31:16] WO. -/
def pmDrainCmdCount : Fld := ⟨0x00500118, 0x8, 16, 0, 16⟩
/-- PM_DRAIN_CMD.RING [8] WO. -/
def pmDrainCmdRing : Fld := ⟨0x00500118, 0x8, 8, 0, 1⟩
/-- PM_DRAIN_CMD.GO [0] WO. -/
def pmDrainCmdGo : Fld := ⟨0x00500118, 0x8, 0, 0, 1⟩
/-- PM_DRAIN_STAT.ST [33:32] RO. -/
def pmDrainStatSt : Fld := ⟨0x00500120, 0x8, 32, 0, 2⟩
/-- PM_DRAIN_STAT.COPIED [31:0] RO. -/
def pmDrainStatCopied : Fld := ⟨0x00500120, 0x8, 0, 0, 32⟩
/-- PM_PATINA_IDX.KIND [19:16] RW. -/
def pmPatinaIdxKind : Fld := ⟨0x00500200, 0x8, 16, 0, 4⟩
/-- PM_PATINA_IDX.INDEX [15:0] RW. -/
def pmPatinaIdxIndex : Fld := ⟨0x00500200, 0x8, 0, 0, 16⟩
/-- PM_PATINA_DATA.DATA [63:0] RO. -/
def pmPatinaDataData : Fld := ⟨0x00500208, 0x8, 0, 0, 64⟩
/-- PM_SEL.EN [63] RW. -/
def pmSelEn : Fld := ⟨0x00501000, 0x8, 63, 0, 1⟩
/-- PM_SEL.MODE [62:61] RW. -/
def pmSelMode : Fld := ⟨0x00501000, 0x8, 61, 0, 2⟩
/-- PM_SEL.OVF_EVT [60] RW. -/
def pmSelOvfEvt : Fld := ⟨0x00501000, 0x8, 60, 0, 1⟩
/-- PM_SEL.THR [47:32] RW. -/
def pmSelThr : Fld := ⟨0x00501000, 0x8, 32, 0, 16⟩
/-- PM_SEL.INST [23:16] RW. -/
def pmSelInst : Fld := ⟨0x00501000, 0x8, 16, 0, 8⟩
/-- PM_SEL.BLOCK [15:8] RW. -/
def pmSelBlock : Fld := ⟨0x00501000, 0x8, 8, 0, 8⟩
/-- PM_SEL.EVENT [7:0] RW. -/
def pmSelEvent : Fld := ⟨0x00501000, 0x8, 0, 0, 8⟩
/-- PM_CNT.OVF [63] W1C. -/
def pmCntOvf : Fld := ⟨0x00501800, 0x8, 63, 0, 1⟩
/-- PM_CNT.VALUE [47:0] RW. -/
def pmCntValue : Fld := ⟨0x00501800, 0x8, 0, 0, 48⟩

end F

/-- The registers of block TOP (Table 02-9). -/
def blockTop : List Reg := [R.topCsrRefused, R.topTileSpare, R.modeStat, R.modeEvt, R.modeCtl, R.topDeviceId, R.topIdent]
/-- The registers of block ARM (Table 02-9). -/
def blockArm : List Reg := [R.armStat, R.armSigner, R.armSrc, R.armStage, R.armRole, R.armDrain, R.armDrainStat, R.armRecast, R.txnOwner, R.txnBegin, R.txnCommit, R.txnAbort, R.txnStat, R.txnEpoch, R.txnIdleLimit, R.lckBits]
/-- The registers of block FC (Table 02-9). -/
def blockFc : List Reg := [R.fcPend, R.fcMask, R.fcCmd, R.fcFence, R.fcResetCause, R.fcSpares, R.fcWdog, R.fcSelftest, R.fcLogIdx, R.fcReact, R.fcSrc, R.fcLog0, R.fcLog1]
/-- The registers of block FW (Table 02-9). -/
def blockFw : List Reg := [R.fwStat, R.fwSlot, R.fwCmd, R.fwDlSrc, R.fwDlCmd, R.fwDlStat, R.fwHealth, R.fwCtl, R.fwIdPolicy, R.fwFuse]
/-- The registers of block KN (Table 02-9). -/
def blockKn : List Reg := [R.knBudget, R.knTherm, R.knVcore, R.knStat, R.knCredit, R.knAllowMax, R.knEcost, R.knSpeed, R.knTemp, R.knCnt, R.pwStat, R.pwEvt, R.pwRail, R.cgCtl, R.cgPlim, R.cgRetry, R.cgStat, R.cgMeas, R.cgEnergy]
/-- The registers of block PM (Table 02-9). -/
def blockPm : List Reg := [R.pmCtl, R.pmStat, R.pmTime, R.pmSmpCfg, R.pmSmpStat, R.pmDrainAddr, R.pmDrainCmd, R.pmDrainStat, R.pmPatinaIdx, R.pmPatinaData, R.pmSel, R.pmCnt]
/-- The registers of block LN (Table 02-9). -/
def blockLn : List Reg := [R.lnCtl, R.lnStat, R.lnRec, R.lnFec, R.lnFecSym, R.lnBlk, R.lnPrbs, R.lnTxeq, R.lnEvents]
/-- The registers of block LL (Table 02-9). -/
def blockLl : List Reg := [R.llCtl, R.llStat, R.llSeq, R.llReplay, R.llCred0, R.llCred1, R.llCnt0, R.llCnt1, R.llCnt2, R.llDrop, R.llTest]
/-- The registers of block SW (Table 02-9). -/
def blockSw : List Reg := [R.swBufStat, R.swBufCfg, R.swRes0, R.swRes1, R.swIres, R.swCeThr, R.swBank, R.swCnt0, R.swCnt1, R.swDrop, R.swEpoch, R.swMc0, R.swMc1, R.swMc2, R.swMc3]
/-- The registers of block RT (Table 02-9). -/
def blockRt : List Reg := [R.rtGeom, R.rtPartner, R.rtTcMap, R.rtPktDrop0, R.rtPktDrop1, R.rtPktDrop2, R.rtStat, R.rtSettle, R.rtAdapt, R.rtPortMask, R.rtE2eCfg, R.rtE2eTot, R.rtPktDrop3, R.rtCnt0, R.rtCnt1, R.rtMbr, R.rtGrp, R.rtE2eOut]
/-- The registers of block TP (Table 02-9). -/
def blockTp : List Reg := [R.tpRetry, R.tpAck, R.tpCcMe, R.tpCcDc, R.tpOcc, R.tpNackCfg, R.tpEcMap, R.tpCnt0, R.tpCnt1, R.tpCnt2, R.tpCnt3, R.tpLateRsp, R.tpCnt4, R.tpCap, R.tpCnt5, R.tpDc]
/-- The registers of block MT (Table 02-9). -/
def blockMt : List Reg := [R.mtCfg, R.mtOcc, R.mtUnexp, R.mtRdv, R.mtCnt0, R.mtCnt1, R.mtCnt2, R.mtCnt3, R.mtCnt4]
/-- The registers of block XL (Table 02-9). -/
def blockXl : List Reg := [R.xlInvalAddr, R.xlInvalCmd, R.xlInvalStat, R.xlFaultLast, R.xlFaultInfo, R.xlWinBase, R.xlWinLimit, R.xlDom, R.xlCnt0, R.xlCnt1, R.xlCnt2]
/-- The registers of block MR (Table 02-9). -/
def blockMr : List Reg := [R.mrCfg, R.mrCmd, R.mrCmdStat, R.mrPageCfg, R.mrPageResolve, R.mrPageStat, R.mrEpochDone, R.mrErrLast, R.mrCnt0, R.mrCnt1, R.mrCnt2, R.mrCnt3, R.mrEntry0, R.mrEntry1, R.mrEntry2, R.mrEntry3]
/-- The registers of block GW (Table 02-9). -/
def blockGw : List Reg := [R.gwSpan0, R.gwSpan1, R.gwCfg, R.gwSec, R.gwPort, R.gwFlushAddr, R.gwFlushCmd, R.gwFlushStat, R.gwFcStat, R.gwErrLast, R.gwCnt0, R.gwCnt1, R.gwCnt2, R.gwCnt3, R.gwCnt4, R.gwCnt5, R.gwSpanErr]
/-- The registers of block CL (Table 02-9). -/
def blockCl : List Reg := [R.clCfg, R.clPool, R.clCmd, R.clErrLast, R.clCnt0, R.clCnt1, R.clCnt2, R.clGroup0, R.clGroup1, R.clGroup2, R.clGroup3, R.clChild]
/-- The registers of block EX (Table 02-9). -/
def blockEx : List Reg := [R.exCfg, R.exStage, R.exErrLast, R.exCnt0, R.exCnt1, R.exCnt2, R.exCnt3, R.exJob0, R.exJob1, R.exJob2, R.exJob3, R.exRing0, R.exRing1, R.exRing2, R.exRing3, R.exPart]
/-- The registers of block AT (Table 02-9). -/
def blockAt : List Reg := [R.atCfg, R.atTable, R.atCnt0, R.atCnt1, R.atCnt2, R.atAlias0, R.atAlias1, R.atAlias2, R.atAlias3]
/-- The registers of block HI (Table 02-9). -/
def blockHi : List Reg := [R.hiPortStat, R.hiPm, R.hiWedged, R.qmCqStallLimit, R.hiVfMap]
/-- The registers of block QM (Table 02-9). -/
def blockQm : List Reg := [R.qmCmd, R.qmArg0, R.qmArg1, R.qmArg2, R.qmCmdStat, R.qmFnCfg, R.qmFnStat, R.qmCqDb, R.qmEqDb]
/-- The registers of block SC (Table 02-9). -/
def blockSc : List Reg := [R.scCfg, R.scVcW, R.scTc, R.scCalCfg, R.scShape, R.scCal, R.scFn, R.scPol0, R.scPol1, R.scPol2, R.scPol3, R.scQsmpSel, R.scQsmpVal]

/-- The block of a BAR0 offset, as Table 02-9 lays BAR0 out; the function pages of host port 1 are kept at
0x1A80_0000 up, since each port's PF sees its own pages at 0x0A80_0000 (Table 15-2). -/
def regsAt (key : Nat) : List Reg :=
  if key < 0x100000 then blockTop else
  if key < 0x200000 then blockArm else
  if key < 0x300000 then blockFc else
  if key < 0x400000 then blockFw else
  if key < 0x500000 then blockKn else
  if key < 0x1000000 then blockPm else
  if key < 0x2000000 then blockLn else
  if key < 0x3000000 then blockLl else
  if key < 0x4000000 then blockSw else
  if key < 0x5000000 then blockRt else
  if key < 0x5800000 then blockTp else
  if key < 0x6000000 then blockMt else
  if key < 0x6800000 then blockXl else
  if key < 0x7000000 then blockMr else
  if key < 0x8000000 then blockGw else
  if key < 0x8800000 then blockCl else
  if key < 0x9000000 then blockEx else
  if key < 0xA000000 then blockAt else
  if key < 0xA800000 then blockHi else
  if key < 0xB000000 then blockQm else
  if key < 0xC000000 then blockSc else
  if key < 0x1A800000 then [] else
  if key < 0x1B000000 then blockQm else
  []

end Sys2Proof.Machine
end

