-- ==== Sys2Proof/Machine/Ops.lean ====
section
/-!
DEFINITION. Machine/Ops.lean: the named operations every command is written with: time, what is sent out, free
values, and the register file: reading and writing a field, the counters, the access codes of Table 00-3, the
checks of R6 to R9 on a write, and what a reset restores (R10 to R12).
-/

namespace Sys2Proof.Machine

/-- The three outcomes of a command. -/
abbrev Res := Host.Outcome State Fault Refusal

/-- The time a command reports, never running backwards. -/
def atTime (s : State) (now : Nat) : State := { s with timeNs := max s.timeNs now }

/-- Something sent out. -/
def emit (s : State) (o : Out) : State := { s with out := s.out ++ [o] }

/-- Several things sent out, in order. -/
def emits (s : State) (os : List Out) : State := { s with out := s.out ++ os }

/-- The next value the specification leaves open, as a number. -/
def freeNat (s : State) : Nat := (Config.freeValue s.free).toNat

/-- The state after an open value has been used. -/
def drawn (s : State) : State := { s with free := s.free + 1 }

/-- An open choice among the members of a list: uniform drawing is not modelled, any member may be picked. -/
def pick {α : Type} (s : State) (l : List α) : Option α := l[freeNat s % l.length]?

/-! ### The register file -/

/-- The register at a byte offset, if the map of Table 02-9 has one there. -/
def regFind (key : Nat) : Option Reg :=
  (regsAt key).find? fun r =>
    decide (r.base ≤ key) && (key - r.base) % r.stride == 0 && decide ((key - r.base) / r.stride < r.count)

/-- The fields of the word at a byte offset. -/
def fieldsAt (key : Nat) : List Field :=
  match regFind key with
  | some r => r.fields
  | none => []

/-- The reset values of a list of fields, put in their places. -/
def resetBits : List Field → Nat
  | [] => 0
  | f :: fs => f.val * 2 ^ f.lo + resetBits fs

/-- Reset values that a register's table does not give field by field: the mask of ARM_SIGNER (R66), the fuses
(log entry 12), the weights of Table 16-2, the active shaper and free calendar of TC7, the VC weights of SC_VC_W, the c(0) that taps of 0 leave (R122), and the pools
that nothing holds anything of: the spare slices, the collective's entries and units, and the lock wait table (log entry 13). -/
def resetExtra (key : Nat) : Nat :=
  if key = 0x0B000008 then 0x2020202010101010
  else if key = 0x00100008 then 1
  else if key = 0x00200028 then 0x01410A10
  else if key = 0x08000008 then 262144 * 2 ^ 32 + 65536
  else if key = 0x09000008 then 16777216 * 2 ^ 32
  else if 0x0B000100 ≤ key ∧ key < 0x0B000140 then
    match (key - 0x0B000100) / 8 with
    | 0 => 8 * 256 + 8
    | 1 => 32 * 256 + 32
    | 2 => 32 * 256 + 32
    | 3 => 32 * 256 + 32
    | 4 => 64 * 256 + 64
    | 5 => 64 * 256 + 64
    | 6 => 64 * 256 + 64
    | _ => 3 * 65536 + 255 * 256 + 255
  else if 0x01000000 ≤ key ∧ key < 0x01110000 ∧ key % 0x1000 = 0x38 then 64 * 2 ^ 16
  else if 0x0B001000 ≤ key ∧ key < 0x0B001200 ∧ (key - 0x0B001000) / 8 % 8 = 7 then 2 ^ 63
  else 0

/-- What a word that nothing has written reads as: its fields' reset values. -/
def csrDefault (key : Nat) : Word := BitVec.ofNat 64 (resetBits (fieldsAt key) + resetExtra key)

/-- The word at a byte offset as the register file holds it. -/
def csrRaw (s : State) (key : Nat) : Word := mgetD s.csr key (csrDefault key)

/-- The register file with one word written; a word at its reset value is not listed. -/
def csrStore (m : Map Word) (key : Nat) (w : Word) : Map Word :=
  if w = csrDefault key then mdel m key else mset m key w

/-- The state with one register word written. -/
def csrPut (s : State) (key : Nat) (w : Word) : State := { s with csr := csrStore s.csr key w }

/-- The byte offset of the word that holds field f of instance i. -/
def Fld.key (f : Fld) (i : Nat) : Nat := f.addr + f.stride * i

/-- A field read: instance i of the register, copy j of the field within it. -/
def rd (s : State) (f : Fld) (i : Nat := 0) (j : Nat := 0) : Nat :=
  wordGet (csrRaw s (f.key i)) (f.lo + f.bstep * j) f.width

/-- A field written. -/
def wr (s : State) (f : Fld) (v : Nat) (i : Nat := 0) (j : Nat := 0) : State :=
  csrPut s (f.key i) (wordSet (csrRaw s (f.key i)) (f.lo + f.bstep * j) f.width v)

/-- A one-bit field read. -/
def rdb (s : State) (f : Fld) (i : Nat := 0) (j : Nat := 0) : Bool := rd s f i j == 1

/-- A one-bit field written. -/
def wrb (s : State) (f : Fld) (b : Bool) (i : Nat := 0) (j : Nat := 0) : State := wr s f (bit b) i j

/-- A counter field raised by n; it stops at its largest value. -/
def inc (s : State) (f : Fld) (n : Nat := 1) (i : Nat := 0) (j : Nat := 0) : State :=
  wr s f (satAdd f.width (rd s f i j) n) i j

/-- An event of Table 20-1 reported to the performance counters while PM_CTL.EN is set: block code, instance, event and
value (R594). -/
def pmCount (s : State) (block inst ev value : Nat) : State :=
  if rdb s F.pmCtlEn && decide (0 < value) then { s with notices := s.notices ++ [.count block ev inst value] } else s

/-- A step of an operation of the kind that precise sampling watches (R601): phase 0 its start, 1 a first slice, 2 its end,
3 what is known of it later; `info` of phases 0 and 3 is EC, OP, ADDR, SRC, DST, TC, LEN, of phase 2 STATUS. -/
def pmSample (s : State) (phase kind id : Nat) (info : List Nat) : State :=
  if rdb s F.pmSmpCfgEn && (phase == 1 || rd s F.pmSmpCfgKind == kind) then
    { s with notices := s.notices ++ [.sample phase kind id info] }
  else s

/-- The name of packet p as an operation of KIND 1. -/
def arrivalId (p : Pkt) : Nat := (p.src * 2 ^ 24 + p.msgid) * 2 ^ 24 + p.psn

/-- The name of a descriptor as an operation of KIND 0, 3 or 4. -/
def descId (wq pos : Nat) : Nat := wq * 2 ^ 20 + pos

/-- The name of an alias read as an operation of KIND 4. -/
def aliasId (slot read : Nat) : Nat := (slot + 1) * 2 ^ 80 + read

/-- A refused write counted in TOP_CSR_REFUSED.COUNT (R6, R7). -/
def refuseWrite (s : State) : State := inc s F.topCsrRefusedCount

/-- Whether a value is an encoding that its field lists (R7). -/
def Legal.ok : Legal → Nat → Bool
  | .any, _ => true
  | .range lo hi, v => decide (lo ≤ v) && decide (v ≤ hi)
  | .zeroOr lo hi, v => v == 0 || (decide (lo ≤ v) && decide (v ≤ hi))
  | .codes l, v => l.contains v

/-- Whether software's value for a field is judged: the field takes writes. -/
def Access.judged : Access → Bool
  | .rw | .wo | .rwl | .rwt => true
  | _ => false

/-- Whether a written word holds only listed encodings in the fields that take writes (R7). -/
def wordLegal (fs : List Field) (w : Word) : Bool :=
  fs.all fun f => !f.acc.judged || f.legal.ok (wordGet w f.lo f.width)

/-- The lock bit that covers an RWL register (Table 02-8): its bit in LCK_BITS. -/
def lockBitOf (key : Nat) : Nat :=
  if key = 0x00100008 then 1
  else if key = 0x07000008 then 4
  else if key = 0x00300048 then 3
  else 0

/-- Whether the RWL fields at an offset are locked. -/
def locked (s : State) (key : Nat) : Bool := bitAt (csrRaw s 0x00102000).toNat (lockBitOf key)

/-- The bits that one field takes from a written word (Table 00-3). -/
def fieldWrite (lock : Bool) (old new : Word) (f : Field) : Word :=
  let o := wordGet old f.lo f.width
  let n := wordGet new f.lo f.width
  match f.acc with
  | .rw | .rwt => wordSet old f.lo f.width n
  | .rwl => if lock then old else wordSet old f.lo f.width n
  | .w1c => wordSet old f.lo f.width (o - Nat.land o n)
  | .w1s => wordSet old f.lo f.width (Nat.lor o n)
  | .ro | .wo | .rc => old

/-- A word after a software write: each field as its access code says, reserved bits zero (R7, R9). -/
def wordWrite (lock : Bool) (fs : List Field) (old new : Word) : Word :=
  fs.foldl (fun w f => fieldWrite lock w new f) old

/-- A plain register write: refused whole and counted when a field holds an encoding that it does not list (R7),
discarded when no register is there (R8), else each field takes its bits. -/
def csrPlain (s : State) (key : Nat) (w : Word) : State :=
  match regFind key with
  | none => s
  | some r =>
    if wordLegal r.fields w then csrPut s key (wordWrite (locked s key) r.fields (csrRaw s key) w)
    else refuseWrite s

/-- Whether the word at an offset changes only through a maquette commit (RWT). -/
def isRwt (key : Nat) : Bool := (fieldsAt key).any fun f => f.acc == .rwt

/-- A word as a read returns it: write-only fields read zero (Table 00-3). -/
def maskWo (fs : List Field) (w : Word) : Word :=
  fs.foldl (fun w f => match f.acc with
    | .wo => wordSet w f.lo f.width 0
    | _ => w) w

/-- A word after a read of the given part: an RC field all of whose bits were returned is cleared (R6). -/
def clearRc (fs : List Field) (lo width : Nat) (w : Word) : Word :=
  fs.foldl (fun w f => match f.acc with
    | .rc => if lo ≤ f.lo ∧ f.lo + f.width ≤ lo + width then wordSet w f.lo f.width 0 else w
    | _ => w) w

/-! ### Resets of the register file (R10 to R12) -/

/-- Whether a reset restores a field of the given reset code (R11): POR contains CHIP, CHIP contains HFUND and BLK,
HFUND contains HOT, HOT contains FLR. -/
def ResetKind.restores : ResetKind → ResetKind → Bool
  | .por, k => k != .none
  | .chip, k => k != .none && k != .por
  | .hfund, k => k == .hfund || k == .hot || k == .flr
  | .hot, k => k == .hot || k == .flr
  | .flr, k => k == .flr
  | .blk, k => k == .blk
  | .none, _ => false

/-- A word after a reset: the fields that the reset restores take their reset values. -/
def wordReset (k : ResetKind) (key : Nat) (w : Word) : Word :=
  (fieldsAt key).foldl
    (fun w f => if k.restores f.rst then wordSet w f.lo f.width (wordGet (csrDefault key) f.lo f.width) else w) w

/-- The register file after a reset of the words that `p` selects. -/
def csrReset (k : ResetKind) (p : Nat → Bool) (m : Map Word) : Map Word :=
  m.foldr (fun (e : Nat × Word) t => csrStore t e.1 (if p e.1 then wordReset k e.1 e.2 else e.2)) []

end Sys2Proof.Machine
end

