-- ==== Sys2Proof/Machine/Events.lean ====
section
/-!
DEFINITION. Machine/Events.lean: entries written into CQs and EQs, with their phase bit (R452), the holding slots of
a full CQ (R462), the events of a function (R464, R465) and interrupt moderation (R466).
-/

namespace Sys2Proof.Machine

/-- The register index of function f of port hp: its function page. -/
def fnIdx (hp f : Nat) : Nat := hp * 8192 + f

/-- Key of CQ or WQ n of a port. -/
def qKey (hp n : Nat) : Nat := hp * 16384 + n

/-- Key of EQ n of a port. -/
def eqKey (hp n : Nat) : Nat := hp * 4096 + n

/-- The port of a CQ or WQ key. -/
def qPort (key : Nat) : Nat := key / 16384

/-- Whether a host port serves (R450). -/
def serving (s : State) (hp : Nat) : Bool :=
  if hp = 0 then rdb s F.modeStatHp0Serving else rdb s F.modeStatHp1Serving

/-- The port's state beside its registers. -/
def portOf (s : State) (hp : Nat) : PortSt :=
  mgetD s.hi.ports hp {}

/-- The state with a port's state replaced. -/
def setPort (s : State) (hp : Nat) (p : PortSt) : State :=
  { s with hi := { s.hi with ports := mset s.hi.ports hp p } }

/-- Entries in a ring of 2^k entries whose indices have k + 1 bits (R451). -/
def ringCount (k pi ci : Nat) : Nat := (pi + 2 ^ (k + 1) - ci) % 2 ^ (k + 1)

/-- Whether a ring is full (R451). -/
def ringFull (k pi ci : Nat) : Bool := ringCount k pi ci == 2 ^ k

/-- An index moved on by n. -/
def ringAdd (k i n : Nat) : Nat := (i + n) % 2 ^ (k + 1)

/-- PHASE of the entry at index PI: 1 when the lap bit is 0 (R452). -/
def phaseOf (k pi : Nat) : Nat := 1 - pi / 2 ^ k % 2

/-- An interrupt of a function: none in D3hot (R468); a masked vector sets its pending bit (R466). -/
def raiseIrq (s : State) (hp fn vec : Nat) (poll : Bool) : State :=
  let p := portOf s hp
  if poll || p.d3hot.contains fn || !serving s hp then s
  else if p.msixMask.contains (fn * 2048 + vec) then
    setPort s hp { p with msixPending := (fn * 2048 + vec) :: p.msixPending.erase (fn * 2048 + vec) }
  else emit s (.msix hp fn vec)

/-- A TLP or an access of a port, at which its link leaves L1 (R467). -/
def wakePort (s : State) (hp : Nat) : State := if rd s F.hiPortStatPm hp = 0 then s else wr s F.hiPortStatPm 0 hp

/-- Whether the moderation time of an armed queue has passed since its first entry (R466). -/
def modOver (s : State) (firstAt : Option Nat) (modUs : Nat) : Bool :=
  match firstAt with
  | some t => decide (t + modUs * 1000 ≤ s.timeNs)
  | none => modUs == 0

/-- An EQ entry written at PI: word 1 first, then word 0 with PHASE in bit 63 (R452, R464). -/
def eqPut (s : State) (key : Nat) (e : Evq) (w0 w1 : Nat) : State :=
  let hp := key / 4096
  let at' := e.addr + e.pi % 2 ^ e.log2 * 16
  let s := emits s [.hostWords hp (at' + 8) [BitVec.ofNat 64 w1],
    .hostWords hp at' [BitVec.ofNat 64 (w0 % 2 ^ 63 + phaseOf e.log2 e.pi * 2 ^ 63)]]
  let e := { e with pi := ringAdd e.log2 e.pi 1 }
  let fire := e.armed && (decide (e.count + 1 ≥ e.modCount) || modOver s e.firstAt e.modUs)
  let e := if e.armed then
      { e with count := e.count + 1, armed := !fire, firstAt := if fire then none else e.firstAt.or (some s.timeNs) }
    else e
  let s := { s with hi := { s.hi with eqs := mset s.hi.eqs key e } }
  if fire then raiseIrq s hp e.fn e.vec e.poll else s

/-- EQ_OVERFLOW (0x0C) with the lost count in word 1; writing it clears the count and the cause (R465). -/
def eqOverflow (s : State) (key : Nat) (e : Evq) : State :=
  if e.lost = 0 ∨ ringFull e.log2 e.pi e.ci then s
  else eqPut s key { e with lost := 0, cause := 0 } 0x0C e.lost

/-- An event into an EQ: discarded, counted and marked OVERFLOW when the EQ is full (R465). -/
def eqEvent (s : State) (key : Nat) (w0 w1 : Nat) : State :=
  match mget s.hi.eqs key with
  | none => s
  | some e =>
    let s := eqOverflow s key e
    match mget s.hi.eqs key with
    | none => s
    | some e =>
      if ringFull e.log2 e.pi e.ci then
        { s with hi := { s.hi with eqs := mset s.hi.eqs key { e with lost := satAdd 32 e.lost 1, cause := 4 } } }
      else eqPut s key e w0 w1

/-- An event of a function, to QM_FN_CFG.EVT_EQ when EVT_EN is set, else discarded (R464).  A port that does not
serve writes nothing to host memory (R450); an EVT_EQ that is free or another function's takes no event. -/
def event (s : State) (hp fn : Nat) (w0 w1 : Nat) : State :=
  if !serving s hp || !rdb s F.qmFnCfgEvtEn (fnIdx hp fn) then s
  else
    let key := eqKey hp (rd s F.qmFnCfgEvtEq (fnIdx hp fn))
    match mget s.hi.eqs key with
    | some e => if e.fn = fn then eqEvent s key w0 w1 else s
    | none => s

/-- An event to PF0 of each serving host port. -/
def eventPf0 (s : State) (w0 w1 : Nat) : State := event (event s 0 0 w0 w1) 1 0 w0 w1

/-- The fields of an event whose layout the specification does not give: open values above CODE. -/
def openFields (s : State) (code : Nat) : Nat := code + freeNat s % 2 ^ 55 * 256

/-- WQ_ERROR (0x08): the WQ in word 0 [29:16] and the cause in [35:32] (R464). -/
def wqErrorEvent (s : State) (key fn cause : Nat) : State :=
  event s (qPort key) fn (0x08 + key % 16384 * 2 ^ 16 + cause * 2 ^ 32) 0

/-- A CQ entry written at PI: words 1 to 3 first, then word 0 with PHASE in bit 0 (R452, R456). -/
def cqPut (s : State) (key : Nat) (q : Cq) (c : Cqe) : State :=
  let hp := qPort key
  let at' := q.addr + q.pi % 2 ^ q.log2 * 32
  let s := emits s [.hostWords hp (at' + 8) [BitVec.ofNat 64 c.w1, BitVec.ofNat 64 c.w2, BitVec.ofNat 64 c.w3],
    .hostWords hp at' [BitVec.ofNat 64 (c.w0 / 2 * 2 + phaseOf q.log2 q.pi)]]
  let q := { q with pi := ringAdd q.log2 q.pi 1 }
  let fire := q.armed && (decide (q.count + 1 ≥ q.modCount) || modOver s q.firstAt q.modUs)
  let q := if q.armed then
      { q with count := q.count + 1, armed := !fire, firstAt := if fire then none else q.firstAt.or (some s.timeNs) }
    else q
  let q := if ringFull q.log2 q.pi q.ci then { q with fullSince := q.fullSince.or (some s.timeNs) } else q
  let s := { s with hi := { s.hi with cqs := mset s.hi.cqs key q } }
  if fire then raiseIrq s hp q.fn q.vec q.poll else s

/-- Whether a completion for a CQ finds room: in the ring, or in one of the 64 holding slots (R462). -/
def cqRoom (s : State) (key : Nat) : Bool :=
  match mget s.hi.cqs key with
  | some q => decide (q.held.length < 64)
  | none => true

/-- A completion for a CQ: written when the ring has room and nothing waits and the port serves (R450), else held in order; the first held one
writes CQ_OVERRUN_PENDING (0x09) once (R462).  A CQ that no longer exists takes none. -/
def complete (s : State) (key : Nat) (c : Cqe) : State :=
  match mget s.hi.cqs key with
  | none => s
  | some q =>
    if q.held.isEmpty && !ringFull q.log2 q.pi q.ci && serving s (qPort key) then cqPut s key q c
    else
      let s' := { s with hi := { s.hi with cqs := mset s.hi.cqs key { q with held := q.held ++ [c], pendWritten := true } } }
      if q.pendWritten then s' else drawn (event s' (qPort key) q.fn (openFields s' 0x09) (freeNat s'))

/-- Held completions written in order while the ring has room (R462). -/
def cqDrain : Nat → State → Nat → State
  | 0, s, _ => s
  | n + 1, s, key =>
    match mget s.hi.cqs key with
    | none => s
    | some q =>
      match q.held with
      | [] => { s with hi := { s.hi with cqs := mset s.hi.cqs key { q with pendWritten := false } } }
      | c :: cs =>
        if ringFull q.log2 q.pi q.ci || !serving s (qPort key) then s
        else cqDrain n (cqPut s key { q with held := cs } c) key

/-- Word 0 of a CQ entry without PHASE (R456). -/
def cqe (op status outcome detail len user w2 w3 : Nat) : Cqe :=
  { w0 := op * 2 ^ 8 + status % 16 * 2 ^ 16 + outcome % 4 * 2 ^ 20 + detail % 256 * 2 ^ 24 + len % 2 ^ 31 * 2 ^ 32, w1 := user, w2 := w2, w3 := w3 }

/-- The MSI-X vectors of a function (Table 15-1): 2,048 for a PF, 64 for a VF. -/
def vectors (fn : Nat) : Nat := if fn = 0 then 2048 else 64

end Sys2Proof.Machine
end

