-- ==== Sys2Proof/Machine/Flags.lean ====
section
/-!
DEFINITION. Machine/Flags.lean: the mode flags of 01: the base state, the four conditions, the reported mode (R27),
the entry bits of MODE_EVT and the mode event (R30).
-/

namespace Sys2Proof.Machine

/-- Base states of MODE_STAT.BASE: 0 RECOVERY, 1 BUILD, 2 RUN, 3 TEST. -/
def baseOf (s : State) : Nat := rd s F.modeStatBase

def holdOn (s : State) : Bool := rdb s F.modeStatHoldAct
def fenceOn (s : State) : Bool := rdb s F.modeStatFenceAct
def brownOn (s : State) : Bool := rdb s F.modeStatBrownoutAct
def relayOn (s : State) : Bool := rdb s F.modeStatRelayAct
def fullFence (s : State) : Bool := rdb s F.modeStatFenceFull

/-- The code MODE_STAT.MODE reports (R27). -/
def modeCode (base : Nat) (hold fence brown relay : Bool) : Nat :=
  match base with
  | 0 => 0
  | 1 => 1
  | 3 => 7
  | _ => if hold then 4 else if fence then 6 else if brown then 5 else if relay then 3 else 2

/-- MODE_STAT.MODE brought into step with the base state and the conditions. -/
def refreshMode (s : State) : State :=
  wr s F.modeStatMode (modeCode (baseOf s) (holdOn s) (fenceOn s) (brownOn s) (relayOn s))

/-- Mode entries (a mask of MODE_EVT bits): each sets its bit, and one mode event reports them (R30, R464). -/
def modeEntry (s : State) (mask : Nat) : State :=
  if mask = 0 then s
  else
    let w := csrRaw s 0x110
    eventPf0 (csrPut s 0x110 (BitVec.ofNat 64 (Nat.lor w.toNat mask))) (0x01 + mask % 128 * 2 ^ 8) 0

/-- No condition is active. -/
def noCondition (s : State) : Bool := !(holdOn s || fenceOn s || brownOn s || relayOn s)

/-- The mask of entries between two states of the conditions: a condition that became active, or SERVICE when the
last one cleared in RUN (Table of MODE_EVT). -/
def entryMask (before after : State) : Nat :=
  bit (!holdOn before && holdOn after) * 2 + bit (!brownOn before && brownOn after) * 4
    + bit (!fenceOn before && fenceOn after) * 8 + bit (!relayOn before && relayOn after) * 16
    + bit (!noCondition before && noCondition after && baseOf after == 2) * 64

/-- The conditions changed by `f`, the mode refreshed and the entries reported. -/
def changeConds (s : State) (f : State → State) : State :=
  let s' := refreshMode (f s)
  modeEntry s' (entryMask s s')

/-- Timers that HOLD pauses moved on by the part of a HOLD from `h` that they ran in: retransmit timers (R257), those of collectives
and exchange (R422), of lock waiters and alias reads (R435, R439). -/
def pauseTimers (s : State) (h : Nat) : State :=
  let mv := fun t => t + (s.timeNs - max t h)
  let slot : Nat → Slot → Slot := fun _ m => { m with timerAt := m.timerAt.map mv }
  let coll : Nat → CollPkt → CollPkt := fun _ p => { p with at' := mv p.at' }
  let op : Nat → CollOp → CollOp := fun _ o => { o with since := mv o.since }
  let group : Nat → CollGrp → CollGrp := fun _ g => { g with sends := mmap g.sends coll, ops := mmap g.ops op }
  let batch : Nat → ExBatch → ExBatch := fun _ b => { b with since := mv b.since, sentAt := mv b.sentAt }
  let stream : Nat → ExStream → ExStream := fun _ t => { t with probeAt := mv t.probeAt }
  let job : Nat → ExJobSt → ExJobSt := fun _ x => { x with batches := mmap x.batches batch, streams := mmap x.streams stream }
  let lock : Nat → LockSt → LockSt := fun _ l => { l with waiters := l.waiters.map fun w => { w with since := mv w.since } }
  let reads : Nat → List AliasRead → List AliasRead := fun _ l => l.map fun r => { r with dueAt := r.dueAt + (s.timeNs - max r.since h) }
  { s with
    tp := { s.tp with slots := mmap s.tp.slots slot }
    cl := { s.cl with groups := mmap s.cl.groups group, jobs := mmap s.cl.jobs job }
    at' := { s.at' with locks := mmap s.at'.locks lock, reads := mmap s.at'.reads reads } }

/-- RELAY is to be active: in RUN, with no host port that serves (R473); THERMTRIP leaves the mode as it is (R31). -/
def relayDue (s : State) : Bool := if s.pw.tripped then relayOn s else baseOf s == 2 && !serving s 0 && !serving s 1

/-- HOLD entered or left; its times stay for the samples that it spoils, and timers pause for it.  RELAY that became due during HOLD
sets as it ends (R41). -/
def setHold (s : State) (b : Bool) : State :=
  let s := match s.tp.holdSince with
    | some h => if b then s else pauseTimers s h
    | none => s
  let s := { s with tp := { s.tp with holdSince := if b then some s.timeNs else none,
                                      lastHold := if b then s.tp.lastHold else s.timeNs } }
  changeConds s fun s =>
    let s := wrb s F.modeStatHoldAct b
    if b then s else wrb s F.modeStatRelayAct (relayDue s)

/-- BROWNOUT entered or left; it occurs only in RUN (R32). -/
def setBrown (s : State) (b : Bool) : State :=
  changeConds s fun s => wrb s F.modeStatBrownoutAct (b && baseOf s == 2)

/-- RELAY follows the serving state in RUN (R42, R473); in HOLD it sets only when HOLD ends (R41). -/
def refreshRelay (s : State) : State :=
  let want := relayDue s
  if want && holdOn s then s else changeConds s fun s => wrb s F.modeStatRelayAct want

/-- FENCE follows the fenced instances and the full fence in RUN (R32, R517). -/
def setFence (s : State) (active full : Bool) : State :=
  changeConds s fun s => wrb (wrb s F.modeStatFenceAct (active && baseOf s == 2)) F.modeStatFenceFull (full && baseOf s == 2)

/-- Entry to TEST is under way: the request is accepted and BASE does not read TEST yet (R36). -/
def enteringTest (s : State) : Bool := baseOf s == 2 && s.testReq == .enter

/-- The base state changed; a debug session lasts in TEST and RECOVERY only (R559). -/
def setBase (s : State) (b : Nat) : State :=
  let s := { s with fw := { s.fw with debugOpen := s.fw.debugOpen && (b == 3 || b == 0) } }
  refreshMode (wr s F.modeStatBase b)

/-- The block of a fault's instance: its code (Table 20-1; 0x08 stands for the management complex, 0x50 for an engine
tile) and unit, or none where Table 17-7 and R515 name no block for it.  Sources 9 to 11 carry the code and the unit
(R510); of the other sources the block is read from the meaning of their instances (log 40). -/
def blockOf (src inst : Nat) : Option (Nat × Nat) :=
  if src = 3 then some (0x20, inst)
  else if src = 4 then some (0x30, inst / 32)
  else if src = 5 then some (0x50, inst)
  else if src = 8 ∨ src = 22 then some (0x08, 0)
  else if src = 9 ∨ src = 10 ∨ src = 11 then
    match inst / 256 with
    | 0x20 => some (0x20, inst % 256)
    | 0x30 => some (0x30, inst % 256)
    | 0x40 => some (0x40, 0)
    | 0x50 | 0x58 | 0x80 | 0x88 | 0x90 => some (0x50, inst % 256)
    | 0x60 => some (0x60, 0)
    | 0x68 => some (0x68, 0)
    | 0x70 => some (0x70, 0)
    | 0xA0 => some (0xA0, inst % 256 % 2)
    | 0xB0 => some (0xB0, 0)
    | _ => none
  else if src = 12 then some (0xA0, inst % 2)
  else if src = 13 then some (0xA0, inst / 256 % 2)
  else none

/-- A block is partially fenced (R515). -/
def blockFenced (s : State) (code unit : Nat) : Bool :=
  s.fc.fences.any fun f => blockOf f.1 f.2 == some (code, unit)

/-- A block is held in reset: by a partial fence or a block reset (R512, R515, Table 17-7). -/
def blockDown (s : State) (code unit : Nat) : Bool :=
  blockFenced s code unit || s.fc.inReset.contains (code, unit)

end Sys2Proof.Machine
end

