-- ==== Sys2Proof/Machine/Packet.lean ====
section
/-!
DEFINITION. Machine/Packet.lean: the packet layout of 03: header words (Table 03-2), HCRC and E2E_CRC (R83, R85), the
trailer, flits, opcode classes and lengths (Table 03-5), and packets built by this device.
-/

namespace Sys2Proof.Machine

/-- CRC-16, polynomial 0x1021, most significant bit first, one bit. -/
def crc16Bit (c : Nat) (b : Bool) : Nat :=
  let c' := c * 2 % 65536
  if bitAt c 15 != b then Nat.xor c' 0x1021 else c'

/-- CRC-16 over one byte. -/
def crc16Byte (c : Nat) (x : Byte) : Nat :=
  [7, 6, 5, 4, 3, 2, 1, 0].foldl (fun c i => crc16Bit c (bitAt x.toNat i)) c

/-- CRC-16 of R83: initial value 0xFFFF, no reflection, no final XOR. -/
def crc16 (bs : List Byte) : Nat := bs.foldl crc16Byte 0xFFFF

/-- CRC-32C, reflected, one bit (polynomial 0x1EDC_6F41 reversed). -/
def crc32Bit (c : Nat) : Nat := if c % 2 = 1 then Nat.xor (c / 2) 0x82F63B78 else c / 2

/-- CRC-32C over one byte. -/
def crc32Byte (c : Nat) (x : Byte) : Nat :=
  crc32Bit (crc32Bit (crc32Bit (crc32Bit (crc32Bit (crc32Bit (crc32Bit (crc32Bit (Nat.xor c x.toNat))))))))

/-- CRC-32C of R85 from an initial value, before the final XOR. -/
def crc32Run (init : Nat) (bs : List Byte) : Nat := bs.foldl crc32Byte init

/-- CRC-32C of R85. -/
def crc32c (bs : List Byte) : Nat := Nat.xor (crc32Run 0xFFFFFFFF bs) 0xFFFFFFFF

/-- Word 0 of a header (Table 03-2). -/
def hdr0 (p : Pkt) : Nat :=
  p.dst % 2 ^ 18 + p.src % 2 ^ 18 * 2 ^ 18 + p.tc % 8 * 2 ^ 36 + p.vc % 8 * 2 ^ 39 + p.hop % 16 * 2 ^ 42
    + p.age % 1024 * 2 ^ 46 + p.flags % 64 * 2 ^ 56
    + p.rsv % 4 * 2 ^ 62

/-- Word 1 of a header. -/
def hdr1 (p : Pkt) : Nat :=
  p.op % 256 + p.len % 2 ^ 13 * 2 ^ 8 + p.ec % 2 ^ 20 * 2 ^ 21 + p.hcrc % 2 ^ 16 * 2 ^ 41 + p.rsv / 4 % 128 * 2 ^ 57

/-- Word 2 of a header. -/
def hdr2 (p : Pkt) : Nat := p.off % 2 ^ 46 + p.psn % 2 ^ 18 * 2 ^ 46

/-- Word 3 of a header. -/
def hdr3 (p : Pkt) : Nat := p.key % 2 ^ 32 + p.msgid % 2 ^ 24 * 2 ^ 32 + p.rsv / 512 % 256 * 2 ^ 56

/-- The 32 header bytes in wire order (R80). -/
def hdrBytes (p : Pkt) : List Byte := toBytes 8 (hdr0 p) ++ toBytes 8 (hdr1 p) ++ toBytes 8 (hdr2 p) ++ toBytes 8 (hdr3 p)

/-- HCRC of a header, the field taken as zero (R83). -/
def hcrcOf (p : Pkt) : Nat := crc16 (hdrBytes { p with hcrc := 0 })

/-- E2E_CRC: header with the mutable fields zero, then the payload (R85). -/
def e2eOf (p : Pkt) : Nat :=
  crc32c (hdrBytes { p with vc := 0, hop := 0, age := 0, flags := p.flags - Nat.land p.flags 4, hcrc := 0 } ++ p.payload)

/-- Flags of Table 03-3. -/
def flLast : Nat := 1
def flFlag : Nat := 2
def flCe : Nat := 4
def flEce : Nat := 8
def flNoAdapt : Nat := 16

/-- Whether a header has a flag. -/
def hasFlag (p : Pkt) (f : Nat) : Bool := Nat.land p.flags f != 0

/-- Flits of a packet of LEN payload bytes (R78). -/
def flitsOf (len : Nat) : Nat := ceilDiv (40 + 8 * ceilDiv len 8) 128

/-- A packet built here: HCRC and E2E_CRC written (R83, R85). -/
def sealPkt (p : Pkt) : Pkt :=
  let p := { p with e2e := e2eOf p, stomp := 0 }
  { p with hcrc := hcrcOf p }

/-- The bytes of a packet, filled up with zeros to whole flits (R78, R138). -/
def pktBytes (p : Pkt) : List Byte :=
  let body := hdrBytes p ++ p.payload ++ List.replicate (8 * ceilDiv p.len 8 - p.payload.length) 0
    ++ toBytes 4 p.e2e ++ toBytes 1 p.stomp ++ [0, 0, 0]
  body ++ List.replicate (flitsOf p.len * 128 - body.length) 0

/-- A byte list cut into n flits. -/
def cutFlits : Nat → List Byte → List Flit
  | 0, _ => []
  | n + 1, bs => bs.take 128 :: cutFlits n (bs.drop 128)

/-- The flits of a packet. -/
def pktFlits (p : Pkt) : List Flit := cutFlits (flitsOf p.len) (pktBytes p)

/-- The header in a head flit. -/
def hdrOf (bs : Flit) : Pkt :=
  let w0 := ofBytes (bs.take 8)
  let w1 := ofBytes ((bs.drop 8).take 8)
  let w2 := ofBytes ((bs.drop 16).take 8)
  let w3 := ofBytes ((bs.drop 24).take 8)
  { dst := bits w0 0 18, src := bits w0 18 18, tc := bits w0 36 3, vc := bits w0 39 3, hop := bits w0 42 4,
    age := bits w0 46 10, flags := bits w0 56 6, op := bits w1 0 8, len := bits w1 8 13, ec := bits w1 21 20,
    hcrc := bits w1 41 16, off := bits w2 0 46, psn := bits w2 46 18, key := bits w3 0 32, msgid := bits w3 32 24,
    payload := [], e2e := 0, stomp := 0, rsv := bits w0 62 2 + bits w1 57 7 * 4 + bits w3 56 8 * 512 }

/-- The packet in a list of flits: header, LEN payload bytes, trailer. -/
def pktOf (fs : List Flit) : Pkt :=
  let bs := fs.flatten
  let h := hdrOf bs
  let t := (bs.drop (32 + 8 * ceilDiv h.len 8)).take 8
  { h with payload := (bs.drop 32).take h.len, e2e := ofBytes (t.take 4), stomp := ofBytes ((t.drop 4).take 1) }

/-! ### Opcodes (Table 03-5) -/

def opPut : Nat := 0x01
def opGetReq : Nat := 0x02
def opGetRsp : Nat := 0x03
def opSend : Nat := 0x04
def opSendRts : Nat := 0x05
def opAck : Nat := 0x08
def opNack : Nat := 0x09
def opAtomic : Nat := 0x10
def opAtomicRsp : Nat := 0x11
def opLock : Nat := 0x12
def opLockRsp : Nat := 0x13
def opLockNotice : Nat := 0x14
def opClUp : Nat := 0x20
def opClDown : Nat := 0x21
def opMcPut : Nat := 0x28
def opExBatch : Nat := 0x30
def opExCredit : Nat := 0x31
def opEpochNotice : Nat := 0x38
def opRouteNotice : Nat := 0x39
def opJoin : Nat := 0x3A
def opJoinAck : Nat := 0x3B

/-- The payload range of a listed opcode; none for a reserved one (R91). -/
def opRange (op : Nat) : Option (Nat × Nat) :=
  if op = 0x01 ∨ op = 0x03 ∨ op = 0x04 ∨ op = 0x20 ∨ op = 0x21 ∨ op = 0x28 ∨ op = 0x30 then some (0, 4096)
  else if op = 0x02 ∨ op = 0x12 ∨ op = 0x13 ∨ op = 0x14 ∨ op = 0x38 then some (16, 16)
  else if op = 0x05 then some (32, 32)
  else if op = 0x08 then some (8, 64)
  else if op = 0x09 ∨ op = 0x31 then some (8, 8)
  else if op = 0x10 then some (8, 32)
  else if op = 0x11 then some (8, 16)
  else if op = 0x39 then some (0, 256)
  else if op = 0x3A ∨ op = 0x3B then some (64, 64)
  else none

/-- Whether an opcode travels in the response set (Table 03-5); a reserved one counts as a request (R91). -/
def opResponse (op : Nat) : Bool :=
  op == 0x03 || op == 0x08 || op == 0x09 || op == 0x11 || op == 0x13 || op == 0x21 || op == 0x31 || op == 0x3B

/-- JOIN, JOIN_ACK, ROUTE_NOTICE and EPOCH_NOTICE: sent on one named unit and never routed (R608). -/
def opUnitBound (op : Nat) : Bool := op == 0x38 || op == 0x39 || op == 0x3A || op == 0x3B

/-- The format check at the destination: a reserved opcode, a LEN outside the opcode's range (R91), or a PUT,
GET_RSP or SEND packet with LAST clear and LEN other than 4,096 (R79). -/
def formatBad (p : Pkt) : Bool :=
  match opRange p.op with
  | none => true
  | some (lo, hi) =>
    !(decide (lo ≤ p.len) && decide (p.len ≤ hi))
      || ((p.op == opPut || p.op == opGetRsp || p.op == opSend) && !hasFlag p flLast && p.len != 4096)

/-! ### This device -/

/-- The device ID (R69, R70). -/
def selfId (s : State) : Nat := rd s F.topDeviceIdId
def selfMember (s : State) : Nat := selfId s % 64
def selfGroup (s : State) : Nat := selfId s / 64

/-- The start VC of a packet: the set of its class and the start hop class of its TC (R92, R93). -/
def startVc (s : State) (tc op : Nat) : Nat :=
  if opResponse op then 4 + rd s F.rtTcMapRsp 0 tc else rd s F.rtTcMapReq 0 tc

/-- A packet of this device with HOP and AGE 0 (R87, R89), sealed. -/
def mkPkt (s : State) (dst tc op ec flags off psn key msgid : Nat) (payload : List Byte) : Pkt :=
  sealPkt
    { dst := dst % 2 ^ 18, src := selfId s, tc := tc % 8, vc := startVc s (tc % 8) op, hop := 0, age := 0,
      flags := flags, op := op, len := payload.length, ec := ec % 2 ^ 20, hcrc := 0, off := off % 2 ^ 46,
      psn := psn % 2 ^ 18, key := key % 2 ^ 32, msgid := msgid % 2 ^ 24, payload := payload, e2e := 0, stomp := 0 }

end Sys2Proof.Machine
end

