-- ==== Sys2Proof/Machine/Wfq.lean ====
section
/-!
DEFINITION. Machine/Wfq.lean: the weighted fair queueing of R482: start and finish tags, 48 bits wide and compared
modulo 2^48.
-/

namespace Sys2Proof.Machine

/-- Tag a comes before tag b, modulo 2^48 (R482). -/
def tagLt (a b : Nat) : Bool :=
  let d := (b + 2 ^ 48 - a % 2 ^ 48) % 2 ^ 48
  d != 0 && decide (d < 2 ^ 47)

/-- The later of two tags. -/
def tagMax (a b : Nat) : Nat := if tagLt a b then b else a

/-- The finish tag of a packet of L bytes (or cells, or slices) that becomes the head: S = max(V, F_prev),
F = S + L * 256 / w, the division rounded down (R482). -/
def finishTag (v fprev l w : Nat) : Nat := (tagMax v fprev + l * 256 / w) % 2 ^ 48

/-- The index of the least tag, the first of equals in the list's order. -/
def leastTag {α : Type} : List (Nat × α) → Option (Nat × α)
  | [] => none
  | a :: t =>
    match leastTag t with
    | none => some a
    | some b => if tagLt b.1 a.1 then some b else some a

end Sys2Proof.Machine
end

