-- ==== Sys2Proof/Machine/Switch.lean ====
section
/-!
DEFINITION. Machine/Switch.lean: what the switch core does (06): where a packet is stored, its cells and the account
each belongs to (R180, R181), virtual output queues (R173), eligibility (R174), matching (R176, R177), bindings
(R178), crossing of cells, congestion marks (R185), stomping (R186) and the release of credits (R148).
-/

namespace Sys2Proof.Machine

/-- Element i of a list of numbers, zero beyond its end. -/
def nth (l : List Nat) (i : Nat) : Nat := l.getD i 0

/-- A list of numbers with element i raised by n, modulo m. -/
def addAt (l : List Nat) (i n m : Nat) : List Nat := l.set i ((nth l i + n) % m)

/-- The register index of a port's unit: P(2i) for a trunked pair (R69 and the start of 05). -/
def unitOf (s : State) (p : Nat) : Nat := if s.txn.arm.trunked then p / 2 * 2 else p

/-- Tile of an input (0 to 127 fabric, 128 to 135 the injection ports of T0 to T7). -/
def tileOf (inp : Nat) : Nat := if inp < 128 then inp / 8 else inp - 128

/-- Tile of an output (0 to 127 fabric, 128 to 135 the ejection ports of T8 to T15). -/
def outTile (o : Nat) : Nat := if o < 128 then o / 8 else o - 120

/-- The link of a port unit. -/
def linkOf (s : State) (p : Nat) : LinkSt := mgetD s.links p {}

/-- The state with a link replaced. -/
def setLink (s : State) (p : Nat) (l : LinkSt) : State := { s with links := mset s.links p l }

/-- Link state codes of Table 05-4. -/
def lsDown : Nat := 0
def lsInit : Nat := 1
def lsUp : Nat := 2
def lsRecover : Nat := 3
def lsDrain : Nat := 4
def lsHeld : Nat := 5
def lsTest : Nat := 6

/-- LL_STAT.STATE of a port unit. -/
def linkState (s : State) (p : Nat) : Nat := rd s F.llStatState p

/-- The switch's record of a tile. -/
def tileSt (s : State) (t : Nat) : TileSt := mgetD s.sw.tiles t {}

def setTile (s : State) (t : Nat) (x : TileSt) : State := { s with sw := { s.sw with tiles := mset s.sw.tiles t x } }

def setPkt (s : State) (id : Nat) (p : SwPkt) : State := { s with sw := { s.sw with pkts := mset s.sw.pkts id p } }

def delPkt (s : State) (id : Nat) : State := { s with sw := { s.sw with pkts := mdel s.sw.pkts id } }

/-! ### Accounts -/

/-- Cells of a packet that its last reader has copied: those every copy has passed (R171, R184). -/
def freedCells (p : SwPkt) : Nat :=
  if !p.routed then 0
  else p.copies.foldl (fun n c => min n (if c.done then p.cells.length else c.sent)) p.cells.length

/-- Of the cells with numbers from a to below b, those that a bank failure has not freed already, with whether each is adopted. -/
def cellsIn (p : SwPkt) (a b : Nat) : List Bool :=
  (((p.adopted.zipIdx.take b).drop a).filter fun e => !p.lost.contains e.2).map (·.1)

/-- Cells of a packet still held, with whether each is adopted. -/
def heldCells (p : SwPkt) : List Bool := cellsIn p (freedCells p) p.adopted.length

/-- Cells of a packet that the pool holds. -/
def poolCells (p : SwPkt) : Nat := ((heldCells p).filter id).length

/-- Cells of a packet that its reserved or injection account holds. -/
def acctCells (p : SwPkt) : Nat := ((heldCells p).filter (!·)).length

/-- A sum over the stored packets of a tile. -/
def tileSum (s : State) (t : Nat) (f : SwPkt → Nat) : Nat :=
  s.sw.pkts.foldl (fun n e => if tileOf e.2.inp = t then n + f e.2 else n) 0

/-- Banks that shrink the pool (R180, R191): failed banks of B0 to B23 beyond the one that B24 replaces, and B24 when it failed while it
replaced none. -/
def banksLost (s : State) (t : Nat) : Nat :=
  let failed := ((List.range 24).filter (bitAt (rd s F.swBankFailed t))).length
  failed - bit (rdb s F.swBankSpareUsed t) + bit (tileSt s t).spareLost

/-- RES of a port and VC: the value advertised at the link's last INIT; before its first, the one that BUILD laid out (R180, R196). -/
def resOf (s : State) (p v : Nat) : Nat :=
  let l := linkOf s p
  if l.resNow.isEmpty then nth (s.txn.resBuilt.getD (p / 8) []) v * (if s.txn.arm.trunked then 2 else 1) else nth l.resNow v

/-- Reserved cells of a tile: 8 ports (or 4 trunked units) by 8 VCs. -/
def reservedCells (s : State) (t : Nat) : Nat :=
  let ports := if s.txn.arm.trunked then [0, 2, 4, 6] else List.range 8
  ports.foldl (fun n i => (List.range 8).foldl (fun n v => n + resOf s (8 * t + i) v) n) 0

/-- Injection cells of a tile: T0 to T7 only. -/
def injectCells (s : State) (t : Nat) : Nat := if t < 8 then 4 * s.txn.arm.iresReq + 4 * s.txn.arm.iresRsp else 0

/-- Pool size of a tile (R180). -/
def poolSize (s : State) (t : Nat) : Nat := 24576 - reservedCells s t - injectCells s t - 1024 * banksLost s t

/-- Pool cells in use. -/
def poolUsed (s : State) (t : Nat) : Nat := tileSum s t poolCells

/-- Whether a packet is multicast. -/
def isMc (p : SwPkt) : Bool := p.hdr.op == opMcPut

/-- Cells held by multicast packets in a tile (R184). -/
def mcUsed (s : State) (t : Nat) : Nat := tileSum s t fun p => if isMc p then (heldCells p).length else 0

/-- Adopted cells of an input and VC. -/
def adoptedOf (s : State) (inp v : Nat) : Nat :=
  s.sw.pkts.foldl (fun n e => if e.2.inp = inp ∧ e.2.hdr.vc = v then n + poolCells e.2 else n) 0

/-- Cells of an input and VC in its reserved (or injection) account. -/
def acctOf (s : State) (inp v : Nat) : Nat :=
  s.sw.pkts.foldl (fun n e => if e.2.inp = inp ∧ e.2.hdr.vc = v then n + acctCells e.2 else n) 0

/-- Cells of the tile's pool for an output. -/
def poolFor (s : State) (t o : Nat) : Nat :=
  tileSum s t fun p => if p.copies.any (fun c => c.outp == o && !c.done) then poolCells p else 0

/-- Whether the next cell of a packet may be adopted (R181). -/
def adoptOk (s : State) (p : SwPkt) : Bool :=
  let t := tileOf p.inp
  decide (poolUsed s t < poolSize s t)
    && decide (adoptedOf s p.inp p.hdr.vc < s.txn.arm.shrMax)
    && (!p.routed || p.copies.all fun c => c.done || decide (poolFor s t c.outp < s.txn.arm.oqMax))
    && (!isMc p || decide (mcUsed s t < s.txn.arm.mcMax))

/-- Credits of released cells returned on the input's link (R148): nothing for an injection port. -/
def returnCredit (s : State) (inp v n : Nat) : State :=
  if n = 0 ∨ 128 ≤ inp then s
  else
    let l := linkOf s inp
    setLink s inp { l with freed := addAt l.freed v n (2 ^ 16), news := true }

/-- A packet replaced: cells that this frees leave their account, and a packet with nothing left to read is gone.
The credits of cells freed from a reserved account are returned. -/
def updatePkt (s : State) (id : Nat) (old new : SwPkt) : State :=
  let freed := cellsIn { new with adopted := old.adopted } (freedCells old) (freedCells new)
  let s := returnCredit s old.inp old.hdr.vc ((freed.filter (!·)).length)
  if new.routed && new.copies.all (·.done) && decide (new.flits ≤ new.cells.length) then delPkt s id
  else setPkt s id new

/-- A cell handed over by the input (R181): adopted, which returns its credit, or kept in the reserved account, which
counts in ADOPT_DENY.  Cells of a packet whose every copy is done are freed on arrival. -/
def storeCell (s : State) (id : Nat) (c : Flit) : State :=
  match mget s.sw.pkts id with
  | none => s
  | some p =>
    let s := pmCount s 0x30 (tileOf p.inp) 1 1
    if p.routed && p.copies.all (·.done) then
      let s := returnCredit s p.inp p.hdr.vc 1
      let p := { p with cells := p.cells ++ [c], adopted := p.adopted ++ [true] }
      if decide (p.flits ≤ p.cells.length) then delPkt s id else setPkt s id p
    else
      let a := if 128 ≤ p.inp then !p.inAccount else adoptOk s p && !(tileSt s (tileOf p.inp)).pausedMatch
      let s := if 128 ≤ p.inp then s
        else if a then returnCredit s p.inp p.hdr.vc 1
        else inc s F.swCnt1AdoptDeny 1 (tileOf p.inp)
      setPkt s id { p with cells := p.cells ++ [c], adopted := p.adopted ++ [a] }

/-! ### Virtual output queues -/

/-- Key of an input and output pair. -/
def pairKey (i o : Nat) : Nat := i * 136 + o

/-- Key of a VOQ: input, output, VC. -/
def voqKey (i o v : Nat) : Nat := pairKey i o * 8 + v

/-- Cells a tile holds for an output and VC, not yet crossed (R185). -/
def cellsFor (s : State) (t o v : Nat) : Nat :=
  tileSum s t fun p => p.copies.foldl
    (fun n c => if c.outp = o ∧ c.vc = v ∧ !c.done then n + (p.cells.length - c.sent) else n) 0

/-- Cells queued in all tiles for an output on the VCs of a set (depth of R205). -/
def depthOf (s : State) (o : Nat) (rsp : Bool) : Nat :=
  s.sw.pkts.foldl (fun n e => e.2.copies.foldl
    (fun n c => if c.outp = o ∧ !c.done ∧ decide (4 ≤ c.vc) = rsp then n + (e.2.cells.length - c.sent) else n) n) 0

/-- A packet put on the VOQs of its outputs, with the mark of R185: on VC0 to VC3, when the cells its tile already
holds for the output and VC and its own flits exceed the threshold. -/
def enqueue (s : State) (id : Nat) (p : SwPkt) (outs : List (Nat × Nat)) : State :=
  let t := tileOf p.inp
  let excess := outs.any fun o =>
    decide (o.2 < 4) && decide (nth s.txn.arm.ceThr o.2 < cellsFor s t o.1 o.2 + p.flits)
  let copies := outs.map fun o => (⟨o.1, o.2, 0, false, 0, false, false⟩ : Copy)
  let s := if excess && !p.marked then inc (pmCount s 0x30 t 3 1) F.swCnt0CeMarks 1 t else s
  let s := { s with sw := { s.sw with next := s.sw.next + 1 } }
  setPkt s id { p with copies := copies, routed := true, marked := p.marked || excess, order := s.sw.next }

/-- The copy of a packet towards an output that waits unbound. -/
def waitingCopy (p : SwPkt) (o : Nat) : Option Copy := p.copies.find? fun c => c.outp == o && !c.done && !c.bound

/-- The packet at the head of a VOQ: the earliest queued whose copy is not done; none while it is bound. -/
def voqHead (s : State) (i o v : Nat) : Option (Nat × SwPkt) :=
  let l := s.sw.pkts.filter fun e => e.2.inp == i && e.2.copies.any fun c => c.outp == o && c.vc == v && !c.done
  match l.foldl (fun (b : Option (Nat × SwPkt)) e => match b with
    | none => some e
    | some x => if e.2.order < x.2.order then some e else some x) none with
  | some e => if e.2.copies.any (fun c => c.outp == o && c.bound) then none else some e
  | none => none

/-- Cells taken in an ejection port's receive buffer: packets handed over but not yet taken in, and packets bound
to the port (R609). -/
def ejectUsed (s : State) (o : Nat) : Nat :=
  (s.sw.handed.filter (·.1 == o)).foldl (fun n e => n + flitsOf e.2.len) 0
    + s.sw.pkts.foldl (fun n e => e.2.copies.foldl (fun n c => if c.outp = o ∧ c.bound then n + e.2.flits else n) n) 0

/-- Credits available to an output for a VC: avail = INIT_CRED + CRED - used, modulo 2^16 (R145). -/
def availOf (l : LinkSt) (v : Nat) : Nat := (nth l.initCred v + nth l.credIn v + 2 ^ 16 - nth l.used v) % 2 ^ 16

/-- Flits of a link's window: sent or handed over and not acknowledged (R143). -/
def windowOf (l : LinkSt) : Nat := l.replay.length + l.txq.length

/-- The largest window of a port unit (R143). -/
def windowMax (s : State) : Nat := if s.txn.arm.trunked then 33792 else 16896

/-- Whether an output can take a packet head (R174). -/
def outRoom (s : State) (o : Nat) (v flits : Nat) : Bool :=
  if o < 128 then
    let l := linkOf s o
    linkState s o == lsUp && decide (flits ≤ availOf l v)
  else decide (flits + ejectUsed s o ≤ 66)

/-- Whether an output is bound to a packet. -/
def outBound (s : State) (o : Nat) : Bool := s.sw.pkts.any fun e => e.2.copies.any fun c => c.outp == o && c.bound

/-- Whether an input is bound to an output. -/
def inBound (s : State) (i : Nat) : Bool := s.sw.pkts.any fun e => e.2.inp == i && e.2.copies.any (·.bound)

/-- Age a packet carries on its next link: arrival age and residence, rounded up, plus 1 (R87). -/
def nextAge (s : State) (p : SwPkt) : Nat := min 1023 (p.hdr.age + ceilDiv (s.timeNs - p.arriveAt) 1000 + 1)

/-- One copy of a packet changed. -/
def mapCopy (p : SwPkt) (o : Nat) (f : Copy → Copy) : SwPkt :=
  { p with copies := p.copies.map fun c => if c.outp == o && !c.done then f c else c }

/-- One copy of a packet dropped: its references to the cells are released; of this device's own packets the transport learns that the copy
never left (Table 08-7). -/
def dropCopy (s : State) (id : Nat) (p : SwPkt) (o : Nat) : State :=
  let stayed := decide (128 ≤ p.inp) && p.copies.any fun c => c.outp == o && !c.done && c.sent == 0
  let s := if stayed then { s with notices := s.notices ++ [.neverLeft p.hdr.msgid p.hdr.psn] } else s
  updatePkt s id p (mapCopy p o fun c => { c with done := true, bound := false })

/-- Weight of a VC at the port scheduler; 0 acts as 1 (SC_VC_W); equal weights while SC is fenced (R515). -/
def vcWeight (s : State) (v : Nat) : Nat := if blockFenced s 0xB0 0 then 1 else max 1 (rd s F.scVcWW 0 v)

/-- The head's finish tag in a VOQ, fixed when the packet became the head (R482, R485). -/
def headTag (s : State) (i o v id flits : Nat) : Nat :=
  match mget s.sw.vcHead (voqKey i o v) with
  | some (id', t) => if id' = id then t else
      finishTag (mgetD s.sw.vcTime (pairKey i o) 0) (mgetD s.sw.vcPrev (voqKey i o v) 0) flits (vcWeight s v)
  | none => finishTag (mgetD s.sw.vcTime (pairKey i o) 0) (mgetD s.sw.vcPrev (voqKey i o v) 0) flits (vcWeight s v)

/-- The tags of the heads of every VOQ fixed, so that later changes of V leave them (R482). -/
def fixTags (s : State) : State :=
  s.sw.pkts.foldl (fun s e => e.2.copies.foldl (fun s c =>
    if c.done || c.bound then s
    else match voqHead s e.2.inp c.outp c.vc with
      | some h =>
        if h.1 = e.1 then
          let t := headTag s e.2.inp c.outp c.vc e.1 e.2.flits
          { s with sw := { s.sw with vcHead := mset s.sw.vcHead (voqKey e.2.inp c.outp c.vc) (e.1, t) } }
        else s
      | none => s) s) s

/-- The head that an input would send to an output: among its VCs with an eligible head, by R482 (R176, R485). -/
def inputChoice (s : State) (i o : Nat) : Option (Nat × SwPkt × Nat) :=
  let cands := (List.range 8).filterMap fun v =>
    match voqHead s i o v with
    | some (id, p) =>
      if !p.cells.isEmpty && outRoom s o v p.flits && !(tileSt s (tileOf i)).pausedMatch
          && !(tileSt s (outTile o)).pausedMatch then
        some (headTag s i o v id p.flits, (id, p, v))
      else none
    | none => none
  (leastTag cands).map (·.2)

/-- The inputs and outputs of the switch that hold or could take something. -/
def activeInputs (s : State) : List Nat := (s.sw.pkts.map (·.2.inp)).eraseDups

/-- The outputs that some stored packet waits for. -/
def activeOutputs (s : State) : List Nat :=
  ((s.sw.pkts.flatMap fun e => (e.2.copies.filter fun c => !c.done && !c.bound).map (·.outp))).eraseDups

/-- The first party at or after a pointer, wrapping at 136. -/
def atOrAfter (ptr : Nat) (l : List Nat) : Option Nat :=
  l.foldl (fun (b : Option Nat) x => match b with
    | none => some x
    | some y => if (x + 136 - ptr) % 136 < (y + 136 - ptr) % 136 then some x else some y) none

/-- Of parties with a level, those of level H when there are any, else all (R176). -/
def topLevel (l : List (Nat × Bool)) : List Nat :=
  let h := (l.filter (·.2)).map (·.1)
  if h.isEmpty then l.map (·.1) else h

/-- A head matched to an output: its age judged just before the debit and the packet dropped and counted when it
would exceed 1,000 (R88, R174), else credit debited for every flit and the pair bound (R146, R178). -/
def matchHead (s : State) (i o : Nat) : State :=
  match inputChoice s i o with
  | none => s
  | some (id, p, v) =>
    let t := headTag s i o v id p.flits
    let vt := mset s.sw.vcTime (pairKey i o) t
    let s := { s with sw := { s.sw with vcTime := vt, vcPrev := mset s.sw.vcPrev (voqKey i o v) t } }
    if decide (o < 128) && decide (1000 < p.hdr.age + ceilDiv (s.timeNs - p.arriveAt) 1000 + 1) then
      dropCopy (inc s F.rtPktDrop0Age) id p o
    else
      let s := if o < 128 then
          let l := linkOf s o
          setLink s o { l with used := addAt l.used v p.flits (2 ^ 16) }
        else s
      setPkt s id (mapCopy p o fun c => { c with bound := true, cellAt := s.timeNs })

/-- One iteration of request, grant and accept over the unbound inputs and outputs (R176); the pointers move only on
an acceptance in the first iteration (R177). -/
def matchRound (first : Bool) (s : State) : State :=
  let ins := (activeInputs s).filter fun i => !inBound s i
  let outs := (activeOutputs s).filter fun o => !outBound s o
  let grants := outs.filterMap fun o =>
    let reqs := ins.filterMap fun i => (inputChoice s i o).map fun x => (i, x.2.1.hdr.tc == 7)
    (atOrAfter (mgetD s.sw.grant o 0) (topLevel reqs)).map fun i => (i, o, reqs.any fun r => r.1 == i && r.2)
  ins.foldl (fun s i =>
    match atOrAfter (mgetD s.sw.accept i 0) (topLevel ((grants.filter (·.1 == i)).map fun g => (g.2.1, g.2.2))) with
    | none => s
    | some o =>
      let s := matchHead s i o
      if first then
        let g := mset s.sw.grant o ((i + 1) % 136)
        { s with sw := { s.sw with grant := g, accept := mset s.sw.accept i ((o + 1) % 136) } }
      else s) s

/-- The header that an output writes at transmission: HOP + 1, the new AGE, the VC of the output, CE when marked,
and a new HCRC (R82, R87, R89, R202). -/
def txHeader (s : State) (p : SwPkt) (c : Copy) : Pkt :=
  let h := { p.hdr with vc := c.vc, flags := if p.marked then Nat.lor p.hdr.flags flCe else p.hdr.flags }
  let h := if c.outp < 128 then { h with hop := (h.hop + 1) % 16, age := nextAge s p } else h
  { h with hcrc := hcrcOf h }

/-- A head flit with its header rewritten. -/
def patchHead (h : Pkt) (f : Flit) : Flit := hdrBytes h ++ f.drop 32

/-- The last flit of a stomped packet: zeros, the inverted check and STOMP 0xA5 in the trailer's place (R86, R186). -/
def stompFlit (h : Pkt) (f : Flit) : Flit :=
  let pos := (32 + 8 * ceilDiv h.len 8) % 128
  let crc := ofBytes ((f.drop pos).take 4)
  f.take pos ++ toBytes 4 (Nat.xor crc 0xFFFFFFFF) ++ [0xA5] ++ f.drop (pos + 5)

/-- A zero flit. -/
def zeroFlit : Flit := List.replicate 128 0

/-- A flit handed to an output link's replay buffer (R141, R171); one of a packet that the link has given up is discarded (R88, R166). -/
def pushTx (s : State) (o id : Nat) (p : SwPkt) (c : Copy) (h : Pkt) (f : Flit) (head last : Bool) : State :=
  let l := linkOf s o
  if l.gone.contains id then (if last then setLink s o { l with gone := l.gone.erase id } else s)
  else
  let own := decide (128 ≤ p.inp)
  let req := h.op == opPut || h.op == opGetReq || h.op == opSend || h.op == opSendRts || h.op == opAtomic || h.op == opLock
  setLink s o { l with txq := l.txq ++
    [⟨f, c.vc, id, head, p.flits, own, own && req, h.ec, h.msgid, h.psn, p.arriveAt, p.hdr.age⟩] }

/-- A packet that crossed an ejection port whole is handed to the TP channel of its EC (R609); one with a reserved opcode
has no owner and is discarded as the destination's checks name it, AGE first (R88, R91, R96). -/
def handOver (s : State) (o : Nat) (h : Pkt) (fs : List Flit) : State :=
  if (opRange h.op).isNone then inc s (if 1000 < h.age then F.rtPktDrop0Age else F.rtPktDrop1Format)
  else
  let fs := match fs with
    | [] => []
    | f :: t => patchHead h f :: t
  { s with sw := { s.sw with handed := s.sw.handed ++ [(o, pktOf fs)] } }

/-- The first n flits of a packet as an ejection port carries them: those that cannot be supplied as zeros (R186). -/
def ejected (p : SwPkt) (n : Nat) : List Flit :=
  (p.cells.zipIdx.take n).map fun e => if p.bad.contains e.2 || p.lost.contains e.2 then zeroFlit else e.1

/-- The packet's next cell moved across its binding (R178): the head with its new header, a later cell as it is.  A cell that cannot be
read, or that a lost input will not bring, goes as a zero flit, and a packet with one such cell ends with a stomped trailer (R186).  The
binding ends with the last. -/
def crossCell (s : State) (id : Nat) (p : SwPkt) (c : Copy) : State :=
  let o := c.outp
  let h := txHeader s p c
  let cell := p.cells[c.sent]?
  let bad := cell.isNone || p.bad.contains c.sent || p.lost.contains c.sent
  if cell.isNone && !p.inputLost then s
  else if !(decide (128 ≤ o) || decide (windowOf (linkOf s o) < windowMax s)) then s
  else
    let last := decide (c.sent + 1 = p.flits)
    let stomped := c.stomped || bad
    let raw := if bad then zeroFlit else cell.getD zeroFlit
    let f := if c.sent = 0 then patchHead h raw else raw
    let f := if last && stomped then stompFlit h f else f
    let s := if bad && !c.stomped then inc s F.swCnt0Stomps 1 (outTile o) else s
    let p' := if cell.isSome then p
      else { p with cells := p.cells ++ [zeroFlit], adopted := p.adopted ++ [true], lost := p.lost ++ [c.sent] }
    let s := if o < 128 then pushTx s o id p c h f (c.sent == 0) last
      else if last then handOver s o h (ejected p (p.flits - 1) ++ [f]) else s
    updatePkt s id p' (mapCopy p' o fun c =>
      { c with sent := c.sent + 1, bound := !last, done := last, stomped := stomped, cellAt := s.timeNs })

/-- The bound copies that satisfy a test carry their packets' next cells. -/
def crossWhere (s : State) (f : SwPkt → Copy → Bool) : State :=
  s.sw.pkts.foldl (fun s e =>
    e.2.copies.foldl (fun s c =>
      match mget s.sw.pkts e.1 with
      | none => s
      | some p =>
        match p.copies.find? fun c' => c'.outp == c.outp && c'.bound with
        | some c' => if f p c' then crossCell s e.1 p c' else s
        | none => s) s) s

/-- Every bound pair carries its packet's next cell (R178), and a pair of trunked units a second one in the same epoch (R179). -/
def crossAll (s : State) : State :=
  let s := crossWhere s fun _ _ => true
  if s.txn.arm.trunked then crossWhere s fun p c => decide (p.inp < 128 ∧ c.outp < 128) else s

/-- One copy stomped and ended at once on its output: the flits up to the count of LEN follow as zeros with a stomped
trailer, credit having been debited for every flit (R186, R187). -/
def stompNow (s : State) (id o : Nat) : State :=
  match mget s.sw.pkts id with
  | none => s
  | some p =>
    match p.copies.find? fun c => c.outp == o && c.bound with
    | none => s
    | some c =>
      let h := txHeader s p c
      let n := p.flits - c.sent
      let s := if c.stomped then s else inc s F.swCnt0Stomps 1 (outTile o)
      let s := if o < 128 then (List.range n).foldl (fun s k =>
          pushTx s o id p c h (if k + 1 = n then stompFlit h zeroFlit else zeroFlit) (c.sent + k == 0) (k + 1 == n)) s
        else handOver s o h (ejected p c.sent ++ List.replicate (n - 1) zeroFlit ++ [stompFlit h zeroFlit])
      updatePkt s id p (mapCopy p o fun c => { c with bound := false, done := true, stomped := true })

/-- A packet accepted from an injection port: its cells come from the injection account when it can take them all,
else from the pool (R180). -/
def injectPkt (s : State) (k : Nat) (p : Pkt) (outs : List (Nat × Nat)) (acct unitBound : Bool) : State :=
  let id := s.sw.next
  let sp : SwPkt :=
    { inp := 128 + k, hdr := p, arriveAt := s.timeNs, flits := flitsOf p.len, cells := pktFlits p,
      adopted := List.replicate (flitsOf p.len) (!acct), bad := [], lost := [], inputLost := false, routed := false,
      unitBound := unitBound, marked := false, inAccount := acct, copies := [], order := id }
  let s := { s with sw := { s.sw with next := id + 1 } }
  enqueue (emit s (.inject k p)) id sp outs

/-- Whether an injection port's account for a VC can take a packet, or the pool can, all of its cells being adopted under R181 (R180). -/
def injectAccount (s : State) (k v flits : Nat) (mc : Bool) : Option Bool :=
  let size := if v < 4 then s.txn.arm.iresReq else s.txn.arm.iresRsp
  if acctOf s (128 + k) v + flits ≤ size then some true
  else if (tileSt s k).pausedMatch = false ∧ poolUsed s k + flits ≤ poolSize s k ∧ adoptedOf s (128 + k) v + flits ≤ s.txn.arm.shrMax
      ∧ (mc = false ∨ mcUsed s k + flits ≤ s.txn.arm.mcMax) then some false
  else none

end Sys2Proof.Machine
end

