-- ==== Sys2Proof/Machine/Route.lean ====
section
/-!
DEFINITION. Machine/Route.lean: the routing unit (07): port roles and wiring (R72 to R75), the member and group tables
(R199, R200), the choice of an output (R202 to R206), re-routing (R215), ROUTE_SETTLING (R216), notices (R201) and
joining (R219).
-/

namespace Sys2Proof.Machine

/-! ### Port roles (Table 03-1) -/

/-- Role of a port unit: 0 local, 1 edge unit, 2 global. -/
def roleOf (s : State) (p : Nat) : Nat :=
  if s.txn.arm.trunked then (if p / 2 < 31 then 0 else if p / 2 = 31 then 1 else 2)
  else if p < 63 then 0 else if p = 63 then 1 else 2

/-- Unit number of a port within its role. -/
def unitNo (s : State) (p : Nat) : Nat :=
  if s.txn.arm.trunked then (if p / 2 < 31 then p / 2 else if p / 2 = 31 then 0 else p / 2 - 32)
  else if p < 63 then p else if p = 63 then 0 else p - 64

/-- The port of a local unit. -/
def localPort (s : State) (u : Nat) : Nat := if s.txn.arm.trunked then 2 * u else u

/-- The port of a global unit. -/
def globalPort (s : State) (u : Nat) : Nat := if s.txn.arm.trunked then 2 * (u + 32) else u + 64

/-- The port of the edge unit. -/
def edgePort (s : State) : Nat := if s.txn.arm.trunked then 62 else 63

/-- Local and global units of a member. -/
def localUnits (s : State) : Nat := if s.txn.arm.trunked then 31 else 63
def globalUnits (s : State) : Nat := if s.txn.arm.trunked then 32 else 64

/-- The registers' port units. -/
def portUnits (s : State) : List Nat :=
  if s.txn.arm.trunked then (List.range 64).map (2 * ·) else List.range 128

/-- M, the members of a group; G, the groups. -/
def members (s : State) : Nat := s.txn.arm.members
def groupsNo (s : State) : Nat := s.txn.arm.groups

/-- The unit from member a to member b: (b - a - 1) mod M (R72, R199). -/
def unitTo (m a b : Nat) : Nat := if m = 0 then 0 else (b + 2 * m - a - 1) % m

/-- Whether the edge unit is in edge use, or in peer use (R73). -/
def edgeUse (s : State) : Bool := s.txn.arm.p63Use == 1
def peerUse (s : State) : Bool := s.txn.arm.p63Use == 2

/-- Whether an EC of this device leaves on the edge unit (R76). -/
def edgeEc (s : State) (ec : Nat) : Bool := edgeUse s && decide (0xFF000 ≤ ec)

/-- The wiring check in the order of R75: what the partner reported against this unit's place.  A router's edge unit that meets the edge
unit in edge use breaks no rule but DUP_ID.  Of the edge unit in peer use R75 names no code for a partner at a wrong place: LOCAL_RULE, as
for a local unit (DESIGN CHOICE, log entry 104). -/
def wiringCheck (s : State) (p pRole pPort pDev : Nat) : Nat :=
  let role := roleOf s p
  let m := members s
  let u := unitNo s p
  let pUnit := if s.txn.arm.trunked then pPort / 2 % 32 else if pPort < 64 then pPort else pPort - 64
  if (role == 0 && decide (m ≤ u + 1)) || (role == 1 && s.txn.arm.p63Use == 0) then 7
  else if role == 1 && edgeUse s then (if pRole = 3 then 6 else if pRole ≠ 1 then 4 else if pDev = selfId s then 5 else 1)
  else if pRole = 3 then 4
  else if role != pRole then 4
  else if pDev = selfId s then 5
  else if role == 2 then (if pDev / 64 = selfGroup s then 3 else 1)
  else if role == 1 then
    if pDev / 64 = selfGroup s ∧ pDev % 64 = (selfMember s + m / 2) % m then 1 else 2
  else if pDev / 64 = selfGroup s ∧ pDev % 64 = (selfMember s + u + 1) % m ∧ pUnit = m - 2 - u then 1
  else 2

/-! ### Live units -/

/-- Whether a port unit is UP for routing: UP, RECOVER or DRAIN (Table 05-4). -/
def linkUp (s : State) (p : Nat) : Bool :=
  linkState s p == lsUp || linkState s p == lsRecover || linkState s p == lsDrain

/-- Whether a unit is live: UP and joined (R199, R219). -/
def liveUnit (s : State) (p : Nat) : Bool := linkUp s p && s.rt.joined.contains p

/-- LIVE of a member in RT_MBR (R199): its local unit, and not the edge unit in peer use. -/
def memberLive (s : State) (m : Nat) : Bool := liveUnit s (localPort s (unitTo (members s) (selfMember s) m))

/-- Whether a port is masked in RT_PORT_MASK (R215). -/
def maskedPort (s : State) (p : Nat) : Bool := bitAt (rd s F.rtPortMaskMask (p / 64)) (p % 64)

/-- Whether a port is in DRAIN, or in RECOVER on its way there (R159). -/
def inDrain (s : State) (p : Nat) : Bool := linkState s p == lsDrain || (linkOf s p).draining

/-- Live, not masked, not in DRAIN (R206). -/
def usableUnit (s : State) (p : Nat) : Bool := liveUnit s p && !maskedPort s p && !inDrain s p

/-- The partner of a port as RT_PARTNER reports it. -/
def partnerId (s : State) (p : Nat) : Nat := rd s F.rtPartnerPartnerId p

/-- The local units that reach a member of the own group: the unit of R72, and the edge unit in peer use. -/
def portsTo (s : State) (m : Nat) : List Nat :=
  let mm := members s
  let u := unitTo mm (selfMember s) m
  [localPort s u] ++ (if peerUse s && mm % 2 == 0 && m == (selfMember s + mm / 2) % mm then [edgePort s] else [])

/-- The unit number that a port counts as in R205: the edge unit in peer use counts as local unit M/2 - 1. -/
def orderUnit (s : State) (p : Nat) : Nat := if roleOf s p = 1 then members s / 2 - 1 else unitNo s p

/-- R205: having arrived on local unit v, a packet may take a local unit only above M - 2 - v. -/
def r205 (s : State) (inp p : Nat) : Bool :=
  if roleOf s p = 2 ∨ 128 ≤ inp ∨ roleOf s inp = 2 ∨ (roleOf s inp = 1 ∧ edgeUse s) then true
  else decide (members s < orderUnit s p + 2 + orderUnit s inp)

/-- The live gateways listed for a group: (member, unit). -/
def listedGateways (s : State) (g : Nat) : List (Nat × Nat × Bool) :=
  (List.range 4).filterMap fun n =>
    if rdb s F.rtGrpListed g n then some (rd s F.rtGrpMember g n, rd s F.rtGrpUnit g n, rdb s F.rtGrpLive g n) else none

/-- Rmin of the device at the other end of a candidate's link (Table 07-2). -/
def rmin (s : State) (dst p : Nat) : Nat :=
  let far := if roleOf s p = 2 then partnerId s p
    else if roleOf s p = 1 then selfGroup s * 64 + (selfMember s + members s / 2) % (members s)
    else selfGroup s * 64 + (selfMember s + unitNo s p + 1) % (members s)
  if far = dst then 0
  else if far / 64 = dst / 64 then 1
  else if far / 64 = selfGroup s ∧ (listedGateways s (dst / 64)).any (fun g => g.1 == far % 64 && g.2.2) then 2
  else 3

/-- The link budget (R203): HOP, 1 for the candidate's link, and Rmin. -/
def budget (s : State) (h : Pkt) (p limit : Nat) : Bool := decide (h.hop + 1 + rmin s h.dst p ≤ limit)

/-- The hop class of a packet. -/
def hopClass (h : Pkt) : Nat := h.vc % 4

/-- Global links crossed: the class less the start class, not below 0 (07). -/
def crossed (s : State) (h : Pkt) : Nat := hopClass h - startVc s h.tc h.op % 4

/-- Cost of a candidate: depth times 1 + Rmin (R205). -/
def cost (s : State) (h : Pkt) (p : Nat) : Nat := depthOf s p (decide (4 ≤ h.vc)) * (1 + rmin s h.dst p)

/-- The VC on an output: a global unit raises the class by 1 (R202). -/
def vcOn (s : State) (h : Pkt) (o : Nat) : Nat := if o < 128 ∧ roleOf s o = 2 then h.vc / 4 * 4 + (h.vc % 4 + 1) % 4 else h.vc

/-- Own usable global units to groups that satisfy a test, below class 3 (R202, R206). -/
def usableGlobals (s : State) (h : Pkt) (f : Nat → Bool) : List Nat :=
  if hopClass h = 3 then []
  else ((List.range (globalUnits s)).map (globalPort s)).filter fun p => usableUnit s p && f (partnerId s p / 64)

/-- Minimal candidates allowed by R205 (R204), for a packet of another device, in ascending port order. -/
def minimals (s : State) (h : Pkt) (inp : Nat) : List Nat :=
  let g := h.dst / 64
  if g = selfGroup s then
    if h.dst % 64 < members s then (portsTo s (h.dst % 64)).filter fun p => usableUnit s p && r205 s inp p else []
  else
    let own := usableGlobals s h (· == g)
    if !own.isEmpty then own
    else
      let gw := ((listedGateways s g).filter fun x => x.2.2 && x.1 != selfMember s).map (·.1)
      (gw.eraseDups.map fun m => localPort s (unitTo (members s) (selfMember s) m)).filter fun p => usableUnit s p && r205 s inp p

/-- The candidate of least depth, ties to the lowest port. -/
def leastDepth (s : State) (rsp : Bool) : List Nat → Option Nat
  | [] => none
  | p :: t =>
    match leastDepth s rsp t with
    | none => some p
    | some q => if depthOf s q rsp < depthOf s p rsp ∨ (depthOf s q rsp = depthOf s p rsp ∧ q < p) then some q else some p

/-- The detour intermediates of a member (R199). -/
def altsOf (s : State) (m : Nat) : List Nat :=
  (if rdb s F.rtMbrAlt0Valid m then [rd s F.rtMbrAlt0 m] else [])
    ++ (if rdb s F.rtMbrAlt1Valid m then [rd s F.rtMbrAlt1 m] else [])

/-- The result of a route choice: the state (open draws and counters) and the output, if any. -/
abbrev Choice := State × Option Nat

/-- An open draw among units. -/
def drawUnit (s : State) (l : List Nat) : Choice := if l.isEmpty then (s, none) else (drawn s, pick s l)

/-- The choice with minimal candidates (R206): least depth when adaptive, else the hash; then the non-minimal global
unit, and the detour inside the destination's group. -/
def chooseMinimal (s : State) (h : Pkt) (inp : Nat) (mins : List Nat) : Choice :=
  let rsp := decide (4 ≤ h.vc)
  let own := selfGroup s
  if hasFlag h flNoAdapt then
    (s, mins[Nat.xor (Nat.xor h.src h.dst) h.ec % mins.length]?)
  else
    match leastDepth s rsp mins with
    | none => (s, none)
    | some best =>
      let (s, best) :=
        if rdb s F.rtAdaptNonminEn && crossed s h == 0 && h.src / 64 == own && h.dst / 64 != own && decide (h.hop ≤ 1) then
          match drawUnit s ((usableGlobals s h (· != h.dst / 64)).filter fun p => budget s h p 6) with
          | (s, some alt) =>
            if cost s h alt + rd s F.rtAdaptBias < cost s h best then (inc (pmCount s 0x40 0 1 1) F.rtCnt0Nonmin, alt) else (s, best)
          | (s, none) => (s, best)
        else (s, best)
      if h.dst / 64 == own && (decide (128 ≤ inp) || roleOf s inp == 2)
          && decide (rd s F.rtAdaptDetourThr < depthOf s best rsp) then
        match leastDepth s rsp ((altsOf s (h.dst % 64)).flatMap fun b => ((portsTo s b).take 1).filter (usableUnit s)) with
        | some alt =>
          if r205 s inp alt && budget s h alt 6
              && decide (2 * depthOf s alt rsp + rd s F.rtAdaptBias < depthOf s best rsp) then
            (inc (pmCount s 0x40 0 2 1) F.rtCnt0Detour, some alt)
          else (s, some best)
        | none => (s, some best)
      else (s, some best)

/-- The route-around list (R206): the target's ALT0 and ALT1, a random usable global unit, a random usable member
that holds a live global unit. -/
def chooseAround (s : State) (h : Pkt) (inp : Nat) : Choice :=
  let g := h.dst / 64
  let ok := fun p => usableUnit s p && !(roleOf s p == 2 && hopClass h == 3) && r205 s inp p && budget s h p 9
  let target := if g = selfGroup s then some (h.dst % 64)
    else ((listedGateways s g).find? fun x => x.2.2).map (·.1)
  let alts := match target with
    | none => []
    | some m => (altsOf s m).flatMap fun b => (portsTo s b).take 1
  match alts.find? ok with
  | some p => (inc (pmCount s 0x40 0 2 1) F.rtCnt0Detour, some p)
  | none =>
    match drawUnit s ((usableGlobals s h (· != g)).filter ok) with
    | (s, some p) => (inc (pmCount s 0x40 0 2 1) F.rtCnt0Detour, some p)
    | (s, none) =>
      let holders := ((s.rt.otherGlobal.filter fun e => e.2.2 && e.1 / 64 != selfMember s).map (·.1 / 64)).eraseDups
      match drawUnit s ((holders.flatMap fun m => (portsTo s m).take 1).filter ok) with
      | (s, some p) => (inc (pmCount s 0x40 0 2 1) F.rtCnt0Detour, some p)
      | (s, none) => (s, none)

/-- Whether the routing unit may choose a port for a packet that names it whatever its live state (an edge EC, a multicast entry): UP,
not masked and not in DRAIN (R159, R215; DEDUCED, log entry 110). -/
def portTakes (s : State) (p : Nat) : Bool := linkUp s p && !maskedPort s p && !inDrain s p

/-- The output of a unicast packet at this device (R204, R206): ejection, edge unit, a candidate, or none. -/
def routeChoice (s : State) (h : Pkt) (inp : Nat) : Choice :=
  if h.dst = selfId s then
    if edgeEc s h.ec then (s, if portTakes s (edgePort s) then some (edgePort s) else none) else (s, some (128 + h.ec % 8))
  else
    let mins := minimals s h inp
    if mins.isEmpty then chooseAround s h inp else chooseMinimal s h inp mins

/-- A packet routed and put on its VOQ, or dropped and counted in UNREACH (R206). -/
def routePkt (s : State) (id : Nat) (p : SwPkt) : State :=
  match routeChoice s p.hdr p.inp with
  | (s, some o) => enqueue s id p [(o, vcOn s p.hdr o)]
  | (s, none) =>
    let s := inc s F.rtPktDrop3Unreach
    let s := if 128 ≤ p.inp then { s with notices := s.notices ++ [.neverLeft p.hdr.msgid p.hdr.psn] } else s
    updatePkt s id p { p with routed := true, copies := [⟨0, 0, 0, false, 0, true, false⟩] }

/-- The ports of an MC_PUT (R183): every port of its entry but the one it came in on, below class 3 on a global unit (R202). -/
def multicastPorts (s : State) (h : Pkt) (inp : Nat) : List Nat :=
  let g := h.dst % 65536
  let mask := fun p => if p < 64 then bitAt (csrRaw s (0x03900000 + 32 * g)).toNat p
    else bitAt (csrRaw s (0x03900000 + 32 * g + 8)).toNat (p - 64)
  (portUnits s).filter fun p => mask p && p != inp && !(roleOf s p == 2 && hopClass h == 3)

/-- The outputs of an MC_PUT with their VCs: those of its ports that the routing unit may choose, and the ejection port when EJECT is
set. -/
def multicastOuts (s : State) (h : Pkt) (inp : Nat) : List (Nat × Nat) :=
  let g := h.dst % 65536
  ((multicastPorts s h inp).filter (portTakes s)).map (fun p => (p, vcOn s h p))
    ++ (if rdb s F.swMcEject g then [(128 + h.ec % 8, h.vc)] else [])

/-- The copies of an MC_PUT that find no route (R206, R215): one for each of its ports that the routing unit may not choose. -/
def countUnrouted (s : State) (h : Pkt) (inp : Nat) : State :=
  inc s F.rtPktDrop3Unreach ((multicastPorts s h inp).filter fun p => !portTakes s p).length

/-- A routed MC_PUT, or its drop for an invalid group (R183). -/
def routeMulticast (s : State) (id : Nat) (p : SwPkt) : State :=
  let g := p.hdr.dst
  let outs := multicastOuts s p.hdr p.inp
  if decide (s.txn.arm.mcSize ≤ g) || !rdb s F.swMcValid (g % 65536) then
    updatePkt (inc s F.swDropMcInvalid 1 (tileOf p.inp)) id p { p with routed := true, copies := [⟨0, 0, 0, false, 0, true, false⟩] }
  else
    let s := countUnrouted s p.hdr p.inp
    if outs.isEmpty then updatePkt s id p { p with routed := true, copies := [⟨0, 0, 0, false, 0, true, false⟩] }
    else enqueue s id p outs

/-! ### ROUTE_SETTLING and the tables -/

/-- A topology event at this device (R216). -/
def settle (s : State) : State := { wrb s F.rtStatSettling true with rt := { s.rt with settleAt := s.timeNs } }

/-- Whether the local unit from member b to member m is known live (R199): the own units by their state, the others
by what notices told. -/
def localLive (s : State) (b m : Nat) : Bool :=
  if b = selfMember s then memberLive s m
  else mgetD s.rt.otherLocal (b * 64 + unitTo (members s) b m) false

/-- Entry m of the member table (R199). -/
def mbrWord (s : State) (m : Nat) : Nat :=
  let mm := members s
  let me := selfMember s
  if mm ≤ m then 0
  else if m = me then 0x3F
  else
    let u := unitTo mm me m
    let alts := ((List.range u).map fun k => (me + k + 1) % mm).filter fun b =>
      b != m && liveUnit s (localPort s (unitTo mm me b)) && localLive s b m && decide (unitTo mm me b < unitTo mm b m)
    let later := ((List.range mm).map fun k => (me + k + 1) % mm).filter fun b =>
      b != m && b != me && liveUnit s (localPort s (unitTo mm me b)) && localLive s b m
        && decide (unitTo mm me b < unitTo mm b m) && !(alts.contains b)
    let l := alts ++ later
    u + bit (liveUnit s (localPort s u)) * 64
      + bit (peerUse s && m == (me + mm / 2) % mm && liveUnit s (edgePort s)) * 128
      + (match l with
        | [] => 0
        | [a] => a * 256 + 2 ^ 14
        | a :: b :: _ => a * 256 + 2 ^ 14 + b * 2 ^ 15 + 2 ^ 21)

/-- Whether a gateway (member, unit) counts as live: its unit, and its member's LIVE (R200, R213). -/
def gatewayLive (s : State) (k : Nat) (live : Bool) : Bool := live && (k / 64 == selfMember s || memberLive s (k / 64))

/-- The gateways that reach a group, own units first, then by member and unit (R200). -/
def gatewaysTo (s : State) (g : Nat) : List (Nat × Bool) :=
  let l := (s.rt.otherGlobal.filter fun e => e.2.1 == g).map fun e => (e.1, gatewayLive s e.1 e.2.2)
  l.filter (fun e => e.1 / 64 == selfMember s) ++ l.filter (fun e => e.1 / 64 != selfMember s)

/-- The four gateways that an entry lists: this device's own live units first, then the live ones listed before, then the next live ones;
dead ones keep the places that are left (R200). -/
def listFour (s : State) (g : Nat) : List (Nat × Bool) :=
  let all := gatewaysTo s g
  if all.length ≤ 4 then all
  else
    let before := (listedGateways s g).map fun x => x.1 * 64 + x.2.1
    let own := all.filter fun e => e.1 / 64 == selfMember s && e.2
    let kept := all.filter fun e => e.1 / 64 != selfMember s && before.contains e.1 && e.2
    let fresh := all.filter fun e => e.1 / 64 != selfMember s && !(before.contains e.1) && e.2
    let dead := all.filter fun e => before.contains e.1 && !e.2
    let rest := all.filter fun e => !(before.contains e.1) && !e.2
    let chosen := (own ++ kept ++ fresh ++ dead ++ rest).take 4
    all.filter fun e => chosen.any (·.1 == e.1)

/-- Entry g of the group table (R200); the own group's entry reads zero. -/
def grpWord (s : State) (g : Nat) : Nat :=
  if g = selfGroup s ∨ groupsNo s ≤ g then 0
  else
    let l := listFour s g
    (l.zipIdx.foldl (fun (n : Nat) (e : (Nat × Bool) × Nat) =>
      n + (2 ^ 13 + bit e.1.2 * 2 ^ 12 + e.1.1 / 64 % 64 * 64 + e.1.1 % 64) * 2 ^ (14 * e.2)) 0)
      + bit (l.any (·.2)) * 2 ^ 63

/-- The member and group tables rebuilt (R199, R200, R213): the member table, and the entries of groups that any
gateway reaches or is listed for. -/
def rebuildTables (s : State) : State :=
  let s := (List.range 64).foldl (fun s m => csrPut s (0x04002000 + 8 * m) (BitVec.ofNat 64 (mbrWord s m))) s
  let gs := ((s.rt.otherGlobal.map (·.2.1)) ++ (s.csr.filterMap fun (e : Nat × Word) =>
    if 0x04008000 ≤ e.1 ∧ e.1 < 0x04010000 then some ((e.1 - 0x04008000) / 8) else none)).eraseDups
  gs.foldl (fun s g => csrPut s (0x04008000 + 8 * g) (BitVec.ofNat 64 (grpWord s g))) s

/-! ### Unit-bound packets (R608) -/

/-- The transport's state changed. -/
def setTp (s : State) (f : TpSt → TpSt) : State := { s with tp := f s.tp }

def setSc (s : State) (f : SchedSt → SchedSt) : State := { s with sc := f s.sc }

/-- Key of a port and TC. -/
def portTc (k t : Nat) : Nat := k * 8 + t

/-- The items of a TC queue, oldest first. -/
def queueOf (s : State) (k t : Nat) : List (Nat × InjItem) := s.tp.inj.filter fun e => e.2.port == k && e.2.tc == t

/-- The wire bytes of an item: flits times 128 (R482). -/
def itemBytes (i : InjItem) : Nat := 128 * flitsOf i.payload.length

/-- Weight of a function queue; the device queue has 255 (R483). -/
def fnWeight (s : State) (fn : Nat) : Nat := if fn = 512 then 255 else max 1 (rd s F.scFnWeight fn)

/-- The heads of the function queues of a TC queue take their tags (R482). -/
def tagFns (s : State) (k t : Nat) : State :=
  let q := queueOf s k t
  (q.map (·.2.fn)).eraseDups.foldl (fun s fn =>
    match q.find? fun e => e.2.fn == fn with
    | none => s
    | some (id, it) =>
      match it.fnTag with
      | some _ => s
      | none =>
        let key := portTc k t
        let f := finishTag (mgetD s.sc.fnV key 0) (mgetD s.sc.fnPrev (key * 1024 + fn) 0) (itemBytes it) (fnWeight s fn)
        setTp s fun x => { x with inj := mset x.inj id { it with fnTag := some f } }) s

/-- The head of a TC queue fixed with its tag, when none is (R483). -/
def fixHead (s : State) (k t : Nat) : State :=
  let key := portTc k t
  let s := tagFns s k t
  let old := match mget s.sc.head key with
    | some (id, _) => mhas s.tp.inj id
    | none => false
  if old then s
  else
    let q := queueOf s k t
    let heads := (q.map (·.2.fn)).eraseDups.filterMap fun fn => q.find? fun e => e.2.fn == fn
    match leastTag (heads.map fun e => (e.2.fnTag.getD 0, e)) with
    | none => setSc s fun x => { x with head := mdel x.head key }
    | some (_, id, it) =>
      let f := finishTag (mgetD s.sc.tcV k 0) (mgetD s.sc.tcPrev key 0) (itemBytes it) (max 1 (rd s F.scTcWeight t))
      setSc s fun x => { x with head := mset x.head key (id, f) }

/-- The heads of every TC queue of a port fixed. -/
def fixHeads (s : State) (k : Nat) : State := (List.range 8).foldl (fun s t => fixHead s k t) s

/-- A packet joins a TC queue of its injection port (R25, R483), and becomes its head when there is none. -/
def queueItem (s : State) (i : InjItem) : State :=
  fixHead (setTp s fun t => { t with inj := mset t.inj t.nextInj { i with enqAt := s.timeNs }, nextInj := t.nextInj + 1 }) i.port i.tc

/-- A control packet for one named unit, on TC7 with NOADAPT set, in the device queue of the injection port of EC 0
(R608, R483). -/
def sendUnit (s : State) (p op dst : Nat) (payload : List Byte) : State :=
  queueItem s
    { port := 0, tc := 7, fn := 512, dst := dst, htc := 7, op := op, ec := 0, flags := flLast + flNoAdapt, off := 0,
      psn := 0, key := 0, msgid := 0, payload := payload, slot := none, unit := some p, enqAt := 0, fnTag := none }

/-- A ROUTE_NOTICE record (Table 07-1). -/
def noticeRec (group member unit : Nat) (live : Bool) (kind : Nat) : List Byte :=
  toBytes 4 (group % 2 ^ 12 + member % 64 * 2 ^ 12 + unit % 64 * 2 ^ 18 + bit live * 2 ^ 24 + kind % 2 * 2 ^ 25)

/-- The record about one of this device's own local or global units; the group of a global unit is the one that the unit last joined. -/
def ownRec (s : State) (p : Nat) (live : Bool) : List Byte :=
  if roleOf s p = 2 then
    let g := match mget s.rt.otherGlobal (selfMember s * 64 + unitNo s p) with
      | some e => e.1
      | none => partnerId s p / 64
    noticeRec g (selfMember s) (unitNo s p) live 0
  else noticeRec 0 ((selfMember s + unitNo s p + 1) % (members s)) (unitNo s p) live 1

/-- The direct local units to the other members that are live: where notices go (R201). -/
def noticePorts (s : State) : List Nat :=
  ((List.range (localUnits s)).map (localPort s)).filter fun p => decide (unitNo s p + 1 < members s) && liveUnit s p

/-- A change of an own local or global unit's live state told to every other member (R201). -/
def noticeAll (s : State) (p : Nat) (live : Bool) : State :=
  if roleOf s p = 1 then s
  else (noticePorts s).foldl (fun s q => sendUnit s q opRouteNotice (partnerId s q) (ownRec s p live)) s

/-- The full list of own units sent to a member whose join completed (R201): every wired local unit, and every global unit that has joined
a group, live or not; a global unit that never joined reaches no group that a record could name.  At most 64 records a packet. -/
def noticeFull (s : State) (p : Nat) : State :=
  let recs := (portUnits s).filterMap fun q =>
    if (roleOf s q = 0 ∧ unitNo s q + 1 < members s) ∨ (roleOf s q = 2 ∧ mhas s.rt.otherGlobal (selfMember s * 64 + unitNo s q) = true) then
      some (ownRec s q (liveUnit s q))
    else none
  let send := fun (s : State) (l : List (List Byte)) => if l.isEmpty then s else sendUnit s p opRouteNotice (partnerId s p) l.flatten
  send (send s (recs.take 64)) (recs.drop 64)

/-- A unit's live state set or cleared: the tables follow, the group is told, settling starts (R201, R212, R216). -/
def setJoined (s : State) (p : Nat) (live : Bool) : State :=
  let was := liveUnit s p
  let s := { s with rt := { s.rt with joined := if live then p :: s.rt.joined.erase p else s.rt.joined.erase p } }
  let s := if roleOf s p = 2 then
      { s with rt := { s.rt with otherGlobal := mset s.rt.otherGlobal (selfMember s * 64 + unitNo s p) (partnerId s p / 64, liveUnit s p) } }
    else s
  let s := rebuildTables s
  if was == liveUnit s p then s else settle (noticeAll s p live)

/-- Packets queued and not granted for any of some outputs routed again in one event (R215): each counts once.  A unit-bound packet is
dropped without count unless the unit is only masked (R608).  An MC_PUT keeps the output set of its lookup (R197), so that a copy whose
port may not be chosen any more finds no route and is dropped under R206 (DEDUCED, log entry 110). -/
def rerouteOutputs (s : State) (hit : Nat → Bool) (maskedOnly : Bool) : State :=
  s.sw.pkts.foldl (fun s e =>
    match mget s.sw.pkts e.1 with
    | none => s
    | some p =>
      let waiting := p.copies.filter fun c => hit c.outp && !c.done && !c.bound
      let drop := fun (s : State) (o : Nat) => match mget s.sw.pkts e.1 with
        | some p => dropCopy s e.1 p o
        | none => s
      if waiting.isEmpty then s
      else if p.unitBound then (if maskedOnly then s else waiting.foldl (fun s c => drop s c.outp) s)
      else if isMc p then
        waiting.foldl (fun (s : State) (c : Copy) =>
          if decide (128 ≤ c.outp) || portTakes s c.outp then s else drop (inc s F.rtPktDrop3Unreach) c.outp) (inc s F.rtCnt1Reroute)
      else
        let s := inc s F.rtCnt1Reroute
        let p := { p with copies := [], routed := false }
        routePkt (setPkt s e.1 p) e.1 p) s

/-- The packets of one output routed again. -/
def rerouteOutput (s : State) (o : Nat) (maskedOnly : Bool) : State := rerouteOutputs s (· == o) maskedOnly

/-! ### Joining (R219) -/

/-- The JOIN or JOIN_ACK payload (Table 07-4). -/
def joinPayload (s : State) (status : Nat) : List Byte :=
  toBytes 8 (selfId s + members s % 128 * 2 ^ 18 + groupsNo s % 2 ^ 13 * 2 ^ 25 + bit s.txn.arm.trunked * 2 ^ 38)
    ++ toBytes 8 (rd s F.rtStatBootEpoch + status % 256 * 2 ^ 32) ++ List.replicate 48 0

/-- JOIN sent on a unit, local or global, that is UP; the edge unit in edge use takes no part. -/
def sendJoin (s : State) (p : Nat) : State :=
  if roleOf s p = 1 ∧ !peerUse s then s
  else
    let s := { s with rt := { s.rt with joinSent := mset s.rt.joinSent p s.timeNs } }
    sendUnit s p opJoin (partnerId s p) (joinPayload s 0)

/-- The units that take part in joining and are UP. -/
def joinUnits (s : State) : List Nat :=
  (portUnits s).filter fun p => linkUp s p && !(roleOf s p == 1 && !peerUse s)

/-- The EPOCH_NOTICE payload (Table 07-5). -/
def epochPayload (dev epoch stage rep : Nat) : List Byte :=
  toBytes 8 (dev % 2 ^ 18 + epoch % 2 ^ 32 * 2 ^ 32) ++ toBytes 8 (stage % 4 + rep % 4 * 4)

/-- The live global units, and the direct local units to the members. -/
def liveGlobals (s : State) : List Nat := ((List.range (globalUnits s)).map (globalPort s)).filter (liveUnit s)

/-- The key of an announcement (R221). -/
def epochKey (dev epoch rep : Nat) : Nat := dev + epoch * 2 ^ 18 + rep * 2 ^ 50

/-- The forwarded keys that are kept still: each for 1 s (R221). -/
def freshKeys (s : State) : List (Nat × Nat) := s.rt.epochKeys.filter fun e => decide (s.timeNs < e.2 + 1000000000)

/-- A forwarded key remembered: keys older than 1 s go, and the oldest of 4,096 gives way (R221). -/
def rememberKey (s : State) (k : Nat) : State :=
  let l := freshKeys s
  { s with rt := { s.rt with epochKeys := (if 4096 ≤ l.length then l.drop 1 else l) ++ [(k, s.timeNs)] } }

/-- The origin's announcement (R220): STAGE 0 to every other member of its group, STAGE 1 on each live global unit;
the key is recorded as it is sent (R221). -/
def announce (s : State) (rep : Nat) : State :=
  let e := rd s F.rtStatBootEpoch
  let s := rememberKey s (epochKey (selfId s) e rep)
  let s := (noticePorts s).foldl (fun s p => sendUnit s p opEpochNotice (partnerId s p) (epochPayload (selfId s) e 0 rep)) s
  let s := (liveGlobals s).foldl (fun s p => sendUnit s p opEpochNotice (partnerId s p) (epochPayload (selfId s) e 1 rep)) s
  { s with rt := { s.rt with announced := rep + 1 } }

/-- The join completes (R219): JOIN reads 2, and the device announces its epoch. -/
def joinComplete (s : State) : State :=
  let s := wr s F.rtStatJoin 2
  let s := wrb s F.rtStatIsolated (joinUnits s).isEmpty
  announce { settle s with rt := { (settle s).rt with joinedAt := some s.timeNs } } 0

/-- The join window of 10 ms is over (R219). -/
def windowPast (s : State) : Bool :=
  match s.rt.joinAt with
  | some t => decide (t + 10000000 ≤ s.timeNs)
  | none => false

/-- Whether the join may complete now (R219): every UP unit answered with an ACCEPT among them, 10 ms passed with an
ACCEPT ever received, or no unit UP.  The answers are those to this device's own JOINs. -/
def joinCheck (s : State) (windowOver : Bool) : State :=
  if baseOf s != 1 || rd s F.rtStatJoin != 1 && rd s F.rtStatJoin != 3 then s
  else
    let us := joinUnits s
    let acc := us.any fun p => s.rt.answered.contains p
    let all := us.all fun p => s.rt.answered.contains p || s.rt.geomRefused.contains p
    if us.isEmpty then joinComplete s
    else if (all && acc) || (windowOver && s.rt.gotAccept) then joinComplete s
    else if all && !acc then wr s F.rtStatJoin 3
    else s

end Sys2Proof.Machine
end

