-- ==== Sys2Proof/Machine/Tp.lean ====
section
/-!
DEFINITION. Machine/Tp.lean: the transport's shared operations (08): contexts and their cache (R230 to R235), messages
and sender slots (R237 to R240), copies and their span (R244), receiver records (R241 to R245), acknowledgements (R246 to
R248), NACKs (R250, R251), timers (R252 to R257), and congestion control (R265 to R268).
-/

namespace Sys2Proof.Machine

/-- A notice for another unit. -/
def tell (s : State) (n : Notice) : State := { s with notices := s.notices ++ [n] }

/-- An uncorrectable HBM word (R513): HBM_UE of its stack, and the patina's count. -/
def hbmLost (s : State) (stack : Nat) : State := tell (tell s (.fault 6 (stack % 4))) (.patina 8 (stack % 4))

/-- A microsecond and a millisecond in ns. -/
def us (n : Nat) : Nat := 1000 * n
def ms (n : Nat) : Nat := 1000000 * n

/-! ### Contexts -/

/-- The host port that an EC's range lies behind, if it lies in host memory (R231). -/
def rangePort (s : State) (ec : Nat) : Option Nat :=
  match rd s F.tpEcMapLoc (ec / 65536) with
  | 1 => some 0
  | 2 => some 1
  | _ => none

/-- Whether the EC's range can be reached (R236 step 3, R272). -/
def rangeServes (s : State) (ec : Nat) : Bool :=
  match rangePort s ec with
  | some hp => serving s hp
  | none => true

/-- The context of an EC that is not CLOSED. -/
def ctxOf (s : State) (ec : Nat) : Option EcCtx := mget s.tp.ecs ec

/-- Where the context of an EC lies in host memory, when its range does (R231): the port and the address of its 256 bytes. -/
def ctxPlace (s : State) (ec : Nat) : Option (Nat × Nat) :=
  (rangePort s ec).map fun hp => (hp, rd s F.tpEcMapAddr (ec / 65536) * 2 ^ 24 + ec % 65536 * 256)

/-- The 256 bytes of a context (Table 08-1): the transport word of Table 08-2, zero while CLOSED; the form of the other words is open, and
they are free values (DESIGN CHOICE, log entry 112). -/
def ctxWords (s : State) (ec : Nat) : List Word :=
  let w0 := match ctxOf s ec with
    | some c => c.state % 4 + c.hp % 2 * 4 + c.fn % 256 * 8 + c.agg % 4096 * 2 ^ 11 + c.ops % 256 * 2 ^ 23
    | none => 0
  BitVec.ofNat 64 w0 :: (List.range 31).map fun i => Config.freeValue (s.free + i)

/-- A context written to its place: to host memory through its port, or to HBM (R231, R232). -/
def storeCtx (s : State) (ec : Nat) : State :=
  match ctxPlace s ec with
  | some (hp, a) => emit { s with free := s.free + 31 } (.hostWords hp a (ctxWords s ec))
  | none => s

/-- A cached context that is dirty written back (R232, R272). -/
def writeBackCtx (s : State) (ec : Nat) : State :=
  match mget s.tp.cache ec with
  | some e => if e.dirty then setTp (storeCtx s ec) fun t => { t with cache := mset t.cache ec { e with dirty := false } } else s
  | none => s

/-- A context changed: in the cache, where it is dirty then, or at its place. -/
def setCtx (s : State) (ec : Nat) (c : EcCtx) : State :=
  let s := setTp s fun t => { t with ecs := mset t.ecs ec c }
  match mget s.tp.cache ec with
  | some e => setTp s fun t => { t with cache := mset t.cache ec { e with dirty := true } }
  | none => storeCtx s ec

/-- Whether an EC is OPEN. -/
def ecOpen (s : State) (ec : Nat) : Bool :=
  match ctxOf s ec with
  | some c => c.state == 1
  | none => false

/-- Whether a context is in the cache and its fetch has ended. -/
def cached (s : State) (ec : Nat) : Bool :=
  match mget s.tp.cache ec with
  | some e => !e.fetching
  | none => false

/-- Whether a cached context is pinned: being fetched, parked for, or with a stream that holds a slice (R232). -/
def pinned (s : State) (ec : Nat) (e : CacheEnt) : Bool :=
  e.fetching || mhas s.tp.parked ec || s.eng.streams.any fun x => x.2.role == 0 && x.2.key == ec && !x.2.waiting

/-- A place in the context cache for a fetch: at 65,536 entries a random unpinned one is evicted, a dirty one written back first (R232).  One
whose place cannot be written, its port not serving, gives no place; with no victim there is none. -/
def makeRoom (s : State) : Option State :=
  if s.tp.cache.length < 65536 then some s
  else
    let l := s.tp.cache.filter fun e => !pinned s e.1 e.2 && (!e.2.dirty || rangeServes s e.1)
    (pick s l).map fun v =>
      let s := writeBackCtx (drawn s) v.1
      inc (setTp s fun t => { t with cache := mdel t.cache v.1 }) F.tpCnt4CtxEvict

/-- A fetch of a context begun, unless it is cached or being fetched, from HBM or from host memory (R231, R232); it waits while the cache
has no place for it. -/
def fetchCtx (s : State) (ec : Nat) : State :=
  if mhas s.tp.cache ec then s
  else
    match makeRoom s with
    | none => s
    | some s =>
      let s := match ctxPlace s ec with
        | some (hp, a) => emit s (.hostRead hp a 256)
        | none => s
      setTp (inc s F.tpCnt0CtxMiss) fun t => { t with cache := mset t.cache ec ⟨false, true⟩ }

/-- Packets parked in a TP group's context-miss buffer (R234). -/
def parkedIn (s : State) (k : Nat) : Nat :=
  s.tp.parked.foldl (fun n e => if e.1 % 8 = k then n + e.2.length else n) 0

/-- The function queue of an EC at an injection port: host port * 256 + function, or the device queue (R483). -/
def fnQueue (s : State) (ec : Nat) : Nat :=
  match ctxOf s ec with
  | some c => c.hp * 256 + c.fn
  | none => 512

/-! ### The injection queues -/

/-- An item for the injection port of an EC with the given fields. -/
def itemFor (s : State) (ec dst tc op flags off psn key msgid : Nat) (payload : List Byte) : InjItem :=
  { port := ec % 8, tc := tc % 8, fn := fnQueue s ec, dst := dst, htc := tc % 8, op := op, ec := ec, flags := flags,
    off := off, psn := psn, key := key, msgid := msgid, payload := payload, slot := none, unit := none, enqAt := 0,
    fnTag := none }

/-- A response, an ACK or a NACK queued for injection, on the response set with LAST set. -/
def sendReply (s : State) (ec dst tc op flags off psn key msgid : Nat) (payload : List Byte) : State :=
  queueItem s (itemFor s ec dst tc op flags off psn key msgid payload)

/-- A NACK of a packet: kind, its PSN and BACKOFF_US (Table 08-4), with the request's EC, TC and MSGID (R250). -/
def sendNack (s : State) (p : Pkt) (kind backoff : Nat) : State :=
  let s := pmSample s 2 1 (arrivalId p) [kind]
  sendReply s p.ec p.src p.tc opNack flLast 0 0 0 p.msgid
    (toBytes 8 (kind % 65536 + p.psn % 2 ^ 18 * 2 ^ 16 + backoff % 65536 * 2 ^ 34))

/-! ### Round trips and ceilings -/

/-- The key of a pair of aggregate and TC. -/
def pairOf (agg tc : Nat) : Nat := agg * 8 + tc

/-- A pair's state; RTO starts at RTO_INIT_US (R252). -/
def pairSt (s : State) (k : Nat) : PairSt :=
  mgetD s.tp.pairs k ⟨0, us (rd s F.tpRetryRtoInitUs), 0, 0⟩

/-- The aggregate of an EC. -/
def aggOf (s : State) (ec : Nat) : Nat :=
  match ctxOf s ec with
  | some c => c.agg
  | none => 0

/-- RTO of a message in ns. -/
def rtoOf (s : State) (ec tc : Nat) : Nat := (pairSt s (pairOf (aggOf s ec) tc)).rtoNs

/-- A message's timer started at the RTO of the moment, times 2^min(retries, 2) (R253). -/
def armTimer (s : State) (m : Slot) : Slot :=
  { m with timerAt := some s.timeNs, timerLen := rtoOf s m.ec m.tc * 2 ^ (min m.retries 2) }

/-- C of a pair in KiB: C_MAX until a sample or a commit writes it (R267). -/
def ceilOf (s : State) (k : Nat) : Nat :=
  let c := rd s F.tpDcCeil k
  if c = 0 then rd s F.tpCcDcCMax else c

/-- Integer absolute difference. -/
def absDiff (a b : Nat) : Nat := if a ≤ b then b - a else a - b

/-- An RTT sample of a pair (R252) and what the delay ceiling does with it (R267); the shift by (BETA_SHIFT - 1) / 2 is the reading under
which BETA_SHIFT 1 halves C at twice the target (DEDUCED, log entry 105). -/
def rttSample (s : State) (k sample : Nat) : State :=
  let p := pairSt s k
  let old := rd s F.tpDcSrttNs k
  let srtt := if old ≤ sample then old + (sample - old) / 8 else old - (old - sample) / 8
  let d := absDiff sample srtt
  let var := if p.rttvar ≤ d then p.rttvar + (d - p.rttvar) / 4 else p.rttvar - (p.rttvar - d) / 4
  let rto := min (us (rd s F.tpRetryRtoMaxUs)) (max (us (rd s F.tpRetryRtoMinUs)) (srtt + 4 * var))
  let target := rd s F.tpCcDcTargetNs
  let c := ceilOf s k
  let b := rd s F.tpCcDcBetaShift
  let (c', p) :=
    if target < sample ∧ p.cutAt + target ≤ s.timeNs then
      (max (rd s F.tpCcDcCMin) (c - c * (sample - target) / sample / 2 ^ ((b - 1) / 2)), { p with cutAt := s.timeNs })
    else if sample ≤ target ∧ p.raiseAt + target ≤ s.timeNs then
      (min (rd s F.tpCcDcCMax) (c + rd s F.tpCcDcDcAi), { p with raiseAt := s.timeNs })
    else (c, p)
  let s := setTp s fun t => { t with pairs := mset t.pairs k { p with rttvar := var, rtoNs := rto } }
  wr (wr (wr s F.tpDcSrttNs (min srtt (2 ^ 22 - 1)) k) F.tpDcRtoUs (min (rto / 1000) 1023) k) F.tpDcCeil c' k

/-- The key of a flow: sending EC, destination device, TC (R265). -/
def flowKey (ec dst tc : Nat) : Nat := (ec * 2 ^ 18 + dst) * 8 + tc

/-- Bytes of one data packet of a message. -/
def chunkBytes (total psn : Nat) : Nat := min 4096 (total - 4096 * psn)

/-- Whether the request of an ATOMIC or LOCK has been acknowledged by an ACK of its own, its response still to come (R247). -/
def opAcked (m : Slot) : Bool := m.anyAcked && (m.op == opAtomic || m.op == opLock)

/-- Unacknowledged payload bytes of a message: of a GET, the bytes asked for and not received (R266). -/
def unackedBytes (m : Slot) : Nat :=
  if opAcked m then 0
  else m.copies.foldl (fun n e =>
    if e.1 < m.base || m.acked.contains e.1 then n
    else n + (if m.op = opGetReq then chunkBytes m.total e.1 else e.2.payload.length)) 0

/-- Unacknowledged payload bytes of a flow. -/
def flowBytes (s : State) (k : Nat) : Nat :=
  s.tp.slots.foldl (fun n e => if flowKey e.2.ec e.2.dst e.2.tc = k then n + unackedBytes e.2 else n) 0

/-- Whether a flow has a packet in flight: sent and not acknowledged (R265). -/
def flowInFlight (s : State) (k : Nat) : Bool :=
  s.tp.slots.any fun e => flowKey e.2.ec e.2.dst e.2.tc == k && !opAcked e.2 && e.2.copies.any fun c => !(decide (c.1 < e.2.base) || e.2.acked.contains c.1)

/-- The time noted at which a message's packets left flight (R265). -/
def leftFlight (s : State) (m : Slot) : State :=
  let k := flowKey m.ec m.dst m.tc
  setTp s fun t => { t with flows := mmod t.flows k fun f => { f with lastAt := s.timeNs } }

/-- The ceiling of a flow in bytes. -/
def flowCeil (s : State) (ec tc : Nat) : Nat := 1024 * ceilOf s (pairOf (aggOf s ec) tc)

/-- W of a flow as it acts now: a flow without an entry starts at the ceiling, and never exceeds it (R265, R267). -/
def flowW (s : State) (k ec tc : Nat) : Nat :=
  match mget s.tp.flows k with
  | some f => max 4096 (min f.w (flowCeil s ec tc))
  | none => max 4096 (flowCeil s ec tc)

/-- A flow's entry used: made when missing, a random idle entry (else any) giving way at 131,072 (R265). -/
def touchFlow (s : State) (k ec tc : Nat) : State :=
  match mget s.tp.flows k with
  | some f => setTp s fun t => { t with flows := mset t.flows k { f with lastAt := s.timeNs } }
  | none =>
    let s :=
      if s.tp.flows.length < 131072 then s
      else
        let idle := s.tp.flows.filter fun e => !flowInFlight s e.1
        match pick s (if idle.isEmpty then s.tp.flows else idle) with
        | some v => inc (drawn (setTp s fun t => { t with flows := mdel t.flows v.1 })) F.tpCapFlowEvict
        | none => s
    let w := flowW s k ec tc
    setTp s fun t => { t with flows := mset t.flows k ⟨w, 0, s.timeNs⟩ }

/-- W after an ACK or response (R266). -/
def updateW (s : State) (m : Slot) (ece : Bool) (bytes : Nat) : State :=
  let k := flowKey m.ec m.dst m.tc
  match mget s.tp.flows k with
  | none => s
  | some f =>
    let pk := pairOf (aggOf s m.ec) m.tc
    let f :=
      if ece && decide (f.cutAt + rd s F.tpDcSrttNs pk ≤ s.timeNs) then
        { f with w := max 4096 (f.w - f.w / 2 ^ (rd s F.tpCcMeMdShift)), cutAt := s.timeNs }
      else if !ece then { f with w := f.w + rd s F.tpCcMeAiBytes * bytes / max f.w 1 }
      else f
    setTp s fun t => { t with flows := mset t.flows k { f with w := max 4096 (min f.w (flowCeil s m.ec m.tc)), lastAt := s.timeNs } }

/-! ### End-to-end windows -/

/-- Flits counted towards a group (R217). -/
def e2eAdd (s : State) (dst n : Nat) : State :=
  wr (wr s F.rtE2eOutFlits (rd s F.rtE2eOutFlits (dst / 64) + n) (dst / 64)) F.rtE2eTotFlits (rd s F.rtE2eTotFlits + n)

/-- Flits retired (R217, R264). -/
def e2eSub (s : State) (dst n : Nat) : State :=
  wr (wr s F.rtE2eOutFlits (rd s F.rtE2eOutFlits (dst / 64) - n) (dst / 64)) F.rtE2eTotFlits (rd s F.rtE2eTotFlits - n)

/-- Whether n flits towards a group fit both windows (R218). -/
def e2eRoom (s : State) (dst n : Nat) : Bool :=
  decide (rd s F.rtE2eOutFlits (dst / 64) + n ≤ rd s F.rtE2eCfgWin)
    && decide (rd s F.rtE2eTotFlits + n ≤ rd s F.rtE2eCfgTotal * 16)

/-- Whether a slot's packets are counted: TC7 packets are not (R218). -/
def windowed (m : Slot) : Bool := m.tc != 7

/-! ### Messages -/

def setSlot (s : State) (m : Slot) : State := setTp s fun t => { t with slots := mset t.slots m.msgid m }

def slotOf (s : State) (id : Nat) : Option Slot := mget s.tp.slots id

/-- A message of an EC with nothing sent yet. -/
def newMsg (s : State) (ec dec dst tc op total npkts : Nat) (origin : Origin) : Slot :=
  { dst := dst % 2 ^ 18, ec := ec, dec := dec, tc := tc % 8, op := op, total := total, npkts := npkts, key := 0, off := 0,
    flag := none, order := false, buf := .none, result := .none,
    pkrr := match ctxOf s ec with
      | some c => c.pkrr
      | none => 0,
    prefixBytes := [], origin := origin, msgid := 0, base := 0, acked := [], next := 0, copies := [], retries := 0,
    timerAt := none, quietUntil := 0, anyAcked := false, lost := false, gate := false, held := false,
    polPassed := false, stalledE2e := false, walking := false, stall := none, chunkEnd := 0, bulk := false, rdv := none,
    kept := none, finish := none }

/-- Whether a packet of a message is acknowledged. -/
def isAcked (m : Slot) (psn : Nat) : Bool := decide (psn < m.base) || m.acked.contains psn

/-- Whether an ordered send must wait: an earlier ordered send of the same EC has PSN 0 unacknowledged (R293). -/
def orderBlocked (s : State) (m : Slot) : Bool :=
  m.order && s.tp.slots.any fun e => e.2.ec == m.ec && e.2.order && !isAcked e.2 0

/-- Whether a message must wait for a rendezvous entry (R288). -/
def rdvBlocked (s : State) (m : Slot) : Bool :=
  m.op == opSendRts && m.origin != .fin && decide (65536 ≤ s.mt.rdv.length)

/-- Whether a message must wait for a sender slot (R238). -/
def slotBlocked (s : State) : Bool := decide (262144 ≤ s.tp.slots.length)

/-- The next MSGID: ascending modulo 2^24, skipping what is outstanding or quarantined (R237). -/
def nextMsgid (s : State) : Nat :=
  ((List.range (s.tp.slots.length + s.tp.quarantine.length + 1)).map fun k => (s.tp.nextMsg + k) % 2 ^ 24).find?
    (fun k => !mhas s.tp.slots k && !mhas s.tp.quarantine k) |>.getD s.tp.nextMsg

/-- The rendezvous entry that an RTS takes: the lowest free index, its generation raised (R288). -/
def takeRdv (s : State) (m : Slot) : State × Slot :=
  if m.op == opSendRts && m.origin != .fin then
    let i := (mfree s.mt.rdv 65536).getD 0
    let gen := (mgetD s.mt.gens i 0 + 1) % 1024
    let w1 := ofBytes ((m.prefixBytes.drop 8).take 8) % 2 ^ 38 + (i + gen * 2 ^ 16) * 2 ^ 38
    let m := { m with rdv := some i, prefixBytes := m.prefixBytes.take 8 ++ toBytes 8 w1 ++ m.prefixBytes.drop 16 }
    let len := ofBytes ((m.prefixBytes.drop 28).take 4) % 2 ^ 31
    let s := { s with mt := { s.mt with rdv := mset s.mt.rdv i ⟨gen, m.ec, m.dst, len, m.origin, none⟩, gens := mset s.mt.gens i gen } }
    (wr s F.mtRdvPending s.mt.rdv.length, m)
  else (s, m)

/-- A message given a slot and a MSGID. -/
def openSlot (s : State) (m : Slot) : State :=
  let (s, m) := takeRdv s m
  let id := nextMsgid s
  setSlot (setTp s fun t => { t with nextMsg := (id + 1) % 2 ^ 24 }) { m with msgid := id }

/-- What a message must wait for now (R288, R293, R238): 1 an earlier ordered send, also one that waits before it, 2 a rendezvous entry, 4 a
slot; 0 for nothing. -/
def waitsFor (s : State) (m : Slot) : Nat :=
  if orderBlocked s m || m.order && s.tp.wait.any (fun e => e.1.ec == m.ec && e.1.order) then 1
  else if rdvBlocked s m then 2
  else if slotBlocked s then 4
  else 0

/-- A wait counted once for each reason (R238, R288, R293); `counted` holds the reasons counted already. -/
def countWait (s : State) (reason counted : Nat) : State :=
  if Nat.land counted reason ≠ 0 then s
  else inc s (if reason = 1 then F.mtCnt4OrderWait else if reason = 2 then F.mtCnt3RdvWait else F.tpCapSlotWait)

/-- Messages that wait are started in post order as far as they can; each waits only for what it needs itself. -/
def startWaiting (s : State) : State :=
  let l := s.tp.wait
  l.foldl (fun s e =>
    let w := waitsFor s e.1
    if w = 0 then openSlot s e.1
    else
      setTp (countWait s w e.2) fun t => { t with wait := t.wait ++ [(e.1, Nat.lor e.2 w)] }) (setTp s fun t => { t with wait := [] })

/-- A message started, or put in the queue of those that wait. -/
def startMsg (s : State) (m : Slot) : State := startWaiting (setTp s fun t => { t with wait := t.wait ++ [(m, 0)] })

/-- The CQ that a completion of a descriptor goes to. -/
def originCq (s : State) (o : Origin) : Option Nat :=
  match o with
  | .desc wq _ _ _ _ => (mget s.hi.wqs wq).map (·.cq)
  | _ => none

/-- Whether a message's end would need a CQ entry that finds no room (R462). -/
def cqBlocked (s : State) (m : Slot) (status : Nat) : Bool :=
  match m.origin, originCq s m.origin with
  | .desc _ _ _ signal _, some cq => (signal || status != 0) && !cqRoom s cq
  | _, _ => false

/-- Copies of unacknowledged packets retired from the windows (R264). -/
def retireFlits (s : State) (m : Slot) : State :=
  if windowed m then e2eSub s m.dst (m.copies.foldl (fun n e => n + e.2.flits) 0) else s

/-- Packets of a retired message that wait at an injection port lose their slot: none of them is built any more (R244, R270). -/
def orphanItems (s : State) (msgid : Nat) : State :=
  let f : Nat → InjItem → InjItem := fun _ i => match i.slot with
    | some (id, first) => if id = msgid then { i with slot := some (2 ^ 24, first) } else i
    | none => i
  setTp s fun t => { t with inj := mmap t.inj f }

/-- A sender slot freed and its MSGID quarantined (R240). -/
def retireSlot (s : State) (m : Slot) : State :=
  let s := orphanItems (leftFlight (retireFlits s m) m) m.msgid
  setTp s fun t => { t with slots := mdel t.slots m.msgid, quarantine := mset t.quarantine m.msgid s.timeNs }

/-- A message's end (R240, R262, R264): its slot is freed and its MSGID quarantined, unless its completion finds no room
in the CQ, when it keeps its slot (R462). -/
def endMsg (s : State) (m : Slot) (status detail outcome : Nat) : State :=
  if cqBlocked s m status then setSlot s { m with finish := some (status, detail, outcome), timerAt := none }
  else
    let s := retireSlot s m
    let s := if status = 0 then s else inc s F.tpCnt1Giveup
    startWaiting (tell s (.ended m status detail outcome))

/-- The outcome of a message that failed (Table 08-7): a copy that waits unbuilt, or was dropped before it left, has had no effect. -/
def outcomeOf (m : Slot) : Nat :=
  if m.op = opGetReq then 0
  else if !m.anyAcked && m.copies.all fun e => decide (e.2.built ≤ e.2.accounted + e.2.stayed) then 0
  else 2

/-- A message that fails with a status and a detail. -/
def failMsg (s : State) (m : Slot) (status detail : Nat) : State := endMsg s m status detail (outcomeOf m)

/-- A sender slot retired without a completion (R470): its MSGID is quarantined. -/
def dropMsg (s : State) (m : Slot) : State := startWaiting (retireSlot s m)

/-! ### Copies -/

/-- The bytes of one packet of a message as it goes out; of a GET, the request for COUNT packets (R249). -/
def getReqPayload (total count : Nat) : List Byte := toBytes 8 (total % 2 ^ 31 + count % 128 * 2 ^ 31) ++ toBytes 8 0

/-- The item of a copy of packet psn with the given payload. -/
def copyItem (s : State) (m : Slot) (psn flags : Nat) (payload : List Byte) (first : Bool) : InjItem :=
  { itemFor s m.ec m.dst m.tc m.op flags m.off psn m.key m.msgid payload with ec := m.dec, slot := some (m.msgid, first) }

/-- Whether a packet may have a further copy now: within SPAN_US of the span's first copy, or every copy accounted for
(R244). -/
def copyAllowed (s : State) (c : CopySt) : Bool :=
  c.spanBuilt == c.spanAccounted || decide (s.timeNs ≤ c.first + us (rd s F.tpRetrySpanUs))

/-- The record of a packet's copies after one more is built now; a span whose copies are all accounted for is followed
by a new one (R244). -/
def builtAgain (s : State) (c : CopySt) : CopySt :=
  if c.spanBuilt = c.spanAccounted then
    { c with first := s.timeNs, last := s.timeNs, built := c.built + 1, spanBuilt := 1, spanAccounted := 0, waiting := false }
  else { c with last := s.timeNs, built := c.built + 1, spanBuilt := c.spanBuilt + 1, waiting := false }

/-- A packet that no longer waits for its BACKOFF_US. -/
def noWait (m : Slot) (psn : Nat) : Slot := { m with copies := mmod m.copies psn fun c => { c with waiting := false } }

/-- A copy of one packet queued (R256); it is built when the injection scheduler takes it (R244). -/
def resend (s : State) (m : Slot) (psn : Nat) : State × Slot :=
  match mget m.copies psn with
  | none => (s, m)
  | some c => (queueItem s (copyItem s m psn c.flags c.payload false), noWait m psn)

/-- Runs of consecutive numbers in an ascending list: first and length. -/
def runs : List Nat → List (Nat × Nat)
  | [] => []
  | x :: t =>
    match runs t with
    | [] => [(x, 1)]
    | (y, n) :: r => if x + 1 = y then (x, n + 1) :: r else (x, 1) :: (y, n) :: r

/-- Copies of several packets queued; for a GET, one request for each run of missing packets (R249), of at most 64. -/
def resendAll (s : State) (m : Slot) (psns : List Nat) : State × Slot :=
  if m.op = opGetReq then
    (runs psns).foldl (fun (x : State × Slot) r =>
      let m := (List.range r.2).foldl (fun m k => noWait m (r.1 + k)) x.2
      (queueItem x.1 (copyItem x.1 m r.1 flLast (getReqPayload m.total r.2) false), m)) (s, m)
  else psns.foldl (fun (x : State × Slot) psn => resend x.1 x.2 psn) (s, m)

/-- The sent, unacknowledged packets of a message, ascending. -/
def pendingPsns (m : Slot) : List Nat :=
  (m.copies.filter fun e => !isAcked m e.1 && decide (0 < e.2.built)).map (·.1)

/-- A retry of the given packets (R253, R255): fails when the retries are used up or a packet may have no further copy;
packets that wait for their BACKOFF_US are left to it. -/
def retryMsg (s : State) (m : Slot) (psns : List Nat) : State :=
  let free := psns.filter fun k => match mget m.copies k with
    | some c => !c.waiting
    | none => false
  let dead := free.any fun k => match mget m.copies k with
    | some c => !copyAllowed s c
    | none => false
  if rd s F.tpRetryRetries < m.retries + 1 ∨ dead = true then failMsg s m 1 0
  else
    let (s, m) := resendAll s m free
    setSlot s (armTimer s { m with retries := m.retries + 1 })

/-- A LINK_LOST completion (R255): each counts; that of a request's packet makes a new copy, that of an ACK, a NACK or a response is
ignored. -/
def linkLost (s : State) (req : Bool) (msgid psn : Nat) : State :=
  let s := inc s F.tpCnt5LinkLost
  match slotOf s msgid with
  | none => s
  | some m =>
    if !req || m.finish.isSome || isAcked m psn || opAcked m then s
    else if m.op = opGetReq then
      let l := (pendingPsns m).filter fun k => decide (psn ≤ k)
      if l.isEmpty then s else retryMsg s m l
    else if (pendingPsns m).contains psn then retryMsg s m [psn] else s

/-- A copy dropped before it left this device, noted for the outcome (Table 08-7). -/
def copyStayed (s : State) (msgid psn : Nat) : State :=
  setTp s fun t => { t with slots := mmod t.slots msgid fun m =>
    { m with copies := mmod m.copies psn fun c => { c with stayed := c.stayed + 1 } } }

/-! ### Acknowledgements at the sender -/

/-- Packets of a message newly acknowledged: those below base and those of the bitmap, sent and not acknowledged. -/
def newlyAcked (m : Slot) (base : Nat) (bitmap : Nat) : List Nat :=
  (pendingPsns m).filter fun k => decide (k < base) || (decide (base < k) && bitAt bitmap (k - base - 1))

/-- The lowest unacknowledged packet moved over those acknowledged. -/
def advanceBase : Nat → Nat → List Nat → Nat
  | 0, b, _ => b
  | n + 1, b, l => if l.contains b then advanceBase n (b + 1) l else b

/-- A slot with packets acknowledged (R253, R264): the retry count returns to 0 when the lowest advances. -/
def ackPsns (s : State) (m : Slot) (l : List Nat) : State × Slot :=
  let flits := l.foldl (fun n k => n + (match mget m.copies k with | some c => c.flits | none => 0)) 0
  let s := if windowed m then e2eSub s m.dst flits else s
  let acked := l ++ m.acked
  let b := advanceBase acked.length m.base acked
  let m' := { m with acked := acked.filter (fun k => decide (b ≤ k)), base := b, anyAcked := m.anyAcked || !l.isEmpty,
                     copies := m.copies.filter fun e => !(l.contains e.1) && decide (b ≤ e.1),
                     retries := if m.base < b then 0 else m.retries }
  let idle := (pendingPsns m').isEmpty
  (s, if idle then { m' with timerAt := none } else if m.base < b then armTimer s m' else m')

/-- Whether a sample over a packet's life is valid: no HOLD in between (R257). -/
def noHoldSince (s : State) (t : Nat) : Bool := s.tp.holdSince.isNone && decide (s.tp.lastHold ≤ t)

/-- The RTT sample of a packet sent just once (R252), from an ACK or response that arrived at a time. -/
def sampleFrom (s : State) (m : Slot) (psn hold at' : Nat) : State :=
  match mget m.copies psn with
  | some c => if c.built = 1 ∧ noHoldSince s c.last then rttSample s (pairOf (aggOf s m.ec) m.tc) (at' - c.last - hold) else s
  | none => s

/-- Packets to retransmit at once: missing while three or more later ones are placed, at most once per RTO (R254). -/
def fastPsns (s : State) (m : Slot) (base bitmap : Nat) : List Nat :=
  (pendingPsns m).filter fun k =>
    let later := ((List.range 64).filter fun i => bitAt bitmap i && decide (k < base + 1 + i)).length
    decide (3 ≤ later) && !(decide (k < base)) && !(decide (base < k) && bitAt bitmap (k - base - 1))
      && (match mget m.copies k with
          | some c => !c.waiting && copyAllowed s c && (match c.fastAt with
              | some t => decide (t + rtoOf s m.ec m.tc ≤ s.timeNs)
              | none => true)
          | none => false)

/-- Whether the MSGID of a response is outstanding; a late or stray one is counted (R263). -/
def lateResponse (s : State) (msgid : Nat) : State :=
  if mhas s.tp.quarantine msgid then inc s F.tpLateRspLate else inc s F.tpLateRspStray

/-- An ACK at the sender (R247, R253, R254, R266, R267). -/
def ackMsg (s : State) (m : Slot) (p : Pkt) (at' : Nat) : State :=
  let w0 := ofBytes (p.payload.take 8)
  let base := bits w0 0 19
  let sample := bits w0 19 18
  let hold := bits w0 37 16
  let bitmap := if p.payload.length < 16 then 0 else ofBytes ((p.payload.drop 8).take 8)
  let l := newlyAcked m base bitmap
  let s := if bitAt w0 53 || opAcked m then s else sampleFrom s m sample hold at'
  if m.op = opAtomic ∨ m.op = opLock then
    let s := if windowed m then e2eSub s m.dst (m.copies.foldl (fun n e => n + e.2.flits) 0) else s
    let s := updateW s m (hasFlag p flEce) (unackedBytes m)
    setSlot s { m with quietUntil := s.timeNs + us 250, anyAcked := true,
                       copies := mmap m.copies fun _ c => { c with flits := 0 } }
  else
    let bytes := l.foldl (fun n k => n + (match mget m.copies k with | some c => c.payload.length | none => 0)) 0
    let s := updateW s m (hasFlag p flEce) bytes
    let fast := fastPsns s m base bitmap
    let (s, m) := ackPsns s m l
    if m.base = m.npkts then endMsg s m 0 0 0
    else
      let m := { m with copies := fast.foldl (fun cs k => mmod cs k fun c => { c with fastAt := some s.timeNs }) m.copies }
      let (s, m) := resendAll s m (fast.filter fun k => mhas m.copies k)
      startWaiting (setSlot s m)

/-- A NACK at the sender (Table 08-5, R250, R251); of a GET it refuses the packets that the last request from its PSN asked for. -/
def nackMsg (s : State) (m : Slot) (p : Pkt) : State :=
  let w0 := ofBytes (p.payload.take 8)
  let kind := bits w0 0 16
  let psn := bits w0 16 18
  let count := ((mget m.copies psn).map fun c => c.asked).getD 0
  let psns := if m.op = opGetReq then (pendingPsns m).filter fun k => decide (psn ≤ k ∧ k < psn + count) else [psn]
  let account := fun (m : Slot) => { m with copies := psns.foldl (fun cs k => mmod cs k fun c =>
    { c with accounted := c.accounted + 1, spanAccounted := c.spanAccounted + 1 }) m.copies }
  if 1 ≤ kind ∧ kind ≤ 4 then
    let m := account m
    setSlot s (armTimer s { m with copies := psns.foldl (fun cs k => mmod cs k fun c =>
      { c with waiting := true, nackKind := kind, waitUntil := s.timeNs + us (bits w0 34 16) }) m.copies })
  else if 5 ≤ kind ∧ kind ≤ 10 then failMsg s (account m) 3 kind
  else failMsg s m 3 11

/-! ### Receiver records -/

/-- The key of a record: (SRC, MSGID) (R241). -/
def recKey (src msgid : Nat) : Nat := src * 2 ^ 24 + msgid

def setRec (s : State) (k : Nat) (r : Rec) : State := setTp s fun t => { t with recs := mset t.recs k r }

/-- STAMP of a copy: arrival time less AGE (R243). -/
def stampOf (at' : Nat) (p : Pkt) : Int := (at' : Int) - (us p.age : Nat)

/-- The ACK of a message (Table 08-3), with ECE when a packet that it newly acknowledges carried CE (R248); the flagged
packet of a held flag shows as not placed (R260). -/
def sendAck (s : State) (k : Nat) (r : Rec) (sample hold : Nat) (dup : Bool) : State :=
  let held := fun psn => match r.flag with
    | some f => f.psn == psn
    | none => false
  let base := match r.flag with
    | some f => min r.base f.psn
    | none => r.base
  let bitmap := (List.range 64).foldl (fun n i =>
    if (decide (base + 1 + i < r.base) || r.placed.contains (base + 1 + i)) && !held (base + 1 + i) then n + 2 ^ i else n) 0
  let w0 := base % 2 ^ 19 + sample % 2 ^ 18 * 2 ^ 19 + min hold 65535 * 2 ^ 37 + bit dup * 2 ^ 53
  let payload := toBytes 8 w0 ++ (if bitmap = 0 then [] else toBytes 8 bitmap)
  let s := sendReply s r.ec (k / 2 ^ 24) r.tc opAck (if r.ce then flLast + flEce else flLast) 0 0 0 (k % 2 ^ 24) payload
  setRec s k { r with since := 0, firstAt := none, ce := false }

/-- What the record check decides (R236 step 5). -/
inductive RecCheck where
  | go (s : State) (k : Nat) (r : Rec)
  | stop (s : State)

/-- The opcode of the response that answers a request. -/
def rspOp (op : Nat) : Nat := if op = opLock then opLockRsp else opAtomicRsp

/-- The record check (R241, R242, R245) of a packet that arrived at a time: a duplicate is discarded, counted and answered; a copy too far
above BASE is discarded; a new message takes a record, or draws RETRY_LATER when none is free. -/
def recCheck (s : State) (p : Pkt) (at' : Nat) : RecCheck :=
  let k := recKey p.src p.msgid
  match mget s.tp.recs k with
  | some r =>
    let r := { r with stamp := max r.stamp (stampOf at' p) }
    let s := setRec s k r
    if p.psn < r.base ∨ r.placed.contains p.psn ∨ r.seen.any (·.1 == p.psn) then
      let s := inc s F.tpCnt2Dup
      match r.rsp with
      | some b => .stop (sendReply (inc s F.tpCnt2EoHit) r.ec p.src r.tc (rspOp r.op) flLast 0 0 0 p.msgid b)
      | none => .stop (sendAck s k r p.psn (s.timeNs - at') true)
    else if r.base + 64 < p.psn then .stop s
    else .go s k r
  | none =>
    if 8388608 ≤ s.tp.recs.length then .stop (sendNack (inc s F.tpCnt4RecNack) p 1 (rd s F.tpNackCfgRecUs))
    else
      let r : Rec :=
        { ec := p.ec, op := p.op, tc := p.tc, base := 0, placed := [], last := none, stamp := stampOf at' p,
          since := 0, firstAt := none, ce := false, bytes := 0, flag := none, rsp := none, running := false,
          seen := [], place := none, done := false }
      if 64 < p.psn then .stop (setRec s k r) else .go (setRec s k r) k r

/-- A record whose packet is refused: it keeps STAMP (R243), and the packet is no longer taken in. -/
def unsee (s : State) (k psn : Nat) : State :=
  setTp s fun t => { t with recs := mmod t.recs k fun r =>
    { r with seen := r.seen.filter (·.1 != psn), running := false, firstAt := if r.running then none else r.firstAt, ce := r.ce && !r.running } }

/-- A packet taken in and not yet placed, with the time of its arrival and its CE. -/
def see (s : State) (k : Nat) (p : Pkt) (at' : Nat) : State :=
  setTp s fun t => { t with recs := mmod t.recs k fun r => { r with seen := (p.psn, at', hasFlag p flCe) :: r.seen } }

/-- An ATOMIC or LOCK taken in: an ACK is due unless its response goes out within TIME_NS (R247). -/
def seeOp (s : State) (k : Nat) : State :=
  setTp s fun t => { t with recs := mmod t.recs k fun r =>
    { r with running := true, firstAt := some ((r.seen.map (·.2.1)).headD s.timeNs, 0), ce := r.seen.any (·.2.2) } }

/-- A packet refused with a NACK after its record check. -/
def refuse (s : State) (p : Pkt) (kind backoff : Nat) : State :=
  sendNack (unsee s (recKey p.src p.msgid) p.psn) p kind backoff

/-- The earlier of two arrivals. -/
def earlier (a : Option (Nat × Nat)) (b : Nat × Nat) : Option (Nat × Nat) :=
  match a with
  | some x => some (if b.1 < x.1 then b else x)
  | none => some b

/-- A packet placed: the record and the ACK of R246, sent at once on LAST, on CE, or when `now` asks for it (R285), with the time since
the packet arrived as HOLD.  ECE follows the CE of what is acknowledged (R248): that of a held flagged packet waits with it. -/
def placePsn (s : State) (p : Pkt) (bytes : Nat) (now : Bool) : State :=
  let k := recKey p.src p.msgid
  match mget s.tp.recs k with
  | none => s
  | some r =>
    let placed := p.psn :: r.placed
    let b := advanceBase placed.length r.base placed
    let last := if hasFlag p flLast then some p.psn else r.last
    let at' := ((r.seen.find? (·.1 == p.psn)).map (·.2.1)).getD s.timeNs
    let ce := hasFlag p flCe
    let held := match r.flag with
      | some f => f.psn == p.psn
      | none => false
    let r := { r with placed := placed.filter (fun k => decide (b ≤ k)), base := b, last := last,
                      seen := r.seen.filter (·.1 != p.psn), bytes := r.bytes + bytes, since := r.since + 1,
                      firstAt := earlier r.firstAt (at', p.psn), ce := r.ce || (ce && !held),
                      flag := if held then r.flag.map fun f => { f with ce := ce } else r.flag,
                      done := match last with
                        | some l => decide (l + 1 ≤ b)
                        | none => false }
    let s := pmSample (setRec s k r) 2 1 (arrivalId p) [0]
    if now || hasFlag p flLast || ce || decide (rd s F.tpAckCount ≤ r.since) then sendAck s k r p.psn (s.timeNs - at') false
    else s

/-- The response of an ATOMIC or LOCK kept in its record and sent (R245, R247). -/
def answer (s : State) (ec src tc op msgid : Nat) (b : List Byte) : State :=
  let k := recKey src msgid
  let s := setTp s fun t => { t with recs := mmod t.recs k fun r =>
    { r with rsp := some b, running := false, base := max r.base 1, seen := [], firstAt := none, since := 0, done := true } }
  sendReply s ec src tc (rspOp op) flLast 0 0 0 msgid b

end Sys2Proof.Machine
end

