-- ==== Sys2Proof/Machine/Xl.lean ====
section
/-!
DEFINITION. Machine/Xl.lean: address translation (10): domains (R303), the walker and its windows (R304 to R309), the
L1 cache and L2 store (R310), key rights (R312, R314), fault kinds (R315) and what an invalidation removes (R317, R318).
-/

namespace Sys2Proof.Machine

def setXl (s : State) (f : XlSt → XlSt) : State := { s with xl := f s.xl }

/-- The key of a translation: domain and page. -/
def pageKey (dom page : Nat) : Nat := dom * 2 ^ 36 + page

/-- Whether a domain is valid and names a function (R303, R315 row 2). -/
def domServes (s : State) (dom hp fn : Nat) : Bool :=
  rdb s F.xlDomValid dom && rd s F.xlDomHp dom == hp && rd s F.xlDomFunc dom == fn

/-- What a leaf and the key rights refuse (R314, rows 7 to 11 of Table 10-4); class 0 read, 1 write, 2 atomic. -/
def leafFault (leaf pkrr cls : Nat) : Option Nat :=
  let key := bits leaf 4 4
  if cls != 1 && !bitAt leaf 1 then some 7
  else if cls != 0 && !bitAt leaf 2 then some 8
  else if cls == 2 && !bitAt leaf 3 then some 9
  else if bitAt pkrr (2 * key) then some 10
  else if cls != 0 && bitAt pkrr (2 * key + 1) then some 11
  else none

/-- The result of translating one page. -/
inductive Tr where
  | pa (a : Nat)
  | miss
  | hard (kind : Nat)
deriving DecidableEq, Repr

/-- A fill of a store of at most `size` entries: a random entry gives way (R310). -/
def fillRandom (s : State) (m : Map Nat) (size k v : Nat) : State × Map Nat :=
  if mhas m k ∨ m.length < size then (s, mset m k v)
  else
    match pick s m with
    | some e => (drawn s, mset (mdel m e.1) k v)
    | none => (s, mset m k v)

/-- A translation installed in L1. -/
def fillL1 (s : State) (k leaf : Nat) : State :=
  let (s, m) := fillRandom s s.xl.l1 2048 k leaf
  setXl s fun x => { x with l1 := m }

/-- A translation installed in L2. -/
def fillL2 (s : State) (k leaf : Nat) : State :=
  let (s, m) := fillRandom s s.xl.l2 (512 * 2 ^ 20) k leaf
  setXl s fun x => { x with l2 := m }

/-- An uncorrectable HBM word that an HBM_UE reports may be a translation of L2 (R310, R513; log entry 94): the word is discarded, and
L2_ECC counts it; the access that read it then misses. -/
def l2Struck (s : State) (src : Nat) : State :=
  if src ≠ 6 ∨ s.xl.l2.isEmpty = true then s
  else
    let hit := freeNat s % 2 == 1
    let s := drawn s
    match pick s s.xl.l2 with
    | some e => if hit then inc (setXl (drawn s) fun x => { x with l2 := mdel x.l2 e.1 }) F.xlCnt1L2Ecc else s
    | none => s

/-- A leaf checked and turned into a host address. -/
def leafPa (leaf pkrr cls dva : Nat) : Tr :=
  match leafFault leaf pkrr cls with
  | some k => .hard k
  | none => .pa (bits leaf 12 40 * 4096 + dva % 4096)

/-- A translation of one byte address (R309, R315): L1, then L2, then a walk. -/
def translate (s : State) (dom hp fn pkrr cls dva : Nat) : State × Tr :=
  if 2 ^ 48 ≤ dva then (s, .hard 1)
  else if !domServes s dom hp fn then (s, .hard 2)
  else
    let k := pageKey dom (dva / 4096)
    match mget s.xl.l1 k with
    | some leaf => (s, leafPa leaf pkrr cls dva)
    | none =>
      let s := inc (pmCount s 0x60 0 1 1) F.xlCnt0L1Miss
      match mget s.xl.l2 k with
      | some leaf => (fillL1 s k leaf, leafPa leaf pkrr cls dva)
      | none => (inc s F.xlCnt0L2Miss, .miss)

/-- A span cut at page boundaries (R305): DVA and length of each piece, at most n pieces. -/
def cutPages : Nat → Nat → Nat → List (Nat × Nat)
  | 0, _, _ => []
  | n + 1, dva, len =>
    if len = 0 then []
    else
      let here := min len (4096 - dva % 4096)
      (dva, here) :: cutPages n (dva + here) (len - here)

/-- The pieces of a span. -/
def piecesOf (dva len : Nat) : List (Nat × Nat) := cutPages (len / 4096 + 2) dva len

/-- The result of translating spans: host address and length of each piece, or the first page that misses or faults. -/
inductive TrSpan where
  | ok (l : List (Nat × Nat))
  | miss (dva : Nat)
  | hard (kind dva : Nat)
deriving DecidableEq, Repr

/-- Pieces translated one by one; the first that fails ends the access (R305). -/
def translatePieces (s : State) (dom hp fn pkrr cls : Nat) : List (Nat × Nat) → State × TrSpan
  | [] => (s, .ok [])
  | (dva, len) :: t =>
    match translate s dom hp fn pkrr cls dva with
    | (s, .miss) => (s, .miss dva)
    | (s, .hard k) => (s, .hard k dva)
    | (s, .pa a) =>
      match translatePieces s dom hp fn pkrr cls t with
      | (s, .ok l) => (s, .ok ((a, len) :: l))
      | (s, r) => (s, r)

/-- Spans translated with what an arrival was admitted with. -/
def translateAdm (s : State) (a : Adm) : State × TrSpan :=
  translatePieces s a.dom a.hp a.fn a.pkrr a.cls (a.spans.flatMap fun x => piecesOf x.1 x.2)

/-- The pages of spans, with their domain. -/
def pagesOf (a : Adm) : List (Nat × Nat) :=
  (a.spans.flatMap fun x => piecesOf x.1 x.2).map fun x => (a.dom, x.1 / 4096)

/-- A fault recorded in XL_FAULT_LAST and XL_FAULT_INFO and counted in XL_CNT2 (R316); kinds 3, 4 and 6 are paging. -/
def recordFault (s : State) (ec dom cls level kind dva : Nat) : State :=
  let s := wr s F.xlFaultLastDva dva
  let s := wr (wr (wr s F.xlFaultInfoEc ec) F.xlFaultInfoDomain dom) F.xlFaultInfoClass cls
  let s := wr (wr s F.xlFaultInfoLevel level) F.xlFaultInfoKind kind
  if kind = 3 ∨ kind = 4 ∨ kind = 6 then inc s F.xlCnt2Paging else inc s F.xlCnt2Hard

/-- Whether a fault kind is handled on the paging path (Table 10-4). -/
def pagingKind (k : Nat) : Bool := k == 3 || k == 4 || k == 6

/-- Walks that run. -/
def runningWalks (s : State) : Nat := mcount s.xl.walks fun _ w => w.running

/-- A waiter for the walk of the page of a DVA: it joins the walk of the same page, else a new walk starts, or waits for a walker beyond
the 64th and counts (R309). -/
def awaitWalk (s : State) (dom dva : Nat) (w : Waiter) : State :=
  let page := dva / 4096
  match s.xl.walks.find? fun e => e.2.dom == dom && e.2.page == page && !e.2.cancelled with
  | some e => setXl s fun x => { x with walks := mset x.walks e.1 { e.2 with waiters := e.2.waiters ++ [(dva, w)] } }
  | none =>
    let run := decide (runningWalks s < 64)
    let s := pmCount s 0x60 0 2 1
    let s := if run then s else inc s F.xlCnt1WalkWait
    setXl s fun x => { x with walks := mset x.walks x.next ⟨dom, page, run, false, [(dva, w)]⟩, next := x.next + 1 }

/-- A walk ended; the earliest that waits for a walker starts. -/
def endWalk (s : State) (id : Nat) : State :=
  let s := setXl s fun x => { x with walks := mdel x.walks id }
  match s.xl.walks.find? fun e => !e.2.running with
  | some e => if runningWalks s < 64 then setXl s fun x => { x with walks := mset x.walks e.1 { e.2 with running := true } } else s
  | none => s

/-- Whether the walk windows of a port let the walker read a table's page (R307). -/
def windowsAllow (s : State) (hp page : Nat) : Bool :=
  let covers := fun i => rdb s F.xlWinBaseValid i && rd s F.xlWinBaseHp i == hp
    && decide (rd s F.xlWinBaseAddr i ≤ page) && decide (page ≤ rd s F.xlWinLimitAddr i)
  (List.range 16).any (fun i => covers i && rdb s F.xlWinBaseMem i)
    && !(List.range 16).any (fun i => covers i && !rdb s F.xlWinBaseMem i)

/-- The end of a walk: the leaf, or a fault kind and its level (3 for PT4 to 0 for PT1). -/
inductive WalkEnd where
  | leaf (e : Nat)
  | fault (kind level : Nat)
deriving DecidableEq, Repr

/-- A walk from a table page at a level with the reads that host memory answered (R304 to R308, rows 3 to 6). -/
def walkFrom (s : State) (hp : Nat) : Nat → Nat → List WalkRead → WalkEnd
  | level, page, rs =>
    if !windowsAllow s hp page then .fault 3 level
    else
      match rs with
      | [] => .fault 4 level
      | .aborted :: _ => .fault 4 level
      | .word w :: rs =>
        let e := w.toNat
        if !bitAt e 0 then .fault 6 level
        else if bits e 8 4 != 0 || bitAt e 63 then .fault 5 level
        else
          match level with
          | 0 => .leaf e
          | l + 1 => walkFrom s hp l (bits e 12 40) rs

/-- The walk of a domain; a port that does not serve aborts it (R325). -/
def walk (s : State) (dom : Nat) (rs : List WalkRead) : WalkEnd :=
  let hp := rd s F.xlDomHp dom
  if !serving s hp then .fault 4 3 else walkFrom s hp 3 (rd s F.xlDomRoot dom) rs

/-! ### Invalidation -/

/-- Whether a page lies in an invalidation's scope (R317): 1 PAGES, 2 DOMAIN, 3 ALL. -/
def inScope (scope dom first count : Nat) (d page : Nat) : Bool :=
  scope == 3 || (d == dom && (scope == 2 || (decide (first ≤ page) && decide (page < first + count))))

/-- Translations within a scope removed from L1 and L2, and the running walks within it marked to install nothing (R318); a walk that
still waits for a walker reads its tables later. -/
def purge (s : State) (f : Nat → Nat → Bool) : State :=
  let keep := fun (k : Nat) (_ : Nat) => !f (k / 2 ^ 36) (k % 2 ^ 36)
  setXl s fun x =>
    { x with l1 := mfilter x.l1 keep, l2 := mfilter x.l2 keep,
             walks := mmap x.walks fun _ w => if w.running && f w.dom w.page then { w with cancelled := true } else w }

/-- An invalidation accepted: it purges at once, and completes once the walks and accesses within its scope have ended
(R318). -/
def startInval (s : State) (seq : Option Nat) (scope dom first count : Nat) (origin : Option Origin) : State :=
  let f := inScope scope dom first count
  let walks := (s.xl.walks.filter fun e => e.2.running && f e.2.dom e.2.page).map (·.1)
  let accs := (s.mr.accs.filter fun e => e.2.pages.any fun p => f p.1 p.2).map (·.1)
  let s := purge s f
  setXl s fun x => { x with invals := mset x.invals x.nextInv ⟨seq, dom, first, count, accs, walks, origin⟩,
                            nextInv := x.nextInv + 1 }

/-- Whether an invalidation can complete: its walks and accesses have ended, HOLD is not active (R324), and, for a
command of XL_INVAL_CMD, every earlier one has completed (R317). -/
def invalReady (s : State) (id : Nat) (v : Inval) : Bool :=
  !holdOn s && v.walks.all (fun w => !mhas s.xl.walks w) && v.accs.all (fun a => !mhas s.mr.accs a)
    && (v.seq.isNone || s.xl.invals.all fun e => !e.2.seq.isSome || decide (id ≤ e.1))

/-- A domain's sweep begun: its translations go, and SWEEP reads 1 until it ends (R322). -/
def sweepDomain (s : State) (dom : Nat) : State :=
  let s := purge s (inScope 2 dom 0 0)
  wrb (setXl s fun x => { x with sweeps := dom :: x.sweeps.erase dom }) F.xlDomSweep true dom

/-- A domain removed (R323): VALID clears and a sweep runs. -/
def removeDomain (s : State) (dom : Nat) : State := sweepDomain (wrb s F.xlDomValid false dom) dom

end Sys2Proof.Machine
end

