-- ==== Sys2Proof/Machine/Mr.lean ====
section
/-!
DEFINITION. Machine/Mr.lean: the region table (11): keys and generations (R328 to R330), the checks of Table 11-3
(R337), admissions and their end (R338, R347), the fault table (R342 to R344) and revocation (R348).
-/

namespace Sys2Proof.Machine

def setMr (s : State) (f : MrSt → MrSt) : State := { s with mr := f s.mr }

/-- The entries of the region table (R329). -/
def mrSize (s : State) : Nat := s.txn.arm.regionSize

/-- The generation after the present one: modulo 2^15, skipping 0 (R330). -/
def nextGen (g : Nat) : Nat := if (g + 1) % 2 ^ 15 = 0 then 1 else (g + 1) % 2 ^ 15

/-- The first free entry after the most recently registered one, ascending and wrapping at SIZE (R330). -/
def freeRegion (s : State) : Option Nat :=
  let n := mrSize s
  ((List.range n).map fun k => (s.mr.lastIdx + k) % n).find? fun i => rd s F.mrEntryState i == 0

/-- The key of an entry (R328). -/
def keyOf (s : State) (i : Nat) : Nat := i + rd s F.mrEntryGen i * 2 ^ 17

/-- The entry that a key names (step 1 of Table 11-3). -/
def regionOf (s : State) (key : Nat) : Option Nat :=
  let i := key % 2 ^ 17
  if i < mrSize s ∧ rd s F.mrEntryState i ≠ 0 ∧ rd s F.mrEntryGen i = key / 2 ^ 17 then some i else none

/-- A region written by a registration (R334): STATE ACTIVE, IN_USE, the generation raised. -/
def register (s : State) (i hp fn dom off len dva pkrr rd' wr' at' pkMode : Nat) : State :=
  let gen := nextGen (rd s F.mrEntryGen i)
  let w0 := 1 + 4 + rd' * 8 + wr' * 16 + at' * 32 + pkMode * 64 + fn * 256 + hp * 2 ^ 16 + dom * 2 ^ 20 + pkrr % 2 ^ 32 * 2 ^ 32
  let base := 0x06C00000 + 32 * i
  let s := csrPut s base (BitVec.ofNat 64 w0)
  let s := csrPut s (base + 8) (BitVec.ofNat 64 (off % 2 ^ 46 + gen * 2 ^ 46))
  let s := csrPut s (base + 16) (BitVec.ofNat 64 (len % 2 ^ 47))
  let s := csrPut s (base + 24) (BitVec.ofNat 64 (dva % 2 ^ 48))
  setMr s fun m => { m with lastIdx := (i + 1) % mrSize s }

/-- A region freed (R348): every field cleared but GEN. -/
def freeEntry (s : State) (i : Nat) : State :=
  let gen := rd s F.mrEntryGen i
  let base := 0x06C00000 + 32 * i
  let s := csrPut s base 0
  let s := csrPut s (base + 8) (BitVec.ofNat 64 (gen * 2 ^ 46))
  csrPut (csrPut s (base + 16) 0) (base + 24) 0

/-- Regions that a VF holds, REVOKING included (Table 11-2 row 4). -/
def regionsOf (s : State) (hp fn : Nat) : List Nat :=
  (s.csr.filterMap fun (e : Nat × Word) =>
    if 0x06C00000 ≤ e.1 ∧ e.1 < 0x07000000 ∧ e.1 % 32 = 0 then some ((e.1 - 0x06C00000) / 32) else none).filter
    fun i => rd s F.mrEntryState i != 0 && rd s F.mrEntryHp i == hp && rd s F.mrEntryFunc i == fn

/-- Every region in use. -/
def regionsUsed (s : State) : List Nat :=
  (s.csr.filterMap fun (e : Nat × Word) =>
    if 0x06C00000 ≤ e.1 ∧ e.1 < 0x07000000 ∧ e.1 % 32 = 0 then some ((e.1 - 0x06C00000) / 32) else none).filter
    fun i => rd s F.mrEntryState i != 0

/-! ### Epochs and accesses -/

/-- The current configuration epoch (R55, R59). -/
def epochNow (s : State) : Nat := rd s F.txnEpochEpoch

/-- MR_EPOCH_DONE: the highest epoch below which no admitted access is unfinished (R347). -/
def refreshEpochDone (s : State) : State :=
  wr s F.mrEpochDoneEpoch (s.mr.epochs.foldl (fun n e => min n e.1) (epochNow s))

/-- An admission (R337 step 6). -/
def admitTo (s : State) (i : Nat) : State × (Nat × Nat) :=
  let e := epochNow s
  let s := wr (pmCount s 0x68 0 1 1) F.mrEntryInflight (rd s F.mrEntryInflight i + 1) i
  (refreshEpochDone (setMr s fun m => { m with epochs := mset m.epochs e (mgetD m.epochs e 0 + 1) }), (i, e))

/-- An admission's end (R338): INFLIGHT falls; a region being revoked whose count reaches 0 starts its zero-length read
(R348). -/
def leave (s : State) (x : Option (Nat × Nat)) : State :=
  match x with
  | none => s
  | some (i, e) =>
    let s := wr s F.mrEntryInflight (rd s F.mrEntryInflight i - 1) i
    let n := mgetD s.mr.epochs e 0
    let s := refreshEpochDone (setMr s fun m => { m with epochs := if n ≤ 1 then mdel m.epochs e else mset m.epochs e (n - 1) })
    if rd s F.mrEntryInflight i = 0 ∧ rd s F.mrEntryState i = 2 then
      emit (setMr s fun m => { m with revokes := mmod m.revokes i fun r => { r with reading := true } })
        (.hostRead (rd s F.mrEntryHp i) 0 0)
    else s

/-- An access to host memory begun. -/
def beginAcc (s : State) (a : Acc) : State :=
  setMr s fun m => { m with accs := mset m.accs m.nextAcc a, nextAcc := m.nextAcc + 1 }

/-- An access ended. -/
def endAcc (s : State) (id : Nat) (a : Acc) : State :=
  leave (setMr s fun m => { m with accs := mdel m.accs id }) a.mr

/-- Bytes written to host memory through a port, piece by piece. -/
def writePieces (s : State) (hp : Nat) : List (Nat × Nat) → List Byte → State
  | [], _ => s
  | (a, n) :: t, bs => writePieces (emit s (.hostBytes hp a (bs.take n))) hp t (bs.drop n)

/-- Reads of host memory started, piece by piece. -/
def readPieces (s : State) (hp : Nat) : List (Nat × Nat) → State
  | [] => s
  | (a, n) :: t => readPieces (emit s (.hostRead hp a n)) hp t

/-! ### The checks of Table 11-3 -/

/-- The right that an opcode needs (R336): 0 RD, 1 WR, 2 AT. -/
def rightOf (op : Nat) : Nat := if op = opGetReq then 0 else if op = opAtomic ∨ op = opLock then 2 else 1

/-- The bytes that a packet touches, as offsets and lengths (R336); `opLen` is the operand bytes of an atomic or lock
operation. -/
def touched (p : Pkt) (opLen : Nat) : List (Nat × Nat) :=
  if p.op = opPut then
    let n := if hasFlag p flFlag then p.len - 16 else p.len
    (p.off + 4096 * p.psn, n) ::
      (if hasFlag p flFlag then [(ofBytes ((p.payload.drop (p.len - 16)).take 8) % 2 ^ 46, 8)] else [])
  else if p.op = opGetReq then
    let w := ofBytes (p.payload.take 8)
    let total := w % 2 ^ 31
    let count := bits w 31 7
    let first := min total (4096 * p.psn)
    [(p.off + first, min total (4096 * (p.psn + count)) - first)]
  else if p.op = opMcPut then [(p.off + 4096 * p.psn, p.len)]
  else [(p.off, opLen)]

/-- The answer of Table 11-3 steps 1 to 6: a NACK kind with its BACKOFF_US, or what the packet is admitted with. -/
inductive MrAnswer where
  | nack (s : State) (kind backoff : Nat)
  | admitted (s : State) (a : Adm)

/-- The checks of Table 11-3 up to admission (R337). -/
def mrCheck (s : State) (p : Pkt) (opLen : Nat) : MrAnswer :=
  match regionOf s p.key, ctxOf s p.ec with
  | some i, some c =>
    let spans := touched p opLen
    let right := rightOf p.op
    let base := rd s F.mrEntryOffBase i
    let len := rd s F.mrEntryLen i
    if rd s F.mrEntryDomain i ≠ c.dom then .nack (inc s F.mrCnt0KeyInvalid) 7 0
    else if rd s F.mrEntryState i ≠ 1 then .nack (inc s F.mrCnt1Revoked) 10 0
    else if (if right = 0 then rd s F.mrEntryRd i else if right = 1 then rd s F.mrEntryWr i else rd s F.mrEntryAt i) = 0 then
      .nack (inc s F.mrCnt0AccessDenied) 8 0
    else if !(spans.all fun x => x.2 == 0 || (decide (base ≤ x.1) && decide (x.1 + x.2 ≤ base + len))) then .nack (inc s F.mrCnt1Bounds) 9 0
    else if rd s F.mrEntryInflight i = 65535 then .nack s 1 (rd s F.mrPageCfgBackoffUs)
    else
      let (s, e) := admitTo s i
      let pkrr := if rdb s F.mrEntryPkMode i then rd s F.mrEntryPkrr i else c.pkrr
      .admitted s
        { mr := some e, dom := c.dom, hp := rd s F.mrEntryHp i, fn := rd s F.mrEntryFunc i, pkrr := pkrr, cls := right,
          spans := spans.map fun x => (rd s F.mrEntryDva i + (x.1 - base), x.2), recv := none }
  | _, _ => .nack (inc s F.mrCnt0KeyInvalid) 7 0

/-! ### The fault table -/

/-- MR_PAGE_STAT brought into step with the fault table. -/
def refreshPageStat (s : State) : State :=
  wr (wr s F.mrPageStatOpen s.mr.faults.length) F.mrPageStatFailed (mcount s.mr.faults fun _ f => f.failed)

/-- The fault-table entry of a page. -/
def faultFor (s : State) (dom page : Nat) : Option (Nat × FaultEnt) :=
  s.mr.faults.find? fun e => e.2.dom == dom && e.2.page == page

/-- A paging fault on a page (R342): it joins the page's entry, or takes the lowest free one, which writes PAGE_FAULT
to the domain's function; with the table full it takes none. -/
def pageFault (s : State) (dom page kind cls : Nat) : State × Option (Nat × FaultEnt) :=
  match faultFor s dom page with
  | some e => (s, some e)
  | none =>
    match mfree s.mr.faults 4096 with
    | none => (s, none)
    | some id =>
      let f : FaultEnt := ⟨dom, page, kind, cls, false, s.timeNs⟩
      let s := refreshPageStat (setMr s fun m => { m with faults := mset m.faults id f })
      let w0 := 0x30 + kind * 2 ^ 8 + cls * 2 ^ 12 + id * 2 ^ 16 + dom * 2 ^ 28
      (event s (rd s F.xlDomHp dom) (rd s F.xlDomFunc dom) w0 (page * 4096), some (id, f))

/-- A fault-table entry freed. -/
def freeFault (s : State) (id : Nat) : State :=
  refreshPageStat (setMr s fun m => { m with faults := mdel m.faults id })

/-- The messages that stall on a fault-table entry. -/
def stalledOn (s : State) (id : Nat) : List Slot :=
  (s.tp.slots.filter fun e => e.2.stall == some id).map (·.2)

/-- The receives whose data stalls on a fault-table entry. -/
def stalledRecvs (s : State) (id : Nat) : List (Nat × Recv) := s.mt.recvs.filter fun e => e.2.stall == some id

def setRecv (s : State) (id : Nat) (r : Recv) : State := { s with mt := { s.mt with recvs := mset s.mt.recvs id r } }

/-- Collective operations whose result stalls on a fault-table entry, released to retry, or failed (R404). -/
def unstallOps (s : State) (id : Nat) (fail : Bool) : State :=
  (s.cl.groups.filter fun e => e.2.ops.any fun o => o.2.stall == some id).foldl (fun s e =>
    let f : Nat → CollOp → CollOp := fun _ o =>
      if o.stall == some id then
        { o with stall := none, failed := o.failed || fail, pend := (if fail then [] else o.pend) }
      else o
    let g := { e.2 with ops := mmap e.2.ops f }
    tell { s with cl := { s.cl with groups := mset s.cl.groups e.1 g } } (.collRetry e.1)) s

/-- The WQs whose next descriptor stalls on a fault-table entry. -/
def stalledWqs (s : State) (id : Nat) : List (Nat × Wq) := s.hi.wqs.filter fun e => e.2.stall == some id

/-- Whether a collective operation stalls on a fault-table entry. -/
def stalledOps (s : State) (id : Nat) : Bool := s.cl.groups.any fun e => e.2.ops.any fun o => o.2.stall == some id

/-- Those WQs no longer stalled. -/
def unstallWqs (s : State) (id : Nat) : State :=
  { s with hi := { s.hi with wqs := mmap s.hi.wqs fun _ w => if w.stall = some id then { w with stall := none } else w } }

/-- Stalled work released to translate afresh (R340). -/
def releaseStalled (s : State) (id : Nat) : State :=
  let s := (stalledOn s id).foldl (fun s m => tell (setSlot s { m with stall := none }) (.slotRetry m.msgid)) s
  let s := (stalledRecvs s id).foldl (fun s e => tell (setRecv s e.1 { e.2 with stall := none }) (.recvRetry e.1)) s
  unstallWqs (unstallOps s id false) id

/-- Stalled work ended with a descriptor error of a kind (R343, R323); a receive whose data cannot be placed ends with
PLACE_ERROR. -/
def failStalled (s : State) (id kind : Nat) : State :=
  let s := (stalledOn s id).foldl (fun s m => endMsg s { m with stall := none } 15 kind 0) s
  let s := (stalledRecvs s id).foldl (fun s e =>
    tell (setRecv s e.1 { e.2 with stall := none, failed := true, pend := [] }) (.recvRetry e.1)) s
  let s := (stalledWqs s id).foldl (fun s e => tell s (.descFail e.1 kind)) s
  unstallWqs (unstallOps s id true) id

/-- RETRY: the entry is freed, and stalled work retries (R343). -/
def resolveRetry (s : State) (id : Nat) : State := freeFault (releaseStalled s id) id

/-- FAIL: stalled work ends with the entry's KIND, and the entry stays FAILED (R343). -/
def resolveFail (s : State) (id : Nat) (f : FaultEnt) : State :=
  refreshPageStat (setMr (failStalled s id f.kind) fun m =>
    { m with faults := mset m.faults id { f with failed := true, since := s.timeNs } })

/-- The fault-table entries of a domain freed, its stalled work ending with kind DOMAIN (R350, R323). -/
def freeDomainFaults (s : State) (dom : Nat) : State :=
  (s.mr.faults.filter fun e => e.2.dom == dom).foldl (fun s e => freeFault (failStalled s e.1 2) e.1) s

/-! ### Revocation -/

/-- The mark phase (R348): STATE becomes REVOKING; with nothing in flight the zero-length read starts at once. -/
def markRevoking (s : State) (i : Nat) (r : Revoke) : State :=
  let s := wr s F.mrEntryState 2 i
  let now := rd s F.mrEntryInflight i == 0
  let s := setMr s fun m => { m with revokes := mset m.revokes i { r with reading := now } }
  if now then emit s (.hostRead (rd s F.mrEntryHp i) 0 0) else s

/-- Results of MR_CMDs reported in issue order (R349). -/
def retireCmds : Nat → State → State
  | 0, s => s
  | n + 1, s =>
    let d := (rd s F.mrCmdStatDone + 1) % 65536
    match mget s.mr.results d with
    | some r =>
      retireCmds n (wr (wr (setMr s fun m => { m with results := mdel m.results d }) F.mrCmdStatDone d) F.mrCmdStatLastResult r)
    | none => s

/-- The result of one MR_CMD known. -/
def cmdResult (s : State) (seq r : Nat) : State :=
  retireCmds 64 (setMr s fun m => { m with results := mset m.results seq r })

end Sys2Proof.Machine
end

