-- ==== Sys2Proof/Machine/Sched.lean ====
section
/-!
DEFINITION. Machine/Sched.lean: the gates of R481: the kiln gate (R491 to R495), policers (R488, R489), and the injection
scheduler with its shapers and calendar (R482, R483, R486, R487).
-/

namespace Sys2Proof.Machine

def setKn (s : State) (f : KilnSt → KilnSt) : State := { s with kn := f s.kn }

/-! ### The kiln gate -/

/-- C, in nJ (two's complement in POOL_NJ). -/
def poolC (s : State) : Int := toSigned 32 (rd s F.knCreditPoolNj)

/-- The threshold of a bulk class (R493): 1 B1, 2 B2, 3 B3. -/
def gateThreshold (s : State) (cls : Nat) : Int :=
  match cls with
  | 1 => 0
  | 2 => (rd s F.knCreditAllowNj / 4 : Nat)
  | _ => (rd s F.knCreditAllowNj / 2 : Nat)

/-- Energy of 64 bytes of a class in pJ. -/
def ecost (s : State) (cls : Nat) : Nat :=
  match cls with
  | 1 => rd s F.knEcostB1Pj
  | 2 => rd s F.knEcostB2Pj
  | _ => rd s F.knEcostB3Pj

/-- Whether a bulk unit may start (R493, R500). -/
def gateOpen (s : State) (cls : Nat) : Bool :=
  decide (gateThreshold s cls < poolC s) && !(brownOn s && !holdOn s)

/-- C after a unit of n bytes has started. -/
def drawC (s : State) (cls n : Nat) : State :=
  wr s F.knCreditPoolNj (ofSigned 32 (poolC s - (ceilDiv n 64 * ecost s cls / 1000 : Nat)))

/-- A class noted as waiting at the gate in this period (R494). -/
def noteWait (s : State) (cls : Nat) : State := setKn s fun k => { k with waited := cls :: k.waited.erase cls }

/-! ### Policers -/

/-- The policer of an EC's function, when POL_EN is set. -/
def policerOf (s : State) (ec : Nat) : Option Nat :=
  match ctxOf s ec with
  | some c =>
    let i := c.hp * 256 + c.fn
    if rdb s F.scFnPolEn i then some (rd s F.scFnPol i) else none
  | none => none

/-- A bucket's size in bytes: at least 4,224 (R488). -/
def bucketSize (n : Nat) : Nat := max 4224 n

/-- A policer's buckets refilled to now: committed and peak tokens in eight-thousandths of a byte (R488). -/
def refill (s : State) (i : Nat) : Nat × Nat :=
  let cmax := 8000 * bucketSize (rd s F.scPolCbs i)
  let pmax := 8000 * bucketSize (rd s F.scPolPbs i)
  match mget s.sc.pol i with
  | none => (cmax, pmax)
  | some (c, p, t) =>
    let dt := s.timeNs - t
    let cir := rd s F.scPolCir i
    let pir := max cir (rd s F.scPolPir i)
    (min cmax (c + cir * dt), min pmax (p + pir * dt))

/-- Colour of a packet of n bytes (RFC 2698, colour-blind): 0 green, 1 yellow, 2 red. -/
def colour (s : State) (i n : Nat) : Nat :=
  let b := refill s i
  if b.2 < 8000 * n then 2 else if b.1 < 8000 * n then 1 else 0

/-- Tokens taken by a packet that passes: from both buckets when green, from the peak bucket when yellow. -/
def takeTokens (s : State) (i n col : Nat) : State :=
  let b := refill s i
  let c := if col = 0 then b.1 - 8000 * n else b.1
  let p := if col = 2 then b.2 else b.2 - 8000 * n
  setSc s fun x => { x with pol := mset x.pol i (c, p, s.timeNs) }

/-- The action on a colour (R489): 0 PASS, 1 DEMOTE, 2 HOLD; a reserved code holds. -/
def polAction (s : State) (i col : Nat) : Nat :=
  if col = 0 then 0 else if col = 1 then rd s F.scPolYellowAct i else rd s F.scPolRedAct i

/-- What a policer does with a packet of n bytes (R489): the state, and the action. `fresh` says it has not been counted. -/
def police (s : State) (i n : Nat) (fresh : Bool) : State × Nat :=
  let col := colour s i n
  let s := if !fresh then s else if col = 1 then inc s F.scPolYellow 1 i else if col = 2 then inc s F.scPolRed 1 i else s
  let act := polAction s i col
  if act = 0 ∨ act = 1 then (takeTokens s i n col, act) else (s, 2)

/-! ### Shapers and the calendar -/

/-- A shaper's credit now, in eightieths of a byte (R486): it starts at 0 and grows only while EN is 1. -/
def shaperCredit (s : State) (k t : Nat) : Int :=
  let i := portTc k t
  let burst : Int := (80 * max 4224 (64 * rd s F.scShapeBurst i) : Nat)
  let (c, at') := mgetD s.sc.shape i (0, 0)
  let rate := rd s F.scShapeRate i
  let grow := fun (t0 t1 : Nat) => ((rate * (t1 - t0) : Nat) : Int)
  if !rdb s F.scShapeEn i then c
  else if rdb s F.scShapeAccum i then min burst (c + grow at' s.timeNs)
  else
    let idle := fun (t1 : Nat) => if c < 0 then min 0 (c + grow at' t1) else c
    match queueOf s k t with
    | [] => idle s.timeNs
    | e :: _ =>
      let t0 := max at' e.2.enqAt
      min burst (idle t0 + grow t0 s.timeNs)

/-- Credits written down for now: before a queue's population or a packet changes them. -/
def settleShaper (s : State) (k t : Nat) : State :=
  let c := shaperCredit s k t
  setSc s fun x => { x with shape := mset x.shape (portTc k t) (c, s.timeNs) }

/-- Whether a TC may send on a port now (R486, R487). -/
def shapeAllows (s : State) (k t : Nat) : Bool :=
  if rdb s F.scCfgCal then
    rdb s F.scTcCalFree t
      || (rd s F.scCalTc s.sc.calSlot == t && decide (mgetD s.sc.calUsed k 0 < rd s F.scCalBytes s.sc.calSlot))
  else !rdb s F.scShapeEn (portTc k t) || decide (0 ≤ shaperCredit s k t)

/-- The charge of a packet sent (R486, R487). -/
def chargeShape (s : State) (k t n : Nat) : State :=
  if rdb s F.scCfgCal then
    if rdb s F.scTcCalFree t then s
    else setSc s fun x => { x with calUsed := mset x.calUsed k (mgetD x.calUsed k 0 + n) }
  else if rdb s F.scShapeEn (portTc k t) then
    let c := shaperCredit s k t - ((80 * n : Nat) : Int)
    setSc s fun x => { x with shape := mset x.shape (portTc k t) (c, s.timeNs) }
  else s

/-! ### The injection scheduler -/

/-- The item at the head of a TC queue. -/
def tcHead (s : State) (k t : Nat) : Option (Nat × Nat × InjItem) :=
  match mget s.sc.head (portTc k t) with
  | some (id, f) => (mget s.tp.inj id).map fun it => (f, id, it)
  | none => none

/-- Whether a TC queue is eligible (R483): a packet, its shaper, and room in the account or the pool. -/
def tcEligible (s : State) (k t : Nat) : Bool :=
  match tcHead s k t with
  | some (_, _, it) =>
    shapeAllows s k t && (injectAccount s k (startVc s it.htc it.op) (flitsOf it.payload.length) (it.op == opMcPut)).isSome
  | none => false

/-- The choice of R483: a strict TC from 7 down, else the least finish tag, ties to the higher TC. -/
def chooseTc (s : State) (k : Nat) : Option Nat :=
  let up := [7, 6, 5, 4, 3, 2, 1, 0]
  match up.find? fun t => rdb s F.scTcStrict t && tcEligible s k t with
  | some t => some t
  | none =>
    let l := up.filterMap fun t =>
      if !rdb s F.scTcStrict t && tcEligible s k t then (tcHead s k t).map fun h => (h.1, t) else none
    (leastTag l).map (·.2)

/-- An item served leaves its queue; V and the previous tags follow at both levels (R482). -/
def dequeue (s : State) (k t id : Nat) (it : InjItem) (f : Nat) : State :=
  let key := portTc k t
  let fnF := it.fnTag.getD 0
  let s := settleShaper s k t
  let s := setSc s fun x =>
    { x with tcV := mset x.tcV k f, tcPrev := mset x.tcPrev key f, fnV := mset x.fnV key fnF,
             fnPrev := mset x.fnPrev (key * 1024 + it.fn) fnF, head := mdel x.head key }
  chargeShape (setTp s fun x => { x with inj := mdel x.inj id }) k t (itemBytes it)

/-- The first copy of a packet built (R244, R253), of a GET each packet that its request asks for: its times, and the message's
timer; of an RTS the time that R292 counts from. -/
def firstBuilt (s : State) (msgid psn : Nat) (payload : List Byte) : State :=
  match slotOf s msgid with
  | none => s
  | some m =>
    let n := if m.op = opGetReq then bits (ofBytes (payload.take 8)) 31 7 else 1
    let cs := (List.range n).foldl (fun cs j => mmod cs (psn + j) fun c =>
      if c.built = 0 then
        { c with first := s.timeNs, last := s.timeNs, firstEver := s.timeNs, built := 1, spanBuilt := 1 }
      else c) m.copies
    let s := match m.rdv with
      | some i => { s with mt := { s.mt with rdv := mmod s.mt.rdv i fun r => { r with sentAt := r.sentAt.or (some s.timeNs) } } }
      | none => s
    setSlot s (if m.timerAt.isSome then { m with copies := cs } else armTimer s { m with copies := cs })

/-- The packets that an item's copy carries, or asks for, which are not acknowledged yet. -/
def itemPsns (m : Slot) (it : InjItem) : List Nat :=
  let n := if m.op = opGetReq then bits (ofBytes (it.payload.take 8)) 31 7 else 1
  ((List.range n).map (it.psn + ·)).filter fun k => mhas m.copies k && !isAcked m k

/-- Whether an item is still to be built: its message is under way, and what it carries is not acknowledged (R244, R270). -/
def liveItem (s : State) (it : InjItem) : Bool :=
  match it.slot with
  | none => true
  | some (id, _) => match slotOf s id with
    | some m => m.finish.isNone && !(itemPsns m it).isEmpty
    | none => false

/-- A further copy of a message's packets built now (R244, R256): counted, and for a GET what it asks for noted. -/
def copyBuilt (s : State) (m : Slot) (it : InjItem) : State :=
  let l := itemPsns m it
  let cs := l.foldl (fun cs k => mmod cs k (builtAgain s)) m.copies
  let n := if m.op = opGetReq then bits (ofBytes (it.payload.take 8)) 31 7 else 0
  let s := inc (pmCount s 0x50 m.tc 2 1) F.tpCnt1Retx
  setSlot s { m with copies := mmod cs it.psn fun c => { c with asked := n } }

/-- Whether a further copy that waits may not be built any more (R244). -/
def tooLate (s : State) (it : InjItem) : Bool :=
  match it.slot with
  | some (id, false) => match slotOf s id with
    | some m => (itemPsns m it).any fun k => match mget m.copies k with
      | some c => !copyAllowed s c
      | none => false
    | none => false
  | _ => false

/-- A packet injected (R25, R85, R207): built with AGE 0, routed, and stored; a request with no route ends its message as
UNREACHABLE. -/
def injectPacket (s : State) (k : Nat) (it : InjItem) : State :=
  let p := mkPkt s it.dst it.htc it.op it.ec it.flags it.off it.psn it.key it.msgid it.payload
  let s := pmCount s 0x50 p.tc 1 1
  let acct := (injectAccount s k p.vc (flitsOf p.len) (p.op == opMcPut)).getD true
  match it.unit with
  | some u => injectPkt s k p [(u, vcOn s p u)] acct true
  | none =>
    if p.op = opMcPut then
      let outs := multicastOuts s p (128 + k)
      if decide (s.txn.arm.mcSize ≤ p.dst) || !rdb s F.swMcValid (p.dst % 65536) then inc s F.swDropMcInvalid 1 k
      else
        let s := countUnrouted s p (128 + k)
        if outs.isEmpty then s else injectPkt s k p outs acct false
    else
      match routeChoice s p (128 + k) with
      | (s, some o) =>
        let s := injectPkt s k p [(o, vcOn s p o)] acct false
        match it.slot with
        | some (id, true) => firstBuilt s id it.psn it.payload
        | some (id, false) => (match slotOf s id with
          | some m => copyBuilt s m it
          | none => s)
        | none => s
      | (s, none) =>
        match it.slot with
        | some (id, _) =>
          match slotOf s id with
          | some m => failMsg s m 2 0
          | none => s
        | none => inc s F.rtPktDrop3Unreach

/-- Copies of a port that are needed no more leave their queues unbuilt (R244, R253, R270): no tag, shaper or slot counts them. -/
def dropDead (s : State) (k : Nat) : State :=
  (s.tp.inj.filter fun e => e.2.port == k && !liveItem s e.2).foldl (fun (s : State) (e : Nat × InjItem) =>
    setTp (settleShaper s k e.2.tc) fun x => { x with inj := mdel x.inj e.1 }) s

/-- What the injection scheduler takes: a copy that may not be built any more ends its message (R244, R253). -/
def injectItem (s : State) (k : Nat) (it : InjItem) : State :=
  if tooLate s it then
    match it.slot.bind fun x => slotOf s x.1 with
    | some m => failMsg s m 1 0
    | none => s
  else injectPacket s k it

end Sys2Proof.Machine
end

