-- ==== Sys2Proof/Machine/At.lean ====
section
/-!
DEFINITION. Machine/At.lean: the AT role (14): atomic operations on a word (Table 14-2), the lock word and the lock
wait table (R432 to R437), freeing the locks of a lost requester (R440, R442), holds records, and the messages that the
role sends itself (R439, R441).
-/

namespace Sys2Proof.Machine

def setAt (s : State) (f : AtSt → AtSt) : State := { s with at' := f s.at' }

/-- Word i of a payload (little-endian). -/
def payWord (p : Pkt) (i : Nat) : Nat := ofBytes ((p.payload.drop (8 * i)).take 8)

/-! ### Atomic operations -/

/-- Whether an AOP takes OP2 (Table 14-2). -/
def aopHas2 (aop : Nat) : Bool := aop == 2 || aop == 3

/-- The PCIe AtomicOp of an AOP: Swap, CAS and FetchAdd (Table 14-2). -/
def aopPcie (aop : Nat) : Bool := aop == 1 || aop == 2 || aop == 4

/-- Operand bytes of an ATOMIC. -/
def atomicSize (p : Pkt) : Nat := if bitAt (payWord p 0) 5 then 8 else 4

/-- The format of an ATOMIC: a listed AOP and the LEN it asks for (R430). -/
def atomicFormatBad (p : Pkt) : Bool :=
  let aop := payWord p 0 % 32
  decide (13 ≤ aop) || p.len != (if aopHas2 aop then 24 else 16)

/-- The new value of a word of `size` bytes (Table 14-2); none where a floating-point sum is a NaN, whose pattern the
specification does not give. -/
def aopNew (aop size old op1 op2 : Nat) : Option Nat :=
  let w := 8 * size
  let m := 2 ^ w
  let a := op1 % m
  let b := op2 % m
  match aop with
  | 0 => some old
  | 1 => some a
  | 2 => some (if old = b then a else old)
  | 3 => some (Nat.lor (old - Nat.land old b) (Nat.land a b))
  | 4 => some ((old + a) % m)
  | 5 => some (Nat.land old a)
  | 6 => some (Nat.lor old a)
  | 7 => some (Nat.xor old a)
  | 8 => some (if toSigned w old ≤ toSigned w a then old else a)
  | 9 => some (if toSigned w old ≤ toSigned w a then a else old)
  | 10 => some (min old a)
  | 11 => some (max old a)
  | _ => (if size = 4 then fp32 else fp64).add old a

/-- Whether an operation writes its word: READ and a failed CAS do not (R431). -/
def aopWrites (aop size old op2 : Nat) : Bool := aop != 0 && !(aop == 2 && old != op2 % 2 ^ (8 * size))

/-- Whether an operation runs as a PCIe AtomicOp (R431). -/
def usesPcie (s : State) (hp aop : Nat) : Bool :=
  aopPcie aop && rdb s F.atCfgPcieAtomic && (portOf s hp).cfg.atomicCompleter

/-- An atomic operation whose read (or AtomicOp) has returned the old value: the new value is written, and the old one
answered (R430, R431). -/
def runAtomic (s : State) (p : Pkt) (hp pa old : Nat) : State :=
  let size := atomicSize p
  let aop := payWord p 0 % 32
  let op2 := payWord p 2
  let s := inc (pmCount s 0x90 (pa / 8) 1 1) F.atCnt0Atomics
  let s :=
    if usesPcie s hp aop || !aopWrites aop size old op2 then s
    else
      match aopNew aop size old (payWord p 1) op2 with
      | some v => emit s (.hostBytes hp pa (toBytes size v))
      | none => drawn (emit s (.hostBytes hp pa (toBytes size (freeNat s))))
  answer s p.ec p.src p.tc opAtomic p.msgid (toBytes 8 old)

/-! ### Locks -/

/-- Entries of the lock wait table in use (R436). -/
def atUsed (s : State) : Nat :=
  s.at'.locks.foldl (fun n e => n + 1 + e.2.waiters.length) 0 + s.at'.holds.length

def atFull (s : State) : Bool := decide (16777216 ≤ atUsed s)

/-- A lock word (Table 14-3). -/
def lockWord (dev req : Nat) (held abandoned waiters : Bool) (grants : Nat) : Nat :=
  dev % 2 ^ 18 + req % 2 ^ 14 * 2 ^ 18 + bit held * 2 ^ 32 + bit abandoned * 2 ^ 33 + bit waiters * 2 ^ 34
    + grants % 2 ^ 24 * 2 ^ 40

/-- The word of a held lock. -/
def heldWord (l : LockSt) : Nat := lockWord l.dev l.req true l.abandoned (!l.waiters.isEmpty) l.grants

/-- The lock word written with a posted write. -/
def writeLock (s : State) (hp pa w : Nat) : State := emit s (.hostWords hp pa [BitVec.ofNat 64 w])

/-- A LOCK_RSP (Table 14-5). -/
def lockRsp (s : State) (ec src tc msgid w status waitedUs : Nat) : State :=
  answer s ec src tc opLock msgid (toBytes 8 w ++ toBytes 8 (status % 16 + min waitedUs 65535 * 16))

/-- The wait limit of an ACQUIRE (R435). -/
def waitLimit (s : State) (w : Nat) : Nat := min (if w = 0 then rd s F.atCfgWaitDefUs else w) (rd s F.atCfgWaitMaxUs)

/-- The waiter that the lock passes to: highest PRIO, then first arrived (R435). -/
def firstWaiter : List LockWait → Option LockWait
  | [] => none
  | w :: t =>
    match firstWaiter t with
    | none => some w
    | some x => if w.prio < x.prio then some x else some w

/-- The effective priority (R437). -/
def effPrio (l : LockSt) : Nat := l.waiters.foldl (fun n w => max n w.prio) l.prio

/-- LOCK_NOTICE to the owner's device on TC7, when NOTICE_EN is 1 (R437). -/
def lockNotice (s : State) (l : LockSt) : State :=
  if rdb s F.atCfgNoticeEn then
    let payload := toBytes 8 (l.req % 2 ^ 14 * 2 ^ 8 + effPrio l % 16 * 2 ^ 22 + selfId s * 2 ^ 26)
      ++ toBytes 8 (l.key % 2 ^ 32 + l.off % 2 ^ 32 * 2 ^ 32)
    queueItem (inc s F.atCnt2Notices) { itemFor s 0 l.dev 7 opLockNotice flLast 0 0 0 0 payload with fn := 512 }
  else s

/-- AT_TABLE brought into step (R436). -/
def refreshAt (s : State) : State :=
  wr (wr s F.atTableHeld s.at'.locks.length) F.atTableFree (16777216 - atUsed s)

def setLock (s : State) (k : Nat) (l : LockSt) : State := refreshAt (setAt s fun a => { a with locks := mset a.locks k l })
def delLock (s : State) (k : Nat) : State := refreshAt (setAt s fun a => { a with locks := mdel a.locks k })

/-- A grant to a waiter of a lock that its holder has given up (R434, R435). -/
def passLock (s : State) (k : Nat) (l : LockSt) (abandoned : Bool) : State :=
  match firstWaiter l.waiters with
  | none =>
    writeLock (delLock s k) l.hp l.pa (lockWord l.dev l.req false abandoned false l.grants)
  | some w =>
    let l' := { l with dev := w.src, req := w.req, prio := w.prio, msgid := w.msgid, grants := (l.grants + 1) % 2 ^ 24,
                       abandoned := abandoned, key := w.key, off := w.off, waiters := l.waiters.erase w }
    let s := writeLock (setLock (inc s F.atCnt0Grants) k l') l.hp l.pa (heldWord l')
    lockRsp s w.ec w.src w.tc w.msgid (heldWord l') 0 ((s.timeNs - w.queued) / 1000)

/-- The word that a release leaves. -/
def wordAfter (s : State) (k : Nat) (l : LockSt) (abandoned : Bool) : Nat :=
  match mget s.at'.locks k with
  | some l' => heldWord l'
  | none => lockWord l.dev l.req false abandoned false l.grants

/-- An operation on a held lock (R434). -/
def lockHeld (s : State) (k : Nat) (l : LockSt) (p : Pkt) : State :=
  let w0 := payWord p 0
  let lop := w0 % 8
  let req := bits w0 7 14
  let mine := l.dev == p.src && l.req == req
  let say := fun (s : State) status => lockRsp s p.ec p.src p.tc p.msgid (heldWord l) status 0
  if lop = 0 then
    if mine then say s 5
    else if atFull s then say (inc s F.atCnt2TableFull) 6
    else
      let came := match mget s.tp.recs (recKey p.src p.msgid) with
        | some r => (r.seen.map (·.2.1)).headD s.timeNs
        | none => s.timeNs
      let w : LockWait :=
        { src := p.src, ec := p.ec, tc := p.tc, msgid := p.msgid, req := req, prio := bits w0 3 4,
          waitUs := waitLimit s (bits w0 21 8), since := came, key := p.key, off := p.off, queued := s.timeNs }
      let l' := { l with waiters := l.waiters ++ [w] }
      let s := setLock s k l'
      let s := if l.waiters.isEmpty then writeLock s l.hp l.pa (heldWord l') else s
      let s := if effPrio l < effPrio l' then lockNotice s l' else s
      match mget s.tp.recs (recKey p.src p.msgid) with
      | some r => sendAck s (recKey p.src p.msgid) r p.psn 0 false
      | none => s
  else if lop = 1 then say s (if mine then 5 else 1)
  else if lop = 2 ∨ lop = 3 ∨ lop = 4 then
    if mine && (lop != 4 || l.msgid == payWord p 1 % 2 ^ 24) then
      let ab := lop == 3
      let s := if ab then inc s F.atCnt1Abandoned else s
      let s := passLock s k l ab
      lockRsp s p.ec p.src p.tc p.msgid (wordAfter s k l ab) 3 0
    else say s 4
  else s

/-- A grant on a free word (R434); `abandoned` keeps or sets ABANDONED (R442). -/
def grantLock (s : State) (k : Nat) (p : Pkt) (hp pa w : Nat) (abandoned : Bool) : State :=
  if atFull s then lockRsp (inc s F.atCnt2TableFull) p.ec p.src p.tc p.msgid w 6 0
  else
    let w0 := payWord p 0
    let l : LockSt :=
      { pa := pa, hp := hp, dev := p.src, req := bits w0 7 14, prio := bits w0 3 4, msgid := p.msgid,
        grants := (w / 2 ^ 40 + 1) % 2 ^ 24, abandoned := abandoned, key := p.key, off := p.off, waiters := [] }
    let s := writeLock (setLock (inc s F.atCnt0Grants) k l) hp pa (heldWord l)
    lockRsp s p.ec p.src p.tc p.msgid (heldWord l) 0 0

/-- An operation on a word with no entry, whose read returned w (R434, R442): a word that reads HELD is adopted. -/
def lockFree (s : State) (k : Nat) (p : Pkt) (hp pa w : Nat) : State :=
  let w0 := payWord p 0
  let lop := w0 % 8
  let held := bitAt w 32
  let mine := held && w % 2 ^ 18 == p.src && bits w 18 14 == bits w0 7 14
  let say := fun (s : State) status => lockRsp s p.ec p.src p.tc p.msgid w status 0
  if lop = 0 ∨ lop = 1 then
    if mine then say s 5
    else grantLock (if held then inc s F.atCnt1Abandoned else s) k p hp pa w (held || bitAt w 33)
  else if (lop = 2 ∨ lop = 3) ∧ mine = true then
    let w' := lockWord (w % 2 ^ 18) (bits w 18 14) false (lop == 3) false (w / 2 ^ 40)
    let s := inc s F.atCnt1Abandoned
    lockRsp (writeLock s hp pa w') p.ec p.src p.tc p.msgid w' 3 0
  else say s 4

/-- The key of the 8-byte word at a DVA of a domain (R427). -/
def wordKey (dom dva : Nat) : Nat := dom * 2 ^ 45 + dva / 8

/-- The word that an admitted operation acts on. -/
def admKey (a : Adm) : Nat :=
  match a.spans with
  | [] => 0
  | x :: _ => wordKey a.dom x.1

/-- An operation begun in its channel: on a held lock at once, else with a read of the word or an AtomicOp (R427, R431). -/
def beginOp (s : State) (p : Pkt) (a : Adm) (pa : Nat) : State :=
  let k := admKey a
  match (if p.op = opLock then mget s.at'.locks k else none) with
  | some l => leave (lockHeld s k l p) a.mr
  | none =>
    let aop := payWord p 0 % 32
    let size := if p.op = opLock then 8 else atomicSize p
    let s := if p.op = opAtomic ∧ usesPcie s a.hp aop = true then
        emit s (.hostAtomic a.hp pa aop size (payWord p 1) (payWord p 2))
      else emit s (.hostRead a.hp pa size)
    let s := setAt s fun x => { x with busy := k :: x.busy }
    beginAcc s { what := .atomic p pa, mr := a.mr, hp := a.hp, pages := pagesOf a }

/-- An operation reaches its channel: behind one of the same word it waits (R427). -/
def queueOp (s : State) (p : Pkt) (a : Adm) (pa : Nat) : State :=
  let k := admKey a
  if s.at'.busy.contains k then
    setAt s fun x => { x with waitq := mset x.waitq k (mgetD x.waitq k [] ++ [(p, a, pa)]) }
  else beginOp s p a pa

/-- The operations that wait for a word, begun in order until one reads memory. -/
def drainOps : Nat → State → Nat → State
  | 0, s, _ => s
  | n + 1, s, k =>
    if s.at'.busy.contains k then s
    else
      match mgetD s.at'.waitq k [] with
      | [] => setAt s fun x => { x with waitq := mdel x.waitq k }
      | (p, a, pa) :: t => drainOps n (beginOp (setAt s fun x => { x with waitq := mset x.waitq k t }) p a pa) k

/-- The read of an operation has returned `old`: it runs, and the next of its word begins. -/
def finishOp (s : State) (p : Pkt) (k hp pa old : Nat) : State :=
  let s := setAt s fun x => { x with busy := x.busy.erase k }
  let s := if p.op = opLock then lockFree s k p hp pa old else runAtomic s p hp pa (old % 2 ^ (8 * atomicSize p))
  drainOps ((mgetD s.at'.waitq k []).length + 1) s k

/-- The locks of a device freed as ABANDON frees them (R440). -/
def freeDevice (s : State) (dev : Nat) : State :=
  (s.at'.locks.filter fun e => e.2.dev == dev).foldl (fun s e =>
    match mget s.at'.locks e.1 with
    | some l => passLock (inc s F.atCnt1Abandoned) e.1 l true
    | none => s) s

/-- Waiters for words behind a port that stops serving receive UNAVAILABLE (R443). -/
def failWaiters (s : State) (hp : Nat) : State :=
  (s.at'.locks.filter fun e => e.2.hp == hp).foldl (fun s e =>
    let l := { e.2 with waiters := [] }
    let s := setLock s e.1 l
    e.2.waiters.foldl (fun s w => lockRsp s w.ec w.src w.tc w.msgid (heldWord l) 7 ((s.timeNs - w.queued) / 1000)) s) s

/-! ### The requester's side -/

/-- A requester ID (R433). -/
def reqId (hp fn lane : Nat) : Nat := lane % 32 + fn % 256 * 32 + hp % 2 * 2 ^ 13

/-- The holds record of a requester for a word (R440). -/
def holdFor (s : State) (dev key off req : Nat) : Option (Nat × Hold) :=
  s.at'.holds.find? fun e => e.2.dev == dev && e.2.key == key && e.2.off == off && e.2.req == req

def setHold' (s : State) (id : Nat) (h : Hold) : State := refreshAt (setAt s fun a => { a with holds := mset a.holds id h })
def delHold (s : State) (id : Nat) : State := refreshAt (setAt s fun a => { a with holds := mdel a.holds id })

/-- The LOCK payload (Table 14-4). -/
def lockPayload (lop prio req waitUs ref : Nat) : List Byte :=
  toBytes 8 (lop % 8 + prio % 16 * 8 + req % 2 ^ 14 * 2 ^ 7 + waitUs % 256 * 2 ^ 21) ++ toBytes 8 (ref % 2 ^ 24)

/-- A LOCK message that the AT role sends itself. -/
def sendLock (s : State) (ec dec dst tc key off : Nat) (payload : List Byte) (o : Origin) : State :=
  startMsg s { newMsg s ec dec dst tc opLock 16 1 o with key := key, off := off, prefixBytes := payload, gate := true, chunkEnd := 1 }

/-- ABANDON sent for a holds record (R440, R441). -/
def sendAbandon (s : State) (id : Nat) (h : Hold) : State :=
  let s := setHold' s id { h with abandoning := true, sentAt := s.timeNs }
  sendLock s h.ec h.dec h.dev h.tc h.key h.off (lockPayload 3 0 h.req 0 0) (.abandon id)

/-- The locks of requesters abandoned at a reset (R440): those of a function, or of a whole port. -/
def abandonLocks (s : State) (hp : Nat) (fn : Option Nat) : State :=
  (s.at'.holds.filter fun e =>
    !e.2.abandoning && e.2.req / 2 ^ 13 == hp && (match fn with | some f => bits e.2.req 5 8 == f | none => true)).foldl
    (fun s e => sendAbandon s e.1 { e.2 with since := s.timeNs }) s

/-- What a placed LOCK_RSP does to the holds records (R440): GRANTED makes one, RELEASED removes it. -/
def recordHold (s : State) (m : Slot) (status : Nat) : State :=
  let w0 := ofBytes (m.prefixBytes.take 8)
  let req := bits w0 7 14
  if status = 0 then
    match holdFor s m.dst m.key m.off req with
    | some _ => s
    | none =>
      setHold' s (mnext s.at'.holds 0)
        { dev := m.dst, ec := m.ec, dec := m.dec, tc := m.tc, key := m.key, off := m.off, req := req, abandoning := false,
          marked := false, since := s.timeNs, sentAt := s.timeNs }
  else if status = 3 then
    match holdFor s m.dst m.key m.off req with
    | some (id, _) => delHold s id
    | none => s
  else s

/-! ### Alias reads -/

/-- The result word of an alias slot (R438); where no lock word has come back (NOT_BOUND, UNKNOWN, an answer without a message) its
ABANDONED and GRANTS are open. -/
def aliasWord (status lockW : Nat) : Nat :=
  status % 16 + bit (bitAt lockW 33) * 16 + 32 + lockW / 2 ^ 40 * 2 ^ 40

/-- The offset an alias entry names (bits 209:164 cross a word). -/
def aliasOff (s : State) (i : Nat) : Nat := rd s F.atAliasOffLo i + rd s F.atAliasOffHi i * 2 ^ (F.atAliasOffLo).width

/-- The answer to a read of a slot by a function. -/
def aliasData (s : State) (hp fn i off res : Nat) : State :=
  emit s (.readData (.fn hp fn) (64 * i + off) (BitVec.ofNat 64 res))

/-- Whether a slot is bound to a function (R438). -/
def aliasBound (s : State) (hp fn i : Nat) : Bool :=
  rdb s F.atAliasValid i && rd s F.atAliasHp i == hp && rd s F.atAliasFunc i == fn

/-- The read at the head of a slot's queue answered; the slot keeps the result (R438). -/
def answerAlias (s : State) (i res : Nat) : State :=
  match mgetD s.at'.reads i [] with
  | [] => s
  | r :: t =>
    let s := pmSample s 2 4 (aliasId i r.id) [res % 256]
    let s := aliasData s r.hp r.fn i r.off res
    wrb (setAt s fun a =>
      { a with reads := if t.isEmpty then mdel a.reads i else mset a.reads i t, last := mset a.last i res })
      F.atAliasPending (!t.isEmpty) i

/-- What a read of offset 0x18 returns (R438): the slot's last result, an open value when it has none. -/
def lastResult (s : State) (i : Nat) : Nat :=
  match mget s.at'.last i with
  | some res => res
  | none => freeNat s

/-- The read at the head of a slot's queue begun (R438): its LOCK message sent; a read that needs none is answered, and the next
one follows. -/
def startAlias : Nat → State → Nat → State
  | 0, s, _ => s
  | n + 1, s, i =>
    match mgetD s.at'.reads i [] with
    | [] => s
    | r :: _ =>
      let hp := rd s F.atAliasHp i
      let fn := rd s F.atAliasFunc i
      let lop := r.off / 8
      let ec := rd s F.atAliasEc i
      let req := reqId hp fn (rd s F.atAliasLane i)
      let key := rd s F.atAliasKey i
      let dev := rd s F.atAliasDev i
      let own := match holdFor s dev key (aliasOff s i) req with
        | some (_, h) => h.abandoning
        | none => false
      if !aliasBound s r.hp r.fn i then startAlias n (answerAlias (drawn s) i (aliasWord 8 (freeNat s))) i
      else if lop = 3 then startAlias n (answerAlias (drawn s) i (lastResult s i)) i
      else if own && decide (lop ≤ 1) then startAlias n (answerAlias (drawn s) i (aliasWord 5 (freeNat s))) i
      else
        sendLock s ec ec dev 5 key (aliasOff s i) (lockPayload lop (rd s F.atAliasPrio i) req (rd s F.atAliasWaitUs i) 0)
          (.aliasRd i r.id)

/-- The next read of a slot begun. -/
def beginAlias (s : State) (i : Nat) : State := startAlias ((mgetD s.at'.reads i []).length + 1) s i

/-- CLEANUP of an acquire whose result its thread never learned (R439). -/
def sendCleanup (s : State) (m : Slot) : State :=
  let w0 := ofBytes (m.prefixBytes.take 8)
  sendLock s m.ec m.dec m.dst m.tc m.key m.off (lockPayload 4 0 (bits w0 7 14) 0 m.msgid) .cleanup

end Sys2Proof.Machine
end

