-- ==== Sys2Proof/Machine/Qm.lean ====
section
/-!
DEFINITION. Machine/Qm.lean: work queues and completions (15): the end of a descriptor (R453, R456), WQs in ERROR (R461),
descriptor fields (R454), CQs in ERROR (R463), objects of functions (R474, R475).
-/

namespace Sys2Proof.Machine

def setHi (s : State) (f : HiSt → HiSt) : State := { s with hi := f s.hi }

def setWq (s : State) (k : Nat) (w : Wq) : State := setHi s fun h => { h with wqs := mset h.wqs k w }
def setCq (s : State) (k : Nat) (q : Cq) : State := setHi s fun h => { h with cqs := mset h.cqs k q }

/-! ### CI -/

/-- CI moved over completed positions (R453). -/
def advanceCi : Nat → Wq → Wq
  | 0, w => w
  | n + 1, w =>
    if w.done.contains w.ci then advanceCi n { w with ci := ringAdd w.log2 w.ci 1, done := w.done.erase w.ci } else w

/-- The CI shadow of a WQ written when it is due (R453): CI has advanced, and the WQ is empty or 1 µs has passed since the
last write; a port that does not serve writes nothing (R450). -/
def writeShadow (s : State) (k : Nat) : State :=
  match mget s.hi.wqs k with
  | none => s
  | some w =>
    if w.ci ≠ w.shadowCi ∧ (w.ci = w.pi ∨ w.shadowAt + 1000 ≤ s.timeNs) ∧ serving s (qPort k) = true then
      emit (setWq s k { w with shadowAt := s.timeNs, shadowCi := w.ci })
        (.hostWords (qPort k) w.shadow [BitVec.ofNat 64 w.ci])
    else s

/-- Every CI shadow that is due written. -/
def writeShadows (s : State) : State :=
  (s.hi.wqs.filter fun e => e.2.ci != e.2.shadowCi).foldl (fun s e => writeShadow s e.1) s

/-- A slot freed: CI advances over the oldest run of freed slots (R453). -/
def freeSlot (s : State) (k pos : Nat) : State :=
  match mget s.hi.wqs k with
  | none => s
  | some w =>
    let w := { w with live := w.live.erase pos, done := pos :: w.done }
    writeShadow (setWq s k (advanceCi (w.done.length + 1) w)) k

/-- The CQ that a descriptor's completion goes to: the receive CQ of the EC for RECV and PROBE, else the WQ's (R475). -/
def descCq (s : State) (wq op : Nat) : Option Nat :=
  (mget s.hi.wqs wq).map fun w =>
    if op = 4 ∨ op = 5 then
      match ctxOf s w.ec with
      | some c => qKey (qPort wq) c.rcq
      | none => w.cq
    else w.cq

/-- The completion of the descriptor at a position of a WQ: its CQ entry and its slot freed; with the holding slots of the CQ full as well the
work is not retired yet (R462). -/
def retireDesc (s : State) (cq wq pos : Nat) (c : Cqe) : State :=
  if cqRoom s cq && !(s.hi.unretired.any fun e => e.1 == cq) then freeSlot (complete s cq { c with wq := some wq }) wq pos
  else setHi s fun h => { h with unretired := h.unretired ++ [(cq, wq, pos, c)] }

/-- Work that was not retired for want of room in its CQ retired in its order, as far as there is room now (R462). -/
def retireWaiting (s : State) : State :=
  s.hi.unretired.foldl (fun (s : State) (e : Nat × Nat × Nat × Cqe) => retireDesc s e.1 e.2.1 e.2.2.1 e.2.2.2)
    (setHi s fun h => { h with unretired := [] })

/-- A descriptor's end: its CQ entry, when it failed or asked for one, and its slot freed.  A receive always has one
(R294). -/
def descDone (s : State) (o : Origin) (status outcome detail len w2 w3 : Nat) : State :=
  match o with
  | .desc wq pos op signal user =>
    let id := descId wq pos
    let s := pmSample (pmSample (pmSample s 2 0 id [status]) 2 3 id [status]) 2 4 id [status]
    if signal || status != 0 || op == 4 then
      match descCq s wq op with
      | some cq => retireDesc s cq wq pos (cqe op status outcome detail len user w2 w3)
      | none => freeSlot s wq pos
    else freeSlot s wq pos
  | _ => s

/-- A descriptor error (R457). -/
def descError (s : State) (o : Origin) (kind : Nat) : State := descDone s o 15 0 kind 0 0 0

/-! ### Descriptor fields -/

/-- Word i of a descriptor as a number. -/
def dword (d : List Word) (i : Nat) : Nat := (d.getD i 0).toNat

def dOp (d : List Word) : Nat := bits (dword d 0) 0 8
def dSignal (d : List Word) : Bool := bitAt (dword d 0) 8
def dOrder (d : List Word) : Bool := bitAt (dword d 0) 9
def dInline (d : List Word) : Bool := bitAt (dword d 0) 10
def dFlag (d : List Word) : Bool := bitAt (dword d 0) 11
def dTc (d : List Word) : Nat := bits (dword d 0) 16 3
def dSub (d : List Word) : Nat := bits (dword d 0) 20 12
def dLen (d : List Word) : Nat := bits (dword d 0) 32 31
def dDev (d : List Word) : Nat := bits (dword d 2) 0 18
def dEc (d : List Word) : Nat := bits (dword d 2) 18 20

/-- Whether only the named bits of word i are used: `used` is a mask. -/
def onlyBits (d : List Word) (i used : Nat) : Bool := Nat.land (dword d i) (2 ^ 64 - 1 - used) == 0

/-- A mask of bits hi:lo. -/
def mask (hi lo : Nat) : Nat := 2 ^ (hi + 1) - 2 ^ lo

/-- The bits of words 0 and 2 to 7 that an operation names (R454, Table 15-3): OP, SIGNAL and SUB with its flags. -/
def wordsOk (d : List Word) (w0 w2 w3 w4 w5 w6 w7 : Nat) : Bool :=
  onlyBits d 0 (mask 8 0 + w0) && onlyBits d 2 w2 && onlyBits d 3 w3 && onlyBits d 4 w4 && onlyBits d 5 w5
    && onlyBits d 6 w6 && onlyBits d 7 w7

/-- Every bit of a word. -/
def allBits : Nat := 2 ^ 64 - 1

/-- The listed operations of Table 15-3. -/
def opKnown (op : Nat) : Bool :=
  decide (op ≤ 6) || op == 8 || op == 9 || (decide (0x10 ≤ op) && decide (op ≤ 0x13)) || op == 0x18 || op == 0x19
    || (decide (0x1C ≤ op) && decide (op ≤ 0x1E))

/-! ### Starting descriptors -/

/-- Whether a descriptor of a WQ stalls on a page, when later ones of the WQ wait behind it (R340). -/
def wqStalled (s : State) (k : Nat) : Bool :=
  let mine := fun (o : Origin) => match o with
    | .desc wq _ _ _ _ => wq == k
    | _ => false
  (s.tp.slots.any fun e => e.2.stall.isSome && e.2.kept.isNone && mine e.2.origin)
    || s.cl.groups.any fun g => g.2.ops.any fun o => o.2.stall.isSome && (match o.2.origin with
      | some x => mine x
      | none => false)

/-- Whether a WQ and its port let descriptors start: the port serves, the WQ is READY, or in ERROR by DB_OVERRUN, when
descriptors of earlier doorbells still run (R459), its CQ has room (R450, R462), no descriptor stalls (R340), the device is in
RUN, and XL and MR run (R515). -/
def wqOpen (s : State) (k : Nat) (w : Wq) : Bool :=
  serving s (qPort k) && (w.state == .ready || w.cause == 1) && !w.destroying && cqRoom s w.cq && baseOf s == 2
    && !(portOf s (qPort k)).d3hot.contains w.fn && !blockDown s 0x60 0 && !blockDown s 0x68 0 && !wqStalled s k
    && w.stall.isNone && !w.walking

/-- Whether descriptors of a WQ start now: not while HOLD is active. -/
def wqRuns (s : State) (k : Nat) (w : Wq) : Bool := wqOpen s k w && !holdOn s

/-- The next descriptor of a WQ to start, when it is at hand. -/
def nextDesc (s : State) (k : Nat) : Option (Wq × List Word) :=
  match mget s.hi.wqs k with
  | none => none
  | some w => if w.next = w.pi then none else (mget w.cache w.next).map fun d => (w, d)

/-- The origin of the descriptor at the WQ's next position. -/
def originOf (k : Nat) (w : Wq) (d : List Word) : Origin := .desc k w.next (dOp d) (dSignal d) (dword d 1)

/-- The DVA that a descriptor names (Table 15-3). -/
def descAddr (d : List Word) : Nat :=
  if dOp d = 0x18 then dword d 4 else if dOp d = 0x13 ∨ dOp d = 0x1C then dword d 3 else dword d 5

/-- A descriptor started: it leaves the cache, and the next may follow (R455). -/
def takeDesc (s : State) (k : Nat) (w : Wq) : State :=
  let d := mgetD w.cache w.next []
  let s := pmSample s 3 0 (descId k w.next) [w.ec, dOp d, descAddr d, selfId s, dDev d, dTc d, dLen d]
  setWq (pmCount s 0xA0 (qPort k) 3 1) k { w with cache := mdel w.cache w.next, live := w.next :: w.live, next := ringAdd w.log2 w.next 1 }

/-- A descriptor started and its end that nothing else delays: with a status, or an error of Table 15-5 (R457). -/
def descFails (s : State) (k : Nat) (w : Wq) (d : List Word) (kind : Nat) : State := descError (takeDesc s k w) (originOf k w d) kind

/-- A read of a WQ's ring begun (R460): up to 8 descriptors from the next one that is not at hand, none that is, none beyond PI
and none across the end of the ring; one read runs at a time. -/
def startRead (s : State) (k : Nat) : State :=
  match mget s.hi.wqs k with
  | none => s
  | some w =>
    let slot := w.next % 2 ^ w.log2
    let n := min 8 (min (ringCount w.log2 w.pi w.next) (2 ^ w.log2 - slot))
    let l := ((List.range n).map fun i => ringAdd w.log2 w.next i).takeWhile fun p => !mhas w.cache p
    if !w.reading.isEmpty || l.isEmpty || w.destroying || !(w.state == .ready || w.cause == 1) || !serving s (qPort k) || baseOf s != 2
    then s
    else emit (setWq s k { w with reading := l }) (.hostRead (qPort k) (w.addr + 64 * slot) (64 * l.length))

/-- Every ring read that is due begun. -/
def startReads (s : State) : State := s.hi.wqs.foldl (fun s e => startRead s e.1) s

/-! ### WQs and CQs in ERROR -/

/-- Positions from a to b of a ring. -/
def positions (k a b : Nat) : List Nat := (List.range (ringCount k b a)).map fun i => ringAdd k a i

/-- QM_FN_STAT's counts of objects in ERROR. -/
def refreshFnStat (s : State) (hp fn : Nat) : State :=
  let i := fnIdx hp fn
  let nw := mcount s.hi.wqs fun k w => qPort k == hp && w.fn == fn && w.state == .error
  let nc := mcount s.hi.cqs fun k q => qPort k == hp && q.fn == fn && q.state == .error
  wr (wr s F.qmFnStatWqErr nw i) F.qmFnStatCqErr nc i

/-- Descriptors at the given positions of a WQ completed FLUSHED in order (R461); OP and USER of one that was never read are
open. -/
def flushDescs (s : State) (k : Nat) (w : Wq) (rest : List Nat) : State :=
  rest.foldl (fun s pos =>
    match mget w.cache pos with
    | some d => descDone s (.desc k pos (dOp d) (dSignal d) (dword d 1)) 14 0 0 0 0 0
    | none =>
      let user := freeNat s
      let s := drawn s
      let op := freeNat s % 256
      descDone (drawn s) (.desc k pos op true user) 14 0 0 0 0 0) s

/-- Each descriptor of a WQ not yet started completes FLUSHED in ring order, and the cache empties (R460, R461). -/
def flushWq (s : State) (k : Nat) (w : Wq) : State :=
  let rest := positions w.log2 w.next w.pi
  flushDescs (setWq s k { w with cache := [], reading := [], live := rest ++ w.live, next := w.pi, stall := none, walking := false }) k w rest

/-- A WQ enters ERROR (R461): each descriptor not started completes FLUSHED, but for those of a DB_OVERRUN, which were covered by
earlier doorbells and run (R459); another cause flushes them after all. -/
def wqError (s : State) (k cause : Nat) : State :=
  match mget s.hi.wqs k with
  | none => s
  | some w =>
    if w.destroying then s
    else if w.state == .error then (if w.cause = 1 ∧ cause ≠ 1 then flushWq s k w else s)
    else
      let w := { w with state := .error, cause := cause }
      let s := wqErrorEvent (setWq s k w) k w.fn cause
      let s := if cause = 1 then s else flushWq s k w
      refreshFnStat s (qPort k) w.fn

/-- The ECs whose receive CQ is a CQ of a port. -/
def ecsOfCq (s : State) (k : Nat) : List (Nat × EcCtx) :=
  s.tp.ecs.filter fun e => qKey e.2.hp e.2.rcq == k

/-- A CQ enters ERROR after its stall limit (R463): its WQs with CQ_STALL, its ECs, and CQ_ERROR. -/
def cqError (s : State) (k : Nat) (q : Cq) : State :=
  let s := setCq s k { q with state := .error, cause := 2 }
  let s := (s.hi.wqs.filter fun e => e.2.cq == k).foldl (fun s e => wqError s e.1 2) s
  let s := (ecsOfCq s k).foldl (fun s e => setCtx s e.1 { e.2 with state := 2 }) s
  let s := refreshFnStat s (qPort k) q.fn
  drawn (event s (qPort k) q.fn (openFields s 0x0A) (freeNat s))

/-! ### Push slots -/

/-- The push slots of a WQ's doorbell page emptied (R458, R459). -/
def clearPush (s : State) (k : Nat) : State := setHi s fun h => { h with push := mdel h.push k }

end Sys2Proof.Machine
end

