-- ==== Sys2Proof/Machine/Mt.lean ====
section
/-!
DEFINITION. Machine/Mt.lean: message matching (09): the lists of an EC and their order (R277 to R282), the unexpected
buffer (R286), receives and their placement (R284, R295), rendezvous (R288 to R292), and the ends of receives (R294).
-/

namespace Sys2Proof.Machine

def setMt (s : State) (f : MtSt → MtSt) : State := { s with mt := f s.mt }

/-! ### Units and occupancy -/

/-- Units of the unexpected buffer. -/
def unexpSize : Nat := 134217728

/-- Units in use (R286): those of unexpected messages, of packets that came before PSN 0, and of receives that have not copied all of them
yet. -/
def unitsUsed (s : State) : Nat :=
  s.mt.unexp.foldl (fun n e => n + e.2.units) 0 + s.mt.recvs.foldl (fun n e => n + e.2.units) 0
    + s.mt.early.foldl (fun n e => e.2.foldl (fun n d => n + ceilDiv d.2.length 64) n) 0

/-- The receives that no arrival has matched. -/
def unmatched (s : State) : List (Nat × Recv) := s.mt.recvs.filter fun e => !e.2.matched

/-- Match-table entries in use, and overflow entries. -/
def onDieCount (s : State) : Nat := ((unmatched s).filter fun e => e.2.onDie).length
def ovfCount (s : State) : Nat := ((unmatched s).filter fun e => !e.2.onDie).length

/-- The occupancy registers brought into step. -/
def refreshMt (s : State) : State :=
  let s := wr (wr s F.mtOccOnDie (onDieCount s)) F.mtOccOvf (ovfCount s)
  wr (wr s F.mtUnexpFree (unexpSize - unitsUsed s)) F.mtRdvPending s.mt.rdv.length

/-- A matching event of an EC's function (Table 09-5); the layout beside CODE is open. -/
def mtEvent (s : State) (ec code : Nat) : State :=
  match ctxOf s ec with
  | some c => drawn (event s c.hp c.fn (openFields s code) (freeNat s))
  | none => s

/-- An EC's overflow segment, oldest first. -/
def overflowOf (s : State) (ec : Nat) : List (Nat × Recv) := (unmatched s).filter fun e => e.2.ec == ec && !e.2.onDie

/-- ECs whose overflow segment is not empty. -/
def overflowEcs (s : State) : List Nat := (((unmatched s).filter fun e => !e.2.onDie).map (·.2.ec)).eraseDups

/-- The next EC in rotation after the last one served. -/
def rotateNext (s : State) : Option Nat :=
  (overflowEcs s).foldl (fun (b : Option Nat) x => match b with
    | none => some x
    | some y => if (x + 2 ^ 20 - s.mt.rotate - 1) % 2 ^ 20 < (y + 2 ^ 20 - s.mt.rotate - 1) % 2 ^ 20 then some x else some y) none

/-- Migration while a match-table entry is free (R280): the head of an overflow segment joins its EC's on-die tail. -/
def migrate : Nat → State → State
  | 0, s => s
  | n + 1, s =>
    if 32768 ≤ onDieCount s then s
    else
      match rotateNext s with
      | none => s
      | some ec =>
        match overflowOf s ec with
        | [] => s
        | (id, r) :: _ =>
          let s := setMt (setRecv s id { r with onDie := true }) fun m => { m with rotate := ec }
          migrate n (if (overflowOf s ec).isEmpty then mtEvent s ec 0x21 else s)

/-- A receive leaves the posted list: OVF_EXIT when it was the last of its overflow segment, then migration. -/
def leftList (s : State) (r : Recv) : State :=
  let s := if !r.onDie && (overflowOf s r.ec).isEmpty then mtEvent s r.ec 0x21 else s
  refreshMt (migrate 1 s)

/-! ### Matching -/

/-- The fields an arrival is matched by. -/
structure Match where
  src : Nat
  srcEc : Nat
  comm : Nat
  bits : Nat

/-- Whether a posted receive matches an arrival (R277). -/
def matches' (comm bits ignore : Nat) (anySrc : Bool) (srcDev srcEc : Nat) (a : Match) : Bool :=
  comm == a.comm && Nat.land (Nat.xor bits a.bits) (2 ^ 64 - 1 - ignore % 2 ^ 64) == 0
    && (anySrc || (srcDev == a.src && srcEc == a.srcEc))

/-- The oldest posted receive of an EC that matches (R281). -/
def findPosted (s : State) (ec : Nat) (a : Match) : Option (Nat × Recv) :=
  (unmatched s).find? fun e =>
    e.2.ec == ec && matches' e.2.comm e.2.bits e.2.ignore e.2.anySrc e.2.srcDev e.2.srcEc a

/-- The first unexpected arrival of an EC that a post's fields match (R282). -/
def findUnexp (s : State) (ec comm bits ignore : Nat) (anySrc : Bool) (srcDev srcEc : Nat) : Option (Nat × Unexp) :=
  s.mt.unexp.find? fun e =>
    e.2.ec == ec && matches' comm bits ignore anySrc srcDev srcEc ⟨e.2.src, e.2.srcEc, e.2.comm, e.2.bits⟩

/-! ### The end of a receive -/

/-- The receive CQ of an EC. -/
def rcqOf (s : State) (ec : Nat) : Option Nat := (ctxOf s ec).map fun c => qKey c.hp c.rcq

/-- Whether a completion into an EC's receive CQ would find no room (R462). -/
def rcqBlocked (s : State) (ec : Nat) : Bool :=
  match rcqOf s ec with
  | some k => !cqRoom s k
  | none => false

/-- A receive ended with a status and detail (R294); without room in its CQ it keeps its state (R462). -/
def endRecv (s : State) (id : Nat) (r : Recv) (status detail len : Nat) : State :=
  if rcqBlocked s r.ec then setRecv s id { r with matched := true, finish := some (status, detail) }
  else
    let s := setMt s fun m => { m with recvs := mdel m.recvs id }
    let s := if status = 1 then inc s F.mtCnt2Truncated else if status = 3 then inc s F.mtCnt3RdvFailed else s
    descDone s r.origin status 0 detail len r.fromBits (r.fromDev % 2 ^ 18 + r.fromEc % 2 ^ 20 * 2 ^ 18)

/-- A receive all of whose data has come and been placed ends RECV_OK, TRUNCATED or PLACE_ERROR (Table 09-4). -/
def settleRecv (s : State) (id : Nat) : State :=
  match mget s.mt.recvs id with
  | none => s
  | some r =>
    if !r.matched || r.finish.isSome || !r.pend.isEmpty || r.rdvTag.isSome || r.got < r.dataLen then s
    else if r.failed then endRecv s id r 4 0 r.dataLen
    else if r.len < r.dataLen then endRecv s id r 1 0 r.dataLen
    else endRecv s id r 0 0 r.dataLen

/-- The part of data at offset `off` that lies within the buffer (R295). -/
def clip (r : Recv) (off : Nat) (bs : List Byte) : List Byte := bs.take (r.len - off)

/-- What a receive's data is translated with. -/
def recvAdm (s : State) (id : Nat) (r : Recv) (off n : Nat) : Adm :=
  match ctxOf s r.ec with
  | some c =>
    { mr := none, dom := c.dom, hp := c.hp, fn := c.fn, pkrr := r.pkrr, cls := 1, spans := [(r.dva + off, n)], recv := some id }
  | none => { mr := none, dom := 0, hp := 0, fn := 512, pkrr := 0, cls := 1, spans := [(r.dva + off, n)], recv := some id }

/-- The units of a receive whose stored data has all been copied freed (R286). -/
def copiedAll (s : State) (id : Nat) : State :=
  refreshMt (setMt s fun m => { m with recvs := mmod m.recvs id fun r => { r with units := 0 } })

/-- Data of a receive that waits copied into its buffer, as far as translation lets it (R284, R340). -/
def flushRecv : Nat → State → Nat → State
  | 0, s, _ => s
  | n + 1, s, id =>
    match mget s.mt.recvs id with
    | none => s
    | some r =>
      if r.stall.isSome || r.walking then s
      else
        match r.pend with
        | [] => settleRecv (copiedAll s id) id
        | (off, bs) :: t =>
          let data := clip r off bs
          let a := recvAdm s id r off data.length
          match translateAdm s a with
          | (s, .ok l) =>
            let s := writePieces s a.hp l data
            let s := beginAcc s { what := .write, mr := none, hp := a.hp, pages := pagesOf a }
            flushRecv n (setRecv s id { r with pend := t }) id
          | (s, .miss dva) => awaitWalk (setRecv s id { r with walking := true }) a.dom dva (.recv id)
          | (s, .hard k dva) =>
            let s := recordFault s r.ec a.dom 1 0 k dva
            settleRecv (copiedAll (setRecv s id { r with failed := true, pend := [] }) id) id

/-- Data that a receive has taken over, counted and copied (R284). -/
def giveData (s : State) (id : Nat) (off : Nat) (bs : List Byte) : State :=
  match mget s.mt.recvs id with
  | none => s
  | some r =>
    let keep := !r.failed && decide (0 < (clip r off bs).length)
    let r := { r with got := r.got + bs.length, pend := if keep then mset r.pend off bs else r.pend }
    flushRecv (r.pend.length + 1) (setRecv s id r) id

/-! ### Rendezvous -/

/-- FIN to the sender of a rendezvous (R289, Table 09-2). -/
def sendFin (s : State) (r : Recv) (tag status kind bytes : Nat) : State :=
  let payload := toBytes 8 0 ++ toBytes 8 (r.ec % 2 ^ 20 * 2 ^ 16 + 2 ^ 36 + tag % 2 ^ 26 * 2 ^ 38)
    ++ toBytes 8 (status % 256 + kind % 65536 * 256) ++ toBytes 8 (bytes % 2 ^ 31 * 2 ^ 32)
  startMsg s { newMsg s r.ec r.fromEc r.fromDev r.tc opSendRts 32 1 .fin with prefixBytes := payload, gate := true, chunkEnd := 1 }

/-- The end of a rendezvous GET (R289): FIN, then the receive's completion. -/
def endRdv (s : State) (id : Nat) (r : Recv) (status kind : Nat) (place : Bool) : State :=
  let tag := r.rdvTag.getD 0
  let n := min r.dataLen r.len
  let fin := if status != 0 then 2 else if n < r.dataLen then 1 else 0
  let s := sendFin s r tag fin kind (if status = 0 then n else 0)
  let r := { r with rdvTag := none, got := r.dataLen }
  if status = 0 then settleRecv (setRecv s id r) id
  else if place then endRecv s id r 4 0 r.dataLen
  else endRecv s id r 3 kind r.dataLen

/-- A matched RTS: a GET of the smaller of the data and the buffer (R289). -/
def startRdv (s : State) (id : Nat) (r : Recv) (tag off key : Nat) : State :=
  let n := min r.dataLen r.len
  let r := { r with rdvTag := some tag }
  let s := setRecv s id r
  if n = 0 then endRdv s id r 0 0 false
  else
    startMsg s
      { newMsg s r.ec r.fromEc r.fromDev r.tc opGetReq n (ceilDiv n 4096) (.rdvGet id) with
        key := key, off := off, result := .dva r.dva, pkrr := r.pkrr,
        bulk := decide (rd s F.scCfgSmallMax < n) && r.tc != 7 }

/-- A receive matched with an arrival: its fields recorded. -/
def matched (s : State) (id : Nat) (r : Recv) (a : Match) (dataLen tc : Nat) : State :=
  setRecv (pmCount s 0x58 r.ec 1 1) id { r with matched := true, fromDev := a.src, fromEc := a.srcEc, fromBits := a.bits, dataLen := dataLen, tc := tc }

/-- The event of a full unexpected buffer: after 1 ms without such a NACK (R286). -/
def unexpNack (s : State) (ec : Nat) : State :=
  let s := inc s F.mtCnt2UnexpNack
  let fire := match s.mt.unexpFullAt with
    | none => true
    | some t => decide (t + ms 1 ≤ s.timeNs)
  let s := setMt s fun m => { m with unexpFullAt := some s.timeNs }
  if fire then mtEvent s ec 0x22 else s

/-- Data that came before PSN 0 moved to where the message has been put (R284). -/
def takeEarly (s : State) (k : Nat) : State × Map (List Byte) :=
  (setMt s fun m => { m with early := mdel m.early k }, mgetD s.mt.early k [])

/-- The offset in the data of packet psn of a SEND (R275). -/
def sendOff (psn : Nat) : Nat := if psn = 0 then 0 else psn * 4096 - 16

/-- A rendezvous entry ended by the limit, a close or an EPOCH_NOTICE (R291, R292): status NACKED, DETAIL
ENDPOINT_UNAVAILABLE, outcome UNKNOWN. -/
def endRdvEntry (s : State) (i : Nat) (r : Rdv) : State :=
  let s := refreshMt (setMt s fun m => { m with rdv := mdel m.rdv i })
  startWaiting (descDone s r.origin 3 2 5 0 0 0)

/-- An EC's matching state dropped at its close (R297): unmatched receives CANCELLED in post order, unexpected entries
and their units freed; OVF_EXIT when its overflow segment was not empty (R280). -/
def closeMatching (s : State) (ec : Nat) (silent : Bool) : State :=
  let l := (unmatched s).filter fun e => e.2.ec == ec
  let s := l.foldl (fun s e =>
    if silent then setMt s fun m => { m with recvs := mdel m.recvs e.1 } else endRecv s e.1 e.2 2 0 0) s
  let s := setMt s fun m => { m with unexp := mfilter m.unexp fun _ u => u.ec != ec }
  let s := if l.any (fun e => !e.2.onDie) then mtEvent s ec 0x21 else s
  refreshMt (migrate l.length s)

end Sys2Proof.Machine
end

