-- ==== Sys2Proof/Machine/Cl.lean ====
section
/-!
DEFINITION. Machine/Cl.lean: the CL role (13): groups and trees (R386 to R388), chunks and positions (R391, R395, R396),
combining (R397 to R400), hop reliability (R401 to R403), results (R404), aborts (R405) and STATE (R409).
-/

namespace Sys2Proof.Machine

def grp (s : State) (g : Nat) : CollGrp := mgetD s.cl.groups g {}
def setGrp (s : State) (g : Nat) (x : CollGrp) : State := { s with cl := { s.cl with groups := mset s.cl.groups g x } }

/-! ### Types and chunks -/

/-- Element size (Table 13-4). -/
def elemSize (dtype : Nat) : Nat :=
  match dtype with
  | 0 | 1 | 4 => 4
  | 5 => 2
  | _ => 8

/-- E, elements per chunk (Table 13-4). -/
def chunkElems (dtype : Nat) (exact : Bool) : Nat := if exact then 96 else 4096 / elemSize dtype

/-- Whether a type allows an operator, and EXACT (R390). -/
def operOk (coll oper dtype : Nat) (exact : Bool) : Bool :=
  if coll = 4 then !exact
  else if coll = 2 then decide (dtype ≤ 6) && !exact
  else decide (dtype ≤ 6) && decide (oper ≤ 5) && (decide (dtype ≤ 3) || decide (oper ≤ 2))
    && (!exact || (oper == 0 && (dtype == 4 || dtype == 5)))

/-- The total T of an operation (R391). -/
def collTotal (coll count members : Nat) : Nat :=
  if coll = 4 then 0 else if coll = 3 then count * members else count

/-- Chunks of an operation (R391). -/
def collChunks (coll dtype : Nat) (exact : Bool) (total : Nat) : Nat :=
  if coll = 4 then 1 else max 1 (ceilDiv total (chunkElems dtype exact))

/-- Whether an operation sums exactly: EXACT has a meaning for the reducing kinds only. -/
def exactOf (o : CollOp) : Bool := o.exact && o.coll != 2 && o.coll != 4

/-- Elements before chunk k, and elements in it. -/
def chunkFrom (o : CollOp) (k : Nat) : Nat := k * chunkElems o.dtype (exactOf o)
def chunkCount (o : CollOp) (total k : Nat) : Nat :=
  if o.coll = 4 then 0 else min total ((k + 1) * chunkElems o.dtype (exactOf o)) - chunkFrom o k

/-- KEY of a packet of an operation (Table 13-2). -/
def collKey (kind coll oper dtype : Nat) (exact : Bool) : Nat :=
  kind + coll * 8 + oper % 16 * 64 + dtype % 16 * 2 ^ 10 + bit exact * 2 ^ 14

/-! ### Elements -/

/-- Bytes cut into elements. -/
def elems : Nat → Nat → List Byte → List Nat
  | 0, _, _ => []
  | n + 1, size, bs => ofBytes (bs.take size) :: elems n size (bs.drop size)

/-- Elements written out. -/
def unelems (size : Nat) (l : List Nat) : List Byte := l.flatMap (toBytes size)

/-- The floating-point format of a DTYPE. -/
def fmtOf (dtype : Nat) : Fmt := if dtype = 4 then fp32 else if dtype = 5 then bf16 else fp64

/-- Two elements combined (R399, R400); none where a floating-point sum is a NaN, whose pattern is not given. -/
def combine (oper dtype a b : Nat) : Option Nat :=
  let w := 8 * elemSize dtype
  if dtype ≤ 3 then
    let signed := dtype == 0 || dtype == 2
    let lt := if signed then decide (toSigned w a < toSigned w b) else decide (a < b)
    some (match oper with
      | 0 => (a + b) % 2 ^ w
      | 1 => if lt then a else b
      | 2 => if lt then b else a
      | 3 => Nat.land a b
      | 4 => Nat.lor a b
      | _ => Nat.xor a b)
  else
    match oper with
    | 0 => (fmtOf dtype).add a b
    | 1 => some ((fmtOf dtype).minmax false a b)
    | _ => some ((fmtOf dtype).minmax true a b)

/-- The weight of a format's units in the wide form: 2^-149 is the unit (R398). -/
def wideShift (dtype : Nat) : Nat := if dtype = 5 then 2 ^ 16 else 1

/-- A contribution in the 40-byte form (R398). -/
def toWide (dtype x : Nat) : Nat :=
  let f := fmtOf dtype
  if f.isNan x then 2 ^ 316 + 2 ^ 319
  else if f.isInf x then (if f.neg x then 2 ^ 318 else 2 ^ 317) + 2 ^ 319
  else ofSigned 312 (f.toInt x * (wideShift dtype : Nat)) + bit (f.isNegZero x) * 2 ^ 319

/-- Wide elements added (R398): values as integers, NAN, PINF and NINF ORed; NEGZ holds while every input was -0.0. -/
def addWide (a b : Nat) : Nat :=
  (a % 2 ^ 312 + b % 2 ^ 312) % 2 ^ 312 + Nat.lor (bits a 316 3) (bits b 316 3) * 2 ^ 316
    + Nat.land (a / 2 ^ 319) (b / 2 ^ 319) % 2 * 2 ^ 319

/-- The exact sum rounded once (R397). -/
def roundWide (dtype a : Nat) : Nat :=
  let f := fmtOf dtype
  let v := toSigned 312 (a % 2 ^ 312)
  if bitAt a 316 || (bitAt a 317 && bitAt a 318) then f.qnan
  else if bitAt a 317 then f.inf false
  else if bitAt a 318 then f.inf true
  else if v = 0 then (if bitAt a 319 then f.signed true 0 else 0)
  else f.ofInt (v / (wideShift dtype : Nat))

/-- Chunks of up elements combined, element by element; each NaN sum is an open value. -/
def combineChunk (s : State) (o : CollOp) (a b : List Byte) : State × List Byte :=
  if exactOf o then (s, unelems 40 (List.zipWith addWide (elems (a.length / 40) 40 a) (elems (b.length / 40) 40 b)))
  else
    let z := elemSize o.dtype
    let r := (List.zip (elems (a.length / z) z a) (elems (b.length / z) z b)).foldl
      (fun (x : State × List Nat) e =>
        match combine o.oper o.dtype e.1 e.2 with
        | some v => (x.1, x.2 ++ [v])
        | none => (drawn x.1, x.2 ++ [freeNat x.1 % 2 ^ (8 * z)])) (s, [])
    (r.1, unelems z r.2)

/-- The result of a chunk at the root. -/
def finishChunk (o : CollOp) (a : List Byte) : List Byte :=
  if exactOf o then unelems (elemSize o.dtype) ((elems (a.length / 40) 40 a).map (roundWide o.dtype)) else a

/-- A member's contribution to chunk k: its elements, in the up form; nothing for BROADCAST below the root and for
BARRIER (Table 13-5). -/
def localChunk (s : State) (g : Nat) (o : CollOp) (k : Nat) : List Byte :=
  let total := collTotal o.coll o.count (rd s F.clGroupMembers g)
  let z := elemSize o.dtype
  let n := chunkCount o total k
  if o.coll = 4 ∨ (o.coll = 2 ∧ rdb s F.clGroupRoot g = false) then []
  else
    let bs := (o.data.drop (chunkFrom o k * z)).take (n * z)
    if exactOf o then unelems 40 ((elems n z bs).map (toWide o.dtype)) else bs

/-! ### The tree -/

def isRoot (s : State) (g : Nat) : Bool := rdb s F.clGroupRoot g
def isLocal (s : State) (g : Nat) : Bool := rdb s F.clGroupLocal g
def parentOf (s : State) (g : Nat) : Nat := rd s F.clGroupParent g
def windowOfGrp (s : State) (g : Nat) : Nat := rd s F.clGroupWindow g

/-- The children of a group, in child-list order. -/
def childrenOf (s : State) (g : Nat) : List Nat :=
  (List.range (rd s F.clGroupChildCount g)).map fun i => rd s F.clChildDev ((rd s F.clGroupChildBase g + i) % 65536)

/-- The place of a device in the child list. -/
def childIndex (s : State) (g dev : Nat) : Option Nat := (childrenOf s g).findIdx? (· == dev)

/-- The sources of a position in their order: the local contribution, then the children (R399). -/
def sourcesOf (s : State) (g : Nat) : List Nat :=
  (if isLocal s g then [0] else []) ++ (List.range (childrenOf s g).length).map (· + 1)

/-- CL_POOL's free hold units (R399, R396). -/
def holdUsed (s : State) : Nat :=
  s.cl.groups.foldl (fun n e => n + e.2.early.length + e.2.poss.foldl (fun n p => n + p.2.held.length) 0) 0

/-- Slots that armed groups hold. -/
def slotsUsed (s : State) : Nat :=
  s.cl.groups.foldl (fun n e => if rdb s F.clGroupValid e.1 then n + 2 * windowOfGrp s e.1 else n) 0

def refreshPool (s : State) : State :=
  wr (wr s F.clPoolHoldFree (65536 - holdUsed s)) F.clPoolSlotsFree (262144 - slotsUsed s)

/-! ### Sending -/

/-- The function queue of a group's packets: its function's with LOCAL = 1, else the device queue (R483). -/
def grpQueue (s : State) (g : Nat) : Nat :=
  if isLocal s g then rd s F.clGroupHp g * 256 + rd s F.clGroupFunc g else 512

/-- A CL packet queued for injection (Table 13-1). -/
def queueColl (s : State) (g dev : Nat) (up : Bool) (key seq psn off tc : Nat) (last : Bool) (payload : List Byte) : State :=
  queueItem s { itemFor s g dev tc (if up then opClUp else opClDown) (if last then flLast else 0) off psn key seq payload with
    fn := grpQueue s g }

/-- The ACK of a DATA or ABORT (R401): the opposite direction, the same MSGID and PSN, no payload. -/
def ackColl (s : State) (p : Pkt) : State :=
  queueColl s (p.ec % 4096) p.src (p.op == opClDown) (1 + p.key / 8 % 2 ^ 12 * 8) p.msgid p.psn p.off p.tc false []

/-- The TC of an operation: TC_BULK above SMALL_MAX, else TC_SMALL (R421). -/
def collBulk (s : State) (g : Nat) (o : CollOp) : Bool :=
  decide (rd s F.clCfgSmallMax < collTotal o.coll o.count (rd s F.clGroupMembers g) * elemSize o.dtype)

def collTc (s : State) (g : Nat) (o : CollOp) : Nat :=
  if collBulk s g o then rd s F.clGroupTcBulk g else rd s F.clGroupTcSmall g

/-- A packet that must be acknowledged sent, or put at the kiln gate when it is bulk (R401, R421). -/
def sendColl (s : State) (g : Nat) (p : CollPkt) : State :=
  let x := grp s g
  let s := if p.kind = 0 then pmCount s 0x80 g 2 1 else s
  let s := setGrp s g { x with sends := mset x.sends x.next { p with at' := s.timeNs }, next := x.next + 1 }
  if p.gated then queueColl s g p.dev p.up p.key p.seq p.psn p.off p.tc p.last p.payload else s

/-- The DATA of a chunk to a neighbour; CL_DOWN is a response, so latency work (Table 16-3). -/
def dataPkt (s : State) (g seq psn : Nat) (o : CollOp) (dev : Nat) (up : Bool) (payload : List Byte) : CollPkt :=
  let bulk := up && collBulk s g o && !payload.isEmpty
  { dev := dev, up := up, kind := 0, seq := seq, psn := psn, pos := o.pos + psn,
    key := collKey 0 o.coll o.oper o.dtype o.exact, off := o.count, last := psn + 1 == o.chunks, tc := collTc s g o,
    payload := payload, bulk := bulk, gated := !bulk, retries := 0, at' := 0 }

/-- Packets acknowledged: those that a test selects leave the list (R401). -/
def dropSends (s : State) (g : Nat) (f : CollPkt → Bool) : State :=
  let x := grp s g
  setGrp s g { x with sends := mfilter x.sends fun _ p => !f p }

/-! ### STATE and the end of operations -/

/-- ACTIVE back to IDLE when every operation seen has completed here and nothing waits for an ACK (R409). -/
def refreshGrp (s : State) (g : Nat) : State :=
  let x := grp s g
  let s := refreshPool s
  if rd s F.clGroupState g = 1 ∧ x.ops.all (fun e => e.2.done) = true ∧ x.sends.isEmpty = true then wr s F.clGroupState 0 g else s

/-- A member's operation completed (R404): 0 SUCCESS, 1 ABORTED with its cause, 2 PLACE_ERROR. -/
def endOp (s : State) (g seq : Nat) (o : CollOp) (status cause : Nat) : State :=
  let x := grp s g
  let s := setGrp s g { x with ops := mset x.ops seq { o with done := true, pend := [], data := [] } }
  match o.origin with
  | some org =>
    let len := if status = 0 then collTotal o.coll o.count (rd s F.clGroupMembers g) * elemSize o.dtype else 0
    descDone s org status 0 cause len 0 0
  | none => s

/-- An operation all of whose results this device has is completed once they are placed (R404). -/
def settleOp (s : State) (g seq : Nat) : State :=
  match mget (grp s g).ops seq with
  | none => s
  | some o =>
    if o.done || !o.pend.isEmpty || o.arrived < o.chunks then s
    else endOp s g seq o (if o.failed then 2 else 0) 0

/-- What a group's buffers are translated with. -/
def collAdm (s : State) (g : Nat) (o : CollOp) (dva len cls : Nat) : Adm :=
  let dom := match ctxOf s o.ec with
    | some c => c.dom
    | none => 0
  { mr := none, dom := dom, hp := rd s F.clGroupHp g, fn := rd s F.clGroupFunc g, pkrr := o.pkrr, cls := cls,
    spans := [(dva, len)], recv := none }

/-- Results that wait placed in the member's buffer, as far as translation lets them (R404, R340). -/
def flushOp : Nat → State → Nat → Nat → State
  | 0, s, _, _ => s
  | n + 1, s, g, seq =>
    match mget (grp s g).ops seq with
    | none => s
    | some o =>
      let put := fun (s : State) (o : CollOp) => let x := grp s g; setGrp s g { x with ops := mset x.ops seq o }
      if o.stall.isSome || o.walking || o.done then s
      else
        match o.pend with
        | [] => settleOp s g seq
        | (off, bs) :: t =>
          let a := collAdm s g o (o.res + off) bs.length 1
          match translateAdm s a with
          | (s, .ok l) =>
            let s := writePieces s a.hp l bs
            let s := beginAcc s { what := .write, mr := none, hp := a.hp, pages := pagesOf a }
            flushOp n (put s { o with pend := t }) g seq
          | (s, .miss dva) => awaitWalk (put s { o with walking := true }) a.dom dva (.coll g)
          | (s, .hard k dva) =>
            let s := recordFault s o.ec a.dom 1 0 k dva
            settleOp (put s { o with failed := true, pend := [] }) g seq

/-- The part of a chunk's result that a rank receives: its byte offset in the result buffer, and the bytes (Table 13-3). -/
def rankPart (s : State) (g : Nat) (o : CollOp) (k : Nat) (bs : List Byte) : Option (Nat × List Byte) :=
  let z := elemSize o.dtype
  let from' := chunkFrom o k
  let n := bs.length / z
  if o.coll = 4 ∨ (o.coll = 1 ∧ isRoot s g = false) then none
  else if o.coll = 3 then
    let lo := rd s F.clGroupRank g * o.count
    let a := max lo from'
    let b := min (lo + o.count) (from' + n)
    if b ≤ a then none else some ((a - lo) * z, (bs.drop ((a - from') * z)).take ((b - a) * z))
  else if bs.isEmpty then none else some (from' * z, bs)

/-- The payload of a result down to child i (Table 13-5). -/
def downPayload (s : State) (g : Nat) (o : CollOp) (k i : Nat) (bs : List Byte) : List Byte :=
  if o.coll = 1 ∨ o.coll = 4 then []
  else if o.coll = 3 then
    let c := (rd s F.clGroupChildBase g + i) % 65536
    let n := bs.length / elemSize o.dtype
    let a := rd s F.clChildRankLo c * o.count
    let b := (rd s F.clChildRankHi c + 1) * o.count
    if a < chunkFrom o k + n ∧ chunkFrom o k < b then bs else []
  else bs

/-- The result of a position sent down to one child. -/
def sendDown (s : State) (g seq psn i dev : Nat) (o : CollOp) (bs : List Byte) : State :=
  sendColl s g (dataPkt s g seq psn o dev false (downPayload s g o psn i bs))

/-- A result sent again to a child whose DATA came again (R403): a new copy of the packet that still waits for its ACK, else the result anew. -/
def sendDownAgain (s : State) (g seq psn i dev : Nat) (o : CollOp) (bs : List Byte) : State :=
  match (grp s g).sends.find? fun e => !e.2.up && e.2.kind == 0 && e.2.dev == dev && e.2.seq == seq && e.2.psn == psn with
  | some (_, k) => if k.gated then queueColl s g k.dev k.up k.key k.seq k.psn k.off k.tc k.last k.payload else s
  | none => sendDown s g seq psn i dev o bs

/-- A position's result known here (R395): it goes down to every child and into the member's buffer. -/
def deliver (s : State) (g q : Nat) (c : CollPos) (o : CollOp) (bs : List Byte) : State :=
  let x := grp s g
  let s := setGrp s g { x with poss := mset x.poss q { c with result := some bs } }
  let s := ((childrenOf s g).zipIdx).foldl (fun s e => sendDown s g c.seq c.psn e.2 e.1 o bs) s
  match mget (grp s g).ops c.seq with
  | none => s
  | some o =>
    let part := if isLocal s g && !o.done then rankPart s g o c.psn bs else none
    let o := { o with arrived := o.arrived + 1,
                      pend := match part with
                        | some p => mset o.pend p.1 p.2
                        | none => o.pend }
    let x := grp s g
    flushOp (o.pend.length + 1) (setGrp s g { x with ops := mset x.ops c.seq o }) g c.seq

/-- A position moved on when it holds every contribution (R395): the root has its result, another device sends it up once
its parent's DATA for q - WINDOW is here. -/
def movePos (s : State) (g q : Nat) : State :=
  let x := grp s g
  match mget x.poss q with
  | none => s
  | some c =>
    match mget x.ops c.seq with
    | none => s
    | some o =>
      if c.upDone || !(sourcesOf s g).all (fun i => c.got.contains i) then s
      else if isRoot s g then
        deliver (setGrp s g { x with poss := mset x.poss q { c with upDone := true } }) g q { c with upDone := true } o
          (finishChunk o (c.acc.getD []))
      else
        let w := windowOfGrp s g
        if q < w ∨ x.downs.contains (q - w) = true then
          let payload := if o.coll = 2 ∨ o.coll = 4 then [] else c.acc.getD []
          sendColl (setGrp s g { x with poss := mset x.poss q { c with upDone := true } }) g
            (dataPkt s g c.seq c.psn o (parentOf s g) true payload)
        else s

/-- Positions whose slot has been taken over by a later one forgotten, with the operations that are over (R396). -/
def prune (s : State) (g : Nat) : State :=
  let x := grp s g
  let top := x.poss.foldl (fun n e => max n e.1) 0
  let low := top + 1 - 2 * windowOfGrp s g
  let poss := mfilter x.poss fun q _ => decide (low ≤ q)
  let ops := mfilter x.ops fun k o => !o.done || poss.any (fun e => e.2.seq == k) || x.sends.any (fun e => e.2.seq == k)
  setGrp s g { x with poss := poss, ops := ops, downs := x.downs.filter fun q => decide (low ≤ q + windowOfGrp s g) }

/-- Every live position moved on, in stream order. -/
def moveAll (s : State) (g : Nat) : State :=
  refreshGrp (prune ((grp s g).poss.foldl (fun s e => movePos s g e.1) s) g) g

/-- The contributions whose turn has come combined in the fixed order (R399). -/
def takeTurns : Nat → State → CollOp → List Nat → CollPos → State × CollPos
  | 0, s, _, _, c => (s, c)
  | n + 1, s, o, order, c =>
    let next := if exactOf o then (c.held.find? fun e => order.contains e.1).map (·.1)
      else order.find? fun i => !c.got.contains i
    match next with
    | none => (s, c)
    | some i =>
      match mget c.held i with
      | none => (s, c)
      | some b =>
        let (s, acc) := match c.acc with
          | none => (s, b)
          | some a => combineChunk s o a b
        takeTurns n s o order { c with acc := some acc, got := i :: c.got, held := mdel c.held i }

/-- A contribution of source i to position q taken in: combined in its turn, or held. -/
def contribute (s : State) (g q seq psn i : Nat) (o : CollOp) (b : List Byte) : State :=
  let x := grp s g
  let c := mgetD x.poss q ⟨seq, psn, none, [], [], false, none⟩
  let order := sourcesOf s g
  let (s, c) := takeTurns (order.length + 1) s o order { c with held := mset c.held i b }
  let x := grp s g
  setGrp s g { x with poss := mset x.poss q c }

/-- Whether the contribution of source i has its turn at a position. -/
def itsTurn (s : State) (g : Nat) (o : CollOp) (c : CollPos) (i : Nat) : Bool :=
  exactOf o || (sourcesOf s g).find? (fun k => !c.got.contains k) == some i

/-- An operation opened here: it takes the next OP_SEQ and its positions in the stream (R393 to R395); this device first saw it with the
earliest of its packets. -/
def openOp (s : State) (g : Nat) (o : CollOp) : State × Nat :=
  let x := grp s g
  let seq := rd s F.clGroupOpSeq g
  let since := x.early.foldl (fun t e => if e.2.msgid = seq then min t e.1 else t) o.since
  let s := setGrp s g { x with ops := mset x.ops seq { o with pos := x.nextPos, since := since }, nextPos := x.nextPos + o.chunks }
  (wr (wr s F.clGroupOpSeq ((seq + 1) % 2 ^ 24) g) F.clGroupState 1 g, seq)

/-- An operation learned from the first DATA of its MSGID (R394). -/
def opOfPkt (s : State) (g : Nat) (p : Pkt) : CollOp :=
  let coll := bits p.key 3 3
  let dtype := bits p.key 10 4
  let exact := bitAt p.key 14
  let total := collTotal coll p.off (rd s F.clGroupMembers g)
  { coll := coll, oper := bits p.key 6 4, dtype := dtype, exact := exact, count := p.off, pos := 0,
    chunks := collChunks coll dtype (exact && coll != 2 && coll != 4) total, data := [], res := 0, ec := 0, pkrr := 0,
    origin := none, since := s.timeNs, arrived := 0, pend := [], stall := none, walking := false, failed := false,
    done := false }

/-- Whether a packet agrees with an operation (R394). -/
def agrees (o : CollOp) (p : Pkt) : Bool := p.key / 8 % 2 ^ 12 == collKey 0 o.coll o.oper o.dtype o.exact / 8 && p.off == o.count

/-- ABORT sent to a neighbour (R405). -/
def sendAbort (s : State) (g seq cause tc dev : Nat) (up : Bool) : State :=
  sendColl s g { dev := dev, up := up, kind := 2, seq := seq, psn := 0, pos := 0, key := 2 + cause * 2 ^ 16, off := 0,
                 last := false, tc := tc, payload := [], bulk := false, gated := true, retries := 0, at' := 0 }

/-- A group aborted (R405): ABORT to every neighbour but the one it came from, the pending operations completed, slots
and hold units freed, STATE ABORTED and the first cause. -/
def abortGrp (s : State) (g seq cause : Nat) (from' : Option Nat) : State :=
  if rd s F.clGroupState g = 2 then s
  else
    let x := grp s g
    let tc := match mget x.ops seq with
      | some o => collTc s g o
      | none => rd s F.clGroupTcSmall g
    let open' := x.ops.filter fun e => !e.2.done
    let s := setGrp s g { x with poss := [], sends := [], downs := [], early := [], nextPos := 0 }
    let s := wr (wr s F.clGroupState 2 g) F.clGroupCause cause g
    let s := inc s F.clCnt2Aborts open'.length
    let s := open'.foldl (fun s e => endOp s g e.1 e.2 1 cause) s
    let x := grp s g
    let s := setGrp s g { x with ops := [] }
    let s := if isRoot s g || from' == some (parentOf s g) then s else sendAbort s g seq cause tc (parentOf s g) true
    refreshPool ((childrenOf s g).foldl (fun s d => if from' == some d then s else sendAbort s g seq cause tc d false) s)

/-- The oldest operation that is not over, for an abort with no operation of its own. -/
def abortSeq (s : State) (g : Nat) : Nat :=
  match (grp s g).ops.find? fun e => !e.2.done with
  | some e => e.1
  | none => rd s F.clGroupOpSeq g

/-- Groups that are armed. -/
def armedGroups (s : State) : List Nat :=
  (s.csr.filterMap fun (e : Nat × Word) =>
    if 0x08010000 ≤ e.1 ∧ e.1 < 0x08030000 ∧ e.1 % 32 = 0 then some ((e.1 - 0x08010000) / 32) else none).filter
    fun g => rdb s F.clGroupValid g

/-- Groups of a function, or of a whole port, aborted with MEMBER_LOST (R407): only those with LOCAL = 1. -/
def loseMember (s : State) (hp : Nat) (fn : Option Nat) : State :=
  ((armedGroups s).filter fun g => isLocal s g && rd s F.clGroupHp g == hp
    && (match fn with | some f => rd s F.clGroupFunc g == f | none => true)).foldl
    (fun s g => abortGrp s g (abortSeq s g) 3 none) s

/-- A DATA from below taken in at device level (R395, R401 to R403). -/
def takeUp (s : State) (g ci : Nat) (p : Pkt) : State :=
  let x := grp s g
  let w := windowOfGrp s g
  match mget x.ops p.msgid with
  | none => s
  | some o =>
    if !agrees o p then abortGrp (ackColl s p) g p.msgid 2 none
    else
      let q := o.pos + p.psn
      let c := mgetD x.poss q ⟨p.msgid, p.psn, none, [], [], false, none⟩
      if c.got.contains (ci + 1) || mhas c.held (ci + 1) then
        let s := ackColl (inc s F.clCnt0Dup) p
        match c.result with
        | some bs => sendDownAgain s g p.msgid p.psn ci p.src o bs
        | none => s
      else if !itsTurn s g o c (ci + 1) && decide (65536 ≤ holdUsed s) then
        queueColl (inc s F.clCnt1HoldBusy) g p.src false (3 + p.key / 8 % 2 ^ 12 * 8) p.msgid p.psn p.off p.tc false []
      else
        let s := contribute s g q p.msgid p.psn (ci + 1) o p.payload
        let s := dropSends s g fun k => !k.up && k.kind == 0 && k.dev == p.src && decide (k.pos + w ≤ q)
        moveAll (ackColl s p) g

/-- A DATA from above taken in (R395, R401, R403). -/
def takeDown (s : State) (g : Nat) (p : Pkt) : State :=
  let x := grp s g
  match mget x.ops p.msgid with
  | none => s
  | some o =>
    if !agrees o p then abortGrp (ackColl s p) g p.msgid 2 none
    else
      let q := o.pos + p.psn
      if x.downs.contains q then ackColl (inc s F.clCnt0Dup) p
      else
        let c := mgetD x.poss q ⟨p.msgid, p.psn, none, [], [], true, none⟩
        let s := setGrp s g { x with downs := q :: x.downs }
        let s := dropSends s g fun k => k.up && k.kind == 0 && decide (k.pos ≤ q)
        moveAll (deliver (ackColl s p) g q c o p.payload) g

/-- The member's contributions to every chunk of its operation. -/
def contributeAll (s : State) (g seq : Nat) : State :=
  match mget (grp s g).ops seq with
  | none => s
  | some o => (List.range o.chunks).foldl (fun s k =>
      let q := o.pos + k
      if (mgetD (grp s g).poss q ⟨seq, k, none, [], [], false, none⟩).got.contains 0 then s
      else contribute s g q seq k 0 o (localChunk s g o k)) s

/-- A sequence number's distance behind the next one, modulo 2^24. -/
def seqBehind (next seq : Nat) : Nat := (next + 2 ^ 24 - seq) % 2 ^ 24

/-- Contributions that came before their operation was known, taken in now (their ACK has been sent). -/
def drainEarly (s : State) (g : Nat) : State :=
  let x := grp s g
  let s := setGrp s g { x with early := [] }
  x.early.foldl (fun s e =>
    let p := e.2
    match mget (grp s g).ops p.msgid, childIndex s g p.src with
    | some o, some ci =>
      if !agrees o p then abortGrp s g p.msgid 2 none
      else moveAll (contribute s g (o.pos + p.psn) p.msgid p.psn (ci + 1) o p.payload) g
    | _, _ =>
      let x := grp s g
      setGrp s g { x with early := x.early ++ [e] }) s

/-- Operations learned from DATA that came before the first DATA of an earlier one (R394): at a device with LOCAL = 0 each opens when its turn
has come. -/
def learnOps : Nat → State → Nat → State
  | 0, s, g => drainEarly s g
  | n + 1, s, g =>
    match (grp s g).early.find? fun e => !isLocal s g && e.2.msgid == rd s F.clGroupOpSeq g with
    | some e => learnOps n (openOp s g (opOfPkt s g e.2)).1 g
    | none => drainEarly s g

/-- A DATA from a child (R394, R401): of a known operation, an old duplicate, the first of a new operation, or one that
must wait until its operation is known here. -/
def dataUp (s : State) (g ci : Nat) (p : Pkt) : State :=
  let next := rd s F.clGroupOpSeq g
  if rd s F.clGroupState g = 2 then ackColl s p
  else if mhas (grp s g).ops p.msgid then takeUp s g ci p
  else if 0 < seqBehind next p.msgid ∧ seqBehind next p.msgid < 2 ^ 23 then ackColl (inc s F.clCnt0Dup) p
  else if p.msgid = next ∧ isLocal s g = false then
    learnOps (grp s g).early.length (takeUp (openOp s g (opOfPkt s g p)).1 g ci p) g
  else if (grp s g).early.any fun e => e.2.src == p.src && e.2.msgid == p.msgid && e.2.psn == p.psn then
    ackColl (inc s F.clCnt0Dup) p
  else if 65536 ≤ holdUsed s then
    queueColl (inc s F.clCnt1HoldBusy) g p.src false (3 + p.key / 8 % 2 ^ 12 * 8) p.msgid p.psn p.off p.tc false []
  else
    let x := grp s g
    refreshPool (ackColl (setGrp s g { x with early := x.early ++ [(s.timeNs, p)] }) p)


end Sys2Proof.Machine
end

