-- ==== Sys2Proof/Machine/Ex.lean ====
section
/-!
DEFINITION. Machine/Ex.lean: the EX role (13): records and batches (R411 to R414), streams and credits (R415, R418),
receiving (R416, R417), flushes (R419) and the close of a job (R420).
-/

namespace Sys2Proof.Machine

def job (s : State) (j : Nat) : ExJobSt := mgetD s.cl.jobs j {}
def setJob (s : State) (j : Nat) (x : ExJobSt) : State := { s with cl := { s.cl with jobs := mset s.cl.jobs j x } }

/-- FAILED_DEV of a job, whose bits cross a word. -/
def setFailedDev (s : State) (j dev : Nat) : State :=
  wr (wr s F.exJobFailedDevLo (dev % 1024) j) F.exJobFailedDevHi (dev / 1024) j

/-! ### Staging -/

/-- Units of 4 KiB of the receive share, and of the send share (R413, EX_CFG.RX_SHARE). -/
def exRxUnits (s : State) : Nat := rd s F.exCfgRxShare * 262144
def exTxUnits (s : State) : Nat := s.txn.arm.hpart.getD 3 0 * 256 - exRxUnits s

/-- Free units of the two shares: a batch of the send side holds one, and the receive side holds those it has granted. -/
def exTxFree (s : State) : Nat := s.cl.jobs.foldl (fun n e => n - e.2.batches.length) (exTxUnits s)
def exRxFree (s : State) : Nat :=
  s.cl.jobs.foldl (fun n e => e.2.recvs.foldl (fun n r => n - r.2.win) n) (exRxUnits s)

/-- EX_STAGE brought into step. -/
def refreshEx (s : State) : State := wr (wr s F.exStageRxFree (exRxFree s)) F.exStageTxFree (exTxFree s)

/-! ### Sending -/

/-- The function queue of a job's packets. -/
def jobQueue (s : State) (j : Nat) : Nat := rd s F.exJobHp j * 256 + rd s F.exJobFunc j

/-- An EX_BATCH queued for injection (R414). -/
def queueBatch (s : State) (j dev ec bseq count : Nat) (bytes : List Byte) : State :=
  queueItem s { itemFor s ec dev (rd s F.exJobTc j) opExBatch flLast 0 0 (j + count % 4096 * 256) bseq bytes with
    fn := jobQueue s j }

/-- Distance of a batch number above another, modulo 2^24. -/
def above (base b : Nat) : Nat := (b + 2 ^ 24 - base) % 2 ^ 24

/-- Whether the stream's window lets a batch be sent (R415, Table 13-7). -/
def inWindow (x : ExJobSt) (b : ExBatch) : Bool :=
  match b.bseq with
  | some q =>
    let t := mgetD x.streams b.dev {}
    decide (above t.base q < t.win)
  | none => false

/-- A closed batch sent for the first time, when its window allows it and it has passed the kiln gate (R413, R421). -/
def trySend (s : State) (j id : Nat) : State :=
  let x := job s j
  match mget x.batches id with
  | some b =>
    if b.gated && !b.sent && inWindow x b then
      let s := setJob s j { x with batches := mset x.batches id { b with sent := true, sentAt := s.timeNs } }
      queueBatch (inc (pmCount (pmCount s 0x88 j 1 b.count) 0x88 j 2 1) F.exCnt0Batches) j b.dev b.ec (b.bseq.getD 0) b.count b.bytes
    else s
  | none => s

/-- A batch closed: it takes the next BSEQ of its stream (R414). -/
def closeBatch (s : State) (j id : Nat) : State :=
  let x := job s j
  match mget x.batches id with
  | some b =>
    if b.bseq.isSome then s
    else
      let t := mgetD x.streams b.dev {}
      trySend (setJob s j { x with
        batches := mset x.batches id { b with bseq := some t.next },
        streams := mset x.streams b.dev { t with next := (t.next + 1) % 2 ^ 24, ec := b.ec } }) j id
  | none => s

/-- The open batches of a job, oldest first. -/
def openBatches (x : ExJobSt) : List (Nat × ExBatch) := x.batches.filter fun e => e.2.bseq.isNone

/-- Every open batch of a job closed (R419). -/
def closeAll (s : State) (j : Nat) : State := (openBatches (job s j)).foldl (fun s e => closeBatch s j e.1) s

/-- The key bytes of a record (R412); none when they reach beyond its end. -/
def recordKey (s : State) (j : Nat) (r : List Byte) : Option (List Byte) :=
  let part := fun (off n : Nat) => if n = 0 then some [] else if off + n ≤ r.length then some ((r.drop off).take n) else none
  match part (rd s F.exJobK0Off j) (rd s F.exJobK0Len j), part (rd s F.exJobK1Off j) (rd s F.exJobK1Len j) with
  | some a, some b => some (a ++ b)
  | _, _ => none

/-- The bucket of a key (R412). -/
def bucketOf (s : State) (j : Nat) (key : List Byte) : Nat :=
  let bitsNo := rd s F.exJobBucketBits j
  rd s F.exJobBucketBase j
    + (if bitsNo = 0 then 0 else Nat.xor (crc32Run (rd s F.exJobSeed j) key) 0xFFFFFFFF / 2 ^ (32 - bitsNo))

/-- What happens to a record. -/
inductive Join where
  | joined (s : State)
  | skipped (s : State)
  | waits (s : State)

/-- A record joined to its destination's batch (R412, R413), skipped, or left to wait for a unit. -/
def joinRecord (s : State) (j : Nat) (r : List Byte) : Join :=
  match recordKey s j r with
  | none => .skipped (inc s F.exCnt2KeyShort)
  | some key =>
    let i := bucketOf s j key
    if i > 65535 ∨ rdb s F.exPartValid i = false then .skipped (inc s F.exCnt2NoBucket)
    else
      let dev := rd s F.exPartDev i
      let ec := rd s F.exPartEc i
      let mine := (openBatches (job s j)).find? fun e => e.2.dev == dev && e.2.ec == ec
      let fits := match mine with
        | some e => decide (e.2.bytes.length + r.length ≤ 4096)
        | none => false
      match mine, fits with
      | some e, true =>
        let x := job s j
        let b := { e.2 with bytes := e.2.bytes ++ r, count := e.2.count + 1 }
        .joined (setJob s j { x with batches := mset x.batches e.1 b })
      | _, _ =>
        let s := match mine with
          | some e => closeBatch s j e.1
          | none => s
        if exTxFree s = 0 then
          match openBatches (job s j) with
          | e :: _ => .waits (closeBatch s j e.1)
          | [] => .waits s
        else
          let x := job s j
          let b : ExBatch := ⟨dev, ec, none, r, 1, s.timeNs, false, 0, 0, false, false⟩
          .joined (setJob s j { x with next := x.next + 1, batches := mset x.batches x.next b })

/-- The first record of the bytes read (R411): its length, none while more must be read, or a fault of the format. -/
inductive Cut where
  | one (n : Nat)
  | more
  | bad
deriving DecidableEq, Repr

def cutRecord (s : State) (j : Nat) (x : ExSend) : Cut :=
  let n := if rd s F.exJobFormat j = 0 then rd s F.exJobRlen j else ofBytes (x.rest.take 2)
  let total := x.rest.length + x.unread.length
  if rd s F.exJobFormat j = 1 ∧ (total < 2 ∨ (2 ≤ x.rest.length ∧ (n < 4 ∨ 4064 < n))) then .bad
  else if rd s F.exJobFormat j = 1 ∧ x.rest.length < 2 then .more
  else if total < n then .bad
  else if n ≤ x.rest.length ∧ 0 < n then .one n
  else if n = 0 then .bad
  else .more

/-- Whether every batch that a flush waits for shows in its ring (R419). -/
def flushOver (x : ExJobSt) (mark : Nat) : Bool := x.batches.all fun e => decide (mark ≤ e.1)

/-- The job's descriptors moved on, first come first served: records read join batches, and flushes whose turn has come
wait for their batches (R411 to R413, R419). -/
def pumpJob : Nat → State → Nat → State
  | 0, s, _ => refreshEx s
  | n + 1, s, j =>
    let x := job s j
    match x.sends.find? fun e => !(e.flush && e.mark.isSome) with
    | none => refreshEx s
    | some d =>
      let put := fun (s : State) (e : Option ExSend) =>
        let x := job s j
        setJob s j { x with sends := x.sends.flatMap fun y =>
          if y = d then (match e with
            | some e => [e]
            | none => []) else [y] }
      if d.flush then
        let s := closeAll s j
        pumpJob n (put s (some { d with mark := some (job s j).next })) j
      else if d.rest.isEmpty && d.unread.isEmpty then
        pumpJob n (descDone (put s none) d.origin 0 0 0 0 (d.sent % 2 ^ 32 + d.skipped % 2 ^ 32 * 2 ^ 32) 0) j
      else
        match cutRecord s j d with
        | .more => refreshEx s
        | .bad => pumpJob n (descError (put s none) d.origin 19) j
        | .one k =>
          match joinRecord s j (d.rest.take k) with
          | .joined s => pumpJob n (put s (some { d with rest := d.rest.drop k, sent := d.sent + 1 })) j
          | .skipped s => pumpJob n (put s (some { d with rest := d.rest.drop k, skipped := d.skipped + 1 })) j
          | .waits s => refreshEx s

/-- Flushes whose batches all show in their rings complete (R419). -/
def endFlushes (s : State) (j : Nat) : State :=
  let excess := (job s j).sends.filter fun d => match d.mark with
    | some m => flushOver (job s j) m
    | none => false
  let x := job s j
  let s := setJob s j { x with sends := x.sends.filter fun d => !excess.contains d }
  excess.foldl (fun s d => descDone s d.origin 0 0 0 0 0 0) s

/-- The job's work moved on: batches that may now be sent, records that wait, flushes that may end. -/
def moveJob (s : State) (j : Nat) : State :=
  let s := (job s j).batches.foldl (fun s e => trySend s j e.1) s
  let n := (job s j).sends.foldl (fun n d => n + d.rest.length + 3) 1
  refreshEx (endFlushes (pumpJob n s j) j)

/-- A job fails (R415): STATE, CAUSE and FAILED_DEV, its batches dropped, its descriptors ended with EX_FAILED. -/
def failJob (s : State) (j cause dev : Nat) : State :=
  let s := setFailedDev (wr (wr s F.exJobState 2 j) F.exJobCause cause j) j dev
  let x := job s j
  let s := setJob s j { x with batches := [], sends := [] }
  refreshEx (x.sends.foldl (fun s d => descError s d.origin 20) s)

/-- An EX_CREDIT at the sender (R415, R426). -/
def takeCredit (s : State) (p : Pkt) : State :=
  let j := p.key % 256
  let w := ofBytes (p.payload.take 8)
  let x := job s j
  if j ≥ 64 ∨ rd s F.exJobState j ≠ 1 then s
  else
    let base := bits w 0 24
    let status := bits w 45 3
    if status = 2 ∨ status = 3 then
      if x.batches.isEmpty && x.sends.isEmpty then s else failJob s j (if status = 2 then 3 else 2) p.src
    else
      let gone := fun (b : ExBatch) => b.dev == p.src && (match b.bseq with
        | some q => decide (2 ^ 23 ≤ above base q)
            || (decide (1 ≤ above base q) && decide (above base q ≤ 16) && bitAt (bits w 24 16) (above base q - 1))
        | none => false)
      let t := mgetD x.streams p.src {}
      let t := if status = 0 ∧ above t.base base < 2 ^ 23 then { t with base := base, win := min 16 (bits w 40 5), probeAt := s.timeNs } else t
      let f : Nat → ExBatch → ExBatch := fun _ b =>
        if status == 1 && b.dev == p.src && b.bseq == some p.msgid then { b with noroom := true } else b
      moveJob (setJob s j { x with streams := mset x.streams p.src t,
                                   batches := mmap (mfilter x.batches fun _ b => !gone b) f }) j

/-- Time from a copy of a batch to the next (R415): BACKOFF_US after NOROOM, else RTO_US times 2^min(k, 2). -/
def batchWait (s : State) (b : ExBatch) : Nat :=
  if b.noroom then rd s F.exCfgBackoffUs * 1000 else rd s F.exCfgRtoUs * 1000 * 2 ^ min b.retries 2

/-- A new copy of a batch, or the job's failure after RETRIES copies (R415). -/
def resendBatch (s : State) (j id : Nat) (b : ExBatch) : State :=
  if !b.noroom && decide (rd s F.exCfgRetries ≤ b.retries) then failJob s j 1 b.dev
  else
    let x := job s j
    let b' := { b with sentAt := s.timeNs, noroom := false, retries := if b.noroom then b.retries else b.retries + 1 }
    queueBatch (inc (setJob s j { x with batches := mset x.batches id b' }) F.exCnt0Retx) j b.dev b.ec (b.bseq.getD 0)
      b.count b.bytes

/-- Whether records wait behind a closed window of a stream (R418). -/
def streamShut (x : ExJobSt) (dev : Nat) (t : ExStream) : Bool :=
  t.win == 0 && x.batches.any fun e => e.2.dev == dev && e.2.bseq.isSome && !e.2.sent

/-! ### Receiving -/

/-- An EX_CREDIT (Table 13-7); MSGID is that of the batch that it answers. -/
def sendCredit (s : State) (j dev ec tc msgid status : Nat) (r : ExRecv) : State :=
  let bm := r.have'.foldl (fun n b => if 1 ≤ above r.base b ∧ above r.base b ≤ 16 then Nat.lor n (2 ^ (above r.base b - 1)) else n) 0
  sendReply s ec dev tc opExCredit flLast 0 0 j msgid
    (toBytes 8 (r.base % 2 ^ 24 + bm * 2 ^ 24 + min 16 r.win * 2 ^ 40 + status * 2 ^ 45))

/-- BASE moved over the batches that are in the ring. -/
def moveBase : Nat → ExRecv → ExRecv
  | 0, r => r
  | n + 1, r =>
    if r.have'.contains r.base then
      moveBase n { r with have' := r.have'.erase r.base, base := (r.base + 1) % 2 ^ 24, win := r.win - 1 }
    else r

/-- The window granted: units already needed for staged batches stay, and any number of further free ones may be added, up
to 16 batches (R416); how many the specification leaves open. -/
def grantWin (s : State) (j dev : Nat) : State :=
  let x := job s j
  match mget x.recvs dev with
  | none => s
  | some r =>
    let n := min (16 - r.win) (exRxFree s)
    let r := { r with win := r.win + freeNat s % (n + 1) }
    drawn (setJob s j { x with recvs := mset x.recvs dev r })

/-- An EX_BATCH at the receiver (R416): staged, or answered. -/
def takeBatch (s : State) (p : Pkt) : State :=
  let j := p.key % 256
  let r := mgetD (job s (j % 64)).recvs p.src {}
  let reply := fun (s : State) (status : Nat) (r : ExRecv) => sendCredit s j p.src p.ec p.tc p.msgid status r
  if j ≥ 64 ∨ rd s F.exJobState (j % 64) ≠ 1 ∨ rd s F.exJobRxEc (j % 64) ≠ p.ec then
    reply (inc s F.exCnt3ClosedRx) 2 {}
  else if !serving s (rd s F.exJobHp j) then reply s 3 r
  else
    let d := above r.base p.msgid
    let known := mhas (job s j).recvs p.src
    if 2 ^ 23 ≤ d ∨ r.have'.contains p.msgid = true ∨ mhas r.staged p.msgid = true then
      let s := if known then grantWin (inc s F.exCnt1Dup) j p.src else inc s F.exCnt1Dup
      refreshEx (reply s 0 (mgetD (job s j).recvs p.src {}))
    else if 16 ≤ d then s
    else if r.win ≤ d ∧ exRxFree s < d + 1 - r.win then reply (inc s F.exCnt1RxNoroom) 1 r
    else
      let x := job s j
      let r := { r with win := max r.win (d + 1), staged := mset r.staged p.msgid p.payload, tc := p.tc, ec := p.ec }
      refreshEx (setJob s j { x with recvs := mset x.recvs p.src r, arrival := x.arrival ++ [(p.src, p.msgid)] })

/-- The domain and function of a job's ring: those of RX_EC. -/
def ringAdm (s : State) (j cls : Nat) (spans : List (Nat × Nat)) : Adm :=
  match ctxOf s (rd s F.exJobRxEc j) with
  | some c => { mr := none, dom := c.dom, hp := c.hp, fn := c.fn, pkrr := c.pkrr, cls := cls, spans := spans, recv := none }
  | none => { mr := none, dom := 0, hp := rd s F.exJobHp j, fn := rd s F.exJobFunc j, pkrr := 0, cls := cls, spans := spans, recv := none }

/-- The spans of n bytes of a ring from byte number pi, wrapping at its end (R417). -/
def ringSpans (s : State) (j pi n : Nat) : List (Nat × Nat) :=
  let size := 2 ^ rd s F.exRingLog2 j
  let base := rd s F.exRingBase j * 4096
  let at' := pi % size
  if at' + n ≤ size then [(base + at', n)] else [(base + at', size - at'), (base, at' + n - size)]

/-- FULL time of a ring: since when the oldest staged batch has found no room (R417). -/
def noteFull (s : State) (j : Nat) : State :=
  let x := job s j
  let full := decide (2 ^ rd s F.exRingLog2 j ≤ rd s F.exRingPi j - rd s F.exRingCi j)
    || (match x.arrival with
      | (dev, q) :: _ => decide (2 ^ rd s F.exRingLog2 j < rd s F.exRingPi j - rd s F.exRingCi j
          + ((mget (mgetD x.recvs dev {}).staged q).getD []).length)
      | [] => false)
  setJob s j { x with fullSince := if full then x.fullSince.or (some s.timeNs) else none,
                      stallTold := full && x.stallTold }

/-- The oldest staged batch copied into the ring once it fits (R417): data, PI copy, the units freed, the credit, and EX_RX
when the ring was empty.  A page that misses or faults leaves it staged. -/
def copyBatch (s : State) (j : Nat) : State :=
  let x := job s j
  match x.arrival with
  | [] => s
  | (dev, q) :: rest =>
    let r := mgetD x.recvs dev {}
    let bs := (mget r.staged q).getD []
    let pi := rd s F.exRingPi j
    if rd s F.exJobState j = 0 ∨ 2 ^ rd s F.exRingLog2 j < pi - rd s F.exRingCi j + bs.length then noteFull s j
    else
      let a := ringAdm s j 1 (ringSpans s j pi bs.length)
      let b := ringAdm s j 1 [(rd s F.exRingPiDva j * 8, 8)]
      match translateAdm s a with
      | (s, .miss dva) => awaitWalk s a.dom dva (.ring j)
      | (s, .hard k dva) => recordFault s (rd s F.exJobRxEc j) a.dom 1 0 k dva
      | (s, .ok l) =>
        match translateAdm s b with
        | (s, .miss dva) => awaitWalk s b.dom dva (.ring j)
        | (s, .hard k dva) => recordFault s (rd s F.exJobRxEc j) b.dom 1 0 k dva
        | (s, .ok l') =>
          let s := writePieces s a.hp l bs
          let s := wr s F.exRingPi (pi + bs.length) j
          let s := writePieces s b.hp l' (toBytes 8 (pi + bs.length))
          let r := moveBase 17 { r with staged := mdel r.staged q, have' := q :: r.have' }
          let s := setJob s j { x with recvs := mset x.recvs dev r, arrival := rest }
          let s := grantWin s j dev
          let s := sendCredit s j dev r.ec r.tc q 0 (mgetD (job s j).recvs dev {})
          let s := if pi = rd s F.exRingCi j ∧ bs ≠ [] then
              drawn (event s (rd s F.exJobHp j) (rd s F.exJobFunc j) (openFields s 0x50) (freeNat s))
            else s
          refreshEx (noteFull s j)

/-- A job closed (R420): its batches and receiver records go, and its descriptors end with EX_FAILED. -/
def closeJob (s : State) (j : Nat) : State :=
  let x := job s j
  let s := { s with cl := { s.cl with jobs := mdel s.cl.jobs j } }
  let s := wr (wr s F.exJobState 0 j) F.exJobOpen 0 j
  refreshEx (x.sends.foldl (fun s d => descError s d.origin 20) s)

/-- Whether a job holds a batch in staging or unacknowledged (R420). -/
def jobBusy (s : State) (j : Nat) : Bool := !(job s j).batches.isEmpty || !(job s j).arrival.isEmpty

/-- The jobs of a function, or of a port, closed at a reset (R420). -/
def closeJobs (s : State) (hp : Nat) (fn : Option Nat) : State :=
  (List.range 64).foldl (fun s j =>
    if rd s F.exJobState j != 0 && rd s F.exJobHp j == hp
      && (match fn with | some f => rd s F.exJobFunc j == f | none => true) then closeJob s j else s) s

end Sys2Proof.Machine
end

