-- ==== Sys2Proof/Machine/Gw.lean ====
section
/-!
DEFINITION. Machine/Gw.lean: the global memory window (12): spans and the modes of Table 12-1, the far cache (R365 to
R371), flushes (R372, R373), ordering (R374, R383), poison and lost writes (R376 to R379), and HDM decoders (R357).
-/

namespace Sys2Proof.Machine

def setGw (s : State) (f : GwSt → GwSt) : State := { s with gw := f s.gw }

/-- Span, and line, of a window offset. -/
def spanOf (off : Nat) : Nat := off / 2 ^ 30 % 131072
def lineOf (off : Nat) : Nat := off / 1024
def lineSpan (line : Nat) : Nat := spanOf (line * 1024)

/-- Whether a span is served to a port (R356, R359, R361). -/
def spanServed (s : State) (sp hp : Nat) : Bool :=
  rd s F.gwSpanMode sp != 0 && (if hp = 0 then rdb s F.gwSpanHp0En sp else rdb s F.gwSpanHp1En sp) && rdb s F.gwPortEnable hp

/-- GW_SPAN_ERR of a span. -/
def spanErr (s : State) (sp : Nat) : Bool := bitAt (rd s F.gwSpanErrErr (sp / 64)) (sp % 64)
def setSpanErr (s : State) (sp : Nat) : State :=
  wr s F.gwSpanErrErr (Nat.lor (rd s F.gwSpanErrErr (sp / 64)) (2 ^ (sp % 64))) (sp / 64)

/-- Fetches and accesses to the home in flight (GW_FC_STAT.FETCHES). -/
def gwFetches (s : State) : Nat := mcount s.gw.msgs fun _ m => match m.what with
  | .writeBack .. => false
  | _ => true

/-- Dirty sectors in the far cache. -/
def dirtySectors (s : State) : Nat := s.gw.lines.foldl (fun n e => n + mcount e.2.sects fun _ x => x.dirty) 0

/-- Whether a line, a fetch or an access of a span is present (GW_SPAN.IN_USE, R364). -/
def spanHeld (s : State) (sp : Nat) : Bool :=
  s.gw.lines.any (fun e => lineSpan e.1 == sp) || s.gw.accs.any (fun e => spanOf e.2.off == sp)
    || s.gw.msgs.any fun e => match e.2.what with
      | .fetch line _ => lineSpan line == sp
      | .sector a => match mget s.gw.accs a with
        | some x => spanOf x.off == sp
        | none => false
      | _ => false

/-- IN_USE of a span and GW_FC_STAT brought into step. -/
def refreshGw (s : State) (sp : Nat) : State :=
  let s := wrb s F.gwSpanInUse (rd s F.gwSpanMode sp != 0 || spanHeld s sp) sp
  wr (wr s F.gwFcStatFetches (gwFetches s)) F.gwFcStatDirtyKib (dirtySectors s / 16)

/-- A GW event (Table 12-3), at most one for each span and cause in 1 ms (R379), to PF0 of each port that the span enables. -/
def gwEvent (s : State) (cause off : Nat) : State :=
  let sp := spanOf off
  let k := sp * 8 + cause
  let due := match mget s.gw.events k with
    | some t => decide (t + ms 1 ≤ s.timeNs)
    | none => true
  if due then
    let s := setGw s fun g => { g with events := mset g.events k s.timeNs }
    let w0 := 0x40 + cause * 2 ^ 8 + sp * 2 ^ 16
    let s := if rdb s F.gwSpanHp0En sp then event s 0 0 w0 off else s
    if rdb s F.gwSpanHp1En sp then event s 1 0 w0 off else s
  else s

/-! ### Messages to the home -/

/-- A message of the window to a span's home (R360), from the window EC of a port (R361). -/
def gwMsg (s : State) (hp off op len : Nat) (data : List Byte) (bulk : Bool) (what : GwFor) : State × Nat :=
  let sp := spanOf off
  let id := s.gw.nextMsg
  let m := newMsg s (rd s F.gwPortEc hp) (rd s F.gwSpanHomeEc sp) (rd s F.gwSpanHomeDev sp) (rd s F.gwSpanTc sp) op len 1
    (.window id)
  let m := { m with key := rd s F.gwSpanKey sp, off := rd s F.gwSpanHomeOff sp * 2 ^ 30 + off % 2 ^ 30, buf := .bytes data,
                    bulk := bulk }
  (startMsg (setGw s fun g => { g with nextMsg := id + 1, msgs := mset g.msgs id ⟨what, none⟩ }) m, id)

/-- The port whose EC write-backs use (R361); outside RUN they wait (R38). -/
def wbPort (s : State) : Option Nat := [0, 1].find? fun hp => serving s hp && rdb s F.gwPortEnable hp && baseOf s == 2

/-- Whether a sector has a write-back under way. -/
def writingBack (s : State) (line i : Nat) : Bool := s.gw.msgs.any fun e => match e.2.what with
  | .writeBack l f n => l == line && decide (f ≤ i) && decide (i < f + n)
  | _ => false

/-- Whether some write waits under R368. -/
def dirtyWaits (s : State) : Bool := s.gw.accs.any fun e => e.2.stalled

/-- A line's dirty sectors written back: one PUT for each run of consecutive ones (R370); with no port the line waits
(R361). -/
def writeBack (s : State) (line : Nat) : State :=
  match mget s.gw.lines line, wbPort s with
  | some l, some hp =>
    let want := (List.range 16).filter fun i =>
      (match mget l.sects i with
        | some x => x.dirty && !x.poison
        | none => false) && !writingBack s line i
    let s := setGw s fun g => { g with lines := mset g.lines line { l with wants := false } }
    (runs want).foldl (fun s r =>
      let data := (List.range r.2).flatMap fun i => ((mget l.sects (r.1 + i)).map (·.data)).getD []
      (gwMsg s hp (line * 1024 + r.1 * 64) opPut (64 * r.2) data (!dirtyWaits s) (.writeBack line r.1 r.2)).1) s
  | some l, none => setGw s fun g => { g with lines := mset g.lines line { l with wants := true } }
  | none, _ => s

/-- Lines that wait for a port written back, once there is one (R361, R381). -/
def runWaiting (s : State) : State :=
  if (wbPort s).isSome then (s.gw.lines.filter fun e => e.2.wants).foldl (fun s e => writeBack s e.1) s else s

/-! ### The far cache -/

/-- Sets of the far cache: its partition in lines of 1 KiB, 16 to a set (R365, Table 02-5). -/
def farSets (s : State) : Nat := max 1 (s.txn.arm.hpart.getD 0 0 * 64)

/-- The set of a line. -/
def lineSetOf (s : State) (line : Nat) : Nat := Config.lineSet line % farSets s

/-- The lines of a set. -/
def setLines (s : State) (k : Nat) : List (Nat × Line) := s.gw.lines.filter fun e => lineSetOf s e.1 == k

/-- Whether a line is kept under R370: a sector of it failed in its last write-back and is still dirty. -/
def lineKept (m : Map Sect) : Bool := m.any fun e => e.2.dirty && e.2.failed

def lineClean (l : Line) : Bool := l.sects.all fun e => !e.2.dirty

/-- The line least recently used of a list. -/
def leastUsed : List (Nat × Line) → Option (Nat × Line)
  | [] => none
  | e :: t => match leastUsed t with
    | some f => some (if e.2.used ≤ f.2.used then e else f)
    | none => some e

/-- Whether all ways of a line's set hold lines kept under R370 (R371). -/
def setKept (s : State) (line : Nat) : Bool :=
  let l := setLines s (lineSetOf s line)
  decide (16 ≤ l.length) && l.all fun e => e.2.kept

/-- The way that a fill takes in a full set: one with no valid sector, else the clean way least recently used (R365). -/
def victimOf (l : List (Nat × Line)) : Option (Nat × Line) :=
  match l.find? fun e => e.2.sects.isEmpty with
  | some v => some v
  | none => leastUsed (l.filter fun e => lineClean e.2)

/-- A place for a line (R365): the line itself, a free way, or the way that a fill takes; a set whose ways all hold
dirty sectors first writes back its least recently used line, and the place must wait. -/
def wayFor (s : State) (line : Nat) : State × Bool :=
  if mhas s.gw.lines line then (s, true)
  else
    let l := setLines s (lineSetOf s line)
    let s' := setGw s fun g => { g with lines := mset g.lines line ⟨[], g.clock, false, 0, false⟩ }
    if l.length < 16 then (s', true)
    else
      match victimOf l with
      | some v => (setGw s fun g =>
          { g with lines := mset (mdel g.lines v.1) line ⟨[], g.clock, false, 0, false⟩ }, true)
      | none =>
        match leastUsed (l.filter fun e => !e.2.kept) with
        | some v => (writeBack s v.1, false)
        | none => (s, false)

/-- A line used now. -/
def useLine (s : State) (line : Nat) : State :=
  setGw s fun g => { g with clock := g.clock + 1, lines := mmod g.lines line fun l => { l with used := g.clock + 1 } }

/-- A sector of a line written. -/
def putSect (s : State) (line i : Nat) (x : Sect) : State :=
  setGw s fun g => { g with lines := mmod g.lines line fun l => { l with sects := mset l.sects i x } }

/-- Replaced bytes in a list. -/
def spliceBytes (bs : List Byte) (at' : Nat) (new : List Byte) : List Byte :=
  bs.take at' ++ new ++ bs.drop (at' + new.length)

/-- New data of a sector carried by a write-back whose PUT is not built yet (R383); otherwise the sector is written again. -/
def carry (s : State) (line i : Nat) (data : List Byte) : State × Bool :=
  s.gw.msgs.foldl (fun r e => match e.2.what with
    | .writeBack l f n =>
      if l = line ∧ f ≤ i ∧ i < f + n then
        match r.1.tp.slots.find? fun m => m.2.origin == .window e.1 with
        | some m =>
          if m.2.next = 0 then
            match m.2.buf with
            | .bytes bs => (setSlot r.1 { m.2 with buf := .bytes (spliceBytes bs ((i - f) * 64) data) }, r.2)
            | _ => r
          else (r.1, true)
        | none => (r.1, true)
      else r
    | _ => r) (s, false)

/-- A sector made dirty with new data. -/
def dirtySect (s : State) (line i : Nat) (data : List Byte) : State :=
  let (s, again) := carry s line i data
  useLine (putSect s line i ⟨data, true, false, again, false⟩) line

/-- The enabled bytes merged. -/
def mergeBytes : List Byte → List Byte → List Bool → List Byte
  | o :: os, n :: ns, e :: es => (if e then n else o) :: mergeBytes os ns es
  | os, _, _ => os

/-- Runs of enabled bytes of a partial write. -/
def enRuns (en : List Bool) : List (Nat × Nat) := runs ((List.range 64).filter fun i => en.getD i false)

/-! ### Accesses -/

def setAcc (s : State) (id : Nat) (a : GwAcc) : State := setGw s fun g => { g with accs := mset g.accs id a }
def delAcc (s : State) (id : Nat) : State := setGw s fun g => { g with accs := mdel g.accs id }

/-- An access answered: data with its poison for a read, a completion for a write; one answered under LIMIT_US stays until its own messages
have ended (R377). -/
def answerAcc (s : State) (id : Nat) (a : GwAcc) (data : List Byte) (poison : Bool) : State :=
  let s := if a.answered then s else
    pmSample (emit s (.cxl a.hp a.addr (if a.op = 0 then data else []) poison)) 2 2 id [bit poison]
  refreshGw (if a.msgs.isEmpty then delAcc s id else setAcc s id { a with answered := true }) (spanOf a.off)

/-- A read that has no data (R376). -/
def poisonRead (s : State) (id : Nat) (a : GwAcc) : State :=
  let s := if a.answered then s else gwEvent (inc s F.gwCnt1Poison) 1 a.off
  answerAcc s id a [] true

/-- A write that is lost (R377). -/
def loseWrite (s : State) (id : Nat) (a : GwAcc) : State :=
  let s := if a.answered then s else setSpanErr (gwEvent (inc s F.gwCnt1WriteLost) 3 a.off) (spanOf a.off)
  answerAcc s id a [] false

/-- Whether an earlier access of the port to the same 64 bytes is unanswered (R374). -/
def accOrdered (s : State) (id : Nat) (a : GwAcc) : Bool :=
  s.gw.accs.any fun e => decide (e.1 < id) && e.2.hp == a.hp && e.2.off / 64 == a.off / 64 && !e.2.answered

/-- Whether an EVICT still holds a line (R383). -/
def underEvict (s : State) (line : Nat) : Bool :=
  mhas s.gw.lines line && s.gw.flushes.any fun f => f.action == 2 && decide (f.lo ≤ line) && decide (line < f.hi)
    && f.todo.any fun t => t.1 == line

/-- The fetch of a line under way. -/
def fetchOf (s : State) (line : Nat) : Option Nat :=
  (s.gw.msgs.find? fun e => match e.2.what with
    | .fetch l no => l == line && !no
    | _ => false).map (·.1)

/-- An access that cannot reach the home: poison, or a lost write (R376, R377). -/
def failAcc (s : State) (id : Nat) (a : GwAcc) : State := if a.op = 0 then poisonRead s id a else loseWrite s id a

/-- Whether the window's messages may go out: only in RUN; in TEST misses return poison and writes are lost (R38). -/
def homeReach (s : State) : Bool := baseOf s == 2

/-- Joining the line's fetch, or starting one (R366), when fewer than 4,096 are in flight. -/
def joinFetch (s : State) (id : Nat) (a : GwAcc) : State :=
  if !homeReach s then failAcc s id a
  else
  let line := lineOf a.off
  match fetchOf s line with
  | some f => setAcc s id { a with fetch := some f }
  | none =>
    if 4096 ≤ gwFetches s then s
    else
      let (s, f) := gwMsg (inc (pmCount s 0x70 a.hp 2 1) F.gwCnt0Miss) a.hp (line * 1024) opGetReq 1024 [] false (.fetch line false)
      setAcc s id { a with fetch := some f }

/-- A GET of the access's own sector (SHARED_RW, or around the far cache, which BYPASS counts, R371). -/
def ownGet (s : State) (id : Nat) (a : GwAcc) (around : Bool) : State :=
  if !homeReach s then failAcc s id a
  else if 4096 ≤ gwFetches s then s
  else
    let (s, m) := gwMsg (if around then inc s F.gwCnt5Bypass else s) a.hp (a.off / 64 * 64) opGetReq 64 [] false (.sector id)
    setAcc s id { a with msgs := [m] }

/-- The access's write sent to the home: one PUT, or one for each run of enabled bytes of a partial write; around the
far cache BYPASS counts it (R371). -/
def ownPuts (s : State) (id : Nat) (a : GwAcc) (around : Bool) : State :=
  if !homeReach s then failAcc s id a
  else if 4096 ≤ gwFetches s then s
  else
    let rs := if a.op = 1 then [(0, 64)] else enRuns a.en
    let r := rs.foldl (fun (r : State × List Nat) e =>
      let (s, m) := gwMsg r.1 a.hp (a.off / 64 * 64 + e.1) opPut e.2 ((a.data.drop e.1).take e.2) false (.put id)
      (s, m :: r.2)) (if around then inc s F.gwCnt5Bypass else s, [])
    if r.2.isEmpty then answerAcc r.1 id a [] false else setAcc r.1 id { a with msgs := r.2 }

/-- Room for one more dirty sector (R368). -/
def dirtyRoom (s : State) : Bool := decide ((dirtySectors s + 1) * 64 ≤ rd s F.gwCfgDirtyMax * 2 ^ 30)

/-- A write that waits under R368, counted once; the least recently used dirty line is written back. -/
def waitDirty (s : State) (id : Nat) (a : GwAcc) : State :=
  let s := if a.stalled then s else setAcc (inc s F.gwCnt4DirtyStall) id { a with stalled := true }
  match leastUsed (s.gw.lines.filter fun e => !lineClean e.2 && !e.2.kept) with
  | some v => writeBack s v.1
  | none => s

/-- A write's data put into a sector that is or becomes dirty (R367, R378). -/
def writeSect (s : State) (id : Nat) (a : GwAcc) (data : List Byte) (wasDirty : Bool) : State :=
  let line := lineOf a.off
  let i := a.off / 64 % 16
  if a.poison then
    let s := setSpanErr (useLine (putSect s line i ⟨data, false, true, false, false⟩) line) (spanOf a.off)
    answerAcc s id a [] false
  else if wasDirty || dirtyRoom s then answerAcc (dirtySect s line i data) id a [] false
  else waitDirty s id a

/-- A write to a PRIVATE span (R367, R371). -/
def privateWrite (s : State) (id : Nat) (a : GwAcc) : State :=
  let line := lineOf a.off
  let here := match mget s.gw.lines line with
    | some l => mget l.sects (a.off / 64 % 16)
    | none => none
  if underEvict s line then s
  else
    match here with
    | some x =>
      if a.op = 1 then writeSect s id a a.data x.dirty
      else if x.poison then
        answerAcc (useLine (putSect s line (a.off / 64 % 16) { x with data := mergeBytes x.data a.data a.en }) line) id a [] false
      else writeSect s id a (mergeBytes x.data a.data a.en) x.dirty
    | none =>
      if !mhas s.gw.lines line && setKept s line then
        if a.poison then answerAcc (setSpanErr s (spanOf a.off)) id a [] false else ownPuts s id a true
      else if a.op = 2 then joinFetch s id a
      else
        match wayFor s line with
        | (s, true) => writeSect s id a a.data false
        | (s, false) => s

/-- An access moved on as far as it can go; its span entry is judged once (R359, R366, R374, R382, R384, Table 12-1). -/
def moveAcc (s : State) (id : Nat) : State :=
  match mget s.gw.accs id with
  | none => s
  | some a =>
    let sp := spanOf a.off
    if a.answered || holdOn s || accOrdered s id a || a.fetch.isSome || !a.msgs.isEmpty then s
    else if blockDown s 0x70 0 then failAcc s id a
    else if !a.judged && !spanServed s sp a.hp then
      if a.op = 0 then answerAcc s id a [] true else answerAcc (inc s F.gwCnt2NoSpan) id a [] false
    else
    let a := { a with judged := true }
    let s := setAcc s id a
    if a.op = 0 then
      if spanErr s sp then answerAcc s id a [] true
      else if rd s F.gwSpanMode sp = 3 then ownGet s id a false
      else
        let line := lineOf a.off
        let here := match mget s.gw.lines line with
          | some l => mget l.sects (a.off / 64 % 16)
          | none => none
        match here with
        | some x => answerAcc (useLine (inc (pmCount s 0x70 a.hp 1 1) F.gwCnt0Hit) line) id a x.data x.poison
        | none =>
          if !mhas s.gw.lines line && setKept s line && (fetchOf s line).isNone then ownGet s id a true
          else joinFetch s id a
    else
      match rd s F.gwSpanMode sp with
      | 2 => answerAcc (gwEvent (inc s F.gwCnt2RoWrite) 2 a.off) id a [] false
      | 3 => if a.poison then answerAcc (setSpanErr s sp) id a [] false else ownPuts s id a false
      | _ => privateWrite s id a

/-- Every access moved on, oldest first. -/
def moveAccs (s : State) : State := s.gw.accs.foldl (fun s e => moveAcc s e.1) s

/-- An access begun. -/
def beginGw (s : State) (hp addr off op : Nat) (data : List Byte) (en : List Bool) (poison : Bool) : State :=
  let id := s.gw.nextAcc
  let a : GwAcc := ⟨hp, addr, off, op, data, en, poison, s.timeNs, none, [], false, false, false, false⟩
  let s := pmSample s 0 2 id [rd s F.gwPortEc hp, op, off, selfId s, rd s F.gwSpanHomeDev (spanOf off), rd s F.gwSpanTc (spanOf off), 64]
  let s := setGw s fun g => { g with nextAcc := id + 1, accs := mset g.accs id a }
  refreshGw (moveAcc s id) (spanOf off)

/-! ### Decoders -/

/-- The DPA at which a decoder's range begins: the ranges and skips of those before it, and its own skip. -/
def hdmDpa (s : State) (hp i : Nat) : Nat :=
  ((List.range i).foldl (fun n j => match mget s.gw.hdm (hp * 8 + j) with
    | some d => if d.committed then n + d.skip + d.size else n
    | none => n) 0) + (match mget s.gw.hdm (hp * 8 + i) with
    | some d => d.skip
    | none => 0)

/-- The window offset of a host physical address (R357). -/
def hdmDecode (s : State) (hp addr : Nat) : Option Nat :=
  ((List.range 8).filterMap fun i => match mget s.gw.hdm (hp * 8 + i) with
    | some d => if d.committed && decide (d.base ≤ addr) && decide (addr < d.base + d.size) then
        some (hdmDpa s hp i + (addr - d.base)) else none
    | none => none).head?

/-! ### Ends of messages -/

/-- The end of a window message noted (R360): its status and the data of a GET. -/
def gwEnded (s : State) (id status : Nat) (m : Slot) : State :=
  setGw s fun g => { g with msgs := mmod g.msgs id fun x => { x with done := some (status, m.kept.getD []) } }

/-- A flush's wait for sectors ended: `failed` when their write-back failed (R373).  Sectors whose newer data are still to be written wait on, and
so do those of a failed write-back under R380, whose lines go once a later one succeeds. -/
def flushDone (s : State) (line first n : Nat) (failed : Bool) : State :=
  setGw s fun g => { g with flushes := g.flushes.map fun f =>
    let mine := fun (t : Nat × Nat) => t.1 == line && decide (first ≤ t.2 % 16) && decide (t.2 % 16 < first + n)
    if failed && f.seq.isNone then f
    else
      { f with failed := f.failed || (failed && f.todo.any mine)
               todo := (f.todo.filter fun t => !mine t || (!failed && decide (16 ≤ t.2))).map fun t =>
                 if mine t then (t.1, t.2 % 16) else t } }

/-- Whether a flush waits for sectors of a line that no write-back carries yet (R373). -/
def flushWants (s : State) (line : Nat) : Bool :=
  s.gw.flushes.any fun f => f.todo.any fun t => t.1 == line && decide (t.2 < 16) && !writingBack s line t.2

/-- Lines that an EVICT has made clean are removed (R373). -/
def evictClean (s : State) : State :=
  setGw s fun g =>
    let gone := fun (e : Nat × Line) => lineClean e.2 && g.flushes.any fun f => f.action == 2 && decide (f.lo ≤ e.1)
      && decide (e.1 < f.hi) && !(f.todo.any fun t => t.1 == e.1)
    { g with lines := g.lines.filter fun e => !gone e }

/-- Sectors of a line filled with fetched data: only those that are not valid (R366). -/
def fillLine (l : Line) (data : List Byte) : Line :=
  { l with sects := (List.range 16).foldl (fun m i =>
      if mhas m i then m else mset m i ⟨(data.drop (64 * i)).take 64, false, false, false, false⟩) l.sects }

/-- A fetch that has ended acted on (R366, R376): its data fills the line, unless a flush forbids it; accesses that joined
it go on. A line that must wait for a way keeps the fetch. -/
def fetchEnd (s : State) (id line : Nat) (no : Bool) (status : Nat) (data : List Byte) : State :=
  let joined := (s.gw.accs.filter fun e => e.2.fetch == some id).map (·.1)
  let drop := fun (s : State) => setGw s fun g =>
    { g with msgs := mdel g.msgs id, flushes := g.flushes.map fun f => { f with fetches := f.fetches.erase id } }
  let serve := fun (s : State) => joined.foldl (fun s k => match mget s.gw.accs k with
    | some a =>
      if status ≠ 0 then (if a.op = 0 then poisonRead s k a else loseWrite s k { a with fetch := none })
      else if a.op = 0 then
        if spanErr s (spanOf a.off) then answerAcc s k a [] true
        else
          match mget s.gw.lines line with
          | some l => match mget l.sects (a.off / 64 % 16) with
            | some x => answerAcc s k a x.data x.poison
            | none => answerAcc s k a ((data.drop (a.off / 64 % 16 * 64)).take 64) false
          | none => answerAcc s k a ((data.drop (a.off / 64 % 16 * 64)).take 64) false
      else moveAcc (setAcc s k { a with fetch := none }) k
    | none => s) s
  if status ≠ 0 ∨ no = true ∨ (mhas s.gw.lines line = false ∧ setKept s line = true) then
    refreshGw (moveAccs (serve (drop s))) (lineSpan line)
  else
    match wayFor s line with
    | (s, true) =>
      let s := setGw (drop s) fun g => { g with lines := mmod g.lines line fun l => fillLine l data }
      refreshGw (moveAccs (serve (useLine s line))) (lineSpan line)
    | (s, false) => s

/-- Fetches that wait for a way tried again. -/
def retryFills (s : State) : State :=
  s.gw.msgs.foldl (fun s e => match mget s.gw.msgs e.1 with
    | some ⟨.fetch line no, some (st, data)⟩ => fetchEnd s e.1 line no st data
    | _ => s) s

/-- A write-back's PUT that has ended acted on (R370, R383). -/
def wbEnd (s : State) (id line first n status : Nat) : State :=
  let s := setGw s fun g => { g with msgs := mdel g.msgs id }
  let inRun := fun i => decide (first ≤ i) && decide (i < first + n)
  if status = 0 then
    let f : Nat → Sect → Sect := fun i x => if inRun i then { x with dirty := x.again, again := false, failed := false } else x
    let s := setGw s fun g => { g with lines := mmod g.lines line fun l =>
      let m := mmap l.sects f
      { l with sects := m, kept := lineKept m } }
    let s := flushDone s line first n false
    let s := evictClean (if flushWants s line then writeBack s line else s)
    refreshGw (moveAccs s) (lineSpan line)
  else
    let f : Nat → Sect → Sect := fun i x => if inRun i then { x with again := false, failed := x.dirty } else x
    let s := setGw s fun g => { g with lines := mmod g.lines line fun l =>
      let m := mmap l.sects f
      { l with sects := m, kept := lineKept m, keptAt := s.timeNs } }
    let s := gwEvent (inc s F.gwCnt4WbFailed) 4 (line * 1024 + first * 64)
    refreshGw (moveAccs (evictClean (flushDone s line first n true))) (lineSpan line)

/-- A PUT or a GET of an access's own that has ended acted on (R374, R376, R377). -/
def ownEnd (s : State) (id acc status : Nat) (data : List Byte) : State :=
  let s := setGw s fun g => { g with msgs := mdel g.msgs id }
  match mget s.gw.accs acc with
  | none => s
  | some a =>
    let a := { a with msgs := a.msgs.erase id, failed := a.failed || status != 0 }
    if !a.msgs.isEmpty then setAcc s acc a
    else if a.op = 0 then
      if a.failed then poisonRead s acc a else answerAcc s acc a data (spanErr s (spanOf a.off))
    else if a.failed then loseWrite s acc a
    else answerAcc s acc a [] false

/-! ### Flushes -/

/-- The lines that a flush command names: first, and one past the last (R372). -/
def flushScope (s : State) (scope lines : Nat) : Nat × Nat :=
  let at' := rd s F.gwFlushAddrOffset
  match scope with
  | 1 => (at', at' + lines)
  | 2 => (at' / 2 ^ 20 * 2 ^ 20, at' / 2 ^ 20 * 2 ^ 20 + 2 ^ 20)
  | _ => (0, 2 ^ 37)

/-- A flush begun over a range of lines (R372, R373): 1 WRITEBACK, 2 EVICT, 3 DISCARD. -/
def beginFlush (s : State) (seq : Option Nat) (action lo hi : Nat) : State :=
  let mine := s.gw.lines.filter fun e => decide (lo ≤ e.1) && decide (e.1 < hi)
  let running := (s.gw.msgs.filter fun e => match e.2.what with
    | .fetch l _ => decide (lo ≤ l) && decide (l < hi)
    | _ => false).map (·.1)
  let todo := if action = 3 then [] else mine.flatMap fun e =>
    (e.2.sects.filter fun x => x.2.dirty).map fun x => (e.1, if x.2.again && writingBack s e.1 x.1 then 16 + x.1 else x.1)
  let f : Nat → GwMsg → GwMsg := fun k m => match m.what with
    | .fetch l _ => if running.contains k then { m with what := .fetch l true } else m
    | _ => m
  let s := setGw s fun g =>
    { g with flushes := g.flushes ++ [⟨seq, action, lo, hi, todo, (if action = 1 then [] else running), false⟩]
             msgs := if action = 1 then g.msgs else mmap g.msgs f
             lines := if action = 3 then g.lines.filter (fun e => !(decide (lo ≤ e.1) && decide (e.1 < hi))) else g.lines }
  let s := if action = 3 then s else mine.foldl (fun s e => if lineClean e.2 then s else writeBack s e.1) s
  evictClean s

/-- A flush command accepted (R372): it takes the next sequence number. -/
def acceptFlush (s : State) (action scope lines : Nat) : State :=
  let seq := (rd s F.gwFlushStatIssued + 1) % 2 ^ 32
  let sc := flushScope s scope lines
  let touched := ((s.gw.lines.filter fun e => decide (sc.1 ≤ e.1) && decide (e.1 < sc.2)).map fun e => lineSpan e.1).eraseDups
  let s := beginFlush (wr s F.gwFlushStatIssued seq) (some seq) action sc.1 sc.2
  touched.foldl refreshGw (moveAccs s)

/-- Pending flush commands. -/
def flushesPending (s : State) : Nat := (s.gw.flushes.filter fun f => f.seq.isSome).length

/-- Whether a flush has nothing left to wait for (R373). -/
def flushReady (s : State) (f : GwFlush) : Bool :=
  f.todo.isEmpty && f.fetches.all fun k => !mhas s.gw.msgs k

/-- The window at a hot reset or HFUND of a port (R380): decoders cleared, the port's accesses gone, spans enabled only for
it written back and then without lines. -/
def gwPortReset (s : State) (hp : Nat) : State :=
  let only := fun sp => if hp = 0 then rdb s F.gwSpanHp0En sp && !rdb s F.gwSpanHp1En sp
    else rdb s F.gwSpanHp1En sp && !rdb s F.gwSpanHp0En sp
  let spans := ((s.gw.lines.map fun e => lineSpan e.1).eraseDups).filter only
  let s := setGw s fun g => { g with hdm := mfilter g.hdm fun k _ => k / 8 != hp, accs := mfilter g.accs fun _ a => a.hp != hp }
  spans.foldl (fun s sp => refreshGw (beginFlush s none 2 (sp * 2 ^ 20) (sp * 2 ^ 20 + 2 ^ 20)) sp) s

end Sys2Proof.Machine
end

