-- ==== Sys2Proof/Machine/Phy.lean ====
section
/-!
DEFINITION. Machine/Phy.lean: what a lane puts on its pads and reads from them (04): PAM4 symbols (R106), groups and
lane-control blocks (R107, Table 04-2), the scrambler (R108), RS(544,514) and the codeword pair (R109, R110), dealing of
groups to lanes (R111), training frames (R116, Table 04-4) and test patterns (Table 04-8).  A run of bits is a number
whose bit 0 is the first bit on the wire.
-/

namespace Sys2Proof.Machine

/-! ### PAM4 symbols -/

/-- The first bits of n pairs: bits 0, 2, 4 and so on. -/
def firstBits (n : Nat) : Nat := (4 ^ n - 1) / 3

/-- The levels of n bit pairs (R106): Gray code, the first bit the more significant; two bits a symbol, the first lowest. -/
def pamLevels (n x : Nat) : Nat :=
  let hi := Nat.land x (firstBits n)
  2 * hi + Nat.xor hi (Nat.land (x / 2) (firstBits n))

/-- The bits that n levels stand for. -/
def pamBits (n y : Nat) : Nat :=
  let hi := Nat.land (y / 2) (firstBits n)
  hi + 2 * Nat.xor hi (Nat.land y (firstBits n))

/-- Levels as an inverted slicer reads them (R119): 0 and 3, and 1 and 2, trade places. -/
def invLevels (n y : Nat) : Nat := 4 ^ n - 1 - y % 4 ^ n

/-! ### Shift registers: the scrambler and the patterns -/

/-- The sum of the bits that the taps of a register of `order` bits see, for the next chunk; bit i of the register came order - i
bits ago. -/
def tapSum (order : Nat) (taps : List Nat) (st : Nat) : Nat := taps.foldl (fun x t => Nat.xor x (st / 2 ^ (order - t))) 0

/-- n bits, each the sum of an input bit and of the tapped earlier output bits, with the register after them; `k` at most bits at a
time, k not above the smallest tap.  The first argument bounds the rounds. -/
def feed (order k : Nat) (taps : List Nat) : Nat → Nat → Nat → Nat → Nat × Nat
  | 0, _, _, st => (0, st)
  | r + 1, n, d, st =>
    let w := min k n
    let s := Nat.xor d (tapSum order taps st) % 2 ^ w
    let rest := feed order k taps r (n - w) (d / 2 ^ w) ((st + s * 2 ^ order) / 2 ^ w)
    (s + rest.1 * 2 ^ w, rest.2)

/-- n bits scrambled by x^58 + x^39 + 1 (R108), and the register after them. -/
def scramble (n d st : Nat) : Nat × Nat := feed 58 39 [58, 39] (n / 39 + 1) n d st

/-- n bits descrambled (R108): each is the sum of a received bit and those 39 and 58 bits before it. -/
def descramble (n r st : Nat) : Nat × Nat :=
  let all := st + r % 2 ^ n * 2 ^ 58
  (Nat.xor r (tapSum 58 [58, 39] all) % 2 ^ n, all / 2 ^ n)

/-! ### RS(544,514) -/

/-- A number of GF(2^10) times α, with x^10 + x^3 + 1 (R109). -/
def gfX (a : Nat) : Nat := if 2 * a < 1024 then 2 * a else Nat.xor (2 * a) 0x409

/-- A product in GF(2^10). -/
def gfMul (a b : Nat) : Nat :=
  ((List.range 10).foldl (fun (p : Nat × Nat) i => (if bitAt b i then Nat.xor p.1 p.2 else p.1, gfX p.2)) (0, a)).1

/-- n powers of α from x on. -/
def gfPowers : Nat → Nat → List Nat
  | 0, _ => []
  | n + 1, x => x :: gfPowers n (gfX x)

/-- The inverse of a number other than 0: its power 1,022. -/
def gfInv (a : Nat) : Nat :=
  ((List.range 9).foldl (fun (p : Nat × Nat) _ => let q := gfMul p.2 p.2; (gfMul p.1 q, q)) (1, a)).1

/-- The generator polynomial (R109): the product of x - α^i for i = 0 to 29, lowest coefficient first. -/
def rsGen : List Nat :=
  (gfPowers 30 1).foldl (fun g a => List.zipWith Nat.xor (0 :: g) ((g.map (gfMul a)) ++ [0])) [1]

/-- The coefficients below x^30 times a number, ten bits each. -/
def rsScaled (f : Nat) : Nat := ((rsGen.take 30).zipIdx).foldl (fun n e => n + gfMul f e.1 * 2 ^ (10 * e.2)) 0

/-- The 30 parity symbols of a message, the highest coefficient first (PRESUMED, log entry 101): the message times x^30 modulo the generator. -/
def rsParity (msg : List Nat) : List Nat :=
  let rows := (gfPowers 10 1).map rsScaled
  let p := msg.foldl (fun p m =>
    let f := Nat.xor (p / 2 ^ 290) m
    (rows.zipIdx).foldl (fun q e => if bitAt f e.2 then Nat.xor q e.1 else q) (p % 2 ^ 290 * 2 ^ 10)) 0
  (List.range 30).map fun i => bits p (10 * (29 - i)) 10

/-- A codeword's value at each of the generator's roots. -/
def rsSyndromes (cw : List Nat) : List Nat := (gfPowers 30 1).map fun a => cw.foldl (fun x c => Nat.xor (gfMul x a) c) 0

/-- A polynomial, lowest coefficient first, at x. -/
def gfEval (p : List Nat) (x : Nat) : Nat := p.foldr (fun c acc => Nat.xor c (gfMul acc x)) 0

/-- Coefficient i of a polynomial. -/
def coef (p : List Nat) (i : Nat) : Nat := p.getD i 0

/-- The error locator of the syndromes, lowest coefficient first, with its degree: the shortest register that makes them. -/
def rsLocator (syn : List Nat) : List Nat × Nat :=
  let start : List Nat × List Nat × Nat × Nat × Nat := ([1], [1], 0, 1, 1)
  let last := (List.range 30).foldl (fun (x : List Nat × List Nat × Nat × Nat × Nat) n =>
    let (c, b, l, m, d0) := x
    let d := (List.range (l + 1)).foldl (fun a i => Nat.xor a (gfMul (coef c i) (coef syn (n - i)))) 0
    if d = 0 then (c, b, l, m + 1, d0)
    else
      let sub := List.replicate m 0 ++ b.map (gfMul (gfMul d (gfInv d0)))
      let c' := (List.range (max c.length sub.length)).map fun i => Nat.xor (coef c i) (coef sub i)
      if 2 * l ≤ n then (c', c, n + 1 - l, 1, d) else (c', b, l, m + 1, d0)) start
  (last.1, last.2.2.1)

/-- The symbols that errors changed, as position and value, for a codeword of 544 symbols. -/
def rsErrors (syn : List Nat) : List (Nat × Nat) :=
  let (loc, deg) := rsLocator syn
  let omega := (List.range 30).map fun i => (List.range (i + 1)).foldl (fun a k => Nat.xor a (gfMul (coef syn k) (coef loc (i - k)))) 0
  let slope := (List.range (deg + 1)).map fun i => if i % 2 = 0 then coef loc (i + 1) else 0
  (((gfPowers 1024 1).drop 480).zipIdx).filterMap fun e =>
    if gfEval loc e.1 = 0 then some (e.2, gfMul (gfInv e.1) (gfMul (gfEval omega e.1) (gfInv (gfEval slope e.1)))) else none

/-- A received codeword decoded (R109): the symbols corrected, at most 15, and the codeword; none when it is uncorrectable. -/
def rsDecode (cw : List Nat) : Option (Nat × List Nat) :=
  let syn := rsSyndromes cw
  if syn.all (· == 0) then some (0, cw)
  else
    let errs := rsErrors syn
    let fixed := (cw.zipIdx).map fun e => Nat.xor e.1 (((errs.find? fun x => x.1 == e.2).map (·.2)).getD 0)
    if errs.length = (rsLocator syn).2 ∧ errs.length ≤ 15 ∧ (rsSyndromes fixed).all (· == 0) = true then some (errs.length, fixed)
    else none

/-! ### The codeword pair -/

/-- Ten bits in the other order: a symbol is sent bit 9 first (R109). -/
def rev10 (x : Nat) : Nat := (List.range 10).foldl (fun n i => 2 * n + x / 2 ^ i % 2) 0

/-- The symbols of n·10 bits in wire order. -/
def symbolsOf (n x : Nat) : List Nat := (List.range n).map fun k => rev10 (bits x (10 * k) 10)

/-- The bits of symbols in wire order. -/
def bitsOfSymbols (l : List Nat) : Nat := l.foldr (fun x n => rev10 x + n * 2 ^ 10) 0

/-- Every second symbol, from the first. -/
def evens : List Nat → List Nat
  | [] => []
  | [a] => [a]
  | a :: _ :: t => a :: evens t

/-- Two lists taken in turn (R109). -/
def inTurn (a b : List Nat) : List Nat := (List.zipWith (fun x y => [x, y]) a b).flatten

/-- The 10,880 bits of a codeword pair for a message area of 10,280 bits (R109, R110). -/
def codewordPair (msg : Nat) : Nat :=
  let syms := symbolsOf 1028 msg
  bitsOfSymbols (syms ++ inTurn (rsParity (evens syms)) (rsParity (evens (syms.drop 1))))

/-- A codeword pair read (R109, R112): the symbols corrected in A and in B, none where a codeword is uncorrectable, and the message
area, corrected where it can be. -/
def readPair (x : Nat) : Option Nat × Option Nat × Nat :=
  let syms := symbolsOf 1088 x
  let word := fun (l : List Nat) => evens (l.take 1028) ++ evens (l.drop 1028)
  let a := word syms
  let b := word (syms.drop 1)
  let da := rsDecode a
  let db := rsDecode b
  let msg := fun (d : Option (Nat × List Nat)) (w : List Nat) => ((d.map (·.2)).getD w).take 514
  (da.map (·.1), db.map (·.1), bitsOfSymbols (inTurn (msg da a) (msg db b)))

/-! ### Groups -/

/-- The sync header of a data group and of a lane-control group (R107), H[0] lowest. -/
def hdrData : Nat := 1
def hdrControl : Nat := 2

/-- The sync headers of a message area. -/
def headersOf (msg : Nat) : List Nat := (List.range 20).map fun g => bits msg (514 * g) 2

/-- The 10,240 block bits of a message area, in order. -/
def blockBits (msg : Nat) : Nat := (List.range 20).foldl (fun n g => n + bits msg (514 * g + 2) 512 * 2 ^ (512 * g)) 0

/-- A message area of headers and block bits. -/
def joinGroups (hdrs : List Nat) (blocks : Nat) : Nat :=
  (hdrs.zipIdx).foldl (fun n e => n + (e.1 + bits blocks (512 * e.2) 512 * 4) * 2 ^ (514 * e.2)) 0

/-- A LANE_MARK block and an IDLE block (Table 04-2). -/
def markBlock (llane port : Nat) (ready : Bool) : Nat := 2 + llane % 4 * 2 ^ 8 + port % 128 * 2 ^ 10 + bit ready * 2 ^ 17
def idleBlock : Nat := 1

/-- The 512 block bits of a group. -/
def groupOf (blocks g : Nat) : Nat := bits blocks (512 * g) 512

/-- The LANE_MARK that a pair carries, if any: RX_READY, logical lane, port. -/
def markIn (hdrs : List Nat) (blocks : Nat) : Option (Bool × Nat × Nat) :=
  (hdrs.zipIdx).findSome? fun e =>
    let b := groupOf blocks e.2
    if e.1 = hdrControl ∧ b % 256 = 2 then some (bitAt b 17, bits b 8 2, bits b 10 7) else none

/-- The pair that a lane sends (R107 to R110): headers, block bits, and the scrambler's register before it. -/
def sendPair (hdrs : List Nat) (blocks scr : Nat) : Nat × Nat :=
  let (x, scr) := scramble 10240 blocks scr
  (codewordPair (joinGroups hdrs x), scr)

/-- The block bits that lane i of n takes of a frame (R111): every n-th group, each half a flit. -/
def dealLane (slots : List Flit) (i n : Nat) : Nat :=
  (List.range 20).foldl (fun x k =>
    let g := i + n * k
    x + ofBytes (((slots.getD (g / 2) []).drop (64 * (g % 2))).take 64) * 2 ^ (512 * k)) 0

/-- The flit slots of a frame from the block bits of its lanes, in logical order (R111). -/
def gatherSlots (lanes : List Nat) : List Flit :=
  let n := lanes.length
  (List.range (10 * n)).map fun j =>
    toBytes 64 (groupOf (lanes.getD (2 * j % n) 0) (2 * j / n)) ++ toBytes 64 (groupOf (lanes.getD ((2 * j + 1) % n) 0) ((2 * j + 1) / n))

/-! ### Patterns and training frames -/

/-- Order, taps and bits at a time of a pattern (Table 04-8): 1 PRBS7, 2 PRBS9, 3 PRBS13, 4 PRBS31. -/
def patternOf (code : Nat) : Nat × List Nat × Nat :=
  match code with
  | 1 => (7, [7, 6], 6)
  | 2 => (9, [9, 5], 5)
  | 3 => (13, [13, 12, 2, 1], 1)
  | _ => (31, [31, 28], 28)

/-- n bits of SSPRQ: each follows from the 64 before it by a rule of IEEE 802.3, which the specification does not give. -/
def ssprqBits : Nat → Nat → Nat × Nat
  | 0, st => (0, st)
  | n + 1, st =>
    let b := bit (Config.ssprq (st % 2 ^ 64))
    let rest := ssprqBits n ((st + b * 2 ^ 64) / 2)
    (b + 2 * rest.1, rest.2)

/-- n bits of a pattern (R135), and the generator's register after them. -/
def patternBits (code n st : Nat) : Nat × Nat :=
  if code = 5 then ssprqBits n st
  else
    let (order, taps, k) := patternOf code
    feed order k taps (n / k + 1) n 0 st

/-- The bits that a pattern's register holds. -/
def patternOrder (code : Nat) : Nat := if code = 5 then 64 else (patternOf code).1

/-- A register of a pattern that some bits before leave: never all zeros. -/
def patternStart (code x : Nat) : Nat := 1 + x % (2 ^ patternOrder code - 1)

/-- The control word of a training frame (Table 04-4): fields [47:0] and their CCRC. -/
def sealWord (w : Nat) : Nat := w % 2 ^ 48 + crc16 (toBytes 6 (w % 2 ^ 48)) * 2 ^ 48

/-- Whether a training control word's CCRC holds (Table 04-4). -/
def ccrcOk (w : Nat) : Bool := crc16 (toBytes 6 (w % 2 ^ 48)) == bits w 48 16

/-- The marker of a training frame (R116): 16 symbols at level 3, then 16 at level 0. -/
def trainMarker : Nat := 2 ^ 32 - 1

/-- The 4,096 symbols of a training frame (R116): the marker, the control word at one bit a symbol, and 4,000 symbols of PRBS13Q. -/
def trainLevels (w prbs : Nat) : Nat :=
  let control := (List.range 64).foldl (fun n i => n + bit (bitAt w i) * 3 * 4 ^ i) 0
  trainMarker + control * 2 ^ 64 + pamLevels 4000 prbs * 2 ^ 192

/-- The polarity at which a frame shows its marker (R119): false as sent, true inverted, none where there is no marker. -/
def markerIn (levels : Nat) : Option Bool :=
  let m := bits levels 0 64
  if m = trainMarker then some false else if m = trainMarker * 2 ^ 32 then some true else none

/-- The control word of a frame's levels: a symbol of the upper half reads as a one. -/
def controlIn (levels : Nat) : Nat := (List.range 64).foldl (fun n i => n + levels / 2 ^ (65 + 2 * i) % 2 * 2 ^ i) 0

end Sys2Proof.Machine
end

