-- ==== Sys2Proof/Machine/Link.lean ====
section
/-!
DEFINITION. Machine/Link.lean: the link layer (05): lanes as it sees them (R160, R161), frames and their control flit
(Tables 05-1 to 05-3), replay (R140 to R144, R153, R166), credits (R145, R607), gaps (R151 to R155), link states (R156 to
R159) and link-down (R162, R163).
-/

namespace Sys2Proof.Machine

/-! ### Lanes of a unit -/

/-- The lanes of a port unit: logical lane i is element i (R101). -/
def unitLanes (s : State) (p : Nat) : List Nat :=
  if s.txn.arm.trunked then (List.range 4).map (4 * (p / 2) + ·) else [2 * p, 2 * p + 1]

/-- The port unit of a lane. -/
def laneUnit (s : State) (n : Nat) : Nat := unitOf s (n / 2)

def laneSt (s : State) (n : Nat) : LaneSt := mgetD s.lanes n {}
def setLane (s : State) (n : Nat) (l : LaneSt) : State := { s with lanes := mset s.lanes n l }

/-- Whether a lane is in READY on this side, on its own slice or on the spare, no swap replaces its groups, and it is not waiting for its
partner to take it back (R160, R161). -/
def laneReady (s : State) (n : Nat) : Bool :=
  rd s F.lnStatPhase n == 6 || (rdb s F.lnStatOnSpare n && !(laneSt s n).outside)

/-- Whether a lane's receiver counts in RX_LANES (R161): block lock, FEC lock and deskew. -/
def laneRx (s : State) (n : Nat) : Bool := rdb s F.lnStatBlkLock n && rdb s F.lnStatFecLock n && (laneSt s n).deskew

/-- RX_LANES of a unit: a mask by the logical lanes that the partner reports (R120, R160). -/
def rxLanes (s : State) (p : Nat) : Nat :=
  (unitLanes s p).foldl (fun m n => if laneRx s n then Nat.lor m (2 ^ rd s F.lnStatLlane n) else m) 0

/-- S, the lanes the sender deals groups to, as a mask (R160). -/
def txLanes (s : State) (p : Nat) : Nat :=
  ((unitLanes s p).zipIdx).foldl (fun (m : Nat) (e : Nat × Nat) =>
    if laneReady s e.1 && bitAt (linkOf s p).peerLanes e.2 then Nat.lor m (2 ^ e.2) else m) 0

/-- The number of lanes in S. -/
def txCount (s : State) (p : Nat) : Nat := ((List.range 4).filter (bitAt (txLanes s p))).length

/-! ### Registers -/

/-- Distance from a to b modulo 2^24 (R140). -/
def fdist (a b : Nat) : Nat := (b + 2 ^ 24 - a) % 2 ^ 24

/-- Entries that the on-die replay buffer holds (R141). -/
def onDieMax (s : State) : Nat := if s.txn.arm.trunked then 1024 else 512

/-- The link's registers brought into step. -/
def refreshLink (s : State) (p : Nat) : State :=
  let l := linkOf s p
  let st := linkState s p
  let n := l.replay.length
  let spilled := (l.replay.filter (·.spilled)).length
  let s := wr (wr s F.llReplayOnDie (n - spilled) p) F.llReplaySpilled spilled p
  let s := wr s F.llReplayPeak (max (rd s F.llReplayPeak p) n) p
  let s := wr (wr s F.llStatGaps l.gaps.length p) F.llStatTxLanes (if st = lsDown then 0 else txLanes s p) p
  let s := wr s F.llStatRxLanes (if st = lsDown then 0 else rxLanes s p) p
  (List.range 8).foldl (fun s v => if v < 4 then wr s F.llCred0Avail (availOf l v) p v
    else wr s F.llCred1Avail (availOf l v) p (v - 4)) s

def setState (s : State) (p st : Nat) : State := wr s F.llStatState st p

/-! ### Link-down -/

/-- One packet for each number, in order. -/
def byPkt (l : List (Nat × Bool × Bool × Nat × Nat × Nat)) : List (Nat × Bool × Bool × Nat × Nat × Nat) :=
  l.foldl (fun acc e => if acc.any (fun f => f.1 == e.1) then acc else acc ++ [e]) []

/-- Everything queued on the link dropped (R162): packets with a flit in the replay buffer or on its way to it, and those
granted to the output; each counts in LL_DROP and one that this device injected draws LINK_LOST. -/
def dropLink (s : State) (p : Nat) : State :=
  let l := linkOf s p
  let queued := l.replay.map (fun e => (e.pkt, e.injected, e.req, e.ec, e.msgid, e.psn))
    ++ l.txq.map (fun e => (e.pkt, e.injected, e.req, e.ec, e.msgid, e.psn))
  let bound := s.sw.pkts.filterMap fun e => if e.2.copies.any (fun c => c.outp == p && c.bound) then
      let own := decide (128 ≤ e.2.inp)
      let op := e.2.hdr.op
      let req := op == opPut || op == opGetReq || op == opSend || op == opSendRts || op == opAtomic || op == opLock
      some (e.1, own, own && req, e.2.hdr.ec, e.2.hdr.msgid, e.2.hdr.psn) else none
  let s := setLink s p { l with replay := [], txq := [], rpl := [], gone := [] }
  (byPkt (queued ++ bound)).foldl (fun s e =>
    let s := if e.2.1 then inc s F.llDropLocal 1 p else inc s F.llDropFwd 1 p
    let s := if e.2.1 then tell s (.linkLost e.2.2.1 e.2.2.2.1 e.2.2.2.2.1 e.2.2.2.2.2) else s
    match mget s.sw.pkts e.1 with
    | some k => if k.copies.any (fun c => c.outp == p && c.bound) then dropCopy s e.1 k p else s
    | none => s) s

/-- The receive side at a link-down (R163): held flits go, and a packet whose head has passed into the switch ends
stomped. -/
def cutInput (s : State) (p : Nat) : State :=
  let s := s.sw.pkts.foldl (fun s e =>
    if e.2.inp = p ∧ e.2.cells.length < e.2.flits then setPkt s e.1 { e.2 with inputLost := true } else s) s
  setLink s p { linkOf s p with rxHeld := [], gaps := [], rxPkt := none, voided := [] }

/-- A link-down with its cause (R158, R162, R163, R167), a topology event when the unit was UP (R216); a join that waited for this unit
alone completes (R219). -/
def linkDown (s : State) (p cause : Nat) : State :=
  if linkState s p = lsDown then s
  else
    let s := if linkUp s p then settle s else s
    let s := if s.rt.joined.contains p then setJoined s p false else s
    let s := wrb (wr (inc s F.llCnt2Downs 1 p) F.llStatDownCause cause p) F.llCtlDrain false p
    let s := setState s p lsDown
    let s := wrb s F.rtPartnerValid false p
    let s := { s with rt := { s.rt with geomRefused := s.rt.geomRefused.erase p, answered := s.rt.answered.erase p, joinSent := mdel s.rt.joinSent p } }
    let s := if cause = 6 then tell s (.fault 3 p) else s
    let s := if cause = 5 then s
      else if holdOn s then setLink s p { linkOf s p with holdDrop := true }
      else dropLink s p
    let s := cutInput s p
    let s := rerouteOutput s p false
    let l := linkOf s p
    let s := refreshLink (setLink s p { l with draining := false, resume := none, noLaneAt := none, abruptLeft := 0 }) p
    joinCheck s (windowPast s)

/-- A link that this device takes down itself (Table 05-5, LOCAL): DOWN ABRUPT in 4 frames first, when it has a lane to send them on. -/
def localDown (s : State) (p : Nat) : State :=
  if linkState s p = lsDown then s
  else if 0 < txCount s p then setLink s p { linkOf s p with abruptLeft := 4 }
  else linkDown s p 7

/-- A link whose ABRUPT frames are no longer waited for. -/
def endLocal (s : State) (p : Nat) : State := if 0 < (linkOf s p).abruptLeft then linkDown s p 7 else s

/-- The drops that HOLD put off (R167). -/
def dropHeld (s : State) : State :=
  s.links.foldl (fun s e => if e.2.holdDrop then dropLink (setLink s e.1 { linkOf s e.1 with holdDrop := false }) e.1 else s) s

/-! ### INIT -/

/-- Whether this device lets a unit train its link: in BUILD and RUN outside a full fence and with its LL block not held in
reset, or in TEST with SELFLINK set (R164, R516, R515); not while HOLD puts off what its last link-down drops (R167). -/
def mayInit (s : State) (p : Nat) : Bool :=
  !(linkOf s p).inReset && !(linkOf s p).holdDrop && (((baseOf s == 1 || baseOf s == 2) && !fullFence s) || (baseOf s == 3 && rdb s F.llCtlSelflink p))

/-- INIT entered (R156): a fresh LINK_EPOCH, RX_NEXT 0, and everything of the last link forgotten. -/
def enterInit (s : State) (p : Nat) : State :=
  if linkState s p = lsDown ∧ mayInit s p = true then
    let old := linkOf s p
    let l : LinkSt := { epoch := (old.epoch + 1) % 2 ^ 32, peerLanes := 15, lastGood := s.timeNs, probe := 1,
                        probeAt := s.timeNs, lastReturn := s.timeNs, noLaneAt := old.noLaneAt, swapUntil := old.swapUntil,
                        ring := old.ring, testGen := old.testGen,
                        resNow := (List.range 8).map fun v =>
                          nth (s.txn.arm.res.getD (p / 8) []) v * (if s.txn.arm.trunked then 2 else 1) }
    let s := setLink s p l
    let s := wr (wr (setState s p lsInit) F.llStatRxNext 0 p) F.llSeqTxAcked 0 p
    refreshLink (wr s F.llSeqTxNext 0 p) p
  else s

/-- UP entered (R157), or TEST_LINK in TEST (R164); a unit that takes part in the join sends JOIN (R219). -/
def enterUp (s : State) (p : Nat) : State :=
  let l := linkOf s p
  let s := setLink s p { l with used := [0, 0, 0, 0, 0, 0, 0, 0], freed := [0, 0, 0, 0, 0, 0, 0, 0],
                                credIn := [0, 0, 0, 0, 0, 0, 0, 0], rxHigh := 0, lastGood := s.timeNs }
  let s := setState s p (if baseOf s = 3 then lsTest else lsUp)
  let s := if baseOf s = 3 then s
    else if roleOf s p = 1 ∧ peerUse s = false then settle s
    else if baseOf s = 1 ∧ rd s F.rtStatJoin = 0 then settle s
    else settle (sendJoin s p)
  refreshLink s p

/-- Whether the three conditions of R157 let a side enter UP; `past` says a non-INIT frame has come. -/
def initCheck (s : State) (p : Nat) (past : Bool) : State :=
  let l := linkOf s p
  if linkState s p = lsInit ∧ l.sentSeen = true ∧ l.peerSeen = true ∧ (l.peerSawUs || past) = true then enterUp s p else s

/-- A partner's INIT taken in INIT (R156, R157). -/
def takeInit (s : State) (p w2 w3 w4 w5 : Nat) : State :=
  let l := linkOf s p
  let first := !l.peerSeen
  let echoed := bitAt w2 8 && bits w2 52 8 == l.probe && !l.probeDone && l.probeSent.isSome
  let rtt := if echoed then min 65535 ((10 * (s.timeNs - l.probeSent.getD 0) - 512) / 10) else rd s F.llStatRttNs p
  let creds := (List.range 8).map fun v => if v < 4 then bits w4 (16 * v) 16 else bits w5 (16 * (v - 4)) 16
  let s := setLink s p { l with peerSeen := true, peerSawUs := l.peerSawUs || bitAt w2 8, peerEpoch := bits w3 0 32,
                                peerProbe := bits w2 44 8, initCred := creds, probeDone := l.probeDone || echoed }
  let s := wr s F.llStatRttNs rtt p
  let s := if first then
      let check := if baseOf s = 3 then 1 else wiringCheck s p (bits w2 9 2) (bits w2 12 7) (bits w2 26 18)
      let s := wr (wrb s F.rtPartnerValid true p) F.rtPartnerCheck check p
      wr (wr s F.rtPartnerPartnerPort (bits w2 12 7) p) F.rtPartnerPartnerId (bits w2 26 18) p
    else s
  let check := rd s F.rtPartnerCheck p
  if check = 1 ∨ check = 6 then initCheck s p false else refreshLink (setState s p lsHeld) p

/-! ### Receiving flits -/

/-- A flit of a test packet in TEST_LINK (R164): a whole packet is checked, counted and consumed, its credits returned. -/
def takeTest (s : State) (p : Nat) (f : Flit) : State :=
  let l := linkOf s p
  let fs := l.testRx ++ [f]
  let h := hdrOf (fs.headD [])
  if fs.length < flitsOf h.len then setLink s p { l with testRx := fs }
  else
    let k := pktOf fs
    let s := inc (setLink s p { l with testRx := [], freed := addAt l.freed h.vc fs.length (2 ^ 16), news := true }) F.llTestPkts 1 p
    if e2eOf k = k.e2e then s else inc s F.llTestBad 1 p

/-- An in-order flit passed to the switch (R151): a head starts a packet, another joins the packet that arrives.  On a VC
whose reserved account is full the link goes down (R607); a flit's VC is known once those before it are (R138; DEDUCED, log entry
103). -/
def passFlit (s : State) (p : Nat) (f : Flit) : State :=
  let l := linkOf s p
  if baseOf s = 3 then takeTest s p f
  else match l.rxPkt with
  | some id =>
    match mget s.sw.pkts id with
    | some k =>
      if resOf s p k.hdr.vc ≤ acctOf s p k.hdr.vc then linkDown s p 9
      else
        let s := storeCell s id f
        if k.flits ≤ k.cells.length + 1 then setLink s p { linkOf s p with rxPkt := none } else s
    | none => setLink s p { l with rxPkt := none }
  | none =>
    let h := hdrOf f
    if resOf s p h.vc ≤ acctOf s p h.vc then linkDown s p 9
    else
      let id := s.sw.next
      let k : SwPkt :=
        { inp := p, hdr := h, arriveAt := s.timeNs, flits := flitsOf h.len, cells := [], adopted := [], bad := [], lost := [],
          inputLost := false, routed := false, unitBound := false, marked := false, inAccount := true, copies := [], order := id }
      let s := storeCell (setPkt { s with sw := { s.sw with next := id + 1 } } id k) id f
      setLink s p { linkOf s p with rxPkt := if 1 < flitsOf h.len then some id else none }

/-- A flit of a gap received: the gap shrinks or splits. -/
def fillGap (q : Nat) (g : Gap) : List Gap :=
  let d := fdist g.base q
  if d < g.count then
    ([{ g with count := d }, { g with base := (q + 1) % 2 ^ 24, count := g.count - d - 1 }]).filter fun x => decide (0 < x.count)
  else [g]

/-- A void FSEQ reached in order (R166): a packet whose head has passed already ends stomped, for the rest of it cannot follow. -/
def passVoid (s : State) (p q : Nat) : State :=
  let l := linkOf s p
  let s := match l.rxPkt with
    | some id => { s with sw := { s.sw with pkts := mmod s.sw.pkts id fun k => { k with inputLost := true } } }
    | none => s
  setLink s p { linkOf s p with rxPkt := none, voided := l.voided.erase q }

/-- Held flits that are now in order passed on (R151), each one that came in order counted (R150); an empty one stands for a void FSEQ
(R166). -/
def passHeld : Nat → State → Nat → State
  | 0, s, _ => s
  | n + 1, s, p =>
    let next := rd s F.llStatRxNext p
    match (linkOf s p).rxHeld.find? fun e => e.1 == next with
    | none => s
    | some e =>
      let l := linkOf s p
      let n' := if e.2.isEmpty then l.rxSince else l.rxSince + 1
      let s := wr (setLink s p { l with rxHeld := l.rxHeld.erase e, rxSince := n' }) F.llStatRxNext ((next + 1) % 2 ^ 24) p
      let s := if e.2.isEmpty then passVoid s p next else passFlit s p e.2
      if linkState s p = lsDown then s else passHeld n s p

/-- RECOVER entered (R155): held flits go, and the receiver asks for everything from its in-order point. -/
def enterRecover (s : State) (p : Nat) : State :=
  let st := linkState s p
  if st = lsUp ∨ st = lsDrain ∨ st = lsTest then
    let l := linkOf s p
    let s := setState (inc s F.llCnt2Recovers 1 p) p lsRecover
    refreshLink (setLink s p { l with rxHeld := [], gaps := [], rxHigh := rd s F.llStatRxNext p, recoverAt := s.timeNs }) p
  else s

/-- One numbered flit received (R151, R154); an empty one is a void FSEQ.  In RECOVER nothing is held, and a flit below RX_NEXT is still
a duplicate; a ninth gap that a split opens takes the link there (R155). -/
def takeFlit (s : State) (p q : Nat) (f : Flit) : State :=
  let l := linkOf s p
  let next := rd s F.llStatRxNext p
  let d := fdist next q
  if linkState s p = lsDown then s
  else if linkState s p = lsRecover then (if 2 ^ 23 ≤ d ∧ f.isEmpty = false then inc s F.llCnt1DupDiscard 1 p else s)
  else if 2 ^ 23 ≤ d ∨ l.rxHeld.any (fun e => e.1 == q) = true then
    if f.isEmpty then setLink s p { l with rxHeld := l.rxHeld.map fun e => if e.1 = q then (q, []) else e }
    else inc s F.llCnt1DupDiscard 1 p
  else
    let high := if fdist l.rxHigh q < 2 ^ 23 then (q + 1) % 2 ^ 24 else l.rxHigh
    let gaps := l.gaps.flatMap (fillGap q)
    if 8 < gaps.length then enterRecover s p
    else
      passHeld (l.rxHeld.length + 1) (setLink s p { l with rxHeld := (q, f) :: l.rxHeld, rxHigh := high, gaps := gaps, news := true }) p

/-- A gap noticed up to FSEQ q (R152); a ninth takes the link into RECOVER (R155). -/
def noteGap (s : State) (p q : Nat) : State :=
  let l := linkOf s p
  let n := fdist l.rxHigh q
  if n = 0 ∨ 2 ^ 23 ≤ n ∨ linkState s p = lsRecover then s
  else if 8 ≤ l.gaps.length then enterRecover s p
  else setLink s p { l with gaps := l.gaps ++ [⟨l.rxHigh, n, 0, 0, true⟩], rxHigh := q }

/-! ### Receiving control -/

/-- DRAIN entered (R159): the routing unit stops choosing the port.  A link in RECOVER keeps that state and goes on to DRAIN when it
returns from it. -/
def enterDrain (s : State) (p : Nat) (req : Bool) : State :=
  if linkState s p = lsUp ∨ (linkState s p = lsRecover ∧ (linkOf s p).draining = false) then
    let l := linkOf s p
    let s := setLink (if linkState s p = lsUp then setState s p lsDrain else s) p { l with draining := true, drainAt := s.timeNs, drainReqLeft := if req then 4 else 0 }
    refreshLink (rerouteOutput s p false) p
  else s

/-- Whether a draining side has nothing left to send: no packet begun, its window empty (R159). -/
def drainEmpty (s : State) (p : Nat) : Bool :=
  let l := linkOf s p
  l.replay.isEmpty && l.txq.isEmpty && !outBound s p

/-- The end of a drain once DRAIN_DONE has been sent and received (R159). -/
def drainCheck (s : State) (p : Nat) : State :=
  let l := linkOf s p
  if l.draining && l.drainDoneSent && l.drainDoneRcvd then linkDown s p 5 else s

/-- An ACK_NEXT taken in (R141, R165): entries below it retire, spilled or queued for retransmission or not. -/
def takeAckNext (s : State) (p a : Nat) : State :=
  let l := linkOf s p
  let acked := rd s F.llSeqTxAcked p
  let next := rd s F.llSeqTxNext p
  if fdist acked a ≤ fdist acked next then
    let rpl := l.rpl.filterMap fun r =>
      if fdist acked (r.1 + r.2) ≤ fdist acked a then none
      else if fdist acked r.1 < fdist acked a then some (a, fdist a ((r.1 + r.2) % 2 ^ 24)) else some r
    let resume := match l.resume with
      | some r => if fdist acked r < fdist acked a then none else some r
      | none => none
    let s := setLink s p { l with replay := l.replay.filter (fun e => decide (fdist acked a ≤ fdist acked e.fseq)),
                                  rpl := rpl, resume := resume }
    wr s F.llSeqTxAcked a p
  else s

/-- A RETURN body (R148, R153): ACK_NEXT, the credits, and the NACKed range. -/
def takeReturn (s : State) (p w2 w3 w4 : Nat) : State :=
  let s := takeAckNext s p (bits w2 0 24)
  let l := linkOf s p
  let creds := (List.range 8).map fun v => if v < 4 then bits w3 (16 * v) 16 else bits w4 (16 * (v - 4)) 16
  let base := bits w2 24 24
  let count := bits w2 48 16
  let acked := rd s F.llSeqTxAcked p
  let next := rd s F.llSeqTxNext p
  let lo := if fdist acked base < 2 ^ 23 then base else acked
  let len := if fdist acked base < 2 ^ 23 then count else count - fdist base acked
  let len := min len (fdist lo next)
  let want := decide (0 < len) && decide (fdist acked lo < fdist acked next) && !(l.rpl.contains (lo, len))
  setLink s p { l with credIn := creds, rpl := if want then l.rpl ++ [(lo, len)] else l.rpl }

/-- A RESYNC record (R150, R155): it acknowledges, and everything unacknowledged is sent again before any new flit. -/
def takeResync (s : State) (p a : Nat) : State :=
  let s := takeAckNext s p a
  let l := linkOf s p
  let acked := rd s F.llSeqTxAcked p
  let n := fdist acked (rd s F.llSeqTxNext p)
  if n = 0 then setLink s p { l with rpl := [(acked, 0)] }
  else if l.resume = some acked then s
  else setLink s p { l with rpl := [(acked, n)], resume := some acked }

/-- A MGMT record (Table 05-3) outside INIT. -/
def takeMgmt (s : State) (p w2 w3 : Nat) : State :=
  match bits w2 0 8 with
  | 1 =>
    if bits w3 0 32 = (linkOf s p).peerEpoch then s
    else if linkState s p = lsHeld then s
    else linkDown s p 3
  | 2 => if linkState s p = lsHeld then s else takeResync s p (bits w2 8 24)
  | 3 =>
    match bits w2 8 8 with
    | 1 => enterDrain s p false
    | 2 =>
      let s := setLink s p { linkOf s p with drainDoneRcvd := true }
      drainCheck s p
    | 3 => if linkState s p = lsHeld then s else refreshLink (setState s p lsHeld) p
    | 4 => if linkState s p = lsHeld then s else linkDown s p 4
    | _ => s
  | _ => s

/-- A frame's words of its control flit. -/
def fcfWord (f : Flit) (i : Nat) : Nat := ofBytes ((f.drop (8 * i)).take 8)

/-- FCRC of a frame: every byte in slot order, the field taken as zero (Table 05-1). -/
def frameCrc (slots : List Flit) : Nat :=
  match slots.getLast? with
  | some f => crc32c ((slots.dropLast).flatten ++ f.take 120 ++ List.replicate 4 0 ++ (f.drop 124).take 4)
  | none => 0

/-- A void range (R166): its FSEQs count as received, and those not passed or credited before add to CRED of its VC. -/
def takeVoid (s : State) (p base count vc : Nat) : State :=
  let l := linkOf s p
  let qs := (List.range count).map fun i => (base + i) % 2 ^ 24
  let fresh := qs.filter fun q => decide (fdist (rd s F.llStatRxNext p) q < 2 ^ 23) && !l.voided.contains q
  let s := setLink s p { l with freed := addAt l.freed vc fresh.length (2 ^ 16), news := l.news || !fresh.isEmpty,
                                voided := l.voided ++ fresh }
  qs.foldl (fun s q => takeFlit s p q []) s

/-- The data of a frame (R137, R152, R154, R166); in RECOVER only its duplicates are looked at (R155). -/
def takeData (s : State) (p : Nat) (slots : List Flit) (w0 w1 : Nat) : State :=
  let newBase := bits w0 0 24
  let newCount := bits w0 24 6
  let rplCount := bits w0 30 6
  let void := bitAt w0 36
  let rplBase := bits w1 0 24
  let s := if linkState s p = lsRecover ∧ rplBase = rd s F.llStatRxNext p ∧ (0 < rplCount ∨ newBase = rplBase) then
      setState s p (if baseOf s = 3 then lsTest else if (linkOf s p).draining then lsDrain else lsUp)
    else s
  if linkState s p = lsRecover then
    let qs := (if void then [] else (List.range rplCount).map (rplBase + ·)) ++ (List.range newCount).map (newBase + ·)
    qs.foldl (fun s q => takeFlit s p (q % 2 ^ 24) zeroFlit) s
  else
    let s := if !void && decide (0 < rplCount) then noteGap s p rplBase else s
    let s := if void then takeVoid s p rplBase rplCount (bits w0 37 3) else (List.range rplCount).foldl (fun s i => takeFlit s p ((rplBase + i) % 2 ^ 24) (slots.getD i [])) s
    let s := noteGap s p newBase
    let from' := if void then 0 else rplCount
    (List.range newCount).foldl (fun s i => takeFlit s p ((newBase + i) % 2 ^ 24) (slots.getD (from' + i) [])) s

/-- Lanes that the partner has withdrawn leave S until its LANE_MARK shows RX_READY again; PHASE of a lane on its own slice reads 4
(R161). -/
def followLanes (s : State) (p : Nat) : State :=
  ((unitLanes s p).zipIdx).foldl (fun (s : State) (e : Nat × Nat) =>
    if laneReady s e.1 = true ∧ bitAt (linkOf s p).peerLanes e.2 = false then
      setLane (if rdb s F.lnStatOnSpare e.1 then s else wr s F.lnStatPhase 4 e.1) e.1
        { laneSt s e.1 with outside := true, partnerReady := false }
    else s) s

/-- The pairs that make a unit's frame, in the lanes' logical order (R111, R120): of the lanes that delivered one in its period, those
that carried data in it, or in the pair before it. -/
def frameLanes (s : State) (p : Nat) (lanes : List Nat) : List RxPair :=
  (List.range 4).filterMap fun i =>
    ((unitLanes s p).find? fun n => lanes.contains n && rd s F.lnStatLlane n == i && (match (laneSt s n).pair with
      | some x => x.wasData || (!x.bad && !x.ctrl)
      | none => false)).bind fun n => (laneSt s n).pair

/-- The pairs that a frame has used. -/
def clearPairs (s : State) (p : Nat) : State :=
  (unitLanes s p).foldl (fun (s : State) n => setLane s n { laneSt s n with pair := none }) s

/-- A frame received (R139, R156 to R159): lost when a block of it is bad (R112), when a lane of it delivered lane-control groups, or
when its FCRC fails. -/
def takeFrame (s : State) (p : Nat) (on : List Nat) : State :=
  let st := linkState s p
  let lanes := frameLanes s p on
  let slots := gatherSlots (lanes.map (·.blocks))
  let s := clearPairs s p
  match slots.getLast? with
  | none => s
  | some c =>
    let w0 := fcfWord c 0
    let w2 := fcfWord c 2
    let w3 := fcfWord c 3
    let body := bits w0 40 2
    if st = lsDown then s
    else if lanes.any (fun x => x.bad || x.ctrl) || frameCrc slots != fcfWord c 15 % 2 ^ 32 || decide (2 ≤ body) then
      inc s F.llCnt0LostFrames 1 p
    else
      let s := setLink s p { linkOf s p with lastGood := s.timeNs, peerLanes := bits w0 42 4 }
      let s := followLanes s p
      let isInit := body == 1 && bits w2 0 8 == 1
      if st = lsInit then
        if isInit then takeInit s p w2 w3 (fcfWord c 4) (fcfWord c 5)
        else if body = 1 ∧ bits w2 0 8 = 3 ∧ 3 ≤ bits w2 8 8 then takeMgmt s p w2 w3
        else
          let s := initCheck s p true
          if linkState s p = lsInit then s
          else
            let s := if body = 1 then takeMgmt s p w2 w3 else takeReturn s p w2 w3 (fcfWord c 4)
            if linkState s p = lsDown then s else refreshLink (takeData s p slots w0 (fcfWord c 1)) p
      else
        let s := if body = 1 then takeMgmt s p w2 w3 else if st = lsHeld then s else takeReturn s p w2 w3 (fcfWord c 4)
        let now' := linkState s p
        if now' = lsDown ∨ now' = lsHeld ∨ isInit = true then s
        else refreshLink (drainCheck (takeData s p slots w0 (fcfWord c 1)) p) p

/-! ### Sending -/

/-- A control flit with its FCRC for the given data slots. -/
def sealFrame (data : List Flit) (ws : List Nat) : List Flit :=
  let body := (List.range 15).flatMap fun i => toBytes 8 (nth ws i)
  let c := body ++ List.replicate 8 0
  let slots := data ++ [c]
  data ++ [body ++ toBytes 4 (frameCrc slots) ++ List.replicate 4 0]

/-- Word 2 of an INIT record of this side. -/
def initWord (s : State) (p : Nat) : Nat :=
  let l := linkOf s p
  1 + bit l.peerSeen * 2 ^ 8 + roleOf s p * 2 ^ 9 + bit s.txn.arm.trunked * 2 ^ 11 + p % 128 * 2 ^ 12 + members s % 128 * 2 ^ 19
    + selfId s * 2 ^ 26 + l.probe * 2 ^ 44 + l.peerProbe * 2 ^ 52

/-- RETURN words 2 to 4 of this side, with the first gap whose NACK is due (R152). -/
def returnWords (s : State) (p : Nat) : State × List Nat :=
  let l := linkOf s p
  let g := l.gaps.find? (·.due)
  let nack := match g with
    | some g => g.base * 2 ^ 24 + g.count % 2 ^ 16 * 2 ^ 48
    | none => 0
  let gaps := match g with
    | some g => l.gaps.map fun x => if x = g then { x with due := false, nacks := x.nacks + 1, lastAt := s.timeNs } else x
    | none => l.gaps
  let s := if g.isSome then inc s F.llCnt1Nacks 1 p else s
  let cred := fun k => (List.range 4).foldl (fun n i => n + nth l.freed (4 * k + i) % 2 ^ 16 * 2 ^ (16 * i)) 0
  (setLink s p { l with gaps := gaps, news := false, rxSince := 0, lastReturn := s.timeNs, retDue := false },
    [rd s F.llStatRxNext p + nack, cred 0, cred 1])

/-- The AGE that a head flit carries when it is transmitted now, and the flit with it (R87): the arrival AGE, the residence, and 1. -/
def reAge (s : State) (f : Flit) (age builtAt : Nat) : Nat × Flit :=
  let a := age + ceilDiv (s.timeNs - builtAt) 1000 + 1
  let h := { hdrOf f with age := min a 1023 }
  (a, patchHead { h with hcrc := hcrcOf h } f)

/-- The AGE and the flit of a retransmitted head (R97, R166). -/
def reageHead (s : State) (e : RplEnt) : Nat × Flit := reAge s e.flit e.age e.builtAt

/-- The entry of the replay buffer that a flit becomes with its FSEQ (R141). -/
def rplEntry (t : TxFlit) (fseq : Nat) (f : Flit) : RplEnt :=
  ⟨fseq, f, t.vc, t.pkt, t.head, t.flits, t.injected, t.req, t.ec, t.msgid, t.psn, t.builtAt, t.age, false, false⟩

/-- A packet whose head may not be sent again is given up (R166): all its FSEQs are void, those of flits that have none yet too, and what
of it still crosses the switch is discarded. -/
def voidPacket (s : State) (p : Nat) (e : RplEnt) : State :=
  let l := linkOf s p
  let next := rd s F.llSeqTxNext p
  let sent := (l.replay.filter fun x => x.pkt == e.pkt).length
  let queued := (l.txq.filter fun t => t.pkt == e.pkt).length
  let more := (List.range (e.flits - sent)).map fun i => { e with fseq := (next + i) % 2 ^ 24, flit := [], head := false, spilled := false }
  let s := setLink (inc s F.rtPktDrop0Age) p
    { l with replay := (l.replay.map fun x => if x.pkt = e.pkt then { x with flit := [] } else x) ++ more,
             txq := l.txq.filter fun t => t.pkt != e.pkt,
             gone := if sent + queued < e.flits then e.pkt :: l.gone else l.gone }
  wr s F.llSeqTxNext ((next + more.length) % 2 ^ 24) p

/-- The replay slots of the next frame (R153, R166): the first queued range, cut to the room; words 0 and 1 of the FCF, the
slots, and the new state.  A head that would be too old is never sent (R97): its packet goes as a void range. -/
def replaySlots (s : State) (p room : Nat) : State × Nat × Nat × List Flit :=
  let l := linkOf s p
  match l.rpl with
  | [] => (s, 0, 0, [])
  | (base, 0) :: rest => (setLink s p { l with rpl := rest }, 0, base, [])
  | (base, count) :: rest =>
    let n := min count (min room 39)
    let ents := (List.range n).filterMap fun i => l.replay.find? fun e => e.fseq == (base + i) % 2 ^ 24
    let cut := fun (k : Nat) => if k < count then ((base + k) % 2 ^ 24, count - k) :: rest else rest
    let old := fun (e : RplEnt) => e.head && !e.flit.isEmpty && decide (1000 < (reageHead s e).1)
    match ents with
    | [] => (setLink s p { l with rpl := rest }, 0, 0, [])
    | e :: _ =>
      if e.flit.isEmpty || old e then
        let s := if e.flit.isEmpty then s else voidPacket s p e
        let l := linkOf s p
        let m := max 1 (min 39 ((l.replay.filter fun x => x.pkt == e.pkt && decide (fdist base x.fseq < 2 ^ 23)).length))
        (setLink s p { l with rpl := cut m }, m * 2 ^ 30 + 2 ^ 36 + e.vc * 2 ^ 37, base, [])
      else
        let run := ents.takeWhile fun x => !x.flit.isEmpty && !old x
        if run.any (·.spillLost) then (linkDown s p 6, 0, 0, [])
        else
          let s := inc (inc (pmCount s 0x20 p 2 run.length) F.llCnt0RetxFlits run.length p) F.llCnt2SpillFetch ((run.filter (·.spilled)).length) p
          (setLink s p { linkOf s p with rpl := cut run.length }, run.length * 2 ^ 30, base,
            run.map fun x => if x.head then (reageHead s x).2 else x.flit)

/-- Packets whose head waits to be sent and would be too old are dropped and counted (R88); their credit was debited and no flit of
them is sent, so it is not used. -/
def dropAged (s : State) (p n : Nat) : State :=
  ((linkOf s p).txq.take n).foldl (fun (s : State) (t : TxFlit) =>
    if t.head && decide (1000 < (reAge s t.flit t.age t.builtAt).1) then
      let l := linkOf s p
      let here := (l.txq.filter fun x => x.pkt == t.pkt).length
      setLink (inc s F.rtPktDrop0Age) p
        { l with txq := l.txq.filter fun x => x.pkt != t.pkt,
                 used := addAt l.used t.vc (2 ^ 16 - t.flits % 2 ^ 16) (2 ^ 16),
                 gone := if here < t.flits then t.pkt :: l.gone else l.gone }
    else s) s

/-- The slots of a port unit's spill ring (R142). -/
def ringSize (s : State) : Nat := if s.txn.arm.trunked then 32768 else 16384

/-- The oldest entries beyond those that fit on die copied to their spill slots (R142): a slot is never cleared, a later flit overwrites
it. -/
def spillOut (s : State) (p : Nat) (all : List RplEnt) : List RplEnt × Map (Nat × Flit) :=
  let out := all.length - onDieMax s
  ((all.zipIdx).map fun (e : RplEnt × Nat) => if e.2 < out then { e.1 with spilled := true } else e.1,
    ((all.take out).filter (!·.spilled)).foldl (fun m e => mset m (e.fseq % ringSize s) (e.fseq, e.flit)) (linkOf s p).ring)

/-- New flits of the next frame (R137, R140 to R143), the AGE of each head as it is sent (R87). -/
def newSlots (s : State) (p room : Nat) : State × List Flit :=
  if (linkOf s p).resume.isSome || linkState s p == lsRecover then (s, [])
  else
    let s := dropAged s p (min room 39)
    let l := linkOf s p
    let n := min (min room 39) (min l.txq.length (windowMax s - l.replay.length))
    let next := rd s F.llSeqTxNext p
    let out := (l.txq.take n).map fun t => (t, if t.head then (reAge s t.flit t.age t.builtAt).2 else t.flit)
    let ents := (out.zipIdx).map fun (e : (TxFlit × Flit) × Nat) => rplEntry e.1.1 ((next + e.2) % 2 ^ 24) e.1.2
    let (all, ring) := spillOut s p (l.replay ++ ents)
    (wr (setLink s p { l with replay := all, ring := ring, txq := l.txq.drop n }) F.llSeqTxNext ((next + n) % 2 ^ 24) p, out.map (·.2))

/-- A test packet of the generator (R164): 33 flits, OP 0xFF, DST and SRC this device, PRBS31 as payload, which runs on from packet to
packet; where it starts is open. -/
def testPacket (s : State) (p : Nat) : State × List Flit :=
  let l := linkOf s p
  let start := l.testGen.getD (patternStart 4 (freeNat s))
  let (x, st) := patternBits 4 32768 start
  (drawn (setLink s p { l with testGen := some st }), pktFlits (mkPkt s (selfId s) 0 0xFF 0 flLast 0 0 0 0 (toBytes 4096 x)))

/-- One packet of the generator put before the sender in TEST_LINK while TGEN is set (R164). -/
def addTest (s : State) (p : Nat) : State :=
  let l := linkOf s p
  if linkState s p = lsTest ∧ rdb s F.llCtlTgen p = true ∧ l.txq.length < 40 ∧ 33 ≤ availOf l 0 then
    let (s, fs) := testPacket s p
    let l := linkOf s p
    let txs := (fs.zipIdx).map fun (e : Flit × Nat) =>
      (⟨e.1, 0, 2 ^ 32 + s.free, e.2 == 0, fs.length, false, false, 0, 0, 0, s.timeNs, 0⟩ : TxFlit)
    setLink s p { l with txq := l.txq ++ txs, used := addAt l.used 0 fs.length (2 ^ 16) }
  else s

/-- The generator fills every free data slot of the next frame, at most 39. -/
def fillTest (s : State) (p : Nat) : State := addTest (addTest s p) p

/-- What the control flit of the next frame carries outside INIT, HELD and DOWN (R149, R150, R155, R159): none for a RETURN body, else
word 2 of a MGMT record, 0 for none.  DRAIN_REQ goes in 4 frames; DRAIN_DONE once the window is empty and there is nothing to return. -/
def mgmtRecord (s : State) (p : Nat) : Option Nat :=
  let l := linkOf s p
  let st := linkState s p
  let due := decide (rd s F.llCtlCount p ≤ l.rxSince) || l.gaps.any (·.due) || l.retDue
  if st = lsRecover then (if due then none else some (2 + rd s F.llStatRxNext p * 2 ^ 8))
  else if 0 < l.drainReqLeft then some (3 + 2 ^ 8)
  else if l.draining && drainEmpty s p && !l.news && !due then some (3 + 2 * 2 ^ 8)
  else if st = lsTest ∧ due = false then some 0
  else none

/-- A gap that has been NACKed 8 times takes the link into RECOVER (R155). -/
def nackedOut (s : State) (p : Nat) : State := if (linkOf s p).gaps.any fun g => decide (8 ≤ g.nacks) then enterRecover s p else s

/-- The frame of a link that passes data: replays, new flits, idle flits, and its control flit (R136, R137). -/
def dataFrame (s : State) (p slots : Nat) : State × List Flit :=
  let (s, r0, r1, rs) := replaySlots (fillTest s p) p (slots - 1)
  if linkState s p = lsDown then (s, [])
  else
    let (s, ns) := newSlots s p (slots - 1 - rs.length)
    let base := (rd s F.llSeqTxNext p + 2 ^ 24 - ns.length) % 2 ^ 24
    let (s, body, ws) := match mgmtRecord s p with
      | none =>
        let (s, ws) := returnWords s p
        (nackedOut s p, 0, ws)
      | some r =>
        let l := linkOf s p
        let req := r == 3 + 2 ^ 8
        (setLink s p { l with drainReqLeft := if req then l.drainReqLeft - 1 else l.drainReqLeft,
                              drainDoneSent := l.drainDoneSent || r == 3 + 2 * 2 ^ 8 }, 1, [r, 0, 0])
    let w0 := base + ns.length * 2 ^ 24 + r0 + body * 2 ^ 40 + rxLanes s p * 2 ^ 42
    let s := pmCount s 0x20 p 1 (rs.length + ns.length)
    (refreshLink (drainCheck s p) p,
      sealFrame (rs ++ ns ++ List.replicate (slots - 1 - rs.length - ns.length) zeroFlit) ([w0, r1] ++ ws))

/-- A link in DOWN one of whose lanes is in READY enters INIT (R156, R158; DEDUCED, log entry 103). -/
def wakeLink (s : State) (p : Nat) : State :=
  if linkState s p = lsDown ∧ (unitLanes s p).any (laneReady s) = true ∧ s.pw.tripped = false then enterInit s p else s

/-- A frame that carries nothing but a MGMT record (R149): word 2 of the record and the words after it. -/
def mgmtFrame (s : State) (p w2 : Nat) (rest : List Nat) : List Flit :=
  sealFrame (List.replicate (10 * txCount s p - 1) zeroFlit) ([rd s F.llSeqTxNext p + 2 ^ 40 + rxLanes s p * 2 ^ 42, 0, w2] ++ rest)

/-- The INIT frame of a side (R156): its record, the two LINK_EPOCHs, and RES of each VC. -/
def initFrame (s : State) (p : Nat) : List Flit :=
  let l := linkOf s p
  mgmtFrame s p (initWord s p) ([l.epoch + l.peerEpoch * 2 ^ 32] ++ [0, 1].map fun k =>
    (List.range 4).foldl (fun n i => n + nth l.resNow (4 * k + i) % 2 ^ 16 * 2 ^ (16 * i)) 0)

/-- The next frame of a port unit (R136, R137, R149, R156 to R158): none in DOWN or without a lane in S.  After THERMTRIP every lane
transmitter stands at electrical idle, so no frame goes out (R585). -/
def nextFrame (s : State) (p : Nat) : State × List Flit :=
  let st := linkState s p
  let l := linkOf s p
  let slots := 10 * txCount s p
  if slots = 0 ∨ s.pw.tripped = true ∨ st = lsDown then (s, [])
  else if 0 < l.abruptLeft then
    let s' := setLink s p { l with abruptLeft := l.abruptLeft - 1 }
    (if l.abruptLeft = 1 then linkDown s' p 7 else s', mgmtFrame s p (3 + 4 * 2 ^ 8) [])
  else if st = lsHeld then (s, mgmtFrame s p (3 + 3 * 2 ^ 8) [])
  else if st = lsInit then
    (initCheck (setLink s p { l with sentSeen := l.sentSeen || l.peerSeen, probeSent := l.probeSent.or (some s.timeNs) }) p false, initFrame s p)
  else dataFrame s p slots

end Sys2Proof.Machine
end

