-- ==== Sys2Proof/Machine/Lanes.lean ====
section
/-!
DEFINITION. Machine/Lanes.lean: lanes (04): training (Table 04-3, R115 to R121), equalisation (R122), block and FEC lock
(R113, R114), records and rolling recalibration (R124 to R127), failures and spare swaps (R128 to R133), loopbacks and test
patterns (R134, R135).
-/

namespace Sys2Proof.Machine

/-- The spare slice of a lane's tile (R102): its number s, lane L(256+s). -/
def spareOf (n : Nat) : Nat := n / 16
def spareLane (t : Nat) : Nat := 256 + t
def spareSt (s : State) (t : Nat) : SpareSt := mgetD s.spares t {}
def setSpare (s : State) (t : Nat) (x : SpareSt) : State := { s with spares := mset s.spares t x }

/-- The lane that a spare serves, when it serves one (LN_STAT.SPARE_BUSY, SERVING). -/
def servedBy (s : State) (t : Nat) : Option Nat :=
  if rdb s F.lnStatSpareBusy (spareLane t) then some (rd s F.lnStatServing (spareLane t)) else none

/-- Whether a spare is enabled (R103) and not failed itself. -/
def spareEnabled (s : State) (t : Nat) : Bool := bitAt s.txn.arm.spares t && (spareSt s t).enabled

/-- FC_SPARES.LANES_FREE brought into step. -/
def refreshSpares (s : State) : State :=
  wr s F.fcSparesLanesFree ((List.range 16).filter fun t => spareEnabled s t && (servedBy s t).isNone).length

/-- A spare put to serve a lane; but for a training attempt it loads the lane's TX taps (R126 step 1, Table 04-6 step 2). -/
def useSpare (s : State) (t lane : Nat) (failure : Bool) (stage : SpareStage) : State :=
  let s := wr (wrb (wrb s F.lnStatSpareBusy true (spareLane t)) F.lnStatSpareMode failure (spareLane t)) F.lnStatServing lane (spareLane t)
  let s := if stage = .attempt then s else csrPut s (F.lnTxeqC0.key (spareLane t)) (csrRaw s (F.lnTxeqC0.key lane))
  refreshSpares (setSpare s t { spareSt s t with stage := stage })

/-- The next waiting recalibration of a tile started, when its spare is free and HOLD is not active (R126, R127). -/
def nextRecal (s : State) (t : Nat) : State :=
  let x := spareSt s t
  match x.queue with
  | [] => s
  | (n, reason) :: rest =>
    if holdOn s || !spareEnabled s t then s
    else if x.stage = .idle ∧ servedBy s t = none then
      let s := setSpare s t { x with queue := rest }
      let s := wrb (wrb s F.lnCtlRecal false n) F.lnStatRecalDeferred false n
      if rd s F.lnStatPhase n = 6 then useSpare (setLane s n { laneSt s n with reason := reason }) t n false .recalLock else s
    else s

/-- A spare freed; the recalibration that waits for it starts (R127). -/
def releaseSpare (s : State) (t : Nat) : State :=
  let s := wr (wrb (wrb s F.lnStatSpareBusy false (spareLane t)) F.lnStatSpareMode false (spareLane t)) F.lnStatServing 0 (spareLane t)
  nextRecal (refreshSpares (setSpare s t { spareSt s t with stage := .idle })) t

/-- Whether the spare makes the training attempt on a lane's pads (R117). -/
def onAttempt (s : State) (n : Nat) : Bool := decide (n < 256) && (spareSt s (spareOf n)).stage == .attempt && servedBy s (spareOf n) == some n

/-- The slice that trains on a lane's pads: its own, or the spare that makes an attempt there. -/
def trainSlice (s : State) (n : Nat) : Nat := if onAttempt s n then spareLane (spareOf n) else n

/-- A lane in TEST with a near-end loop set: what it sends is what it receives (Table 04-7). -/
def nearLoop (s : State) (n : Nat) : Bool := baseOf s == 3 && (rd s F.lnCtlLoop n == 1 || rd s F.lnCtlLoop n == 2)

/-- The symbols that a lane's receiver sees: those on its pads, or its own in a near-end loop (R134). -/
def lineIn (s : State) (n levels : Nat) : Nat := if nearLoop s n then (laneSt s n).txLast else levels

/-- A link told that its lanes changed: NO_LANE starts to run when no lane of the unit has block lock, and stops when one has
(R158); a link in HELD leaves it once every lane has left READY (R157), which is no cause of Table 05-5; its lane masks follow. -/
def lanesChanged (s : State) (n : Nat) : State :=
  if 256 ≤ n then s
  else
    let p := laneUnit s n
    let l := linkOf s p
    let lock := (unitLanes s p).any fun k => rdb s F.lnStatBlkLock k
    let s := setLink s p { l with noLaneAt := if lock then none else l.noLaneAt.or (some s.timeNs) }
    let dead := (unitLanes s p).all fun k => rd s F.lnStatPhase k == 8
    if dead && linkState s p != lsDown then linkDown s p 1
    else if linkState s p = lsHeld ∧ (unitLanes s p).all (fun k => !laneReady s k) = true then refreshLink (setState s p lsDown) p
    else refreshLink s p

/-! ### Training -/

/-- DETECT entered (R115). -/
def startDetect (s : State) (n : Nat) : State :=
  let l := laneSt s n
  let s := setLane s n { l with phaseSince := s.timeNs, signal := false, markerRun := 0, readyRun := 0, settled := false,
                                partnerLane := none, partnerPort := none, hdrRun := 0, hdrWin := [], deskew := false,
                                partnerReady := false, lockLostAt := none, qualBad := false, outside := false,
                                pair := none, data := false, tapStat := 0 }
  let s := wr (wrb (wrb (wr s F.lnStatPhase 0 n) F.lnStatBlkLock false n) F.lnStatFecLock false n) F.lnStatOrderCheck 0 n
  lanesChanged (wrb s F.lnCtlRetrain false n) n

/-- Training restarted from the beginning with a reason for the record (R117, R124).  A lane that a spare carries after a failure
trains again on the spare; one in a recalibration trains on its own slice, and the spare is freed (DESIGN CHOICE, log entry 102). -/
def retrainLane (s : State) (n reason : Nat) : State :=
  let t := spareOf n
  let s := if n < 256 ∧ servedBy s t = some n then
      let s' := wrb s F.lnStatOnSpare false n
      match (spareSt s t).stage with
      | .idle => s
      | .recalLock => releaseSpare s' t
      | .recalCarry => releaseSpare s' t
      | .swapLock => setSpare s' t { spareSt s t with stage := .attempt }
      | .swapped => setSpare s' t { spareSt s t with stage := .attempt }
      | .retrain => setSpare s' t { spareSt s t with stage := .attempt }
      | .attempt => s
    else s
  let l := laneSt s n
  startDetect (wr (setLane s n { l with reason := reason, wireFaults := 0 }) F.lnStatAttempts 0 n) n

/-- A lane put into FAILED with a cause (R117, R131). -/
def lanePhaseFailed (s : State) (n cause : Nat) : State :=
  let s := wr (wr s F.lnStatPhase 8 n) F.lnStatFailCause cause n
  let s := wrb (wrb s F.lnStatBlkLock false n) F.lnStatFecLock false n
  lanesChanged (setLane s n { laneSt s n with phaseSince := s.timeNs, deskew := false, pair := none, data := false }) n

/-- A failed attempt (R115, R117).  A retired lane, which its spare serves for good, has three attempts too (R130). -/
def failAttempt (s : State) (n : Nat) : State :=
  let t := spareOf n
  let l := laneSt s n
  let tries := min 15 (rd s F.lnStatAttempts n + 1)
  let s := wr s F.lnStatAttempts tries n
  if onAttempt s n then
    if rd s F.lnStatFailCause n = 6 then (if tries < 3 then startDetect s n else lanePhaseFailed s n 6)
    else lanePhaseFailed (wrb (releaseSpare s t) F.lnStatOnSpare false n) n 5
  else if tries < 3 then startDetect s n
  else if 3 ≤ l.wireFaults then lanePhaseFailed s n 5
  else if n < 256 ∧ spareEnabled s t = true ∧ servedBy s t = none then
    startDetect (useSpare s t n true .attempt) n
  else lanePhaseFailed s n 4

/-- A record stamped (R124). -/
def stampLane (s : State) (n reason tj mv : Nat) : State :=
  let s := wr (wr (wr (wr s F.lnRecAgeMs 0 n) F.lnRecTj tj n) F.lnRecVserdesMv mv n) F.lnRecReason reason n
  setLane s n { laneSt s n with stampAt := some s.timeNs }

/-- READY reached (R115): the link of a unit in DOWN enters INIT (R156).  A spare that made the attempt keeps serving the lane, which
records TRAIN_LIMIT (R117), or stays RETIRED (R130).  FAIL_CAUSE returns to 0 when a lane's own slice reaches READY, here and where it
takes back its pads (DESIGN CHOICE, log entry 102: the spec does not say when the field clears). -/
def laneReadyNow (s : State) (n tj mv : Nat) : State :=
  let t := spareOf n
  let l := laneSt s n
  let attempt := onAttempt s n
  let s := wr (stampLane s (trainSlice s n) l.reason tj mv) F.lnStatAttempts 0 n
  let s := setLane s n { laneSt s n with wireFaults := 0, outside := false }
  let s := if attempt then
      let s := setSpare s t { spareSt s t with stage := .swapped }
      wr (wrb (wr s F.lnStatPhase 7 n) F.lnStatOnSpare true n) F.lnStatFailCause (if rd s F.lnStatFailCause n = 6 then 6 else 4) n
    else wr (wr s F.lnStatPhase 6 n) F.lnStatFailCause 0 n
  if 256 ≤ n then s else lanesChanged (enterInit s (laneUnit s n)) n

/-- One transmit tap after a request, and its limits (R122, Table 04-5): −16 + index into the ranges. -/
def tapStep (req preset cur lo hi : Int) : Int :=
  if req = 1 then min hi (cur + 1) else if req = 2 then max lo (cur - 1) else if req = 3 then preset else cur

/-- The presets of Table 04-5: c(−2), c(−1), c(1), c(2). -/
def presetTaps (k : Nat) : Int × Int × Int × Int :=
  match k with
  | 0 => (0, 0, 0, 0)
  | 1 => (0, -6, -8, 0)
  | 2 => (0, -10, -12, 2)
  | _ => (-2, -14, -16, 4)

/-- How a tap stands after a request (Table 04-4 TAPSTAT): 0 not updated, 1 updated, 2 at its minimum, 3 at its maximum (DEDUCED, log
entry 109). -/
def tapStatus (req : Nat) (v lo hi : Int) : Nat := if req = 0 then 0 else if v = lo then 2 else if v = hi then 3 else 1

/-- The taps of the slice on a lane's pads moved as the partner asks (Table 04-4 REQ and PRESET); c(0) is what the others leave
(R122).  TAPSTAT says how they stand. -/
def moveTaps (s : State) (lane w : Nat) : State :=
  let n := trainSlice s lane
  let tap := fun (f : Fld) => toSigned 8 (rd s f n)
  let (a, b, c, d) := presetTaps (bits w 20 2)
  let m2 := tapStep (bits w 10 2) a (tap F.lnTxeqCm2) (-8) 0
  let m1 := tapStep (bits w 12 2) b (tap F.lnTxeqCm1) (-24) 0
  let p1 := tapStep (bits w 16 2) c (tap F.lnTxeqC1) (-24) 0
  let p2 := tapStep (bits w 18 2) d (tap F.lnTxeqC2) 0 8
  let c0 := 64 - (m2.natAbs + m1.natAbs + p1.natAbs + p2.natAbs : Nat)
  let stat := tapStatus (bits w 10 2) m2 (-8) 0 + tapStatus (bits w 12 2) m1 (-24) 0 * 2 ^ 2
    + bit (decide (tap F.lnTxeqC0 ≠ c0)) * 2 ^ 4 + tapStatus (bits w 16 2) p1 (-24) 0 * 2 ^ 6 + tapStatus (bits w 18 2) p2 0 8 * 2 ^ 8
  let s := setLane s lane { laneSt s lane with tapStat := stat }
  let s := wr (wr s F.lnTxeqCm2 (ofSigned 8 m2) n) F.lnTxeqCm1 (ofSigned 8 m1) n
  wr (wr (wr s F.lnTxeqC1 (ofSigned 8 p1) n) F.lnTxeqC2 (ofSigned 8 p2) n) F.lnTxeqC0 (ofSigned 8 c0) n

/-- The lane-order check (R120): 4 TRUNK, 2 CROSSED, 3 LLANE_DUP, 1 OK.  When several conditions hold at once, the first in this order is
recorded (DESIGN CHOICE, log entry 102: the spec gives none). -/
def orderCheck (s : State) (n w : Nat) : Nat :=
  let others := (unitLanes s (laneUnit s n)).filter (· != n)
  if bitAt w 9 != s.txn.arm.trunked || decide ((if s.txn.arm.trunked then 4 else 2) ≤ bits w 0 2) then 4
  else if others.any fun k => match (laneSt s k).partnerPort with
      | some q => q != bits w 2 7
      | none => false then 2
  else if others.any fun k => (laneSt s k).partnerLane == some (bits w 0 2) then 3
  else 1

/-- The 4,096 symbols of a training frame taken (R115, R116, R119, R120, R122): in CDR, 8 consecutive frames that show the marker, and
its polarity; in COEFF the control word acts, unless its CCRC fails. `settled` says that this side's receiver has settled, `ask` what it
asks of the partner's taps. -/
def trainFrame (s : State) (n levels : Nat) (settled : Bool) (ask : Nat) : State :=
  let ph := rd s F.lnStatPhase n
  let l : LaneSt := { laneSt s n with ask := ask % 2 ^ 12 }
  let lv := lineIn s n levels
  let w := controlIn (if rdb s F.lnStatRxInv n then invLevels 4096 lv else lv)
  if ph = 2 then
    match markerIn lv with
    | none => setLane s n { l with markerRun := 0 }
    | some inverted =>
      let s := wrb s F.lnStatRxInv inverted n
      let k := l.markerRun + 1
      if 8 ≤ k then setLane (wr s F.lnStatPhase 3 n) n { l with markerRun := 0, phaseSince := s.timeNs }
      else setLane s n { l with markerRun := k }
  else if ph = 3 ∧ ccrcOk w = true then
    let c := if n < 256 then orderCheck s n w else 1
    let s := wr (wr s F.lnStatOrderCheck c n) F.lnStatLlane (bits w 0 2) n
    let l := { l with partnerLane := some (bits w 0 2), partnerPort := some (bits w 2 7), settled := settled,
                      readyRun := if bitAt w 32 then l.readyRun + 1 else 0 }
    if c ≠ 1 then
      let s := failAttempt (setLane s n l) n
      wr s F.lnStatOrderCheck c n
    else
      let s := moveTaps (setLane s n l) n w
      let l := laneSt s n
      if l.settled && decide (16 ≤ l.readyRun) then
        setLane (wr s F.lnStatPhase 4 n) n { l with phaseSince := s.timeNs, hdrRun := 0, hdrWin := [], deskew := false, partnerReady := false }
      else s
  else s

/-! ### Codeword pairs -/

/-- Header validity folded into the lock (R113): 128 consecutive valid headers lock, 16 invalid of 64 unlock. -/
def takeHeader (s : State) (n : Nat) (ok : Bool) : State :=
  let l := laneSt s n
  if rdb s F.lnStatBlkLock n then
    let win := (ok :: l.hdrWin).take 64
    let s := if ok then s else inc s F.lnBlkBadHdr 1 n
    if 16 ≤ (win.filter (!·)).length then
      let s := setLane s n { l with hdrWin := [], hdrRun := 0, lockLostAt := some s.timeNs, deskew := false }
      lanesChanged (inc (wrb (wrb s F.lnStatBlkLock false n) F.lnStatFecLock false n) F.lnBlkLockLoss 1 n) n
    else setLane s n { l with hdrWin := win }
  else
    let run := if ok then l.hdrRun + 1 else 0
    if 128 ≤ run then
      lanesChanged (wrb (setLane s n { l with hdrRun := 0, hdrWin := [], lockLostAt := none }) F.lnStatBlkLock true n) n
    else setLane s n { l with hdrRun := run }

/-- A failure swap begun (R129, R132): the spare serves the lane, which loses its lock; the link keeps NO_LANE stopped for 20 µs
(Table 05-5).  Recalibrations that wait are deferred (R127).  The tile's last spare is now used (SPARE_OUT, Table 17-1; log 41). -/
def startSwap (s : State) (n t : Nat) : State :=
  let s := (spareSt s t).queue.foldl (fun (s : State) (e : Nat × Nat) => wrb s F.lnStatRecalDeferred true e.1) s
  let s := inc (useSpare s t n true .swapLock) F.lnEventsSwaps 1 n
  let s := tell (tell s (.patina 1 n)) (.fault 2 t)
  let s := wrb (wrb (wr s F.lnStatPhase 7 n) F.lnStatBlkLock false n) F.lnStatFecLock false n
  let s := setLane s n { laneSt s n with deskew := false, partnerReady := false, outside := false, hdrRun := 0, hdrWin := [],
                                         lockLostAt := none, pair := none, data := false }
  let p := laneUnit s n
  let s := setLink s p { linkOf s p with swapUntil := some (s.timeNs + 20000) }
  lanesChanged s n

/-- A recalibration given up because its spare is needed (R132): the lane takes its traffic back, and its request waits again, behind
those that wait already (DESIGN CHOICE, log entry 102). -/
def abandonRecal (s : State) (t : Nat) : State :=
  match servedBy s t with
  | some k =>
    let x := spareSt s t
    let s := wr (wrb s F.lnStatOnSpare false k) F.lnStatPhase 6 k
    setSpare s t { x with queue := x.queue ++ [(k, (laneSt s k).reason)] }
  | none => s

/-- A spare slice fails: it serves no more, and a lane that it carried fails with it with the spare's cause, CHANNEL in an attempt, but
for one whose own slice still works (a recalibration, R126).  The spec does not speak of a spare that fails (DESIGN CHOICE, log entry
102). -/
def spareFails (s : State) (t cause : Nat) : State :=
  let x := spareSt s t
  let s' := releaseSpare (setSpare s t { x with enabled := false }) t
  let s' := refreshSpares (tell s' (.fault 2 t))
  match servedBy s t with
  | none => s'
  | some k =>
    match x.stage with
    | .idle => s'
    | .recalLock => s'
    | .recalCarry => lanesChanged (wr (wrb s' F.lnStatOnSpare false k) F.lnStatPhase 6 k) k
    | .swapLock => lanePhaseFailed s' k cause
    | .swapped => lanePhaseFailed (wrb s' F.lnStatOnSpare false k) k cause
    | .retrain => lanePhaseFailed (wrb s' F.lnStatOnSpare false k) k cause
    | .attempt => lanePhaseFailed s' k 5

/-- A lane's failure (R128 to R131, R133). -/
def failLane (s : State) (n cause : Nat) : State :=
  let t := spareOf n
  let l := laneSt s n
  let s := tell (setLane s n { l with failTimes := s.timeNs :: l.failTimes.filter fun x => decide (s.timeNs < x + 86400000000000),
                                      uncorrTimes := [], reason := 5 }) (.fault 1 n)
  let s := wr s F.lnStatFailCause cause n
  let x := spareSt s t
  if 256 ≤ n then spareFails s (n - 256) cause
  else if (x.stage = .recalCarry ∨ x.stage = .retrain) ∧ servedBy s t = some n ∧ cause = 1 then
    setSpare (wrb s F.lnStatSpareMode true (spareLane t)) t { x with stage := .swapped }
  else if servedBy s t = some n ∧ (x.stage = .swapLock ∨ x.stage = .swapped ∨ x.stage = .retrain) then
    tell (lanePhaseFailed (wrb (releaseSpare s t) F.lnStatOnSpare false n) n cause) (.fault 2 t)
  else if spareEnabled s t && (x.stage == .idle || x.stage == .recalLock || x.stage == .recalCarry) then
    startSwap (abandonRecal s t) n t
  else if spareEnabled s t then tell (lanePhaseFailed s n cause) (.fault 2 t)
  else lanePhaseFailed s n cause

/-- A READY lane's counters after a pair (R112, R128): corrected and uncorrectable codewords, and 16 of the latter within 1 ms
fail the lane. -/
def takeCodeword (s : State) (n : Nat) (corr : Option Nat) : State :=
  match corr with
  | none =>
    let s := inc s F.lnFecUncorr 1 n
    let l := laneSt s n
    let times := (s.timeNs :: l.uncorrTimes.filter fun x => decide (s.timeNs < x + 1000000)).take 16
    setLane s n { l with uncorrTimes := times, qualBad := true }
  | some k =>
    if 0 < k then
      let s := inc (inc s F.lnFecCorr 1 n) F.lnFecSymSym k n
      wr s F.lnFecSymMax (max k (rd s F.lnFecSymMax n)) n
    else s

/-- The bits of a codeword-pair period at the lane's offset: the last bits of the period before, then this period's (R113). -/
def pairWindow (s : State) (n raw : Nat) : Nat :=
  let l := laneSt s n
  (l.rxPrev / 2 ^ (10880 - l.rxOff) + raw * 2 ^ l.rxOff) % 2 ^ 10880

/-- The hunt of a lane without block lock goes on to the next offset when the one it tests shows an invalid header (R113); the offsets
come in rising order (DESIGN CHOICE, log entry 108). -/
def huntOn (s : State) (n : Nat) (ok : Bool) : State :=
  if rdb s F.lnStatBlkLock n || ok then s
  else
    let l := laneSt s n
    setLane s n { l with rxOff := (l.rxOff + 1) % 10880, hdrRun := 0 }

/-- The LANE_MARK of a good pair acts on a locked lane (R114, R161): deskew within 160 ns, the partner's logical lane and RX_READY.  A
lane that carried data and now gets lane-control groups leaves RX_LANES. -/
def takeMark (s : State) (n skew : Nat) (good ctrl : Bool) (mark : Option (Bool × Nat × Nat)) : State :=
  let l := laneSt s n
  if !good then s
  else if l.data && ctrl then setLane s n { l with deskew := false, data := false }
  else match mark with
    | some (ready, lane, _) =>
      setLane (wr s F.lnStatLlane lane n) n { l with deskew := l.deskew || decide (skew ≤ 160), partnerReady := ready, data := !ctrl }
    | none => setLane s n { l with data := !ctrl }

/-- What follows for training, for a lane outside S and for a lane in use once a pair has been read (R115, R128, R161). -/
def afterPair (s : State) (n : Nat) (tooSkewed : Bool) : State :=
  let ph := rd s F.lnStatPhase n
  let l := laneSt s n
  let aligned := rdb s F.lnStatBlkLock n && rdb s F.lnStatFecLock n && l.deskew && l.partnerReady
  if ph = 4 ∧ tooSkewed = true then failAttempt s n
  else if l.outside && aligned then
    lanesChanged (setLane (if ph = 4 then wr s F.lnStatPhase 6 n else s) n { l with outside := false }) n
  else if ph = 4 ∧ aligned = true then setLane (wr s F.lnStatPhase 5 n) n { l with phaseSince := s.timeNs, qualBad := false }
  else if 6 ≤ ph ∧ 16 ≤ l.uncorrTimes.length then failLane s n 3
  else lanesChanged s n

/-- The groups of a locked pair (R109 to R112): counted, descrambled, and kept for the link layer. -/
def readGroups (s : State) (n x skew : Nat) : State :=
  let (a, b, msg) := readPair x
  let good := a.isSome && b.isSome
  let s := takeCodeword (takeCodeword s n a) n b
  let s := if good && !rdb s F.lnStatFecLock n then lanesChanged (wrb s F.lnStatFecLock true n) n else s
  let l := laneSt s n
  let hdrs := headersOf msg
  let (blocks, scr) := descramble 10240 (blockBits msg) l.rxScr
  let ctrl := hdrs.any (· == hdrControl)
  let mark := markIn hdrs blocks
  let s := setLane s n { l with rxScr := scr, pair := some ⟨!good, ctrl, l.data, blocks⟩ }
  afterPair (takeMark s n skew good ctrl mark) n (good && mark.isSome && decide (160 < skew))

/-- Bits that a checker compares: it synchronises itself from the received bits, locks after 64 consecutive error-free bits, and then
counts the bits that differ from its own register (R135). -/
def checkBits (code : Nat) : Nat → Nat → Bool × Nat × Nat × Nat → Bool × Nat × Nat × Nat
  | 0, _, x => x
  | k + 1, r, (lock, run, st, errs) =>
    let (p, own) := patternBits code 1 st
    let same := r % 2 == p
    let heard := (st + r % 2 * 2 ^ patternOrder code) / 2
    checkBits code k (r / 2)
      (if lock then (true, run, own, if same then errs else errs + 1)
       else if same && decide (64 ≤ run + 1) then (true, 0, heard, errs)
       else (false, if same then run + 1 else 0, heard, errs))

/-- A period of symbols on a lane in TEST with a pattern set (R134, R135): from its own generator in a near-end loop, else from its
pads; the checker, if one is set, takes the bits after Gray decoding. -/
def testPeriod (s : State) (n levels : Nat) : State :=
  let l := laneSt s n
  let nrz := rd s F.lnCtlRate n == 2
  let code := rd s F.lnCtlPrbsChk n
  let own := patternBits (rd s F.lnCtlPrbsGen n) 10880 l.gen
  let loop := nearLoop s n
  let r := if loop then (if rd s F.lnCtlPrbsGen n = 0 then 0 else own.1) else if nrz then levels else pamBits 5440 levels
  let s := setLane s n { l with rxLast := levels, gen := if loop then own.2 else l.gen }
  if code = 0 then s
  else
    let (lock, run, st, errs) := checkBits code 10880 r (rdb s F.lnPrbsChkLock n, l.chkRun, l.chk, 0)
    let s := inc (wrb s F.lnPrbsChkLock lock n) F.lnPrbsErrors errs n
    setLane s n { laneSt s n with chkRun := run, chk := st }

/-- The 5,440 symbols of one codeword-pair period taken (R106 to R114, R119, R161): sync headers at the lane's offset first, then, with
block lock, the codewords. -/
def takePair (s : State) (n levels skew : Nat) : State :=
  let ph := rd s F.lnStatPhase n
  if ph = 9 then testPeriod s n levels
  else if ph < 4 ∨ ph = 8 then s
  else
    let lv := lineIn s n levels
    let raw := pamBits 5440 (if rdb s F.lnStatRxInv n then invLevels 5440 lv else lv)
    let x := pairWindow s n raw
    let oks := (headersOf x).map fun h => h == hdrData || h == hdrControl
    let s := setLane s n { laneSt s n with rxPrev := raw, pair := none }
    let s := huntOn (oks.foldl (fun s ok => takeHeader s n ok) s) n (oks.all id)
    if rdb s F.lnStatBlkLock n then readGroups s n x skew
    else lanesChanged (setLane s n { laneSt s n with data := false }) n

/-! ### What a lane sends -/

/-- Symbols put on a lane's pads; in a near-end loop the pads stand at electrical idle and the lane's own receiver has them
(Table 04-7). -/
def laneSends (s : State) (n levels : Nat) : State :=
  let s := setLane s n { laneSt s n with txLast := levels }
  if nearLoop s n then s else emit s (.lane n levels)

/-- The control word that a lane sends in training (Table 04-4). -/
def ownWord (s : State) (n : Nat) : Nat :=
  let p := laneUnit s n
  let l := laneSt s n
  sealWord ((n - (unitLanes s p).headD 0) % 4 + p % 128 * 2 ^ 2 + bit s.txn.arm.trunked * 2 ^ 9 + l.ask % 2 ^ 12 * 2 ^ 10
    + l.tapStat % 2 ^ 10 * 2 ^ 22 + bit l.settled * 2 ^ 32 + rd s F.lnStatPhase n % 8 * 2 ^ 33)

/-- A training frame sent (R115, R116); where in PRBS13Q it starts is left open. -/
def sendTraining (s : State) (n : Nat) : State :=
  laneSends (drawn s) n (trainLevels (ownWord s n) (patternBits 3 8000 (patternStart 3 (freeNat s))).1)

/-- A codeword pair of a lane sent, with its scrambler carried on (R107 to R110). -/
def sendGroups (s : State) (n : Nat) (hdrs : List Nat) (blocks : Nat) : State :=
  let (x, scr) := sendPair hdrs blocks (laneSt s n).txScr
  laneSends (setLane s n { laneSt s n with txScr := scr }) n (pamLevels 5440 x)

/-- A pair of lane-control groups sent (Table 04-2, R114, R160): LANE_MARK first when `mark` is set, then IDLE. -/
def sendControl (s : State) (n : Nat) (mark : Bool) : State :=
  let p := laneUnit s n
  let first := if mark then markBlock (n - (unitLanes s p).headD 0) p (laneRx s n) else idleBlock
  sendGroups s n (List.replicate 20 hdrControl) (first + (List.range 19).foldl (fun x k => x + idleBlock * 2 ^ (512 * (k + 1))) 0)

/-- A lane in TEST with a pattern or the far-end loop set sends its pattern, or what it received (R134). -/
def sendTest (s : State) (n : Nat) : State :=
  let l := laneSt s n
  let gen := rd s F.lnCtlPrbsGen n
  if rd s F.lnCtlLoop n = 3 then laneSends s n l.rxLast
  else if gen = 0 ∨ nearLoop s n = true then s
  else
    let (x, st) := patternBits gen 10880 l.gen
    laneSends (setLane s n { l with gen := st }) n (if rd s F.lnCtlRate n = 2 then x else pamLevels 5440 x)

/-- What each lane of a port unit sends in a codeword-pair period: training frames in SIGNAL to COEFF, LANE_MARK and IDLE in ALIGN,
in a swap and outside S, IDLE in QUALIFY (R115, R129, R160), and its groups of the frame in S (R111).  A tile's spare sends its own
pattern with the tile's first unit (R134). -/
def sendLanes (s : State) (p mask : Nat) (slots : List Flit) : State :=
  let inS := (List.range 4).filter (bitAt mask)
  let s := ((unitLanes s p).zipIdx).foldl (fun (s : State) (e : Nat × Nat) =>
    let n := e.1
    let ph := rd s F.lnStatPhase n
    if ph = 9 then sendTest s n
    else if ph = 1 ∨ ph = 2 ∨ ph = 3 then sendTraining s n
    else if ph = 5 then sendControl s n false
    else if ph = 4 ∨ (ph = 7 ∧ rdb s F.lnStatOnSpare n = false) then sendControl s n true
    else if ph = 6 ∨ ph = 7 then
      if bitAt mask e.2 && !slots.isEmpty then
        sendGroups s n (List.replicate 20 hdrData) (dealLane slots (inS.findIdx (· == e.2)) inS.length)
      else sendControl s n true
    else s) s
  if p % 8 = 0 ∧ rd s F.lnStatPhase (spareLane (p / 8)) = 9 then sendTest s (spareLane (p / 8)) else s

/-! ### Recalibration -/

/-- A recalibration requested (R125, R127). -/
def requestRecal (s : State) (n reason : Nat) : State :=
  let t := spareOf n
  let x := spareSt s t
  if 256 ≤ n then s
  else
    let busy := x.stage == .swapLock || x.stage == .swapped || x.stage == .retrain || x.stage == .attempt || !spareEnabled s t
    let s := if busy then wrb s F.lnStatRecalDeferred true n else s
    let s := if x.queue.any (fun e => e.1 == n) || servedBy s t == some n then s
      else setSpare s t { x with queue := x.queue ++ [(n, reason)] }
    nextRecal s t

/-- The spare taken off a lane that its own slice carries again (R126, R130). -/
def takeBack (s : State) (t n tj mv : Nat) : State :=
  let recal := (laneSt s n).reason != 5
  let s := stampLane s n (laneSt s n).reason tj mv
  let s := wr (wrb (wr s F.lnStatPhase 6 n) F.lnStatOnSpare false n) F.lnStatFailCause 0 n
  let s := if recal then tell (inc s F.lnEventsRecals 1 n) (.patina 2 n) else s
  nextRecal (lanesChanged (releaseSpare s t) n) t

/-- One measured lane of the 10 ms check (R125): its temperature, VSERDES, and whether its error ratio over 100 ms is above
1 in 10^4; a READY lane that has drifted asks for a recalibration. -/
def checkLane (s : State) (e : Nat × Nat × Nat × Bool) : State :=
  let (n, tj, mv, ber) := e
  if 256 ≤ n then s
  else if rd s F.lnStatPhase n ≠ 6 then s
  else
    let old := rd s F.lnRecVserdesMv n
    let dt := (toSigned 8 tj - toSigned 8 (rd s F.lnRecTj n)).natAbs
    let dv := if mv < old then old - mv else mv - old
    if 8 < dt ∨ old * 2 < dv * 100 then requestRecal s n 2
    else if ber then requestRecal s n 3
    else s

end Sys2Proof.Machine
end

