-- ==== Sys2Proof/Machine/Maquette.lean ====
section
/-!
DEFINITION. Machine/Maquette.lean: transactions (R55 to R62, R606), the checks and effects of a commit in each table (R346,
R364, R408, R420), re-cast (R48, R52, R53, R63, R64), and the armature in force (R44, R46, R50).
-/

namespace Sys2Proof.Machine

def setTxn (s : State) (f : TxnSt → TxnSt) : State := { s with txn := f s.txn }

/-- The owner code of a writer: 1 and 2 PF0 of each port, 3 the management controller, 0 another function (R56). -/
def ownerOf (w : Who) : Nat :=
  match w with
  | .fn 0 0 => 1
  | .fn 1 0 => 2
  | .fn _ _ => 0
  | .mgmt => 3

/-- Whether a writer is PF0 of a port or the management controller. -/
def isPf0 (w : Who) : Bool := ownerOf w != 0

def txnSt (s : State) : Nat := rd s F.txnStatSt
def txnOpen (s : State) : Bool := txnSt s == 2 || txnSt s == 3 || txnSt s == 4
def txnUsed (s : State) : State := setTxn s fun t => { t with lastUse := s.timeNs }

/-- The end of a transaction: the owner goes, and the maquette is emptied. -/
def endTxn (s : State) (st : Nat) : State :=
  wr (wr (setTxn s fun t => { t with maquette := [], swap := if t.swap = .recast then .none else t.swap }) F.txnOwnerOwner 0)
    F.txnStatSt st

/-- An abort with its cause: STAGED reads 0 (R60, TXN_STAT). -/
def abortTxn (s : State) (cause : Nat) : State :=
  endTxn (wr (wr s F.txnStatCause cause) F.txnStatStaged 0) 6

/-! ### Staging -/

/-- A direct or refused write to a staged entry noted by its block (R332, R362, R363). -/
def noteTxnRequired (s : State) (key : Nat) (sec : Bool) : State :=
  let s := refuseWrite s
  if 0x07100000 ≤ key ∧ key < 0x07300000 then
    wr (wr (inc s F.gwCnt3TxnRequired) F.gwErrLastCause (if sec then 3 else 1)) F.gwErrLastSpan ((key - 0x07100000) / 16)
  else if 0x06C00000 ≤ key ∧ key < 0x07000000 then
    let i := (key - 0x06C00000) / 32
    wr (wr (inc s F.mrCnt3TxnRequired) F.mrErrLastCause (if rdb s F.mrEntryInUse i then 1 else 2)) F.mrErrLastIndex i
  else s

/-- A write to an RWT register or staged entry (R57, R58, R363).  The transaction takes writes while ST reads OPEN; one that comes while
a commit prepares is refused and counted (DESIGN CHOICE, log entry 100). -/
def stageWrite (s : State) (who : Who) (key : Nat) (w : Word) : State :=
  let own := ownerOf who != 0 && ownerOf who == rd s F.txnOwnerOwner && txnSt s == 2
  let sec := decide (0x07100000 ≤ key) && decide (key < 0x07300000) && rd s F.gwSecMode == 1 && who != .mgmt
  if !own || sec then noteTxnRequired s key (own && sec)
  else
    let s := txnUsed s
    if mhas s.txn.maquette key then setTxn s fun t => { t with maquette := mset t.maquette key w }
    else if 16384 ≤ s.txn.maquette.length then
      refuseWrite (wr (wrb s F.txnStatFailed true) F.txnStatCause 2)
    else
      let s := setTxn s fun t => { t with maquette := mset t.maquette key w }
      wr s F.txnStatStaged s.txn.maquette.length

/-! ### Applying a commit -/

/-- A word with the RWT fields of a staged one. -/
def rwtWord (s : State) (key : Nat) (w : Word) : Word :=
  (fieldsAt key).foldl (fun o f => if f.acc == .rwt then wordSet o f.lo f.width (wordGet w f.lo f.width) else o) (csrRaw s key)

/-- Whether the RWT fields of a staged word hold only listed encodings. -/
def rwtLegal (key : Nat) (w : Word) : Bool :=
  (fieldsAt key).all fun f => f.acc != .rwt || f.legal.ok (wordGet w f.lo f.width)

/-- The entry that a key of a table with commit checks of its own lies in (R606): the table (0 none, 1 GW_SPAN, 2 MR_ENTRY,
3 CL_GROUP, 4 CL_CHILD, 5 EX_JOB, 6 EX_RING, 7 EX_PART) and the index. -/
def entryOf (key : Nat) : Nat × Nat :=
  if 0x07100000 ≤ key ∧ key < 0x07300000 then (1, (key - 0x07100000) / 16)
  else if 0x06C00000 ≤ key ∧ key < 0x07000000 then (2, (key - 0x06C00000) / 32)
  else if 0x08010000 ≤ key ∧ key < 0x08030000 then (3, (key - 0x08010000) / 32)
  else if 0x08100000 ≤ key ∧ key < 0x08800000 then (4, (key - 0x08100000) / 8)
  else if 0x08810000 ≤ key ∧ key < 0x08820000 then (5, (key - 0x08810000) / 32)
  else if 0x08820000 ≤ key ∧ key < 0x08830000 then (6, (key - 0x08820000) / 32)
  else if 0x08900000 ≤ key ∧ key < 0x08980000 then (7, (key - 0x08900000) / 8)
  else (0, 0)

/-- The register file with the staged words of one entry. -/
def withWords (s : State) (ws : List (Nat × Word)) : State :=
  ws.foldl (fun s e => csrPut s e.1 (rwtWord s e.1 e.2)) s

/-- The range of RLEN (EX_JOB), judged for FIXED records only (log entry 99). -/
def recordLenOk (n : Nat) : Bool := decide (8 ≤ n) && decide (n ≤ 4064)

/-- Whether a child entry is one of an ACTIVE group's (R408, log entry 106). -/
def childActive (s : State) (i : Nat) : Bool :=
  (armedGroups s).any fun g => rd s F.clGroupState g == 1
    && decide ((i + 65536 - rd s F.clGroupChildBase g) % 65536 < rd s F.clGroupChildCount g)

/-- The cause for which a changed entry fails its commit checks, 0 when it passes: of GW_SPAN R364, MR_ENTRY R346 and R331,
CL_GROUP and CL_CHILD R408, EX_JOB, EX_RING and EX_PART R420 and the check stated with EX_JOB. -/
def entryFails (s : State) (table i : Nat) (ws : List (Nat × Word)) : Nat :=
  let new := withWords s ws
  let legal := ws.all fun e => rwtLegal e.1 e.2
  match table with
  | 1 =>
    let same := fun (f : Fld) => rd s f i == rd new f i
    let onlyEnables := [F.gwSpanMode, F.gwSpanTc, F.gwSpanHomeOff, F.gwSpanHomeDev, F.gwSpanKey, F.gwSpanHomeEc].all same
    if !legal || decide (4 ≤ rd new F.gwSpanMode i) then 4 else if !onlyEnables && spanHeld s i then 2 else 0
  | 2 =>
    if rd s F.mrEntryState i ≠ 1 then 2
    else if !legal || rd new F.mrEntryLen i == 0 || decide (2 ^ 46 < rd new F.mrEntryOffBase i + rd new F.mrEntryLen i)
      || decide (2 ^ 48 < rd new F.mrEntryDva i + rd new F.mrEntryLen i) then 3 else 0
  | 3 =>
    if rd s F.clGroupState i = 1 then 1
    else if !legal then 3
    else if rdb new F.clGroupValid i
      && decide (rd s F.clPoolSlotsFree + (if rdb s F.clGroupValid i then 2 * rd s F.clGroupWindow i else 0) < 2 * rd new F.clGroupWindow i) then 2
    else 0
  | 4 => if childActive s i then 1 else if !legal then 3 else 0
  | 5 =>
    let len := rd new F.exJobK0Len i + rd new F.exJobK1Len i
    let past := fun (o n : Fld) => decide (0 < rd new n i) && decide (rd new F.exJobRlen i < rd new o i + rd new n i)
    if rdb s F.exJobOpen i && !rdb new F.exJobOpen i && jobBusy s i then 1
    else if !legal || len == 0 || decide (32 < len) || (rd new F.exJobFormat i == 0 && !recordLenOk (rd new F.exJobRlen i))
      || (rd new F.exJobFormat i == 0 && (past F.exJobK0Off F.exJobK0Len || past F.exJobK1Off F.exJobK1Len)) then 2 else 0
  | _ => if !legal then 2 else 0

/-- The record of an entry that failed (R606). -/
def noteDropped (s : State) (table i cause : Nat) : State :=
  match table with
  | 1 => wr (wr (inc s F.gwCnt3StageDropped) F.gwErrLastCause cause) F.gwErrLastSpan i
  | 2 => wr (wr (inc s F.mrCnt3StageDropped) F.mrErrLastCause cause) F.mrErrLastIndex i
  | 3 => wr (wr (wr (inc s F.clCnt2StageDropped) F.clErrLastCause cause) F.clErrLastChild 0) F.clErrLastIndex i
  | 4 => wr (wr (wr (inc s F.clCnt2StageDropped) F.clErrLastCause cause) F.clErrLastChild 1) F.clErrLastIndex i
  | 7 => wr (wr (wr (inc s F.exCnt3StageDropped) F.exErrLastCause cause) F.exErrLastPart 1) F.exErrLastIndex i
  | _ => wr (wr (wr (inc s F.exCnt3StageDropped) F.exErrLastCause cause) F.exErrLastPart 0) F.exErrLastIndex i

/-- What follows a changed entry: a group armed starts its stream at position 0 and leaves ABORTED (R405, R408), a job opens
or closes (R420), a span's IN_USE follows. -/
def entryChanged (before s : State) (table i : Nat) : State :=
  match table with
  | 1 => refreshGw s i
  | 3 =>
    if rdb s F.clGroupValid i == rdb before F.clGroupValid i then refreshPool s
    else
      let s := setGrp (wr (wr s F.clGroupState 0 i) F.clGroupCause 0 i) i {}
      refreshPool (if rdb s F.clGroupValid i then wr s F.clGroupOpSeq 0 i else s)
  | 5 =>
    if rdb s F.exJobOpen i && !rdb before F.exJobOpen i then
      let s := wr (wr s F.exJobState 1 i) F.exJobCause 0 i
      refreshEx (setFailedDev (setJob (wr (wr s F.exRingPi 0 i) F.exRingCi 0 i) i {}) i 0)
    else if !rdb s F.exJobOpen i && rdb before F.exJobOpen i then closeJob s i
    else s
  | _ => s

/-- One staged entry of a table applied or dropped. -/
def applyEntry (s : State) (table i : Nat) (ws : List (Nat × Word)) : State :=
  let c := entryFails s table i ws
  if c = 0 then entryChanged s (withWords s ws) table i else noteDropped s table i c

/-- Credits and tokens that have grown under the settings until now written down before a commit changes them (R486, R488). -/
def settleRates (s : State) (key : Nat) : State :=
  if 0x0B001000 ≤ key ∧ key < 0x0B001200 then
    let i := (key - 0x0B001000) / 8
    settleShaper s (i / 8) (i % 8)
  else if 0x0B020000 ≤ key ∧ key < 0x0B028000 then
    let i := (key - 0x0B020000) / 32
    if mhas s.sc.pol i then
      let b := refill s i
      setSc s fun x => { x with pol := mset x.pol i (b.1, b.2, s.timeNs) }
    else s
  else s

/-- Each pair's C clamped into the range of TP_CC_DC as a commit leaves it (R267). -/
def clampCeils (s : State) : State :=
  s.tp.pairs.foldl (fun (s : State) (e : Nat × PairSt) =>
    wr s F.tpDcCeil (min (rd s F.tpCcDcCMax) (max (rd s F.tpCcDcCMin) (rd s F.tpDcCeil e.1))) e.1) s

/-- One staged word of another register applied, or dropped and counted (R606); a change of RT_PORT_MASK starts settling (R216). -/
def applyWord (s : State) (key : Nat) (w : Word) : State :=
  if !rwtLegal key w then refuseWrite s
  else
    let s := settleRates s key
    let s' := csrPut s key (rwtWord s key w)
    if key = 0x04000030 ∨ key = 0x04000038 then
      if csrRaw s' key = csrRaw s key then s' else settle s'
    else if key = 0x05000018 then clampCeils s'
    else s'

/-- The maquette applied in one step (R55, R59, R606): the tables with checks of their own entry by entry, the other words
one by one; what waits for the ports newly masked is routed again in one event (R215). -/
def applyMaquette (s : State) : State :=
  let l := s.txn.maquette
  let ids := ((l.map fun e => entryOf e.1).filter fun e => e.1 != 0).eraseDups
  let old := s
  let s := (l.filter fun e => (entryOf e.1).1 == 0).foldl (fun s e => applyWord s e.1 e.2) s
  let s := rerouteOutputs s (fun o => decide (o < 128) && maskedPort s o && !maskedPort old o) true
  ids.foldl (fun s e => applyEntry s e.1 e.2 (l.filter fun x => entryOf x.1 == e)) s

/-- The epoch boundary of a commit (R59): TXN_EPOCH rises, ARM_RECAST clears, ST reads COMMITTED. -/
def commitNow (s : State) : State :=
  let s := applyMaquette s
  let s := wr (wr s F.txnEpochEpoch ((rd s F.txnEpochEpoch + 1) % 2 ^ 64)) F.armRecastSections 0
  let s := refreshEpochDone (wr s F.txnStatCause 0)
  moveAccs (endTxn s 5)

/-! ### The armature -/

/-- The registers that show the armature in force (02, 03, 07, 11, 17). -/
def showArm (s : State) (loaded : Nat) : State :=
  let a := s.txn.arm
  let s := wr (wr (wr s F.armStatVersion a.version) F.armStatSigner a.signer) F.armStatLoaded loaded
  let s := (a.roles.zipIdx).foldl (fun (s : State) (e : Nat × Nat) =>
    wr s F.armRoleTile e.1 (e.2 / 16) (e.2 % 16)) s
  let s := (a.react.zipIdx).foldl (fun (s : State) (e : Nat × Nat) => csrPut s (F.fcReactInt.key e.2) (BitVec.ofNat 64 (e.1 % 128))) s
  let s := csrPut s (F.rtTcMapReq.key 0) (BitVec.ofNat 64 a.tcMap)
  let s := wr (wr s F.rtGeomTrunked (bit a.trunked)) F.rtGeomP63Use a.p63Use
  let s := wr (wr s F.rtGeomMembers a.members) F.rtGeomGroups a.groups
  refreshPool (refreshEx (wr s F.mrCfgSize a.regionSize))

/-- The armature with the sections of a mask taken from another (Table 02-3). -/
def takeSections (a b : Arm) (m : Nat) : Arm :=
  let a := if bitAt m 1 then
      { a with tcMap := b.tcMap, res := b.res, iresReq := b.iresReq, iresRsp := b.iresRsp, shrMax := b.shrMax, oqMax := b.oqMax,
               mcMax := b.mcMax, ceThr := b.ceThr }
    else a
  let a := if bitAt m 2 then { a with roles := b.roles } else a
  let a := if bitAt m 3 then { a with hpart := b.hpart } else a
  let a := if bitAt m 4 then
      { a with groups := b.groups, members := b.members, mcSize := b.mcSize, spanSize := b.spanSize, regionSize := b.regionSize,
               matchSize := b.matchSize }
    else a
  let a := if bitAt m 5 then { a with react := b.react } else a
  { a with digests := (a.digests.zipIdx).map fun (e : Nat × Nat) => if bitAt m e.2 then nth b.digests e.2 else e.1,
           version := b.version, buildId := b.buildId, signer := b.signer }

/-- A little-endian field of an armature's header or directory: n bytes from an offset (R45, Tables 02-1 and 02-2). -/
def armField (a : ArmStream) (off n : Nat) : Nat := ofBytes ((a.head.drop off).take n)

/-- A directory entry in the layout of Table 02-2, with the digest of the body it points at. -/
def dirEntry (bs : List Byte) (body : Nat) : DirEntry :=
  let f := fun off n => ofBytes ((bs.drop off).take n)
  ⟨f 0 2, f 2 2, f 4 4, f 8 4, f 12 4, f 16 48, body⟩

/-- Entry i of the section directory (Table 02-2). -/
def armEntry (a : ArmStream) (i : Nat) : DirEntry := dirEntry (a.head.drop (64 + 64 * i)) (nth a.bodies i)

/-- The section directory. -/
def armDir (a : ArmStream) : List DirEntry := (List.range 6).map (armEntry a)

/-- The armature that a stream carries: what its header says, the DIGEST of each section in the order of Table 02-3, and the settings
of its bodies. -/
def armOf (a : ArmStream) : Arm :=
  { a.arm with
    version := armField a 8 4, signer := armField a 18 1 % 4, buildId := armField a 24 8,
    digests := (List.range 6).map fun k => (((armDir a).find? fun d => d.id == k + 1).map fun d => d.digest).getD 0 }

/-- The check of an armature stream (R46), in the order of R46: the CAUSE of ARM_STAGE for the first that fails, 0 when it
is accepted (1 FORMAT, 9 LENGTH, 2 DIGEST, 3 SIGNATURE, 4 SIGNER_DISABLED). -/
def armCheck (enabled : Nat) (a : ArmStream) : Nat :=
  let ids := [1, 2, 3, 4, 5, 6]
  let dir := armDir a
  let total := armField a 12 4
  let endOf := fun (d : DirEntry) => d.offset + d.length
  let apart := dir.all fun d => dir.all fun e => d.id == e.id || decide (endOf d ≤ e.offset) || decide (endOf e ≤ d.offset)
  if a.head.length ≠ 448 ∨ armField a 0 4 ≠ 0x544D5241 ∨ armField a 4 2 ≠ 1 ∨ armField a 6 2 ≠ 0x0128 then 1
  else if total ≠ a.recvLen ∨ 2 ^ 24 < total then 9
  else if armField a 16 2 ≠ 6 ∨ armField a 20 4 ≠ 64 ∨ ids.all (fun i => (dir.filter (·.id == i)).length == 1) = false then 1
  else if !(apart && dir.all fun d => decide (4096 ≤ d.offset) && decide (endOf d + 128 ≤ total) && d.offset % 4096 == 0) then 1
  else if !(dir.all fun d => d.digest == d.bodyDigest) then 2
  else if !a.sigOk then 3
  else if 4 ≤ armField a 18 1 ∨ bitAt enabled (armField a 18 1) = false then 4
  else 0

/-- Sections whose DIGEST differs, as a mask of Table 02-3. -/
def armDiff (a b : Arm) : Nat :=
  (List.range 6).foldl (fun m i => if nth a.digests i = nth b.digests i then m else m + 2 ^ i) 0

/-- Whether two HPARTs differ only in the partitions that may change in RUN (R48). -/
def hpartAllowed (old new : List Nat) : Bool :=
  [1, 2, 4, 5].all (fun i => nth old i == nth new i) && decide (16 ≤ nth new 7)
    && (nth old 0 + nth old 3 + nth old 6 + nth old 7 == nth new 0 + nth new 3 + nth new 6 + nth new 7)

/-- The further checks of staging (R50): 5 VERSION, 6 FRAME_DIFFERS, 7 HPART_FIXED. -/
def stageCheck (s : State) (a : ArmStream) : Nat :=
  let c := armCheck (rd s F.armSignerEnable) a
  if c ≠ 0 then c
  else if (armOf a).version < s.txn.arm.version then 5
  else if nth (armOf a).digests 0 ≠ nth s.txn.arm.digests 0 then 6
  else if !hpartAllowed s.txn.arm.hpart a.arm.hpart then 7
  else 0

/-- Tiles of a role. -/
def roleCount (roles : List Nat) (r : Nat) : Nat := (roles.filter (· == r)).length

/-- No table shrinks below its highest entry with IN_USE set (Table 02-7). -/
def tablesFit (s : State) (b : Arm) : Bool :=
  let a := s.txn.arm
  let excess := fun (lo hi stride size : Nat) (used : Nat → Bool) => s.csr.any fun (e : Nat × Word) =>
    decide (lo ≤ e.1 ∧ e.1 < hi ∧ size ≤ (e.1 - lo) / stride) && used ((e.1 - lo) / stride)
  !(decide (b.regionSize < a.regionSize) && excess 0x06C00000 0x07000000 32 b.regionSize (fun i => rdb s F.mrEntryInUse i))
    && !(decide (b.spanSize < a.spanSize) && excess 0x07100000 0x07300000 16 b.spanSize (fun i => rdb s F.gwSpanInUse i))

/-- A firmware activation is in progress (R52, R65): from its warm boot to the end of its health window. -/
def activating (s : State) : Bool := decide (1 ≤ rd s F.fwStatActSt) && decide (rd s F.fwStatActSt ≤ 4)

/-- The commit checks of a re-cast (R52, Table 02-7): 0 when all pass. -/
def recastFails (s : State) (m : Nat) : Nat :=
  match s.txn.staged with
  | none => 8
  | some b =>
    let a := s.txn.arm
    let changed := (List.range 48).filter fun i => nth a.roles i != nth b.roles i
    let part := fun i => nth a.hpart i != nth b.hpart i
    if rd s F.armStageSt ≠ 2 then 8
    else if holdOn s || brownOn s || fenceOn s || activating s then 3
    else if bitAt m 2 && changed.any fun i => !(bitAt (rd s F.armDrainTiles) i && bitAt (rd s F.armDrainStatDrained) i) then 4
    else if bitAt m 2 && (decide (roleCount b.roles 0 < 8) || [1, 2, 3, 4].any fun r => roleCount b.roles r == 0) then 5
    else if bitAt m 3 && ((part 0 && decide (0 < dirtySectors s)) || (part 3 && s.cl.jobs.any fun e => jobBusy s e.1)
      || (part 6 && rdb s F.pmSmpCfgEn)) then 6
    else if bitAt m 4 && !tablesFit s b then 7
    else 0

/-- A commit commanded by its owner (R52, R58, R59): refused, or PREPARING. -/
def beginCommit (s : State) : State :=
  let m := match mget s.txn.maquette 0x00100070 with
    | some w => wordGet w 1 5 * 2
    | none => rd s F.armRecastSections * 2
  if rdb s F.txnStatFailed then wr s F.txnStatCause 2
  else if m = 0 then wr s F.txnStatSt 3
  else
    let c := recastFails s m
    if c = 0 then wr (setTxn s fun t => { t with swap := .recast }) F.txnStatSt 3 else wr s F.txnStatCause c

/-- The section mask that the open transaction re-casts. -/
def recastMask (s : State) : Nat :=
  match mget s.txn.maquette 0x00100070 with
  | some w => wordGet w 1 5 * 2
  | none => rd s F.armRecastSections * 2

/-- A BROWNOUT during preparation (R63): the commit is refused with RECAST_MODE and the transaction stays open. -/
def stopPrep (s : State) : State :=
  if txnSt s = 3 ∧ s.txn.swap = .recast then wr (wr (setTxn s fun t => { t with swap := .none }) F.txnStatSt 2) F.txnStatCause 3 else s

/-- The switch of a re-cast at its epoch (R53): sections and staged words together.  The staged armature is used up, and ST reads EMPTY
(DESIGN CHOICE, log entry 100). -/
def switchRecast (s : State) : State :=
  match s.txn.staged with
  | some b =>
    let m := recastMask s
    let a := takeSections s.txn.arm b m
    let s := setTxn s fun t => { t with arm := a, staged := none, stagedBytesOn := [] }
    let s := showArm (wr s F.armStageSt 0) (rd s F.armStatLoaded)
    commitNow s
  | none => commitNow s

end Sys2Proof.Machine
end

