-- ==== Sys2Proof/Machine/Tiles.lean ====
section
/-!
DEFINITION. Machine/Tiles.lean: the engine tiles (01): roles and the order in which tiles serve (R19, R23), streams on
channels and slices (R18, R482, R484), spares and losses (R21, R22, R24) and draining (R54).  A unit of work adds a
slice to its stream as it starts; the order in which slices are granted decides nothing else in this model (log 30).
-/

namespace Sys2Proof.Machine

def setEng (s : State) (f : TileEng → TileEng) : State := { s with eng := f s.eng }

/-- The role of logical tile t: 0 TP, 1 MT, 2 CL, 3 EX, 4 AT. -/
def tileRole (s : State) (t : Nat) : Nat := rd s F.armRoleTile (t / 16) (t % 16)

/-- The tiles of a role in the order in which they serve: ascending logical number (R23). -/
def orderOf (s : State) (role : Nat) : List Nat := (List.range 48).filter fun t => tileRole s t == role

/-- A tile is marked in ARM_DRAIN. -/
def drains (s : State) (t : Nat) : Bool := bitAt (rd s F.armDrainTiles) t

/-- A tile works and takes new streams (R23, R54). -/
def takesStreams (s : State) (t : Nat) : Bool := !s.eng.lost.contains t && !drains s t

/-- The members of a list whose place in it has the given remainder modulo 8. -/
def eighths (l : List Nat) (g : Nat) : List Nat :=
  (l.zip (List.range l.length)).filterMap fun e => if e.2 % 8 == g then some e.1 else none

/-- A list turned so that the given place comes first. -/
def turned (l : List Nat) (n : Nat) : List Nat := l.drop n ++ l.take n

/-- The tiles that may hold a stream, the one that serves it first (R22, R23): for TP the tiles of its group, or of the
next group with a working tile; for the other roles the tile at its place and those after it in the order. -/
def tilesFor (s : State) (role key : Nat) : List Nat :=
  let order := orderOf s role
  if role = 0 then
    let groups := (List.range 8).map fun d => eighths order ((key % 8 + d) % 8)
    match groups.find? fun g => g.any fun t => !s.eng.lost.contains t with
    | some g => g.filter (takesStreams s)
    | none => []
  else if order.length = 0 then []
  else (turned order (key % order.length)).filter (takesStreams s)

/-- The tiles a new stream may start on: every tile of its TP group, or the one tile that serves its index. -/
def startTiles (s : State) (role key : Nat) : List Nat :=
  if role = 0 then tilesFor s role key else (tilesFor s role key).take 1

/-- The free channels of a tile (8 each, R18). -/
def freeChans (s : State) (t : Nat) : List Nat :=
  (List.range 8).filter fun c => !(s.eng.streams.any fun e => e.2.tile == t && e.2.chan == c && !e.2.waiting)

/-- The first free channel among some tiles. -/
def findChan (s : State) (tiles : List Nat) : Option (Nat × Nat) :=
  tiles.findSome? fun t => (freeChans s t).head?.map fun c => (t, c)

/-- The finish tag of a stream's next slice on a channel (R482, R484). -/
def sliceTag (s : State) (t c tc : Nat) : Nat :=
  finishTag (mgetD s.eng.vtime t 0) (mgetD s.eng.prevTag (t * 8 + c) 0) 1 (max 1 (rd s F.scTcSliceW tc))

/-- A stream put on a channel; its backing copy shows it there. -/
def onChan (s : State) (id : Nat) (x : Stream) (t c : Nat) : State :=
  let x := { x with tile := t, chan := c, waiting := false, tag := sliceTag s t c x.tc }
  setEng s fun e => { e with streams := mset e.streams id x, backing := mset e.backing id x }

/-- A stream placed on a free channel among some tiles, or left waiting for one. -/
def placeStream (s : State) (id : Nat) (x : Stream) (tiles : List Nat) : State :=
  match findChan s tiles with
  | some (t, c) => onChan s id x t c
  | none => setEng s fun e => { e with streams := mset e.streams id { x with waiting := true } }

/-- Streams that wait are placed as channels come free (R22). -/
def placeWaiting (s : State) : State :=
  (s.eng.streams.filter fun e => e.2.waiting).foldl
    (fun (s : State) (e : Nat × Stream) => placeStream s e.1 e.2 (tilesFor s e.2.role e.2.key)) s

/-- One slice of work for what a role serves: added to its stream, or to a new stream (R18). -/
def work (s : State) (role key tc : Nat) : State :=
  match s.eng.streams.find? fun e => e.2.role == role && e.2.key == key with
  | some (id, x) => setEng s fun e => { e with streams := mset e.streams id { x with slices := x.slices + 1 } }
  | none =>
    placeStream (setEng s fun e => { e with next := e.next + 1 }) s.eng.next
      { role, key, tile := 0, chan := 0, tc, slices := 1, tag := 0, waiting := true, since := s.timeNs } (startTiles s role key)

/-- The streams of a tile that ask for a slice, with their tags. -/
def askers (s : State) (t : Nat) : List (Nat × (Nat × Stream)) :=
  (s.eng.streams.filter fun e => e.2.tile == t && !e.2.waiting).map fun e => (e.2.tag, e)

/-- The streams of a tile whose tag is the least; the order among equal tags is open. -/
def leastAskers (s : State) (t : Nat) : List (Nat × Stream) :=
  match leastTag (askers s t) with
  | none => []
  | some b => ((askers s t).filter fun a => a.1 == b.1).map fun a => a.2

/-- One slice granted on a tile (R18, R484): V and F_prev follow, and the channel's durable state is written through to
its backing copy as the slice ends (R20); a stream with no work left ends, and its channel is free. -/
def grantSlice (s : State) (t : Nat) : State :=
  match pick s (leastAskers s t) with
  | none => s
  | some (id, x) =>
    let s := pmSample (drawn s) 1 x.role x.key []
    let s := setEng s fun e => { e with vtime := mset e.vtime t x.tag, prevTag := mset e.prevTag (t * 8 + x.chan) x.tag }
    if x.slices ≤ 1 then
      placeWaiting (setEng s fun e => { e with streams := mdel e.streams id, backing := mdel e.backing id })
    else
      let x := { x with slices := x.slices - 1, tag := sliceTag s t x.chan x.tc, since := s.timeNs }
      setEng s fun e => { e with streams := mset e.streams id x, backing := mset e.backing id x }

/-- A stream rebuilt from its backing copy (R18, R20): its durable state, with the slices of work that wait for it. -/
def rebuilt (s : State) (id : Nat) (x : Stream) : Stream :=
  { mgetD s.eng.backing id x with slices := x.slices, since := x.since, waiting := x.waiting }

/-- The streams of a tile moved, each from its backing copy, to free channels of their role (R22, R54).  With `must` a
stream that finds none waits; else it stays where it is. -/
def moveStreams (s : State) (t : Nat) (must : Bool) : State :=
  (s.eng.streams.filter fun e => e.2.tile == t && !e.2.waiting).foldl
    (fun (s : State) (e : Nat × Stream) =>
      match findChan s ((tilesFor s e.2.role e.2.key).filter fun u => u != t) with
      | some (u, c) => onChan s e.1 (rebuilt s e.1 e.2) u c
      | none =>
        if must then setEng s fun g => { g with streams := mset g.streams e.1 { rebuilt s e.1 e.2 with waiting := true } } else s) s

/-- A tile holds no stream. -/
def tileEmpty (s : State) (t : Nat) : Bool := !(s.eng.streams.any fun e => e.2.tile == t && !e.2.waiting)

/-- ARM_DRAIN written: DRAINED reads 0 for tiles no longer marked, marked tiles give up their streams, and streams that
wait are placed (R54). -/
def drainChanged (s : State) : State :=
  let s := wr s F.armDrainStatDrained (rd s F.armDrainStatDrained &&& rd s F.armDrainTiles)
  let s := (List.range 48).foldl (fun s t => if drains s t then moveStreams s t false else s) s
  placeWaiting s

/-- A marked tile that holds no stream shows DRAINED (R54). -/
def tileDrained (s : State) (t : Nat) : State :=
  if t < 48 ∧ drains s t = true ∧ tileEmpty s t = true then
    wr s F.armDrainStatDrained (rd s F.armDrainStatDrained ||| 2 ^ t)
  else s

/-- Fields of TOP_TILE_SPARE of a spare (48 to 51). -/
def spareUsed (s : State) (sp : Nat) : Bool := rdb s F.topTileSpareSp48Used && sp == 48
  || rdb s F.topTileSpareSp49Used && sp == 49 || rdb s F.topTileSpareSp50Used && sp == 50
  || rdb s F.topTileSpareSp51Used && sp == 51

def spareTile (s : State) (sp : Nat) : Nat :=
  if sp = 48 then rd s F.topTileSpareSp48Tile else if sp = 49 then rd s F.topTileSpareSp49Tile
  else if sp = 50 then rd s F.topTileSpareSp50Tile else rd s F.topTileSpareSp51Tile

def setSpareTile (s : State) (sp : Nat) (used : Bool) (t : Nat) : State :=
  if sp = 48 then wr (wrb s F.topTileSpareSp48Used used) F.topTileSpareSp48Tile t
  else if sp = 49 then wr (wrb s F.topTileSpareSp49Used used) F.topTileSpareSp49Tile t
  else if sp = 50 then wr (wrb s F.topTileSpareSp50Used used) F.topTileSpareSp50Tile t
  else wr (wrb s F.topTileSpareSp51Used used) F.topTileSpareSp51Tile t

/-- The spares of the die of a logical tile (R21). -/
def sparesOf (t : Nat) : List Nat := if t < 24 then [48, 49] else [50, 51]

/-- The logical tile that a physical tile serves as, when it serves (R21). -/
def logicalOf (s : State) (p : Nat) : Option Nat :=
  if p < 48 then (if s.eng.failed.contains p then none else some p)
  else if p < 52 ∧ spareUsed s p = true then some (spareTile s p)
  else none

/-- A physical tile fails (R21, R22): a free spare of the die takes its place and its channels, or it is lost and its
streams go to free channels of its role.  `true` says that no spare was left. -/
def failTile (s : State) (p : Nat) : State × Bool :=
  if p ≥ 52 ∨ s.eng.failed.contains p = true then (s, false)
  else
    let logical := logicalOf s p
    let s := setEng s fun e => { e with failed := e.failed ++ [p] }
    let s := if p ≥ 48 then setSpareTile s p false 0 else s
    match logical with
    | none => (s, false)
    | some t =>
      match (sparesOf t).find? fun sp => !spareUsed s sp && !s.eng.failed.contains sp with
      | some sp => (setSpareTile s sp true t, false)
      | none =>
        let s := setEng s fun e => { e with lost := e.lost ++ [t] }
        (placeWaiting (moveStreams s t true), true)

/-- The tiles whose share a stream belongs to, drains left aside (R23): for TP the working tiles of its group, else the first working
tile at or after its place in the order. -/
def shareOf (s : State) (role key : Nat) : List Nat :=
  let order := orderOf s role
  let works := fun t => !s.eng.lost.contains t
  if role = 0 then
    ((((List.range 8).map fun d => eighths order ((key % 8 + d) % 8)).find? fun g => g.any works).getD []).filter works
  else if order.length = 0 then []
  else ((turned order (key % order.length)).filter works).take 1

/-- A commit that changed ROLES has set the order anew (R23): the streams whose share it moved go to the tiles that now serve them,
in their order; every other stream stays on its channel (R18). -/
def reorderStreams (before s : State) : State :=
  s.eng.streams.foldl (fun (s : State) (e : Nat × Stream) =>
    let now := shareOf s e.2.role e.2.key
    if shareOf before e.2.role e.2.key == now || now.contains e.2.tile then s
    else
      let x := { rebuilt s e.1 e.2 with waiting := true }
      placeStream (setEng s fun g => { g with streams := mset g.streams e.1 x }) e.1 x (startTiles s e.2.role e.2.key)) s

/-- The tiles after BUILD's test (R24): spares are given again to the tiles recorded as failed and to those that fail now. -/
def bootTiles (s : State) (now : List Nat) : State :=
  let bad := s.eng.failed ++ now.filter fun t => !s.eng.failed.contains t
  let s := { s with eng := {} }
  let s := (List.range 4).foldl (fun s k => setSpareTile s (48 + k) false 0) s
  bad.foldl (fun s t => (failTile s t).1) s

/-- The engine die of a physical tile (R21). -/
def dieOf (t : Nat) : Nat := if t < 24 ∨ t = 48 ∨ t = 49 then 0 else 1

/-- The dies whose exhaustion of spares a test reports (R22, Table 17-1): a tile of the die is lost, or one that fails now leaves no
spare of it free. -/
def diesOut (s : State) (now : List Nat) : List Nat :=
  [0, 1].filter fun d =>
    (s.eng.lost.any fun t => dieOf t == d)
      || (now.any (fun t => dieOf t == d) && (sparesOf (24 * d)).all fun sp => spareUsed s sp || s.eng.failed.contains sp)

end Sys2Proof.Machine
end

