-- ==== Sys2Proof/Machine/HiReset.lean ====
section
/-!
DEFINITION. Machine/HiReset.lean: when a host port serves (R450, R473, R443, R407), closing ECs (R297, R302), and the
host resets of Table 15-6 with what each of them waits for.
-/

namespace Sys2Proof.Machine

/-! ### Serving -/

/-- The four conditions of R450, and no fence or reset of the port's HI/QM (R515). -/
def mayServe (s : State) (hp : Nat) : Bool :=
  let p := portOf s hp
  !p.perstLow && rdb s F.hiPortStatLinkUp hp && p.cfg.bme && p.cfg.mse && !p.resetting && !p.d3hot.contains 0
    && !blockDown s 0xA0 hp

/-- SERVING and HPn_SERVING as R450 makes them. -/
def showServing (s : State) (hp : Nat) (b : Bool) : State :=
  let s := wrb s F.hiPortStatServing b hp
  if hp = 0 then wrb s F.modeStatHp0Serving b else wrb s F.modeStatHp1Serving b

/-- A port's serving state brought up to date.  When it stops serving, waiters for words behind it receive UNAVAILABLE
(R443) and the groups of its members abort (R407); RELAY follows (R473).  When it serves again, dirty contexts of its ranges are written
back (R272). -/
def refreshServing (s : State) (hp : Nat) : State :=
  let b := mayServe s hp
  if serving s hp == b then s
  else
    let s := if b then s else loseMember (failWaiters s hp) hp none
    let s := moveAccs (refreshRelay (showServing s hp b))
    let s := if b then
        (s.tp.cache.filter fun e => e.2.dirty && rangePort s e.1 == some hp).foldl (fun (s : State) (e : Nat × CacheEnt) => writeBackCtx s e.1) s
      else s
    if b then (s.hi.cqs.filter fun e => qPort e.1 == hp).foldl (fun s e => cqDrain 65 s e.1) s else s

/-! ### Closing an EC -/

/-- Rendezvous entries of an EC's sends (R302). -/
def rdvsOf (s : State) (ec : Nat) : List (Nat × Rdv) := s.mt.rdv.filter fun e => e.2.ec == ec

/-- Matched rendezvous receives of an EC whose GET has not ended (R297). -/
def rdvRecvs (s : State) (ec : Nat) : Bool :=
  s.mt.recvs.any fun e => e.2.ec == ec && e.2.matched && e.2.rdvTag.isSome

/-- FINs of an EC that have not been sent yet (R297). -/
def finsUnsent (s : State) (ec : Nat) : Bool :=
  (s.tp.wait.any fun e => e.1.ec == ec && e.1.origin == .fin)
    || s.tp.slots.any fun e => e.2.ec == ec && e.2.origin == .fin && (mget e.2.copies 0).all (fun c => c.built == 0) && e.2.base == 0

/-- The end of a close: the context is CLOSED, and the EC_CLOSE command that asked for it completes (R475). -/
def ecClosed (s : State) (ec : Nat) : State :=
  let s := setTp s fun t => { t with ecs := mdel t.ecs ec, cache := mdel t.cache ec }
  let s := storeCtx s ec
  let asked := s.hi.closing.filter fun e => e.2 == ec
  let s := setHi s fun h => { h with closing := mfilter h.closing fun _ e => e != ec }
  asked.foldl (fun (s : State) (e : Nat × Nat) => wr s F.qmCmdStatSt 2 e.1) s

/-- A closing EC that waits for nothing any more is closed. -/
def settleClose (s : State) (ec : Nat) : State :=
  match mget s.tp.ecs ec with
  | some c => if c.closing && (rdvsOf s ec).isEmpty && !rdvRecvs s ec && !finsUnsent s ec then ecClosed s ec else s
  | none => s

/-- An EC's close begun (R297, R302); `silent` at a reset, when nothing completes. -/
def beginClose (s : State) (ec : Nat) (silent : Bool) : State :=
  match mget s.tp.ecs ec with
  | none => s
  | some c =>
    settleClose (setCtx (closeMatching s ec silent) ec { c with closing := true, closeAt := s.timeNs }) ec

/-- The end of RDV_CLOSE_MS (R302): the remaining entries end under R292, and the close completes, once a rendezvous that has been matched
has sent its FIN (R297). -/
def endClose (s : State) (ec : Nat) : State :=
  settleClose ((rdvsOf s ec).foldl (fun (s : State) (e : Nat × Rdv) => endRdvEntry s e.1 e.2) s) ec

/-! ### Functions -/

/-- Whether a function lies in the scope of a reset of port hp: one function, or every one. -/
def scopeHas (fn : Option Nat) (f : Nat) : Bool := match fn with
  | some x => x == f
  | none => true

/-- ECs of functions in scope. -/
def scopeEcs (s : State) (hp : Nat) (fn : Option Nat) : List Nat :=
  (s.tp.ecs.filter fun e => e.2.hp == hp && scopeHas fn e.2.fn).map fun e => e.1

/-- Domains of functions in scope. -/
def scopeDoms (s : State) (hp : Nat) (fn : Option Nat) : List Nat :=
  (s.csr.filterMap fun e =>
    if 0x06008000 ≤ e.1 ∧ e.1 < 0x06010000 then some ((e.1 - 0x06008000) / 8) else none).filter fun d =>
    rdb s F.xlDomValid d && rd s F.xlDomHp d == hp && scopeHas fn (rd s F.xlDomFunc d)

/-- Regions of functions in scope. -/
def scopeRegions (s : State) (hp : Nat) (fn : Option Nat) : List Nat :=
  (regionsUsed s).filter fun i => rd s F.mrEntryHp i == hp && scopeHas fn (rd s F.mrEntryFunc i)

/-- Messages that a reset of ECs retires without a completion (R470): not the ABANDONs of R441, nor those of the window, nor the
GETs and FINs of rendezvous that have been matched, which the close of their EC finishes first (R297). -/
def resetDrops (ecs : List Nat) (m : Slot) : Bool :=
  ecs.contains m.ec && match m.origin with
    | .abandon _ | .window _ | .rdvGet _ | .fin => false
    | _ => true

/-- The transport's part: slots retired and their MSGIDs quarantined, messages that wait dropped (R470). -/
def resetSlots (s : State) (ecs : List Nat) : State :=
  let s := setTp s fun t => { t with wait := t.wait.filter fun e => !resetDrops ecs e.1 }
  (s.tp.slots.filter fun e => resetDrops ecs e.2).foldl (fun (s : State) (e : Nat × Slot) => dropMsg s e.2) s

/-- The queues' part: queues destroyed, held completions discarded (R476), doorbells and push slots with them. -/
def resetQueues (s : State) (hp : Nat) (fn : Option Nat) : State :=
  let mine := fun (k f : Nat) => qPort k == hp && scopeHas fn f
  let gone := (s.hi.wqs.filter fun e => mine e.1 e.2.fn).map fun e => e.1
  setHi s fun h =>
    { h with wqs := mfilter h.wqs fun k w => !mine k w.fn,
             cqs := mfilter h.cqs fun k q => !mine k q.fn,
             eqs := mfilter h.eqs fun k e => !mine k e.fn,
             push := mfilter h.push fun k _ => !gone.contains k,
             unretired := h.unretired.filter fun e => !gone.contains e.2.1,
             resets := mfilter h.resets fun _ k => mhas h.cqs k && !(match mget h.cqs k with
               | some q => mine k q.fn
               | none => false) }

/-- A function page's registers and the MSI-X state reset (Table 15-6). -/
def resetPages (s : State) (hp : Nat) (fn : Option Nat) : State :=
  let lo := 0x0A800000 + hp * 0x10000000
  let mine := fun key => decide (lo ≤ key) && decide (key < lo + 0x800000) && scopeHas fn ((key - lo) / 0x8000)
  let s := { s with csr := csrReset .flr mine s.csr }
  let p := portOf s hp
  let keep := fun v => !scopeHas fn (v / 2048)
  setPort s hp { p with msixMask := p.msixMask.filter keep, msixPending := p.msixPending.filter keep,
                        d3hot := p.d3hot.filter fun f => !scopeHas fn f }

/-- Alias reads of functions in scope end unanswered. -/
def resetAlias (s : State) (hp : Nat) (fn : Option Nat) : State :=
  let f : Nat → List AliasRead → List AliasRead := fun _ l => l.filter fun r => !(r.hp == hp && scopeHas fn r.fn)
  let left := mfilter (mmap s.at'.reads f) fun _ l => !l.isEmpty
  let gone := (s.at'.reads.filter fun e => !mhas left e.1).map fun e => e.1
  gone.foldl (fun s i => wrb s F.atAliasPending false i) (setAt s fun a => { a with reads := left })

/-- What Table 15-6 lists for an FLR, for one function or every function of a port. -/
def resetFns (s : State) (hp : Nat) (fn : Option Nat) : State :=
  let ecs := scopeEcs s hp fn
  let s := resetQueues (resetSlots s ecs) hp fn
  let s := (scopeRegions s hp fn).foldl (fun s i => if rd s F.mrEntryState i = 1 then markRevoking s i ⟨[], [], false⟩ else s) s
  let s := (scopeDoms s hp fn).foldl (fun s d => removeDomain (freeDomainFaults s d) d) s
  let s := abandonLocks s hp fn
  let s := closeJobs (loseMember s hp fn) hp fn
  let s := ecs.foldl (fun s ec => beginClose s ec true) s
  resetPages (resetAlias s hp fn) hp fn

/-- Accesses to host memory of functions in scope, in flight: those in a domain of theirs. -/
def scopeAccs (s : State) (hp : Nat) (fn : Option Nat) : Bool :=
  s.mr.accs.any fun e => e.2.hp == hp && e.2.pages.any fun p => scopeHas fn (rd s F.xlDomFunc p.1)

/-- What a reset waits for (R469, R441, R302): accesses of its scope, regions not yet FREE, sweeps, closes, and ABANDONs
not yet ended or marked. -/
def fnsFree (s : State) (hp : Nat) (fn : Option Nat) : Bool :=
  !scopeAccs s hp fn && (scopeRegions s hp fn).isEmpty && (scopeEcs s hp fn).isEmpty
    && s.xl.sweeps.all (fun d => !(rd s F.xlDomHp d == hp && scopeHas fn (rd s F.xlDomFunc d)))
    && s.at'.holds.all (fun e => !(e.2.abandoning && !e.2.marked && e.2.req / 2 ^ 13 == hp && scopeHas fn (bits e.2.req 5 8)))

/-- Accesses to host memory through a port in flight. -/
def portAccs (s : State) (hp : Nat) : Bool := s.mr.accs.any fun e => e.2.hp == hp

/-! ### Ports -/

/-- The owner of the transaction is lost (R62): it aborts, unless its commit has already passed its checks. -/
def ownerLost (s : State) (hp : Nat) : State :=
  if rd s F.txnOwnerOwner = hp + 1 ∧ txnSt s ≠ 3 ∧ txnSt s ≠ 4 then abortTxn s 9 else s

/-- Every function's enables cleared, as a conventional reset does (R612). -/
def clearEnables (c : PortCfg) : PortCfg := { c with bme := false, mse := false, vfMse := false, vfEnable := false }

/-- Registers of a port that HFUND restores beside the function pages: HI_PORT_STAT, HI_PM, HI_WEDGED,
QM_CQ_STALL_LIMIT, HI_VF_MAP. -/
def hiKey (hp key : Nat) : Bool :=
  key == 0x0A000000 + hp * 8 || key == 0x0A000010 + hp * 8
    || (decide (0x0A000040 + hp * 32 ≤ key) && decide (key < 0x0A000060 + hp * 32)) || key == 0x0A000100 + hp * 8
    || (decide (0x0A010000 + hp * 2048 ≤ key) && decide (key < 0x0A010800 + hp * 2048))

/-- GW_PORT of a port (R380). -/
def gwPortKey (hp key : Nat) : Bool := key == 0x07000010 + hp * 8

/-- Accesses of a port that can no longer finish discarded, which ends their counts (R338, R610): those in flight, operations
that wait for a word behind it, and held flags. -/
def dropAccesses (s : State) (hp : Nat) : State :=
  let s := (s.mr.accs.filter fun e => e.2.hp == hp).foldl (fun (s : State) (e : Nat × Acc) =>
    let s := match e.2.what, e.2.pages with
      | .atomic _ pa, x :: _ => setAt s fun a => { a with busy := a.busy.erase (wordKey x.1 (x.2 * 4096 + pa % 4096)) }
      | _, _ => s
    endAcc s e.1 e.2) s
  let lost := s.at'.waitq.flatMap fun e => e.2.filter fun x => x.2.1.hp == hp
  let s := lost.foldl (fun (s : State) (x : Pkt × Adm × Nat) => leave s x.2.1.mr) s
  let keep : Nat → List (Pkt × Adm × Nat) → List (Pkt × Adm × Nat) := fun _ l => l.filter fun x => x.2.1.hp != hp
  let s := setAt s fun a => { a with waitq := mfilter (mmap a.waitq keep) fun _ l => !l.isEmpty }
  s.tp.recs.foldl (fun (s : State) (e : Nat × Rec) =>
    match e.2.flag with
    | some f => if f.hp = hp then leave (setRec s e.1 { e.2 with flag := none }) f.mr else s
    | none => s) s

/-- A hot reset or surprise link-down of a port begins (R612, R472, R610): the port stops serving, its functions are
reset, its transaction owner is lost (R62) and GW_PORT and its decoders are cleared (R380).  Reads in flight end without
data, and posted writes end as R610 says, so that the accesses of the port leave. -/
def beginPortReset (s : State) (hp : Nat) : State :=
  let p := portOf s hp
  let s := setPort s hp { p with cfg := clearEnables p.cfg, resetting := true, flr := [] }
  let s := wrb (wrb s F.hiPortStatHotReset true hp) F.hiPortStatLinkUp false hp
  let s := refreshServing s hp
  let s := ownerLost s hp
  let s := resetFns s hp none
  let s := gwPortReset { s with csr := csrReset .hot (gwPortKey hp) s.csr } hp
  dropAccesses s hp

/-- HFUND of a port (Table 15-6): as a hot reset, and all configuration state, HI_PM, HI_VF_MAP, HI_WEDGED,
QM_CQ_STALL_LIMIT and the port's alias entries with it.  A wedged function is recovered (R471). -/
def beginHfund (s : State) (hp : Nat) : State :=
  let s := beginPortReset s hp
  let s := setPort s hp { portOf s hp with cfg := {}, flr := [], d3hot := [] }
  let own := fun key => decide (0x09010000 ≤ key) && decide (key < 0x09210000)
    && rd s F.atAliasHp ((key - 0x09010000) / 32) == hp
  { s with csr := csrReset .hfund (fun k => hiKey hp k || own k) s.csr }

/-- A port's reset is complete once nothing of its scope remains (R469). -/
def endPortReset (s : State) (hp : Nat) : State :=
  let p := portOf s hp
  if p.resetting && !portAccs s hp && fnsFree s hp none && !p.perstLow then
    refreshServing (wrb (setPort s hp { p with resetting := false }) F.hiPortStatHotReset false hp) hp
  else s

/-- A function answers no memory request: it is in FLR, wedged, in D3hot, or its port is being reset or fenced (R611). -/
def wedged (s : State) (hp fn : Nat) : Bool := bitAt (rd s F.hiWedgedFn (hp * 4 + fn / 64)) (fn % 64)

def fnSilent (s : State) (hp fn : Nat) : Bool :=
  let p := portOf s hp
  mhas p.flr fn || wedged s hp fn || p.d3hot.contains fn || p.resetting || blockDown s 0xA0 hp

/-- A function's BARs answer: its memory space is enabled (R611). -/
def fnEnabled (s : State) (hp fn : Nat) : Bool :=
  let c := (portOf s hp).cfg
  if fn = 0 then c.mse else c.vfEnable && c.vfMse && decide (fn ≤ c.numVfs)

/-- An FLR begun (Table 15-6); that of PF0 clears VF Enable, and so resets every VF, and the port's enables. -/
def beginFlr (s : State) (hp fn : Nat) : State :=
  let p := portOf s hp
  if fn = 0 then
    let s := setPort s hp { p with flr := [(0, s.timeNs)], cfg := clearEnables p.cfg }
    resetFns (ownerLost (refreshServing s hp) hp) hp none
  else resetFns (setPort s hp { p with flr := mset p.flr fn s.timeNs }) hp (some fn)

/-- The scope of an FLR under way. -/
def flrScope (fn : Nat) : Option Nat := if fn = 0 then none else some fn

/-- An FLR is complete once its function's objects are free (R469). -/
def endFlr (s : State) (hp fn : Nat) : State :=
  let p := portOf s hp
  if mhas p.flr fn && fnsFree s hp (flrScope fn) then
    setPort s hp { p with flr := mdel p.flr fn }
  else s

/-- An FLR not complete after 100 ms leaves its function wedged and is reported (R471). -/
def wedgeFlr (s : State) (hp fn : Nat) : State :=
  let p := portOf s hp
  match mget p.flr fn with
  | none => s
  | some _ =>
    let s := setPort s hp { p with flr := mdel p.flr fn }
    let j := hp * 4 + fn / 64
    let s := wr s F.hiWedgedFn (rd s F.hiWedgedFn j ||| 2 ^ (fn % 64)) j
    let s := wr s F.hiPortStatWedgedFns (rd s F.hiPortStatWedgedFns hp + 1) hp
    tell s (.fault 13 (hp * 256 + fn))

end Sys2Proof.Machine
end

