-- ==== Sys2Proof/Machine/Fc.lean ====
section
/-!
DEFINITION. Machine/Fc.lean: the fault collector (17): recording a fault and its reactions up to INT (R511, R512, R514),
broken wires (R508), the patina (R602), spare resources, management pairs (R518, R519), HBM stacks (R520 to R523) and the
watchdog (R525).
-/

namespace Sys2Proof.Machine

def setFc (s : State) (f : FcSt → FcSt) : State := { s with fc := f s.fc }

/-! ### The patina -/

/-- The key of a patina entry (R602): KIND and INDEX. -/
def patKey (kind index : Nat) : Nat := kind * 65536 + index

def patEntry (s : State) (kind index : Nat) : Nat := mgetD s.fc.patina (patKey kind index) 0

/-- A patina entry changed; failures, swaps and retirements reach flash at once, the other fields with the periodic write
(R602). -/
def setPat (s : State) (kind index v : Nat) (now : Bool) : State :=
  let k := patKey kind index
  setFc s fun f => { f with patina := mset f.patina k v, patinaFlash := if now then mset f.patinaFlash k v else f.patinaFlash }

/-- A field of a patina entry raised by one, no further than its largest value. -/
def bumpPat (s : State) (kind index lo width : Nat) (now : Bool) : State :=
  let v := patEntry s kind index
  setPat s kind index (putBits v lo width (satAdd width (bits v lo width) 1)) now

def markPat (s : State) (kind index b : Nat) : State := setPat s kind index (putBits (patEntry s kind index) b 1 1) true

/-- What is recorded (R602): 0 a lane retired, 1 a swap, 2 a recalibration, 3 a bank failed, 4 a bank served by B24, 5 a
corrected error of a bank, 6 a tile failed, 7 a stack failed, 8 an uncorrectable word of a stack, 9 a corrected one, 10 a
failure of a management pair, 11 a pair retired. -/
def notePatina (s : State) (kind i : Nat) : State :=
  match kind with
  | 0 => markPat s 1 i 63
  | 1 => bumpPat s 1 i 32 16 true
  | 2 => bumpPat s 1 i 0 32 false
  | 3 => markPat s 2 i 63
  | 4 => markPat s 2 i 62
  | 5 => bumpPat s 2 i 0 48 false
  | 6 => bumpPat (markPat s 3 i 63) 3 i 0 32 true
  | 7 => markPat s 4 i 63
  | 8 => bumpPat s 4 i 32 16 true
  | 9 => bumpPat s 4 i 0 32 false
  | 10 => bumpPat s 5 i 0 32 true
  | _ => markPat s 5 i 63

/-- Whether firmware runs: an active pair, not booting, and the management complex not held in reset (R518, R542). -/
def firmwareRuns (s : State) : Bool := s.fc.active.isSome && !s.fw.booting && !blockDown s 0x08 0

/-- PM_PATINA_DATA loaded from the patina; while firmware pauses it keeps the last value loaded (R602). -/
def loadPatina (s : State) : State :=
  if firmwareRuns s then
    let v := patEntry s (rd s F.pmPatinaIdxKind) (rd s F.pmPatinaIdxIndex)
    wr (setFc s fun f => { f with patinaRead := v }) F.pmPatinaDataData v
  else s

/-! ### Recording a fault -/

/-- The reaction set of a source in the layout of FC_REACT. -/
def reactOf (s : State) (src : Nat) : Nat := (csrRaw s (F.fcReactInt.key src)).toNat % 128

/-- ERROR_N follows the pending sources whose reaction includes ERRN (R514). -/
def refreshErrN (s : State) : State :=
  let low := (List.range 23).any fun i => bitAt (rd s F.fcPendSrc) i && bitAt (reactOf s i) 2
  setFc s fun f => { f with errLow := low }

/-- A freeze of the performance counters with its cause, the first standing (R597). -/
def freezePm (s : State) (cause : Nat) : State :=
  let s := { s with pm := { s.pm with frozen := true } }
  if rd s F.pmStatFrzCause = 0 then wr s F.pmStatFrzCause cause else s

/-- The reactions taken for a fault: those of its source, with a partial fence in place of BLK when the instance raises
again within 1 s of a block reset that it caused, CHIP alone of the resets when it is selected, and no INT while the source
is masked (R512). -/
def takenFor (s : State) (src inst : Nat) : Nat :=
  let r := reactOf s src
  let r := if bitAt (rd s F.fcMaskMask) src then putBits r 0 1 0 else r
  let again := match mget s.fc.blkAt (src * 65536 + inst) with
    | some t => decide (s.timeNs < t + 1000000000)
    | none => false
  if rd s F.fcSelftestSt = 1 then 0
  else if bitAt r 6 then putBits (putBits r 3 1 0) 4 2 0
  else if bitAt r 3 && again then putBits (putBits r 3 1 0) 4 2 (max 1 (bits r 4 2))
  else if bitAt r 3 && bits r 4 2 == 1 then putBits r 3 1 0
  else r

/-- One entry of FC_LOG (R512, R508). -/
def logFault (s : State) (src inst react : Nat) (wire : Bool) : State :=
  let i := rd s F.fcLogIdxNext
  let s := wr (wr (wrb (wr (wr s F.fcLogTimeUs (s.timeNs / 1000) i) F.fcLogSrc src i) F.fcLogWire wire i) F.fcLogReact react i)
    F.fcLogInst inst i
  let s := if i = 255 then wr s F.fcLogIdxWraps (rd s F.fcLogIdxWraps + 1) else s
  wr s F.fcLogIdxNext ((i + 1) % 256)

/-- The FAULT event (Table 17-3): at most one per source in 1 ms (R512). -/
def faultEvent (s : State) (src inst react : Nat) : State :=
  let due := match mget s.fc.lastEvent src with
    | some t => decide (t + 1000000 ≤ s.timeNs)
    | none => true
  if due then
    let s := setFc s fun f => { f with lastEvent := mset f.lastEvent src s.timeNs }
    eventPf0 s (0x80 + src * 2 ^ 8 + inst * 2 ^ 16 + react * 2 ^ 32) (s.timeNs / 1000 % 2 ^ 48)
  else s

/-- A fault recorded and its first reactions taken (R512 steps 1 and 2): FC_PEND, FC_SRC, FC_LOG, then ERRN, TRAP, INT. -/
def recordError (s : State) (src inst react : Nat) (wire : Bool) : State :=
  let s := wr s F.fcPendSrc (rd s F.fcPendSrc ||| 2 ^ src)
  let s := logFault (wr (inc s F.fcSrcCount 1 src) F.fcSrcLastInst inst src) src inst react wire
  let s := refreshErrN s
  let s := if bitAt react 2 && rdb s F.pmCtlFrzOnFault then freezePm s 3 else s
  let s := if bitAt react 1 then emit s (.trap src inst) else s
  if bitAt react 0 then faultEvent s src inst react else s

/-! ### Spare resources -/

/-- The stacks that FRAME says are present and that have not failed. -/
def liveStacks (dead : List Nat) (a : Arm) : List Nat := (List.range 4).filter fun h => a.stackPresent.contains h && !dead.contains h

/-- FC_SPARES brought into step with banks, tiles, stacks and the standby pair. -/
def refreshFcSpares (s : State) : State :=
  let banks := ((List.range 16).filter fun t => !rdb s F.swBankSpareUsed t && !bitAt (rd s F.swBankFailed t) 24).length
  let tiles := fun l => (l.filter fun sp => !spareUsed s sp && !s.eng.failed.contains sp).length
  let s := wr (wr (wr s F.fcSparesBanksFree banks) F.fcSparesTilesFree0 (tiles [48, 49])) F.fcSparesTilesFree1 (tiles [50, 51])
  wrb (wr (wrb s F.fcSparesStandby s.fc.standby.isSome) F.fcSparesStacksLive (liveStacks s.fc.deadStacks s.txn.arm).length) F.fcSparesRemirror
    s.fc.unmirrored

/-- The timers of the messages of some ECs restarted at their current RTO (R274). -/
def restartTimers (s : State) (ecs : List Nat) : State :=
  let f : Nat → Slot → Slot := fun _ m => if ecs.contains m.ec && m.timerAt.isSome then armTimer s m else m
  setTp s fun t => { t with slots := mmap t.slots f }

/-- An engine tile fails (R21, R22, R274): it is reported, a spare serves for it or its streams move, and the last spare used, or
none left, is reported too (SPARE_OUT). -/
def tileFailed (s : State) (p : Nat) : State :=
  if p ≥ 52 ∨ s.eng.failed.contains p = true then s
  else
    let ecs := (s.eng.streams.filter fun e => logicalOf s p == some e.2.tile && e.2.role == 0 && !e.2.waiting).map (·.2.key)
    let s := restartTimers (tell (tell (failTile s p).1 (.fault 5 p)) (.patina 6 p)) ecs
    let s := refreshFcSpares s
    let die := dieOf p
    if (if die = 0 then rd s F.fcSparesTilesFree0 else rd s F.fcSparesTilesFree1) = 0 then tell s (.fault 2 (16 + die)) else s

/-! ### Management pairs -/

/-- A pair's failures of the last 24 h. -/
def pairCount (s : State) (k : Nat) : Nat :=
  (s.fc.pairFails.filter fun e => e.1 == k && decide (s.timeNs < e.2 + 86400000000000)).length

/-- The active pair fails (R518, R519): the standby takes over; with none the device is left without firmware. -/
def pairFailed (s : State) : State :=
  match s.fc.active with
  | none => s
  | some k =>
    let s := setFc s fun f => { f with active := f.standby, standby := none, pairFails := f.pairFails ++ [(k, s.timeNs)] }
    refreshFcSpares (tell (tell s (.patina 10 k)) (.fault 8 k))

/-- A failed pair's self-test ends (R519): a pass makes it the standby, and one that has failed three times within 24 h is
retired. -/
def pairTested (s : State) (k : Nat) (ok : Bool) : State :=
  if 2 ≤ k ∨ s.fc.active = some k ∨ s.fc.standby = some k ∨ s.fc.retired.contains k = true then s
  else
    let s := if ok then s else
      tell (tell (setFc s fun f => { f with pairFails := f.pairFails ++ [(k, s.timeNs)] }) (.patina 10 k)) (.fault 8 k)
    if 3 ≤ pairCount s k then
      tell (tell (setFc s fun f => { f with retired := f.retired ++ [k] }) (.patina 11 k)) (.fault 2 0x40)
    else if ok && s.fc.standby.isNone then refreshFcSpares (setFc s fun f => { f with standby := some k })
    else s

/-! ### HBM stacks -/

/-- The stack that holds a word of a striped partition (R520), among those that FRAME says are present (Table 02-3); the hash that
spreads words, and FRAME's address mapping that it follows, are internal. -/
def stackOf (a : Arm) (k : Nat) : Nat :=
  nth a.stackPresent (Config.lineSet (k + a.hbmMap * 2 ^ 64) % max 1 a.stackPresent.length)

/-- The batches staged at a receiver and held at a sender on a stack (Table 17-4). -/
def dropStaging (s : State) (h : Nat) : State :=
  let s := s.cl.jobs.foldl (fun (s : State) (e : Nat × ExJobSt) =>
    let f : Nat → ExRecv → ExRecv := fun _ r => { r with staged := mfilter r.staged fun b _ => stackOf s.txn.arm b != h }
    let x := { e.2 with recvs := mmap e.2.recvs f }
    let x := { x with arrival := x.arrival.filter fun a => mhas (mgetD x.recvs a.1 {}).staged a.2 }
    let s := refreshEx (setJob s e.1 x)
    match x.batches.find? fun b => b.2.sent && stackOf s.txn.arm b.1 == h with
    | some b => failJob s e.1 1 b.2.dev
    | none => s) s
  if s.txn.stagedBytesOn.contains h then wr { s with txn := { s.txn with staged := none, stagedBytesOn := [] } } F.armStageSt 0 else s

/-- Dirty sectors on a stack that fails while new mirrors are still being built (R522): each may have had no mirror yet, a free choice, and
then its data is lost and it reads as poison (R513, R376; DEDUCED, log entry 77). -/
def unmirroredLost (s : State) (h : Nat) : State :=
  (s.gw.lines.filter fun e => stackOf s.txn.arm e.1 == h && !lineClean e.2).foldl (fun (s : State) (e : Nat × Line) =>
    let m := freeNat s
    let f : Nat → Sect → Sect := fun i x => if x.dirty && bitAt m i then { x with dirty := false, poison := true } else x
    refreshGw (setGw (drawn s) fun g => { g with lines := mset g.lines e.1 { e.2 with sects := mmap e.2.sects f } }) (lineSpan e.1)) s

/-- The far cache when a stack fails (Table 17-4): clean lines on it are dropped, dirty sectors go on from their mirrors. -/
def farCacheFails (s : State) (h : Nat) : State :=
  let spans := (s.gw.lines.filter fun e => stackOf s.txn.arm e.1 == h && lineClean e.2).map fun e => lineSpan e.1
  let s := setGw s fun g => { g with lines := mfilter g.lines fun k l => stackOf s.txn.arm k != h || !lineClean l }
  spans.foldl refreshGw (if s.fc.unmirrored then unmirroredLost s h else s)

/-- An HBM stack fails (R521, Table 17-4): clean far-cache lines and translations on it are dropped, mirrored words go on
from their mirrors, and new mirrors are begun where a further stack lives to hold them (R522).  The records of both rings that lay on it are lost (R604). -/
def stackFailed (s : State) (h : Nat) : State :=
  if (liveStacks s.fc.deadStacks s.txn.arm).contains h = false then s
  else
    let s := farCacheFails s h
    let s := setFc s fun f =>
      { f with deadStacks := f.deadStacks ++ [h], unmirrored := decide (2 ≤ (liveStacks (f.deadStacks ++ [h]) s.txn.arm).length) }
    let s := setXl s fun x => { x with l2 := mfilter x.l2 fun k _ => stackOf s.txn.arm k != h }
    let s := dropStaging s h
    let lostOf := fun (l : List (List Word)) => ((l.zipIdx).filter fun e => stackOf s.txn.arm e.2 == h).length
    let keep := fun (l : List (List Word)) => ((l.zipIdx).filter fun e => stackOf s.txn.arm e.2 != h).map fun e => e.1
    let s := inc (inc s F.pmStatSnapLost (lostOf s.pm.snaps)) F.pmSmpStatSmpLost (lostOf s.pm.samples)
    let s := { s with pm := { s.pm with snaps := keep s.pm.snaps, samples := keep s.pm.samples, shrunk := s.pm.shrunk + 1 } }
    let s := refreshFcSpares (tell (tell s (.patina 7 h)) (.fault 7 h))
    if (liveStacks s.fc.deadStacks s.txn.arm).length = 1 then tell s (.fault 2 0x30) else s

/-- The mirrors are complete again (R522). -/
def remirrored (s : State) : State := refreshFcSpares (setFc s fun f => { f with unmirrored := false })

/-! ### The watchdog -/

/-- Firmware restarts the watchdog (R525). -/
def restartWdog (s : State) : State := setFc s fun f => { f with wdogAt := s.timeNs }

/-- The period passes with no restart (R525): the standby takes over, or WATCHDOG is raised. -/
def wdogExpired (s : State) : State :=
  let s := restartWdog s
  match s.fc.standby with
  | some k =>
    if s.fc.active.isSome then pairFailed s
    else refreshFcSpares (setFc s fun f => { f with active := some k, standby := none })
  | none => tell (setFc s fun f => { f with active := none }) (.fault 22 0)

/-! ### Fences -/

/-- FC_FENCE and FC_SRC.FENCED brought into step with the partial fences; FENCE follows them and the full fence. -/
def refreshFences (s : State) : State :=
  let s := wr s F.fcFencePartial s.fc.fences.length
  let s := (List.range 23).foldl (fun s i => wrb s F.fcSrcFenced (s.fc.fences.any fun f => f.1 == i) i) s
  let full := rdb s F.fcFenceFull
  setFence s (full || !s.fc.fences.isEmpty) full

end Sys2Proof.Machine
end

