-- ==== Sys2Proof/Machine/Boot.lean ====
section
/-!
DEFINITION. Machine/Boot.lean: power-on and chip reset (R526, R527, R614, R615), the board record (R536), slot
verification (R538), the cold boot and BUILD (R24, R49, R220, R523, R539), and the passage to RUN (R31, Table 01-7).
-/

namespace Sys2Proof.Machine

def setFw (s : State) (f : FwSt → FwSt) : State := { s with fw := f s.fw }

/-! ### Resets -/

/-- What of a host port's state a chip reset leaves: the level of its PERSTn_N. -/
def portsAfterReset (s : State) : Map PortSt :=
  let f : Nat → PortSt → PortSt := fun _ p => { perstLow := p.perstLow }
  mmap s.hi.ports f

/-- A chip reset begins (Table 17-6, R614): every field reset by CHIP, and every object of the core; FC's POR registers and
ERROR_N, the always-on domain with supplies and cage channels (R581, R615), flash with the board record, the patina and the
fuses stay, and a slot that was VERIFIED stays so (R545).  The record of causes takes it in (R527). -/
def chipReset (s : State) (cause src inst : Nat) : State :=
  let n : State := { pending := s.pending, csr := csrReset .chip (fun _ => true) s.csr, out := s.out, free := s.free,
                     timeNs := s.timeNs,
                     hi := { ports := portsAfterReset s },
                     eng := { failed := s.eng.failed },
                     fc := { s.fc with fences := [], inReset := [], lastEvent := [], blkAt := [], wdogAt := s.timeNs,
                                       chipReset := true, unmirrored := false },
                     fw := { flash := s.fw.flash, boards := s.fw.boards },
                     pw := s.pw, cage := s.cage }
  let n := [0, 1].foldl (fun (n : State) x => if rd s F.fwSlotState x = 2 then csrPut n (F.fwSlotState.key x) (csrRaw s (F.fwSlotState.key x)) else n) n
  let n := wr (wr (wr n F.fcResetCauseCause cause) F.fcResetCauseSrc src) F.fcResetCauseInst inst
  emit (inc n F.fcResetCauseCount) (.chipReset cause)

/-- Power-on reset (R561, Table 17-6): everything but flash, patina, board record and fuses; PM_TIME starts at 0 (R593). -/
def powerOn (s : State) : State :=
  { pending := s.pending, csr := csrReset .por (fun _ => true) s.csr, out := s.out, free := s.free,
    hi := { ports := portsAfterReset s },
    eng := { failed := s.eng.failed },
    fc := { patina := s.fc.patinaFlash, patinaFlash := s.fc.patinaFlash, deadStacks := s.fc.deadStacks, retired := s.fc.retired,
            active := (if s.fc.retired.contains 0 then (if s.fc.retired.contains 1 then none else some 1) else some 0),
            standby := (if s.fc.retired.isEmpty then some 1 else none) },
    fw := { flash := s.fw.flash, boards := s.fw.boards } }

/-! ### The board record -/

/-- The copy that a boot reads: the one with the higher number (R536). -/
def boardNow (s : State) : Board :=
  match s.fw.boards with
  | [a, b] => if a.seq < b.seq then b else a
  | a :: _ => a
  | [] => {}

/-- The board record written: to the older copy, one number up (R536). -/
def writeBoard (s : State) (f : Board → Board) : State :=
  let b := { f (boardNow s) with seq := (boardNow s).seq + 1 }
  let s := setFw s fun w => { w with boards := match w.boards with
    | [x, y] => if x.seq < y.seq then [b, y] else [x, b]
    | _ => [b, b] }
  emit s (.flash (0x08000000 + (if (s.fw.boards.head?.map fun x => x.seq) = some b.seq then 0 else 0x40000)) 0x40000)

/-! ### Slot checks -/

/-- A little-endian field of an image's header: n bytes from an offset (Table 18-2). -/
def imgField (img : Image) (off n : Nat) : Nat := ofBytes ((img.head.drop off).take n)

def imgSvn (img : Image) : Nat := imgField img 12 4

def imgSigner (img : Image) : Nat := imgField img 20 1

/-- The components that an image's directory names (Table 18-2): up to three, an entry of ID 0 naming none. -/
def imgDir (img : Image) : List DirEntry :=
  ((List.range 3).map fun i => dirEntry (img.head.drop (256 + 64 * i)) (nth img.bodies i)).filter fun d => d.id != 0

/-- The checks of a slot's image in their order (R538, Table 18-3): VCAUSE, 0 when it is verified.  `enabled` is the mask of
armature signers that check 7 uses (R66). -/
def verifySlot (s : State) (enabled : Nat) (img : Image) : Nat :=
  let dir := imgDir img
  let f := imgField img
  let endOf := fun (d : DirEntry) => d.offset + d.length
  let apart := dir.all fun d => dir.all fun e => d.id == e.id || decide (endOf d ≤ e.offset) || decide (endOf e ≤ d.offset)
  let limit := fun i => if i = 1 then 0x800000 else if i = 3 then 0x1000000 else 0x4000000
  let dirOk := dir.all fun d => decide (d.id ≤ 3) && (dir.filter fun e => e.id == d.id).length == 1
    && decide (d.offset % 4096 = 0 ∧ 4096 ≤ d.offset) && decide (endOf d ≤ f 16 4) && decide (d.length ≤ limit d.id)
  let digestOk := fun i => dir.all fun d => d.id != i || d.digest == d.bodyDigest
  if img.readError then 7
  else if !img.present || decide (f 0 4 ≠ 0x57465446 ∨ f 4 2 ≠ 1 ∨ f 6 2 ≠ 0x0128 ∨ 0x4000000 < f 16 4)
    || !(dirOk && apart && decide (imgSvn img ≤ 64)) then 1
  else if 4 ≤ imgSigner img ∨ bitAt (rd s F.fwFuseFwProg) (imgSigner img) = false ∨ bitAt (rd s F.fwFuseFwRevoked) (imgSigner img) = true
    ∨ img.keyHashOk = false then 2
  else if imgSvn img < rd s F.fwFuseSvnMin then 5
  else if !img.sigOk then 3
  else if !(digestOk 1 && digestOk 2 && digestOk 3) then 4
  else match img.armature with
    | some a => if armCheck enabled a = 0 then 0 else 6
    | none => 6

/-- What an image makes the management cores run. -/
def runOf (img : Image) : RunImage :=
  let digest := fun i => (((imgDir img).find? fun d => d.id == i).map fun d => d.digest).getD 0
  { version := imgField img 8 4, svn := imgSvn img, signer := imgSigner img, digestFw := digest 1, digestMicro := digest 2 }

/-- A slot's verification shown in FW_SLOT (R538). -/
def showSlot (s : State) (x : Nat) (img : Image) (cause : Nat) : State :=
  let s := wr (wr (wr s F.fwSlotVersion (imgField img 8 4) x) F.fwSlotSvn (imgSvn img) x) F.fwSlotVcause cause x
  wr s F.fwSlotState (if !img.present then 0 else if cause = 0 then 2 else 3) x

/-! ### BUILD -/

/-- The HBM partitions that BUILD lays out on the live stacks, in MiB (R523): the far cache gives up 48 GiB for each lost
stack; with one live stack exchange staging shrinks to 16 GiB, the reserved partition to 4 GiB, and the far cache has 4. -/
def layHbm (hpart : List Nat) (lost : Nat) : List Nat :=
  match hpart with
  | [far, tr, ctx, ex, spill, lock, pm, res] =>
    if lost = 0 then hpart
    else if lost < 3 then [far - 49152 * lost, tr, ctx, ex, spill, lock, pm, res]
    else [4096, tr, ctx, 16384, spill, lock, pm, 4096]
  | l => l

/-- Retired lanes and failed banks of the patina left out again (R130, R190); a retired lane's spare trains on its pads and serves it. -/
def applyPatina (s : State) : State :=
  s.fc.patina.foldl (fun (s : State) (e : Nat × Nat) =>
    let i := e.1 % 65536
    if e.1 / 65536 = 1 ∧ bitAt e.2 63 = true ∧ i < 256 then
      let s := wr s F.lnStatFailCause 6 i
      let k := spareOf i
      if spareEnabled s k && (servedBy s k).isNone then useSpare s k i true .attempt
      else wr s F.lnStatPhase 8 i
    else if e.1 / 65536 = 1 ∧ bitAt e.2 63 = true ∧ i < 272 then
      setSpare s (i - 256) { spareSt s (i - 256) with enabled := false }
    else if e.1 / 65536 = 2 ∧ (bitAt e.2 63 || bitAt e.2 62) = true then
      let t := i / 32 % 16
      let s := wr s F.swBankFailed (rd s F.swBankFailed t ||| 2 ^ (i % 32)) t
      if i % 32 = 24 then
        if rdb s F.swBankSpareUsed t then wrb s F.swBankSpareUsed false t else setTile s t { tileSt s t with spareLost := true }
      else
      if bitAt e.2 62 then wr (wrb s F.swBankSpareUsed true t) F.swBankSpareFor (i % 32) t else s
    else s) s

/-- BUILD with the armature of the slot that boots (Table 02-6): FRAME, tiles with their spares (R24), HBM (R523), VCBUF,
ROLES, TABLES and FAULT; the device ID of the board record (R70), and BOOT_EPOCH one up (R220).  HBM is trained anew, so a staged armature
is gone and ARM_STAGE.ST reads EMPTY (DESIGN CHOICE, log entry 100). -/
def buildWith (s : State) (arm : Arm) (failedTiles : List Nat) : State :=
  let lost := 4 - (liveStacks s.fc.deadStacks arm).length
  let s := setTxn s fun t => { t with arm := { arm with hpart := layHbm arm.hpart lost }, resBuilt := arm.res, staged := none, stagedBytesOn := [],
                                      fetchLen := none }
  let s := showArm (setFw (wr s F.armStageSt 0) fun w => { w with slotArm := arm }) 0x3F
  let fresh := failedTiles.filter fun t => !s.eng.failed.contains t
  let s := fresh.foldl (fun s t => tell (tell s (.fault 5 t)) (.patina 6 t)) s
  let s := bootTiles s failedTiles
  let s := (diesOut s fresh).foldl (fun s d => tell s (.fault 2 (16 + d))) s
  let s := (List.range 16).foldl (fun s k => setSpare s k { spareSt s k with enabled := bitAt arm.spares k }) s
  let s := applyPatina s
  let s := refreshFcSpares (refreshSpares s)
  let b := boardNow s
  let s := writeBoard s fun b => { b with bootEpoch := (b.bootEpoch + 1) % 2 ^ 32 }
  let s := wr s F.rtStatBootEpoch (boardNow s).bootEpoch
  let s := if b.idValid then wr (wrb s F.topDeviceIdValid true) F.topDeviceIdId b.id else s
  let s := wr (restartWdog s) F.fcWdogPeriodMs 1000
  if lost = 3 then tell s (.fault 2 0x30) else s

/-- What the management cores run, and the slot that it came from. -/
def runSlot (s : State) (x : Nat) (img : RunImage) : State :=
  wr (setFw s fun w => { w with run := img }) F.fwStatRunning x

/-- RECOVERY entered (R31, R539, R550): the links are down. -/
def enterRecovery (s : State) : State := setBase s 0

/-- The cold boot (R49, R539): PREFERRED first, then the other slot; RECOVERY when the request flag is set or both fail. -/
def coldBoot (s : State) (a b : Image) (failedTiles : List Nat) : State :=
  let pref := (boardNow s).preferred
  let s := wr s F.fwStatPreferred pref
  if (boardNow s).recovery then enterRecovery s
  else
    let img := fun x => if x = 0 then a else b
    let mask := rd s F.fwFuseArmMask
    let first := verifySlot s mask (img pref)
    let s := showSlot s pref (img pref) first
    let go := fun (s : State) (x : Nat) =>
      match (img x).armature with
      | some m => buildWith (runSlot s x (runOf (img x))) (armOf m) failedTiles
      | none => s
    if first = 0 then go s pref
    else
      let second := verifySlot s mask (img (1 - pref))
      let s := showSlot s (1 - pref) (img (1 - pref)) second
      if second = 0 then go s (1 - pref) else enterRecovery s

/-- The device has booted in this BUILD: an armature is loaded. -/
def booted (s : State) : Bool := rd s F.armStatLoaded == 0x3F

/-- Whether a lane is in READY, on its own slice or on its spare. -/
def laneTrained (s : State) (n : Nat) : Bool := rd s F.lnStatPhase n == 6 || rdb s F.lnStatOnSpare n

/-- Whether a port unit counts as trained (R118): each of its lanes is in READY or FAILED. -/
def unitTrained (s : State) (p : Nat) : Bool := (unitLanes s p).all fun n => laneTrained s n || rd s F.lnStatPhase n == 8

/-- Whether a port unit has a live partner (Table 02-6 step 7): a lane of it has signal and has not failed. -/
def unitSeen (s : State) (p : Nat) : Bool :=
  (unitLanes s p).any fun n => laneTrained s n || decide (2 ≤ rd s F.lnStatPhase n ∧ rd s F.lnStatPhase n ≤ 5)

/-- BUILD's training is complete (R118, Table 01-7): every port unit with a live partner is trained. -/
def allTrained (s : State) : Bool := (portUnits s).all fun p => !unitSeen s p || unitTrained s p

/-- The fabric join begins (R219, Table 02-6 step 8), once a valid device ID stands (R70) and training is complete (R118). -/
def beginJoin (s : State) : State :=
  if baseOf s = 1 ∧ booted s = true ∧ rd s F.rtStatJoin = 0 ∧ rdb s F.topDeviceIdValid = true ∧ allTrained s = true then
    let s := { wr s F.rtStatJoin 1 with rt := { s.rt with joinAt := some s.timeNs } }
    joinCheck ((joinUnits s).foldl sendJoin s) false
  else s

/-- A supply warning of Table 19-3 stands. -/
def warningStands (s : State) : Bool :=
  rdb s F.pwStatVmonWarn || rdb s F.pwStatVsramWarn || rdb s F.pwStatVserdesWarn

/-- EARLY_WARN_N is low while BROWNOUT is active (R569). -/
def earlyWarnLow (s : State) : Bool := brownOn s

/-- BROWNOUT follows its sources (R499, R564). -/
def refreshBrown (s : State) : State :=
  setBrown s (rdb s F.knStatBrownSupply || rdb s F.knStatBrownPower || rdb s F.knStatBrownTherm)

/-- RELAY as the serving ports make it. -/
def runConds (s : State) : State := wrb s F.modeStatRelayAct (relayDue s)

/-- BUILD passes to RUN (Table 01-7): as SERVICE when no condition is active at once (R30), or with RELAY; A is KN_ALLOW_MAX and C is 0 (R493); a supply warning that
stands, or whose count has not completed, sets its source at once and is raised again (R615); blocks held through BUILD are
fenced (R32). A leave request of MODE_CTL is done (R36). -/
def enterRun (s : State) : State :=
  let s := wr (wr s F.knCreditAllowNj (rd s F.knAllowMaxNj)) F.knCreditPoolNj 0
  let s := if s.testReq = .leave then { wr s F.modeCtlReqSt 2 with testReq := .none } else s
  let s := changeConds s fun s => runConds (wr s F.modeStatBase 2)
  let s := if s.fc.fences.isEmpty && !rdb s F.fcFenceFull then s else refreshFences s
  let s := if warningStands s || !s.pw.recoverAt.isEmpty then wrb s F.knStatBrownSupply true else s
  let raise := fun (s : State) (b : Bool) (i : Nat) => if b then tell s (.fault 15 i) else s
  let s := raise (raise (raise s (rdb s F.pwStatVmonWarn) 0) (rdb s F.pwStatVsramWarn) 1) (rdb s F.pwStatVserdesWarn) 2
  modeEntry (refreshBrown s) (bit (noCondition s && !brownOn (refreshBrown s)) * 64)

end Sys2Proof.Machine
end

