-- ==== Sys2Proof/Machine/Fw.lean ====
section
/-!
DEFINITION. Machine/Fw.lean: download (R540, R541), activation, the health window and fallback (R542 to R549), recovery
(R550 to R552), fuses (R553, R554) and the attestation report (R558).
-/

namespace Sys2Proof.Machine

def actSt (s : State) : Nat := rd s F.fwStatActSt

def inRecovery (s : State) : Bool := baseOf s == 0

/-- LCK_BITS.FW_OWNER_LOCK. -/
def ownerLocked (s : State) : Bool := bitAt (csrRaw s 0x00102000).toNat 0

/-- The refusals of a download or an activation in the order of Table 18-4, 0 when none applies (R541; in RECOVERY without
MODE, TXN_OPEN and SETTLING, and with both slots inactive, R550). -/
def fwRefusal (s : State) (who : Who) (activation : Bool) (slot : Nat) (argOk : Bool) : Nat :=
  if ownerLocked s then 1
  else if !inRecovery s && (brownOn s || fenceOn s || baseOf s == 3) then 2
  else if !inRecovery s && (txnOpen s || txnSt s == 1) then 3
  else if !inRecovery s && rdb s F.rtStatSettling then 4
  else if s.fw.block.isSome || (actSt s != 0 && actSt s != 5 && actSt s != 6) then 5
  else if (!inRecovery s && slot == rd s F.fwStatRunning) || (activation && rd s F.fwSlotState slot == 0) then 6
  else if !isPf0 who then 11
  else if !argOk then 13
  else 0

/-! ### Download -/

/-- A block's offset and length (R540): multiples of 4 KiB, at most 64 KiB, inside the slot. -/
def blockOk (off len : Nat) : Bool :=
  off % 4096 == 0 && len % 4096 == 0 && decide (4096 ≤ len ∧ len ≤ 65536 ∧ off + len ≤ 0x4000000)

/-- A download asked for (R540): refused with its cause, or the block is being written. -/
def download (s : State) (who : Who) (slot off len : Nat) (hp : Option Nat) (data : List Byte) : State :=
  let c := fwRefusal s who false slot (blockOk off len)
  if c ≠ 0 then wr s F.fwDlStatCause c
  else
    let s := setFw s fun w => { w with block := some ⟨slot, off, len, hp, data⟩ }
    let s := wr (wr s F.fwDlStatSt 1) F.fwDlStatCause 0
    match hp with
    | some h => emit s (.hostRead h (rd s F.fwDlSrcAddr * 4096) len)
    | none => s

/-- Sectors of 4 KiB put into flash. -/
def programFlash : Nat → Nat → List Byte → Map (List Byte) → Map (List Byte)
  | 0, _, _, m => m
  | n + 1, sec, bs, m => programFlash n (sec + 1) (bs.drop 4096) (mset m sec (bs.take 4096))

/-- The block is erased, programmed and read back (R540); a read-back that differs raises FLASH (R536). -/
def blockWritten (s : State) (data : List Byte) (ok : Bool) : State :=
  match s.fw.block with
  | none => s
  | some b =>
    if !firmwareRuns s then s
    else
      let bs := match b.hp with
        | some _ => data
        | none => b.data
      let at' := b.slot * 0x4000000 + b.off
      let s := setFw s fun w => { w with block := none, flash := programFlash (b.len / 4096) (at' / 4096) bs w.flash }
      let s := emit (wr s F.fwSlotState 1 b.slot) (.flash at' b.len)
      if ok then wr (wr s F.fwDlStatSt 2) F.fwDlStatBlocks ((rd s F.fwDlStatBlocks + 1) % 2 ^ 32)
      else tell (wr (wr s F.fwDlStatSt 3) F.fwDlStatCause 12) (.fault 18 0)

/-! ### Activation -/

/-- A warm boot begun of a slot: firmware pauses (R542); that of an activation discards the staged armature (R51). -/
def beginWarm (s : State) (slot kind : Nat) : State :=
  let s := if kind = 1 then
      wr (setTxn s fun t => { t with staged := none, stagedBytesOn := [] }) F.armStageSt 0
    else s
  setFw s fun w => { w with booting := true, bootSlot := slot, bootKind := kind }

/-- An activation asked for (R541, R542, R551). -/
def activate (s : State) (who : Who) (slot : Nat) : State :=
  let c := fwRefusal s who true slot true
  if c ≠ 0 then wr s F.fwStatCause c
  else beginWarm (wr (wr (wr s F.fwStatActSt 1) F.fwStatCause 0) F.fwStatDeferred 0) slot 1

/-- The warm boot back to the slot that ran, with the cause that ends the activation (R546, R547). -/
def bootBack (s : State) (cause : Nat) : State :=
  let s := setFw s fun w => { w with newImage := none }
  beginWarm (wr (wr s F.fwStatCause cause) F.fwStatActSt 1) (rd s F.fwStatRunning) 3

/-- BROWNOUT or FENCE after acceptance and before the HOLD (R547). -/
def lateMode (s : State) : State :=
  if (actSt s = 1 ∨ actSt s = 2) ∧ s.fw.bootKind = 1 ∧ inRecovery s = false then bootBack s 9 else s

/-- A warm boot over: firmware runs again. -/
def endWarm (s : State) : State := setFw s fun w => { w with booting := false, bootKind := 0 }

/-- RECOVERY's ACTIVATE (R551): every check of Table 18-3 on the named slot; a slot that passes becomes PREFERRED, the
request flag clears, and BUILD starts. -/
def plinthDone (s : State) (img : Image) : State :=
  let x := s.fw.bootSlot
  let c := verifySlot s (rd s F.fwFuseArmMask) img
  let s := endWarm (showSlot s x img c)
  if c = 0 then
    let s := writeBoard s fun b => { b with preferred := x, recovery := false }
    setBase (wr (wr s F.fwStatPreferred x) F.fwStatActSt 5) 1
  else wr (wr s F.fwStatCause 7) F.fwStatActSt 6

/-- A warm boot ends with the verification of its slot (R543, R544). -/
def warmDone (s : State) (img : Image) : State :=
  let x := s.fw.bootSlot
  if !s.fw.booting || s.fw.bootKind = 4 || 2 ≤ actSt s then s
  else if inRecovery s then plinthDone s img
  else if s.fw.bootKind = 3 then wr (endWarm s) F.fwStatActSt 6
  else
    let c := verifySlot s (rd s F.armSignerEnable) img
    let s := showSlot s x img c
    let arm := (img.armature.map armOf).getD s.txn.arm
    if c = 0 then wr (setFw s fun w => { w with newImage := some (runOf img, arm) }) F.fwStatActSt 2
    else if s.fw.bootKind = 2 then
      tell (endWarm (wr (wr s F.fwStatCause 10) F.fwStatActSt 6)) (.fault 21 (rd s F.fwStatRunning))
    else wr (endWarm (wr s F.fwStatCause 7)) F.fwStatActSt 6

/-- The preparation ends and the HOLD of the swap begins (R543). -/
def swapHold (s : State) : State :=
  if actSt s = 2 ∧ baseOf s = 2 ∧ holdOn s = false ∧ s.fw.newImage.isSome = true then
    let s := setTxn s fun t => { t with swap := if s.fw.bootKind = 2 then .fallback else .activation }
    setHold (wr s F.fwStatActSt 3) true
  else s

/-- The switch of an activation's HOLD (R543): microcode, VCBUF, FAULT, and TABLES when it fits; the rest is deferred to the
next BUILD.  The health window opens. -/
def switchActivation (s : State) : State :=
  match s.fw.newImage with
  | none => s
  | some (run, b) =>
    let a := s.txn.arm
    let fits := tablesFit s b
    let differs := fun i => nth a.digests i != nth b.digests i
    let s := wr s F.fwStatDeferred (bit (differs 0) + bit (differs 2) * 2 + bit (differs 3 || !fits) * 4)
    let old := rd s F.fwStatRunning
    let s := setFw s fun w => { w with prev := some (w.run, a, old), newImage := none, windowAt := some s.timeNs }
    let s := setFw s fun w => { w with prevSlotArm := w.slotArm, slotArm := b }
    let s := setTxn s fun t => { t with arm := takeSections a b (2 + 32 + (if fits then 16 else 0)) }
    let s := showArm s (rd s F.armStatLoaded)
    let s := runSlot s s.fw.bootSlot run
    endWarm (wr (wrb s F.fwHealthOk false) F.fwStatActSt 4)

/-- The switch of a fallback's HOLD (R544): the previous microcode and sections; FW_FALLBACK names the failed slot. -/
def switchFallback (s : State) : State :=
  match s.fw.prev with
  | none => s
  | some (run, a, slot) =>
    let failed := rd s F.fwStatRunning
    let cur := s.txn.arm
    let s := setTxn s fun t => { t with arm := takeSections cur a (2 + 32 + 16) }
    let s := showArm s (rd s F.armStatLoaded)
    let s := runSlot (setFw s fun w => { w with prev := none, newImage := none, slotArm := w.prevSlotArm }) slot run
    tell (endWarm (wr (wr s F.fwStatCause 10) F.fwStatActSt 6)) (.fault 21 failed)

/-- Health confirmed (R544): PREFERRED is the new slot. -/
def confirmHealth (s : State) : State :=
  let x := rd s F.fwStatRunning
  let s := writeBoard s fun b => { b with preferred := x }
  let s := setFw s fun w => { w with windowAt := none, prev := none, pendFall := false }
  wr (wr s F.fwStatPreferred x) F.fwStatActSt 5

/-- The new firmware sets FW_HEALTH.OK (R544). -/
def healthOk (s : State) : State :=
  if actSt s = 4 then
    let s := wrb s F.fwHealthOk true
    if rdb s F.fwCtlHostConfirm then s else confirmHealth s
  else s

/-- CONFIRM (R544). -/
def fwConfirm (s : State) : State :=
  if actSt s = 4 ∧ rdb s F.fwHealthOk = true ∧ rdb s F.fwCtlHostConfirm = true then confirmHealth s else s

/-- A fallback begun (R544), or put off while BROWNOUT or FENCE is active (R548). -/
def beginFall (s : State) : State :=
  if brownOn s || fenceOn s then setFw s fun w => { w with pendFall := true }
  else
    let slot := (s.fw.prev.map fun e => e.2.2).getD (1 - rd s F.fwStatRunning)
    beginWarm (wr (setFw s fun w => { w with windowAt := none, pendFall := false }) F.fwStatActSt 1) slot 2

/-- The health window ends without confirmation (R544, R548). -/
def windowOver (s : State) : State := if actSt s = 4 then beginFall s else s

/-- A fallback put off is begun once neither BROWNOUT nor FENCE is active (R548). -/
def resumeFall (s : State) : State :=
  if s.fw.pendFall && actSt s == 4 && !brownOn s && !fenceOn s then beginFall s else s

/-! ### Keys and fuses -/

/-- RECOVERY_REQ (R552). -/
def recoveryReq (s : State) (who : Who) (confirm : Nat) : State :=
  if ownerLocked s then wr s F.fwStatCause 1
  else if who ≠ .mgmt then wr s F.fwStatCause 11
  else if confirm = 0x0E5C then writeBoard s fun b => { b with recovery := true }
  else s

/-- COMMIT_SVN (R553). -/
def commitSvn (s : State) (who : Who) : State :=
  if ownerLocked s then wr s F.fwStatCause 1
  else if !isPf0 who then wr s F.fwStatCause 11
  else if actSt s = 5 then wr s F.fwFuseSvnMin (max (rd s F.fwFuseSvnMin) s.fw.run.svn)
  else s

/-- REVOKE_KEY (R554). -/
def revokeKey (s : State) (who : Who) (k confirm : Nat) : State :=
  let left := (List.range 4).filter fun i => i != k && bitAt (rd s F.fwFuseFwProg) i && !bitAt (rd s F.fwFuseFwRevoked) i
  if who ≠ .mgmt then wr s F.fwStatCause 11
  else if confirm = 0x0E5C ∧ s.fw.run.signer ≠ k ∧ left.isEmpty = false then
    wr s F.fwFuseFwRevoked (rd s F.fwFuseFwRevoked ||| 2 ^ k)
  else s

/-! ### Attestation -/

/-- Bytes 0 to 415 of the report (Table 18-8). -/
def reportBytes (s : State) (nonce : List Byte) : List Byte :=
  toBytes 2 1 ++ toBytes 2 512
    ++ toBytes 4 (rd s F.topDeviceIdId + bit (rdb s F.topDeviceIdValid) * 2 ^ 31)
    ++ toBytes 16 Config.serial ++ (nonce ++ List.replicate 32 0#8).take 32
    ++ toBytes 4 (rd s F.rtStatBootEpoch) ++ toBytes 1 (rd s F.modeStatMode)
    ++ toBytes 1 ((csrRaw s 0x00102000).toNat % 32 + bit s.fw.debugEver * 128)
    ++ toBytes 1 (rd s F.fwStatRunning + rd s F.fwStatPreferred * 2)
    ++ toBytes 1 (rd s F.fwFuseSvnMin)
    ++ toBytesBE 48 s.fw.run.digestFw ++ toBytesBE 48 s.fw.run.digestMicro
    ++ sha384 (s.txn.arm.digests.flatMap (toBytesBE 48))
    ++ toBytes 4 s.fw.run.version ++ toBytes 4 s.txn.arm.version ++ toBytes 8 s.txn.arm.buildId
    ++ toBytes 8 (rd s F.txnEpochEpoch) ++ List.replicate 184 0#8

/-- Bytes cut into 64-bit words. -/
def wordsOfBytes : Nat → List Byte → List Word
  | 0, _ => []
  | n + 1, bs => BitVec.ofNat 64 (ofBytes (bs.take 8)) :: wordsOfBytes n (bs.drop 8)

/-- n open words: signatures, whose keys the specification does not give. -/
def openWords : Nat → State → State × List Word
  | 0, s => (s, [])
  | n + 1, s =>
    let w := Config.freeValue s.free
    let r := openWords n (drawn s)
    (r.1, w :: r.2)

/-- ATTEST (R558): answered on the transports that FW_ID_POLICY allows, and not by the plinth; the code of a refusal is
open. -/
def attest (s : State) (i3c : Bool) (nonce : List Byte) : State :=
  let ok := !inRecovery s && (if i3c then rdb s F.fwIdPolicyAttestI3c else rdb s F.fwIdPolicyAttestVdm)
  if ok then
    let r := openWords 12 s
    emit r.1 (.mctp 0 (wordsOfBytes 52 (reportBytes s nonce) ++ r.2))
  else emit (drawn s) (.mctp (1 + freeNat s % 255) [])

end Sys2Proof.Machine
end

