-- ==== Sys2Proof/Machine/Kiln.lean ====
section
/-!
DEFINITION. Machine/Kiln.lean: the kiln's periods (R492 to R502): energy credits, BROWNOUT and its actions, VCORE and
AVSBus.
-/

namespace Sys2Proof.Machine

/-- VCORE written over AVSBus: the transaction succeeds, or it fails; the third failure in a row sets AVS_FAULT and is
reported (R497). While AVS_FAULT is set VCORE stays where it is. -/
def avsResult (s : State) (ok : Bool) : State :=
  if ok then wrb (setKn s fun k => { k with avsFails := 0 }) F.knStatAvsFault false
  else
    let n := s.kn.avsFails + 1
    let s := setKn s fun k => { k with avsFails := n }
    if n = 3 then tell (wrb s F.knStatAvsFault true) (.fault 14 0) else s

def writeVcore (s : State) (mv : Nat) : State := emit (wr s F.knStatVcoreMv mv) (.avs mv)

/-- The write of BROWN_MV when it is due and VCORE is above it (R500, R505). -/
def brownVcore (s : State) : State :=
  if !s.kn.brownWrite || rdb s F.knStatAvsFault then s
  else
    let s := setKn s fun k => { k with brownWrite := false }
    if rd s F.knVcoreBrownMv < rd s F.knStatVcoreMv then writeVcore s (rd s F.knVcoreBrownMv) else s

/-- The actions of BROWNOUT put in force, or ended (R500); they wait while HOLD is active (R39, R501). -/
def brownActions (s : State) : State :=
  if brownOn s && !s.kn.applied && !holdOn s then
    let s := setKn s fun k => { k with applied := true, brownWrite := true }
    brownVcore (wr s F.knCreditAllowNj 0)
  else if !brownOn s && s.kn.applied then setKn s fun k => { k with applied := false, brownWrite := false }
  else s

/-- A reading in two's complement of 8 bits. -/
def degrees (x : Nat) : Int := toSigned 8 x

/-- The hottest of some readings. -/
def hottest : List Nat → Nat
  | [] => 0
  | [x] => x % 256
  | x :: l => if degrees (hottest l) < degrees (x % 256) then x % 256 else hottest l

/-- The least of some speeds. -/
def slowest : List Nat → Nat
  | [] => 0
  | [x] => x
  | x :: l => min x (slowest l)

/-- Sensors, dies and rails shown (R492, KN_TEMP, KN_SPEED, PW_RAIL). -/
def showReadings (s : State) (temps speeds : List Nat) (rails : List (Nat × Nat)) : State :=
  let s := (temps.zipIdx).foldl (fun (s : State) (e : Nat × Nat) => if e.2 < 64 then wr s F.knTempTj e.1 e.2 else s) s
  let s := (speeds.zipIdx).foldl (fun (s : State) (e : Nat × Nat) => if e.2 < 8 then wr s F.knSpeedSpeed e.1 e.2 else s) s
  (rails.zipIdx).foldl (fun (s : State) (e : (Nat × Nat) × Nat) =>
    if e.2 < 8 then wr (wr s F.pwRailMv e.1.1 e.2) F.pwRailMa e.1.2 e.2 else s) s

/-- Sensors that rise to TJ_HARD or more, each reported once (R499). -/
def thermRises (s : State) (temps : List Nat) : State :=
  let hard : Int := rd s F.knThermTjHard
  let excess := (temps.zipIdx).filterMap fun (e : Nat × Nat) => if hard ≤ degrees (e.1 % 256) then some e.2 else none
  let new := excess.filter fun i => !s.kn.overHard.contains i
  new.foldl (fun s i => tell s (.fault 16 i)) (setKn s fun k => { k with overHard := excess })

/-- A and C at the end of a period (R493). -/
def credits (s : State) (p : Nat) : State :=
  let a0 : Int := rd s F.knCreditAllowNj
  let soft : Int := rd s F.knBudgetSoftW
  let a1 := a0 + (soft - (p : Int)) * 2500
  let a2 := max 0 (min a1 (rd s F.knAllowMaxNj : Int))
  let a := if s.kn.applied then 0 else a2
  let c := min (poolC s + a) (2 * a)
  wr (wr s F.knCreditAllowNj a.toNat) F.knCreditPoolNj (ofSigned 32 c)

/-- A kiln source sets (R499): counted also when BROWNOUT is already active. -/
def setSource (s : State) (f : Fld) : State :=
  if rdb s f then s else inc (wrb s f true) F.knCntBrownEntries

/-- The kiln's sources of BROWNOUT after a period (R499); they set in RUN only (R615). -/
def kilnSources (s : State) (p : Nat) : State :=
  let tj := degrees (rd s F.knStatTjMax)
  let hard := rd s F.knBudgetHardW
  let runs := if hard < p then s.kn.overRuns + 1 else 0
  let s := setKn s fun k => { k with overRuns := min runs 3 }
  if baseOf s ≠ 2 then s
  else
    let s := if 3 ≤ runs then setSource s F.knStatBrownPower else s
    let s := if (rd s F.knThermTjHard : Int) ≤ tj then setSource s F.knStatBrownTherm else s
    let calm := decide (p + 20 ≤ hard) && decide (tj ≤ (rd s F.knThermTjHard : Int) - 5)
    if !calm then setKn s fun k => { k with calmSince := none }
    else
      match s.kn.calmSince with
      | none => setKn s fun k => { k with calmSince := some s.timeNs }
      | some t =>
        if t + 1000000 ≤ s.timeNs then wrb (wrb s F.knStatBrownPower false) F.knStatBrownTherm false else s

/-- The classes that waited in the period (R494): 1 B1, 2 B2, 3 B3. -/
def deferShown (s : State) : State :=
  let m := s.kn.waited.foldl (fun n c => n ||| 2 ^ (c - 1)) 0
  let s := if m = 0 then s else inc s F.knCntDeferPeriods
  setKn (wr s F.knStatDefer m) fun k => { k with waited := [] }

/-- A kiln period (R492 to R494, R499 to R502): P in whole W, the sensors, the dies, the rails of Table 19-3 from 1 on. -/
def kilnPeriod (s : State) (p : Nat) (temps speeds : List Nat) (rails : List (Nat × Nat)) : State :=
  let s := showReadings s temps speeds rails
  let s := wr (wr (wr s F.knStatPW p) F.knStatTjMax (hottest temps)) F.knStatSpeed (slowest speeds)
  let s := wrb s F.knStatThermSoft (decide ((rd s F.knThermTjSoft : Int) < degrees (hottest temps)))
  let s := deferShown (credits s p)
  let s := kilnSources (thermRises s temps) p
  brownActions (lateMode (stopPrepIfBrown (refreshBrown s)))
where
  stopPrepIfBrown (s : State) : State := if brownOn s then stopPrep s else s

/-- HOLD keeps the kiln from lowering VCORE after a warning (R39). -/
def lowersLater (s : State) : Bool := holdOn s && brownOn s

/-- A step of VCORE every 100 µs (R496): none while BROWNOUT is in force or AVS_FAULT is set, none upward while THERM_SOFT is
set, and none before the first readback. -/
def vcoreStep (s : State) (ok : Bool) : State :=
  let v := rd s F.knStatVcoreMv
  let hot := rdb s F.knStatThermSoft
  let up := fun (s : State) (mv : Nat) => if hot then s else if ok then avsResult (writeVcore s mv) true else avsResult s false
  let down := fun (s : State) (mv : Nat) => if lowersLater s then s else if ok then avsResult (writeVcore s mv) true else avsResult s false
  if s.kn.applied || rdb s F.knStatAvsFault || v == 0 then s
  else if rd s F.knVcorePolicy = 0 then
    let t := rd s F.knVcoreSetMv
    if v < t then up s (min t (v + 5)) else if t < v then down s (max t (v - 5)) else s
  else
    let sp := rd s F.knStatSpeed
    let t := rd s F.knVcoreSpeedTgt * 10
    if sp + 10 < t ∧ v + 5 ≤ rd s F.knVcoreMaxMv then up s (v + 5)
    else if t + 10 < sp ∧ rd s F.knVcoreMinMv + 5 ≤ v then down s (v - 5)
    else if v < rd s F.knVcoreMinMv then up s (v + 5)
    else if rd s F.knVcoreMaxMv < v then down s (v - 5)
    else s

/-- A step down every 1 ms while THERM_SOFT is set (R496). -/
def thermStep (s : State) (ok : Bool) : State :=
  let v := rd s F.knStatVcoreMv
  if rdb s F.knStatThermSoft && !rdb s F.knStatAvsFault && !lowersLater s && decide (rd s F.knVcoreMinMv < v) then
    if ok then avsResult (writeVcore s (max (rd s F.knVcoreMinMv) (v - 5))) true else avsResult s false
  else s

/-- The readback of the regulator every 1 ms (R492): VCORE and the gain of the current sensors. -/
def avsCalibrate (s : State) (ok : Bool) (mv gain : Nat) : State :=
  if rdb s F.knStatAvsFault then s
  else if ok then avsResult (setKn (wr s F.knStatVcoreMv mv) fun k => { k with gain := gain }) true
  else avsResult s false

/-- AVSBus tried again (R497, R505). -/
def avsRetry (s : State) (ok : Bool) (mv : Nat) : State :=
  if rdb s F.knStatAvsFault && ok then
    let s := avsResult (wr s F.knStatVcoreMv mv) true
    if brownOn s then brownVcore s else setKn s fun k => { k with brownWrite := false }
  else s

/-- Whether a KN register's value keeps the stated ranges (16 "Kiln registers"). -/
def knLegal (key : Nat) (w : Word) : Bool :=
  let g := fun lo width => wordGet w lo width
  if key = 0x00400000 then decide (100 ≤ g 16 10 ∧ g 16 10 ≤ 560 ∧ 100 ≤ g 0 10 ∧ g 0 10 ≤ g 16 10)
  else if key = 0x00400008 then decide (60 ≤ g 8 8 ∧ g 8 8 ≤ 100 ∧ 50 ≤ g 0 8 ∧ g 0 8 ≤ g 8 8)
  else if key = 0x00400010 then
    let mv := fun x => decide (600 ≤ x ∧ x ≤ 850 ∧ x % 5 = 0)
    let brown := g 36 10
    let hi := g 26 10
    let lo := g 16 10
    let set := g 6 10
    mv brown && mv hi && mv lo && mv set && decide (lo ≤ brown ∧ brown ≤ hi ∧ lo ≤ set ∧ set ≤ hi)
      && decide (50 ≤ g 48 8 ∧ g 48 8 ≤ 143) && decide (g 0 2 ≤ 1)
  else true

end Sys2Proof.Machine
end

