-- ==== Sys2Proof/Machine/Pm.lean ====
section
/-!
DEFINITION. Machine/Pm.lean: performance counters, snapshots, the drain of both rings, and precise sampling (20).
-/

namespace Sys2Proof.Machine

def setPm (s : State) (f : PmSt → PmSt) : State := { s with pm := f s.pm }

/-! ### Events (Table 20-1) -/

/-- The events of a block and whether each is a level, in the order of their codes from 1 (Table 20-1). -/
def pmEvents (block : Nat) : List Bool :=
  match block with
  | 0x04 => [true, true, true]
  | 0x20 => [false, false, true]
  | 0x30 => [false, true, false]
  | 0x40 => [false, false, true]
  | 0x50 => [false, false, true, false]
  | 0x58 => [false, true]
  | 0x60 => [false, false]
  | 0x68 => [false, false]
  | 0x70 => [false, false, true]
  | 0x80 => [false, false, false]
  | 0x88 => [false, false]
  | 0x90 => [false, true]
  | 0xA0 => [false, false, false]
  | 0xB0 => [false, false]
  | _ => []

/-- Whether a block and event are listed in Table 20-1. -/
def pmListed (block ev : Nat) : Bool := decide (1 ≤ ev) && decide (ev ≤ (pmEvents block).length)

/-- Whether an event is a level (L). -/
def pmLevel (block ev : Nat) : Bool := (pmEvents block).getD (ev - 1) false

/-- The role whose tiles are the instances of a block: MT, CL, EX, AT. -/
def pmRole (block : Nat) : Option Nat :=
  match block with
  | 0x58 => some 1
  | 0x80 => some 2
  | 0x88 => some 3
  | 0x90 => some 4
  | _ => none

/-- The instance of an event: of a role's block, the logical tile that serves the EC, group, job or word named. -/
def pmInst (s : State) (block key : Nat) : Nat :=
  match pmRole block with
  | some r => (tilesFor s r key).headD 0
  | none => key

/-! ### Counters (R595 to R597) -/

/-- A counter counts: PM_CTL.EN, its own EN, and no freeze (R597). -/
def pmRuns (s : State) (i : Nat) : Bool := rdb s F.pmCtlEn && rdb s F.pmSelEn i && !s.pm.frozen

/-- A counter raised by n (R596): it wraps to 0 past 48 bits with OVF, PM_OVF to PF0 of each serving port at most once in
1 ms, and a freeze while FRZ_ON_OVF is set (R597). -/
def pmAdd (s : State) (i n : Nat) : State :=
  let v := rd s F.pmCntValue i + n
  let s := wr s F.pmCntValue (v % 2 ^ 48) i
  if v < 2 ^ 48 then s
  else
    let s := wrb s F.pmCntOvf true i
    let may := match mget s.pm.ovfAt i with
      | some t => decide (t + ms 1 ≤ s.timeNs)
      | none => true
    let s := if rdb s F.pmSelOvfEvt i && may then
        eventPf0 (setPm s fun p => { p with ovfAt := mset p.ovfAt i s.timeNs }) (0x90 + i * 256) 0
      else s
    if rdb s F.pmCtlFrzOnOvf then freezePm s 2 else s

/-- Whether a counter selects an event of an instance. -/
def pmSelects (s : State) (i block ev inst : Nat) : Bool :=
  rd s F.pmSelBlock i == block && rd s F.pmSelEvent i == ev && (rd s F.pmSelInst i == 0xFF || rd s F.pmSelInst i == inst)

/-- An event of kind C with its value at every counter that selects it (R594, R595); a freeze that it causes comes after it (R597). -/
def pmCounted (s : State) (block ev key value : Nat) : State :=
  let inst := pmInst s block key
  let before := s
  (List.range 256).foldl (fun s i =>
    if pmRuns before i && pmSelects s i block ev inst then
      match rd s F.pmSelMode i with
      | 0 => pmAdd s i value
      | 1 => if rd s F.pmSelThr i ≤ value then pmAdd s i 1 else s
      | _ => s
    else s) s

/-- The level of one instance (Table 20-1). -/
def pmLevelOf (s : State) (block ev inst : Nat) : Nat :=
  match block, ev with
  | 0x04, 1 => rd s F.knStatPW
  | 0x04, 2 => rd s F.knStatTjMax
  | 0x04, 3 => rd s F.knStatSpeed
  | 0x20, 3 => (linkOf s inst).replay.length
  | 0x30, 2 => poolUsed s inst
  | 0x40, 3 => rd s F.rtE2eTotFlits
  | 0x50, 3 => mcount s.tp.slots fun _ m => m.tc == inst
  | 0x58, 2 => (s.mt.unexp.filter fun e => pmInst s 0x58 e.2.ec == inst).foldl (fun n e => n + e.2.units) 0
  | 0x70, 3 => mcount s.tp.slots fun _ m => match m.origin with
      | .window _ => m.ec == rd s F.gwPortEc inst
      | _ => false
  | 0x90, 2 => (s.at'.locks.filter fun e => pmInst s 0x90 e.1 == inst).foldl (fun n e => n + e.2.waiters.length) 0
  | _, _ => 0

/-- The instances of a block. -/
def pmInsts (s : State) (block : Nat) : List Nat :=
  match block with
  | 0x20 => portUnits s
  | 0x30 => List.range 16
  | 0x50 => List.range 8
  | 0x58 => orderOf s 1
  | 0x70 => [0, 1]
  | 0x90 => orderOf s 4
  | _ => [0]

/-- The level that a counter samples; INST 0xFF adds all instances (R594). -/
def pmSampled (s : State) (i : Nat) : Nat :=
  let block := rd s F.pmSelBlock i
  let ev := rd s F.pmSelEvent i
  let inst := rd s F.pmSelInst i
  if inst = 0xFF then (pmInsts s block).foldl (fun n k => n + pmLevelOf s block ev k) 0 else pmLevelOf s block ev inst

/-- The levels sampled at a tick of 100 ns (R594, R595). -/
def pmSampleLevels (s : State) : State :=
  let start := s
  (List.range 256).foldl (fun s i =>
    if pmRuns start i && pmLevel (rd s F.pmSelBlock i) (rd s F.pmSelEvent i) then
      let v := pmSampled s i
      let thr := rd s F.pmSelThr i
      let before := mgetD s.pm.levels i 0
      let s := setPm s fun p => { p with levels := mset p.levels i v }
      match rd s F.pmSelMode i with
      | 0 => pmAdd s i v
      | 1 => if thr ≤ v then pmAdd s i 1 else s
      | 2 => if before < thr ∧ thr ≤ v then pmAdd s i 1 else s
      | _ => s
    else s) s

/-! ### Snapshots and the rings (R598, R599) -/

/-- Snapshots and samples that the two rings hold: a quarter of the partition in records of 4 KiB and the rest in records of
64 bytes; each stack that fails takes a quarter of both (R604). -/
def snapRoom (s : State) : Nat := nth s.txn.arm.hpart 6 * 64 * (4 - s.pm.shrunk) / 4

def sampleRoom (s : State) : Nat := nth s.txn.arm.hpart 6 * 12288 * (4 - s.pm.shrunk) / 4

/-- The 512 words of a snapshot record (Table 20-3). -/
def snapRecord (s : State) : List Word :=
  [BitVec.ofNat 64 s.pm.snapSeq, BitVec.ofNat 64 s.timeNs] ++ List.replicate 30 0
    ++ ((List.range 256).map fun i => BitVec.ofNat 64 (rd s F.pmCntValue i + bit (rdb s F.pmCntOvf i) * 2 ^ 63))
    ++ List.replicate 224 0

/-- A snapshot taken (R598): it overwrites the oldest undrained one of a full ring, which counts in SNAP_LOST (R599). -/
def takeSnapshot (s : State) : State :=
  let l := s.pm.snaps ++ [snapRecord s]
  let excess := l.length - snapRoom s
  inc (setPm s fun p => { p with snaps := l.drop excess, snapSeq := p.snapSeq + 1 }) F.pmStatSnapLost excess

/-! ### The drain (R600) -/

/-- A write of PM_DRAIN_CMD (R600): refused while a drain runs, for a COUNT of 0, and from the management controller, whose
write came over no host port (log entry 44). -/
def drainCmd (s : State) (hp : Option Nat) (w : Word) : State :=
  let count := wordGet w 16 16
  if rd s F.pmDrainStatSt = 1 ∨ count = 0 then refuseWrite s
  else if !bitAt w.toNat 0 then s
  else
    match hp with
    | none => refuseWrite s
    | some hp => wr (setPm s fun p => { p with drain := some (wordGet w 8 1, count, hp) }) F.pmDrainStatSt 1

/-- The copies of a drain are posted: the oldest COUNT records of its ring, in order, and each is freed (R600). -/
def drainDone (s : State) : State :=
  match s.pm.drain with
  | none => s
  | some (ring, count, hp) =>
    let l := if ring = 0 then s.pm.snaps else s.pm.samples
    let n := min count l.length
    let addr := rd s F.pmDrainAddrAddr * 64
    let s := if serving s hp && decide (0 < n) then emit s (.hostWords hp addr (l.take n).flatten) else s
    let s := setPm s fun p => { p with drain := none, snaps := if ring = 0 then p.snaps.drop n else p.snaps,
                                       samples := if ring = 0 then p.samples else p.samples.drop n }
    wr (wr s F.pmDrainStatSt 2) F.pmDrainStatCopied n

/-! ### Freeze (R597) and PM_CTL -/

/-- A write of PM_CTL: FREEZE freezes or resumes, SNAP takes a snapshot and reads 0 again, and a PERIOD_US that starts or
changes begins its count. -/
def pmCtlWrite (s : State) (w : Word) : State :=
  let before := rd s F.pmCtlPeriodUs
  let period := wordGet w 16 16
  if 1 ≤ period ∧ period ≤ 9 then refuseWrite s
  else
    let s := csrPlain s 0x500000 (wordSet w 2 1 0)
    let s := if before = period then s else setPm s fun p => { p with snapAt := s.timeNs }
    let s := if bitAt w.toNat 1 then freezePm s 1
      else wr (setPm s fun p => { p with frozen := false }) F.pmStatFrzCause 0
    if bitAt w.toNat 2 then takeSnapshot s else s

/-- A write of PM_SEL: a block or event that Table 20-1 does not list, or a MODE that R595 does not, refuses it. -/
def pmSelWrite (s : State) (key : Nat) (w : Word) : State :=
  if pmListed (wordGet w 8 8) (wordGet w 0 8) && decide (wordGet w 61 2 ≤ 2) then
    setPm (csrPlain s key w) fun p => { p with levels := mdel p.levels ((key - 0x501000) / 8) }
  else refuseWrite s

/-! ### Precise sampling (R601) -/

/-- The operations to the next sample: an open draw from PERIOD/2 to 3 x PERIOD/2, at least one. -/
def sampleGap (s : State) : Nat :=
  let n := rd s F.pmSmpCfgPeriod
  max 1 (n / 2 + freeNat s % (3 * n / 2 - n / 2 + 1))

/-- A write of PM_SMP_CFG: refused while EN is 1 in the register, whatever it writes. -/
def smpCfgWrite (s : State) (w : Word) : State :=
  if rdb s F.pmSmpCfgEn || decide (4 < wordGet w 59 3) then refuseWrite s
  else
    let s := csrPlain s 0x500100 w
    drawn (setPm s fun p => { p with ops := [], left := sampleGap s })

/-- An operation begins (R601): of those that the filter considers, one in every interval is picked. -/
def sampleStart (s : State) (id : Nat) (i : List Nat) : State :=
  if rdb s F.pmSmpCfgFilterEn && nth i 0 != rd s F.pmSmpCfgFilterEc then s
  else if 1 < s.pm.left then setPm s fun p => { p with left := p.left - 1 }
  else
    let op : SampleOp := ⟨s.timeNs, 0, nth i 0, nth i 1, nth i 2, nth i 3, nth i 4, nth i 5, nth i 6⟩
    drawn (setPm s fun p => { p with ops := mset p.ops id op, left := sampleGap s })

/-- The eight words of a sample record (Table 20-2). -/
def sampleRecord (s : State) (x : SampleOp) (status : Nat) : List Word :=
  let wait := if x.slice = 0 then 0 else x.slice - x.start
  let w := fun (n : Nat) => BitVec.ofNat 64 n
  [w (rd s F.pmSmpCfgKind + x.op % 256 * 2 ^ 8 + x.ec % 2 ^ 20 * 2 ^ 16 + status % 16 * 2 ^ 40), w x.addr, w x.start,
    w ((s.timeNs - x.start) % 2 ^ 32 + wait % 2 ^ 32 * 2 ^ 32),
    w (x.src % 2 ^ 18 + x.dst % 2 ^ 18 * 2 ^ 18 + x.tc % 8 * 2 ^ 36), w (x.len % 2 ^ 31), 0, 0]

/-- An operation that was picked ends (R601): its record joins the ring, which when full follows SMP_CFG.WRAP (R599). -/
def sampleEnd (s : State) (id status : Nat) : State :=
  match mget s.pm.ops id with
  | none => s
  | some x =>
    let s := setPm s fun p => { p with ops := mdel p.ops id }
    let l := s.pm.samples
    if sampleRoom s ≤ l.length ∧ rdb s F.pmSmpCfgWrap = false then inc s F.pmSmpStatSmpLost
    else
      let excess := l.length + 1 - sampleRoom s
      let s := inc (setPm s fun p => { p with samples := (l ++ [sampleRecord s x status]).drop excess }) F.pmSmpStatSmpLost excess
      wr s F.pmSmpStatRecords ((rd s F.pmSmpStatRecords + 1) % 2 ^ 32)

/-- A step of a watched operation; a freeze stops sampling (R597). -/
def sampleStep (s : State) (phase id : Nat) (i : List Nat) : State :=
  if s.pm.frozen || !rdb s F.pmSmpCfgEn then s
  else
    match phase with
    | 0 => sampleStart s id i
    | 1 => setPm s fun p => { p with ops := mmap p.ops (fun _ x => if x.slice = 0 ∧ x.ec = nth i 0 then { x with slice := s.timeNs } else x) }
    | 2 => sampleEnd s id (nth i 0)
    | _ => setPm s fun p => { p with ops := mmod p.ops id fun x =>
        { x with op := nth i 1, addr := nth i 2, src := nth i 3, dst := nth i 4, tc := nth i 5, len := nth i 6 } }

end Sys2Proof.Machine
end

