-- ==== Sys2Proof/Machine/Arrive.lean ====
section
/-!
DEFINITION. Machine/Arrive.lean: arrivals at the ejection port (08 R236, 09, 11, 14): the checks in their order, placement,
the ends of page walks and of accesses to host memory, and responses at the requester.
-/

namespace Sys2Proof.Machine

/-! ### The ejection port -/

/-- A packet taken in by its TP channel: it leaves the receive buffer of its ejection port (R609). -/
def takeIn (s : State) (p : Pkt) : State := { s with sw := { s.sw with handed := s.sw.handed.eraseP fun e => e.2 == p } }

/-- DATA_LEN of a SEND's prefix (Table 09-1). -/
def sendDataLen (p : Pkt) : Nat := bits (payWord p 1) 36 17

/-- DATA_LEN of the message that a record's SEND belongs to, once PSN 0 has been matched or queued. -/
def knownLen (s : State) (p : Pkt) : Option Nat :=
  match (mget s.tp.recs (recKey p.src p.msgid)).bind (·.place) with
  | some id =>
    match mget s.mt.recvs id, mget s.mt.unexp id with
    | some r, _ => some r.dataLen
    | none, some u => some u.dataLen
    | none, none => none
  | none => none

/-- Whether the packets of a SEND that came before its PSN 0 fit its DATA_LEN (R287). -/
def earlyFits (s : State) (p : Pkt) : Bool :=
  let k := recKey p.src p.msgid
  let n := sendDataLen p
  let last := (mget s.tp.recs k).bind (·.last)
  (mgetD s.mt.early k []).all fun e =>
    if last = some e.1 then e.1 * 4096 + e.2.length == 16 + n else decide (e.1 * 4096 + 4096 < 16 + n)

/-- The format of a SEND (R287): DATA_LEN at most 65,520, and the message length 16 + DATA_LEN; a PSN 0 that does not fit what came before it
is the one found bad. -/
def sendFormatBad (s : State) (p : Pkt) : Bool :=
  let fits := fun (n : Nat) => if hasFlag p flLast then p.psn * 4096 + p.len == 16 + n else decide (p.psn * 4096 + 4096 < 16 + n)
  if p.psn = 0 then decide (65520 < sendDataLen p) || !fits (sendDataLen p) || !earlyFits s p
  else
    match knownLen s p with
    | some n => !fits n
    | none => false

/-- The format of a GET_REQ (R249): TOTAL_LEN and COUNT in their ranges. -/
def getFormatBad (p : Pkt) : Bool :=
  let w := payWord p 0
  let total := w % 2 ^ 31
  let count := bits w 31 7
  total == 0 || decide (0x40000000 < total) || count == 0 || decide (64 < count) || decide (total ≤ 4096 * p.psn)

/-- What a destination discards as a format error (R79, R91, R94, R249, R287, R430). -/
def badFormat (s : State) (p : Pkt) : Bool :=
  formatBad p || (p.op == opSend && sendFormatBad s p) || (p.op == opGetReq && getFormatBad p)
    || (p.op == opAtomic && atomicFormatBad p) || (p.op == opLock && decide (4 < payWord p 0 % 8))
    || (p.op == opPut && hasFlag p flFlag && (!hasFlag p flLast || decide (p.len < 16)))
    || (p.op == opMcPut && decide (65536 ≤ p.dst))

/-- The checks of an arriving packet that draw no answer, in their order (R88, R91, R86): none when it passes, else the state
with the drop counted. -/
def arrivalDrop (s : State) (p : Pkt) : Option State :=
  if 1000 < p.age then some (inc s F.rtPktDrop0Age)
  else if badFormat s p then some (inc s F.rtPktDrop1Format)
  else if p.stomp = 0xA5 then some (inc s F.rtPktDrop2Stomped)
  else if p.e2e ≠ e2eOf p then some (inc s F.rtPktDrop2E2eCrc)
  else none

/-- Every request draws ENDPOINT_UNAVAILABLE: in RELAY (R473), in a full fence (R516), with XL or MR fenced (R515), and
outside RUN. -/
def shutToArrivals (s : State) : Bool :=
  relayOn s || fullFence s || blockFenced s 0x60 0 || blockFenced s 0x68 0 || baseOf s != 2
    || enteringTest s

/-- The bit of OPS that an opcode needs (Table 08-2). -/
def opsBit (op : Nat) : Nat :=
  if op = opGetReq then 1 else if op = opSend ∨ op = opSendRts then 2 else if op = opAtomic then 3
  else if op = opLock then 4 else 0

/-- A FIN: KIND 1 of a SEND_RTS (Table 09-2). -/
def isFin (p : Pkt) : Bool := p.op == opSendRts && bits (payWord p 1) 36 2 == 1

/-! ### Placement of requests -/

/-- A NACK of the MR unit or of XL, counted for the performance counters. -/
def mrRefuse (s : State) (p : Pkt) (kind backoff : Nat) : State := refuse (pmCount s 0x68 0 2 1) p kind backoff

/-- Flag-hold entries in use (R261). -/
def flagHolds (s : State) : Nat := mcount s.tp.recs fun _ r => r.flag.isSome

/-- The flag effect (R260): the flag word is written, then TARGET_FLAG goes to the receive CQ of the target EC.  The fields
of TARGET_FLAG that a PUT does not carry (the user tag and the source EC) are open (log entry 47). -/
def flagEffect (s : State) (src : Nat) (r : Rec) (f : FlagHold) : State :=
  let s := writePieces s f.hp f.pieces (toBytes 8 f.value)
  let s := beginAcc s { what := .write, mr := f.mr, hp := f.hp, pages := f.pages }
  match rcqOf s r.ec with
  | some k =>
    let user := freeNat s
    let s := drawn s
    drawn (complete s k (cqe 0x81 0 0 0 f.dataLen user f.off (src % 2 ^ 18 + freeNat s % 2 ^ 20 * 2 ^ 18)))
  | none => s

/-- A record after n more data bytes of a flagged message: the flag effect once every byte is placed. -/
def flagReady (p : Pkt) (r : Rec) (n : Nat) : Option FlagHold :=
  let f := if hasFlag p flFlag then
      some (⟨p.psn, payWord { p with payload := p.payload.drop (p.len - 16) } 0 % 2 ^ 46, 0, p.psn * 4096 + p.len - 16, 0, [], none, [], false⟩ : FlagHold)
    else r.flag
  match f with
  | some f => if r.bytes + n = f.dataLen then some f else none
  | none => none

/-- A PUT whose spans are translated placed (R259, R260, R337): the data at once; the flagged packet takes a flag-hold entry,
and the last byte of the message applies the flag effect before the ACK. -/
def placePut (s : State) (p : Pkt) (a : Adm) (l : List (Nat × Nat)) : State :=
  let k := recKey p.src p.msgid
  match mget s.tp.recs k with
  | none => leave s a.mr
  | some r =>
    let flagged := hasFlag p flFlag
    let n := if flagged then p.len - 16 else p.len
    if flagged && decide (4096 ≤ flagHolds s) then refuse (inc (leave s a.mr) F.tpCnt3FlagNack) p 2 (rd s F.tpNackCfgFlagUs)
    else if (flagReady p r n).isSome && rcqBlocked s p.ec then refuse (leave s a.mr) p 1 20
    else
      let dp := match a.spans with
        | [] => 0
        | x :: _ => (piecesOf x.1 x.2).length
      let s := writePieces s a.hp (l.take dp) (p.payload.take n)
      let s := beginAcc s { what := .write, mr := if flagged then none else a.mr, hp := a.hp, pages := pagesOf a }
      let tail := { p with payload := p.payload.drop (p.len - 16) }
      let f := if flagged then
          some (⟨p.psn, payWord tail 0 % 2 ^ 46, payWord tail 1, p.psn * 4096 + n, a.hp, l.drop dp, a.mr, pagesOf a, false⟩ : FlagHold)
        else r.flag
      let s := if flagged then inc s F.tpCnt3FlagHold else s
      match f with
      | some h =>
        if r.bytes + n = h.dataLen then
          let s := flagEffect (setRec s k { r with flag := none, ce := r.ce || (h.ce && h.psn != p.psn) }) p.src r h
          placePsn s p n true
        else placePsn (setRec s k { r with flag := some h }) p n false
      | none => placePsn s p n false

/-- A request refused by a hard fault (R316): ACCESS_DENIED, or for a SEND into a matched receive PLACE_ERROR of that
receive, whose packet counts as placed. -/
def hardArrival (s : State) (p : Pkt) (a : Adm) (kind level dva : Nat) : State :=
  let s := recordFault (leave s a.mr) p.ec a.dom a.cls level kind dva
  match a.recv with
  | some id =>
    let s := match mget s.mt.recvs id with
      | some r => copiedAll (setRecv s id { r with failed := true, pend := [], got := r.got + p.len - (if p.psn = 0 then 16 else 0) }) id
      | none => s
    settleRecv (placePsn s p p.len (p.psn == 0)) id
  | none =>
    if p.op = opMcPut then s else mrRefuse (inc s F.mrCnt0AccessDenied) p 8 0

/-- A request that meets a paging fault (R339, R342, R343): PAGE_WAIT, or ACCESS_DENIED on a FAILED page. -/
def pagingArrival (s : State) (p : Pkt) (a : Adm) (kind level dva : Nat) : State :=
  let s := recordFault (leave s a.mr) p.ec a.dom a.cls level kind dva
  let wait := fun (s : State) => if p.op = opMcPut then s else mrRefuse (inc s F.mrCnt2PageNack) p 3 (rd s F.mrPageCfgBackoffUs)
  match pageFault s a.dom (dva / 4096) kind a.cls with
  | (s, some e) => if e.2.failed && p.op != opMcPut then mrRefuse (inc s F.mrCnt0AccessDenied) p 8 0 else wait s
  | (s, none) => wait (inc s F.mrCnt2FaultFull)

/-- The data of packet p of a SEND, without the prefix (R275). -/
def sendData (p : Pkt) : List Byte := if p.psn = 0 then p.payload.drop 16 else p.payload

/-- A request whose spans are translated acted on. -/
def placeArrival (s : State) (p : Pkt) (a : Adm) (l : List (Nat × Nat)) : State :=
  match a.recv with
  | some id =>
    match mget s.mt.recvs id with
    | none => placePsn s p p.len (p.psn == 0)
    | some r =>
      let data := clip r (sendOff p.psn) (sendData p)
      let s := writePieces s a.hp l data
      let s := beginAcc s { what := .write, mr := none, hp := a.hp, pages := pagesOf a }
      let s := setRecv s id { r with got := r.got + (sendData p).length }
      settleRecv (placePsn s p p.len (p.psn == 0)) id
  | none =>
    if p.op = opPut then placePut s p a l
    else if p.op = opGetReq then
      beginAcc (readPieces s a.hp l) { what := .getRead p, mr := a.mr, hp := a.hp, pages := pagesOf a }
    else if p.op = opMcPut then
      beginAcc (writePieces s a.hp l p.payload) { what := .write, mr := a.mr, hp := a.hp, pages := pagesOf a }
    else
      match l with
      | (pa, _) :: _ => queueOp s p a pa
      | [] => leave s a.mr

/-- An admitted request translated (R337 step 7): a miss waits for a walk. -/
def translateArrival (s : State) (p : Pkt) (a : Adm) : State :=
  match translateAdm s a with
  | (s, .ok l) => placeArrival s p a l
  | (s, .miss dva) => awaitWalk s a.dom dva (.arrival p a)
  | (s, .hard k dva) => hardArrival s p a k 0 dva

/-- The checks of Table 11-3 (R337), after the alignment of an atomic or lock word (R428); a block reset of MR refuses with
RETRY_LATER (Table 17-7). -/
def regionArrival (s : State) (p : Pkt) (opLen : Nat) : State :=
  if blockDown s 0x68 0 then
    if p.op = opMcPut then s else refuse s p 1 (rd s F.mrPageCfgBackoffUs)
  else
    match mrCheck s p opLen with
    | .nack s kind b => if p.op = opMcPut then s else mrRefuse s p kind b
    | .admitted s a =>
      let dva := match a.spans with
        | [] => 0
        | x :: _ => x.1
      if 0 < opLen ∧ dva % opLen ≠ 0 then refuse (leave s a.mr) p 8 0
      else translateArrival s p a

/-! ### Sends (09) -/

/-- What an arriving SEND or RTS is matched by. -/
def matchOf (p : Pkt) : Match :=
  { comm := payWord p 1 % 65536, bits := payWord p 0, src := p.src, srcEc := bits (payWord p 1) 16 20 }

/-- The counters of a match: MATCH_POSTED, and OVF_MATCH in the overflow segment (R281). -/
def countMatch (s : State) (r : Recv) : State :=
  let s := inc s F.mtCnt0MatchPosted
  if r.onDie then s else inc s F.mtCnt1OvfMatch

/-- A packet of a SEND into its matched receive's buffer: the part inside the buffer is translated and placed (R284, R339). -/
def sendIntoRecv (s : State) (p : Pkt) (id : Nat) (r : Recv) : State :=
  let data := clip r (sendOff p.psn) (sendData p)
  if r.failed || data.isEmpty then
    settleRecv (placePsn (setRecv s id { r with got := r.got + (sendData p).length }) p p.len (p.psn == 0)) id
  else translateArrival s p (recvAdm s id r (sendOff p.psn) data.length)

/-- Whether a match that this packet makes or feeds would complete into a full receive CQ (R462). -/
def sendBlocked (s : State) (p : Pkt) : Bool := rcqBlocked s p.ec

/-- Data stored before PSN 0 given to the receive that has been matched (R284). -/
def giveEarly (s : State) (k id : Nat) : State :=
  let (s, early) := takeEarly s k
  let n := early.foldl (fun n (e : Nat × List Byte) => n + ceilDiv e.2.length 64) 0
  let s := setMt s fun m => { m with recvs := mmod m.recvs id fun r => { r with units := r.units + n } }
  refreshMt (early.foldl (fun (s : State) (e : Nat × List Byte) => giveData s id (sendOff e.1) e.2) s)

/-- PSN 0 of a SEND (R282 to R286): matched with the oldest posted receive that fits, else put on the unexpected list with
its units reserved, else refused with UNEXPECTED_FULL. -/
def sendFirst (s : State) (p : Pkt) (k : Nat) : State :=
  let a := matchOf p
  let n := sendDataLen p
  match findPosted s p.ec a with
  | some (id, r) =>
    if sendBlocked s p then refuse s p 1 20
    else
      let s := leftList (matched (countMatch s r) id r a n p.tc) { r with matched := true }
      let s := setTp s fun t => { t with recs := mmod t.recs k fun x => { x with place := some id } }
      let s := giveEarly s k id
      match mget s.mt.recvs id with
      | some r => sendIntoRecv s p id r
      | none => s
  | none =>
    let units := 1 + ceilDiv n 64
    let own := (mgetD s.mt.early k []).foldl (fun m (e : Nat × List Byte) => m + ceilDiv e.2.length 64) 0
    if unexpSize < unitsUsed s - own + units then refuse (unexpNack s p.ec) p 4 (rd s F.mtCfgBackoffUs)
    else
      let (s, early) := takeEarly s k
      let u : Unexp :=
        { ec := p.ec, src := p.src, srcEc := a.srcEc, bits := a.bits, comm := a.comm, dataLen := n, tc := p.tc, units := units,
          msgid := p.msgid, rts := none, data := mset early 0 (sendData p) }
      let id := s.mt.next
      let s := refreshMt (setMt s fun m => { m with unexp := mset m.unexp id u, next := id + 1 })
      let s := setTp s fun t => { t with recs := mmod t.recs k fun x => { x with place := some id } }
      placePsn s p p.len true

/-- A later packet of a SEND, or a PSN 0 whose match stands (R284, R339): into the matched receive, into the unexpected message, or, before PSN 0, into the
unexpected buffer under its record. -/
def sendLater (s : State) (p : Pkt) (k : Nat) (place : Option Nat) : State :=
  match place with
  | some id =>
    match mget s.mt.recvs id, mget s.mt.unexp id with
    | some r, _ =>
      if decide (r.dataLen ≤ r.got + (sendData p).length) && sendBlocked s p then refuse s p 1 20 else sendIntoRecv s p id r
    | none, some u =>
      placePsn (setMt s fun m => { m with unexp := mset m.unexp id { u with data := mset u.data p.psn (sendData p) } }) p p.len (p.psn == 0)
    | none, none => placePsn s p p.len (p.psn == 0)
  | none =>
    if unexpSize < unitsUsed s + ceilDiv p.len 64 then refuse (unexpNack s p.ec) p 4 (rd s F.mtCfgBackoffUs)
    else
      let s := refreshMt (setMt s fun m => { m with early := mset m.early k (mset (mgetD m.early k []) p.psn p.payload) })
      placePsn s p p.len false

/-- An RTS (R276, R283, R286, R289). -/
def rtsArrival (s : State) (p : Pkt) (k : Nat) : State :=
  let a := matchOf p
  let tag := bits (payWord p 1) 38 26
  let off := payWord p 2 % 2 ^ 46
  let key := payWord p 3 % 2 ^ 32
  let n := bits (payWord p 3) 32 31
  match findPosted s p.ec a with
  | some (id, r) =>
    if sendBlocked s p then refuse s p 1 20
    else
      let s := leftList (matched (countMatch s r) id r a n p.tc) { r with matched := true }
      let s := placePsn s p p.len true
      match mget s.mt.recvs id with
      | some r => startRdv s id r tag off key
      | none => s
  | none =>
    if unexpSize < unitsUsed s + 1 then refuse (unexpNack s p.ec) p 4 (rd s F.mtCfgBackoffUs)
    else
      let u : Unexp :=
        { ec := p.ec, src := p.src, srcEc := a.srcEc, bits := a.bits, comm := a.comm, dataLen := n, tc := p.tc, units := 1,
          msgid := p.msgid, rts := some (tag, off, key), data := [] }
      let s := refreshMt (setMt s fun m => { m with unexp := mset m.unexp m.next u, next := m.next + 1 })
      let s := setTp s fun t => { t with recs := mmod t.recs k fun x => { x with place := some (s.mt.next - 1) } }
      placePsn s p p.len true

/-- A FIN (R290): it completes the send whose entry has its tag, and frees the entry; a stray one is counted. -/
def finArrival (s : State) (p : Pkt) : State :=
  let tag := bits (payWord p 1) 38 26
  let status := payWord p 2 % 256
  let kind := bits (payWord p 2) 8 16
  let i := tag % 2 ^ 16
  let s := placePsn s p p.len true
  match mget s.mt.rdv i with
  | some r =>
    if r.gen ≠ tag / 2 ^ 16 then inc s F.mtCnt4StrayFin
    else
      let s := refreshMt (setMt s fun m => { m with rdv := mdel m.rdv i })
      let s := if status = 2 then descDone s r.origin 3 0 kind 0 0 0 else descDone s r.origin 0 0 0 r.len 0 0
      startWaiting (settleClose s r.ec)
  | none => inc s F.mtCnt4StrayFin

/-! ### The checks of R236 -/

/-- A request whose record check has passed handed to MR, MT or AT (R236 step 6).  A PSN 0 that has been matched, or queued, before is not
matched again (R283, R339). -/
def handRequest (s : State) (p : Pkt) (k : Nat) (r : Rec) (at' : Nat) : State :=
  let s := see s k p at'
  if p.op = opSend then (if p.psn = 0 ∧ r.place = none then sendFirst s p k else sendLater s p k r.place)
  else if p.op = opSendRts then (if isFin p then finArrival s p else rtsArrival s p k)
  else if p.op = opAtomic then regionArrival (seeOp s k) p (atomicSize p)
  else if p.op = opLock then regionArrival (seeOp s k) p 8
  else regionArrival s p 0

/-- A request whose context is at hand (R236 steps 3 to 6).  While its EC closes, only GETs of its rendezvous and FINs are
served (R302). -/
def deliverRequest (s : State) (p : Pkt) (at' : Nat) : State :=
  match ctxOf s p.ec with
  | none => if p.op = opMcPut then s else sendNack s p 5 0
  | some c =>
    let no := fun (kind : Nat) => if p.op = opMcPut then s else sendNack s p kind 0
    if shutToArrivals s || c.state != 1 || !serving s c.hp || !rangeServes s p.ec
        || (c.closing && p.op != opGetReq && !isFin p) then no 5
    else if !bitAt c.ops (opsBit p.op) then no 6
    else if p.op = opGetReq ∨ p.op = opMcPut then regionArrival s p 0
    else
      match recCheck s p at' with
      | .stop s => s
      | .go s k r => handRequest s p k r at'

/-! ### Responses at the requester -/

/-- What a message's result is translated with. -/
def msgAdm (s : State) (m : Slot) (dva len cls : Nat) : Adm :=
  match ctxOf s m.ec with
  | some c => { mr := none, dom := c.dom, hp := c.hp, fn := c.fn, pkrr := m.pkrr, cls := cls, spans := [(dva, len)], recv := none }
  | none => { mr := none, dom := 0, hp := 0, fn := 512, pkrr := 0, cls := cls, spans := [(dva, len)], recv := none }

/-- A message stalled on a page (R340, R342): on its fault-table entry, or, with the table full, until an entry is free
(entry number 4,096); a FAILED page ends it with the entry's KIND. -/
def stallMsg (s : State) (m : Slot) (dom page kind cls : Nat) : State :=
  match pageFault s dom page kind cls with
  | (s, some e) => if e.2.failed then endMsg s m 15 e.2.kind 0 else setSlot s { m with walking := false, stall := some e.1 }
  | (s, none) => setSlot s { m with walking := false, stall := some 4096 }

/-- An ATOMIC_RSP or LOCK_RSP that is placed: the holds record follows a LOCK_RSP, and the message ends (R262, R440). -/
def responsePlaced (s : State) (m : Slot) : State :=
  let s := if m.op = opLock then recordHold s m (ofBytes (((m.kept.getD []).drop 8).take 8) % 16) else s
  endMsg s m 0 0 0

/-- The result kept in a slot placed (R341): LOCAL_ERROR on a hard fault (R316); it waits for a walk or a page. -/
def placeKept (s : State) (m : Slot) : State :=
  match m.result, m.kept with
  | .dva a, some bs =>
    let adm := msgAdm s m a bs.length 1
    match translateAdm s adm with
    | (s, .ok l) =>
      let s := writePieces s adm.hp l bs
      let s := beginAcc s { what := .write, mr := none, hp := adm.hp, pages := pagesOf adm }
      responsePlaced s m
    | (s, .miss dva) => awaitWalk (setSlot s { m with walking := true }) adm.dom dva (.msg m.msgid)
    | (s, .hard k dva) => endMsg (recordFault s m.ec adm.dom 1 0 k dva) m 4 k 1
  | _, _ => responsePlaced s m

/-- An ATOMIC_RSP or LOCK_RSP (R247, R252, R264): the request is acknowledged and the result placed or kept. -/
def resultArrival (s : State) (m : Slot) (p : Pkt) (at' : Nat) : State :=
  if m.kept.isSome || m.finish.isSome then s
  else
    let s := if opAcked m then s else sampleFrom s m 0 0 at'
    let s := updateW s m (hasFlag p flEce) (unackedBytes m)
    let (s, m) := ackPsns s m [0]
    let m := { m with kept := some p.payload, timerAt := none }
    placeKept (setSlot s m) m

/-- Bytes put into a list at an offset, the list grown with zeros as needed. -/
def putAt (bs : List Byte) (off : Nat) (new : List Byte) : List Byte :=
  let b := bs ++ List.replicate (off - bs.length) 0
  b.take off ++ new ++ b.drop (off + new.length)

/-- A packet of a GET's data placed (R249): acknowledged, and the message ends with its last packet. -/
def getPlaced (s : State) (m : Slot) (p : Pkt) : State :=
  let s := updateW s m false p.payload.length
  let (s, m) := ackPsns s m [p.psn]
  if m.base = m.npkts then endMsg s m 0 0 0 else startWaiting (setSlot s m)

/-- A GET_RSP of an open message (R249, R316, R341): one already received is counted in DUP; its data goes to the result
buffer, or is kept for the window; a hard fault ends the message with LOCAL_ERROR. -/
def placeGetRsp (s : State) (m : Slot) (p : Pkt) : State :=
  if m.finish.isSome then s
  else if isAcked m p.psn || !mhas m.copies p.psn then inc s F.tpCnt2Dup
  else
    match m.result with
    | .dva a =>
      let adm := msgAdm s m (a + p.psn * 4096) p.payload.length 1
      match translateAdm s adm with
      | (s, .ok l) =>
        let s := writePieces s adm.hp l p.payload
        let s := beginAcc s { what := .write, mr := none, hp := adm.hp, pages := pagesOf adm }
        getPlaced s m p
      | (s, .miss dva) => awaitWalk s adm.dom dva (.arrival p adm)
      | (s, .hard k dva) => endMsg (recordFault s m.ec adm.dom 1 0 k dva) m 4 k 1
    | _ => getPlaced s { m with kept := some (putAt (m.kept.getD []) (p.psn * 4096) p.payload) } p

/-- The RTT sample of a GET_RSP as it arrives (R252): the packet sent is the GET_REQ, so only the response with the PSN of a request,
sent just once, gives one. -/
def sampleGetRsp (s : State) (m : Slot) (p : Pkt) (at' : Nat) : State :=
  match mget m.copies p.psn with
  | some c => if 0 < c.asked ∧ isAcked m p.psn = false then sampleFrom s m p.psn 0 at' else s
  | none => s

/-- A GET_RSP as it arrives. -/
def getRspArrival (s : State) (m : Slot) (p : Pkt) (at' : Nat) : State := placeGetRsp (sampleGetRsp s m p at') m p

/-- A response, ACK or NACK that arrived at a time, its sender's context at hand. -/
def deliverResponse (s : State) (p : Pkt) (at' : Nat) : State :=
  match slotOf s p.msgid with
  | none => lateResponse s p.msgid
  | some m =>
    if m.dst ≠ p.src then inc s F.tpLateRspStray
    else if m.finish.isSome then s
    else if p.op = opAck then ackMsg s m p at'
    else if p.op = opNack then nackMsg s m p
    else if p.op = opGetRsp then (if m.op = opGetReq then getRspArrival s m p at' else s)
    else if (p.op = opAtomicRsp ∧ m.op = opAtomic) ∨ (p.op = opLockRsp ∧ m.op = opLock) then resultArrival s m p at'
    else s

/-! ### Contexts (R231 to R236) -/

/-- A packet that arrived at a time, its context at hand. -/
def deliverPkt (s : State) (p : Pkt) (at' : Nat) : State := if opResponse p.op then deliverResponse s p at' else deliverRequest s p at'

/-- A packet whose context is not cached parked (R234, R235): with the group's buffer full a request draws RETRY_LATER and a
response is discarded. -/
def park (s : State) (ec : Nat) (p : Pkt) : State :=
  if 256 ≤ parkedIn s (ec % 8) then
    if opResponse p.op || p.op == opMcPut then s else sendNack (inc s F.tpCnt0ParkNack) p 1 (rd s F.tpNackCfgParkUs)
  else
    let s := if mhas s.tp.cache ec then s else pmCount s 0x50 p.tc 4 1
    let s := fetchCtx s ec
    setTp s fun t => { t with parked := mset t.parked ec (mgetD t.parked ec [] ++ [(s.timeNs, p)]) }

/-- An arrival on the transport: the checks of the packet, then R236. -/
def arrive (s : State) (p : Pkt) : State :=
  let s := takeIn s p
  match arrivalDrop s p with
  | some s => s
  | none =>
    let s := pmSample s 0 1 (arrivalId p) [p.ec, p.op, p.off, p.src, p.dst, p.tc, p.len]
    if opResponse p.op then
      match slotOf s p.msgid with
      | none => lateResponse s p.msgid
      | some m =>
        let s := work s 0 m.ec p.tc
        if cached s m.ec && !mhas s.tp.parked m.ec then deliverResponse s p s.timeNs
        else if rangeServes s m.ec then park s m.ec p
        else s
    else
      let s := work s 0 p.ec p.tc
      let s := if p.op = opSend ∨ p.op = opSendRts then work s 1 p.ec p.tc else s
      if shutToArrivals s || !rangeServes s p.ec then (if p.op = opMcPut then s else sendNack s p 5 0)
      else if cached s p.ec && !mhas s.tp.parked p.ec then deliverRequest s p s.timeNs
      else park s p.ec p

/-- Packets parked for ECs whose range can no longer be reached answered with ENDPOINT_UNAVAILABLE, a fetch under way given up (R272). -/
def dropParked (s : State) : State :=
  let dead := ((s.tp.cache.filter fun e => e.2.fetching && !rangeServes s e.1).map (·.1)
    ++ (s.tp.parked.filter fun e => !rangeServes s e.1).map (·.1)).eraseDups
  dead.foldl (fun (s : State) ec =>
    let l := mgetD s.tp.parked ec []
    let fetching : Nat → CacheEnt → Bool := fun k e => !(k == ec && e.fetching)
    let s := setTp s fun t => { t with parked := mdel t.parked ec, cache := mfilter t.cache fetching }
    l.foldl (fun (s : State) (x : Nat × Pkt) =>
      if opResponse x.2.op || x.2.op == opMcPut then s else sendNack s x.2 5 0) s) s

/-- Fetches that the full cache put off begun as it gets places (R232, R234). -/
def fetchParked (s : State) : State := s.tp.parked.foldl (fun (s : State) (e : Nat × List (Nat × Pkt)) => fetchCtx s e.1) s

/-- A fetched context arrives (R234): the EC's parked packets are processed in arrival order. -/
def contextFetched (s : State) (ec : Nat) : State :=
  match mget s.tp.cache ec with
  | none => s
  | some e =>
    if !e.fetching then s
    else if !rangeServes s ec then dropParked s
    else
      let l := mgetD s.tp.parked ec []
      let s := setTp s fun t => { t with cache := mset t.cache ec { e with fetching := false }, parked := mdel t.parked ec }
      l.foldl (fun (s : State) (x : Nat × Pkt) => deliverPkt s x.2 x.1) s

/-! ### Page walks (R309) -/

/-- A message that waited for a walk goes on, or stalls. -/
def msgWalked (s : State) (id : Nat) : State :=
  match slotOf s id with
  | none => s
  | some m =>
    let m := { m with walking := false }
    if m.kept.isSome ∧ (m.op = opAtomic ∨ m.op = opLock) then placeKept (setSlot s m) m else setSlot s m

/-- One waiter of a walk that ended with a translation: it translates afresh. -/
def resumeWaiter (s : State) (w : Waiter) : State :=
  match w with
  | .arrival p a =>
    if opResponse p.op then
      match slotOf s p.msgid with
      | some m => placeGetRsp s m p
      | none => s
    else translateArrival s p a
  | .msg id => msgWalked s id
  | .recv id =>
    match mget s.mt.recvs id with
    | some r => flushRecv (r.pend.length + 1) (setRecv s id { r with walking := false }) id
    | none => s
  | .coll g => tell (setGrp s g { grp s g with ops := mmap (grp s g).ops fun _ o => { o with walking := false } }) (.collRetry g)
  | .ring _ => s
  | .desc k => setHi s fun h => { h with wqs := mmod h.wqs k fun w => { w with walking := false } }

/-- A waiter of a walk that ended with a fault at its DVA: the fault is recorded with the access class and the EC, and the waiter ends or stalls. -/
def waiterFault (s : State) (w : Waiter) (dom dva kind level : Nat) : State :=
  let page := dva / 4096
  match w with
  | .arrival p a =>
    if opResponse p.op then
      match slotOf s p.msgid with
      | some m =>
        let s := recordFault s m.ec dom 1 level kind dva
        if pagingKind kind then
          match pageFault s dom page kind 1 with
          | (s, some e) => if e.2.failed then endMsg s m 4 kind 1 else setSlot s { m with stall := some e.1 }
          | (s, none) => setSlot s { m with stall := some 4096 }
        else endMsg s m 4 kind 1
      | none => s
    else if pagingKind kind then pagingArrival s p a kind level dva
    else hardArrival s p a kind level dva
  | .msg id =>
    match slotOf s id with
    | none => s
    | some m =>
      let cls := if m.kept.isSome || m.op == opGetReq || m.op == opAtomic || m.op == opLock then 1 else 0
      let s := recordFault s m.ec dom cls level kind dva
      if pagingKind kind then stallMsg s m dom page kind cls
      else if m.kept.isSome then endMsg s m 4 kind 1
      else endMsg s m 15 kind 0
  | .recv id =>
    match mget s.mt.recvs id with
    | none => s
    | some r =>
      let s := recordFault s r.ec dom 1 level kind dva
      let r := { r with walking := false }
      if pagingKind kind then
        match pageFault s dom page kind 1 with
        | (s, some e) =>
          if e.2.failed then settleRecv (copiedAll (setRecv s id { r with failed := true, pend := [] }) id) id
          else setRecv s id { r with stall := some e.1 }
        | (s, none) => setRecv s id { r with stall := some 4096 }
      else settleRecv (copiedAll (setRecv s id { r with failed := true, pend := [] }) id) id
  | .coll g =>
    let x := grp s g
    let walking := x.ops.filter fun o => o.2.walking
    let ec := match walking with
      | [] => 0
      | o :: _ => o.2.ec
    let s := recordFault s ec dom 1 level kind dva
    let fix := fun (s : State) (f : CollOp → CollOp) =>
      let g' : Nat → CollOp → CollOp := fun _ o => if o.walking then f { o with walking := false } else o
      tell (setGrp s g { grp s g with ops := mmap (grp s g).ops g' }) (.collRetry g)
    if pagingKind kind then
      match pageFault s dom page kind 1 with
      | (s, some e) =>
        if e.2.failed then fix s fun o => { o with failed := true, pend := [] } else fix s fun o => { o with stall := some e.1 }
      | (s, none) => fix s fun o => { o with stall := some 4096 }
    else fix s fun o => { o with failed := true, pend := [] }
  | .desc k =>
    (match mget s.hi.wqs k with
    | none => s
    | some w =>
      let s := setWq (recordFault s w.ec dom 0 level kind dva) k { w with walking := false }
      if pagingKind kind then
        match pageFault s dom page kind 0 with
        | (s, some e) =>
          if e.2.failed then tell s (.descFail k e.2.kind) else setWq s k { w with walking := false, stall := some e.1 }
        | (s, none) => setWq s k { w with walking := false, stall := some 4096 }
      else tell s (.descFail k kind))
  | .ring _ =>
    let s := recordFault s 0 dom 1 level kind dva
    if pagingKind kind then (pageFault s dom page kind 1).1 else s

/-- A walk ends (R309, R316): a translation is installed in L1 and L2, unless an invalidation cancelled the walk (R318), and
its waiters go on; a fault installs nothing. -/
def walkEnded (s : State) (id : Nat) (w : Walk) (e : WalkEnd) : State :=
  match e with
  | .leaf leaf =>
    let k := pageKey w.dom w.page
    let s := if w.cancelled then s else fillL2 (fillL1 s k leaf) k leaf
    w.waiters.foldl (fun s x => resumeWaiter s x.2) (endWalk s id)
  | .fault kind level => w.waiters.foldl (fun s x => waiterFault s x.2 w.dom x.1 kind level) (endWalk s id)

/-- Every running walk aborted (R325, Table 17-7 XL): those of a port, or all. -/
def abortWalks (s : State) (f : Walk → Bool) : State :=
  (s.xl.walks.filter fun e => f e.2).foldl (fun (s : State) (e : Nat × Walk) =>
    match mget s.xl.walks e.1 with
    | some w => walkEnded s e.1 w (.fault 4 3)
    | none => s) s

/-! ### Accesses to host memory (R338) -/

/-- The GET_RSP packets that answer a GET_REQ (R249). -/
def answerGet (s : State) (p : Pkt) (data : List Byte) : State :=
  let w := payWord p 0
  let total := w % 2 ^ 31
  let n := min (bits w 31 7) (ceilDiv total 4096 - p.psn)
  (List.range n).foldl (fun s i =>
    let q := p.psn + i
    sendReply s p.ec p.src p.tc opGetRsp (if ceilDiv total 4096 = q + 1 then flLast else 0) 0 q 0 p.msgid
      ((data.drop (i * 4096)).take (min 4096 (total - q * 4096)))) s

/-- An access has finished (R338): a write is posted; the reads of a GET_REQ or of an operation have returned `data`; or they
ended with poison, unsupported request or completer abort, which draws TARGET_ERROR (R513). -/
def accessFinished (s : State) (id : Nat) (data : List Byte) (ok : Bool) : State :=
  match mget s.mr.accs id with
  | none => s
  | some a =>
    let s := endAcc s id a
    match a.what with
    | .write => s
    | .getRead p => if ok then pmSample (answerGet s p data) 2 1 (arrivalId p) [0] else mrRefuse s p 11 0
    | .atomic p pa =>
      let k := match a.pages with
        | [] => 0
        | x :: _ => wordKey x.1 (x.2 * 4096 + pa % 4096)
      if ok then finishOp (pmSample s 2 1 (arrivalId p) [0]) p k a.hp pa (ofBytes (data.take 8))
      else
        let s := setAt s fun x => { x with busy := x.busy.erase k }
        drainOps ((mgetD s.at'.waitq k []).length + 1) (mrRefuse s p 11 0) k

end Sys2Proof.Machine
end

