-- ==== Sys2Proof/Machine/Supply.lean ====
section
/-!
DEFINITION. Machine/Supply.lean: supply monitors (R564 to R571), THERMTRIP (R585), and the cage-power channels (R573 to
R583).
-/

namespace Sys2Proof.Machine

def setPw (s : State) (f : SupplySt → SupplySt) : State := { s with pw := f s.pw }

/-! ### Supply monitors -/

/-- The warning bit and the sticky event bit of rails 0 VMON, 1 VSRAM, 2 VSERDES. -/
def setWarn (s : State) (rail : Nat) (b : Bool) : State :=
  if rail = 0 then wrb s F.pwStatVmonWarn b else if rail = 1 then wrb s F.pwStatVsramWarn b else wrb s F.pwStatVserdesWarn b

def railWarns (s : State) (rail : Nat) : Bool :=
  if rail = 0 then rdb s F.pwStatVmonWarn else if rail = 1 then rdb s F.pwStatVsramWarn else rdb s F.pwStatVserdesWarn

def setDip (s : State) (rail : Nat) : State :=
  if rail = 0 then wrb s F.pwEvtVmonDip true else if rail = 1 then wrb s F.pwEvtVsramDip true else wrb s F.pwEvtVserdesDip true

/-- The bus voltage as measured, in 10 mV, and its lowest value since the last read. -/
def showVmon (s : State) (cv : Nat) : State :=
  let low := rd s F.pwStatVmonMinCv
  wr (wr s F.pwStatVmonCv cv) F.pwStatVmonMinCv (if low = 0 then cv else min low cv)

def refreshRecovering (s : State) : State := wrb s F.pwStatRecovering !s.pw.recoverAt.isEmpty

/-- BROWNOUT's supply source and what follows from the condition (R564, R571). -/
def supplySource (s : State) (b : Bool) : State :=
  let s := refreshBrown (wrb s F.knStatBrownSupply (b && baseOf s == 2))
  brownActions (if brownOn s then lateMode (stopPrep s) else s)

/-- A supply falls below its warning level (R564, R567, R570): nothing on VMON while its pin is open (R568). -/
def supplyWarns (s : State) (rail cv : Nat) : State :=
  if 3 ≤ rail ∨ rail = 0 ∧ rdb s F.pwStatVmonOpen = true then s
  else
    let s := if rail = 0 then showVmon s cv else s
    let s := setDip (setWarn s rail true) rail
    let s := refreshRecovering (setPw s fun w => { w with recoverAt := mdel w.recoverAt rail })
    tell (supplySource s true) (.fault 15 rail)

/-- A supply rises above its rising level (R565): its 2 ms count starts, or starts again. -/
def supplyRises (s : State) (rail cv : Nat) : State :=
  if railWarns s rail ∨ mhas s.pw.recoverAt rail = true then
    let s := if rail = 0 then showVmon s cv else s
    refreshRecovering (setPw (setWarn s rail false) fun w => { w with recoverAt := mset w.recoverAt rail s.timeNs })
  else s

/-- A 2 ms count completes (R565): the supply source clears when no warning stands and no count runs. -/
def supplyRecovered (s : State) (rail : Nat) : State :=
  match mget s.pw.recoverAt rail with
  | none => s
  | some _ =>
    let s := refreshRecovering (setPw s fun w => { w with recoverAt := mdel w.recoverAt rail })
    if warningStands s || !s.pw.recoverAt.isEmpty then s else supplySource s false

/-- A supply below its reset level (R566): a chip reset that names the rail, or one that runs is held for it too. -/
def supplyReset (s : State) (rail : Nat) : State :=
  if 9 ≤ rail ∨ rail = 0 ∧ rdb s F.pwStatVmonOpen = true then s
  else
    let s := setPw (wrb s F.pwEvtSupplyReset true) fun w => { w with low := rail :: w.low.erase rail }
    if s.fc.chipReset then s else chipReset s 3 15 (0x0100 + rail)

/-- The test of the VMON pin (R568): a rise above 300 mV says that it is open. -/
def vmonTest (s : State) (rise : Nat) : State :=
  if 300 < rise then
    if rdb s F.pwStatVmonOpen then wrb s F.pwEvtVmonOpenSeen true
    else tell (wrb (wrb s F.pwStatVmonOpen true) F.pwEvtVmonOpenSeen true) (.fault 19 1)
  else wrb s F.pwStatVmonOpen false

/-! ### Cage-power channels -/

def cageOf (s : State) (c : Nat) : CageSt := mgetD s.cage c {}
def setCage (s : State) (c : Nat) (x : CageSt) : State := { s with cage := mset s.cage c x }
def cageState (s : State) (c : Nat) : Nat := rd s F.cgStatState c

/-- A channel's fault timer brought up to date (R575): up while LIMIT is set, down at one eighth of that rate while it is
clear, never below zero; in eighths of a ns. -/
def cageTimer (s : State) (c : Nat) : Nat :=
  let x := cageOf s c
  let dt := s.timeNs - x.timerAt
  if rdb s F.cgStatLimit c then x.timer + 8 * dt else x.timer - dt

def settleCage (s : State) (c : Nat) : State :=
  setCage s c { cageOf s c with timer := cageTimer s c, timerAt := s.timeNs }

/-- The check of a channel starts (R573); asked for while any supply warning stands, it waits (R581). -/
def cageCheck (s : State) (c : Nat) : State :=
  wr (setCage s c { cageOf s c with waits := warningStands s }) F.cgStatState 1 c

/-- The limit of the foldback in mA, from CSNSP and CVOUT in mV (R574): ILIM, or what keeps the FET within PLIM. -/
def cageILim (s : State) (c vin vout : Nat) : Nat :=
  min (rd s F.cgPlimIlimMa c) (rd s F.cgPlimPlim c * 10000 / max (vin - vout) 100)

/-- CG_STAT.LIMIT set or cleared (R574): while it is set the channel is held at the limit of its last measurement. -/
def setLimit (s : State) (c : Nat) (b : Bool) : State :=
  let held := if b then some (cageILim s c (rd s F.cgMeasVinMv c) (rd s F.cgMeasVoutMv c)) else none
  let s := settleCage s c
  wrb (setCage s c { cageOf s c with heldMa := held }) F.cgStatLimit b c

/-- The gate off and power good withdrawn. -/
def cageGateOff (s : State) (c : Nat) : State := wrb (setLimit s c false) F.cgStatPg false c

/-- A fault on a channel (R575, R576, R579): gate off, CAUSE, CWARN_N low and CAGE raised. -/
def cageTrip (s : State) (c cause : Nat) : State :=
  tell (wrb (wr (cageGateOff s c) F.cgStatCause cause c) F.cgStatCwarn true c) (.fault 17 c)

/-- A fault latched (R575 to R577): with AUTO and a retry left the channel waits in BACKOFF, else it stays in FAULT. -/
def cageFault (s : State) (c cause : Nat) : State :=
  let s := cageTrip s c cause
  if rdb s F.cgRetryAuto c && decide (rd s F.cgRetryUsed c < 3) then
    wr (setCage s c { cageOf s c with backoffAt := s.timeNs }) F.cgStatState 5 c
  else wr s F.cgStatState 6 c

/-- A channel turned off (R583): CAUSE stays for reading. -/
def cageOff (s : State) (c : Nat) : State :=
  let s := wr (cageGateOff s c) F.cgRetryUsed 0 c
  wr (wrb s F.cgStatCwarn false c) F.cgStatState 0 c

/-- A write of CG_CTL with a legal RAMP (R573, R577, R583): EN starts the check, clearing it turns the channel off, and CLEAR
ends a latched fault or refusal, from which an enabled channel starts again with its check. -/
def cageControl (s : State) (c : Nat) (ramp : Nat) (en clear : Bool) : State :=
  let was := rdb s F.cgCtlEn c
  let s := wrb (wr s F.cgCtlRamp ramp c) F.cgCtlEn en c
  let st := cageState s c
  let latched := st == 6 || st == 7
  if was && !en then cageOff s c
  else
    let s := if clear then
        let s := wr s F.cgRetryUsed 0 c
        if latched then wr (wrb (wr s F.cgStatCause 0 c) F.cgStatCwarn false c) F.cgStatState 0 c else s
      else s
    if en && (!was || (clear && latched)) then cageCheck (wr s F.cgStatCause 0 c) c else s

/-- The CAUSE of a channel's check, 0 when it passes (R573): 7 NO_BUS, 5 VOUT_NEG, 6 BACKFEED, 4 SENSE_REVERSED, 3 SENSE_OPEN.  A sense
voltage that is not negative but outside ±30 % refuses the channel with no CAUSE stated: the code is a free value (DESIGN CHOICE, log entry 111). -/
def cageCause (s : State) (c : Nat) (x : CageReads) : Nat :=
  let r := rd s F.cgPlimRsenseUohm c
  if x.csnsp < 2900 ∨ 3600 < x.csnsp then 7
  else if x.cvout ≤ -200 then 5
  else if (x.csnsp : Int) + 200 ≤ x.cvout then 6
  else if x.sense < 0 then 4
  else if 100 < x.fall then 3
  else if x.sense < 35 * r ∨ 65 * (r : Int) < x.sense then freeNat s % 15 + 1
  else 0

/-- The check ends (R573, R581): the sense amplifier is re-zeroed, and the channel ramps or is REFUSED. -/
def cageChecked (s : State) (c : Nat) (x : CageReads) : State :=
  if cageState s c ≠ 1 ∨ ((cageOf s c).waits && warningStands s) = true then s
  else
    let cause := cageCause s c x
    let s := drawn (setCage s c { cageOf s c with waits := false, zeroAt := s.timeNs })
    if cause = 0 then wr s F.cgStatState 2 c
    else tell (wrb (wr (wr s F.cgStatState 7 c) F.cgStatCause cause c) F.cgStatCwarn true c) (.fault 17 c)

/-- The ramp ends with LIMIT clear (R574): qualification begins (R578). -/
def cageRamped (s : State) (c : Nat) : State :=
  if cageState s c = 2 ∧ rdb s F.cgStatLimit c = false then
    wr (setCage s c { cageOf s c with qualAt := s.timeNs }) F.cgStatState 3 c
  else s

/-- The channel drives its gate. -/
def cageDrives (s : State) (c : Nat) : Bool := cageState s c == 2 || cageState s c == 3 || cageState s c == 4

/-- Limiting engages (R574, R579): power good falls first, then CWARN_N; an ON channel qualifies again. -/
def cageLimit (s : State) (c : Nat) : State :=
  if cageDrives s c = true ∧ rdb s F.cgStatLimit c = false then
    let pg := rdb s F.cgStatPg c
    let s := setLimit (wrb s F.cgStatPg false c) c true
    let s := if pg then wrb s F.cgStatCwarn true c else s
    if cageState s c = 4 then wr s F.cgStatState 3 c else s
  else s

/-- Limiting ends (R579): CWARN_N is released, and the 1 ms of R578 starts again. -/
def cageUnlimit (s : State) (c : Nat) : State :=
  if cageDrives s c = true ∧ rdb s F.cgStatLimit c = true then
    let s := wrb (setLimit s c false) F.cgStatCwarn false c
    setCage s c { cageOf s c with qualAt := s.timeNs }
  else s

/-- The fault timer reaches TIMER_US (R575). -/
def cageTimedOut (s : State) (c : Nat) : State :=
  if cageDrives s c = true ∧ rd s F.cgPlimTimerUs c * 8000 ≤ cageTimer s c then cageFault s c 1 else s

/-- A current above 2 x ILIM (R576), in any state: a channel that is OFF, in FAULT or REFUSED has no retry to wait for, and the fault
stays latched (log entry 56). -/
def cageShort (s : State) (c : Nat) : State :=
  if cageState s c = 0 ∨ 6 ≤ cageState s c then wr (cageTrip s c 2) F.cgStatState 6 c else cageFault s c 2

/-- The backoff ends (R577). -/
def cageRetry (s : State) (c : Nat) : State :=
  if cageState s c = 5 then
    cageCheck (wrb (wr s F.cgRetryUsed (rd s F.cgRetryUsed c + 1) c) F.cgStatCwarn false c) c
  else s

/-- 1 ms with LIMIT clear after the ramp (R578). -/
def cageGood (s : State) (c : Nat) : State :=
  if cageState s c = 3 ∧ rdb s F.cgStatLimit c = false ∧ (cageOf s c).qualAt + 1000000 ≤ s.timeNs then
    wrb (wr s F.cgStatState 4 c) F.cgStatPg true c
  else s

/-- A measurement every 10 µs (R580): voltages in mV, current in mA; power in 10 mW, and the energy added to CG_ENERGY; the limit of a
channel that is held follows it (R574). -/
def cageMeasure (s : State) (c vin vout iout : Nat) : State :=
  let s := wr (wr (wr s F.cgMeasVinMv vin c) F.cgMeasVoutMv vout c) F.cgMeasIoutMa iout c
  let s := wr s F.cgMeasP (min 65535 (vout * iout / 10000)) c
  let e := (cageOf s c).part + vout * iout * 10
  let held := if rdb s F.cgStatLimit c then some (cageILim s c vin vout) else none
  let s := setCage s c { cageOf s c with part := e % 10 ^ 9, heldMa := held }
  wr s F.cgEnergyMj ((rd s F.cgEnergyMj c + e / 10 ^ 9) % 2 ^ 64) c

/-- THERMTRIP (R585): latched until the supply is removed; every cage channel is turned off, injection stops, and the
transmitters go to electrical idle.  The mode does not change. -/
def thermTrip (s : State) : State :=
  let s := setPw s fun w => { w with tripped := true }
  (List.range 64).foldl (fun s c => if cageState s c = 0 then s else cageOff s c) s

end Sys2Proof.Machine
end

