-- ==== Sys2Proof/Machine/Blocks.lean ====
section
/-!
DEFINITION. Machine/Blocks.lean: block resets (Table 17-7), partial and full fences and their release (R515 to R517),
and what a fault's reactions do to the device (R512 step 3).
-/

namespace Sys2Proof.Machine

/-- Injection is stopped: SC fenced or in reset (R515), a full fence (R516), or THERMTRIP (R585). -/
def injectStopped (s : State) : Bool := blockDown s 0xB0 0 || fullFence s || s.pw.tripped

/-- The port units of a switch tile. -/
def tilePorts (s : State) (t : Nat) : List Nat := (portUnits s).filter fun p => p / 8 == t

/-- The packets stored in a tile freed: a copy that crosses ends stomped, the others are dropped (Table 17-7). -/
def freeTileCells (s : State) (t : Nat) : State :=
  s.sw.pkts.foldl (fun (s : State) (e : Nat × SwPkt) =>
    if tileOf e.2.inp = t then
      let s := e.2.copies.foldl (fun (s : State) (c : Copy) => if c.bound then stompNow s e.1 c.outp else s) s
      delPkt s e.1
    else s) s

/-- The XL block reset: L1 and L2 emptied, running walks end as WALK_ABORT; domains stay (Table 17-7). -/
def resetXl (s : State) : State := abortWalks (setXl s fun x => { x with l1 := [], l2 := [] }) fun _ => true

/-- An arrival that waits inside MR or XL refused with RETRY_LATER, its admission ended (Table 17-7, MR). -/
def refuseWaiter (s : State) (w : Waiter) : State :=
  match w with
  | .arrival p a => if p.op = opMcPut then leave s a.mr else refuse (leave s a.mr) p 1 (rd s F.mrPageCfgBackoffUs)
  | _ => s

/-- The MR block reset: packets inside MR are refused with RETRY_LATER; the region table and INFLIGHT stay. -/
def resetMrBlock (s : State) : State :=
  s.xl.walks.foldl (fun (s : State) (e : Nat × Walk) =>
    let s := e.2.waiters.foldl (fun s w => refuseWaiter s w.2) s
    let keep : Nat × Waiter → Bool := fun w => match w.2 with
      | .arrival _ _ => false
      | _ => true
    setXl s fun x => { x with walks := mmod x.walks e.1 fun w => { w with waiters := w.waiters.filter keep } }) s

/-- The GW block reset: accesses in flight return poison, or are lost as writes (R376, R377); spans and lines stay. -/
def resetGwBlock (s : State) : State :=
  s.gw.accs.foldl (fun (s : State) (e : Nat × GwAcc) =>
    if e.2.answered then s else if e.2.op = 0 then poisonRead s e.1 e.2 else loseWrite s e.1 e.2) s

/-- The SC block reset: tags, virtual times and policer buckets restart (Table 17-7). -/
def resetScBlock (s : State) : State :=
  let s := setSc s fun x => { x with fnV := [], fnPrev := [], tcV := [], tcPrev := [], head := [], pol := [] }
  let s := setTp s fun t =>
    let f : Nat → InjItem → InjItem := fun _ i => { i with fnTag := none }
    { t with inj := mmap t.inj f }
  let s := { s with sw := { s.sw with vcTime := [], vcPrev := [], vcHead := [] } }
  let s := setEng s fun e => { e with vtime := [], prevTag := [] }
  let f : Nat → Stream → Stream := fun _ x => { x with tag := sliceTag s x.tile x.chan x.tc }
  fixTags (setEng s fun e => { e with streams := mmap e.streams f })

/-- The RT block reset: the tables rebuilt from link state and the join records, and every queued packet routed again. -/
def resetRtBlock (s : State) : State :=
  let s := rebuildTables s
  rerouteOutputs s (fun _ => true) true

/-- What a block reset does as it begins (Table 17-7), for a block of `blockOf` and its unit; an engine tile has none. -/
def blockEffect (s : State) (code unit : Nat) : State :=
  match code with
  | 0x20 => localDown s (unitOf s unit)
  | 0x30 => freeTileCells ((tilePorts s unit).foldl localDown s) unit
  | 0x40 => resetRtBlock s
  | 0x60 => resetXl s
  | 0x68 => resetMrBlock s
  | 0x70 => resetGwBlock s
  | 0xA0 => beginPortReset s unit
  | 0xB0 => resetScBlock s
  | 0x08 => beginWarm s (rd s F.fwStatRunning) 4
  | _ => s

/-- Whether a block is one that a block reset holds until it ends. -/
def holdsReset (code : Nat) : Bool := [0x20, 0x30, 0x40, 0x60, 0x68, 0x70, 0xA0, 0xB0, 0x08].contains code

/-- The links of a block's ports held in DOWN, or let go (Table 17-7). -/
def holdLinks (s : State) (code unit : Nat) (b : Bool) : State :=
  let hold := fun s p => setLink s p { linkOf s p with inReset := b }
  if code = 0x20 then hold s (unitOf s unit)
  else if code = 0x30 then (tilePorts s unit).foldl hold s
  else s

/-- A block reset begun: the block stays in reset until BLOCK_RESET_DONE. -/
def resetBlock (s : State) (code unit : Nat) : State :=
  if holdsReset code then
    let s := holdLinks (blockEffect s code unit) code unit true
    setFc s fun f => { f with inReset := if f.inReset.contains (code, unit) then f.inReset else f.inReset ++ [(code, unit)] }
  else s

/-- A link that may train enters INIT when a lane of it is READY (Table 17-7, R516). -/
def restartLink (s : State) (p : Nat) : State := if 0 < txCount s p then enterInit s p else s

/-- The management complex back from a warm boot (R525): with no active pair, one that is not retired runs the firmware. -/
def managed (s : State) : State :=
  let pair := if s.fc.retired.contains 0 then (if s.fc.retired.contains 1 then none else some 1) else some 0
  restartWdog (if s.fc.active.isSome then s else setFc s fun f => { f with active := pair })

/-- A block reset ends: the block resumes, unless a fence holds it (R515, Table 17-7). -/
def endBlockReset (s : State) (code unit : Nat) : State :=
  if s.fc.inReset.contains (code, unit) then
    let s := setFc s fun f => { f with inReset := f.inReset.erase (code, unit) }
    if blockFenced s code unit then s
    else
      let s := holdLinks s code unit false
      match code with
      | 0x20 => restartLink (endLocal s (unitOf s unit)) (unitOf s unit)
      | 0x30 => (tilePorts s unit).foldl restartLink ((tilePorts s unit).foldl endLocal s)
      | 0xA0 => refreshServing (endPortReset s unit) unit
      | 0x08 => if s.fw.bootKind = 4 then managed (endWarm s) else s
      | 0x70 => moveAccs s
      | _ => s
  else s

/-- A block isolated for a fence and held in reset (R515); an engine tile is fenced as R22 states. -/
def isolate (s : State) (src inst code unit : Nat) : State :=
  if s.fc.fences.contains (src, inst) then s
  else
    let s := if code = 0x50 then tileFailed s unit else holdLinks (blockEffect s code unit) code unit true
    let s := setFc s fun f => { f with fences := f.fences ++ [(src, inst)] }
    let s := if baseOf s = 2 then refreshFences s else s
    if code = 0xA0 then refreshServing s unit
    else if code = 0x60 ∨ code = 0x68 then dropParked s
    else s

/-- A fence reaction in BUILD (R32): the instance's block is held in reset, and BUILD continues without it. -/
def fenceInBuild (s : State) (src inst : Nat) : State :=
  match blockOf src inst with
  | some (code, unit) => isolate s src inst code unit
  | none => s

/-- A full fence (R516): FENCE_FULL with what caused it, and a graceful drain on every port; a fence that stands already
keeps its cause.  FENCE occurs only in RUN (R32). -/
def beginFullFence (s : State) (src inst : Nat) : State :=
  if baseOf s = 1 then fenceInBuild s src inst
  else if rdb s F.fcFenceFull then s
  else
    let s := wr (wr (wrb s F.fcFenceFull true) F.fcFenceFullSrc src) F.fcFenceFullInst inst
    let s := if baseOf s = 2 then refreshFences s else s
    (portUnits s).foldl (fun s p => enterDrain s p true) s

/-- A partial fence of an instance (R515): its block is held in reset; on a switch tile or RT it acts as a full fence, and an
engine tile is fenced as R22 states.  An instance whose source names no block (blockOf) has nothing to isolate. -/
def beginFence (s : State) (src inst : Nat) : State :=
  match blockOf src inst with
  | none => s
  | some (0x30, _) | some (0x40, _) => beginFullFence s src inst
  | some (code, unit) => isolate s src inst code unit

/-- A fence of one instance released (R517): the block returns through its block reset. -/
def releaseFence (s : State) (src inst : Nat) : State :=
  let s := setFc s fun f => { f with fences := f.fences.filter fun x => x != (src, inst) }
  match blockOf src inst with
  | some (code, unit) => if blockFenced s code unit then s else resetBlock s code unit
  | none => s

/-- The full fence released (R517): every port trains and joins again, and the endpoints reopen. -/
def releaseFull (s : State) : State :=
  if rdb s F.fcFenceFull then
    let s := wr (wr (wrb s F.fcFenceFull false) F.fcFenceFullSrc 0) F.fcFenceFullInst 0
    let s := refreshFences s
    (portUnits s).foldl restartLink s
  else s

/-- Whether a fence covers an instance, or a full fence names it. -/
def fenceNamed (s : State) (src inst : Nat) : Bool :=
  s.fc.fences.contains (src, inst)
    || (rdb s F.fcFenceFull && rd s F.fcFenceFullSrc == src && rd s F.fcFenceFullInst == inst)

/-- FC_CMD with CMD = RELEASE (R517): one instance, or ALL; `held` lists the instances whose pair still reads (1, 0).  It is
refused while the instance, or with ALL any fenced one, still holds its pair. -/
def releaseCmd (s : State) (all : Bool) (src inst : Nat) (held : List (Nat × Nat)) : State :=
  if all then
    if held.any fun x => fenceNamed s x.1 x.2 then refuseWrite s
    else
      let s := s.fc.fences.foldl (fun (s : State) (x : Nat × Nat) => releaseFence s x.1 x.2) s
      releaseFull (if baseOf s = 2 then refreshFences s else s)
  else if held.contains (src, inst) then refuseWrite s
  else
    let full := rdb s F.fcFenceFull && rd s F.fcFenceFullSrc == src && rd s F.fcFenceFullInst == inst
    let s := if s.fc.fences.contains (src, inst) then
        let s := releaseFence s src inst
        if baseOf s = 2 then refreshFences s else s
      else s
    if full then releaseFull s else s

/-- Whether a set of reactions ends a HOLD (R40). -/
def endsHold (react : Nat) : Bool := bitAt react 6 || bitAt react 3 || bits react 4 2 != 0

/-- The reactions of R512 step 3: CHIP alone when it is selected, else BLK and then FENCE.  A fault in BUILD that selects a
chip reset restarts BUILD through that reset (R32). -/
def applyReact (s : State) (src inst react : Nat) : State :=
  if bitAt react 6 then
    if s.fc.chipReset then s else chipReset s (if src = 22 then 4 else 3) src inst
  else
    let s := if bitAt react 3 then
        match blockOf src inst with
        | some (code, unit) =>
          setFc (resetBlock s code unit) fun f => { f with blkAt := mset f.blkAt (src * 65536 + inst) s.timeNs }
        | none => s
      else s
    match bits react 4 2 with
    | 1 => beginFence s src inst
    | 2 => beginFullFence s src inst
    | _ => s

end Sys2Proof.Machine
end

