-- ==== Sys2Proof/Machine/Modes.lean ====
section
/-!
DEFINITION. Machine/Modes.lean: MODE_CTL and the cycle through TEST (R35 to R38), the device ID (R70, R100), the lock
bits (R67), and the transaction commands (R56 to R60).
-/

namespace Sys2Proof.Machine

/-! ### TEST -/

/-- Every WQ is idle (empty) or in ERROR (R36). -/
def wqsQuiet (s : State) : Bool := s.hi.wqs.all fun e => e.2.state == .error || e.2.pi == e.2.ci

/-- The first check of R36 that fails, 0 when an enter request is accepted. -/
def enterTestCause (s : State) : Nat :=
  if baseOf s ≠ 2 then 4
  else if holdOn s || brownOn s || fenceOn s then 3
  else if rd s F.txnOwnerOwner ≠ 0 then 2
  else if !wqsQuiet s then 1
  else 0

/-- What R38 releases on entry: holds records, waiters and the lock wait table, rendezvous sends, groups and jobs. -/
def releaseForTest (s : State) : State :=
  let s := failWaiters (failWaiters s 0) 1
  let s := refreshAt (setAt s fun a => { a with locks := [], waitq := [], busy := [], holds := [] })
  let s := s.mt.rdv.foldl (fun (s : State) (e : Nat × Rdv) => endRdvEntry s e.1 e.2) s
  let s := (armedGroups s).foldl (fun s g => abortGrp s g (abortSeq s g) 6 none) s
  (List.range 64).foldl (fun s j => if rd s F.exJobState j = 1 then failJob s j 2 0 else s) s

/-- An enter request (R36): refused with its cause, or accepted: links drop, endpoints close, and what R38 names is
released. -/
def enterTest (s : State) : State :=
  let c := enterTestCause s
  if c ≠ 0 then wr (wr s F.modeCtlReqSt 3) F.modeCtlRefuseCause c
  else
    let s := releaseForTest { wr (wr s F.modeCtlReqSt 1) F.modeCtlRefuseCause 0 with testReq := .enter }
    (portUnits s).foldl localDown s

/-- Every condition cleared: they occur only in RUN (R32). -/
def noConds (s : State) : State :=
  wrb (wrb (wrb (wrb (wrb s F.modeStatRelayAct false) F.modeStatHoldAct false) F.modeStatBrownoutAct false) F.modeStatFenceAct false)
    F.modeStatFenceFull false

/-- The write-back ends (R36, R38): the caches are empty, BASE reads TEST and REQ_ST reads done. -/
def testEntered (s : State) : State :=
  if enteringTest s then
    let s := (portUnits s).foldl (fun s p => linkDown s p 7) s
    let s := setTp s fun t => { t with cache := [], parked := [] }
    let s := setXl s fun x => { x with l1 := [] }
    let s := changeConds s fun s => noConds (wr s F.modeStatBase 3)
    modeEntry { wr s F.modeCtlReqSt 2 with testReq := .none } 32
  else s

/-- A leave request (R36 to R38): only in TEST; BUILD starts again with the running slot's armature and a higher BOOT_EPOCH,
and the node joins again. -/
def leaveTest (s : State) : State :=
  if baseOf s ≠ 3 then wr (wr s F.modeCtlReqSt 3) F.modeCtlRefuseCause 4
  else
    let s := wr (wr s F.modeCtlReqSt 1) F.modeCtlRefuseCause 0
    let s := (portUnits s).foldl (fun s p => linkDown s p 7) s
    let s := { setBase s 1 with rt := {}, testReq := .leave }
    let s := (List.range 272).foldl (fun s n => if rd s F.lnStatPhase n = 0 then s else retrainLane s n 0) s
    let s := rebuildTables (wr s F.rtStatJoin 0)
    (portUnits s).foldl restartLink (buildWith s s.fw.slotArm [])

/-- A write of MODE_CTL.REQ (R35): from PF0 or the management controller. -/
def modeReq (s : State) (who : Who) (req : Nat) : State :=
  if !isPf0 who then refuseWrite s
  else if req = 1 then enterTest s
  else if req = 2 then leaveTest s
  else if req = 0 then s
  else refuseWrite s

/-! ### The device ID -/

/-- A write of TOP_DEVICE_ID (R70, R100): in BUILD, before the join begins, with a member below MEMBERS; it is stored in the
board record, whose read-back mismatch raises FLASH (R536), and the join that waits for it begins. -/
def deviceIdWrite (s : State) (w : Word) (flashOk : Bool) : State :=
  let id := wordGet w 0 18
  if baseOf s ≠ 1 ∨ rd s F.rtStatJoin ≠ 0 ∨ rd s F.rtGeomMembers ≤ id % 64 then refuseWrite s
  else
    let s := wr (wrb s F.topDeviceIdValid true) F.topDeviceIdId id
    let s := writeBoard s fun b => { b with idValid := true, id := id }
    if flashOk then s else tell s (.fault 18 0)

/-! ### Locks and transactions -/

/-- A write of LCK_BITS (R67): ones set, zeros do nothing; PF0 and the management controller only. -/
def lockBits (s : State) (who : Who) (w : Word) : State :=
  if !isPf0 who then refuseWrite s
  else
    let s := csrPlain s 0x00102000 w
    if rdb s F.lckBitsDebugDis then setFw s fun f => { f with debugOpen := false } else s

/-- ARM_SIGNER (R66): ENABLE takes the AND, unless it is locked (R12). -/
def signerWrite (s : State) (w : Word) : State :=
  if locked s 0x00100008 then s
  else wr s F.armSignerEnable (Nat.land (rd s F.armSignerEnable) (wordGet w 0 4))

/-- TXN_OWNER.CLAIM (R56): granted while no owner stands; a claim of a writer that cannot own is refused. -/
def txnClaim (s : State) (who : Who) : State :=
  if ownerOf who = 0 then refuseWrite s
  else if rd s F.txnOwnerOwner ≠ 0 then s
  else
    let s := wr (wr (wr s F.txnOwnerOwner (ownerOf who)) F.txnStatCause 0) F.txnStatStaged 0
    txnUsed (setTxn (wr (wrb s F.txnStatFailed false) F.txnStatSt 1) fun t => { t with maquette := [] })

/-- A refused command of a writer that is not the owner (R60). -/
def notOwner (s : State) : State := wr (refuseWrite s) F.txnStatCause 1

/-- Whether a writer is the owner (R56). -/
def owns (s : State) (who : Who) : Bool := ownerOf who != 0 && rd s F.txnOwnerOwner == ownerOf who

/-- A write of TXN_BEGIN, TXN_COMMIT or TXN_ABORT with GO clear issues no command; from a writer that may not write the register it is
refused all the same (R60). -/
def noGo (s : State) (who : Who) (abort : Bool) : State :=
  if owns s who || (abort && who == .mgmt) then s else notOwner s

/-- TXN_BEGIN (R57, R60): the owner opens the transaction it has claimed. -/
def txnBegin (s : State) (who : Who) : State :=
  if ownerOf who = 0 ∨ rd s F.txnOwnerOwner ≠ ownerOf who then notOwner s
  else if txnSt s = 1 then txnUsed (wr s F.txnStatSt 2)
  else txnUsed s

/-- TXN_COMMIT (R52, R58 to R60): the owner commits the transaction it has open. -/
def txnCommit (s : State) (who : Who) : State :=
  if ownerOf who = 0 ∨ rd s F.txnOwnerOwner ≠ ownerOf who then notOwner s
  else if txnSt s = 2 then beginCommit (txnUsed s)
  else txnUsed s

/-- TXN_ABORT (R60): from the owner before a commit has passed its checks, and from the management controller whoever the
owner is.  Once a commit has passed them the write is ignored, not counted, and CAUSE stays (DESIGN CHOICE, log entry 100). -/
def txnAbort (s : State) (who : Who) : State :=
  let o := rd s F.txnOwnerOwner
  if who = .mgmt ∨ (ownerOf who ≠ 0 ∧ o = ownerOf who) then
    if txnSt s = 1 ∨ txnSt s = 2 then abortTxn s (if o = ownerOf who then 0 else 12) else s
  else notOwner s

/-! ### Staging an armature -/

/-- A refused ARM_STAGE command (R51): BUSY. -/
def stageBusy (s : State) : State := wr s F.armStageCause 8

/-- ARM_STAGE (R50, R51): a fetch is BUSY while a transaction is open or a fetch runs; FETCH_SLOT is the management
controller's and FETCH_HOST a host port's; DISCARD empties the staging buffer, and is BUSY while a commit uses it (log
entry 17).  A fetch by a writer that may not issue it is refused and counted, and LEN is stored all the same (DESIGN CHOICE, log entry
100). -/
def armStage (s : State) (who : Who) (w : Word) : State :=
  let len := wordGet w 0 25
  let cmd := wordGet w 32 2
  let s := wr s F.armStageLen len
  let busy := txnOpen s || rd s F.armStageSt == 1
  if cmd = 0 then s
  else if (cmd = 2) ≠ (who = .mgmt) ∧ cmd ≠ 3 then refuseWrite s
  else if (cmd = 3 ∧ (txnSt s = 3 ∨ txnSt s = 4)) ∨ (cmd ≠ 3 ∧ busy = true) then stageBusy s
  else if cmd = 3 then
    wr (wr (wr (setTxn s fun t => { t with staged := none, stagedBytesOn := [] }) F.armStageSt 0) F.armStageCause 0) F.armStageDiff 0
  else
    let s := wr (wr (wr s F.armStageSt 1) F.armStageCause 0) F.armStageDiff 0
    let s := setTxn s fun t => { t with staged := none, stagedBytesOn := [], fetchLen := if cmd = 1 then some len else none }
    match cmd, who with
    | 1, .fn hp _ => emit s (.hostRead hp (rd s F.armSrcAddr * 4096) len)
    | _, _ => s

end Sys2Proof.Machine
end

