-- ==== Sys2Proof/Machine/Qcmd.lean ====
section
/-!
DEFINITION. Machine/Qcmd.lean: the queue commands of a function page (R474, R475, Tables 15-7 and 15-8), and its two
consumer doorbells (R466, QM_CQ_DB and QM_EQ_DB).
-/

namespace Sys2Proof.Machine

/-- The lowest number from `n` that satisfies a test, looking at `fuel` numbers. -/
def lowestFrom (p : Nat → Bool) : Nat → Nat → Option Nat
  | 0, _ => none
  | fuel + 1, n => if p n then some n else lowestFrom p fuel (n + 1)

/-- The end of a queue command: FAILED with ERR, or DONE with VALUE (QM_CMD_STAT). -/
def qmFail (s : State) (hp fn err : Nat) : State :=
  let i := fnIdx hp fn
  wr (wr (wr s F.qmCmdStatValue 0 i) F.qmCmdStatErr err i) F.qmCmdStatSt 3 i

def qmDone (s : State) (hp fn value : Nat) : State :=
  let i := fnIdx hp fn
  wr (wr (wr s F.qmCmdStatValue value i) F.qmCmdStatErr 0 i) F.qmCmdStatSt 2 i

/-- A queue command whose end is still to come: BUSY. -/
def qmBusy (s : State) (hp fn : Nat) : State :=
  let i := fnIdx hp fn
  wr (wr (wr s F.qmCmdStatValue 0 i) F.qmCmdStatErr 0 i) F.qmCmdStatSt 1 i

/-- The register index of a VF's grant. -/
def vfIdx (hp fn : Nat) : Nat := hp * 256 + fn

/-- Whether HI_VF_MAP grants a function one object more of a kind of which it has `have'` (R449); PF0 has no grant. -/
def vfGrants (s : State) (hp fn : Nat) (f : Fld) (have' : Nat) : Bool :=
  fn == 0 || (rdb s F.hiVfMapValid (vfIdx hp fn) && decide (have' < rd s f (vfIdx hp fn)))

/-- Whether a block of 64 WQs is granted to a VF of a port. -/
def blockGranted (s : State) (hp b : Nat) : Bool :=
  (List.range 256).any fun v => rdb s F.hiVfMapValid (vfIdx hp v) && rd s F.hiVfMapWqBlock (vfIdx hp v) == b && v != 0

/-- A free WQ for a function (R449): of a VF the lowest free of its block, of PF0 the lowest free outside granted blocks (log
entry 50). -/
def freeWq (s : State) (hp fn : Nat) : Option Nat :=
  if fn = 0 then
    lowestFrom (fun n => !mhas s.hi.wqs (qKey hp n) && !blockGranted s hp (n / 64)) 16384 0
  else if rdb s F.hiVfMapValid (vfIdx hp fn) then
    lowestFrom (fun n => !mhas s.hi.wqs (qKey hp n)) 64 (64 * rd s F.hiVfMapWqBlock (vfIdx hp fn))
  else none

/-- A free CQ or EQ for a function: the lowest of its port. -/
def freeCq (s : State) (hp fn : Nat) : Option Nat :=
  if vfGrants s hp fn F.hiVfMapCqMax (mcount s.hi.cqs fun k q => qPort k == hp && q.fn == fn) then
    lowestFrom (fun n => !mhas s.hi.cqs (qKey hp n)) 16384 0
  else none

def freeEq (s : State) (hp fn : Nat) : Option Nat :=
  if vfGrants s hp fn F.hiVfMapEqMax (mcount s.hi.eqs fun k e => k / 4096 == hp && e.fn == fn) then
    lowestFrom (fun n => !mhas s.hi.eqs (eqKey hp n)) 4096 0
  else none

/-- Whether the parameters of an EQ or CQ are in range (R451, Table 15-8): LOG2, alignment, VEC, MOD_COUNT and MOD_US. -/
def ringArgsOk (fn a0 a1 : Nat) : Bool :=
  let k := bits a1 0 5
  decide (6 ≤ k) && decide (k ≤ 16) && a0 % 4096 == 0
    && (bitAt a1 27 || decide (bits a1 16 11 < vectors fn))
    && decide (1 ≤ bits a1 32 8) && decide (bits a1 40 10 ≤ 1000)

/-- EQ_CREATE. -/
def eqCreate (s : State) (hp fn a0 a1 : Nat) : State :=
  if !ringArgsOk fn a0 a1 then qmFail s hp fn 2
  else
    match freeEq s hp fn with
    | none => qmFail s hp fn 1
    | some n =>
      let e : Evq := { fn := fn, addr := a0, log2 := bits a1 0 5, vec := bits a1 16 11, poll := bitAt a1 27,
                       modCount := bits a1 32 8, modUs := bits a1 40 10, pi := 0, ci := 0, lost := 0, cause := 0,
                       armed := false, count := 0, firstAt := none }
      qmDone (setHi s fun h => { h with eqs := mset h.eqs (eqKey hp n) e }) hp fn n

/-- CQ_CREATE. -/
def cqCreate (s : State) (hp fn a0 a1 : Nat) : State :=
  if !ringArgsOk fn a0 a1 then qmFail s hp fn 2
  else
    match freeCq s hp fn with
    | none => qmFail s hp fn 1
    | some n =>
      let q : Cq := { fn := fn, addr := a0, log2 := bits a1 0 5, vec := bits a1 16 11, poll := bitAt a1 27,
                      modCount := bits a1 32 8, modUs := bits a1 40 10, state := .ready, cause := 0, pi := 0, ci := 0,
                      held := [], pendWritten := false, fullSince := none, armed := false, count := 0, firstAt := none }
      qmDone (setCq s (qKey hp n) q) hp fn n

/-- WQ_CREATE: its CQ and its open EC are the function's own. -/
def wqCreate (s : State) (hp fn a0 a1 a2 : Nat) : State :=
  let k := bits a1 0 5
  let cq := qKey hp (bits a1 16 14)
  let ec := bits a1 32 20
  if !(decide (6 ≤ k) && decide (k ≤ 16) && a0 % 4096 == 0 && a2 % 8 == 0) then qmFail s hp fn 2
  else
    match mget s.hi.cqs cq, ctxOf s ec with
    | some q, some c =>
      if q.fn ≠ fn ∨ c.hp ≠ hp ∨ c.fn ≠ fn then qmFail s hp fn 4
      else if c.closing ∨ c.state ≠ 1 then qmFail s hp fn 5
      else
        match freeWq s hp fn with
        | none => qmFail s hp fn 1
        | some n =>
          let w : Wq := { fn := fn, addr := a0, log2 := k, cq := cq, ec := ec, shadow := a2, state := .ready, cause := 0,
                          pi := 0, ci := 0, next := 0, cache := [], reading := [], live := [], done := [], shadowAt := s.timeNs,
                          shadowCi := 0, destroying := false }
          qmDone (setWq s (qKey hp n) w) hp fn n
    | _, _ => qmFail s hp fn 2

/-- Whether a port may use an EC (R475): its range lies in HBM or behind the port. -/
def ecAllowed (s : State) (hp ec : Nat) : Bool :=
  match rangePort s ec with
  | none => true
  | some p => p == hp

/-- The lowest free EC that a port may use. -/
def freeEc (s : State) (hp : Nat) : Option Nat :=
  (List.range 16).findSome? fun r =>
    if ecAllowed s hp (65536 * r) then
      let ec := mnext s.tp.ecs (65536 * r)
      if ec < 65536 * (r + 1) then some ec else none
    else none

/-- EC_OPEN (R475): OPS bits 7:5 are reserved (Table 08-2). -/
def ecOpenCmd (s : State) (hp fn a0 a1 : Nat) : State :=
  let dom := bits a1 0 12
  let rcq := bits a1 32 14
  if bits a1 17 3 ≠ 0 then qmFail s hp fn 2
  else if !domServes s dom hp fn then qmFail s hp fn 6
  else
    match mget s.hi.cqs (qKey hp rcq) with
    | none => qmFail s hp fn 2
    | some q =>
      if q.fn ≠ fn then qmFail s hp fn 4
      else if !vfGrants s hp fn F.hiVfMapEcMax (mcount s.tp.ecs fun _ c => c.hp == hp && c.fn == fn) then qmFail s hp fn 1
      else
        let named := if bitAt a0 20 then freeEc s hp else some (bits a0 0 20)
        match named with
        | none => qmFail s hp fn 1
        | some ec =>
          if (ctxOf s ec).isSome then qmFail s hp fn 5
          else if !ecAllowed s hp ec then qmFail s hp fn 2
          else
            let c : EcCtx := { state := 1, hp := hp, fn := fn, agg := bits a1 20 12, ops := bits a1 12 8, dom := dom,
                               pkrr := 0, rcq := rcq, closing := false, closeAt := 0 }
            qmDone (setCtx s ec c) hp fn ec

/-- EC_CLOSE (R297, R302, R475): BUSY until the close ends. -/
def ecCloseCmd (s : State) (hp fn a0 : Nat) : State :=
  let ec := bits a0 0 20
  match ctxOf s ec with
  | none => qmFail s hp fn 2
  | some c =>
    if c.hp ≠ hp ∨ c.fn ≠ fn then qmFail s hp fn 4
    else if c.closing then qmFail s hp fn 5
    else if s.hi.wqs.any fun e => e.2.ec == ec then qmFail s hp fn 3
    else
      let s := setHi (qmBusy s hp fn) fun h => { h with closing := mset h.closing (fnIdx hp fn) ec }
      beginClose s ec false

/-- A WQ destroyed: it leaves the table with its push slots. -/
def dropWq (s : State) (k fn : Nat) : State :=
  refreshFnStat (clearPush (setHi s fun h => { h with wqs := mdel h.wqs k }) k) (qPort k) fn

/-- DESTROY of a WQ (R461, R475): descriptors not started complete FLUSHED; the command completes once those started have
ended. -/
def wqDestroy (s : State) (k : Nat) (w : Wq) : State :=
  let rest := positions w.log2 w.next w.pi
  let s := setWq s k { w with destroying := true, cache := [], reading := [], live := rest ++ w.live, next := w.pi, stall := none, walking := false }
  let s := clearPush (flushDescs s k w rest) k
  if w.live.isEmpty then qmDone (dropWq s k w.fn) (qPort k) w.fn 0 else qmBusy s (qPort k) w.fn

/-- A WQ being destroyed whose started descriptors have all ended leaves the table. -/
def settleWq (s : State) (k : Nat) : State :=
  match mget s.hi.wqs k with
  | some w => if w.destroying && w.live.isEmpty then qmDone (dropWq s k w.fn) (qPort k) w.fn 0 else s
  | none => s

/-- Whether a CQ is bound to a WQ or an EC. -/
def cqBound (s : State) (k : Nat) : Bool := (s.hi.wqs.any fun e => e.2.cq == k) || !(ecsOfCq s k).isEmpty

/-- The RESET of a CQ in ERROR ends once it has no held completion (R463). -/
def cqResetEnd (s : State) (k : Nat) (q : Cq) (hp fn : Nat) : State :=
  let s := setCq s k { q with state := .ready, cause := 0, pi := 0, ci := 0, pendWritten := false, fullSince := none,
                              armed := false, count := 0, firstAt := none }
  qmDone (refreshFnStat s hp fn) hp fn 0

/-- RESETs that wait for held completions, ended when none is left. -/
def settleResets (s : State) : State :=
  s.hi.resets.foldl (fun (s : State) (e : Nat × Nat) =>
    match mget s.hi.cqs e.2 with
    | some q => if q.held.isEmpty then
        cqResetEnd (setHi s fun h => { h with resets := mdel h.resets e.1 }) e.2 q (qPort e.2) q.fn
      else s
    | none => s) s

/-- DESTROY, RESET and QUERY of an EQ. -/
def eqCommand (s : State) (hp fn cmd k : Nat) (e : Evq) : State :=
  if cmd = 6 then qmDone (setHi s fun h => { h with eqs := mdel h.eqs k }) hp fn 0
  else if cmd = 7 then qmFail s hp fn 5
  else
    let i := fnIdx hp fn
    let s := wr s F.qmArg1Arg (1 + e.cause * 16 + min e.lost (2 ^ 32 - 1) * 2 ^ 16) i
    qmDone (wr s F.qmArg2Arg (e.pi + e.ci * 2 ^ 32) i) hp fn 0

/-- STATE of a queue as QUERY returns it. -/
def stateCode (q : QState) : Nat := match q with
  | .ready => 1
  | .error => 2

/-- DESTROY, RESET and QUERY of a CQ. -/
def cqCommand (s : State) (hp fn cmd k : Nat) (q : Cq) : State :=
  if cmd = 6 then
    if cqBound s k then qmFail s hp fn 3
    else qmDone (refreshFnStat (setHi s fun h => { h with cqs := mdel h.cqs k }) hp fn) hp fn 0
  else if cmd = 7 then
    if q.state ≠ .error then qmFail s hp fn 5
    else if q.held.isEmpty then cqResetEnd s k q hp fn
    else setHi (qmBusy s hp fn) fun h => { h with resets := mset h.resets (fnIdx hp fn) k }
  else
    let i := fnIdx hp fn
    let s := wr s F.qmArg1Arg (stateCode q.state + q.cause * 16) i
    qmDone (wr s F.qmArg2Arg (q.pi + q.ci * 2 ^ 32) i) hp fn 0

/-- Whether completions of a WQ wait in the holding slots of its CQ (R463). -/
def wqHolds (s : State) (k cq : Nat) : Bool :=
  match mget s.hi.cqs cq with
  | some q => q.held.any fun c => c.wq == some k
  | none => false

/-- DESTROY, RESET and QUERY of a WQ; a WQ with started descriptors still running, or with held completions, is not reset (R463; log entry
51). -/
def wqCommand (s : State) (hp fn cmd k : Nat) (w : Wq) : State :=
  if cmd = 6 then (if w.destroying then qmFail s hp fn 5 else wqDestroy s k w)
  else if cmd = 7 then
    if w.state ≠ .error ∨ !w.live.isEmpty ∨ w.next ≠ w.pi ∨ w.destroying ∨ wqHolds s k w.cq then qmFail s hp fn 5
    else
      let s := setWq s k { w with state := .ready, cause := 0, pi := 0, ci := 0, next := 0, cache := [], reading := [], done := [],
                                  shadowCi := 0 }
      qmDone (refreshFnStat (clearPush s k) hp fn) hp fn 0
  else
    let i := fnIdx hp fn
    let s := wr s F.qmArg1Arg (stateCode w.state + w.cause * 16) i
    qmDone (wr s F.qmArg2Arg (w.pi + w.ci * 2 ^ 32) i) hp fn 0

/-- A free number: QUERY reports STATE FREE; DESTROY and RESET name no object. -/
def freeObject (s : State) (hp fn cmd : Nat) : State :=
  if cmd = 8 then
    let i := fnIdx hp fn
    qmDone (wr (wr s F.qmArg1Arg 0 i) F.qmArg2Arg 0 i) hp fn 0
  else qmFail s hp fn 2

/-- DESTROY, RESET and QUERY (R474, R475, R463). -/
def objCommand (s : State) (hp fn cmd a0 : Nat) : State :=
  let n := bits a0 16 16
  match bits a0 0 2 with
  | 0 =>
    if 4096 ≤ n then qmFail s hp fn 2
    else
      match mget s.hi.eqs (eqKey hp n) with
      | none => freeObject s hp fn cmd
      | some e => if e.fn ≠ fn then qmFail s hp fn 4 else eqCommand s hp fn cmd (eqKey hp n) e
  | 1 =>
    if 16384 ≤ n then qmFail s hp fn 2
    else
      match mget s.hi.cqs (qKey hp n) with
      | none => freeObject s hp fn cmd
      | some q => if q.fn ≠ fn then qmFail s hp fn 4 else cqCommand s hp fn cmd (qKey hp n) q
  | 2 =>
    if 16384 ≤ n then qmFail s hp fn 2
    else
      match mget s.hi.wqs (qKey hp n) with
      | none => freeObject s hp fn cmd
      | some w => if w.fn ≠ fn then qmFail s hp fn 4 else wqCommand s hp fn cmd (qKey hp n) w
  | _ => qmFail s hp fn 2

/-- A write of QM_CMD (R474): refused while a command of the function runs, and for a code that Table 15-7 does not list; a
port that does not serve ends it with STATE (R611). -/
def qmCommand (s : State) (hp fn cmd : Nat) : State :=
  let i := fnIdx hp fn
  if rd s F.qmCmdStatSt i = 1 ∨ cmd = 0 ∨ 8 < cmd then refuseWrite s
  else if !serving s hp then qmFail s hp fn 5
  else
    let a0 := rd s F.qmArg0Arg i
    let a1 := rd s F.qmArg1Arg i
    let a2 := rd s F.qmArg2Arg i
    match cmd with
    | 1 => eqCreate s hp fn a0 a1
    | 2 => cqCreate s hp fn a0 a1
    | 3 => wqCreate s hp fn a0 a1 a2
    | 4 => ecOpenCmd s hp fn a0 a1
    | 5 => ecCloseCmd s hp fn a0
    | _ => objCommand s hp fn cmd a0

/-! ### Consumer doorbells -/

/-- Whether a new CI lies between the present one and PI (QM_CQ_DB, QM_EQ_DB). -/
def ciOk (k pi ci new : Nat) : Bool :=
  decide (new < 2 ^ (k + 1)) && decide (ringCount k new ci ≤ ringCount k pi ci)

/-- A write of QM_CQ_DB (R462, R463, R466): CI moves, held completions follow, an advance restarts the stall limit; ARM arms
the interrupt, whose moderation starts at once when entries wait. -/
def cqDoorbell (s : State) (hp fn : Nat) (w : Word) : State :=
  let n := wordGet w 32 14
  let k := qKey hp n
  let new := wordGet w 0 17
  match mget s.hi.cqs k with
  | none => refuseWrite s
  | some q =>
    if q.fn ≠ fn ∨ !ciOk q.log2 q.pi q.ci new then refuseWrite s
    else
      let moved := new != q.ci
      let s := setCq s k { q with ci := new, fullSince := if moved then none else q.fullSince }
      let s := cqDrain (q.held.length + 1) s k
      match mget s.hi.cqs k with
      | none => s
      | some q =>
        let full := ringFull q.log2 q.pi q.ci
        let q := { q with fullSince := if full && q.fullSince.isNone then some s.timeNs else q.fullSince }
        if wordGet w 17 1 = 0 then setCq s k q
        else
          let waits := ringCount q.log2 q.pi q.ci
          let q := { q with armed := true, count := 0, firstAt := if waits = 0 then none else some s.timeNs }
          if waits ≠ 0 ∧ q.modUs = 0 then
            raiseIrq (setCq s k { q with armed := false, count := 0, firstAt := none }) hp fn q.vec q.poll
          else setCq s k q

/-- A write of QM_EQ_DB (R465, R466): as for a CQ; a lost count is reported when the next event finds room. -/
def eqDoorbell (s : State) (hp fn : Nat) (w : Word) : State :=
  let n := wordGet w 32 12
  let k := eqKey hp n
  let new := wordGet w 0 17
  match mget s.hi.eqs k with
  | none => refuseWrite s
  | some e =>
    if e.fn ≠ fn ∨ !ciOk e.log2 e.pi e.ci new then refuseWrite s
    else
      let e := { e with ci := new }
      let s := setHi s fun h => { h with eqs := mset h.eqs k e }
      let s := if e.lost ≠ 0 && !ringFull e.log2 e.pi e.ci then eqOverflow s k e else s
      match mget s.hi.eqs k with
      | none => s
      | some e =>
        if wordGet w 17 1 = 0 then s
        else
          let waits := ringCount e.log2 e.pi e.ci
          let e := { e with armed := true, count := 0, firstAt := if waits = 0 then none else some s.timeNs }
          let put := fun (s : State) (e : Evq) => setHi s fun h => { h with eqs := mset h.eqs k e }
          if waits ≠ 0 ∧ e.modUs = 0 then
            raiseIrq (put s { e with armed := false, count := 0, firstAt := none }) hp fn e.vec e.poll
          else put s e

end Sys2Proof.Machine
end

