-- ==== Sys2Proof/Machine/Csr.lean ====
section
/-!
DEFINITION. Machine/Csr.lean: register writes and reads over BAR0 (R5 to R9, R34, R68, R448, R611): the registers whose
writes do more than change their fields, and the gate that every access passes.
-/

namespace Sys2Proof.Machine

/-! ### Where a BAR0 offset lies -/

/-- The key of a BAR0 offset as a function sees it (R448): PF0 sees the CSR map with the function pages of its own port, a VF
its own page; the management controller sees HP0's pages (log entry 52). -/
def csrKey (who : Who) (off : Nat) : Option Nat :=
  match who with
  | .fn hp 0 =>
    if 0x10000000 ≤ off then none
    else if 0x0A800000 ≤ off ∧ off < 0x0B000000 then some (off + hp * 0x10000000)
    else some off
  | .fn hp f => if off < 0x8000 then some (0x0A800000 + f * 0x8000 + off + hp * 0x10000000) else none
  | .mgmt => if 0x10000000 ≤ off then none else some off

/-- The function page that a key lies in: port, function, and offset in the page. -/
def pageOf (key : Nat) : Option (Nat × Nat × Nat) :=
  let hp := key / 0x10000000
  let k := key % 0x10000000
  if 0x0A800000 ≤ k ∧ k < 0x0B000000 then some (hp, (k - 0x0A800000) / 0x8000, k % 0x8000) else none

/-- Whether a writer is PF0 of a port. -/
def isPf0Of (who : Who) (hp : Nat) : Bool := who == .fn hp 0

/-! ### Lanes and links -/

/-- PHASE of a lane reads TEST while a generator or checker of R134 or the far-end loop is set in TEST; the lane trains again once none
is.  In a near-end loop alone it trains against itself (R164; log entry 55). -/
def lanePhaseTest (s : State) (n : Nat) : State :=
  let on := baseOf s == 3 && (rd s F.lnCtlLoop n == 3 || rd s F.lnCtlPrbsGen n != 0 || rd s F.lnCtlPrbsChk n != 0)
  if on then lanesChanged (wr (wrb (wrb s F.lnStatBlkLock false n) F.lnStatFecLock false n) F.lnStatPhase 9 n) n
  else if rd s F.lnStatPhase n = 9 then startDetect s n
  else s

/-- A generator starts somewhere in its pattern, which is left open, and a checker unlocked, when their patterns change (R135). -/
def startPatterns (s : State) (n gen chk : Nat) : State :=
  let s := if rd s F.lnCtlPrbsGen n = gen then s
    else drawn (setLane s n { laneSt s n with gen := patternStart (rd s F.lnCtlPrbsGen n) (freeNat s) })
  if rd s F.lnCtlPrbsChk n = chk then s
  else wrb (setLane s n { laneSt s n with chk := 0, chkRun := 0 }) F.lnPrbsChkLock false n

/-- LN_CTL (R125, R134, R117): loopbacks, PRBS and RATE act in TEST only; the PAM4 patterns need a PAM4 rate (Table 04-8). -/
def lnCtlWrite (s : State) (n : Nat) (w : Word) : State :=
  let key := (F.lnCtlLoop).key n
  let test := wordGet w 5 11
  let pam4Only := fun x => decide (3 ≤ x)
  if test ≠ 0 ∧ baseOf s ≠ 3 then refuseWrite s
  else if wordGet w 5 2 = 2 && (pam4Only (wordGet w 10 3) || pam4Only (wordGet w 7 3)) then refuseWrite s
  else
    let s := lanePhaseTest (startPatterns (csrPlain s key w) n (rd s F.lnCtlPrbsGen n) (rd s F.lnCtlPrbsChk n)) n
    let s := if bitAt w.toNat 1 then requestRecal s n 4 else s
    if bitAt w.toNat 0 then wrb (retrainLane s n 1) F.lnCtlRetrain false n else s

/-- LL_CTL (R159, R164): SELFLINK and TGEN act in TEST only; DRAIN starts a graceful drain. -/
def llCtlWrite (s : State) (p : Nat) (w : Word) : State :=
  if wordGet w 2 2 ≠ 0 ∧ baseOf s ≠ 3 then refuseWrite s
  else
    let s := csrPlain s ((F.llCtlCount).key p) w
    if bitAt w.toNat 1 then enterDrain s p true else s

/-! ### Transport and translation -/

/-- TP_EC_MAP (R231): refused while an EC of the range is OPEN or cached. -/
def ecMapWrite (s : State) (r : Nat) (w : Word) : State :=
  if (s.tp.ecs.any fun e => e.1 / 65536 == r) || (s.tp.cache.any fun e => e.1 / 65536 == r) then refuseWrite s
  else csrPlain s ((F.tpEcMapAddr).key r) w

/-- XL_INVAL_CMD (R317): from PF0, with fewer than 16 pending; PAGES is judged in scope PAGES only. -/
def invalCmd (s : State) (who : Who) (w : Word) : State :=
  let pending := mcount s.xl.invals fun _ v => v.seq.isSome
  let pages := wordGet w 30 17
  match who with
  | .fn _ 0 =>
    if 16 ≤ pending || (wordGet w 0 2 == 1 && (pages == 0 || decide (65536 < pages))) then refuseWrite s
    else
      let seq := (rd s F.xlInvalStatIssued + 1) % 2 ^ 32
      startInval (wr s F.xlInvalStatIssued seq) (some seq) (wordGet w 0 2) (wordGet w 16 12) (rd s F.xlInvalAddrDva)
        pages none
  | _ => refuseWrite s

/-- XL_WIN_BASE and XL_WIN_LIMIT (R307): PF0 of port p, while VALID is 0 or HP is p; VALID = 1 needs HP = p. -/
def winWrite (s : State) (who : Who) (key i : Nat) (w : Word) : State :=
  match who with
  | .fn p 0 =>
    let free := !rdb s F.xlWinBaseValid i || rd s F.xlWinBaseHp i == p
    let base := (key - 0x06000200) % 16 == 0
    if free && (!base || wordGet w 63 1 == 0 || wordGet w 62 1 == p) then csrPlain s key w else refuseWrite s
  | _ => refuseWrite s

/-- XL_DOM (R303, R322): PF0 as for the walk windows; HP, FUNC and ROOT stand while VALID is 1, VALID = 1 waits for the sweep,
and clearing VALID starts one. -/
def domWrite (s : State) (who : Who) (d : Nat) (w : Word) : State :=
  let key := (F.xlDomValid).key d
  match who with
  | .fn p 0 =>
    let was := rdb s F.xlDomValid d
    let free := !was || rd s F.xlDomHp d == p
    let valid := wordGet w 63 1 == 1
    let moves := wordGet w 62 1 != rd s F.xlDomHp d || wordGet w 54 8 != rd s F.xlDomFunc d || wordGet w 12 40 != rd s F.xlDomRoot d
    if !free || (valid && wordGet w 62 1 != p) || (was && moves) || (valid && rdb s F.xlDomSweep d) then refuseWrite s
    else
      let s := csrPlain s key w
      if was && !valid then sweepDomain s d else s
  | _ => refuseWrite s

/-! ### Regions -/

/-- MR_CMD (R348, R349): PF0 of either port or the management controller; NONE does nothing; at most 64 REVOKEs pending. -/
def mrCommand (s : State) (who : Who) (w : Word) : State :=
  let pending := (rd s F.mrCmdStatIssued + 65536 - rd s F.mrCmdStatDone) % 65536
  if !isPf0 who then refuseWrite s
  else if wordGet w 32 2 = 0 then s
  else if wordGet w 32 2 ≠ 1 ∨ 64 ≤ pending then refuseWrite s
  else
    let seq := (rd s F.mrCmdStatIssued + 1) % 65536
    let s := wr s F.mrCmdStatIssued seq
    match regionOf s (wordGet w 0 32) with
    | none => cmdResult s seq 1
    | some i =>
      match mget s.mr.revokes i with
      | some r => setMr s fun m => { m with revokes := mset m.revokes i { r with seqs := r.seqs ++ [(seq, 2)] } }
      | none => markRevoking s i ⟨[(seq, 0)], [], false⟩

/-- MR_PAGE_RESOLVE (R343): PF0 of the port of the entry's domain; 1 RETRY, 2 FAIL. -/
def pageResolve (s : State) (who : Who) (w : Word) : State :=
  let id := wordGet w 0 12
  match mget s.mr.faults id, who with
  | some f, .fn p 0 =>
    if !rdb s F.xlDomValid f.dom ∨ rd s F.xlDomHp f.dom ≠ p then refuseWrite s
    else if wordGet w 12 2 = 1 then resolveRetry s id
    else if f.failed then s
    else resolveFail s id f
  | _, _ => refuseWrite s

/-! ### The global memory window -/

/-- GW_PORT (R361): only PF0 of the port. -/
def gwPortWrite (s : State) (who : Who) (hp : Nat) (w : Word) : State :=
  if isPf0Of who hp then csrPlain s ((F.gwPortEc).key hp) w else refuseWrite s

/-- GW_FLUSH_CMD (R363, R372): LINES is judged for RANGE only; in MGMT mode DISCARD is the management controller's. -/
def flushCmd (s : State) (who : Who) (w : Word) : State :=
  let action := wordGet w 0 2
  let scope := wordGet w 2 2
  let lines := wordGet w 24 21
  if !isPf0 who || action == 0 || scope == 0 || (scope == 1 && (lines == 0 || decide (1048576 < lines)))
      || decide (16 ≤ flushesPending s) || (action == 3 && rd s F.gwSecMode == 1 && who != .mgmt) then refuseWrite s
  else acceptFlush s action scope lines

/-! ### Collectives, exchange, locks -/

/-- CL_CMD (R405): 1 ABORT with cause HOST, 2 RESET. -/
def clCommand (s : State) (who : Who) (w : Word) : State :=
  let g := wordGet w 0 12
  if !isPf0 who then refuseWrite s
  else
    match wordGet w 32 2 with
    | 1 => if rdb s F.clGroupValid g then abortGrp s g (abortSeq s g) 6 none else s
    | 2 =>
      if rd s F.clGroupState g = 2 then refreshPool (setGrp (wr (wr s F.clGroupState 0 g) F.clGroupCause 0 g) g {}) else s
    | _ => refuseWrite s

/-- EX_RING CI (R417): written by PF0 of the job's port; a value beyond PI is refused; room lets staged batches be copied. -/
def exCiWrite (s : State) (who : Who) (j : Nat) (w : Word) : State :=
  if !isPf0Of who (rd s F.exJobHp j) || decide (rd s F.exRingPi j < w.toNat) then refuseWrite s else noteFull (wr s F.exRingCi w.toNat j) j

/-- AT_ALIAS (R438): PF0 of the port named in HP; a slot with a pending read is refused. -/
def aliasWrite (s : State) (who : Who) (key i : Nat) (w : Word) : State :=
  let first := (key - 0x09010000) % 32 == 0
  let cur := rd s F.atAliasHp i
  match who with
  | .fn p 0 =>
    let ok := if first then wordGet w 62 1 == p && (!rdb s F.atAliasValid i || cur == p) else cur == p
    if !ok || rdb s F.atAliasPending i then refuseWrite s else csrPlain s key w
  | _ => refuseWrite s

/-! ### Host interface -/

/-- HI_PM: PF0 of the port or the management controller. -/
def hiPmWrite (s : State) (who : Who) (hp : Nat) (w : Word) : State :=
  if isPf0Of who hp || who == .mgmt then csrPlain s ((F.hiPmL0pEn).key hp) w else refuseWrite s

/-- HI_VF_MAP: as HI_PM, and not while the VF is enabled. -/
def vfMapWrite (s : State) (who : Who) (i : Nat) (w : Word) : State :=
  let hp := i / 256
  if !(isPf0Of who hp || who == .mgmt) || (i % 256 != 0 && (portOf s hp).cfg.vfEnable && decide (i % 256 ≤ (portOf s hp).cfg.numVfs)) then refuseWrite s
  else csrPlain s ((F.hiVfMapValid).key i) w

/-- A write into a function page (R474, R466). -/
def pageWrite (s : State) (key hp fn off : Nat) (w : Word) : State :=
  if off = 0 then qmCommand s hp fn (wordGet w 0 4)
  else if off = 0x1000 then cqDoorbell s hp fn w
  else if off = 0x1008 then eqDoorbell s hp fn w
  else csrPlain s key w

/-- SC_QSMP_SEL (R490, R7): PF0 and the management controller; UNIT within the range of its KIND. -/
def monitorWrite (s : State) (who : Who) (key : Nat) (w : Word) : State :=
  let most := match wordGet w 60 3 with
    | 0 => 7
    | 1 => 135
    | _ => 51
  if isPf0 who && decide (wordGet w 0 8 ≤ most) then csrPlain s key w else refuseWrite s

/-! ### The kiln, faults, firmware, power, counters -/

/-- KN registers (16): PF0 and the management controller; a value outside the stated ranges is refused. -/
def knWrite (s : State) (who : Who) (key : Nat) (w : Word) : State :=
  if isPf0 who && knLegal key w then csrPlain s key w else refuseWrite s

/-- FC_CMD (R517, R527, R530). -/
def fcCommand (s : State) (who : Who) (w : Word) (env : CsrEnv) : State :=
  if !isPf0 who then refuseWrite s
  else
    match wordGet w 0 2 with
    | 1 => releaseCmd s (bitAt w.toNat 40) (wordGet w 16 6) (wordGet w 24 16) env.held
    | 2 => if who == .mgmt && wordGet w 48 16 == 0x0C17 then chipReset s 2 0 0 else refuseWrite s
    | 3 => if baseOf s = 3 && rd s F.fcSelftestSt != 1 then wr (wr s F.fcSelftestSt 1) F.fcSelftestFailSrc 0 else s
    | _ => refuseWrite s

/-- FC_PEND and FC_MASK: PF0 and the management controller; ERROR_N follows FC_PEND (R514). -/
def fcPlain (s : State) (who : Who) (key : Nat) (w : Word) : State :=
  if isPf0 who then refreshErrN (csrPlain s key w) else refuseWrite s

/-- FW_CMD (R541 to R554): a code that is not listed is refused (R7). -/
def fwCommand (s : State) (who : Who) (w : Word) : State :=
  match wordGet w 0 4 with
  | 1 => activate s who (wordGet w 8 1)
  | 2 => fwConfirm s
  | 3 => recoveryReq s who (wordGet w 48 16)
  | 4 => commitSvn s who
  | 5 => revokeKey s who (wordGet w 12 2) (wordGet w 48 16)
  | _ => refuseWrite s

/-- FW_DL_CMD (R540): the block is read over the port that carried the write; the management controller downloads by MCTP. -/
def dlCommand (s : State) (who : Who) (w : Word) : State :=
  match who with
  | .mgmt => refuseWrite s
  | .fn hp _ =>
    if bitAt w.toNat 0 then
      download s who (wordGet w 8 1) (wordGet w 12 14 * 4096) (wordGet w 32 5 * 4096) (some hp) []
    else s

/-- CG registers of channel c: CG_CTL acts; CG_PLIM and CG_RETRY are refused while EN is 1. -/
def cgWrite (s : State) (key c off : Nat) (w : Word) : State :=
  match off with
  | 0 => cageControl s c (wordGet w 8 8) (bitAt w.toNat 0) (bitAt w.toNat 1)
  | 8 | 16 => if rdb s F.cgCtlEn c then refuseWrite s else csrPlain s key w
  | _ => csrPlain s key w

/-- PM_CNT (R605): the value is replaced, OVF is W1C. -/
def pmWrite (s : State) (who : Who) (key : Nat) (w : Word) : State :=
  if key = 0x00500000 then pmCtlWrite s w
  else if key = 0x00500100 then smpCfgWrite s w
  else if key = 0x00500118 then
    drainCmd s (match who with
      | .fn hp _ => some hp
      | .mgmt => none) w
  else if key = 0x00500200 then loadPatina (csrPlain s key w)
  else if 0x00501000 ≤ key ∧ key < 0x00501800 then pmSelWrite s key w
  else csrPlain s key w

/-! ### One write -/

/-- The registers that BAR0 answers in RECOVERY (R550): TOP_IDENT, MODE_STAT and the FW registers. -/
def recoveryServes (key : Nat) : Bool :=
  key == 0 || key == 0x100 || (decide (0x00300000 ≤ key) && decide (key < 0x00301000))

/-- The TXN, ARM, MODE, LCK and TOP registers with effects of their own (01 to 03). -/
def topWrite (s : State) (who : Who) (key : Nat) (w : Word) (env : CsrEnv) : State :=
  match key with
  | 0x10 => deviceIdWrite s w env.flashOk
  | 0x108 => modeReq s who (wordGet w 0 2)
  | 0x100008 => signerWrite s w
  | 0x100018 => armStage s who w
  | 0x100060 => drainChanged (csrPlain s key w)
  | 0x101000 => if bitAt w.toNat 0 then txnClaim s who else s
  | 0x101008 => if bitAt w.toNat 0 then txnBegin s who else noGo s who false
  | 0x101010 => if bitAt w.toNat 0 then txnCommit s who else noGo s who false
  | 0x101018 => if bitAt w.toNat 0 then txnAbort s who else noGo s who true
  | 0x102000 => lockBits s who w
  | _ => csrPlain s key w

/-- A legal write of one register (R7, R9), by its block. -/
def blockWrite (s : State) (who : Who) (key : Nat) (w : Word) (env : CsrEnv) : State :=
  match pageOf key with
  | some (hp, fn, off) => pageWrite s key hp fn off w
  | none =>
    if key < 0x00200000 then topWrite s who key w env
    else if key < 0x00300000 then
      if key = 0x00200010 then fcCommand s who w env
      else if key ≤ 0x00200008 then fcPlain s who key w else csrPlain s key w
    else if key < 0x00400000 then (if key = 0x00300018 then fwCommand s who w else if key = 0x00300028 then dlCommand s who w else csrPlain s key w)
    else if key < 0x00410000 then knWrite s who key w
    else if 0x00420000 ≤ key ∧ key < 0x00430000 then cgWrite s key ((key - 0x00420000) / 64) (key % 64) w
    else if 0x00500000 ≤ key ∧ key < 0x00600000 then pmWrite s who key w
    else if 0x01000000 ≤ key ∧ key < 0x02000000 ∧ key % 0x1000 = 0 then lnCtlWrite s ((key - 0x01000000) / 0x1000) w
    else if 0x02000000 ≤ key ∧ key < 0x03000000 ∧ key % 0x2000 = 0 then llCtlWrite s ((key - 0x02000000) / 0x2000) w
    else if 0x05000200 ≤ key ∧ key < 0x05000280 then ecMapWrite s ((key - 0x05000200) / 8) w
    else if key = 0x06000108 then invalCmd s who w
    else if 0x06000200 ≤ key ∧ key < 0x06000300 then winWrite s who key ((key - 0x06000200) / 16) w
    else if 0x06008000 ≤ key ∧ key < 0x06010000 then domWrite s who ((key - 0x06008000) / 8) w
    else if key = 0x06800008 then mrCommand s who w
    else if key = 0x06800020 then pageResolve s who w
    else if 0x07000010 ≤ key ∧ key < 0x07000020 then gwPortWrite s who ((key - 0x07000010) / 8) w
    else if key = 0x07000108 then flushCmd s who w
    else if key = 0x08000010 then clCommand s who w
    else if 0x08820000 ≤ key ∧ key < 0x08820800 then (if key % 32 = 16 then exCiWrite s who ((key - 0x08820000) / 32) w else csrPlain s key w)
    else if 0x09010000 ≤ key ∧ key < 0x09210000 then aliasWrite s who key ((key - 0x09010000) / 32) w
    else if 0x0A000010 ≤ key ∧ key < 0x0A000020 then hiPmWrite s who ((key - 0x0A000010) / 8) w
    else if 0x0A010000 ≤ key ∧ key < 0x0A011000 then vfMapWrite s who ((key - 0x0A010000) / 8) w
    else if 0x0B030000 ≤ key ∧ key < 0x0B030400 ∧ key % 16 = 0 then monitorWrite s who key w
    else csrPlain s key w

/-- Registers whose handlers judge their own fields: FW_DL_CMD answers BAD_ARG (R541), and GW_FLUSH_CMD judges LINES for one
scope only. -/
def judgesItself (key : Nat) : Bool := key == 0x00300028 || key == 0x07000108

/-- A register write that takes effect (R6 to R9): discarded where no register is, staged for an RWT register (R57), refused
whole for an encoding that a field does not list (R7).  In RECOVERY only the registers of R550 are served. -/
def csrApply (env : CsrEnv) (s : State) (who : Who) (key : Nat) (w : Word) : State :=
  if inRecovery s && !recoveryServes key then s
  else
    match regFind key with
    | none => s
    | some r =>
      if isRwt key && !(decide (0x08820000 ≤ key) && decide (key < 0x08820800) && key % 32 == 16) then stageWrite s who key w
      else if !judgesItself key && !wordLegal r.fields w then refuseWrite s
      else blockWrite s who key w env

/-! ### Reads -/

/-- The registers of a switch tile that report its buffer, its limits and its accounts (R180, R181, R184, R185): SW_BUF_STAT,
SW_BUF_CFG, SW_RES0, SW_RES1, SW_IRES and SW_CE_THR. -/
def swTileView (s : State) (t off : Nat) (w : Word) : Word :=
  let a := s.txn.arm
  let four := fun (l : List Nat) (i : Nat) =>
    BitVec.ofNat 64 (nth l i + nth l (i + 1) * 2 ^ 16 + nth l (i + 2) * 2 ^ 32 + nth l (i + 3) * 2 ^ 48)
  if off = 0 then wordSet (wordSet (wordSet w 0 16 (mcUsed s t)) 16 16 (poolSize s t - poolUsed s t)) 32 16 (poolSize s t)
  else if off = 0x08 then wordSet (wordSet (wordSet w 0 16 a.shrMax) 16 16 a.oqMax) 32 16 a.mcMax
  else if off = 0x10 then four (a.res.getD t []) 0
  else if off = 0x18 then four (a.res.getD t []) 4
  else if off = 0x20 then (if t < 8 then wordSet (wordSet w 0 16 a.iresReq) 16 16 a.iresRsp else w)
  else if off = 0x28 then four a.ceThr 0
  else w

/-- The mean length of a cell epoch in ps (R175): 1,706 at the rated point, in proportion to the switch die's stage delay; the
rated length while KN_SPEED has reported nothing (log entry 92). -/
def epochPs (s : State) : Nat :=
  let v := rd s F.knSpeedSpeed 4
  if v = 0 then 1706 else (1706 * 1000 + v / 2) / v

/-- The registers of a lane that follow its rate and its record (R124, R104): LN_REC shows the record of the slice that carries the
lane.  A RATE set in TEST acts at once, with the phase and locks left as they are, and on leaving TEST the lane is at rate 0 while LN_CTL
keeps the field (DESIGN CHOICE, log entry 102). -/
def laneView (s : State) (n off : Nat) (w : Word) : Word :=
  if off = 0x08 then (if baseOf s = 3 then wordSet w 20 2 (rd s F.lnCtlRate n) else w)
  else if off = 0x10 then
    let k := if n < 256 ∧ rdb s F.lnStatOnSpare n = true then spareLane (spareOf n) else n
    let w := csrRaw s (F.lnRecAgeMs.key k)
    match (laneSt s k).stampAt with
    | some t => wordSet w 32 32 (min ((s.timeNs - t) / 1000000) (2 ^ 32 - 1))
    | none => w
  else w

/-- A word as it stands now: the register file, and the fields that follow the time, the armature, or the size of a table. -/
def csrView (s : State) (key : Nat) : Word :=
  let w := csrRaw s key
  let since := fun t => (s.timeNs - t) / 1000000
  if key = (F.fcWdogLeftMs).key 0 then
    let p := rd s F.fcWdogPeriodMs
    wordSet w (F.fcWdogLeftMs).lo 16 (if p = 0 then 0 else p - since s.fc.wdogAt)
  else if key = (F.fwHealthLeftMs).key 0 then
    match s.fw.windowAt with
    | some t => wordSet w (F.fwHealthLeftMs).lo 16 (30000 - since t)
    | none => w
  else if key = 0x00500010 then BitVec.ofNat 64 s.timeNs
  else if key = 0x00500208 then BitVec.ofNat 64 s.fc.patinaRead
  else if 0x00100040 ≤ key ∧ key < 0x00100058 then
    (List.range 16).foldl (fun w k => if s.eng.lost.contains ((key - 0x00100040) / 8 * 16 + k) then wordSet w (4 * k) 3 7 else w) w
  else if 0x05010000 ≤ key ∧ key < 0x05050000 ∧ mhas s.tp.pairs ((key - 0x05010000) / 8) = false then
    wordSet (wordSet w (F.tpDcCeil).lo 24 (rd s F.tpCcDcCMax)) (F.tpDcRtoUs).lo 10 (rd s F.tpRetryRtoInitUs)
  else if key = 0x05000020 then wordSet (wordSet w 0 19 s.tp.slots.length) 32 17 s.tp.cache.length
  else if key = 0x05800010 then wordSet (wordSet w 0 28 unexpSize) 32 28 (unexpSize - unitsUsed s)
  else if 0x01000000 ≤ key ∧ key < 0x02000000 then laneView s ((key - 0x01000000) / 0x1000) (key % 0x1000) w
  else if 0x03000000 ≤ key ∧ key < 0x03800000 then swTileView s ((key - 0x03000000) / 0x80000) (key % 0x80000) w
  else if key = 0x03800000 then wordSet w 0 16 (min (epochPs s) 65535)
  else w

/-- The value that a read of a part of a register returns: bits [lo + width - 1 : lo], write-only fields zero. -/
def csrValue (s : State) (key lo width : Nat) : Word :=
  BitVec.ofNat 64 (wordGet (maskWo (fieldsAt key) (csrView s key)) lo width)

/-- A read of a register (R6, R8): 64 bits, or 32 bits as bit 2 of its offset selects; an RC field that it returns whole is
cleared. -/
def csrRead (s : State) (key width : Nat) : State × Word :=
  let k := key / 8 * 8
  let lo := if width = 32 ∧ key / 4 % 2 = 1 then 32 else 0
  let n := if width = 32 then 32 else 64
  let v := csrValue s k lo n
  (csrPut s k (clearRc (fieldsAt k) lo n (csrRaw s k)), v)

/-! ### The gate -/

/-- Whether a write may act in HOLD (R324): the invalidation command and its address. -/
def actsInHold (key : Nat) : Bool := key == 0x06000100 || key == 0x06000108

/-- A host write of the register with a key (R6, R34, R611): discarded by a function that does not answer, refused when
narrower than 64 bits, put off while HOLD is active, else it takes effect. -/
def hostWrite (s : State) (hp fn key width : Nat) (w : Word) (env : CsrEnv) : State :=
  let s := wakePort s hp
  if fnSilent s hp fn || !fnEnabled s hp fn then s
  else if width < 64 then refuseWrite s
  else if holdOn s && !actsInHold key then setTxn s fun t => { t with held := t.held ++ [.write (.fn hp fn) key w env] }
  else csrApply env s (.fn hp fn) key w

/-- The answer to a host read: all ones when the function does not answer (R611). -/
def readNow (s : State) (hp fn off width : Nat) : State :=
  if fnSilent s hp fn || !fnEnabled s hp fn then emit s (.unsupported (.fn hp fn) off)
  else
    match csrKey (.fn hp fn) off with
    | none => emit s (.readData (.fn hp fn) off 0)
    | some key =>
      if inRecovery s && !recoveryServes (key / 8 * 8) then emit s (.readData (.fn hp fn) off 0)
      else
        let r := csrRead s key width
        emit r.1 (.readData (.fn hp fn) off r.2)

/-- A host read (R34): answered when HOLD ends while it is active. -/
def hostRead (s : State) (hp fn off width : Nat) : State :=
  let s := wakePort s hp
  if holdOn s && !(fnSilent s hp fn || !fnEnabled s hp fn) then
    setTxn s fun t => { t with held := t.held ++ [.read (.fn hp fn) off width] }
  else readNow s hp fn off width

end Sys2Proof.Machine
end

