-- ==== Sys2Proof/Machine/Handed.lean ====
section
/-!
DEFINITION. Machine/Handed.lean: packets that the switch hands to the device's own units: control packets (R219 to R221,
R201), collectives (R388, R401 to R405), exchange (R415, R416), and everything else to the transport (Arrive.lean).
-/

namespace Sys2Proof.Machine

/-- Word i of a payload, little-endian. -/
def payloadWord (p : Pkt) (i : Nat) : Nat := ofBytes ((p.payload.drop (8 * i)).take 8)

/-! ### Joining -/

/-- A join handshake completed on a unit that is UP (R201, R216, R219): the partner is live, the settle time restarts, and a local unit
gets the full list of own units. -/
def unitJoined (s : State) (u : Nat) : State :=
  let s := settle (setJoined { s with rt := { s.rt with geomRefused := s.rt.geomRefused.erase u } } u true)
  if roleOf s u = 0 then noticeFull s u else s

/-- A JOIN that came in on unit u (R219): answered in BUILD and RUN with ACCEPT when M, G and trunking match, else GEOM; a unit that has
gone down since can carry no answer. -/
def joinArrival (s : State) (u : Nat) (p : Pkt) : State :=
  if (baseOf s ≠ 1 ∧ baseOf s ≠ 2) ∨ (roleOf s u = 1 ∧ peerUse s = false) ∨ linkUp s u = false then s
  else
    let w := payloadWord p 0
    let same := bits w 18 7 == members s && bits w 25 13 == groupsNo s && bitAt w 38 == s.txn.arm.trunked
    if same then unitJoined (sendUnit s u opJoinAck p.src (joinPayload s 0)) u
    else sendUnit s u opJoinAck p.src (joinPayload s 1)

/-- A JOIN_ACK that came in on unit u (R219): ACCEPT makes the partner live; any other STATUS is taken as GEOM. -/
def joinAckArrival (s : State) (u : Nat) (p : Pkt) : State :=
  if (baseOf s ≠ 1 ∧ baseOf s ≠ 2) ∨ (roleOf s u = 1 ∧ peerUse s = false) ∨ linkUp s u = false then s
  else if bits (payloadWord p 1) 32 8 = 0 then
    let s := unitJoined { s with rt := { s.rt with answered := u :: s.rt.answered.erase u, gotAccept := true } } u
    joinCheck (if rd s F.rtStatJoin = 3 then wr s F.rtStatJoin 1 else s) (windowPast s)
  else
    let s := setJoined { s with rt := { s.rt with geomRefused := u :: s.rt.geomRefused.erase u, answered := s.rt.answered.erase u } } u false
    joinCheck (wrb s F.rtStatGeomRefused true) (windowPast s)

/-! ### ROUTE_NOTICE and EPOCH_NOTICE -/

/-- One record of a notice taken in (Table 07-1): what it says of the sender's unit. -/
def takeRec (s : State) (sender : Nat) (r : Nat) : State :=
  let unit := bits r 18 6
  let live := bitAt r 24
  if bitAt r 25 then { s with rt := { s.rt with otherLocal := mset s.rt.otherLocal (sender * 64 + unit) live } }
  else { s with rt := { s.rt with otherGlobal := mset s.rt.otherGlobal (sender * 64 + unit) (bits r 0 12, live) } }

/-- The records of a notice's payload. -/
def noticeRecs (p : Pkt) : List Nat :=
  (List.range (p.payload.length / 4)).map fun i => ofBytes ((p.payload.drop (4 * i)).take 4)

/-- A ROUTE_NOTICE of a member of the own group (R200, R201, R216): the tables follow, and anything learned anew sets
SETTLING. -/
def routeNotice (s : State) (p : Pkt) : State :=
  if p.src / 64 ≠ selfGroup s then s
  else
    let s' := (noticeRecs p).foldl (fun s r => takeRec s (p.src % 64) r) s
    if s'.rt.otherLocal = s.rt.otherLocal ∧ s'.rt.otherGlobal = s.rt.otherGlobal then s else settle (rebuildTables s')

/-- Whether a message is an ACQUIRE that a home has acknowledged and not answered: it waits there (R435, R247). -/
def acquireWaits (dev : Nat) (m : Slot) : Bool :=
  m.dst == dev && m.op == opLock && ofBytes (m.prefixBytes.take 8) % 8 == 0 && opAcked m && m.kept.isNone && m.finish.isNone

/-- What the roles do when a device has rebooted (R220): its locks are freed and ABANDONs for it end (R440, R441), ACQUIREs that wait there
end RETRY_EXHAUSTED (R442), rendezvous sends to it end (R291), and groups of which it is a neighbour abort (R405). -/
def rebooted (s : State) (dev : Nat) : State :=
  let s := freeDevice s dev
  let s := (s.at'.holds.filter fun e => e.2.dev == dev && e.2.abandoning).foldl (fun (s : State) (e : Nat × Hold) => delHold s e.1) s
  let s := (s.tp.slots.filter fun e => acquireWaits dev e.2).foldl (fun (s : State) (e : Nat × Slot) => failMsg s e.2 1 0) s
  let s := (s.mt.rdv.filter fun e => e.2.dst == dev).foldl (fun (s : State) (e : Nat × Rdv) => endRdvEntry s e.1 e.2) s
  ((armedGroups s).filter fun g => (!isRoot s g && parentOf s g == dev) || (childrenOf s g).contains dev).foldl
    (fun s g => abortGrp s g (abortSeq s g) 4 none) s

/-- Whether some announcement of an epoch has been taken in within the 1 s of R221, whatever its REP. -/
def epochKnown (s : State) (dev epoch : Nat) : Bool :=
  (List.range 3).any fun rep => (freshKeys s).any fun e => e.1 == epochKey dev epoch rep

/-- An EPOCH_NOTICE that came in on unit u (R220, R221): the roles act on the first receipt of an epoch, and each key is
forwarded once, on the live global units but the one it came in on, and within the group when it came over a global unit. -/
def epochNotice (s : State) (u : Nat) (p : Pkt) : State :=
  let dev := bits (payloadWord p 0) 0 18
  let epoch := bits (payloadWord p 0) 32 32
  let rep := bits (payloadWord p 1) 2 2
  let known := epochKnown s dev epoch
  if (freshKeys s).any fun e => e.1 == epochKey dev epoch rep then s
  else
    let s := rememberKey s (epochKey dev epoch rep)
    let s := ((liveGlobals s).filter (· != u)).foldl
      (fun s q => sendUnit s q opEpochNotice (partnerId s q) (epochPayload dev epoch 1 rep)) s
    let s := if roleOf s u = 2 then
        (noticePorts s).foldl (fun s q => sendUnit s q opEpochNotice (partnerId s q) (epochPayload dev epoch 2 rep)) s
      else s
    if known || dev == selfId s then s else rebooted s dev

/-- The four control packets (R608): in BUILD and RUN they go to the routing unit. -/
def controlArrival (s : State) (u : Nat) (p : Pkt) : State :=
  let s := takeIn s p
  match arrivalDrop s p with
  | some s => s
  | none =>
    if p.op = opJoin then joinArrival s u p
    else if p.op = opJoinAck then joinAckArrival s u p
    else if baseOf s ≠ 1 ∧ baseOf s ≠ 2 then s
    else if p.op = opRouteNotice then routeNotice s p
    else epochNotice s u p

/-! ### Collectives -/

/-- The group of a CL packet and its neighbour: the child's place for a CL_UP, or the parent for a CL_DOWN (R388). -/
def clNeighbour (s : State) (p : Pkt) : Option (Nat × Option Nat) :=
  let g := p.ec
  if 4096 ≤ g ∨ rdb s F.clGroupValid g = false then none
  else if p.op = opClUp then (childIndex s g p.src).map fun i => (g, some i)
  else if isRoot s g = false ∧ parentOf s g = p.src then some (g, none)
  else none

/-- An ACK (R401): the kept packet that it names is released. -/
def clAck (s : State) (g : Nat) (p : Pkt) : State :=
  let up := p.op == opClDown
  refreshGrp (dropSends s g fun k => k.up == up && k.dev == p.src && k.seq == p.msgid && k.psn == p.psn) g

/-- A BUSY (R402): the packet is sent again after HOP_RTO_US, and the copy counts no retry. -/
def clBusy (s : State) (g : Nat) (p : Pkt) : State :=
  let up := p.op == opClDown
  let x := grp s g
  let f : Nat → CollPkt → CollPkt := fun _ k =>
    if k.up == up && k.dev == p.src && k.kind == 0 && k.seq == p.msgid && k.psn == p.psn then
      { k with busy := true, at' := s.timeNs }
    else k
  setGrp s g { x with sends := mmap x.sends f }

/-- An ABORT (R401, R403, R405): acknowledged, and the group aborts with its cause. -/
def clAbort (s : State) (g : Nat) (p : Pkt) : State :=
  let s := if rd s F.clGroupState g = 2 then inc s F.clCnt0Dup else s
  abortGrp (ackColl s p) g p.msgid (bits p.key 16 8) (some p.src)

/-- A collective packet (R388, R401 to R405, Table 13-2). -/
def clArrival (s : State) (p : Pkt) : State :=
  let s := takeIn s p
  match arrivalDrop s p with
  | some s => s
  | none =>
    if baseOf s ≠ 2 ∨ enteringTest s = true then s
    else
      match clNeighbour s p with
      | none => inc s F.clCnt1Stray
      | some (g, child) =>
        match p.key % 8 with
        | 0 =>
          let s := pmCount (work s 2 g p.tc) 0x80 g 1 1
          (match child with
          | some i => dataUp s g i p
          | none =>
            if rd s F.clGroupState g = 2 then ackColl s p
            else if mhas (grp s g).ops p.msgid then takeDown s g p
            else if seqBehind (rd s F.clGroupOpSeq g) p.msgid < 2 ^ 23 ∧ p.msgid ≠ rd s F.clGroupOpSeq g then
              ackColl (inc s F.clCnt0Dup) p
            else inc s F.clCnt1Stray)
        | 1 => clAck s g p
        | 2 => clAbort s g p
        | 3 => clBusy s g p
        | _ => inc s F.clCnt1Stray

/-! ### Exchange -/

/-- An EX_BATCH (R416). -/
def batchArrival (s : State) (p : Pkt) : State :=
  let s := takeIn s p
  match arrivalDrop s p with
  | some s => s
  | none => if baseOf s ≠ 2 ∨ enteringTest s = true then s else takeBatch (work s 3 (p.key % 256) p.tc) p

/-- An EX_CREDIT (R415, R426). -/
def creditArrival (s : State) (p : Pkt) : State :=
  let s := takeIn s p
  match arrivalDrop s p with
  | some s => s
  | none => if baseOf s ≠ 2 ∨ enteringTest s = true then s else takeCredit s p

/-! ### Lock notices -/

/-- A LOCK_NOTICE (R437, Table 14-6): LOCK_BOOST to the EQ of the function that OWNER_REQ names (R433); nothing answers it. -/
def noticeArrival (s : State) (p : Pkt) : State :=
  let s := takeIn s p
  match arrivalDrop s p with
  | some s => s
  | none =>
    let w := payloadWord p 0
    if baseOf s ≠ 2 ∨ enteringTest s = true then s
    else event s (bits w 21 1) (bits w 13 8) (0x60 + bits w 8 36 * 2 ^ 8) (payloadWord p 1)

/-! ### One packet -/

/-- What picks the AT channel of an ATOMIC or LOCK (R23, R427): the hash of its domain and of DVA[47:3]; without a region of its KEY,
where the packet draws a NACK, the place that the packet names. -/
def atKey (s : State) (p : Pkt) : Nat :=
  match regionOf s p.key with
  | some i => Config.wordHash (rd s F.mrEntryDomain i) ((rd s F.mrEntryDva i + p.off - rd s F.mrEntryOffBase i) / 8 % 2 ^ 45)
  | none => p.key * 2 ^ 43 + p.off / 8

/-- A packet handed to the unit that its opcode names, with the port that it came in on. -/
def takePacket (s : State) (inp : Nat) (p : Pkt) : State :=
  if opUnitBound p.op then controlArrival s inp p
  else if p.op = opClUp ∨ p.op = opClDown then clArrival s p
  else if p.op = opExBatch then batchArrival s p
  else if p.op = opExCredit then creditArrival s p
  else if p.op = opLockNotice then noticeArrival s p
  else if p.op = opAtomic ∨ p.op = opLock then arrive (work s 4 (atKey s p) p.tc) p
  else arrive s p

/-- A packet that arrives: buffered while HOLD is active (R34), else taken in. -/
def handPacket (s : State) (inp : Nat) (p : Pkt) : State :=
  if holdOn s then setTxn s fun t => { t with held := t.held ++ [.arrival inp p] } else takePacket s inp p

end Sys2Proof.Machine
end

