-- ==== Sys2Proof/Machine/Hold.lean ====
section
/-!
DEFINITION. Machine/Hold.lean: MCTP (R556 to R558), and the end of a HOLD (R34, R39 to R41, R53, R64, R543 to R546).
-/

namespace Sys2Proof.Machine

/-! ### MCTP -/

/-- Whether a BAR0 offset of an MCTP access names a place in Table 02-9, 8-byte aligned (R557). -/
def mctpOffOk (off : Nat) : Bool := off % 8 == 0 && decide (off < 0x0C000000)

/-- CSR_READ (R557): in RECOVERY TOP_IDENT, MODE_STAT, MODE_EVT and the FW registers only (R550). -/
def mctpRead (s : State) (off : Nat) : State :=
  if !mctpOffOk off then emit s (.mctp 2 [])
  else if inRecovery s && !(recoveryServes off || off == 0x110) then emit s (.mctp 3 [])
  else
    let r := csrRead s off 64
    emit r.1 (.mctp 0 [r.2])

/-- A write by the management controller, and whether it was refused: whether TOP_CSR_REFUSED counted it (R557). -/
def mgmtWrite (s : State) (off : Nat) (v : Word) (env : CsrEnv) : State × Bool :=
  let before := rd s F.topCsrRefusedCount
  let s' := csrApply env (wr s F.topCsrRefusedCount 0) .mgmt off v
  if s'.fc.chipReset && !s.fc.chipReset then (s', false)
  else
    let n := rd s' F.topCsrRefusedCount
    (wr s' F.topCsrRefusedCount (satAdd 32 before n), n != 0)

/-- CSR_WRITE (R557). -/
def mctpWrite (s : State) (off : Nat) (v : Word) (env : CsrEnv) : State :=
  if !mctpOffOk off then emit s (.mctp 2 [])
  else if inRecovery s then emit s (.mctp 3 [])
  else
    let r := mgmtWrite s off v env
    emit r.1 (.mctp (bit r.2) [])

/-- One MCTP request answered (Table 18-7).  Completion codes of DOWNLOAD and ACTIVATE are the CAUSE of the refusal, and what
the plinth does not accept completes with code 3 (log entry 53). -/
def mctpDo (s : State) (r : MctpReq) : State :=
  match r with
  | .status => emit s (.mctp 0 [csrView s 0x00300000, csrView s 0x00300008, csrView s 0x00300010])
  | .download slot off data =>
    let c := fwRefusal s .mgmt false slot (blockOk off data.length)
    let s := download s .mgmt slot off data.length none data
    emit s (.mctp c [csrView s 0x00300030])
  | .activate slot =>
    let c := fwRefusal s .mgmt true slot true
    emit (activate s .mgmt slot) (.mctp c [])
  | .cert i => if inRecovery s then emit s (.mctp 3 []) else emit s (.mctp 0 (Config.certificate i))
  | .attest i3c nonce => attest s i3c nonce
  | .confirm => if inRecovery s then emit s (.mctp 3 []) else emit (fwConfirm s) (.mctp 0 [])
  | .csrRead off => mctpRead s off
  | .csrWrite off v env => mctpWrite s off v env

/-- Whether the request at the head must wait: MCTP pauses while no firmware runs (R518, R542), and a write waits for the end
of HOLD (R557). -/
def mctpWaits (s : State) (r : MctpReq) : Bool :=
  !firmwareRuns s || (match r with
    | .csrWrite _ _ _ => holdOn s
    | _ => false)

/-- The first request that may be answered, and the others: each transport answers in arrival order, so a request behind one of its
transport that waits, waits too. -/
def mctpPick (s : State) (blocked : List Nat) : List (Nat × MctpReq) → Option (MctpReq × List (Nat × MctpReq))
  | [] => none
  | (t, r) :: l =>
    if blocked.contains t || mctpWaits s r then (mctpPick s (t :: blocked) l).map fun x => (x.1, (t, r) :: x.2)
    else some (r, l)

/-- Requests answered until each transport's next one must wait (R557). -/
def mctpRun : Nat → State → State
  | 0, s => s
  | n + 1, s =>
    match mctpPick s [] s.fw.waiting with
    | none => s
    | some (r, rest) => mctpRun n (mctpDo (setFw s fun w => { w with waiting := rest }) r)

/-- A request received over a transport, a host port's PCIe VDM or I3C (2): it takes its place behind those that wait. -/
def mctpIn (s : State) (via : Nat) (r : MctpReq) : State :=
  let s := setFw s fun w => { w with waiting := w.waiting ++ [(via, r)] }
  mctpRun s.fw.waiting.length s

/-- What a register write meets outside the registers when its row carries nothing of the kind. -/
def noEnv : CsrEnv := { held := [], flashOk := true }

/-- A register write by whoever may issue it: over BAR0, or as a CSR_WRITE message of the management controller, over I3C. -/
def csrWriteBy (s : State) (who : Who) (key width : Nat) (w : Word) (env : CsrEnv) : State :=
  match who with
  | .fn hp fn => hostWrite s hp fn key width w env
  | .mgmt => mctpIn s 2 (.csrWrite key w env)

/-- A write of a BAR0 offset as the writer sees it (R448). -/
def csrWriteAt (s : State) (who : Who) (off width : Nat) (w : Word) (env : CsrEnv) : State :=
  match who, csrKey who off with
  | .mgmt, _ => mctpIn s 2 (.csrWrite off w env)
  | .fn hp fn, some key => hostWrite s hp fn key width w env
  | .fn hp fn, none =>
    let s := wakePort s hp
    if fnSilent s hp fn || !fnEnabled s hp fn then s else if width < 64 then refuseWrite s else s

/-! ### The end of a HOLD -/

/-- A read of an alias slot by a function (R438): NOT_BOUND at once when the slot is not bound to it, else in its turn. -/
def aliasTaken (s : State) (hp fn i off : Nat) : State :=
  if fnSilent s hp fn || !fnEnabled s hp fn then emit s (.unsupported (.fn hp fn) (64 * i + off))
  else if !aliasBound s hp fn i then aliasData (drawn s) hp fn i off (aliasWord 8 (freeNat s))
  else
    let before := mgetD s.at'.reads i []
    let due := s.timeNs + 1000 * (waitLimit s (rd s F.atAliasWaitUs i) + rd s F.atCfgAliasMarginUs)
    let r : AliasRead := { id := s.at'.nextRead, hp := hp, fn := fn, off := off, since := s.timeNs, dueAt := due }
    let s := setAt s fun a => { a with reads := mset a.reads i (before ++ [r]), nextRead := a.nextRead + 1 }
    let s := pmSample (wrb s F.atAliasPending true i) 0 4 (aliasId i r.id)
      [rd s F.atAliasEc i, 9, aliasOff s i, selfId s, rd s F.atAliasDev i, 5, 16]
    if before.isEmpty then beginAlias s i else s

/-- One thing that HOLD put off. -/
def heldDo (s : State) (h : HeldAcc) : State :=
  match h with
  | .write who key w env =>
    (match who with
    | .fn hp fn => if fnSilent s hp fn || !fnEnabled s hp fn then s else csrApply env s who key w
    | .mgmt => csrApply env s who key w)
  | .read who off width =>
    (match who with
    | .fn hp fn => readNow s hp fn off width
    | .mgmt => s)
  | .arrival inp p => takePacket s inp p
  | .aliasRd hp fn i off => aliasTaken s hp fn i off

/-- What resumes when HOLD has ended (R34, R39, R41, R167): the drops that it put off, RELAY, recalibrations, what it held, MCTP
writes and CXL.mem accesses. -/
def resumeHold (s : State) : State :=
  let s := refreshRelay (setHold s false)
  let s := dropHeld s
  let s := (List.range 16).foldl nextRecal s
  let held := s.txn.held
  let s := held.foldl heldDo (setTxn s fun t => { t with held := [] })
  moveAccs (mctpRun s.fw.waiting.length s)

/-- The switch of the HOLD's purpose: a re-cast, an activation, or a fallback. -/
def switchSwap (s : State) : State :=
  let w := s.txn.swap
  let s := setTxn s fun t => { t with swap := .none }
  match w with
  | .none => s
  | .recast => switchRecast s
  | .activation => switchActivation s
  | .fallback => switchFallback s

/-- HOLD ends as it should (R34, R53, R543, R544). -/
def endHold (s : State) : State :=
  if holdOn s then
    let t := switchSwap s
    resumeHold (if s.txn.swap = .recast ∧ bitAt (recastMask s) 2 = true then reorderStreams s t else t)
  else s

/-- HOLD abandoned by a fault (R40, R64, R546): nothing is switched. -/
def abandonHold (s : State) : State :=
  if holdOn s then
    let w := s.txn.swap
    let s := modeEntry (setTxn s fun t => { t with swap := .none }) 1
    let s := match w with
      | .none => s
      | .recast => abortTxn s 11
      | .activation => bootBack s 8
      | .fallback => bootBack s 8
    resumeHold s
  else s

end Sys2Proof.Machine
end

