-- ==== Sys2Proof/Machine/Fin.lean ====
section
/-!
DEFINITION. Machine/Fin.lean: what follows from a command inside the device before the next one begins: the ends of
messages reported to what they served (R262), faults taken by the collector (R512), retries of what a page held up (R340), closes
and DESTROYs that wait for nothing any more, and the counters of 20.
-/

namespace Sys2Proof.Machine

/-! ### Ends of messages -/

/-- Bytes that a message moved (R456 LEN): its data so far acknowledged, without the prefix of a SEND; of ATOMIC and LOCK the bytes
of the result (log entry 54). -/
def movedBytes (m : Slot) : Nat :=
  if m.op = opAtomic ∨ m.op = opLock then (m.kept.getD []).length
  else
    let n := min m.total (4096 * m.base) + (m.acked.filter (m.base ≤ ·)).foldl (fun n k => n + chunkBytes m.total k) 0
    min (n - m.prefixBytes.length) (m.total - m.prefixBytes.length - (if m.flag.isSome then 16 else 0))

/-- RESULT words of a message's completion (Table 15-4): of ATOMIC the old value, of LOCK the two words of LOCK_RSP. -/
def resultWords (m : Slot) : Nat × Nat :=
  let bs := m.kept.getD []
  if m.op = opAtomic then (ofBytes (bs.take 8), 0)
  else if m.op = opLock then (ofBytes (bs.take 8), ofBytes ((bs.drop 8).take 8))
  else (0, 0)

/-- The end of an RTS (R288 to R290): on success its FIN is still to come; else the send ends with it and the entry is freed. -/
def rtsEnded (s : State) (m : Slot) (i status detail outcome : Nat) : State :=
  match mget s.mt.rdv i with
  | none => s
  | some r =>
    if status = 0 ∨ r.origin ≠ m.origin then s
    else
      let s := refreshMt (setMt s fun t => { t with rdv := mdel t.rdv i })
      startWaiting (descDone s r.origin status outcome detail 0 0 0)

/-- The end of the LOCK message of an alias read (R438, R439): its result, or UNKNOWN with a CLEANUP for an acquire. -/
def aliasEnded (s : State) (m : Slot) (i id status : Nat) : State :=
  match mgetD s.at'.reads i [] with
  | [] => s
  | r :: _ =>
    if r.id ≠ id then s
    else
      let w := resultWords m
      let s := if status = 0 then answerAlias s i (aliasWord (w.2 % 16) w.1)
        else
          let s := answerAlias (drawn s) i (aliasWord 9 (freeNat s))
          if r.off / 8 ≤ 1 then sendCleanup s m else s
      beginAlias s i

/-- The end of a message reported to what it served (R262). -/
def msgEnded (s : State) (m : Slot) (status detail outcome : Nat) : State :=
  match m.origin with
  | .desc _ _ _ _ _ =>
    (match m.rdv with
    | some i => rtsEnded s m i status detail outcome
    | none =>
      let w := resultWords m
      descDone s m.origin status (if status = 0 then 0 else outcome) detail (movedBytes m) w.1 w.2)
  | .rdvGet id =>
    (match mget s.mt.recvs id with
    | some r => endRdv s id r status (if status = 3 then detail else 0) (status == 4 || status == 15)
    | none => s)
  | .fin => s
  | .window id => gwEnded s id status m
  | .abandon h => if status = 0 then delHold s h else s
  | .cleanup => s
  | .aliasRd i id => aliasEnded s m i id status

/-! ### Faults -/

/-- A fault of a source (R512): recorded, a HOLD that its reactions end is abandoned (R40), and the reactions follow; `wire` marks the
entry of a broken wire (R508). -/
def raiseFault (s : State) (src inst : Nat) (wire : Bool) : State :=
  let react := takenFor s src inst
  let s := recordError s src inst react wire
  let s := if endsHold react && !bitAt react 6 then abandonHold s else s
  applyReact s src inst react

/-- A source's pair has changed to error (R508, R512); a broken wire reports nothing more. -/
def takeFault (s : State) (src inst : Nat) : State :=
  if rdb s F.fcSrcWireBroken src then s else raiseFault s src inst false

/-! ### Work that goes on -/

/-- A message whose page fault is resolved (R340, R341): the result kept is placed, a GET asks again for what is missing, but for what
waits for its BACKOFF_US (R251); it fails when a packet may have no further copy (R253). -/
def retrySlot (s : State) (id : Nat) : State :=
  match slotOf s id with
  | none => s
  | some m =>
    if m.stall.isSome || m.walking then s
    else if m.kept.isSome && m.op != opGetReq then placeKept s m
    else if m.op = opGetReq then
      let l := (pendingPsns m).filter fun k => match mget m.copies k with
        | some c => !c.waiting
        | none => false
      if l.any fun k => match mget m.copies k with
        | some c => !copyAllowed s c
        | none => false
      then failMsg s m 1 0
      else
        let r := resendAll s m l
        setSlot r.1 r.2
    else s

/-- One notice acted on. -/
def handle (s : State) (n : Notice) : State :=
  match n with
  | .fault src inst => takeFault s src inst
  | .ended m status detail outcome => msgEnded s m status detail outcome
  | .linkLost req _ msgid psn => linkLost s req msgid psn
  | .neverLeft msgid psn => copyStayed s msgid psn
  | .recvRetry id => flushRecv (((mget s.mt.recvs id).map fun r => r.pend.length).getD 0 + 1) s id
  | .slotRetry id => retrySlot s id
  | .collRetry g => ((grp s g).ops.map (·.1)).foldl (fun s q => flushOp 65536 s g q) s
  | .descFail k kind =>
    (match nextDesc s k with
    | some (w, d) => descFails s k { w with stall := none, walking := false } d kind
    | none => s)
  | .patina kind i => notePatina s kind i
  | .count block code inst value => pmCounted s block code inst value
  | .sample phase _ id info => sampleStep s phase id info

/-- Notices acted on, those that they cause with them. -/
def drainNotices : Nat → State → State
  | 0, s => s
  | n + 1, s =>
    match s.notices with
    | [] => s
    | l => drainNotices n (l.foldl handle { s with notices := [] })

/-! ### What waits inside the device -/

/-- Held completions of ports that serve, written as their rings have room (R462). -/
def drainCqs (s : State) : State :=
  (s.hi.cqs.filter fun e => !e.2.held.isEmpty).foldl (fun s e => cqDrain (e.2.held.length + 1) s e.1) s

/-- Messages and receives whose end waited for room in their CQ (R462). -/
def finishHeld (s : State) : State :=
  let s := s.tp.slots.foldl (fun (s : State) (e : Nat × Slot) =>
    match mget s.tp.slots e.1 with
    | some m => (match m.finish with
      | some (st, d, o) => endMsg s { m with finish := none } st d o
      | none => s)
    | none => s) s
  s.mt.recvs.foldl (fun (s : State) (e : Nat × Recv) =>
    match mget s.mt.recvs e.1 with
    | some r => (match r.finish with
      | some (st, d) => endRecv s e.1 { r with finish := none } st d r.dataLen
      | none => s)
    | none => s) s

/-- Walks whose domain is gone end as DOMAIN, and those of a port that does not serve as WALK_ABORT (R315, R325). -/
def endDeadWalks (s : State) : State :=
  s.xl.walks.foldl (fun (s : State) (e : Nat × Walk) =>
    match mget s.xl.walks e.1 with
    | some w =>
      if rdb s F.xlDomValid w.dom = false then walkEnded s e.1 w (.fault 2 0)
      else if serving s (rd s F.xlDomHp w.dom) = false then walkEnded s e.1 w (.fault 4 3)
      else s
    | none => s) s

/-- Local work that waits for a free fault-table entry goes on when there is one (R342). -/
def freeWaiting (s : State) : State :=
  if s.mr.faults.length < 4096 ∧ (!(stalledOn s 4096).isEmpty || !(stalledRecvs s 4096).isEmpty || !(stalledWqs s 4096).isEmpty
      || stalledOps s 4096) = true then releaseStalled s 4096
  else s

/-- Everything that waits for a condition which the command may have brought about. -/
def settleAll (s : State) : State :=
  let s := s.tp.ecs.foldl (fun (s : State) (e : Nat × EcCtx) => settleClose s e.1) s
  let s := s.hi.wqs.foldl (fun (s : State) (e : Nat × Wq) => settleWq s e.1) s
  let s := runWaiting (freeWaiting (endDeadWalks (fetchParked (dropParked s))))
  startReads (writeShadows (settleResets (finishHeld (retireWaiting (drainCqs s)))))

/-- What a change of BROWNOUT or FENCE stops or starts (R63, R500, R547, R548). -/
def condActions (before s : State) : State :=
  let s := if brownOn s && !brownOn before then stopPrep s else s
  let s := if (brownOn s && !brownOn before) || (fenceOn s && !fenceOn before) then lateMode s else s
  let s := brownActions s
  if s.fw.pendFall then resumeFall s else s

/-- Bytes read from and written to host memory since a state, for the counters of HI (Table 20-1), and ports that their
TLPs wake (R467). -/
def countBytes (before s : State) : State :=
  (s.out.drop before.out.length).foldl (fun s o =>
    match o with
    | .hostRead hp _ n => wakePort (pmCount s 0xA0 hp 1 n) hp
    | .hostWords hp _ ws => wakePort (pmCount s 0xA0 hp 2 (8 * ws.length)) hp
    | .hostBytes hp _ bs => wakePort (pmCount s 0xA0 hp 2 bs.length) hp
    | .msix hp _ _ => wakePort s hp
    | _ => s) s

/-- The follow-up of a command that began in `before`. -/
def follow (before s : State) : State :=
  let s := drainNotices 64 s
  let s := drainNotices 64 (condActions before s)
  let s := drainNotices 64 (settleAll s)
  let s := drainNotices 64 (settleAll s)
  drainNotices 8 (countBytes before s)

/-- Whether a command has left nothing that could need a follow-up: no notice, the queues, messages, regions, translations and
locks as they were, nothing sent, the conditions, the serving ports and the port of write-backs as they were, and no CI shadow due. -/
def quiet (before s : State) : Bool :=
  s.notices.isEmpty && s.hi == before.hi && s.tp == before.tp && s.mt == before.mt && s.mr == before.mr && s.xl == before.xl
    && s.at' == before.at' && s.out == before.out
    && serving s 0 == serving before 0 && serving s 1 == serving before 1
    && wbPort s == wbPort before && brownOn s == brownOn before && fenceOn s == fenceOn before && holdOn s == holdOn before
    && s.hi.wqs.all fun e => e.2.ci == e.2.shadowCi

/-- The end of every command: its follow-up, the queue as it was, and MODE_STAT.MODE in step with the base state and the
conditions (R27). -/
def settled (before s : State) : State :=
  let s := if quiet before s then s else follow before s
  refreshMode { s with pending := before.pending }

/-- A command's answer. -/
def done (before s : State) : Res := .next (settled before s)

/-- What passes with no command waiting: one nanosecond, and whatever it brings about (log entry 7). -/
def tick (s : State) : Res := done s { s with timeNs := s.timeNs + 1 }

end Sys2Proof.Machine
end

