-- ==== Sys2Proof/Machine/Inject.lean ====
section
/-!
DEFINITION. Machine/Inject.lean: the gates that a request packet's first copy passes (R481): the kiln gate (R491 to R495),
the function's policer (R488, R489), the flow window and ceiling (R266, R267), the end-to-end window (R218); and what is read
from host memory for it.
-/

namespace Sys2Proof.Machine

/-! ### The next packet of a message -/

/-- Whether a message is bulk work of class B1 now: a write-back is latency work while R369 makes it so. -/
def isBulk (s : State) (m : Slot) : Bool :=
  m.bulk && !(match m.origin with
    | .window _ => dirtyWaits s
    | _ => false)

/-- Packets of the next request (R239, R249): one, or of a GET up to 64 that fit between the lowest unacknowledged packet and the
64th from it. -/
def nextCount (m : Slot) : Nat :=
  if m.op = opGetReq then min 64 (min (m.npkts - m.next) (m.base + 64 - m.next)) else min 1 (min (m.npkts - m.next) (m.base + 64 - m.next))

/-- The source data of a packet: its offset in the source buffer and its bytes, without the match prefix of a SEND (R275) and the
flag record (R259). -/
def dataSpan (m : Slot) (psn : Nat) : Nat × Nat :=
  let pre := m.prefixBytes.length
  let all := m.total - pre - (if m.flag.isSome then 16 else 0)
  let lo := min all (4096 * psn - pre)
  (lo, min all (4096 * (psn + 1) - pre) - lo)

/-- The payload of a packet with its data (R249, R259, R275, R279). -/
def packetPayload (m : Slot) (psn count : Nat) (data : List Byte) : List Byte :=
  if m.op = opGetReq then getReqPayload m.total count
  else
    let pre := if psn = 0 then m.prefixBytes else []
    let post := match m.flag with
      | some (off, v) => if psn + 1 = m.npkts then toBytes 8 (off % 2 ^ 46) ++ toBytes 8 v else []
      | none => []
    pre ++ data ++ post

/-- Payload bytes of the next request; of a GET_REQ, the bytes it asks for (R266, R488, R495). -/
def requestBytes (m : Slot) (count : Nat) : Nat :=
  if m.op = opGetReq then (List.range count).foldl (fun n i => n + chunkBytes m.total (m.next + i)) 0 else chunkBytes m.total m.next

/-! ### Gates -/

/-- A unit noted as waiting at the gate: its class in this period (R494), and once in the counter of deferred units. -/
def deferUnit (s : State) (cls kind a b : Nat) : State :=
  let s := noteWait s cls
  if s.kn.deferred.contains (kind, a, b) then s
  else pmCount (setKn s fun k => { k with deferred := (kind, a, b) :: k.deferred }) 0xB0 cls 1 1

/-- A unit of n bytes at the kiln gate (R491, R493): it starts, or waits. -/
def atGate (s : State) (cls kind a b n : Nat) : State × Bool :=
  if gateOpen s cls then (drawC (setKn s fun k => { k with deferred := k.deferred.erase (kind, a, b) }) cls n, true)
  else (deferUnit s cls kind a b, false)

/-- A message at the kiln gate. -/
def msgGate (s : State) (m : Slot) : State × Slot :=
  if m.gate then (s, m)
  else if !isBulk s m then (s, { m with gate := true, chunkEnd := m.next + nextCount m })
  else
    match atGate s 1 1 m.msgid 0 (requestBytes m (nextCount m)) with
    | (s, ok) => (s, { m with gate := ok, chunkEnd := m.next + nextCount m })

/-- A message at its policer (R488, R489); the class of a red packet names the counter of 20. -/
def msgPolice (s : State) (m : Slot) : State × Slot :=
  match policerOf s m.ec with
  | none => (s, { m with polPassed := true })
  | some i =>
    if m.polPassed then (s, m)
    else
      let count := m.chunkEnd - m.next
      let n := if m.op = opGetReq then requestBytes m count else 128 * flitsOf (requestBytes m count)
      let red := !m.held && colour s i n == 2 && m.bulk
      match police (if red then pmCount s 0xB0 1 2 1 else s) i n (!m.held) with
      | (s, 2) => (s, { m with held := true })
      | (s, 1) => (s, { m with polPassed := true, held := false, qtc := some (rd s F.scPolDemoteTc i) })
      | (s, _) => (s, { m with polPassed := true, held := false })

/-- How many packets of the next request the flow window lets go (R266): TC7 packets are not held by it (R268). -/
def flowCount (s : State) (m : Slot) : Nat :=
  let k := flowKey m.ec m.dst m.tc
  let room := flowW s k m.ec m.tc - flowBytes s k
  let n := min (nextCount m) (m.chunkEnd - m.next)
  if m.tc = 7 then n
  else
    ((List.range (n + 1)).filter fun c => decide (requestBytes m c * min c 1 ≤ room)).foldl max 0

/-- The spans of the EC's domain that a request needs before it goes, and the class of the access (R340): the source data of a PUT
or SEND, the destination of a GET_REQ, the result bytes of an ATOMIC or LOCK. -/
def localSpan (m : Slot) (count : Nat) : Option (Nat × Nat × Nat) :=
  match m.buf, m.result with
  | .dva a, _ =>
    let d := dataSpan m m.next
    if d.2 = 0 then none else some (a + d.1, d.2, 0)
  | _, .dva a =>
    if m.op = opGetReq then some (a + 4096 * m.next, requestBytes m count, 1)
    else some (a, if m.op = opLock then 16 else 8, 1)
  | _, _ => none

/-- The data of the next packet, from the message itself or as host memory returned it. -/
def nextData (m : Slot) (read : List Byte) : List Byte :=
  match m.buf with
  | .bytes bs =>
    let d := dataSpan m m.next
    (bs.drop d.1).take d.2
  | .dva _ => read
  | .none => []

/-- A request packet given to the injection scheduler: its record, its flits in the end-to-end window, and the next one's gates
closed again once all that passed them has been asked for. -/
def queueRequest (s : State) (m : Slot) (count : Nat) (data : List Byte) : State :=
  let payload := packetPayload m m.next count data
  let flits := flitsOf payload.length
  let last := if m.op = opGetReq ∨ m.next + 1 = m.npkts then flLast else 0
  let flags := last + (if m.flag.isSome ∧ m.next + 1 = m.npkts then flFlag else 0)
  let item := { copyItem s m m.next flags payload true with tc := m.qtc.getD m.tc }
  let cs := (List.range count).foldl (fun cs i => mset cs (m.next + i)
    (⟨0, 0, 0, 0, 0, 0, 0, false, 0, none, flags, if m.op = opGetReq then [] else payload, if i = 0 then flits else 0, 0, if m.op = opGetReq ∧ i = 0 then count else 0, 0⟩ : CopySt)) m.copies
  let s := if windowed m then e2eAdd s m.dst flits else s
  let s := touchFlow (queueItem (work s 0 m.ec m.tc) item) (flowKey m.ec m.dst m.tc) m.ec m.tc
  let m := { m with copies := cs, next := m.next + count, stalledE2e := false }
  setSlot s (if m.next < m.chunkEnd then m else { m with gate := false, polPassed := false, held := false, qtc := none, chunkEnd := 0 })

/-- The source or result bytes translated (R340), and the packet queued once they are; `read` is what host memory returns for
the source. -/
def buildRequest (s : State) (m : Slot) (count : Nat) (read : List Byte) : State :=
  match localSpan m count with
  | none => queueRequest s m count (nextData m read)
  | some (dva, n, cls) =>
    let adm := msgAdm s m dva n cls
    match translateAdm s adm with
    | (s, .ok l) =>
      let s := if cls = 0 then readPieces s adm.hp l else s
      queueRequest s m count (nextData m read)
    | (s, .miss d) => awaitWalk (setSlot s { m with walking := true }) adm.dom d (.msg m.msgid)
    | (s, .hard k d) => endMsg (recordFault s m.ec adm.dom cls 0 k d) m 15 k 0

/-- The gates after the kiln's and the policer's (R481): flow window, end-to-end window, whose wait counts once. -/
def windowsPass (s : State) (m : Slot) (read : List Byte) : State :=
  let count := flowCount s m
  if count = 0 then setSlot s m
  else if windowed m && !e2eRoom s m.dst (flitsOf (packetPayload m m.next count (nextData m read)).length) then
    setSlot (if m.stalledE2e then s else inc s F.rtCnt1E2eStall) { m with stalledE2e := true }
  else buildRequest s m count read

/-- Whether what host memory returned for a packet's source is of its length. -/
def readFits (m : Slot) (read : List Byte) : Bool :=
  match m.buf with
  | .dva _ => read.length == (dataSpan m m.next).2
  | _ => true

/-- Whether a message's source can be read now: its port serves. -/
def sourceServes (s : State) (m : Slot) : Bool :=
  match m.buf, ctxOf s m.ec with
  | .dva _, some c => serving s c.hp
  | .dva _, none => false
  | _, _ => true

/-- A message may send its next packet: it has one, 64 packets are not outstanding (R239), it waits for no page, and HOLD is not
active. -/
def maySend (s : State) (m : Slot) : Bool :=
  decide (0 < nextCount m) && m.stall.isNone && !m.walking && m.finish.isNone && m.kept.isNone && !holdOn s && sourceServes s m

/-- A TP channel's attempt to inject a message's next request packet (R218, R481); the context of its EC is fetched first. -/
def injectNext (s : State) (id : Nat) (read : List Byte) : State :=
  match slotOf s id with
  | none => s
  | some m =>
    if !maySend s m || !readFits m read then s
    else if (ctxOf s m.ec).isSome && !cached s m.ec then (if rangeServes s m.ec then fetchCtx s m.ec else s)
    else
      match msgGate s m with
      | (s, m) =>
        if !m.gate then setSlot s m
        else
          match msgPolice s m with
          | (s, m) => if m.polPassed then windowsPass s m read else setSlot s m

/-! ### Units at the kiln gate -/

/-- A message's next packet at the gate alone (R491). -/
def gateMsg (s : State) (id : Nat) : State :=
  match slotOf s id with
  | none => s
  | some m =>
    if isBulk s m && decide (0 < nextCount m) && !m.gate && !holdOn s then
      match msgGate s m with
      | (s, m) => setSlot s m
    else s

/-- A CL packet at the gate (R421): once through, it is queued. -/
def gateColl (s : State) (g k : Nat) : State :=
  match mget (grp s g).sends k with
  | none => s
  | some p =>
    if p.bulk && !p.gated && !holdOn s then
      match atGate s 2 2 g k p.payload.length with
      | (s, false) => s
      | (s, true) =>
        let s := setGrp s g { grp s g with sends := mset (grp s g).sends k { p with gated := true, at' := s.timeNs } }
        queueColl (work s 2 g p.tc) g p.dev p.up p.key p.seq p.psn p.off p.tc p.last p.payload
    else s

/-- A closed batch at the gate (R421). -/
def gateBatch (s : State) (j id : Nat) : State :=
  match mget (job s j).batches id with
  | none => s
  | some b =>
    if b.bseq.isSome && !b.gated && !b.sent && !holdOn s then
      match atGate s 3 3 j id b.bytes.length with
      | (s, false) => s
      | (s, true) => trySend (setJob (work s 3 j (rd s F.exJobTc j)) j { job s j with batches := mset (job s j).batches id { b with gated := true } }) j id
    else s

/-- The reading of a job's records at the gate (R421, R495): up to 4 KiB join what has been read. -/
def gateRecords (s : State) (j : Nat) : State :=
  match (job s j).sends.find? fun e => !(e.flush && e.mark.isSome) with
  | none => s
  | some d =>
    if d.flush || d.unread.isEmpty || holdOn s then s
    else if cutRecord s j d ≠ .more then s
    else
      match atGate s 3 4 j 0 (min 4096 d.unread.length) with
      | (s, false) => s
      | (s, true) =>
        let s := setJob (work s 3 j (rd s F.exJobTc j)) j { job s j with sends := (job s j).sends.map fun y =>
          if y = d then { d with unread := d.unread.drop 4096, rest := d.rest ++ d.unread.take 4096 } else y }
        moveJob s j

/-- A bulk unit at the gate: 1 a message, 2 a CL packet of a group, 3 a batch of a job, 4 record reading of a job. -/
def gateUnit (s : State) (kind a b : Nat) : State :=
  match kind with
  | 1 => gateMsg s a
  | 2 => gateColl s a b
  | 3 => gateBatch s a b
  | 4 => gateRecords s a
  | _ => s

/-- Whether a unit that was noted as waiting still waits. -/
def stillWaits (s : State) (u : Nat × Nat × Nat) : Bool :=
  match u.1 with
  | 1 => match slotOf s u.2.1 with
    | some m => isBulk s m && !m.gate && decide (0 < nextCount m)
    | none => false
  | 2 => match mget (grp s u.2.1).sends u.2.2 with
    | some p => !p.gated
    | none => false
  | 3 => match mget (job s u.2.1).batches u.2.2 with
    | some b => !b.gated && !b.sent
    | none => false
  | _ => (job s u.2.1).sends.any fun e => !e.unread.isEmpty

/-- The class of a unit: B1 messages, B2 CL packets, B3 exchange work (Table 16-3). -/
def unitClass (kind : Nat) : Nat := if kind = 1 then 1 else if kind = 2 then 2 else 3

/-- Units that still wait, noted for the period that begins (R494). -/
def keepWaiting (s : State) : State :=
  let l := s.kn.deferred.filter (stillWaits s)
  (l.map fun u => unitClass u.1).foldl noteWait (setKn s fun k => { k with deferred := l })

/-- A packet held by its policer marked again (R489). -/
def policeAgain (s : State) (id : Nat) : State :=
  match slotOf s id with
  | none => s
  | some m =>
    if m.held && !holdOn s then
      match msgPolice s m with
      | (s, m) => setSlot s m
    else s

end Sys2Proof.Machine
end

