-- ==== Sys2Proof/Machine/ExecXl.lean ====
section
/-!
DEFINITION. Machine/ExecXl.lean: the commands of 10, 11 and 12: translation, regions and paging, and the global memory window.
-/

namespace Sys2Proof.Machine

/-! ### Translation (10) -/

/-- XL_INVAL_CMD_WRITE (R317). -/
def execXlInvalCmdWrite (who : Who) (width : Nat) (val : Word) (s : State) : Res :=
  done s (csrWriteBy s who 0x06000108 width val noEnv)

/-- An invalidation that has nothing left to wait for completes (R318): DONE advances, or the INVAL descriptor completes. -/
def invalDone (s : State) (id : Nat) : State :=
  match mget s.xl.invals id with
  | none => s
  | some v =>
    if !invalReady s id v then s
    else
      let s := setXl s fun x => { x with invals := mdel x.invals id }
      let s := match v.seq with
        | some q => wr s F.xlInvalStatDone q
        | none => s
      match v.origin with
      | some o => descDone s o 0 0 0 0 0 0
      | none => s

/-- XL_INVAL_COMPLETE (R318): of an invalidation by its number. -/
def execXlInvalComplete (now : Nat) (id : Nat) (s : State) : Res := done s (invalDone (atTime s now) id)

/-- XL_DOM_WRITE (R322): of a domain's entry. -/
def execXlDomWrite (who : Who) (dom : Nat) (width : Nat) (val : Word) (s : State) : Res :=
  done s (if dom < 4096 then csrWriteBy s who ((F.xlDomValid).key dom) width val noEnv else s)

/-- A domain's sweep ends (R322). -/
def sweepDone (s : State) (dom : Nat) : State :=
  if s.xl.sweeps.contains dom then
    wrb (setXl s fun x => { x with sweeps := x.sweeps.erase dom }) F.xlDomSweep false dom
  else s

/-- DOMAIN_SWEEP_DONE (R322). -/
def execDomainSweepDone (dom : Nat) (s : State) : Res := done s (sweepDone s dom)

/-- A running walk ends with what its table reads returned, in order (R309). -/
def walkDone (s : State) (id : Nat) (reads : List WalkRead) : State :=
  match mget s.xl.walks id with
  | some w => if w.running then walkEnded s id w (walk s w.dom reads) else s
  | none => s

/-- PAGE_WALK_DONE (R309): of a walk by its number. -/
def execPageWalkDone (now : Nat) (id : Nat) (reads : List WalkRead) (s : State) : Res := done s (walkDone (atTime s now) id reads)

/-- The WQ of a doorbell page (Table 15-2): page n of PF0 belongs to WQ n, page k of a VF to WQ k of its block. -/
def pageWq (s : State) (hp fn page : Nat) : Option Nat :=
  if fn = 0 then (if page < 16384 then some (qKey hp page) else none)
  else if page < 64 ∧ rdb s F.hiVfMapValid (vfIdx hp fn) then some (qKey hp (64 * rd s F.hiVfMapWqBlock (vfIdx hp fn) + page))
  else none

/-- A store of XL_PKRR in a doorbell page (R312, R313): 64 bits wide, to a WQ that exists; bits 63:32 are reserved.  Descriptors
already fetched keep the value that they were fetched with. -/
def pkrrStore (s : State) (hp fn page width : Nat) (val : Word) : State :=
  if fnSilent s hp fn || !fnEnabled s hp fn || width != 64 then s
  else
    match (pageWq s hp fn page).bind fun k => mget s.hi.wqs k with
    | none => s
    | some w =>
      match ctxOf s w.ec with
      | some c => setCtx s w.ec { c with pkrr := val.toNat % 2 ^ 32 }
      | none => s

/-- What a read of XL_PKRR in a doorbell page returns (R313): the current value of the EC of the page's WQ, ones from a function that does
not answer, zero where no WQ is bound. -/
def pkrrRead (s : State) (hp fn page : Nat) : Nat :=
  if fnSilent s hp fn || !fnEnabled s hp fn then 2 ^ 64 - 1
  else
    match (pageWq s hp fn page).bind fun k => (mget s.hi.wqs k).bind fun w => ctxOf s w.ec with
    | some c => c.pkrr
    | none => 0

/-- XL_PKRR_WRITE (R313): through page `page` of a function's doorbell BAR. -/
def execXlPkrrWrite (hp fn page : Nat) (width : Nat) (val : Word) (s : State) : Res := done s (pkrrStore s hp fn page width val)

/-! ### Accesses, regions and paging (11) -/

/-- Whether what an access returns has the length that it asked for: the data of a GET_REQ, the 4 or
8 bytes of an atomic's word, the 8 bytes of a lock word. -/
def accFits (a : Acc) (data : List Byte) : Bool :=
  match a.what with
  | .write => true
  | .getRead p => match touched p 0 with
    | [] => true
    | x :: _ => data.length == x.2
  | .atomic p _ => data.length == (if p.op = opAtomic then atomicSize p else 8)

/-- HOST_ACCESS_FINISHED (R338): an access by its number, the data that its reads returned, and whether none of them ended with
poison, unsupported request or completer abort. -/
def execHostAccessFinished (now : Nat) (id : Nat) (data : List Byte) (ok : Bool) (s : State) : Res :=
  let s1 := atTime s now
  done s (match mget s1.mr.accs id with
    | some a => if ok && !accFits a data then s else accessFinished s1 id data ok
    | none => s)

/-- MR_CMD_REVOKE (R349). -/
def execMrCmdRevoke (who : Who) (width : Nat) (val : Word) (s : State) : Res := done s (csrWriteBy s who 0x06800008 width val noEnv)

/-- The zero-length read after the drain completes (R348): the region becomes FREE, and only then the commands and descriptors that
revoke it complete. -/
def revokeDone (s : State) (i : Nat) : State :=
  match mget s.mr.revokes i with
  | none => s
  | some r =>
    if !r.reading then s
    else
      let s := freeEntry (setMr s fun m => { m with revokes := mdel m.revokes i }) i
      let s := r.seqs.foldl (fun s q => cmdResult s q.1 q.2) s
      r.descs.foldl (fun s d => descDone s d.1 0 0 0 0 d.2 0) s

/-- REVOKE_FLUSH_READ_DONE (R348): of a region's entry. -/
def execRevokeFlushReadDone (now : Nat) (index : Nat) (s : State) : Res := done s (revokeDone (atTime s now) index)

/-- MR_PAGE_RESOLVE_RETRY (R343): a write with ACTION 1. -/
def execMrPageResolveRetry (who : Who) (width : Nat) (id : Nat) (s : State) : Res :=
  done s (csrWriteBy s who 0x06800020 width (BitVec.ofNat 64 (id % 4096 + 1 * 2 ^ 12)) noEnv)

/-- MR_PAGE_RESOLVE_FAIL (R343): a write with ACTION 2. -/
def execMrPageResolveFail (now : Nat) (who : Who) (width : Nat) (id : Nat) (s : State) : Res :=
  done s (csrWriteBy (atTime s now) who 0x06800020 width (BitVec.ofNat 64 (id % 4096 + 2 * 2 ^ 12)) noEnv)

/-- An entry unresolved for RESOLVE_LIMIT_MS is treated as FAIL (R344). -/
def resolveLimit (s : State) (id : Nat) : State :=
  match mget s.mr.faults id with
  | some f =>
    if f.failed = false ∧ f.since + ms (rd s F.mrPageCfgResolveLimitMs) ≤ s.timeNs then resolveFail s id f else s
  | none => s

/-- FAULT_RESOLVE_LIMIT_EXPIRED (R344): of a fault-table entry. -/
def execFaultResolveLimitExpired (now : Nat) (id : Nat) (s : State) : Res := done s (resolveLimit (atTime s now) id)

/-- A FAILED entry is freed after FAIL_HOLD_MS (R343). -/
def failHoldOver (s : State) (id : Nat) : State :=
  match mget s.mr.faults id with
  | some f => if f.failed ∧ f.since + ms (rd s F.mrPageCfgFailHoldMs) ≤ s.timeNs then freeFault s id else s
  | none => s

/-- FAULT_FAIL_HOLD_EXPIRED (R343). -/
def execFaultFailHoldExpired (now : Nat) (id : Nat) (s : State) : Res := done s (failHoldOver (atTime s now) id)

/-! ### The global memory window (12) -/

/-- Whether CXL.mem accesses can arrive on a port: its link is up, and the node is not in RELAY (R381, R473). -/
def cxlArrives (s : State) (hp : Nat) : Bool := decide (hp < 2) && rdb s F.hiPortStatLinkUp hp && !relayOn s

/-- A CXL.mem access at a host physical address (R357, R359): outside every committed decoder it names no span. -/
def cxlAccess (s : State) (hp addr op : Nat) (data : List Byte) (en : List Bool) (poison : Bool) : State :=
  let s := wakePort s hp
  if !cxlArrives s hp then s
  else
    match hdmDecode s hp addr with
    | some off => beginGw s hp addr off op data en poison
    | none => emit (if op = 0 then s else inc s F.gwCnt2NoSpan) (.cxl hp addr [] (op == 0))

/-- CXL_MEM_READ (R366): MemRd or MemRdData of the 64 bytes at an address. -/
def execCxlMemRead (now : Nat) (hp addr : Nat) (s : State) : Res := done s (cxlAccess (atTime s now) hp addr 0 [] [] false)

/-- CXL_MEM_WRITE (R367): MemWr of 64 bytes. -/
def execCxlMemWrite (now : Nat) (hp addr : Nat) (data : List Byte) (poison : Bool) (s : State) : Res :=
  done s (if data.length = 64 then cxlAccess (atTime s now) hp addr 1 data [] poison else s)

/-- CXL_MEM_WRITE_PARTIAL (R367): MemWrPtl of 64 bytes with their byte enables. -/
def execCxlMemWritePartial (now : Nat) (hp addr : Nat) (data : List Byte) (en : List Bool) (poison : Bool) (s : State) : Res :=
  done s (if data.length = 64 ∧ en.length = 64 then cxlAccess (atTime s now) hp addr 2 data en poison else s)

/-- CXL_MEM_SPEC_READ (R358): accepted and discarded. -/
def execCxlMemSpecRead (now : Nat) (s : State) : Res := done s (atTime s now)

/-- A GET of the window that has ended (R366, R371): of a line, or of one sector around the far cache. -/
def fetchDone (s : State) (id : Nat) : State :=
  match mget s.gw.msgs id with
  | some ⟨.fetch line no, some (st, data)⟩ => fetchEnd s id line no st data
  | some ⟨.sector a, some (st, data)⟩ => moveAccs (ownEnd s id a st data)
  | _ => s

/-- FAR_CACHE_FETCH_DONE (R366): of a window message that has ended. -/
def execFarCacheFetchDone (now : Nat) (id : Nat) (s : State) : Res := done s (fetchDone (atTime s now) id)

/-- The write-back of a run of sectors has ended (R370); fetches that wait for a way look again. -/
def writtenBack (s : State) (id : Nat) : State :=
  match mget s.gw.msgs id with
  | some ⟨.writeBack line first n, some (st, _)⟩ => retryFills (wbEnd s id line first n st)
  | _ => s

/-- WRITE_BACK_PUT_DONE (R370). -/
def execWriteBackPutDone (now : Nat) (id : Nat) (s : State) : Res := done s (writtenBack (atTime s now) id)

/-- A PUT of a host write has ended (R374, R377). -/
def ownPutDone (s : State) (id : Nat) : State :=
  match mget s.gw.msgs id with
  | some ⟨.put a, some (st, data)⟩ => moveAccs (ownEnd s id a st data)
  | _ => s

/-- SHARED_RW_PUT_DONE (R374). -/
def execSharedRwPutDone (now : Nat) (id : Nat) (s : State) : Res := done s (ownPutDone (atTime s now) id)

/-- A kept line written back again WB_RETRY_MS after its last failure (R370). -/
def retryLine (s : State) (line : Nat) : State :=
  match mget s.gw.lines line with
  | some l => if l.kept ∧ l.keptAt + ms (rd s F.gwCfgWbRetryMs) ≤ s.timeNs then writeBack s line else s
  | none => s

/-- WB_RETRY_TIMER (R370): of a line. -/
def execWbRetryTimer (now : Nat) (line : Nat) (s : State) : Res := done s (retryLine (atTime s now) line)

/-- LIMIT_US has passed for an access (R376, R377): a read returns poison; a write that is sent to the home, or that waits under
R368, is completed as lost. -/
def accLimit (s : State) (id : Nat) : State :=
  match mget s.gw.accs id with
  | none => s
  | some a =>
    if s.timeNs < a.since + us (rd s F.gwCfgLimitUs) then s
    else if a.op = 0 then moveAccs (poisonRead s id a)
    else if rd s F.gwSpanMode (spanOf a.off) = 3 ∨ a.msgs ≠ [] ∨ a.stalled = true then moveAccs (loseWrite s id a)
    else s

/-- GW_LIMIT_EXPIRED (R376): of an access by its number. -/
def execGwLimitExpired (now : Nat) (id : Nat) (s : State) : Res := done s (accLimit (atTime s now) id)

/-- A word of GW_FLUSH_CMD. -/
def flushWord (action scope lines : Nat) : Word := BitVec.ofNat 64 (action % 4 + scope % 4 * 2 ^ 2 + lines % 2 ^ 21 * 2 ^ 24)

/-- GW_FLUSH_WRITEBACK (R372). -/
def execGwFlushWriteback (who : Who) (width scope lines : Nat) (s : State) : Res :=
  done s (csrWriteBy s who 0x07000108 width (flushWord 1 scope lines) noEnv)

/-- GW_FLUSH_EVICT (R372). -/
def execGwFlushEvict (who : Who) (width scope lines : Nat) (s : State) : Res :=
  done s (csrWriteBy s who 0x07000108 width (flushWord 2 scope lines) noEnv)

/-- GW_FLUSH_DISCARD (R372); a discard frees ways for fetches that wait (R371). -/
def execGwFlushDiscard (who : Who) (width scope lines : Nat) (s : State) : Res :=
  done s (retryFills (csrWriteBy s who 0x07000108 width (flushWord 3 scope lines) noEnv))

/-- The earliest pending flush command completes once nothing is left in its scope to wait for (R372, R373); a flush of R380 reports
nothing. -/
def gwFlushOver (s : State) : State :=
  let ready := s.gw.flushes.filter fun f => flushReady s f
  match ready.find? (fun f => f.seq.isNone), s.gw.flushes.find? (fun f => f.seq.isSome) with
  | some f, _ => moveAccs (setGw (evictClean s) fun g => { g with flushes := g.flushes.erase f })
  | none, some f =>
    if !flushReady s f then s
    else
      let s := setGw (evictClean s) fun g => { g with flushes := g.flushes.erase f }
      moveAccs (wr (wr s F.gwFlushStatDone (f.seq.getD 0)) F.gwFlushStatResult (bit f.failed))
  | none, none => s

/-- GW_FLUSH_COMPLETE (R373). -/
def execGwFlushComplete (now : Nat) (s : State) : Res := done s (gwFlushOver (atTime s now))

/-- The commit of an HDM decoder (R357): interleave ways of 1, base and size in multiples of 256 MiB, and a DPA range within 128 TiB;
else error not committed. -/
def commitHdm (s : State) (hp i base size skip ways : Nat) : State :=
  let k := hp * 8 + i
  let d : Hdm := { base := base, size := size, skip := skip, committed := true, error := false }
  let with' := fun (x : Hdm) => setGw s fun g => { g with hdm := mset g.hdm k x }
  let good := ways == 1 && base % 2 ^ 28 == 0 && size % 2 ^ 28 == 0 && decide (hdmDpa (with' d) hp i + size ≤ 2 ^ 47)
  if good then with' d else with' { d with committed := false, error := true }

/-- HDM_DECODER_COMMIT (R357): decoder `i` of a port. -/
def execHdmDecoderCommit (hp dec base size skip ways : Nat) (s : State) : Res :=
  done s (if hp < 2 ∧ dec < 8 ∧ fnSilent s hp 0 = false then commitHdm s hp dec base size skip ways else s)

end Sys2Proof.Machine
end

