-- ==== Sys2Proof/Machine/ExecDesc.lean ====
section
/-!
DEFINITION. Machine/ExecDesc.lean: the commands of 15 at a work queue: doorbells, push slots, ring reads (R458 to R460), and what each
operation of Table 15-3 does when its descriptor starts.
-/

namespace Sys2Proof.Machine

/-! ### Doorbells -/

/-- A doorbell that is discarded with its push slots and counted (R459). -/
def discardBell (s : State) (hp fn : Nat) (k : Option Nat) : State :=
  let s := inc s F.qmFnStatDbDiscard 1 (fnIdx hp fn)
  match k with
  | some k => clearPush s k
  | none => s

/-- The descriptor in push slot i, if all of its 64 bytes have been written (R458). -/
def pushed (s : State) (k i : Nat) : Option (List Word) :=
  let bs := ((mgetD s.hi.push k []).drop (64 * i)).take 64
  if bs.length = 64 ∧ bs.all Option.isSome = true then
    some ((List.range 8).map fun w => BitVec.ofNat 64 (ofBytes (((bs.drop (8 * w)).take 8).map fun b => b.getD 0)))
  else none

/-- The XL_PKRR that a descriptor of a WQ is fetched with, as its ninth word (R313). -/
def pkrrWord (s : State) (w : Wq) : Word :=
  match ctxOf s w.ec with
  | some c => BitVec.ofNat 64 c.pkrr
  | none => 0

/-- An accepted doorbell (R458, R459): the pushed copies of new positions, and PI. -/
def acceptBell (s : State) (k : Nat) (w : Wq) (pi n new : Nat) : State :=
  let cache := (List.range n).foldl (fun (m : Map (List Word)) i =>
    if n - i ≤ new then
      match pushed s k i with
      | some d => mset m (ringAdd w.log2 pi (2 ^ (w.log2 + 1) - (n - i))) (d ++ [pkrrWord s w])
      | none => m
    else m) w.cache
  let s := (positions w.log2 w.pi pi).foldl (fun s p => pmSample s 0 0 (descId k p) [w.ec, 0, 0, selfId s, selfId s, 0, 0]) s
  clearPush (setWq s k { w with pi := pi, cache := cache }) k

/-- A doorbell that reaches a READY WQ (R459): an overrun puts it into ERROR; a PI that is no advance does nothing. -/
def ringBell (s : State) (k : Nat) (w : Wq) (pi n : Nat) : State :=
  let ahead := ringCount w.log2 pi w.ci
  let new := ringCount w.log2 pi w.pi
  if 2 ^ (w.log2 + 1) ≤ pi ∨ 2 ^ w.log2 < ahead then wqError (clearPush s k) k 1
  else if new = 0 ∨ ahead < ringCount w.log2 w.pi w.ci then clearPush s k
  else acceptBell s k w pi n new

/-- A 64-bit store to the doorbell of a page (R458, R459, R611): PI [16:0], PUSH [19:17]. -/
def doorbell (s : State) (hp fn page width : Nat) (val : Word) : State :=
  let s := wakePort s hp
  let k := pageWq s hp fn page
  let d3 := (portOf s hp).d3hot.contains fn
  if (fnSilent s hp fn && !d3) || !fnEnabled s hp fn || width != 64 then s
  else if d3 || baseOf s != 2 || enteringTest s || !serving s hp then discardBell s hp fn k
  else
    match k.bind fun k => (mget s.hi.wqs k).map fun w => (k, w) with
    | none => discardBell s hp fn k
    | some (k, w) =>
      if w.state == .error || w.destroying then discardBell s hp fn (some k)
      else ringBell s k w (wordGet val 0 17) (min 4 (wordGet val 17 3))

/-- DOORBELL_WRITE (R459): to page `page` of a function's doorbell BAR. -/
def execDoorbellWrite (now : Nat) (hp fn page : Nat) (width : Nat) (val : Word) (s : State) : Res :=
  done s (doorbell (atTime s now) hp fn page width val)

/-- Bytes written into the push slots of a page (R458): 8 to 64 of them, 8-byte aligned, at an offset into the page. -/
def pushBytes (s : State) (hp fn page off : Nat) (bs : List Byte) : State :=
  let s := wakePort s hp
  match pageWq s hp fn page with
  | none => s
  | some k =>
    if fnSilent s hp fn || !fnEnabled s hp fn || !mhas s.hi.wqs k || decide (off < 0x100) || decide (0x200 < off + bs.length)
        || off % 8 != 0 || bs.length % 8 != 0 || bs.isEmpty || decide (64 < bs.length) then s
    else
      let old := mgetD s.hi.push k []
      let old := old ++ List.replicate (256 - old.length) none
      let at' := off - 0x100
      setHi s fun h => { h with push := mset h.push k (old.take at' ++ bs.map some ++ old.drop (at' + bs.length)) }

/-- PUSH_SLOT_WRITE (R458). -/
def execPushSlotWrite (hp fn page off : Nat) (bytes : List Byte) (s : State) : Res := done s (pushBytes s hp fn page off bytes)

/-- A ring read ends (R460): its descriptors join the prefetch cache, or the WQ enters ERROR with RING_READ. -/
def ringRead (s : State) (k : Nat) (ds : List (List Word)) (ok : Bool) : State :=
  match mget s.hi.wqs k with
  | none => s
  | some w =>
    if w.reading.isEmpty then s
    else if !ok then wqError (setWq s k { w with reading := [] }) k 3
    else if ds.length ≠ w.reading.length ∨ ds.any (fun d => d.length != 8) = true then s
    else
      let cache := (w.reading.zip ds).foldl (fun (m : Map (List Word)) e => mset m e.1 (e.2 ++ [pkrrWord s w])) w.cache
      setWq s k { w with reading := [], cache := cache }

/-- DESCRIPTOR_FETCH_DONE (R460): of the read that runs for a WQ. -/
def execDescriptorFetchDone (now : Nat) (hp wq : Nat) (descs : List (List Word)) (ok : Bool) (s : State) : Res :=
  done s (ringRead (atTime s now) (qKey hp wq) descs ok)

/-! ### Starting a descriptor -/

/-- The next descriptor of a WQ started when it is at hand, may start, and has an OP that a test selects. -/
def startDesc (s : State) (hp wq : Nat) (sel : Nat → Bool) (f : State → Nat → Wq → List Word → State) : State :=
  let k := qKey hp wq
  match nextDesc s k with
  | some (w, d) => if wqRuns s k w && sel (dOp d) then f s k w d else s
  | none => s

/-- The fields of word 0 that every operation has: ORDER, TC and LEN. -/
def wCommon : Nat := mask 9 9 + mask 18 16 + mask 62 32

/-- DEST, KEY and OFF (Table 15-3). -/
def wDest : Nat := mask 37 0
def wKey : Nat := mask 31 0
def wOff : Nat := mask 45 0

/-- A word of a SUB field of n bits. -/
def wSub (n : Nat) : Nat := mask (19 + n) 20

/-- LEN beyond its range (R454). -/
def lenBad (d : List Word) : Bool := decide (0x40000000 < dLen d)

/-- A descriptor with an error of a kind, or what it does. -/
def judged (s : State) (k : Nat) (w : Wq) (d : List Word) (bad : Option Nat) (go : State → State) : State :=
  match bad with
  | some kind => descFails s k w d kind
  | none => go s

/-- A bit-field error (R457). -/
def badField (b : Bool) : Option Nat := if b then some 22 else none

/-- The first error of two. -/
def orBad (a b : Option Nat) : Option Nat := match a with
  | some x => some x
  | none => b

/-- A message of a descriptor (R455): from the EC of its WQ, with the rights that it was fetched with (R313). -/
def descMsg (s : State) (k : Nat) (w : Wq) (d : List Word) (op total : Nat) : Slot :=
  { newMsg s w.ec (dEc d) (dDev d) (dTc d) op total (max 1 (ceilDiv total 4096)) (originOf k w d) with
    key := dword d 3, off := dword d 4, pkrr := dword d 8 }

/-- A descriptor that starts a message. -/
def descStart (s : State) (k : Nat) (w : Wq) (m : Slot) : State := startMsg (takeDesc s k w) m

/-- Bulk work (Table 16-3): messages above SMALL_MAX, but for TC7. -/
def descBulk (s : State) (d : List Word) : Bool := decide (rd s F.scCfgSmallMax < dLen d) && dTc d != 7

/-- Where the data of a PUT or SEND comes from (R454). -/
def descBuf (d : List Word) : Buf :=
  if dInline d then .bytes ((toBytes 8 (dword d 6) ++ toBytes 8 (dword d 7)).take (dLen d))
  else if dLen d = 0 then .none
  else .dva (dword d 5)

/-- A local buffer read by a descriptor (R316, R340): it goes on when every page translates; a miss waits for the walk, a hard fault
ends it with a descriptor error. -/
def withSource (s : State) (k : Nat) (w : Wq) (d : List Word) (dva len : Nat) (go : State → State) : State :=
  match ctxOf s w.ec with
  | none => descFails s k w d 2
  | some c =>
    if len = 0 then go s
    else
      let a : Adm := { mr := none, dom := c.dom, hp := c.hp, fn := c.fn, pkrr := dword d 8, cls := 0, spans := [(dva, len)], recv := none }
      match translateAdm s a with
      | (s, .ok l) => go (readPieces s a.hp l)
      | (s, .miss x) => awaitWalk (setWq s k { w with walking := true }) a.dom x (.desc k)
      | (s, .hard kind x) => descFails (recordFault s w.ec a.dom 0 0 kind x) k w d kind

/-- A descriptor that completes at once with SUCCESS. -/
def descOk (s : State) (k : Nat) (w : Wq) (d : List Word) (w2 : Nat) : State := descDone (takeDesc s k w) (originOf k w d) 0 0 0 0 w2 0

/-! ### NOP and reserved operations -/

/-- A NOP completes; a reserved OP ends with BAD_OP (R454, R457). -/
def descNop (s : State) (k : Nat) (w : Wq) (d : List Word) : State :=
  let bad := if dOp d ≠ 0 then some 21 else badField (!wordsOk d wCommon 0 0 0 0 0 0 || lenBad d)
  judged s k w d bad fun s => descOk s k w d 0

/-- DESC_NOP (R454): the next descriptor of a WQ is a NOP, or has a reserved OP. -/
def execDescNop (now : Nat) (hp wq : Nat) (s : State) : Res :=
  done s (startDesc (atTime s now) hp wq (fun op => op == 0 || !opKnown op) descNop)

/-! ### PUT, GET, SEND -/

/-- Whether the fields of a PUT are wrong: a flag record must fit behind the data of the last packet (R259, log entry 48). -/
def putBad (d : List Word) : Bool :=
  let w67 := if dInline d || dFlag d then allBits else 0
  !wordsOk d (wCommon + mask 11 10) wDest wKey wOff allBits w67 w67 || lenBad d || (dInline d && (dFlag d || decide (16 < dLen d)))
    || (dFlag d && (decide (2 ^ 46 ≤ dword d 6) || decide (4080 < dLen d % 4096) || dLen d == 0x40000000))

/-- A PUT (R455, R259). -/
def descPut (s : State) (k : Nat) (w : Wq) (d : List Word) : State :=
  judged s k w d (badField (putBad d)) fun s =>
    descStart s k w { descMsg s k w d opPut (dLen d + if dFlag d then 16 else 0) with
      buf := descBuf d, flag := if dFlag d then some (dword d 6, dword d 7) else none, bulk := descBulk s d }

/-- DESC_PUT (R455). -/
def execDescPut (now : Nat) (hp wq : Nat) (s : State) : Res := done s (startDesc (atTime s now) hp wq (· == 0x01) descPut)

/-- A GET (R249): TOTAL_LEN is 1 to 0x4000_0000. -/
def descGet (s : State) (k : Nat) (w : Wq) (d : List Word) : State :=
  judged s k w d (badField (!wordsOk d wCommon wDest wKey wOff allBits 0 0 || lenBad d || dLen d == 0)) fun s =>
    descStart s k w { descMsg s k w d opGetReq (dLen d) with result := .dva (dword d 5), bulk := descBulk s d }

/-- DESC_GET (R249). -/
def execDescGet (now : Nat) (hp wq : Nat) (s : State) : Res := done s (startDesc (atTime s now) hp wq (· == 0x02) descGet)

/-- Word 1 of a match prefix (Table 09-1) or an RTS (Table 09-2) without its length or tag. -/
def sendWord1 (w : Wq) (d : List Word) : Nat := dword d 3 % 2 ^ 16 + w.ec % 2 ^ 20 * 2 ^ 16

/-- Whether a SEND goes eagerly (R287). -/
def sendEager (s : State) (d : List Word) : Bool := decide (dLen d ≤ rd s F.mtCfgEagerMax)

/-- Whether the fields of a SEND are wrong: words 6 and 7 hold inline data, or the source's key and offset of an RTS (R288), which
leaves no room for inline data above EAGER_MAX. -/
def sendBad (s : State) (d : List Word) : Bool :=
  let w6 := if dInline d then allBits else if sendEager s d then 0 else wKey
  let w7 := if dInline d then allBits else if sendEager s d then 0 else wOff
  !wordsOk d (wCommon + mask 10 10) wDest (mask 15 0) allBits allBits w6 w7 || lenBad d
    || (dInline d && (decide (16 < dLen d) || !sendEager s d))

/-- A SEND (R275, R276, R287, R288). -/
def descSend (s : State) (k : Nat) (w : Wq) (d : List Word) : State :=
  judged s k w d (badField (sendBad s d)) fun s =>
    if sendEager s d then
      descStart s k w { descMsg s k w d opSend (16 + dLen d) with
        key := 0, off := 0, order := dOrder d, buf := descBuf d, bulk := descBulk s d,
        prefixBytes := toBytes 8 (dword d 4) ++ toBytes 8 (sendWord1 w d + dLen d * 2 ^ 36) }
    else
      descStart s k w { descMsg s k w d opSendRts 32 with
        key := 0, off := 0, order := dOrder d,
        prefixBytes := toBytes 8 (dword d 4) ++ toBytes 8 (sendWord1 w d) ++ toBytes 8 (dword d 7)
          ++ toBytes 8 (dword d 6 + dLen d * 2 ^ 32) }

/-- DESC_SEND (R287). -/
def execDescSend (now : Nat) (hp wq : Nat) (s : State) : Res := done s (startDesc (atTime s now) hp wq (· == 0x03) descSend)

/-! ### RECV, PROBE, CANCEL -/

/-- The receive that a descriptor posts. -/
def recvOf (k : Nat) (w : Wq) (d : List Word) (onDie : Bool) : Recv :=
  { origin := originOf k w d, ec := w.ec, anySrc := bitAt (dword d 2) 38, srcDev := dDev d, srcEc := dEc d, comm := dword d 3,
    bits := dword d 4, ignore := dword d 6, dva := dword d 5, len := dLen d, pkrr := dword d 8, onDie := onDie, matched := false,
    fromDev := 0, fromEc := 0, fromBits := 0, dataLen := 0, got := 0, rdvTag := none, tc := 0, failed := false, pend := [],
    stall := none, walking := false, finish := none }

/-- A receive with a number of its own. -/
def addRecv (s : State) (r : Recv) : State × Nat :=
  (setMt s fun m => { m with recvs := mset m.recvs m.next r, next := m.next + 1 }, s.mt.next)

/-- A receive that matches an unexpected arrival (R282, R284, R289): it takes the data that is stored and what still comes, or starts
the rendezvous. -/
def takeUnexp (s : State) (r : Recv) (uid : Nat) (u : Unexp) : State :=
  let a := addRecv (inc s F.mtCnt0MatchUnexp) r
  let id := a.2
  let r := { r with units := if u.rts.isNone then u.units else 0 }
  let s := matched (setMt a.1 fun m => { m with unexp := mdel m.unexp uid }) id r ⟨u.src, u.srcEc, u.comm, u.bits⟩ u.dataLen u.tc
  let f : Nat → Rec → Rec := fun _ x => if x.place = some uid then { x with place := some id } else x
  let s := refreshMt (setTp s fun t => { t with recs := mmap t.recs f })
  match u.rts with
  | some (tag, off, key) =>
    (match mget s.mt.recvs id with
    | some r => startRdv s id r tag off key
    | none => s)
  | none => u.data.foldl (fun s e => giveData s id (sendOff e.1) e.2) s

/-- A receive that joins its EC's posted list (R279). -/
def postRecv (s : State) (r : Recv) : State :=
  if r.onDie then refreshMt (addRecv s r).1
  else
    let first := (overflowOf s r.ec).isEmpty
    let s := inc (addRecv s r).1 F.mtCnt1OvfPosts
    refreshMt (if first then mtEvent s r.ec 0x20 else s)

/-- A RECV (R279, R282, R298). -/
def descRecv (s : State) (k : Nat) (w : Wq) (d : List Word) : State :=
  judged s k w d (badField (!wordsOk d wCommon (mask 38 0) (mask 15 0) allBits allBits allBits 0 || lenBad d)) fun s =>
    match findUnexp s w.ec (dword d 3) (dword d 4) (dword d 6) (bitAt (dword d 2) 38) (dDev d) (dEc d) with
    | some (uid, u) => takeUnexp (takeDesc s k w) (recvOf k w d true) uid u
    | none =>
      let onDie := (overflowOf s w.ec).isEmpty && decide (onDieCount s < 32768)
      if !onDie && decide (33554432 ≤ ovfCount s) then mtEvent (descFails s k w d 23) w.ec 0x23
      else postRecv (takeDesc s k w) (recvOf k w d onDie)

/-- DESC_RECV (R282). -/
def execDescRecv (now : Nat) (hp wq : Nat) (s : State) : Res := done s (startDesc (atTime s now) hp wq (· == 0x04) descRecv)

/-- A PROBE (R296): it waits while its EC's receive CQ has no room (R462). -/
def descProbe (s : State) (k : Nat) (w : Wq) (d : List Word) : State :=
  if rcqBlocked s w.ec then s
  else
    judged s k w d (badField (!wordsOk d wCommon (mask 38 0) (mask 15 0) allBits 0 allBits 0 || lenBad d)) fun s =>
      match findUnexp s w.ec (dword d 3) (dword d 4) (dword d 6) (bitAt (dword d 2) 38) (dDev d) (dEc d) with
      | some (_, u) =>
        descDone (takeDesc s k w) (originOf k w d) 5 0 0 u.dataLen u.bits (u.src % 2 ^ 18 + u.srcEc % 2 ^ 20 * 2 ^ 18)
      | none => descDone (takeDesc s k w) (originOf k w d) 6 0 0 0 0 0

/-- DESC_PROBE (R296). -/
def execDescProbe (now : Nat) (hp wq : Nat) (s : State) : Res := done s (startDesc (atTime s now) hp wq (· == 0x05) descProbe)

/-- Whether a receive was posted with a user tag. -/
def tagged (r : Recv) (tag : Nat) : Bool := match r.origin with
  | .desc _ _ _ _ user => user == tag
  | _ => false

/-- A CANCEL (R296): the oldest unmatched receive of the EC with the tag ends CANCELLED. -/
def descCancel (s : State) (k : Nat) (w : Wq) (d : List Word) : State :=
  judged s k w d (badField (!wordsOk d wCommon allBits 0 0 0 0 0 || lenBad d)) fun s =>
    match (unmatched s).find? fun e => e.2.ec == w.ec && tagged e.2 (dword d 2) with
    | some (id, r) => descOk (leftList (endRecv s id r 2 0 0) r) k w d 0
    | none => descDone (takeDesc s k w) (originOf k w d) 7 0 0 0 0 0

/-- DESC_CANCEL (R296). -/
def execDescCancel (now : Nat) (hp wq : Nat) (s : State) : Res := done s (startDesc (atTime s now) hp wq (· == 0x06) descCancel)

/-! ### ATOMIC and LOCK -/

/-- The errors of an ATOMIC (R428, R430): a reserved AOP, a misaligned OFF, an OP2 that the AOP does not take. -/
def atomicBad (d : List Word) : Option Nat :=
  let aop := dSub d % 32
  if 13 ≤ aop then some 21
  else badField (!wordsOk d (wCommon + wSub 6) wDest wKey wOff allBits allBits (if aopHas2 aop then allBits else 0) || lenBad d
    || dword d 4 % (if bitAt (dSub d) 5 then 8 else 4) != 0)

/-- An ATOMIC (R430, Table 14-1). -/
def descAtomic (s : State) (k : Nat) (w : Wq) (d : List Word) : State :=
  judged s k w d (atomicBad d) fun s =>
    let bs := toBytes 8 (dSub d % 64) ++ toBytes 8 (dword d 6) ++ (if aopHas2 (dSub d % 32) then toBytes 8 (dword d 7) else [])
    descStart s k w { descMsg s k w d opAtomic bs.length with result := .dva (dword d 5), prefixBytes := bs }

/-- DESC_ATOMIC (R430). -/
def execDescAtomic (now : Nat) (hp wq : Nat) (s : State) : Res := done s (startDesc (atTime s now) hp wq (· == 0x08) descAtomic)

/-- The errors of a LOCK (R428, R434): ABANDON, CLEANUP or a reserved LOP; a misaligned OFF. -/
def lockBad (d : List Word) : Option Nat :=
  if 3 ≤ dSub d % 8 then some 21
  else badField (!wordsOk d (wCommon + wSub 12) wDest wKey wOff allBits (mask 7 0) 0 || lenBad d || dword d 4 % 8 != 0)

/-- The requester of a LOCK: port and function of the sending EC, LANE of the descriptor (R433). -/
def lockReq (s : State) (k : Nat) (w : Wq) (d : List Word) : Nat :=
  match ctxOf s w.ec with
  | some c => reqId c.hp c.fn (bits (dSub d) 7 5)
  | none => reqId (qPort k) w.fn (bits (dSub d) 7 5)

/-- Whether an ABANDON for the word is still to be confirmed (R441). -/
def abandoning (s : State) (d : List Word) (req : Nat) : Bool :=
  match holdFor s (dDev d) (dword d 3) (dword d 4) req with
  | some (_, h) => h.abandoning
  | none => false

/-- An ACQUIRE or TRY that ends locally with ALREADY_OWNER (R441): nothing is sent, and its result is placed like a LOCK_RSP; the lock
word in it is open. -/
def localOwner (s : State) (m : Slot) : State :=
  let bs := toBytes 8 (freeNat s) ++ toBytes 8 5
  let id := nextMsgid s
  let s := openSlot (drawn s) { m with kept := some bs, next := 1 }
  match slotOf s id with
  | some m => placeKept s m
  | none => s

/-- A LOCK (R434, Table 14-4). -/
def descLock (s : State) (k : Nat) (w : Wq) (d : List Word) : State :=
  judged s k w d (lockBad d) fun s =>
    let req := lockReq s k w d
    let m := { descMsg s k w d opLock 16 with
      result := .dva (dword d 5), prefixBytes := lockPayload (dSub d % 8) (bits (dSub d) 3 4) req (dword d 6) 0 }
    let s := pmSample s 0 4 (descId k w.next) [w.ec, 9, dword d 4, selfId s, dDev d, dTc d, dLen d]
    if abandoning s d req && decide (dSub d % 8 ≤ 1) then localOwner (takeDesc s k w) m else descStart s k w m

/-- DESC_LOCK (R434). -/
def execDescLock (now : Nat) (hp wq : Nat) (s : State) : Res := done s (startDesc (atTime s now) hp wq (· == 0x09) descLock)

/-! ### REG, REVOKE, RESOLVE, INVAL -/

/-- Whether a domain is valid and belongs to a WQ's function (R303). -/
def ownsDom (s : State) (k : Nat) (w : Wq) (dom : Nat) : Bool :=
  rdb s F.xlDomValid dom && rd s F.xlDomHp dom == qPort k && rd s F.xlDomFunc dom == w.fn

/-- The checks of Table 11-2, in order. -/
def regBad (s : State) (k : Nat) (w : Wq) (d : List Word) : Option Nat :=
  let len := dword d 6
  if !wordsOk d (wCommon + wSub 4) (mask 11 0) allBits allBits allBits (mask 46 0) 0 || lenBad d then some 22
  else if !ownsDom s k w (dword d 2) then some 2
  else if len = 0 ∨ 2 ^ 46 < dword d 4 + len ∨ 2 ^ 48 < dword d 5 + len ∨ 2 ^ 48 ≤ dword d 5 then some 16
  else if 2 ^ 32 ≤ dword d 3 ∨ dSub d % 8 = 0 then some 16
  else if w.fn ≠ 0 ∧ rd s F.mrCfgVfMax ≤ (regionsOf s (qPort k) w.fn).length then some 17
  else if (freeRegion s).isNone then some 18
  else none

/-- A REG (R334): the region's key in the completion. -/
def descReg (s : State) (k : Nat) (w : Wq) (d : List Word) : State :=
  judged s k w d (regBad s k w d) fun s =>
    match freeRegion s with
    | none => descFails s k w d 18
    | some i =>
      let b := dSub d
      let s := register s i (qPort k) w.fn (dword d 2) (dword d 4) (dword d 6) (dword d 5) (dword d 3) (b % 2) (bits b 1 1) (bits b 2 1)
        (bits b 3 1)
      descOk s k w d (keyOf s i)

/-- DESC_REG (R334). -/
def execDescReg (now : Nat) (hp wq : Nat) (s : State) : Res := done s (startDesc (atTime s now) hp wq (· == 0x10) descReg)

/-- A REVOKE (R348, R349, Table 11-5). -/
def descRevoke (s : State) (k : Nat) (w : Wq) (d : List Word) : State :=
  judged s k w d (badField (!wordsOk d wCommon wKey 0 0 0 0 0 || lenBad d)) fun s =>
    match (regionOf s (dword d 2)).filter fun i => rd s F.mrEntryHp i == qPort k && rd s F.mrEntryFunc i == w.fn with
    | none => descOk s k w d 1
    | some i =>
      let o := originOf k w d
      let s := takeDesc s k w
      match mget s.mr.revokes i with
      | some r => setMr s fun m => { m with revokes := mset m.revokes i { r with descs := r.descs ++ [(o, 2)] } }
      | none => markRevoking s i ⟨[], [(o, 0)], false⟩

/-- DESC_REVOKE (R349). -/
def execDescRevoke (now : Nat) (hp wq : Nat) (s : State) : Res := done s (startDesc (atTime s now) hp wq (· == 0x11) descRevoke)

/-- A RESOLVE (R343): 1 RETRY, 2 FAIL; an entry that is free or of another function's domain ends it with DOMAIN. -/
def descResolve (s : State) (k : Nat) (w : Wq) (d : List Word) : State :=
  let act := dSub d % 4
  let bad := !wordsOk d (wCommon + wSub 2) (mask 11 0) 0 0 0 0 0 || lenBad d || act == 0 || act == 3
  judged s k w d (badField bad) fun s =>
    match mget s.mr.faults (dword d 2) with
    | none => descFails s k w d 2
    | some f =>
      if !ownsDom s k w f.dom then descFails s k w d 2
      else
        let s := descOk s k w d 0
        if act = 1 then resolveRetry s (dword d 2) else if f.failed then s else resolveFail s (dword d 2) f

/-- DESC_RESOLVE (R343). -/
def execDescResolve (now : Nat) (hp wq : Nat) (s : State) : Res := done s (startDesc (atTime s now) hp wq (· == 0x12) descResolve)

/-- An INVAL (R317, R319): scope PAGES or DOMAIN of the function's own domain; it completes under R318. -/
def descInval (s : State) (k : Nat) (w : Wq) (d : List Word) : State :=
  let scope := dSub d % 4
  let pages := bits (dword d 2) 30 17
  let bad := !wordsOk d (wCommon + wSub 2) (mask 11 0 + mask 46 30) allBits 0 0 0 0 || lenBad d || scope == 0 || scope == 3
    || (scope == 1 && (pages == 0 || decide (65536 < pages)))
  judged s k w d (badField bad) fun s =>
    if !ownsDom s k w (dword d 2 % 2 ^ 12) then descFails s k w d 2
    else startInval (takeDesc s k w) none scope (dword d 2 % 2 ^ 12) (dword d 3 / 4096) pages (some (originOf k w d))

/-- An INVAL starts in HOLD too (R324). -/
def invalStart (s : State) (hp wq : Nat) : State :=
  let k := qKey hp wq
  match nextDesc s k with
  | some (w, d) => if wqOpen s k w && dOp d == 0x13 then descInval s k w d else s
  | none => s

/-- DESC_INVAL (R319). -/
def execDescInval (now : Nat) (hp wq : Nat) (s : State) : Res := done s (invalStart (atTime s now) hp wq)

/-! ### Collectives and exchange -/

/-- The parameters of a COLL (R390, R391), and the bytes of its source. -/
def collOf (s : State) (k : Nat) (w : Wq) (d : List Word) (data : List Byte) : CollOp :=
  let coll := dSub d % 8
  let dtype := bits (dSub d) 7 4
  let exact := bitAt (dSub d) 11
  let count := dword d 3
  { coll := coll, oper := bits (dSub d) 3 4, dtype := dtype, exact := exact, count := count, pos := 0,
    chunks := collChunks coll dtype (exact && coll != 2 && coll != 4) (collTotal coll count (rd s F.clGroupMembers (dword d 2))),
    data := data, res := dword d 5, ec := w.ec, pkrr := dword d 8, origin := some (originOf k w d), since := s.timeNs, arrived := 0,
    pend := [], stall := none, walking := false, failed := false, done := false }

/-- The bytes that a member's source buffer gives (Table 13-3): BARRIER none, BROADCAST those of the root's member. -/
def collBytes (s : State) (d : List Word) : Nat :=
  let coll := dSub d % 8
  if coll = 4 ∨ (coll = 2 ∧ isRoot s (dword d 2) = false) then 0
  else collTotal coll (dword d 3) (rd s F.clGroupMembers (dword d 2)) * elemSize (bits (dSub d) 7 4)

/-- Whether a group is armed and its member is a WQ's function (R393). -/
def ownsGroup (s : State) (k : Nat) (w : Wq) (g : Nat) : Bool :=
  rdb s F.clGroupValid g && isLocal s g && rd s F.clGroupHp g == qPort k && rd s F.clGroupFunc g == w.fn

/-- The errors of a COLL (R390, R391, R393). -/
def collBad (s : State) (k : Nat) (w : Wq) (d : List Word) : Option Nat :=
  let o := collOf s k w d []
  if !wordsOk d (wCommon + wSub 12) (mask 11 0) (mask 45 0) allBits allBits 0 0 || lenBad d then some 22
  else if !ownsGroup s k w (dword d 2) then some 2
  else badField (decide (5 ≤ o.coll) || !operOk o.coll o.oper o.dtype o.exact || decide (262144 < o.chunks))

/-- An accepted COLL (R393, R394, R409): its operation, the member's contributions, and what came before it. -/
def collStart (s : State) (k : Nat) (w : Wq) (d : List Word) (data : List Byte) : State :=
  let g := dword d 2
  let s := pmSample (takeDesc s k w) 0 3 (descId k w.next) [w.ec, 0x18, dword d 4, selfId s, selfId s, dTc d, data.length]
  let r := openOp s g (collOf s k w d data)
  refreshGrp (drainEarly (contributeAll r.1 g r.2) g) g

/-- A COLL (R393, R405): in an ABORTED group it completes ABORTED with the cause. -/
def descColl (data : List Byte) (s : State) (k : Nat) (w : Wq) (d : List Word) : State :=
  judged s k w d (collBad s k w d) fun s =>
    let g := dword d 2
    if rd s F.clGroupState g = 2 then descDone (takeDesc s k w) (originOf k w d) 1 0 (rd s F.clGroupCause g) 0 0 0
    else if data.length ≠ collBytes s d then s
    else withSource s k w d (dword d 4) data.length fun s => collStart s k w d data

/-- DESC_COLL (R393): with what host memory holds in the source buffer. -/
def execDescColl (now : Nat) (hp wq : Nat) (data : List Byte) (s : State) : Res :=
  done s (startDesc (atTime s now) hp wq (· == 0x18) (descColl data))

/-- A COLL_ABORT (R405, R393): from the group's function, with cause HOST. -/
def descCollAbort (s : State) (k : Nat) (w : Wq) (d : List Word) : State :=
  judged s k w d (badField (!wordsOk d wCommon (mask 11 0) 0 0 0 0 0 || lenBad d)) fun s =>
    let g := dword d 2
    if !ownsGroup s k w g then descFails s k w d 2 else abortGrp (descOk s k w d 0) g (abortSeq s g) 6 none

/-- DESC_COLL_ABORT (R405). -/
def execDescCollAbort (now : Nat) (hp wq : Nat) (s : State) : Res := done s (startDesc (atTime s now) hp wq (· == 0x19) descCollAbort)

/-- A descriptor that joins a job's work (R411, R419); one for a job that is not OPEN ends with EX_FAILED (R415). -/
def joinJob (s : State) (k : Nat) (w : Wq) (d : List Word) (x : ExSend) : State :=
  let j := dword d 2
  if rd s F.exJobState j ≠ 1 then descFails s k w d 20
  else
    let s := takeDesc s k w
    moveJob (setJob s j { job s j with sends := (job s j).sends ++ [x] }) j

/-- An EX_SEND (R411). -/
def descExSend (data : List Byte) (s : State) (k : Nat) (w : Wq) (d : List Word) : State :=
  judged s k w d (badField (!wordsOk d wCommon (mask 5 0) allBits 0 0 0 0 || lenBad d)) fun s =>
    if rd s F.exJobState (dword d 2) ≠ 1 then descFails s k w d 20
    else if data.length ≠ dLen d then s
    else withSource s k w d (dword d 3) data.length fun s => joinJob s k w d ⟨originOf k w d, false, data, [], 0, 0, none⟩

/-- DESC_EX_SEND (R411): with what host memory holds in the buffer. -/
def execDescExSend (now : Nat) (hp wq : Nat) (data : List Byte) (s : State) : Res :=
  done s (startDesc (atTime s now) hp wq (· == 0x1C) (descExSend data))

/-- An EX_FLUSH (R419). -/
def descExFlush (s : State) (k : Nat) (w : Wq) (d : List Word) : State :=
  judged s k w d (badField (!wordsOk d wCommon (mask 5 0) 0 0 0 0 0 || lenBad d)) fun s =>
    joinJob s k w d ⟨originOf k w d, true, [], [], 0, 0, none⟩

/-- DESC_EX_FLUSH (R419). -/
def execDescExFlush (now : Nat) (hp wq : Nat) (s : State) : Res := done s (startDesc (atTime s now) hp wq (· == 0x1D) descExFlush)

/-- An EX_CONSUME (R410, R417): the ring's CI, at most PI. -/
def descExConsume (s : State) (k : Nat) (w : Wq) (d : List Word) : State :=
  let j := dword d 2
  let ci := dword d 3
  let bad := !wordsOk d wCommon (mask 5 0) allBits 0 0 0 0 || lenBad d || decide (rd s F.exRingPi j < ci)
  judged s k w d (badField bad) fun s => noteFull (wr (descOk s k w d 0) F.exRingCi ci j) j

/-- DESC_EX_CONSUME (R410). -/
def execDescExConsume (now : Nat) (hp wq : Nat) (s : State) : Res := done s (startDesc (atTime s now) hp wq (· == 0x1E) descExConsume)

end Sys2Proof.Machine
end

