-- ==== Sys2Proof/Machine/ExecQueue.lean ====
section
/-!
DEFINITION. Machine/ExecQueue.lean: the commands of 15 at the queues and ports: doorbells of CQs and EQs, queue commands, interrupts,
stall limits, host resets, power states (R447 to R476, R611 to R613).
-/

namespace Sys2Proof.Machine

/-! ### The function page -/

/-- The key of an offset in the page of a function. -/
def fnPageKey (hp fn off : Nat) : Nat := 0x0A800000 + hp * 0x10000000 + fn * 0x8000 + off

/-- A write into the page of a function (R448): by the function, by PF0 of its port, or, for a page that the CSR map shows it, by the
management controller (log entry 52). -/
def pageStore (s : State) (who : Who) (hp fn off width : Nat) (val : Word) : State :=
  if 256 ≤ fn ∨ 2 ≤ hp then s
  else
    match who with
    | .fn h f => if h = hp ∧ (f = 0 ∨ f = fn) then hostWrite s h f (fnPageKey hp fn off) width val noEnv else s
    | .mgmt => if hp = 0 then mctpIn s 2 (.csrWrite (fnPageKey hp fn off) val noEnv) else s

/-- CQ_DOORBELL_WRITE (R462, R463, R466). -/
def execCqDoorbellWrite (now : Nat) (who : Who) (hp fn : Nat) (width : Nat) (val : Word) (s : State) : Res :=
  done s (pageStore (atTime s now) who hp fn 0x1000 width val)

/-- EQ_DOORBELL_WRITE (R465, R466). -/
def execEqDoorbellWrite (now : Nat) (who : Who) (hp fn : Nat) (width : Nat) (val : Word) (s : State) : Res :=
  done s (pageStore (atTime s now) who hp fn 0x1008 width val)

/-- QM_CMD written with a command (R474). -/
def qmStore (s : State) (who : Who) (hp fn width cmd : Nat) : State := pageStore s who hp fn 0 width (BitVec.ofNat 64 cmd)

/-- QM_CMD_EQ_CREATE (R474). -/
def execQmCmdEqCreate (who : Who) (hp fn : Nat) (width : Nat) (s : State) : Res := done s (qmStore s who hp fn width 1)

/-- QM_CMD_CQ_CREATE (R474). -/
def execQmCmdCqCreate (who : Who) (hp fn : Nat) (width : Nat) (s : State) : Res := done s (qmStore s who hp fn width 2)

/-- QM_CMD_WQ_CREATE (R474, R449). -/
def execQmCmdWqCreate (who : Who) (hp fn : Nat) (width : Nat) (s : State) : Res := done s (qmStore s who hp fn width 3)

/-- QM_CMD_EC_OPEN (R475, R303, R333). -/
def execQmCmdEcOpen (who : Who) (hp fn : Nat) (width : Nat) (s : State) : Res := done s (qmStore s who hp fn width 4)

/-- QM_CMD_EC_CLOSE (R297, R302). -/
def execQmCmdEcClose (now : Nat) (who : Who) (hp fn : Nat) (width : Nat) (s : State) : Res :=
  done s (qmStore (atTime s now) who hp fn width 5)

/-- QM_CMD_DESTROY (R461, R475). -/
def execQmCmdDestroy (who : Who) (hp fn : Nat) (width : Nat) (s : State) : Res := done s (qmStore s who hp fn width 6)

/-- QM_CMD_RESET (R463). -/
def execQmCmdReset (who : Who) (hp fn : Nat) (width : Nat) (s : State) : Res := done s (qmStore s who hp fn width 7)

/-- QM_CMD_QUERY (R474). -/
def execQmCmdQuery (who : Who) (hp fn : Nat) (width : Nat) (s : State) : Res := done s (qmStore s who hp fn width 8)

/-! ### Interrupts and stalls -/

/-- The moderation time of an armed CQ with entries passes (R466): its interrupt, which disarms it. -/
def cqModerated (s : State) (k : Nat) : State :=
  match mget s.hi.cqs k with
  | some q =>
    if q.armed && q.pi != q.ci && q.firstAt.isSome && modOver s q.firstAt q.modUs then
      raiseIrq (setCq s k { q with armed := false, count := 0, firstAt := none }) (qPort k) q.fn q.vec q.poll
    else s
  | none => s

/-- As for a CQ, of an EQ. -/
def eqModerated (s : State) (hp k : Nat) : State :=
  match mget s.hi.eqs k with
  | some e =>
    if e.armed && e.pi != e.ci && e.firstAt.isSome && modOver s e.firstAt e.modUs then
      raiseIrq (setHi s fun h => { h with eqs := mset h.eqs k { e with armed := false, count := 0, firstAt := none } }) hp e.fn e.vec e.poll
    else s
  | none => s

/-- INTERRUPT_MODERATION_EXPIRED (R466): of a CQ, or of an EQ. -/
def execInterruptModerationExpired (now : Nat) (ofEq : Bool) (hp n : Nat) (s : State) : Res :=
  done s (if ofEq then eqModerated (atTime s now) hp (eqKey hp n) else cqModerated (atTime s now) (qKey hp n))

/-- The stall limit of a CQ passes (R463). -/
def cqStalls (s : State) (hp n : Nat) : State :=
  match mget s.hi.cqs (qKey hp n) with
  | some q =>
    match q.fullSince with
    | some t =>
      if q.state == .ready && ringFull q.log2 q.pi q.ci && decide (t + rd s F.qmCqStallLimitMs hp * 1000000 ≤ s.timeNs) then
        cqError s (qKey hp n) q
      else s
    | none => s
  | none => s

/-- CQ_STALL_LIMIT_EXPIRED (R463). -/
def execCqStallLimitExpired (now : Nat) (hp cq : Nat) (s : State) : Res := done s (cqStalls (atTime s now) hp cq)

/-! ### Resets -/

/-- PERSTn_N falls (R469): HFUND of the port. -/
def perstFalls (s : State) (hp : Nat) : State :=
  if (portOf s hp).perstLow || decide (2 ≤ hp) then s
  else beginHfund (wrb (setPort s hp { portOf s hp with perstLow := true }) F.hiPortStatPerst true hp) hp

/-- PERST_ASSERT (R469). -/
def execPerstAssert (now : Nat) (hp : Nat) (s : State) : Res := done s (perstFalls (atTime s now) hp)

/-- A hot reset or a surprise link-down, which a port with its link up can meet (R612). -/
def linkResets (s : State) (hp : Nat) : State :=
  if rdb s F.hiPortStatLinkUp hp && decide (hp < 2) then beginPortReset s hp else s

/-- HOT_RESET_START (R612, R469). -/
def execHotResetStart (now : Nat) (hp : Nat) (s : State) : Res := done s (linkResets (atTime s now) hp)

/-- SURPRISE_LINK_DOWN (R472, R610, R612): the link has no width and no rate. -/
def execSurpriseLinkDown (now : Nat) (hp : Nat) (s : State) : Res :=
  done s (if rdb s F.hiPortStatLinkUp hp then wr (linkResets (atTime s now) hp) F.hiPortStatSpeed 0 hp else atTime s now)

/-- PORT_RESET_COMPLETE (R469). -/
def execPortResetComplete (hp : Nat) (s : State) : Res := done s (if hp < 2 then endPortReset s hp else s)

/-- The link of a port comes up (R447): in FLIT mode, with rate code 1 to 3 and width 4, 8 or 16; after THERMTRIP the host PHYs
stay at electrical idle (R585). -/
def hostLinkUp (s : State) (hp : Nat) (flit : Bool) (speed width : Nat) : State :=
  if flit && decide (hp < 2) && !(portOf s hp).perstLow && !rdb s F.hiPortStatLinkUp hp && decide (1 ≤ speed) && decide (speed ≤ 3)
      && [4, 8, 16].contains width && !s.pw.tripped then
    let s := wr (wr (wr s F.hiPortStatSpeed speed hp) F.hiPortStatWidth width hp) F.hiPortStatL0pWidth width hp
    refreshServing (wrb (wr s F.hiPortStatPm 0 hp) F.hiPortStatLinkUp true hp) hp
  else s

/-- HOST_LINK_UP (R447, R450). -/
def execHostLinkUp (now : Nat) (hp : Nat) (flit : Bool) (speed width : Nat) (s : State) : Res :=
  done s (hostLinkUp (atTime s now) hp flit speed width)

/-- Whether a function answers configuration requests otherwise than with Request Retry Status (R470, R471): its port's link is up. -/
def configAnswers (s : State) (hp fn : Nat) : Bool :=
  decide (hp < 2) && decide (fn < 256) && rdb s F.hiPortStatLinkUp hp && !mhas (portOf s hp).flr fn && !wedged s hp fn
    && (fn == 0 || (portOf s hp).cfg.vfEnable && decide (fn ≤ (portOf s hp).cfg.numVfs))

/-- Vectors that are no longer masked and pending raise their interrupts. -/
def unmask (s : State) (hp : Nat) (mask : List Nat) : State :=
  let p := portOf s hp
  let free := p.msixPending.filter fun v => !mask.contains v
  let s := setPort s hp { p with msixMask := mask, msixPending := p.msixPending.filter fun v => mask.contains v }
  free.foldl (fun s v => raiseIrq s hp (v / 2048) (v % 2048) false) s

/-- Configuration written with Bus Master and Memory Space Enable set (R450, R612): VF Enable is not cleared by it, and NumVFs changes
only while it is clear (R613). -/
def enablesSet (s : State) (hp : Nat) (cfg : PortCfg) (mask : List Nat) : State :=
  if configAnswers s hp 0 then
    let s := wakePort s hp
    let old := (portOf s hp).cfg
    let new := { cfg with
      bme := true, mse := true, vfEnable := old.vfEnable || cfg.vfEnable, numVfs := if old.vfEnable then old.numVfs else min 255 cfg.numVfs }
    unmask (refreshServing (setPort s hp { portOf s hp with cfg := new }) hp) hp mask
  else s

/-- PF0_ENABLES_SET (R450, R612, R466): with what the host has written beside them: the SR-IOV capability, ASPM, the root port's
AtomicOps, and the MSI-X vectors (function * 2048 + vector) that it masks. -/
def execPf0EnablesSet (now : Nat) (hp : Nat) (cfg : PortCfg) (masked : List Nat) (s : State) : Res :=
  done s (enablesSet (atTime s now) hp cfg masked)

/-- An FLR of a function (R469, R470). -/
def flrStarts (s : State) (hp fn : Nat) : State :=
  if configAnswers s hp fn && !(portOf s hp).resetting then beginFlr (wakePort s hp) hp fn else s

/-- FLR_START (R469). -/
def execFlrStart (now : Nat) (hp fn : Nat) (s : State) : Res := done s (flrStarts (atTime s now) hp fn)

/-- FLR_COMPLETE (R469). -/
def execFlrComplete (hp fn : Nat) (s : State) : Res := done s (endFlr s hp fn)

/-- 100 ms after an FLR began (R471). -/
def flrLate (s : State) (hp fn : Nat) : State :=
  match mget (portOf s hp).flr fn with
  | some t => if t + 100000000 ≤ s.timeNs then wedgeFlr s hp fn else s
  | none => s

/-- FLR_WEDGE_TIMEOUT (R471). -/
def execFlrWedgeTimeout (now : Nat) (hp fn : Nat) (s : State) : Res := done s (flrLate (atTime s now) hp fn)

/-- VF Enable cleared (R613): every VF is reset as by its FLR. -/
def vfsCleared (s : State) (hp : Nat) : State :=
  let p := portOf s hp
  if configAnswers s hp 0 && p.cfg.vfEnable && !p.resetting then
    let s := setPort (wakePort s hp) hp { p with cfg := { p.cfg with vfEnable := false, vfMse := false } }
    ((List.range p.cfg.numVfs).map (· + 1)).foldl (fun s f => if mhas (portOf s hp).flr f || wedged s hp f then s else beginFlr s hp f) s
  else s

/-- VF_ENABLE_CLEAR (R613). -/
def execVfEnableClear (now : Nat) (hp : Nat) (s : State) : Res := done s (vfsCleared (atTime s now) hp)

/-! ### Power states -/

/-- A function enters D3hot (R468); PF0's Memory Space Enable clears, and the port stops serving. -/
def toD3hot (s : State) (hp fn : Nat) : State :=
  let p := portOf s hp
  if configAnswers s hp fn && !p.d3hot.contains fn then
    let p := { p with d3hot := fn :: p.d3hot }
    let s := wakePort s hp
    refreshServing (setPort s hp (if fn = 0 then { p with cfg := { p.cfg with mse := false } } else p)) hp
  else s

/-- D3HOT_ENTER (R468). -/
def execD3hotEnter (hp fn : Nat) (s : State) : Res := done s (toD3hot s hp fn)

/-- A function returns to D0 without reset (R468). -/
def toD0 (s : State) (hp fn : Nat) : State :=
  let p := portOf s hp
  if configAnswers s hp fn && p.d3hot.contains fn then
    refreshServing (setPort (wakePort s hp) hp { p with d3hot := p.d3hot.erase fn }) hp
  else s

/-- D0_RETURN (R468). -/
def execD0Return (hp fn : Nat) (s : State) : Res := done s (toD0 s hp fn)

/-- Low use of both directions for `lowNs` (R467): the width halves, down to x4. -/
def narrow (s : State) (hp lowNs : Nat) : State :=
  let w := rd s F.hiPortStatL0pWidth hp
  if rdb s F.hiPortStatLinkUp hp && rdb s F.hiPmL0pEn hp && rd s F.hiPortStatPm hp == 0 && decide (4 < w)
      && decide (rd s F.hiPmL0pIdleUs hp * 1000 ≤ lowNs) then
    wr s F.hiPortStatL0pWidth (w / 2) hp
  else s

/-- L0P_IDLE_NARROW (R467): both directions have used less than 40 % of the narrower width for `lowNs`. -/
def execL0pIdleNarrow (hp lowNs : Nat) (s : State) : Res := done s (narrow s hp lowNs)

/-- L0P_RESTORE (R467): a direction's queue holds that many bytes. -/
def execL0pRestore (hp queued : Nat) (s : State) : Res :=
  done s (if rdb s F.hiPortStatLinkUp hp = true ∧ 4096 < queued then
    wr (wakePort s hp) F.hiPortStatL0pWidth (rd s F.hiPortStatWidth hp) hp else s)

/-- A port's link has carried nothing for `idleNs` (R467): L1, or a substate that the host enables, with no CXL.mem access
outstanding and no write-back queued for the port. -/
def enterL1 (s : State) (hp idleNs : Nat) : State :=
  let c := (portOf s hp).cfg
  let queued := wbPort s == some hp && s.gw.lines.any fun e => e.2.wants
  let busy := s.gw.accs.any fun e => e.2.hp == hp
  if rdb s F.hiPortStatLinkUp hp && c.aspmL1 && rd s F.hiPortStatPm hp == 0 && !busy && !queued
      && decide (rd s F.hiPmL1IdleUs hp * 1000 ≤ idleNs) then
    wr s F.hiPortStatPm (if c.l1sub then 2 else 1) hp
  else s

/-- L1_IDLE_ENTRY (R467): no TLP in either direction for `idleNs`. -/
def execL1IdleEntry (hp idleNs : Nat) (s : State) : Res := done s (enterL1 s hp idleNs)

end Sys2Proof.Machine
end

