-- ==== Sys2Proof/Machine/ExecColl.lean ====
section
/-!
DEFINITION. Machine/ExecColl.lean: the commands of 13 and 14 beside their packets and descriptors: CL_CMD, hop timers, batch timers and
the exchange ring (R401 to R422), alias reads, and the timers of locks (R435 to R441).
-/

namespace Sys2Proof.Machine

/-! ### Groups -/

/-- CL_CMD of a group written with a command (R405). -/
def clStore (s : State) (who : Who) (width g cmd : Nat) : State :=
  csrWriteBy s who 0x08000010 width (BitVec.ofNat 64 (cmd * 2 ^ 32 + g % 2 ^ 12)) noEnv

/-- COLL_CL_CMD_ABORT (R405). -/
def execCollClCmdAbort (who : Who) (g : Nat) (width : Nat) (s : State) : Res := done s (clStore s who width g 1)

/-- CL_CMD_RESET (R405). -/
def execClCmdReset (who : Who) (g : Nat) (width : Nat) (s : State) : Res := done s (clStore s who width g 2)

/-- The packet of a group that waits for the ACK of a device, by its MSGID, PSN and kind. -/
def collWaits (s : State) (g dev seq psn : Nat) (abort : Bool) : Option (Nat × CollPkt) :=
  (grp s g).sends.find? fun e => e.2.dev == dev && e.2.seq == seq && e.2.psn == psn && e.2.gated && (e.2.kind == 2) == abort

/-- The hop timer of a packet (R401): HOP_RTO_US times 2^min(k, 2) after retry k; HOP_RTO_US after BUSY (R402). -/
def hopWait (s : State) (p : CollPkt) : Nat := rd s F.clCfgHopRtoUs * 1000 * (if p.busy then 1 else 2 ^ min p.retries 2)

/-- A hop timer that has run out (R401, R402, R422): a new copy, or the end of the retries: the operation aborts with HOP_LOST; of an
ABORT nothing more is sent. -/
def hopExpired (s : State) (g dev seq psn : Nat) (abort : Bool) : State :=
  match collWaits s g dev seq psn abort with
  | none => s
  | some (id, p) =>
    if holdOn s || decide (s.timeNs < p.at' + hopWait s p) then s
    else if !p.busy && decide (rd s F.clCfgHopRetries ≤ p.retries) then
      if p.kind = 2 then let x := grp s g; setGrp s g { x with sends := mdel x.sends id }
      else abortGrp s g seq 1 none
    else
      let x := grp s g
      let p' := { p with at' := s.timeNs, busy := false, retries := if p.busy then p.retries else p.retries + 1 }
      let s := pmCount (inc (setGrp s g { x with sends := mset x.sends id p' }) F.clCnt0Retx) 0x80 g 3 1
      queueColl s g p.dev p.up p.key p.seq p.psn p.off p.tc p.last p.payload

/-- CL_HOP_RTO_EXPIRED (R401). -/
def execClHopRtoExpired (now : Nat) (g dev seq psn : Nat) (abort : Bool) (s : State) : Res :=
  done s (hopExpired (atTime s now) g dev seq psn abort)

/-- An operation seen OP_LIMIT_MS ago and not complete (Table 13-6 cause 5); one of which only packets from below have come has been seen
with the first of them. -/
def opLimit (s : State) (g seq : Nat) : State :=
  let limit := rd s F.clCfgOpLimitMs
  match mget (grp s g).ops seq with
  | some o => if holdOn s || o.done || limit == 0 || decide (s.timeNs < o.since + limit * 1000000) then s else abortGrp s g seq 5 none
  | none =>
    let late := fun (e : Nat × Pkt) => e.2.msgid == seq && decide (e.1 + limit * 1000000 ≤ s.timeNs)
    if !holdOn s && limit != 0 && (grp s g).early.any late then abortGrp s g seq 5 none else s

/-- CL_OP_LIMIT_EXPIRED (R405, R422). -/
def execClOpLimitExpired (now : Nat) (g seq : Nat) (s : State) : Res := done s (opLimit (atTime s now) g seq)

/-! ### Exchange -/

/-- EX_RING_CI_WRITE (R417): CI of a job. -/
def execExRingCiWrite (who : Who) (j : Nat) (width : Nat) (val : Word) (s : State) : Res :=
  done s (if j < 64 then csrWriteBy s who ((F.exRingCi).key j) width val noEnv else s)

/-- The open batch of a job for a destination. -/
def openBatch (s : State) (j dev ec : Nat) : Option (Nat × ExBatch) :=
  (openBatches (job s j)).find? fun e => e.2.dev == dev && e.2.ec == ec

/-- BATCH_US after the first record of an open batch (R413, R422). -/
def batchDue (s : State) (j dev ec : Nat) : State :=
  match openBatch s j dev ec with
  | some (id, b) =>
    if holdOn s || decide (s.timeNs < b.since + rd s F.exCfgBatchUs * 1000) then s else moveJob (closeBatch s j id) j
  | none => s

/-- EX_BATCH_TIMER (R413). -/
def execExBatchTimer (now : Nat) (j dev ec : Nat) (s : State) : Res := done s (batchDue (atTime s now) j dev ec)

/-- The resend timer of a sent batch runs out (R415, R422). -/
def batchLate (s : State) (j dev bseq : Nat) : State :=
  match (job s j).batches.find? fun e => e.2.dev == dev && e.2.bseq == some bseq && e.2.sent with
  | some (id, b) => if holdOn s || decide (s.timeNs < b.sentAt + batchWait s b) then s else resendBatch s j id b
  | none => s

/-- EX_RTO_EXPIRED (R415). -/
def execExRtoExpired (now : Nat) (j dev bseq : Nat) (s : State) : Res := done s (batchLate (atTime s now) j dev bseq)

/-- A probe of a stream whose window is closed while records wait (R418, R422): an empty batch with BSEQ = BASE - 1. -/
def probeStream (s : State) (j dev : Nat) : State :=
  let x := job s j
  match mget x.streams dev with
  | some t =>
    if holdOn s || !streamShut x dev t || decide (s.timeNs < t.probeAt + rd s F.exCfgBackoffUs * 1000) then s
    else
      let s := setJob s j { x with streams := mset x.streams dev { t with probeAt := s.timeNs } }
      queueBatch s j dev t.ec ((t.base + 2 ^ 24 - 1) % 2 ^ 24) 0 []
  | none => s

/-- EX_PROBE_TIMER (R418). -/
def execExProbeTimer (now : Nat) (j dev : Nat) (s : State) : Res := done s (probeStream (atTime s now) j dev)

/-- EX_RING_COPY (R417): the oldest staged batch of a job. -/
def execExRingCopy (now : Nat) (j : Nat) (s : State) : Res := done s (copyBatch (atTime s now) j)

/-- A ring full for 100 ms (R417): EX_STALL once. -/
def ringStalls (s : State) (j : Nat) : State :=
  let x := job s j
  match x.fullSince with
  | some t =>
    if x.stallTold || rd s F.exJobState j == 0 || decide (s.timeNs < t + 100000000) then s
    else
      let s := setJob s j { x with stallTold := true }
      drawn (event s (rd s F.exJobHp j) (rd s F.exJobFunc j) (openFields s 0x51) (freeNat s))
  | none => s

/-- EX_RING_STALL (R417). -/
def execExRingStall (now : Nat) (j : Nat) (s : State) : Res := done s (ringStalls (atTime s now) j)

/-! ### Alias reads -/

/-- A 64-bit read of an offset of an alias slot (R438), stalled in HOLD (R34, R439). -/
def aliasRead (s : State) (hp fn i off : Nat) : State :=
  let s := wakePort s hp
  if 65536 ≤ i then s
  else if holdOn s && !(fnSilent s hp fn || !fnEnabled s hp fn) then
    setTxn s fun t => { t with held := t.held ++ [.aliasRd hp fn i off] }
  else aliasTaken s hp fn i off

/-- ALIAS_ACQUIRE_READ (R438). -/
def execAliasAcquireRead (now : Nat) (hp fn slot : Nat) (s : State) : Res :=
  done s (aliasRead (atTime s now) hp fn slot 0x00)

/-- ALIAS_TRY_READ (R438). -/
def execAliasTryRead (now : Nat) (hp fn slot : Nat) (s : State) : Res :=
  done s (aliasRead (atTime s now) hp fn slot 0x08)

/-- ALIAS_RELEASE_READ (R438). -/
def execAliasReleaseRead (now : Nat) (hp fn slot : Nat) (s : State) : Res :=
  done s (aliasRead (atTime s now) hp fn slot 0x10)

/-- ALIAS_RESULT_READ (R438): the last result; it sends nothing. -/
def execAliasResultRead (now : Nat) (hp fn slot : Nat) (s : State) : Res :=
  done s (aliasRead (atTime s now) hp fn slot 0x18)

/-- The message of the read at the head of a slot undone (R439): CLEANUP for an acquire or try; one that has not been sent is taken back. -/
def undoAlias (s : State) (i : Nat) (r : AliasRead) : State :=
  let mine := fun (o : Origin) => o == .aliasRd i r.id
  let waited := s.tp.wait.any fun e => mine e.1.origin
  let s := setTp s fun t => { t with wait := t.wait.filter fun e => !mine e.1.origin }
  match s.tp.slots.find? fun e => mine e.2.origin with
  | some (_, m) => if decide (r.off / 8 ≤ 1) && !waited then sendCleanup s m else s
  | none => s

/-- An alias read unanswered in time (R439): UNKNOWN. -/
def aliasLate (s : State) (i : Nat) : State :=
  match mgetD s.at'.reads i [] with
  | [] => s
  | r :: _ =>
    if holdOn s || decide (s.timeNs < r.dueAt) then s
    else beginAlias (undoAlias (answerAlias (drawn s) i (aliasWord 9 (freeNat s))) i r) i

/-- ALIAS_MARGIN_EXPIRED (R439): of the read that a slot serves. -/
def execAliasMarginExpired (now : Nat) (slot : Nat) (s : State) : Res := done s (aliasLate (atTime s now) slot)

/-! ### Lock timers -/

/-- A waiter queued for WAIT_US (R435, R444): it leaves the queue and receives TIMEOUT; WAITERS follows the queue (Table 14-3). -/
def waitOver (s : State) (k src msgid : Nat) : State :=
  match mget s.at'.locks k with
  | none => s
  | some l =>
    match l.waiters.find? fun w => w.src == src && w.msgid == msgid with
    | none => s
    | some w =>
      if holdOn s || decide (s.timeNs < w.since + w.waitUs * 1000) then s
      else
        let l' := { l with waiters := l.waiters.erase w }
        let s := setLock (inc s F.atCnt1Timeouts) k l'
        let s := if l'.waiters.isEmpty ∧ serving s l.hp = true then writeLock s l.hp l.pa (heldWord l') else s
        lockRsp s w.ec w.src w.tc w.msgid (heldWord l') 2 ((s.timeNs - w.queued) / 1000)

/-- LOCK_WAIT_EXPIRED (R435): of a requester's message that waits for the lock word at a DVA of a domain. -/
def execLockWaitExpired (now : Nat) (dom dva src msgid : Nat) (s : State) : Res :=
  done s (waitOver (atTime s now) (wordKey dom dva) src msgid)

/-- 50 ms into a reset (R441): ABANDONs not yet ended mark their records ABANDONING, and the reset waits no more for them. -/
def markAbandons (s : State) (hp : Nat) (fn : Option Nat) : State :=
  let f : Nat → Hold → Hold := fun _ h =>
    if h.abandoning && h.req / 2 ^ 13 == hp && scopeHas fn (bits h.req 5 8) && decide (h.since + 50000000 ≤ s.timeNs) then
      { h with marked := true } else h
  setAt s fun a => { a with holds := mmap a.holds f }

/-- ABANDON_WAIT_EXPIRED (R441): in the reset of a function, or of every function of a port. -/
def execAbandonWaitExpired (now : Nat) (hp : Nat) (fn : Option Nat) (s : State) : Res := done s (markAbandons (atTime s now) hp fn)

/-- ABANDON resent for a record marked ABANDONING, every 10 ms (R441). -/
def abandonAgain (s : State) (id : Nat) : State :=
  match mget s.at'.holds id with
  | some h =>
    let runs := (s.tp.slots.any fun e => e.2.origin == .abandon id) || s.tp.wait.any fun e => e.1.origin == .abandon id
    if h.marked && !runs && decide (h.sentAt + 10000000 ≤ s.timeNs) then sendAbandon s id h else s
  | none => s

/-- ABANDON_RESEND_TIMER (R441): of a holds record. -/
def execAbandonResendTimer (now : Nat) (record : Nat) (s : State) : Res := done s (abandonAgain (atTime s now) record)

end Sys2Proof.Machine
end

