-- ==== Sys2Proof/Machine/ExecSched.lean ====
section
/-!
DEFINITION. Machine/ExecSched.lean: the commands of 16: the kiln gate, policers, the injection scheduler, the slice arbiters, the
calendar, the queue monitors, and the kiln (R481 to R505).
-/

namespace Sys2Proof.Machine

/-! ### Gates and schedulers -/

/-- KILN_GATE_PASS (R491, R493): of the unit (a, b) of a kind: 1 the next packet of message a, 2 CL packet b of group a, 3 batch b of
job a, 4 records that job a reads. -/
def execKilnGatePass (now : Nat) (kind a b : Nat) (s : State) : Res := done s (gateUnit (atTime s now) kind a b)

/-- POLICER_RELEASE (R489, R503): of the packet of a message. -/
def execPolicerRelease (now : Nat) (msgid : Nat) (s : State) : Res := done s (policeAgain (atTime s now) msgid)

/-- A step of the scheduler of an injection port (R483): the packet that it chooses is injected, and the next one becomes the head. -/
def select (s : State) (k : Nat) : State :=
  if injectStopped s || holdOn s || decide (8 ≤ k) then s
  else
    let s := fixHeads (dropDead s k) k
    match (chooseTc s k).bind fun t => (tcHead s k t).map fun h => (t, h) with
    | some (t, f, id, it) => injectItem (fixHead (dequeue s k t id it f) k t) k it
    | none => s

/-- INJECTION_SELECT (R483): on an injection port. -/
def execInjectionSelect (now : Nat) (port : Nat) (s : State) : Res := done s (select (atTime s now) port)

/-- SLICE_GRANT (R484, R18, R20): on a logical tile. -/
def execSliceGrant (now : Nat) (tile : Nat) (s : State) : Res := done s (grantSlice (atTime s now) tile)

/-- The calendar moves to its next slot once SLOT_NS have passed (R487). -/
def nextSlot (s : State) : State :=
  if rdb s F.scCfgCal && decide (s.sc.calAt + rd s F.scCalCfgSlotNs ≤ s.timeNs) then
    setSc s fun x =>
      { x with calSlot := if x.calSlot + 1 < rd s F.scCalCfgLen then x.calSlot + 1 else 0, calAt := s.timeNs, calUsed := [] }
  else s

/-- CALENDAR_SLOT_ADVANCE (R487). -/
def execCalendarSlotAdvance (now : Nat) (s : State) : Res := done s (nextSlot (atTime s now))

/-! ### Queue monitors -/

/-- The copies of stored packets that wait for a VC of an output. -/
def voqCopies (s : State) (o v : Nat) : List (SwPkt × Copy) :=
  s.sw.pkts.flatMap fun e => (e.2.copies.filter fun c => c.outp == o && c.vc == v && !c.done).map fun c => (e.2, c)

/-- The least of some times. -/
def oldest : List Nat → Option Nat
  | [] => none
  | t :: l => match oldest l with
    | some u => some (min t u)
    | none => some t

/-- The depth of the queue that a monitor watches, and since when its head has waited (R490). -/
def watched (s : State) (i : Nat) : Nat × Option Nat :=
  let unit := rd s F.scQsmpSelUnit i
  let sub := rd s F.scQsmpSelSub i
  match rd s F.scQsmpSelKind i with
  | 0 =>
    let q := queueOf s unit sub
    (q.foldl (fun n e => n + flitsOf e.2.payload.length) 0, (tcHead s unit sub).map fun h => h.2.2.enqAt)
  | 1 =>
    let l := voqCopies s unit sub
    (l.foldl (fun n e => n + (e.1.cells.length - e.2.sent)) 0, oldest (l.map fun e => e.1.arriveAt))
  | 2 =>
    let l : List (Nat × Stream) := match logicalOf s unit with
      | some t => s.eng.streams.filter fun e => e.2.tile == t && e.2.chan == sub && !e.2.waiting
      | none => []
    (l.foldl (fun (n : Nat) (e : Nat × Stream) => n + e.2.slices) 0, oldest (l.map fun (e : Nat × Stream) => e.2.since))
  | _ => (0, none)

/-- A running mean with weight 1/8 (R490); how it is rounded is open. -/
def runningMean (s : State) (old new : Nat) : Nat := (7 * old + new + freeNat s % 8) / 8

/-- SC_DELAY of a monitor, at most once in 1 ms (R490). -/
def delayEvent (s : State) (i delay : Nat) : State :=
  let told := match mget s.sc.monEvent i with
    | some t => decide (s.timeNs < t + 1000000)
    | none => false
  if told then s
  else eventPf0 (setSc s fun x => { x with monEvent := mset x.monEvent i s.timeNs }) (0x70 + i * 256) (min delay (2 ^ 32 - 1))

/-- A sample of a monitor, SAMPLE_US after the one before (R490). -/
def sampleMonitor (s : State) (i : Nat) : State :=
  let due := match mget s.sc.monAt i with
    | some t => decide (t + rd s F.scCfgSampleUs * 1000 ≤ s.timeNs)
    | none => true
  if !rdb s F.scQsmpSelEn i || !due || decide (64 ≤ i) then s
  else
    let w := watched s i
    let delay := match w.2 with
      | some t => s.timeNs - t
      | none => 0
    let depth := min 65535 w.1
    let d := min 65535 (delay / 10)
    let s := setSc s fun x => { x with monAt := mset x.monAt i s.timeNs }
    let s := wr (wr s F.scQsmpValDepthLast depth i) F.scQsmpValDepthMax (max depth (rd s F.scQsmpValDepthMax i)) i
    let s := wr s F.scQsmpValDelayMax (max d (rd s F.scQsmpValDelayMax i)) i
    let s := drawn (wr s F.scQsmpValDelayAvg (runningMean s (rd s F.scQsmpValDelayAvg i) d) i)
    let thr := rd s F.scQsmpSelDelayThrUs i
    if thr ≠ 0 ∧ thr * 1000 < delay then delayEvent s i delay else s

/-- QUEUE_MONITOR_SAMPLE (R490): of a monitor. -/
def execQueueMonitorSample (now : Nat) (monitor : Nat) (s : State) : Res := done s (sampleMonitor (atTime s now) monitor)

/-! ### The kiln -/

/-- KILN_PERIOD (R493): package power in W, the 64 temperature sensors, the dies' speeds in 0.1 %, and each rail of Table 19-3 in mV and
mA. -/
def execKilnPeriod (now : Nat) (p : Nat) (temps speeds : List Nat) (rails : List (Nat × Nat)) (s : State) : Res :=
  done s (keepWaiting (kilnPeriod (atTime s now) p temps speeds rails))

/-- VCORE_STEP (R496): whether its AVSBus transaction succeeds. -/
def execVcoreStep (now : Nat) (ok : Bool) (s : State) : Res := done s (vcoreStep (atTime s now) ok)

/-- THERM_SOFT_STEP (R496). -/
def execThermSoftStep (now : Nat) (ok : Bool) (s : State) : Res := done s (thermStep (atTime s now) ok)

/-- AVS_CALIBRATION (R492): VCORE as read back in mV, and the corrected gain in thousandths. -/
def execAvsCalibration (now : Nat) (ok : Bool) (mv gain : Nat) (s : State) : Res := done s (avsCalibrate (atTime s now) ok mv gain)

/-- AVS_RETRY (R497, R505). -/
def execAvsRetry (now : Nat) (ok : Bool) (mv : Nat) (s : State) : Res := done s (avsRetry (atTime s now) ok mv)

/-- KN_BUDGET_WRITE (R502): the kiln's next period uses it. -/
def execKnBudgetWrite (who : Who) (width : Nat) (val : Word) (s : State) : Res := done s (csrWriteBy s who 0x00400000 width val noEnv)

end Sys2Proof.Machine
end

