-- ==== Sys2Proof/Machine/ExecFault.lean ====
section
/-!
DEFINITION. Machine/ExecFault.lean: the commands of 17: faults and the collector, fences, the self test, tiles, management pairs, the
watchdog, HBM stacks, block resets (R507 to R530), and the port events of 15 that end serving or a reset.
-/

namespace Sys2Proof.Machine

/-! ### The collector -/

/-- FAULT_RAISED (R512, R513): source and instance (Table 17-1). -/
def execFaultRaised (now : Nat) (src inst : Nat) (s : State) : Res :=
  done s (if src < 23 then takeFault (l2Struck (atTime s now) src) src (inst % 65536) else s)

/-- A source's pair is a broken wire (R508). -/
def wireBreaks (s : State) (src : Nat) : State :=
  if rdb s F.fcSrcWireBroken src || decide (23 ≤ src) then s
  else raiseFault (wrb s F.fcSrcWireBroken true src) 0 src true

/-- BROKEN_WIRE_DETECTED (R508, R509): of a source. -/
def execBrokenWireDetected (now : Nat) (src : Nat) (s : State) : Res := done s (wireBreaks (atTime s now) src)

/-- A word of FC_CMD. -/
def fcWord (cmd src inst : Nat) (all : Bool) (confirm : Nat) : Word :=
  BitVec.ofNat 64 (cmd + src % 64 * 2 ^ 16 + inst % 65536 * 2 ^ 24 + bit all * 2 ^ 40 + confirm % 65536 * 2 ^ 48)

/-- FC_CMD_RELEASE (R517): `held` lists the instances whose pair still reads (1, 0). -/
def execFcCmdRelease (who : Who) (width : Nat) (all : Bool) (src inst : Nat) (held : List (Nat × Nat)) (s : State) : Res :=
  done s (csrWriteBy s who 0x00200010 width (fcWord 1 src inst all 0) { held := held, flashOk := true })

/-- FC_CMD_CHIP_RESET (R527). -/
def execFcCmdChipReset (who : Who) (width : Nat) (confirm : Nat) (s : State) : Res :=
  done s (csrWriteBy s who 0x00200010 width (fcWord 2 0 0 false confirm) noEnv)

/-- FC_CMD_SELFTEST (R530). -/
def execFcCmdSelftest (who : Who) (width : Nat) (s : State) : Res :=
  done s (csrWriteBy s who 0x00200010 width (fcWord 3 0 0 false 0) noEnv)

/-- The self test ends (R530): none failed, or the first source whose check failed. -/
def selfTested (s : State) (failed : Option Nat) : State :=
  if rd s F.fcSelftestSt ≠ 1 then s
  else
    match failed with
    | none => wr s F.fcSelftestSt 2
    | some src => wr (wr s F.fcSelftestSt 3) F.fcSelftestFailSrc src

/-- SELFTEST_DONE (R530). -/
def execSelftestDone (failed : Option Nat) (s : State) : Res := done s (selfTested s failed)

/-- FC_PEND_CLEAR (R514). -/
def execFcPendClear (who : Who) (width : Nat) (val : Word) (s : State) : Res := done s (csrWriteBy s who 0x00200000 width val noEnv)

/-! ### Repairs -/

/-- TILE_FAIL (R21, R22): a physical engine tile, 0 to 51. -/
def execTileFail (now : Nat) (tile : Nat) (s : State) : Res := done s (tileFailed (atTime s now) tile)

/-- MCTP requests that waited for firmware go on once it runs. -/
def resumeMctp (s : State) : State := mctpRun s.fw.waiting.length s

/-- MGMT_PAIR_FAIL (R518, R519): of the active pair. -/
def execMgmtPairFail (now : Nat) (s : State) : Res := done s (resumeMctp (pairFailed (atTime s now)))

/-- MGMT_PAIR_RETEST_DONE (R519): of a pair. -/
def execMgmtPairRetestDone (now : Nat) (pair : Nat) (ok : Bool) (s : State) : Res :=
  done s (resumeMctp (pairTested (atTime s now) pair ok))

/-- WATCHDOG_RESTART (R525): by firmware, while it runs. -/
def execWatchdogRestart (now : Nat) (s : State) : Res :=
  done s (if firmwareRuns s then restartWdog (atTime s now) else atTime s now)

/-- PERIOD_MS have passed with no restart (R525); it does not run in RECOVERY or while the complex boots. -/
def wdogDue (s : State) : State :=
  let p := rd s F.fcWdogPeriodMs
  if p = 0 ∨ inRecovery s = true ∨ s.fw.booting = true ∨ s.timeNs < s.fc.wdogAt + p * 1000000 then s else wdogExpired s

/-- WATCHDOG_EXPIRED (R525). -/
def execWatchdogExpired (now : Nat) (s : State) : Res := done s (resumeMctp (wdogDue (atTime s now)))

/-- HBM_STACK_FAIL (R521, Table 17-4). -/
def execHbmStackFail (now : Nat) (stack : Nat) (s : State) : Res := done s (stackFailed (atTime s now) stack)

/-- HBM_REMIRROR_DONE (R522). -/
def execHbmRemirrorDone (s : State) : Res := done s (remirrored s)

/-- BLOCK_RESET_DONE (R526, Table 17-7): of a block by its code in Table 20-1, 8 for the management complex, and its unit. -/
def execBlockResetDone (now : Nat) (code unit : Nat) (s : State) : Res :=
  done s (resumeMctp (endBlockReset (atTime s now) code unit))

/-! ### Ports -/

/-- PF0's enables as the host leaves them when it clears one (R450); the function answers configuration requests. -/
def enablesCleared (s : State) (hp : Nat) (bme mse : Bool) : State :=
  if configAnswers s hp 0 then
    let s := wakePort s hp
    let p := portOf s hp
    refreshServing (setPort s hp { p with cfg := { p.cfg with bme := bme, mse := mse } }) hp
  else s

/-- PF0_ENABLES_CLEARED (R450): Bus Master Enable and Memory Space Enable as they are written, one of them clear. -/
def execPf0EnablesCleared (now : Nat) (hp : Nat) (bme mse : Bool) (s : State) : Res :=
  done s (if bme && mse then atTime s now else enablesCleared (atTime s now) hp bme mse)

/-- PERSTn_N rises (R450): HFUND of the port may end, and the link trains. -/
def perstRises (s : State) (hp : Nat) : State :=
  if decide (hp < 2) && (portOf s hp).perstLow then
    endPortReset (wrb (setPort s hp { portOf s hp with perstLow := false }) F.hiPortStatPerst false hp) hp
  else s

/-- PERST_DEASSERT (R450). -/
def execPerstDeassert (now : Nat) (hp : Nat) (s : State) : Res := done s (perstRises (atTime s now) hp)

end Sys2Proof.Machine
end

