-- ==== Sys2Proof/Machine/ExecFw.lean ====
section
/-!
DEFINITION. Machine/ExecFw.lean: the commands of 18: downloads, activation and the health window, keys and fuses, MCTP, the TAP (R535 to
R559), and the sideband bus (R589).
-/

namespace Sys2Proof.Machine

/-! ### Downloads -/

/-- FW_DL_CMD_WRITE (R540, R541). -/
def execFwDlCmdWrite (who : Who) (width : Nat) (val : Word) (s : State) : Res := done s (csrWriteBy s who 0x00300028 width val noEnv)

/-- An MCTP request over a transport (R557): PCIe VDM on a serving port, or I3C. -/
def mctpVia (s : State) (via : Option Nat) (r : MctpReq) : State :=
  match via with
  | some hp => if serving s hp then mctpIn s hp r else s
  | none => mctpIn s 2 r

/-- MCTP_DOWNLOAD (R540, R556): a block for an offset of a slot. -/
def execMctpDownload (via : Option Nat) (slot off : Nat) (data : List Byte) (s : State) : Res :=
  done s (mctpVia s via (.download slot off data))

/-- The block that is being written, with the bytes that host memory returned for it, and whether they read back (R540, R536). -/
def blockEnds (s : State) (data : List Byte) (ok : Bool) : State :=
  match s.fw.block with
  | some b => if b.hp.isSome && data.length != b.len then s else blockWritten s data ok
  | none => s

/-- FW_BLOCK_WRITTEN (R540). -/
def execFwBlockWritten (now : Nat) (data : List Byte) (ok : Bool) (s : State) : Res := done s (blockEnds (atTime s now) data ok)

/-! ### Activation -/

/-- A word of FW_CMD. -/
def fwWord (cmd slot key confirm : Nat) : Word :=
  BitVec.ofNat 64 (cmd + slot % 2 * 2 ^ 8 + key % 4 * 2 ^ 12 + confirm % 65536 * 2 ^ 48)

/-- FW_CMD written. -/
def fwStore (s : State) (who : Who) (width : Nat) (w : Word) : State := csrWriteBy s who 0x00300018 width w noEnv

/-- FW_CMD_ACTIVATE (R541, R542, R551). -/
def execFwCmdActivate (who : Who) (width slot : Nat) (s : State) : Res := done s (fwStore s who width (fwWord 1 slot 0 0))

/-- MCTP_ACTIVATE (R542, R556). -/
def execMctpActivate (via : Option Nat) (slot : Nat) (s : State) : Res := done s (mctpVia s via (.activate slot))

/-- FW_WARM_BOOT_DONE (R543, R544, R551): the image of the slot that boots, as the boot ROM reads it. -/
def execFwWarmBootDone (now : Nat) (img : Image) (s : State) : Res := done s (resumeMctp (warmDone (atTime s now) img))

/-- FW_SWAP_PREPARED (R543, R544). -/
def execFwSwapPrepared (now : Nat) (s : State) : Res := done s (swapHold (atTime s now))

/-- FW_HEALTH_OK (R544): firmware sets FW_HEALTH.OK while it runs. -/
def execFwHealthOk (s : State) : Res := done s (if firmwareRuns s then healthOk s else s)

/-- FW_CMD_CONFIRM (R544). -/
def execFwCmdConfirm (who : Who) (width : Nat) (s : State) : Res := done s (fwStore s who width (fwWord 2 0 0 0))

/-- MCTP_CONFIRM (R556). -/
def execMctpConfirm (via : Option Nat) (s : State) : Res := done s (mctpVia s via .confirm)

/-- 30 s after the health window opened (R544, R548). -/
def windowDue (s : State) : State :=
  match s.fw.windowAt with
  | some t => if t + 30000000000 ≤ s.timeNs then windowOver s else s
  | none => s

/-- HEALTH_WINDOW_EXPIRED (R544). -/
def execHealthWindowExpired (now : Nat) (s : State) : Res := done s (windowDue (atTime s now))

/-! ### Keys and fuses -/

/-- FW_CMD_RECOVERY_REQ (R552). -/
def execFwCmdRecoveryReq (who : Who) (width confirm : Nat) (s : State) : Res := done s (fwStore s who width (fwWord 3 0 0 confirm))

/-- FW_CMD_COMMIT_SVN (R553). -/
def execFwCmdCommitSvn (who : Who) (width : Nat) (s : State) : Res := done s (fwStore s who width (fwWord 4 0 0 0))

/-- FW_CMD_REVOKE_KEY (R554). -/
def execFwCmdRevokeKey (who : Who) (width key confirm : Nat) (s : State) : Res := done s (fwStore s who width (fwWord 5 0 key confirm))

/-! ### MCTP -/

/-- MCTP_GET_STATUS (R556). -/
def execMctpGetStatus (via : Option Nat) (s : State) : Res := done s (mctpVia s via .status)

/-- MCTP_GET_CERT (R555, R556): 0 the identity, 1 the attestation key. -/
def execMctpGetCert (via : Option Nat) (index : Nat) (s : State) : Res := done s (mctpVia s via (.cert index))

/-- MCTP_ATTEST (R558): with a nonce of 32 bytes. -/
def execMctpAttest (via : Option Nat) (nonce : List Byte) (s : State) : Res :=
  done s (if nonce.length = 32 then mctpVia s via (.attest via.isNone nonce) else s)

/-- MCTP_CSR_READ (R557). -/
def execMctpCsrRead (via : Option Nat) (off : Nat) (s : State) : Res := done s (mctpVia s via (.csrRead off))

/-- MCTP_CSR_WRITE (R557): with what the register meets outside the registers when the write takes effect. -/
def execMctpCsrWrite (via : Option Nat) (off : Nat) (val : Word) (env : CsrEnv) (s : State) : Res :=
  done s (mctpVia s via (.csrWrite off val env))

/-! ### The TAP and the sideband bus -/

/-- An unlock token of a firmware key slot (R559): `valid` says that its signature over the challenge and the serial number verifies. -/
def unlock (s : State) (key : Nat) (valid : Bool) : State :=
  let ok := rdb s F.fwFuseDebugEn && !rdb s F.lckBitsDebugDis && (baseOf s == 3 || baseOf s == 0) && valid
    && bitAt (rd s F.fwFuseFwProg) key && !bitAt (rd s F.fwFuseFwRevoked) key && decide (key < 4)
  emit (if ok then setFw s fun w => { w with debugOpen := true, debugEver := true } else s) (.jtag ok)

/-- JTAG_DEBUG_UNLOCK (R559). -/
def execJtagDebugUnlock (key : Nat) (valid : Bool) (s : State) : Res := done s (unlock s key valid)

/-- I3C_BUS_STUCK (R589): another device has held the bus low for `lowNs`. -/
def execI3cBusStuck (now : Nat) (lowNs : Nat) (s : State) : Res :=
  done s (if 10000000 < lowNs then takeFault (atTime s now) 19 0 else atTime s now)

/-- I3C_SDA_RELEASE (R589): the target has driven SDA for `drivenNs` with no SCL edge. -/
def execI3cSdaRelease (now : Nat) (drivenNs : Nat) (s : State) : Res :=
  done s (if 100000 ≤ drivenNs then emit (atTime s now) (.i3c 0) else atTime s now)

/-- I3C_TARGET_RESET (R589): the target reset pattern, or the bus-clear of 9 clocks. -/
def execI3cTargetReset (s : State) : Res := done s (emit s (.i3c 1))

end Sys2Proof.Machine
end

