-- ==== Sys2Proof/Machine/ExecLane.lean ====
section
/-!
DEFINITION. Machine/ExecLane.lean: the commands of 04: codeword pairs, training, recalibration, and failures of lanes.
-/

namespace Sys2Proof.Machine

/-- A lane number of the device: 256 lanes, and 16 spare slices whose own balls are used in TEST only (R102). -/
def isLane (s : State) (n : Nat) : Bool := decide (n < 256) || (decide (n < 272) && baseOf s == 3)

/-- A slice of the device: those of the lanes, and the spares. -/
def isSlice (n : Nat) : Bool := decide (n < 272)

/-- CODEWORD_PAIR_RECEIVED (R106 to R114): what a lane's pads show in one codeword-pair period. -/
def execCodewordPairReceived (now : Nat) (lane : Nat) (pair : LanePair) (s : State) : Res :=
  done s (if isLane s lane then takePair (atTime s now) lane pair.levels pair.skewNs else s)

/-- DETECT ends with a WIRE result (R121): OK leads to SIGNAL, a wiring fault fails the attempt (R117). -/
def detectDone (s : State) (n wire : Nat) : State :=
  if rd s F.lnStatPhase n = 0 ∧ 1 ≤ wire ∧ wire ≤ 4 then
    let l := laneSt s n
    let s := wr s F.lnStatWire wire n
    if wire = 1 then setLane (wr s F.lnStatPhase 1 n) n { l with phaseSince := s.timeNs, terminated := true }
    else failAttempt (setLane s n { l with wireFaults := l.wireFaults + 1, terminated := wire != 2 }) n
  else s

/-- LANE_DETECT_DONE (R115, R121): WIRE as LN_STAT codes it, 1 OK to 4 SHORT_RAIL. -/
def execLaneDetectDone (now : Nat) (lane : Nat) (wire : Nat) (s : State) : Res :=
  done s (if isLane s lane then detectDone (atTime s now) lane wire else s)

/-- Signal on the receive pads ends SIGNAL (R115).  WIRE keeps what it read, NO_SIGNAL too, until the next DETECT (DESIGN CHOICE, log
entry 102: the spec does not say when it returns to OK). -/
def signalSeen (s : State) (n : Nat) : State :=
  if rd s F.lnStatPhase n = 1 then
    setLane (wr s F.lnStatPhase 2 n) n { laneSt s n with phaseSince := s.timeNs, signal := true, markerRun := 0 }
  else s

/-- LANE_SIGNAL_DETECTED (R115). -/
def execLaneSignalDetected (now : Nat) (lane : Nat) (s : State) : Res :=
  done s (if isLane s lane then signalSeen (atTime s now) lane else s)

/-- TRAINING_FRAME_RECEIVED (R116, R119, R120, R122): the 4,096 symbols of the frame, whether this side's receiver has settled, and what
it asks of the partner's taps (REQ and PRESET). -/
def execTrainingFrameReceived (now : Nat) (lane : Nat) (levels : Nat) (settled : Bool) (ask : Nat) (s : State) : Res :=
  done s (if isLane s lane then trainFrame (atTime s now) lane levels settled ask else s)

/-- The 10 ms of QUALIFY end (R115): READY when the error ratio over them is at most 1 in 10^5 and no codeword was uncorrectable. -/
def qualifyDone (s : State) (n tj mv : Nat) (berOk : Bool) : State :=
  if rd s F.lnStatPhase n = 5 ∧ (laneSt s n).phaseSince + 10000000 ≤ s.timeNs then
    if berOk && !(laneSt s n).qualBad then laneReadyNow s n tj mv else failAttempt s n
  else s

/-- LANE_QUALIFY_DONE (R115, R124): the lane die's temperature and VSERDES in mV, and whether the error ratio passes. -/
def execLaneQualifyDone (now : Nat) (lane : Nat) (tj : Nat) (mv : Nat) (berOk : Bool) (s : State) : Res :=
  done s (if isLane s lane then qualifyDone (atTime s now) lane tj mv berOk else s)

/-- The limit of a phase in ns (Table 04-3); SIGNAL has none. -/
def phaseLimit (ph : Nat) : Option Nat :=
  match ph with
  | 0 => some 1000000
  | 2 => some 2000000
  | 3 => some 50000000
  | 4 => some 2000000
  | 5 => some 10000000
  | _ => none

/-- A phase past its limit fails the attempt (R115). -/
def phaseOver (s : State) (n : Nat) : State :=
  match phaseLimit (rd s F.lnStatPhase n) with
  | some t => if (laneSt s n).phaseSince + t ≤ s.timeNs then failAttempt s n else s
  | none => s

/-- LANE_PHASE_LIMIT_EXPIRED (R115, R117). -/
def execLanePhaseLimitExpired (now : Nat) (lane : Nat) (s : State) : Res :=
  done s (if isLane s lane then phaseOver (atTime s now) lane else s)

/-- A FAILED lane trains again after 10 s (R117); a retired slice does not, its spare does (R130). -/
def failedRetry (s : State) (n : Nat) : State :=
  if rd s F.lnStatPhase n = 8 ∧ (rd s F.lnStatFailCause n ≠ 6 ∨ onAttempt s n = true) ∧ (laneSt s n).phaseSince + 10000000000 ≤ s.timeNs then
    retrainLane s n 5
  else s

/-- LANE_FAILED_RETRY_TIMER (R117). -/
def execLaneFailedRetryTimer (now : Nat) (lane : Nat) (s : State) : Res :=
  done s (if isLane s lane then failedRetry (atTime s now) lane else s)

/-- The byte offset of LN_CTL of a lane. -/
def lnCtlKey (n : Nat) : Nat := F.lnCtlRetrain.key n

/-- LN_CTL_RETRAIN (R117): LN_CTL as written. -/
def execLnCtlRetrain (now : Nat) (who : Who) (width : Nat) (lane : Nat) (val : Word) (s : State) : Res :=
  done s (if isSlice lane then csrWriteBy (atTime s now) who (lnCtlKey lane) width val { held := [], flashOk := true } else s)

/-- LN_CTL_RECAL (R125): LN_CTL as written. -/
def execLnCtlRecal (now : Nat) (who : Who) (width : Nat) (lane : Nat) (val : Word) (s : State) : Res :=
  done s (if isSlice lane then csrWriteBy (atTime s now) who (lnCtlKey lane) width val { held := [], flashOk := true } else s)

/-- The lanes of a 10 ms check in lane-number order (R127). -/
def inLaneOrder (l : List (Nat × Nat × Nat × Bool)) : List (Nat × Nat × Nat × Bool) :=
  (List.range 256).flatMap fun n => l.filter fun e => e.1 == n

/-- LANE_RECAL_CHECK (R125): what the 10 ms check measures of lanes: lane, temperature, VSERDES in mV, and whether the error ratio
over 100 ms is above 1 in 10^4. -/
def execLaneRecalCheck (now : Nat) (lanes : List (Nat × Nat × Nat × Bool)) (s : State) : Res :=
  done s ((inLaneOrder lanes).foldl checkLane (atTime s now))

/-- The spare has locked to a lane's pads: it takes over the receive path and the TX pads (R126 steps 2 and 3). -/
def recalLocked (s : State) (t : Nat) : State :=
  match servedBy s t with
  | none => s
  | some n =>
    if (spareSt s t).stage = .recalLock ∧ rd s F.lnStatPhase n = 6 then
      lanesChanged (wr (wrb (setSpare s t { spareSt s t with stage := .recalCarry }) F.lnStatOnSpare true n) F.lnStatPhase 7 n) n
    else s

/-- RECAL_SPARE_LOCKED (R126): the spare of a tile. -/
def execRecalSpareLocked (now : Nat) (tile : Nat) (s : State) : Res := done s (recalLocked (atTime s now) tile)

/-- The lane's slice has passed QUALIFY behind the spare and takes back its pads (R126 steps 4 to 6, R130). -/
def sliceQualified (s : State) (t tj mv : Nat) : State :=
  match servedBy s t with
  | none => s
  | some n => if (spareSt s t).stage = .recalCarry ∨ (spareSt s t).stage = .retrain then takeBack s t n tj mv else s

/-- RECAL_SLICE_QUALIFIED (R124, R126, R130). -/
def execRecalSliceQualified (now : Nat) (tile : Nat) (tj : Nat) (mv : Nat) (s : State) : Res :=
  done s (sliceQualified (atTime s now) tile tj mv)

/-- A self-check fault of a slice (R128); a lane that is FAILED already fails no further. -/
def sliceFails (s : State) (n : Nat) : State := if rd s F.lnStatPhase n = 8 then s else failLane s n 1

/-- LANE_SELF_CHECK_FAIL (R128 to R133). -/
def execLaneSelfCheckFail (now : Nat) (lane : Nat) (s : State) : Res :=
  done s (if isSlice lane then sliceFails (atTime s now) lane else s)

/-- Block lock not regained within 10 µs by a lane that the link layer owns (R128). -/
def huntOver (s : State) (n : Nat) : State :=
  match (laneSt s n).lockLostAt with
  | none => s
  | some t =>
    if (rd s F.lnStatPhase n = 6 ∨ rd s F.lnStatPhase n = 7) ∧ rdb s F.lnStatBlkLock n = false ∧ t + 10000 ≤ s.timeNs then
      failLane (setLane s n { laneSt s n with lockLostAt := none }) n 2
    else s

/-- LANE_LOCK_HUNT_EXPIRED (R128). -/
def execLaneLockHuntExpired (now : Nat) (lane : Nat) (s : State) : Res :=
  done s (if isLane s lane then huntOver (atTime s now) lane else s)

/-- The spare has block lock, FEC lock and deskew and sees the partner's RX_READY: groups are dealt to the lane again (Table 04-6 steps
4 and 5). -/
def swapResumes (s : State) (t : Nat) : State :=
  match servedBy s t with
  | none => s
  | some n =>
    if (spareSt s t).stage = .swapLock ∧ laneRx s n = true ∧ (laneSt s n).partnerReady = true then
      let s := setSpare s t { spareSt s t with stage := .swapped }
      let s := wrb s F.lnStatOnSpare true n
      let p := laneUnit s n
      lanesChanged (setLink s p { linkOf s p with swapUntil := none }) n
    else s

/-- SPARE_SWAP_RESUME (R129). -/
def execSpareSwapResume (now : Nat) (tile : Nat) (s : State) : Res := done s (swapResumes (atTime s now) tile)

/-- The self-test of a failed slice ends (R130): the slice retrains behind the spare, or is retired after three failures
within 24 h; a failed self-test counts as a failure. -/
def sliceRetested (s : State) (t : Nat) (pass : Bool) : State :=
  match servedBy s t with
  | none => s
  | some n =>
    if (spareSt s t).stage = .swapped ∧ rd s F.lnStatFailCause n ≠ 6 then
      let l := laneSt s n
      let times := (if pass then l.failTimes else s.timeNs :: l.failTimes).filter fun x => decide (s.timeNs < x + 86400000000000)
      let s := setLane s n { l with failTimes := times }
      if 3 ≤ times.length then tell (wr s F.lnStatFailCause 6 n) (.patina 0 n)
      else if pass then setSpare s t { spareSt s t with stage := .retrain }
      else s
    else s

/-- FAILED_SLICE_RETEST_DONE (R130). -/
def execFailedSliceRetestDone (now : Nat) (tile : Nat) (pass : Bool) (s : State) : Res :=
  done s (sliceRetested (atTime s now) tile pass)

/-- 10 ms without signal while termination is present and another lane of the unit has signal (R121): the lane stays in
SIGNAL. -/
def noSignal (s : State) (n : Nat) : State :=
  let l := laneSt s n
  let others := (unitLanes s (laneUnit s n)).any fun k => k != n && ((laneSt s k).signal || decide (2 ≤ rd s F.lnStatPhase k ∧ rd s F.lnStatPhase k ≤ 7))
  if n < 256 ∧ rd s F.lnStatPhase n = 1 ∧ l.terminated = true ∧ others = true ∧ l.phaseSince + 10000000 ≤ s.timeNs then
    wr s F.lnStatWire 5 n
  else s

/-- NO_SIGNAL_TIMEOUT (R121). -/
def execNoSignalTimeout (now : Nat) (lane : Nat) (s : State) : Res := done s (noSignal (atTime s now) lane)

end Sys2Proof.Machine
end

