-- ==== Sys2Proof/Machine/ExecLink.lean ====
section
/-!
DEFINITION. Machine/ExecLink.lean: the commands of 05: frames, the timers of a link, and drains.
-/

namespace Sys2Proof.Machine

/-- A port unit of the device: P0 to P127, and in trunked geometry the even ports only. -/
def isUnit (s : State) (p : Nat) : Bool := decide (p < 128) && unitOf s p == p

/-- FRAME_RECEIVED (R139): on a port unit, with the lanes whose last pairs belong to the frame's period once they are deskewed (R114). -/
def execFrameReceived (now : Nat) (p : Nat) (lanes : List Nat) (s : State) : Res :=
  done s (if isUnit s p then takeFrame (atTime s now) p lanes else s)

/-- Entries of the spill ring that cannot be read, their mirrors neither (R144). -/
def loseSpill (s : State) (p : Nat) (lost : List Nat) : State :=
  let l := linkOf s p
  let f := fun (e : RplEnt) => if e.spilled && lost.contains e.fseq then { e with spillLost := true } else e
  if lost.isEmpty then s else setLink s p { l with replay := l.replay.map f }

/-- A codeword-pair period of a port unit (R136, R137): its frame is formed, and each of its lanes sends its part of it or what its own
state asks (R111, R160). -/
def sendPeriod (s : State) (p : Nat) : State :=
  let s := wakeLink s p
  let mask := txLanes s p
  let (s, slots) := nextFrame s p
  let s := if slots.isEmpty then s else emit s (.frame p slots)
  if s.pw.tripped then s else sendLanes s p mask slots

/-- FRAME_TRANSMIT (R137): a port unit's next frame; FSEQs of spilled entries that are unreadable with their mirrors (R144). -/
def execFrameTransmit (now : Nat) (p : Nat) (lost : List Nat) (s : State) : Res :=
  done s (if isUnit s p then sendPeriod (loseSpill (atTime s now) p lost) p else s)

/-- NACK_WAIT in ns (R152). -/
def nackWait (s : State) (p : Nat) : Nat := 2 * rd s F.llStatRttNs p + 100

/-- A gap still open NACK_WAIT after its last NACK is NACKed again (R152). -/
def nackAgain (s : State) (p base : Nat) : State :=
  let l := linkOf s p
  match l.gaps.find? fun g => g.base == base with
  | none => s
  | some g =>
    if linkState s p ≠ lsUp ∧ linkState s p ≠ lsDrain ∧ linkState s p ≠ lsTest then s
    else if g.due = true ∨ s.timeNs < g.lastAt + nackWait s p then s
    else setLink s p { l with gaps := l.gaps.map fun x => if x = g then { x with due := true } else x }

/-- NACK_WAIT_EXPIRED (R152): for the gap that begins at an FSEQ. -/
def execNackWaitExpired (now : Nat) (p : Nat) (base : Nat) (s : State) : Res := done s (nackAgain (atTime s now) p base)

/-- No good frame for 1 µs while a lane of the unit has block lock (R155). -/
def noFrame (s : State) (p : Nat) : State :=
  let st := linkState s p
  let lock := (unitLanes s p).any fun k => rdb s F.lnStatBlkLock k
  if (st = lsUp ∨ st = lsDrain ∨ st = lsTest) ∧ lock = true ∧ (linkOf s p).lastGood + 1000 ≤ s.timeNs then enterRecover s p else s

/-- RECOVER_NO_FRAME_TIMEOUT (R155). -/
def execRecoverNoFrameTimeout (now : Nat) (p : Nat) (s : State) : Res := done s (noFrame (atTime s now) p)

/-- 20 µs of RECOVER (R155). -/
def recoverOver (s : State) (p : Nat) : State :=
  if linkState s p = lsRecover ∧ (linkOf s p).recoverAt + 20000 ≤ s.timeNs then linkDown s p 2 else s

/-- RECOVER_LIMIT_EXPIRED (R155). -/
def execRecoverLimitExpired (now : Nat) (p : Nat) (s : State) : Res := done s (recoverOver (atTime s now) p)

/-- How long no lane of a unit has had block lock, the time of a spare swap's steps not counted (Table 05-5). -/
def noLaneFor (s : State) (p : Nat) : Nat :=
  let l := linkOf s p
  match l.noLaneAt, l.swapUntil with
  | none, _ => 0
  | some t, none => s.timeNs - t
  | some t, some u => (u - 20000 - t) + (s.timeNs - max u t)

/-- No lane lock for 4 µs (R158). -/
def noLane (s : State) (p : Nat) : State := if 4000 ≤ noLaneFor s p then linkDown s p 1 else s

/-- NO_LANE_TIMEOUT (R158). -/
def execNoLaneTimeout (now : Nat) (p : Nat) (s : State) : Res := done s (noLane (atTime s now) p)

/-- FORCE_NS has passed since the last RETURN and there is something to report (R150). -/
def forceReturn (s : State) (p : Nat) : State :=
  let l := linkOf s p
  if l.news = true ∧ l.lastReturn + rd s F.llCtlForceNs p ≤ s.timeNs then setLink s p { l with retDue := true } else s

/-- RETURN_FORCE_TIMEOUT (R150). -/
def execReturnForceTimeout (now : Nat) (p : Nat) (s : State) : Res := done s (forceReturn (atTime s now) p)

/-- PROBE changes every 1 µs in INIT (R156). -/
def nextProbe (s : State) (p : Nat) : State :=
  let l := linkOf s p
  if linkState s p = lsInit ∧ l.probeAt + 1000 ≤ s.timeNs then
    setLink s p { l with probe := (l.probe + 1) % 256, probeAt := s.timeNs, probeSent := none, probeDone := false }
  else s

/-- PROBE_TIMER (R156). -/
def execProbeTimer (now : Nat) (p : Nat) (s : State) : Res := done s (nextProbe (atTime s now) p)

/-- LL_DRAIN_WRITE (R159): LL_CTL of a unit as written. -/
def execLlDrainWrite (now : Nat) (who : Who) (width : Nat) (p : Nat) (val : Word) (s : State) : Res :=
  done s (if p < 128 then csrWriteBy (atTime s now) who (F.llCtlDrain.key p) width val { held := [], flashOk := true } else s)

/-- A drain not complete within 1 ms (R159). -/
def drainOver (s : State) (p : Nat) : State :=
  if linkState s p = lsDrain ∧ (linkOf s p).drainAt + 1000000 ≤ s.timeNs then linkDown s p 8 else s

/-- DRAIN_LIMIT_EXPIRED (R159). -/
def execDrainLimitExpired (now : Nat) (p : Nat) (s : State) : Res := done s (drainOver (atTime s now) p)

end Sys2Proof.Machine
end

