-- ==== Sys2Proof/Machine/ExecPower.lean ====
section
/-!
DEFINITION. Machine/ExecPower.lean: the commands of 19: supply monitors, THERMTRIP, reference clocks (R564 to R571, R585, R590), and the
cage-power channels (R573 to R583).
-/

namespace Sys2Proof.Machine

/-! ### Supplies -/

/-- SUPPLY_WARNING (R564, R567): of rail 0 VMON, 1 VSRAM or 2 VSERDES, and the bus voltage in 10 mV. -/
def execSupplyWarning (now : Nat) (rail cv : Nat) (s : State) : Res := done s (supplyWarns (atTime s now) rail cv)

/-- SUPPLY_ABOVE_RECOVERY (R565, R570). -/
def execSupplyAboveRecovery (now : Nat) (rail cv : Nat) (s : State) : Res := done s (supplyRises (atTime s now) rail cv)

/-- 2 ms after a supply rose (R565). -/
def countOver (s : State) (rail : Nat) : State :=
  match mget s.pw.recoverAt rail with
  | some t => if t + 2000000 ≤ s.timeNs then supplyRecovered s rail else s
  | none => s

/-- SUPPLY_RECOVERY_DONE (R565, R571). -/
def execSupplyRecoveryDone (now : Nat) (rail : Nat) (s : State) : Res := done s (countOver (atTime s now) rail)

/-- SUPPLY_RESET (R566): of a rail of Table 19-3. -/
def execSupplyReset (now : Nat) (rail : Nat) (s : State) : Res := done s (supplyReset (atTime s now) rail)

/-- VMON_OPEN_TEST (R568): the rise in mV. -/
def execVmonOpenTest (now : Nat) (rise : Nat) (s : State) : Res := done s (vmonTest (atTime s now) rise)

/-- THERMTRIP (R585): both host PHYs go to electrical idle, so their links drop. -/
def trips (s : State) : State :=
  if s.pw.tripped then s else linkResets (linkResets (thermTrip s) 0) 1

/-- THERMTRIP (R585). -/
def execThermtrip (now : Nat) (s : State) : Res := done s (trips (atTime s now))

/-- REFCLK_LOSS (R590): 0 to 3 LREFCLK, 4 and 5 PREFCLK. -/
def execRefclkLoss (now : Nat) (clock : Nat) (s : State) : Res :=
  done s (if clock < 6 then takeFault (atTime s now) 20 clock else atTime s now)

/-! ### Cage-power channels -/

/-- CG_CTL of a channel written. -/
def cgStore (s : State) (who : Who) (c width ramp : Nat) (en clear : Bool) : State :=
  if c < 64 then csrWriteBy s who (0x00420000 + 64 * c) width (BitVec.ofNat 64 (bit en + bit clear * 2 + ramp % 256 * 2 ^ 8)) noEnv else s

/-- CG_ENABLE (R573). -/
def execCgEnable (now : Nat) (who : Who) (c width ramp : Nat) (s : State) : Res :=
  done s (cgStore (atTime s now) who c width ramp true false)

/-- CG_DISABLE (R583). -/
def execCgDisable (now : Nat) (who : Who) (c width ramp : Nat) (s : State) : Res :=
  done s (cgStore (atTime s now) who c width ramp false false)

/-- CG_CLEAR (R577): with EN as it is written. -/
def execCgClear (now : Nat) (who : Who) (c width ramp : Nat) (en : Bool) (s : State) : Res :=
  done s (cgStore (atTime s now) who c width ramp en true)

/-- A command of one of the 64 channels at a time. -/
def onCage (s : State) (now c : Nat) (f : State → State) : State := if c < 64 then f (atTime s now) else atTime s now

/-- CG_CHECK_DONE (R573, R581): with what the check has read. -/
def execCgCheckDone (now : Nat) (c : Nat) (reads : CageReads) (s : State) : Res := done s (onCage s now c fun s => cageChecked s c reads)

/-- CG_RAMP_DONE (R574). -/
def execCgRampDone (now : Nat) (c : Nat) (s : State) : Res := done s (onCage s now c fun s => cageRamped s c)

/-- CG_LIMIT_ENGAGE (R574, R579). -/
def execCgLimitEngage (now : Nat) (c : Nat) (s : State) : Res := done s (onCage s now c fun s => cageLimit s c)

/-- CG_LIMIT_RELEASE (R579). -/
def execCgLimitRelease (now : Nat) (c : Nat) (s : State) : Res := done s (onCage s now c fun s => cageUnlimit s c)

/-- CG_FAULT_TIMER_EXPIRED (R575). -/
def execCgFaultTimerExpired (now : Nat) (c : Nat) (s : State) : Res := done s (onCage s now c fun s => cageTimedOut s c)

/-- CG_HARD_SHORT (R576). -/
def execCgHardShort (now : Nat) (c : Nat) (s : State) : Res := done s (onCage s now c fun s => cageShort s c)

/-- CG_BACKOFF_EXPIRED (R577): 1 s after the fault. -/
def execCgBackoffExpired (now : Nat) (c : Nat) (s : State) : Res :=
  done s (onCage s now c fun s => if (cageOf s c).backoffAt + 1000000000 ≤ s.timeNs then cageRetry s c else s)

/-- CG_PG_QUALIFIED (R578). -/
def execCgPgQualified (now : Nat) (c : Nat) (s : State) : Res := done s (onCage s now c fun s => cageGood s c)

/-- The sense amplifier of a channel in OFF re-zeroed, every 100 ms (R573). -/
def cageZero (s : State) (c : Nat) : State :=
  if cageState s c = 0 ∧ (cageOf s c).zeroAt + 100000000 ≤ s.timeNs then setCage s c { cageOf s c with zeroAt := s.timeNs } else s

/-- CG_OFFSET_REZERO (R573). -/
def execCgOffsetRezero (now : Nat) (c : Nat) (s : State) : Res := done s (onCage s now c fun s => cageZero s c)

/-- CG_MEASURE_TICK (R580): VIN and VOUT in mV, IOUT in mA. -/
def execCgMeasureTick (now : Nat) (c vin vout iout : Nat) (s : State) : Res :=
  done s (onCage s now c fun s => cageMeasure s c vin vout iout)

end Sys2Proof.Machine
end

