-- ==== Sys2Proof/Machine/ExecPm.lean ====
section
/-!
DEFINITION. Machine/ExecPm.lean: the commands of 20: level samples, freezes, snapshots, drains, counter writes, and the patina (R594 to
R605).
-/

namespace Sys2Proof.Machine

/-- PM_LEVEL_SAMPLE (R594, R595). -/
def execPmLevelSample (now : Nat) (s : State) : Res := done s (pmSampleLevels (atTime s now))

/-- PM_FREEZE_WRITE (R597): PM_CTL without SNAP. -/
def execPmFreezeWrite (now : Nat) (who : Who) (width : Nat) (val : Word) (s : State) : Res :=
  done s (csrWriteBy (atTime s now) who 0x00500000 width (wordSet val 2 1 0) noEnv)

/-- PM_SNAP_WRITE (R598): PM_CTL with SNAP. -/
def execPmSnapWrite (now : Nat) (who : Who) (width : Nat) (val : Word) (s : State) : Res :=
  done s (csrWriteBy (atTime s now) who 0x00500000 width (wordSet val 2 1 1) noEnv)

/-- A snapshot PERIOD_US after the last (R598). -/
def snapDue (s : State) : State :=
  let p := rd s F.pmCtlPeriodUs
  if p = 0 ∨ s.timeNs < s.pm.snapAt + p * 1000 then s else takeSnapshot (setPm s fun x => { x with snapAt := s.timeNs })

/-- PM_SNAPSHOT_PERIOD (R598). -/
def execPmSnapshotPeriod (now : Nat) (s : State) : Res := done s (snapDue (atTime s now))

/-- PM_DRAIN_CMD (R600). -/
def execPmDrainCmd (who : Who) (width : Nat) (val : Word) (s : State) : Res := done s (csrWriteBy s who 0x00500118 width val noEnv)

/-- PM_DRAIN_DONE (R600, R603). -/
def execPmDrainDone (s : State) : Res := done s (drainDone s)

/-- PM_COUNTER_WRITE (R605): of counter i. -/
def execPmCounterWrite (who : Who) (ctr width : Nat) (val : Word) (s : State) : Res :=
  done s (if ctr < 256 then csrWriteBy s who (0x00501800 + 8 * ctr) width val noEnv else s)

/-- The patina written to flash every 10 min (R602): firmware brings LIFE up to date, in hours. -/
def patinaWritten (s : State) (hot powered : Nat) : State :=
  if firmwareRuns s then
    let s := setPat s 6 0 (hot % 2 ^ 32 * 2 ^ 32 + powered % 2 ^ 32) true
    setFc s fun f => { f with patinaFlash := f.patina }
  else s

/-- PATINA_PERIODIC_WRITE (R602). -/
def execPatinaPeriodicWrite (now : Nat) (hot powered : Nat) (s : State) : Res := done s (patinaWritten (atTime s now) hot powered)

end Sys2Proof.Machine
end

