-- ==== Sys2Proof/Machine/ExecRoute.lean ====
section
/-!
DEFINITION. Machine/ExecRoute.lean: the commands of 07: notices, joining, and the epoch announcement.
-/

namespace Sys2Proof.Machine

/-- ROUTE_NOTICE_RECEIVED (R201): with the port unit that it came in on. -/
def execRouteNoticeReceived (now : Nat) (u : Nat) (p : Pkt) (s : State) : Res :=
  done s (if p.op = opRouteNotice then handPacket (atTime s now) u p else s)

/-- RT_SETTLE.MS has passed since the last topology event (R216). -/
def settleOver (s : State) : State :=
  if rdb s F.rtStatSettling = true ∧ s.rt.settleAt + rd s F.rtSettleMs * 1000000 ≤ s.timeNs then wrb s F.rtStatSettling false
  else s

/-- SETTLE_TIMER_EXPIRED (R216). -/
def execSettleTimerExpired (now : Nat) (s : State) : Res := done s (settleOver (atTime s now))

/-- JOIN_RECEIVED (R219): with the port unit that it came in on. -/
def execJoinReceived (now : Nat) (u : Nat) (p : Pkt) (s : State) : Res :=
  done s (if p.op = opJoin then handPacket (atTime s now) u p else s)

/-- JOIN_ACK_RECEIVED (R219): with the port unit that it came in on. -/
def execJoinAckReceived (now : Nat) (u : Nat) (p : Pkt) (s : State) : Res :=
  done s (if p.op = opJoinAck then handPacket (atTime s now) u p else s)

/-- Whether a unit's JOIN is due again: not answered with ACCEPT, and 1 ms after the last one. -/
def joinDue (s : State) (p : Nat) : Bool :=
  !s.rt.answered.contains p && (match mget s.rt.joinSent p with
    | some t => decide (t + 1000000 ≤ s.timeNs)
    | none => true)

/-- JOIN repeated on every UP unit not answered with ACCEPT, 1 ms after the last one sent on it (R219); in BUILD the first of them begins the join, once a device ID
stands (R70). -/
def joinAgain (s : State) : State :=
  if baseOf s = 1 ∧ rd s F.rtStatJoin = 0 then (if booted s then beginJoin s else s)
  else if baseOf s = 1 ∨ baseOf s = 2 then
    ((joinUnits s).filter (joinDue s)).foldl sendJoin s
  else s

/-- JOIN_REPEAT_TIMER (R219). -/
def execJoinRepeatTimer (now : Nat) (s : State) : Res := done s (joinAgain (atTime s now))

/-- JOIN_WINDOW_EXPIRED (R219). -/
def execJoinWindowExpired (now : Nat) (s : State) : Res :=
  let s1 := atTime s now
  done s (joinCheck s1 (windowPast s1))

/-- The announcement repeated 10 ms and 100 ms after the join (R220). -/
def epochAgain (s : State) : State :=
  match s.rt.joinedAt with
  | none => s
  | some t =>
    if s.rt.announced = 1 ∧ t + 10000000 ≤ s.timeNs then announce { s with rt := { s.rt with announced := 2 } } 1
    else if s.rt.announced = 2 ∧ t + 100000000 ≤ s.timeNs then announce { s with rt := { s.rt with announced := 3 } } 2
    else s

/-- EPOCH_REPEAT_TIMER (R220). -/
def execEpochRepeatTimer (now : Nat) (s : State) : Res := done s (epochAgain (atTime s now))

/-- EPOCH_NOTICE_RECEIVED (R221): with the port unit that it came in on. -/
def execEpochNoticeReceived (now : Nat) (u : Nat) (p : Pkt) (s : State) : Res :=
  done s (if p.op = opEpochNotice then handPacket (atTime s now) u p else s)

end Sys2Proof.Machine
end

