-- ==== Sys2Proof/Machine/ExecSwitch.lean ====
section
/-!
DEFINITION. Machine/ExecSwitch.lean: the commands of 06: the lookup of a packet's head, the cell epoch, and the banks.
-/

namespace Sys2Proof.Machine

/-! ### The lookup of a head -/

/-- A packet dropped at its lookup: no output reads it, and its cells are freed as they arrive. -/
def dropAtLookup (s : State) (id : Nat) (p : SwPkt) : State :=
  updatePkt s id p { p with routed := true, copies := [⟨0, 0, 0, false, 0, true, false⟩] }

/-- Whether a head breaks a FORMAT rule of the router: a VC of the wrong set (R92), an MC_PUT with DST[17:16] not zero (R94), or, on the
edge unit in edge use, a SRC other than this device's ID or an EC outside the edge range (R76). -/
def lookupFormat (s : State) (inp : Nat) (h : Pkt) : Bool :=
  (decide (4 ≤ h.vc) != opResponse h.op) || (h.op == opMcPut && decide (65536 ≤ h.dst))
    || (edgeUse s && inp == edgePort s && (h.src != selfId s || decide (h.ec < 0xFF000)))

/-- The checks of R96 at a router: HCRC (R83, R84), AGE of 1,000 or more of a packet that is to leave on a fabric output (R88, R172),
HOP of 12 or more of one not addressed to this device (R89), and FORMAT.  A packet that stays here is judged by AGE above 1,000 at its
ejection, and here already where it would be dropped for its FORMAT, since AGE comes first. -/
def lookupDrop (s : State) (inp : Nat) (h : Pkt) : Option Fld :=
  let own := h.dst == selfId s && h.op != opMcPut
  let stays := own && !edgeEc s h.ec
  let format := lookupFormat s inp h
  if h.hcrc ≠ hcrcOf h then some F.rtPktDrop0Hcrc
  else if (stays = false ∧ 1000 ≤ h.age) ∨ (format = true ∧ 1000 < h.age) then some F.rtPktDrop0Age
  else if own = false ∧ 12 ≤ h.hop then some F.rtPktDrop1Hop
  else if format then some F.rtPktDrop1Format
  else none

/-- The oldest stored packet of an input and VC whose head has not been looked up. -/
def waitsLookup (s : State) (inp vc : Nat) : Option (Nat × SwPkt) :=
  (s.sw.pkts.filter fun e => e.2.inp == inp && e.2.hdr.vc == vc && !e.2.routed && !e.2.cells.isEmpty).head?

/-- A head looked up (R172): dropped and counted, or routed; a unit-bound packet goes to the ejection port of T8 (R608). -/
def lookupHead (s : State) (inp vc : Nat) : State :=
  match waitsLookup s inp vc with
  | none => s
  | some (id, p) =>
    match lookupDrop s inp p.hdr with
    | some f => dropAtLookup (inc s f) id p
    | none =>
      if p.hdr.op = opMcPut then routeMulticast s id p
      else if opUnitBound p.hdr.op then enqueue s id p [(128, p.hdr.vc)]
      else routePkt s id p

/-- PACKET_HEAD_LOOKUP (R172): on an input and VC. -/
def execPacketHeadLookup (now : Nat) (inp : Nat) (vc : Nat) (s : State) : Res := done s (lookupHead (atTime s now) inp vc)

/-! ### Cells that cannot be read as they were written -/

/-- The packet that crosses to an output, and its copy. -/
def crossing (s : State) (o : Nat) : Option (Nat × SwPkt × Copy) :=
  s.sw.pkts.findSome? fun e => (e.2.copies.find? fun c => c.outp == o && c.bound).map fun c => (e.1, e.2, c)

/-- A packet whose head cell is lost before it has left is dropped on every output that has not started it, a debit made at its matching
given back; one that has not been looked up is dropped whole.  The drop counts in HEAD_LOST (R188). -/
def headLost (s : State) (id : Nat) : State :=
  match mget s.sw.pkts id with
  | none => s
  | some p =>
    if !p.routed then dropAtLookup (inc s F.swDropHeadLost 1 (tileOf p.inp)) id p
    else
    let idle := p.copies.filter fun c => !c.done && c.sent == 0
    if idle.isEmpty then s
    else
      let s := inc s F.swDropHeadLost 1 (tileOf p.inp)
      idle.foldl (fun (s : State) (c : Copy) =>
        let l := linkOf s c.outp
        let s := if c.bound && decide (c.outp < 128) then
            setLink s c.outp { l with used := addAt l.used c.vc (2 ^ 16 - p.flits % 2 ^ 16) (2 ^ 16) }
          else s
        match mget s.sw.pkts id with
        | some p => dropCopy s id p c.outp
        | none => s) s

/-- Cell k of a packet lost (R188, Table 06-2): the head before it has left drops the packet where it has not started, and any
cell still to be sent stomps the packet from that cell on. -/
def cellLost (s : State) (id k : Nat) : State :=
  let s := if k = 0 then headLost s id else s
  match mget s.sw.pkts id with
  | none => s
  | some p =>
    if k = 0 ∨ p.bad.contains k = true then s else setPkt s id { p with bad := k :: p.bad }

/-- A cell that its bank's failure frees (Table 06-2): its place in a reserved account returns as a credit (R148). -/
def cellFreed (s : State) (id k : Nat) : State :=
  match mget s.sw.pkts id with
  | none => s
  | some p =>
    if k < freedCells p ∨ p.cells.length ≤ k ∨ p.lost.contains k = true then s
    else
      let s := if p.adopted.getD k true then s else returnCredit s p.inp p.hdr.vc 1
      setPkt s id { p with lost := k :: p.lost }

/-- B24 of a tile is free: in service, not in use, and not being filled. -/
def spareBankFree (s : State) (t : Nat) : Bool :=
  !rdb s F.swBankSpareUsed t && !bitAt (rd s F.swBankFailed t) 24 && (tileSt s t).repair.isNone

/-- A bank marked out of service. -/
def markBank (s : State) (t b : Nat) : State := wr s F.swBankFailed (Nat.lor (rd s F.swBankFailed t) (2 ^ b)) t

/-- A pool below 2,048 cells is reported as the exhaustion of spares (R191). -/
def poolCheck (s : State) (t : Nat) : State := if poolSize s t < 2048 then tell s (.fault 2 (0x20 + t)) else s

/-- A bank fails (R190, R191, Table 06-2) with the cells that it held (packet number, cell): B24, when it is free or is being
filled from this bank, is tested while the tile pauses; else the bank is left out. -/
def bankFails (s : State) (t b : Nat) (lost : List (Nat × Nat)) : State :=
  if 16 ≤ t ∨ 25 ≤ b ∨ bitAt (rd s F.swBankFailed t) b = true then s
  else
    let x := tileSt s t
    let free := b != 24 && (spareBankFree s t || (x.repair == some b && rdb s F.swBankSwapping t))
    let s := tell (tell (markBank s t b) (.patina 3 (t * 32 + b))) (.fault 4 (t * 32 + b))
    let mine := lost.filter fun e => match mget s.sw.pkts e.1 with | some p => tileOf p.inp == t | none => false
    let s := mine.foldl (fun (s : State) (e : Nat × Nat) => cellFreed (cellLost s e.1 e.2) e.1 e.2) s
    if free then setTile (wrb s F.swBankSwapping false t) t { x with repair := some b, pausedMatch := true }
    else if b = 24 then
      let x := { tileSt s t with repair := none, pausedMatch := false, spareLost := !rdb s F.swBankSpareUsed t }
      let s := setTile (wrb s F.swBankSwapping false t) t x
      refreshFcSpares (poolCheck (wrb s F.swBankSpareUsed false t) t)
    else refreshFcSpares (poolCheck s t)

/-- B24 in service in place of a bank: the tile's last spare is used (Table 17-1). -/
def spareBankServes (s : State) (t b : Nat) : State :=
  let s := wr (wrb s F.swBankSpareUsed true t) F.swBankSpareFor b t
  refreshFcSpares (tell (tell s (.patina 4 (t * 32 + b))) (.fault 2 (0x20 + t)))

/-- B24 has passed its march test (Table 06-2): it serves, and the tile resumes. -/
def bankRepaired (s : State) (t : Nat) : State :=
  match (tileSt s t).repair with
  | none => s
  | some b =>
    if (tileSt s t).pausedMatch then
      spareBankServes (setTile s t { tileSt s t with repair := none, pausedMatch := false }) t b
    else s

/-- The predictive copy is complete (R189): B24 serves in place of the bank, which is out of service. -/
def bankSwapped (s : State) (t : Nat) : State :=
  match (tileSt s t).repair with
  | none => s
  | some b =>
    if rdb s F.swBankSwapping t then
      let s := setTile (wrb s F.swBankSwapping false t) t { tileSt s t with repair := none }
      spareBankServes (markBank s t b) t b
    else s

/-- A corrected error of a cell read for an output, in a bank of its tile (R188): more than 64 within 1 s start the copy to
B24 when it is free (R189). -/
def cellCorrected (s : State) (o b : Nat) : State :=
  match crossing s o with
  | none => s
  | some (_, p, _) =>
    let t := tileOf p.inp
    let s := tell (inc s F.swCnt1EccCorr 1 t) (.patina 5 (t * 32 + b))
    let x := tileSt s t
    let times := (x.eccTimes ++ [(b, s.timeNs)]).filter fun e => decide (s.timeNs < e.2 + 1000000000)
    let many := decide (64 < (times.filter fun e => e.1 == b).length)
    let s := setTile s t { x with eccTimes := times }
    if many && decide (b < 24) && spareBankFree s t && !bitAt (rd s F.swBankFailed t) b then
      setTile (wrb s F.swBankSwapping true t) t { tileSt s t with repair := some b }
    else s

/-- A cell read for an output that cannot be corrected, in a bank of its tile (R188): two within 1 ms fail the bank, with the cells that
it holds (R190). -/
def cellUncorrectable (s : State) (o b : Nat) (held : List (Nat × Nat)) : State :=
  match crossing s o with
  | none => s
  | some (id, p, c) =>
    match ((List.range p.cells.length).drop c.sent).find? fun k => !(p.bad.contains k || p.lost.contains k) with
    | none => s
    | some k =>
    let t := tileOf p.inp
    let x := tileSt s t
    let bad := (x.badCells ++ [(b, s.timeNs)]).filter fun e => decide (s.timeNs < e.2 + 1000000)
    let s := cellLost (setTile s t { x with badCells := bad }) id k
    if 1 < (bad.filter fun e => e.1 == b).length then bankFails s t b held else s

/-! ### The cell epoch -/

/-- One cell epoch (R175 to R178, R192): unbound inputs and outputs are matched in three iterations, none while HOLD is active; then
the bound pairs carry their next cells, those that cannot be read as written treated first. -/
def cellEpoch (s : State) (corr : List (Nat × Nat)) (uncorr : List BadRead) : State :=
  let s := if holdOn s then s else matchRound false (matchRound false (matchRound true (fixTags s)))
  let s := corr.foldl (fun (s : State) (e : Nat × Nat) => cellCorrected s e.1 e.2) s
  crossAll (uncorr.foldl (fun (s : State) (e : BadRead) => cellUncorrectable s e.outp e.bank e.held) s)

/-- CELL_EPOCH_MATCH (R176): the cells read in this epoch with a corrected error, as output and bank, and with an uncorrectable one. -/
def execCellEpochMatch (now : Nat) (corr : List (Nat × Nat)) (uncorr : List BadRead) (s : State) : Res :=
  done s (cellEpoch (atTime s now) corr uncorr)

/-- BANK_SWAP_COPY_DONE (R189). -/
def execBankSwapCopyDone (tile : Nat) (s : State) : Res := done s (bankSwapped s tile)

/-- A bound output that has waited 30 µs for its packet's next cell stomps it (R187). -/
def cellStalled (s : State) (o : Nat) : State :=
  match crossing s o with
  | none => s
  | some (id, p, c) => if p.cells.length ≤ c.sent ∧ c.cellAt + 30000 ≤ s.timeNs then stompNow s id o else s

/-- CELL_STALL_LIMIT (R187): at an output. -/
def execCellStallLimit (now : Nat) (o : Nat) (s : State) : Res := done s (cellStalled (atTime s now) o)

/-- BANK_FAIL (R190): the self-check of a bank reports a fault; the cells that it held, as packet number and cell. -/
def execBankFail (now : Nat) (tile : Nat) (bank : Nat) (lost : List (Nat × Nat)) (s : State) : Res :=
  done s (bankFails (atTime s now) tile bank lost)

/-- BANK_REPAIR_DONE (R190). -/
def execBankRepairDone (tile : Nat) (s : State) : Res := done s (bankRepaired s tile)

end Sys2Proof.Machine
end

