-- ==== Sys2Proof/Machine/ExecTop.lean ====
section
/-!
DEFINITION. Machine/ExecTop.lean: the commands of 00 to 02: power and reset, boot, the modes, register accesses, staging an
armature, and the configuration transaction.
-/

namespace Sys2Proof.Machine


/-- A value with one field, put in its place. -/
def fieldWord (lo v : Nat) : Word := BitVec.ofNat 64 (v * 2 ^ lo)

/-! ### Reset and boot -/

/-- POWER_ON_RESET (R561). -/
def execPowerOnReset (s : State) : Res := done s (powerOn s)

/-- CHIP_RST_N_ASSERT (R526, Table 17-6 cause 1). -/
def execChipRstNAssert (s : State) : Res := done s (chipReset s 1 0 0)

/-- The chip reset ends (R614): BUILD starts, and the rails' reset levels are met again. -/
def resetReleased (s : State) : State :=
  if s.fc.chipReset then setPw (setFc s fun f => { f with chipReset := false }) fun p => { p with low := [] } else s

/-- CHIP_RST_N_RELEASE (R614). -/
def execChipRstNRelease (s : State) : Res := done s (resetReleased s)

/-- The cold boot of a device that is in BUILD, out of reset and not yet booted (R539). -/
def slotsVerified (a b : Image) (failedTiles : List Nat) (s : State) : State :=
  if baseOf s = 1 ∧ s.fc.chipReset = false ∧ booted s = false then coldBoot s a b failedTiles else s

/-- BOOT_SLOT_VERIFIED (R539): the two slots' images as the boot ROM reads them, and the engine tiles that fail BUILD's test. -/
def execBootSlotVerified (a b : Image) (failedTiles : List Nat) (s : State) : Res := done s (slotsVerified a b failedTiles s)

/-- BUILD is complete and passes to RUN (R31, Table 01-7). -/
def buildDone (s : State) : State :=
  if baseOf s = 1 ∧ booted s = true ∧ rd s F.rtStatJoin = 2 then enterRun s else s

/-- BUILD_ENTER_RUN (R31). -/
def execBuildEnterRun (now : Nat) (s : State) : Res := done s (buildDone (atTime s now))

/-! ### Modes and registers -/

/-- MODE_CTL_ENTER_TEST (R35, R36). -/
def execModeCtlEnterTest (who : Who) (width : Nat) (s : State) : Res :=
  done s (csrWriteBy s who 0x108 width (fieldWord 0 1) noEnv)

/-- TEST_ENTRY_DONE (R36, R38). -/
def execTestEntryDone (s : State) : Res := done s (testEntered s)

/-- MODE_CTL_LEAVE_TEST (R37, R38). -/
def execModeCtlLeaveTest (who : Who) (width : Nat) (s : State) : Res :=
  done s (csrWriteBy s who 0x108 width (fieldWord 0 2) noEnv)

/-- DEVICE_ID_WRITE (R70, R100). -/
def execDeviceIdWrite (who : Who) (width : Nat) (val : Word) (flashOk : Bool) (s : State) : Res :=
  done s (csrWriteBy s who 0x10 width val { held := [], flashOk := flashOk })

/-- CSR_WRITE_GENERIC (R6, R7): a write at a BAR0 offset as the writer sees it. -/
def execCsrWriteGeneric (who : Who) (off : Nat) (width : Nat) (val : Word) (s : State) : Res :=
  done s (csrWriteAt s who off width val noEnv)

/-- A read at a BAR0 offset (R6, R8, R557). -/
def csrReadBy (s : State) (who : Who) (off width : Nat) : State :=
  match who with
  | .fn hp fn => hostRead s hp fn off width
  | .mgmt => mctpIn s 2 (.csrRead off)

/-- CSR_READ_CLEAR (R6): a read of any register; an RC field that it returns whole is cleared. -/
def execCsrReadClear (who : Who) (off : Nat) (width : Nat) (s : State) : Res := done s (csrReadBy s who off width)

/-! ### Staging an armature -/

/-- ARM_STAGE as a word: LEN and CMD. -/
def stageWord (cmd len : Nat) : Word := BitVec.ofNat 64 (cmd * 2 ^ 32 + len % 2 ^ 25)

/-- ARM_STAGE_FETCH_HOST (R50, R51). -/
def execArmStageFetchHost (who : Who) (width : Nat) (len : Nat) (s : State) : Res :=
  done s (csrWriteBy s who 0x00100018 width (stageWord 1 len) noEnv)

/-- ARM_STAGE_FETCH_SLOT (R50, R51). -/
def execArmStageFetchSlot (who : Who) (width : Nat) (s : State) : Res :=
  done s (csrWriteBy s who 0x00100018 width (stageWord 2 0) noEnv)

/-- ARM_STAGE_DISCARD (R51). -/
def execArmStageDiscard (who : Who) (width : Nat) (s : State) : Res :=
  done s (csrWriteBy s who 0x00100018 width (stageWord 3 0) noEnv)

/-- The staged copy is complete and is checked (R46, R50); a FETCH_HOST receives the LEN bytes that it asked for. -/
def armatureFetched (st : ArmStream) (s : State) : State :=
  if rd s F.armStageSt = 1 then
    let c := stageCheck s { st with recvLen := s.txn.fetchLen.getD st.recvLen }
    let s := setTxn s fun t => { t with fetchLen := none }
    if c = 0 then
      wr (wr (setTxn s fun t => { t with staged := some (armOf st), stagedBytesOn := [0, 1, 2, 3] }) F.armStageSt 2) F.armStageDiff
        (armDiff (armOf st) s.txn.arm)
    else wr (wr s F.armStageSt 3) F.armStageCause c
  else s

/-- ARMATURE_FETCH_DONE (R50): the stream as it was received. -/
def execArmatureFetchDone (stream : ArmStream) (s : State) : Res := done s (armatureFetched stream s)

/-- ARM_SIGNER_WRITE (R66). -/
def execArmSignerWrite (who : Who) (width : Nat) (val : Word) (s : State) : Res :=
  done s (csrWriteBy s who 0x00100008 width val noEnv)

/-- ARM_DRAIN_WRITE (R54). -/
def execArmDrainWrite (who : Who) (width : Nat) (val : Word) (s : State) : Res :=
  done s (csrWriteBy s who 0x00100060 width val noEnv)

/-- TILE_DRAINED (R54). -/
def execTileDrained (tile : Nat) (s : State) : Res := done s (tileDrained s tile)

/-! ### The transaction -/

/-- TXN_CLAIM (R56): a write of TXN_OWNER with CLAIM set. -/
def execTxnClaim (now : Nat) (who : Who) (width : Nat) (val : Word) (s : State) : Res :=
  done s (csrWriteBy (atTime s now) who 0x00101000 width val noEnv)

/-- TXN_BEGIN (R57, R60). -/
def execTxnBegin (now : Nat) (who : Who) (width : Nat) (val : Word) (s : State) : Res :=
  done s (csrWriteBy (atTime s now) who 0x00101008 width val noEnv)

/-- TXN_STAGE_WRITE (R57, R58): a write of an RWT register or a staged entry. -/
def execTxnStageWrite (now : Nat) (who : Who) (off : Nat) (width : Nat) (val : Word) (s : State) : Res :=
  done s (csrWriteAt (atTime s now) who off width val noEnv)

/-- TXN_COMMIT (R52, R58 to R60). -/
def execTxnCommit (now : Nat) (who : Who) (width : Nat) (val : Word) (s : State) : Res :=
  done s (csrWriteBy (atTime s now) who 0x00101010 width val noEnv)

/-- The epoch boundary of a commit without a re-cast (R55, R59). -/
def epochReached (s : State) : State := if txnSt s = 3 ∧ s.txn.swap = .none then commitNow s else s

/-- TXN_COMMIT_EPOCH (R59). -/
def execTxnCommitEpoch (now : Nat) (s : State) : Res := done s (epochReached (atTime s now))

/-- The preparation of a re-cast ends and its HOLD begins, for 40 µs at most (R34, R53). -/
def recastPrepared (s : State) : State :=
  if txnSt s = 3 ∧ s.txn.swap = .recast ∧ holdOn s = false then
    setHold (wr s F.txnStatSt 4) true
  else s

/-- RECAST_PREP_DONE (R53). -/
def execRecastPrepDone (now : Nat) (s : State) : Res := done s (recastPrepared (atTime s now))

/-- HOLD_EXIT (R34, R53, R543). -/
def execHoldExit (now : Nat) (s : State) : Res := done s (endHold (atTime s now))

/-- TXN_ABORT (R60). -/
def execTxnAbort (now : Nat) (who : Who) (width : Nat) (val : Word) (s : State) : Res :=
  done s (csrWriteBy (atTime s now) who 0x00101018 width val noEnv)

/-- The idle limit of a claim or an open transaction has passed (R61): CAUSE is IDLE_LIMIT. -/
def txnIdle (s : State) : State :=
  if (txnSt s = 1 ∨ txnSt s = 2) ∧ rd s F.txnOwnerOwner ≠ 0 ∧ s.txn.lastUse + 1000000 * rd s F.txnIdleLimitMs ≤ s.timeNs then abortTxn s 10 else s

/-- TXN_IDLE_LIMIT (R61). -/
def execTxnIdleLimit (now : Nat) (s : State) : Res := done s (txnIdle (atTime s now))

/-- LOCK_BITS_SET (R67). -/
def execLockBitsSet (who : Who) (width : Nat) (val : Word) (s : State) : Res :=
  done s (csrWriteBy s who 0x00102000 width val noEnv)

end Sys2Proof.Machine
end

