-- ==== Sys2Proof/Machine/ExecTp.lean ====
section
/-!
DEFINITION. Machine/ExecTp.lean: the commands of 08, 09, 13 and 14 at the transport: injection, context fetches, arrivals, and the
timers of messages, records and rendezvous.
-/

namespace Sys2Proof.Machine

/-- PACKET_INJECT (R218, R481): a message's next request packet, with what host memory returns for its source data. -/
def execPacketInject (now : Nat) (msgid : Nat) (read : List Byte) (s : State) : Res :=
  done s (injectNext (atTime s now) msgid read)

/-- CONTEXT_FETCH_DONE (R234): of an EC; `ue` is the stack whose first copy could not be corrected, when its mirror has been read
(R513). -/
def execContextFetchDone (now : Nat) (ec : Nat) (ue : Option Nat) (s : State) : Res :=
  let s1 := atTime s now
  done s (contextFetched (match ue with
    | some h => if mhas s1.tp.cache ec then hbmLost s1 h else s1
    | none => s1) ec)

/-! ### Requests at the target -/

/-- Whether an arriving request would be placed or executed now (R236 up to step 4): it passes the packet checks, its context is at
hand, and its EC admits it. -/
def executes (s : State) (p : Pkt) : Bool :=
  (arrivalDrop s p).isNone && !shutToArrivals s && rangeServes s p.ec && cached s p.ec && !mhas s.tp.parked p.ec
    && (match ctxOf s p.ec with
        | some c => c.state == 1 && serving s c.hp && !c.closing && bitAt c.ops (opsBit p.op)
        | none => false)

/-- A request that meets an uncorrectable word of HBM while it is placed or executed (R513): NACK TARGET_ERROR. -/
def targetError (s : State) (p : Pkt) (stack : Nat) : State :=
  let s := hbmLost (takeIn s p) stack
  if p.op = opGetReq then sendNack s p 11 0
  else
    match recCheck s p s.timeNs with
    | .stop s => s
    | .go s _ _ => refuse s p 11 0

/-- A request handed over by the switch; `ue` is the stack of an uncorrectable word that it meets. -/
def takeRequest (s : State) (u : Nat) (p : Pkt) (ue : Option Nat) : State :=
  match ue with
  | some h => if !holdOn s && executes s p then targetError s p h else handPacket s u p
  | none => handPacket s u p

/-- PUT_ARRIVED (R337): with the port unit that it came in on. -/
def execPutArrived (now : Nat) (u : Nat) (p : Pkt) (ue : Option Nat) (s : State) : Res :=
  done s (if p.op = opPut then takeRequest (atTime s now) u p ue else s)

/-- GET_REQ_ARRIVED (R249). -/
def execGetReqArrived (now : Nat) (u : Nat) (p : Pkt) (ue : Option Nat) (s : State) : Res :=
  done s (if p.op = opGetReq then takeRequest (atTime s now) u p ue else s)

/-- GET_RSP_ARRIVED (R249). -/
def execGetRspArrived (now : Nat) (u : Nat) (p : Pkt) (s : State) : Res :=
  done s (if p.op = opGetRsp then handPacket (atTime s now) u p else s)

/-- SEND_ARRIVED (R283). -/
def execSendArrived (now : Nat) (u : Nat) (p : Pkt) (ue : Option Nat) (s : State) : Res :=
  done s (if p.op = opSend then takeRequest (atTime s now) u p ue else s)

/-- SEND_RTS_ARRIVED (R289): a SEND_RTS that is no FIN. -/
def execSendRtsArrived (now : Nat) (u : Nat) (p : Pkt) (s : State) : Res :=
  done s (if p.op = opSendRts ∧ isFin p = false then handPacket (atTime s now) u p else s)

/-- FIN_ARRIVED (R290). -/
def execFinArrived (now : Nat) (u : Nat) (p : Pkt) (s : State) : Res :=
  done s (if p.op = opSendRts ∧ isFin p = true then handPacket (atTime s now) u p else s)

/-- ACK_ARRIVED (R253). -/
def execAckArrived (now : Nat) (u : Nat) (p : Pkt) (s : State) : Res :=
  done s (if p.op = opAck then handPacket (atTime s now) u p else s)

/-- NACK_ARRIVED (R250). -/
def execNackArrived (now : Nat) (u : Nat) (p : Pkt) (s : State) : Res :=
  done s (if p.op = opNack then handPacket (atTime s now) u p else s)

/-- ATOMIC_ARRIVED (R431). -/
def execAtomicArrived (now : Nat) (u : Nat) (p : Pkt) (ue : Option Nat) (s : State) : Res :=
  done s (if p.op = opAtomic then takeRequest (atTime s now) u p ue else s)

/-- ATOMIC_RSP_ARRIVED (R341). -/
def execAtomicRspArrived (now : Nat) (u : Nat) (p : Pkt) (s : State) : Res :=
  done s (if p.op = opAtomicRsp then handPacket (atTime s now) u p else s)

/-- LOCK_ARRIVED (R434). -/
def execLockArrived (now : Nat) (u : Nat) (p : Pkt) (ue : Option Nat) (s : State) : Res :=
  done s (if p.op = opLock then takeRequest (atTime s now) u p ue else s)

/-- LOCK_RSP_ARRIVED (R440). -/
def execLockRspArrived (now : Nat) (u : Nat) (p : Pkt) (s : State) : Res :=
  done s (if p.op = opLockRsp then handPacket (atTime s now) u p else s)

/-- LOCK_NOTICE_ARRIVED (R437). -/
def execLockNoticeArrived (now : Nat) (u : Nat) (p : Pkt) (s : State) : Res :=
  done s (if p.op = opLockNotice then handPacket (atTime s now) u p else s)

/-- MC_PUT_ARRIVED (R94). -/
def execMcPutArrived (now : Nat) (u : Nat) (p : Pkt) (s : State) : Res :=
  done s (if p.op = opMcPut then handPacket (atTime s now) u p else s)

/-- CL_UP_ARRIVED (R395): a CL_UP with KIND DATA, or a KIND that no other command names. -/
def execClUpArrived (now : Nat) (u : Nat) (p : Pkt) (s : State) : Res :=
  done s (if p.op = opClUp ∧ (p.key % 8 = 0 ∨ 3 < p.key % 8) then handPacket (atTime s now) u p else s)

/-- CL_DOWN_ARRIVED (R395): as for CL_UP. -/
def execClDownArrived (now : Nat) (u : Nat) (p : Pkt) (s : State) : Res :=
  done s (if p.op = opClDown ∧ (p.key % 8 = 0 ∨ 3 < p.key % 8) then handPacket (atTime s now) u p else s)

/-- Whether a packet is a collective packet of a KIND (R388). -/
def isClKind (p : Pkt) (kind : Nat) : Bool := (p.op == opClUp || p.op == opClDown) && p.key % 8 == kind

/-- CL_ACK_ARRIVED (R401). -/
def execClAckArrived (now : Nat) (u : Nat) (p : Pkt) (s : State) : Res :=
  done s (if isClKind p 1 then handPacket (atTime s now) u p else s)

/-- CL_ABORT_ARRIVED (R405). -/
def execClAbortArrived (now : Nat) (u : Nat) (p : Pkt) (s : State) : Res :=
  done s (if isClKind p 2 then handPacket (atTime s now) u p else s)

/-- CL_BUSY_ARRIVED (R402). -/
def execClBusyArrived (now : Nat) (u : Nat) (p : Pkt) (s : State) : Res :=
  done s (if isClKind p 3 then handPacket (atTime s now) u p else s)

/-- EX_BATCH_ARRIVED (R416). -/
def execExBatchArrived (now : Nat) (u : Nat) (p : Pkt) (s : State) : Res :=
  done s (if p.op = opExBatch then handPacket (atTime s now) u p else s)

/-- EX_CREDIT_ARRIVED (R415). -/
def execExCreditArrived (now : Nat) (u : Nat) (p : Pkt) (s : State) : Res :=
  done s (if p.op = opExCredit then handPacket (atTime s now) u p else s)

/-! ### Timers of messages -/

/-- A message whose timer has run out (R253): the length it started with has passed, 250 µs after an ACK of an atomic or lock
(R247); it pauses in HOLD (R257), and a GET that waits for a page asks again when that is resolved (R341).  When every packet
waits for its BACKOFF_US the expiry builds no copy and counts no retry (R250). -/
def retransmitDue (s : State) (id : Nat) : State :=
  match slotOf s id with
  | none => s
  | some m =>
    match m.timerAt with
    | none => s
    | some t =>
      if holdOn s || m.finish.isSome || m.kept.isSome && m.op != opGetReq || (m.op == opGetReq && m.stall.isSome)
          || decide (s.timeNs < t + m.timerLen) || decide (s.timeNs < m.quietUntil) then s
      else
        let l := pendingPsns m
        if l.all fun k => match mget m.copies k with
          | some c => c.waiting
          | none => true
        then setSlot s (armTimer s m)
        else retryMsg s m l

/-- RETRANSMIT_TIMER_EXPIRED (R253): of a message. -/
def execRetransmitTimerExpired (now : Nat) (msgid : Nat) (s : State) : Res := done s (retransmitDue (atTime s now) msgid)

/-- A NACKed copy resent once its BACKOFF_US has passed (R250, R251): of a GET every packet that is due; one that may have no further
copy fails the message (R253). -/
def backoffOver (s : State) (id psn : Nat) : State :=
  match slotOf s id with
  | none => s
  | some m =>
    let due := fun k => match mget m.copies k with
      | some c => c.waiting && decide (c.waitUntil ≤ s.timeNs)
      | none => false
    let l := (if m.op = opGetReq then pendingPsns m else [psn]).filter fun k => due k && !isAcked m k
    if l.isEmpty || m.finish.isSome || !due psn then s
    else if l.any fun k => match mget m.copies k with
      | some c => !copyAllowed s c
      | none => false
    then failMsg s m 1 0
    else
      let r := resendAll s m l
      setSlot r.1 r.2

/-- NACK_BACKOFF_EXPIRED (R251): of a packet of a message. -/
def execNackBackoffExpired (now : Nat) (msgid : Nat) (psn : Nat) (s : State) : Res := done s (backoffOver (atTime s now) msgid psn)

/-- A packet whose resends still draw kinds 1 to 4 NACK_WAIT_MS after its first copy fails its message (R250). -/
def nackWaitOver (s : State) (id psn : Nat) : State :=
  match slotOf s id with
  | none => s
  | some m =>
    match mget m.copies psn with
    | none => s
    | some c =>
      if c.waiting && !isAcked m psn && m.finish.isNone
          && decide (c.firstEver + ms (rd s F.tpRetryNackWaitMs) ≤ s.timeNs) then failMsg s m 3 c.nackKind
      else s

/-- NACK_WAIT_LIMIT_EXPIRED (R250): of a packet of a message. -/
def execNackWaitLimitExpired (now : Nat) (msgid : Nat) (psn : Nat) (s : State) : Res := done s (nackWaitOver (atTime s now) msgid psn)

/-! ### Timers of records -/

/-- TIME_NS since the first unacknowledged arrival of a message (R246), or of an operation whose response is not sent yet (R247): an
ACK, with the time that the first arrival has waited as HOLD. -/
def ackDue (s : State) (k : Nat) : State :=
  match mget s.tp.recs k with
  | none => s
  | some r =>
    match r.firstAt with
    | none => s
    | some (t, psn) => if t + rd s F.tpAckTimeNs ≤ s.timeNs then sendAck s k r psn (s.timeNs - t) false else s

/-- ACK_TIME_EXPIRED (R246): of the record of a sender's message. -/
def execAckTimeExpired (now : Nat) (src : Nat) (msgid : Nat) (s : State) : Res :=
  done s (ackDue (atTime s now) (recKey src msgid))

/-- A record deleted at STAMP + 2 ms (R243): an incomplete one is counted, its held flag is discarded (R261), and data kept before its
PSN 0 is freed. -/
def recordExpired (s : State) (k : Nat) : State :=
  match mget s.tp.recs k with
  | none => s
  | some r =>
    if (s.timeNs : Int) < r.stamp + 2000000 then s
    else
      let s := if r.done then s else inc s F.tpCnt5RecExpire
      let s := match r.flag with
        | some f => leave s f.mr
        | none => s
      refreshMt (setMt (setTp s fun t => { t with recs := mdel t.recs k }) fun m => { m with early := mdel m.early k })

/-- RECEIVER_RECORD_EXPIRED (R243): of a sender's message. -/
def execReceiverRecordExpired (now : Nat) (src : Nat) (msgid : Nat) (s : State) : Res :=
  done s (recordExpired (atTime s now) (recKey src msgid))

/-! ### MSGIDs, flows and rendezvous -/

/-- A retired MSGID leaves quarantine after 2 ms (R240). -/
def quarantineOver (s : State) (id : Nat) : State :=
  match mget s.tp.quarantine id with
  | some t => if t + ms 2 ≤ s.timeNs then setTp s fun t => { t with quarantine := mdel t.quarantine id } else s
  | none => s

/-- MSGID_QUARANTINE_END (R240). -/
def execMsgidQuarantineEnd (now : Nat) (msgid : Nat) (s : State) : Res := done s (quarantineOver (atTime s now) msgid)

/-- A flow with no packet in flight for 100 µs gives up its entry (R265). -/
def flowIdle (s : State) (k : Nat) : State :=
  match mget s.tp.flows k with
  | some f =>
    if flowInFlight s k = false ∧ f.lastAt + us 100 ≤ s.timeNs then setTp s fun t => { t with flows := mdel t.flows k } else s
  | none => s

/-- FLOW_ENTRY_IDLE (R265): of a sending EC, destination device and TC. -/
def execFlowEntryIdle (now : Nat) (ec : Nat) (dst : Nat) (tc : Nat) (s : State) : Res :=
  done s (flowIdle (atTime s now) (flowKey ec dst tc))

/-- A rendezvous send RDV_LIMIT_MS after its RTS (R292). -/
def rdvLimit (s : State) (i : Nat) : State :=
  match mget s.mt.rdv i with
  | some r =>
    match r.sentAt with
    | some t => if rd s F.mtCfgRdvLimitMs ≠ 0 ∧ t + ms (rd s F.mtCfgRdvLimitMs) ≤ s.timeNs then startWaiting (endRdvEntry s i r) else s
    | none => s
  | none => s

/-- RDV_LIMIT_EXPIRED (R292): of a rendezvous entry. -/
def execRdvLimitExpired (now : Nat) (index : Nat) (s : State) : Res := done s (rdvLimit (atTime s now) index)

/-- RDV_CLOSE_MS after the close of an EC with rendezvous entries (R302). -/
def rdvClose (s : State) (ec : Nat) : State :=
  match mget s.tp.ecs ec with
  | some c => if c.closing ∧ c.closeAt + ms (rd s F.mtCfgRdvCloseMs) ≤ s.timeNs then endClose s ec else s
  | none => s

/-- RDV_CLOSE_EXPIRED (R302): of an EC. -/
def execRdvCloseExpired (now : Nat) (ec : Nat) (s : State) : Res := done s (rdvClose (atTime s now) ec)

end Sys2Proof.Machine
end

