-- ==== Sys2Proof/Machine/Dispatch.lean ====
section
/-!
DEFINITION. Machine/Dispatch.lean: the effect of each command on everything but the queue, one arm per constructor.
-/

namespace Sys2Proof.Machine

def exec (i : Instr) (s : State) : Host.Outcome State Fault Refusal :=
  match i with
  | .powerOnReset => Sys2Proof.Machine.execPowerOnReset s
  | .chipRstNAssert => Sys2Proof.Machine.execChipRstNAssert s
  | .chipRstNRelease => Sys2Proof.Machine.execChipRstNRelease s
  | .bootSlotVerified a b failedTiles => Sys2Proof.Machine.execBootSlotVerified a b failedTiles s
  | .buildEnterRun now => Sys2Proof.Machine.execBuildEnterRun now s
  | .modeCtlEnterTest who width => Sys2Proof.Machine.execModeCtlEnterTest who width s
  | .testEntryDone => Sys2Proof.Machine.execTestEntryDone s
  | .modeCtlLeaveTest who width => Sys2Proof.Machine.execModeCtlLeaveTest who width s
  | .deviceIdWrite who width val flashOk => Sys2Proof.Machine.execDeviceIdWrite who width val flashOk s
  | .csrWriteGeneric who off width val => Sys2Proof.Machine.execCsrWriteGeneric who off width val s
  | .csrReadClear who off width => Sys2Proof.Machine.execCsrReadClear who off width s
  | .armStageFetchHost who width len => Sys2Proof.Machine.execArmStageFetchHost who width len s
  | .armStageFetchSlot who width => Sys2Proof.Machine.execArmStageFetchSlot who width s
  | .armStageDiscard who width => Sys2Proof.Machine.execArmStageDiscard who width s
  | .armatureFetchDone stream => Sys2Proof.Machine.execArmatureFetchDone stream s
  | .armSignerWrite who width val => Sys2Proof.Machine.execArmSignerWrite who width val s
  | .armDrainWrite who width val => Sys2Proof.Machine.execArmDrainWrite who width val s
  | .tileDrained tile => Sys2Proof.Machine.execTileDrained tile s
  | .txnClaim now who width val => Sys2Proof.Machine.execTxnClaim now who width val s
  | .txnBegin now who width val => Sys2Proof.Machine.execTxnBegin now who width val s
  | .txnStageWrite now who off width val => Sys2Proof.Machine.execTxnStageWrite now who off width val s
  | .txnCommit now who width val => Sys2Proof.Machine.execTxnCommit now who width val s
  | .txnCommitEpoch now => Sys2Proof.Machine.execTxnCommitEpoch now s
  | .recastPrepDone now => Sys2Proof.Machine.execRecastPrepDone now s
  | .holdExit now => Sys2Proof.Machine.execHoldExit now s
  | .txnAbort now who width val => Sys2Proof.Machine.execTxnAbort now who width val s
  | .txnIdleLimit now => Sys2Proof.Machine.execTxnIdleLimit now s
  | .lockBitsSet who width val => Sys2Proof.Machine.execLockBitsSet who width val s
  | .packetHeadLookup now inp vc => Sys2Proof.Machine.execPacketHeadLookup now inp vc s
  | .cellEpochMatch now corr uncorr => Sys2Proof.Machine.execCellEpochMatch now corr uncorr s
  | .bankSwapCopyDone tile => Sys2Proof.Machine.execBankSwapCopyDone tile s
  | .cellStallLimit now o => Sys2Proof.Machine.execCellStallLimit now o s
  | .bankFail now tile bank lost => Sys2Proof.Machine.execBankFail now tile bank lost s
  | .bankRepairDone tile => Sys2Proof.Machine.execBankRepairDone tile s
  | .codewordPairReceived now lane pair => Sys2Proof.Machine.execCodewordPairReceived now lane pair s
  | .frameReceived now p lanes => Sys2Proof.Machine.execFrameReceived now p lanes s
  | .frameTransmit now p lost => Sys2Proof.Machine.execFrameTransmit now p lost s
  | .nackWaitExpired now p base => Sys2Proof.Machine.execNackWaitExpired now p base s
  | .recoverNoFrameTimeout now p => Sys2Proof.Machine.execRecoverNoFrameTimeout now p s
  | .recoverLimitExpired now p => Sys2Proof.Machine.execRecoverLimitExpired now p s
  | .noLaneTimeout now p => Sys2Proof.Machine.execNoLaneTimeout now p s
  | .returnForceTimeout now p => Sys2Proof.Machine.execReturnForceTimeout now p s
  | .probeTimer now p => Sys2Proof.Machine.execProbeTimer now p s
  | .llDrainWrite now who width p val => Sys2Proof.Machine.execLlDrainWrite now who width p val s
  | .drainLimitExpired now p => Sys2Proof.Machine.execDrainLimitExpired now p s
  | .laneDetectDone now lane wire => Sys2Proof.Machine.execLaneDetectDone now lane wire s
  | .laneSignalDetected now lane => Sys2Proof.Machine.execLaneSignalDetected now lane s
  | .trainingFrameReceived now lane levels settled ask => Sys2Proof.Machine.execTrainingFrameReceived now lane levels settled ask s
  | .laneQualifyDone now lane tj mv berOk => Sys2Proof.Machine.execLaneQualifyDone now lane tj mv berOk s
  | .lanePhaseLimitExpired now lane => Sys2Proof.Machine.execLanePhaseLimitExpired now lane s
  | .laneFailedRetryTimer now lane => Sys2Proof.Machine.execLaneFailedRetryTimer now lane s
  | .lnCtlRetrain now who width lane val => Sys2Proof.Machine.execLnCtlRetrain now who width lane val s
  | .lnCtlRecal now who width lane val => Sys2Proof.Machine.execLnCtlRecal now who width lane val s
  | .laneRecalCheck now lanes => Sys2Proof.Machine.execLaneRecalCheck now lanes s
  | .recalSpareLocked now tile => Sys2Proof.Machine.execRecalSpareLocked now tile s
  | .recalSliceQualified now tile tj mv => Sys2Proof.Machine.execRecalSliceQualified now tile tj mv s
  | .laneSelfCheckFail now lane => Sys2Proof.Machine.execLaneSelfCheckFail now lane s
  | .laneLockHuntExpired now lane => Sys2Proof.Machine.execLaneLockHuntExpired now lane s
  | .spareSwapResume now tile => Sys2Proof.Machine.execSpareSwapResume now tile s
  | .failedSliceRetestDone now tile pass => Sys2Proof.Machine.execFailedSliceRetestDone now tile pass s
  | .routeNoticeReceived now u p => Sys2Proof.Machine.execRouteNoticeReceived now u p s
  | .settleTimerExpired now => Sys2Proof.Machine.execSettleTimerExpired now s
  | .joinReceived now u p => Sys2Proof.Machine.execJoinReceived now u p s
  | .joinAckReceived now u p => Sys2Proof.Machine.execJoinAckReceived now u p s
  | .joinRepeatTimer now => Sys2Proof.Machine.execJoinRepeatTimer now s
  | .joinWindowExpired now => Sys2Proof.Machine.execJoinWindowExpired now s
  | .epochRepeatTimer now => Sys2Proof.Machine.execEpochRepeatTimer now s
  | .epochNoticeReceived now u p => Sys2Proof.Machine.execEpochNoticeReceived now u p s
  | .packetInject now msgid read => Sys2Proof.Machine.execPacketInject now msgid read s
  | .contextFetchDone now ec ue => Sys2Proof.Machine.execContextFetchDone now ec ue s
  | .putArrived now u p ue => Sys2Proof.Machine.execPutArrived now u p ue s
  | .getReqArrived now u p ue => Sys2Proof.Machine.execGetReqArrived now u p ue s
  | .getRspArrived now u p => Sys2Proof.Machine.execGetRspArrived now u p s
  | .sendArrived now u p ue => Sys2Proof.Machine.execSendArrived now u p ue s
  | .sendRtsArrived now u p => Sys2Proof.Machine.execSendRtsArrived now u p s
  | .finArrived now u p => Sys2Proof.Machine.execFinArrived now u p s
  | .ackArrived now u p => Sys2Proof.Machine.execAckArrived now u p s
  | .nackArrived now u p => Sys2Proof.Machine.execNackArrived now u p s
  | .atomicArrived now u p ue => Sys2Proof.Machine.execAtomicArrived now u p ue s
  | .atomicRspArrived now u p => Sys2Proof.Machine.execAtomicRspArrived now u p s
  | .lockArrived now u p ue => Sys2Proof.Machine.execLockArrived now u p ue s
  | .lockRspArrived now u p => Sys2Proof.Machine.execLockRspArrived now u p s
  | .lockNoticeArrived now u p => Sys2Proof.Machine.execLockNoticeArrived now u p s
  | .mcPutArrived now u p => Sys2Proof.Machine.execMcPutArrived now u p s
  | .clUpArrived now u p => Sys2Proof.Machine.execClUpArrived now u p s
  | .clDownArrived now u p => Sys2Proof.Machine.execClDownArrived now u p s
  | .clAckArrived now u p => Sys2Proof.Machine.execClAckArrived now u p s
  | .clAbortArrived now u p => Sys2Proof.Machine.execClAbortArrived now u p s
  | .clBusyArrived now u p => Sys2Proof.Machine.execClBusyArrived now u p s
  | .exBatchArrived now u p => Sys2Proof.Machine.execExBatchArrived now u p s
  | .exCreditArrived now u p => Sys2Proof.Machine.execExCreditArrived now u p s
  | .retransmitTimerExpired now msgid => Sys2Proof.Machine.execRetransmitTimerExpired now msgid s
  | .nackBackoffExpired now msgid psn => Sys2Proof.Machine.execNackBackoffExpired now msgid psn s
  | .nackWaitLimitExpired now msgid psn => Sys2Proof.Machine.execNackWaitLimitExpired now msgid psn s
  | .ackTimeExpired now src msgid => Sys2Proof.Machine.execAckTimeExpired now src msgid s
  | .receiverRecordExpired now src msgid => Sys2Proof.Machine.execReceiverRecordExpired now src msgid s
  | .msgidQuarantineEnd now msgid => Sys2Proof.Machine.execMsgidQuarantineEnd now msgid s
  | .flowEntryIdle now ec dst tc => Sys2Proof.Machine.execFlowEntryIdle now ec dst tc s
  | .rdvLimitExpired now index => Sys2Proof.Machine.execRdvLimitExpired now index s
  | .rdvCloseExpired now ec => Sys2Proof.Machine.execRdvCloseExpired now ec s
  | .xlInvalCmdWrite who width val => Sys2Proof.Machine.execXlInvalCmdWrite who width val s
  | .xlInvalComplete now id => Sys2Proof.Machine.execXlInvalComplete now id s
  | .xlDomWrite who dom width val => Sys2Proof.Machine.execXlDomWrite who dom width val s
  | .domainSweepDone dom => Sys2Proof.Machine.execDomainSweepDone dom s
  | .pageWalkDone now id reads => Sys2Proof.Machine.execPageWalkDone now id reads s
  | .xlPkrrWrite hp fn page width val => Sys2Proof.Machine.execXlPkrrWrite hp fn page width val s
  | .hostAccessFinished now id data ok => Sys2Proof.Machine.execHostAccessFinished now id data ok s
  | .mrCmdRevoke who width val => Sys2Proof.Machine.execMrCmdRevoke who width val s
  | .revokeFlushReadDone now index => Sys2Proof.Machine.execRevokeFlushReadDone now index s
  | .mrPageResolveRetry who width id => Sys2Proof.Machine.execMrPageResolveRetry who width id s
  | .mrPageResolveFail now who width id => Sys2Proof.Machine.execMrPageResolveFail now who width id s
  | .faultResolveLimitExpired now id => Sys2Proof.Machine.execFaultResolveLimitExpired now id s
  | .faultFailHoldExpired now id => Sys2Proof.Machine.execFaultFailHoldExpired now id s
  | .cxlMemRead now hp addr => Sys2Proof.Machine.execCxlMemRead now hp addr s
  | .cxlMemWrite now hp addr data poison => Sys2Proof.Machine.execCxlMemWrite now hp addr data poison s
  | .cxlMemWritePartial now hp addr data en poison => Sys2Proof.Machine.execCxlMemWritePartial now hp addr data en poison s
  | .cxlMemSpecRead now => Sys2Proof.Machine.execCxlMemSpecRead now s
  | .farCacheFetchDone now id => Sys2Proof.Machine.execFarCacheFetchDone now id s
  | .writeBackPutDone now id => Sys2Proof.Machine.execWriteBackPutDone now id s
  | .sharedRwPutDone now id => Sys2Proof.Machine.execSharedRwPutDone now id s
  | .wbRetryTimer now line => Sys2Proof.Machine.execWbRetryTimer now line s
  | .gwLimitExpired now id => Sys2Proof.Machine.execGwLimitExpired now id s
  | .gwFlushWriteback who width scope lines => Sys2Proof.Machine.execGwFlushWriteback who width scope lines s
  | .gwFlushEvict who width scope lines => Sys2Proof.Machine.execGwFlushEvict who width scope lines s
  | .gwFlushDiscard who width scope lines => Sys2Proof.Machine.execGwFlushDiscard who width scope lines s
  | .gwFlushComplete now => Sys2Proof.Machine.execGwFlushComplete now s
  | .hdmDecoderCommit hp dec base size skip ways => Sys2Proof.Machine.execHdmDecoderCommit hp dec base size skip ways s
  | .doorbellWrite now hp fn page width val => Sys2Proof.Machine.execDoorbellWrite now hp fn page width val s
  | .pushSlotWrite hp fn page off bytes => Sys2Proof.Machine.execPushSlotWrite hp fn page off bytes s
  | .descriptorFetchDone now hp wq descs ok => Sys2Proof.Machine.execDescriptorFetchDone now hp wq descs ok s
  | .descNop now hp wq => Sys2Proof.Machine.execDescNop now hp wq s
  | .descPut now hp wq => Sys2Proof.Machine.execDescPut now hp wq s
  | .descGet now hp wq => Sys2Proof.Machine.execDescGet now hp wq s
  | .descSend now hp wq => Sys2Proof.Machine.execDescSend now hp wq s
  | .descRecv now hp wq => Sys2Proof.Machine.execDescRecv now hp wq s
  | .descProbe now hp wq => Sys2Proof.Machine.execDescProbe now hp wq s
  | .descCancel now hp wq => Sys2Proof.Machine.execDescCancel now hp wq s
  | .descAtomic now hp wq => Sys2Proof.Machine.execDescAtomic now hp wq s
  | .descLock now hp wq => Sys2Proof.Machine.execDescLock now hp wq s
  | .descReg now hp wq => Sys2Proof.Machine.execDescReg now hp wq s
  | .descRevoke now hp wq => Sys2Proof.Machine.execDescRevoke now hp wq s
  | .descResolve now hp wq => Sys2Proof.Machine.execDescResolve now hp wq s
  | .descInval now hp wq => Sys2Proof.Machine.execDescInval now hp wq s
  | .descColl now hp wq data => Sys2Proof.Machine.execDescColl now hp wq data s
  | .descCollAbort now hp wq => Sys2Proof.Machine.execDescCollAbort now hp wq s
  | .descExSend now hp wq data => Sys2Proof.Machine.execDescExSend now hp wq data s
  | .descExFlush now hp wq => Sys2Proof.Machine.execDescExFlush now hp wq s
  | .descExConsume now hp wq => Sys2Proof.Machine.execDescExConsume now hp wq s
  | .cqDoorbellWrite now who hp fn width val => Sys2Proof.Machine.execCqDoorbellWrite now who hp fn width val s
  | .eqDoorbellWrite now who hp fn width val => Sys2Proof.Machine.execEqDoorbellWrite now who hp fn width val s
  | .interruptModerationExpired now ofEq hp n => Sys2Proof.Machine.execInterruptModerationExpired now ofEq hp n s
  | .cqStallLimitExpired now hp cq => Sys2Proof.Machine.execCqStallLimitExpired now hp cq s
  | .qmCmdEqCreate who hp fn width => Sys2Proof.Machine.execQmCmdEqCreate who hp fn width s
  | .qmCmdCqCreate who hp fn width => Sys2Proof.Machine.execQmCmdCqCreate who hp fn width s
  | .qmCmdWqCreate who hp fn width => Sys2Proof.Machine.execQmCmdWqCreate who hp fn width s
  | .qmCmdEcOpen who hp fn width => Sys2Proof.Machine.execQmCmdEcOpen who hp fn width s
  | .qmCmdEcClose now who hp fn width => Sys2Proof.Machine.execQmCmdEcClose now who hp fn width s
  | .qmCmdDestroy who hp fn width => Sys2Proof.Machine.execQmCmdDestroy who hp fn width s
  | .qmCmdReset who hp fn width => Sys2Proof.Machine.execQmCmdReset who hp fn width s
  | .qmCmdQuery who hp fn width => Sys2Proof.Machine.execQmCmdQuery who hp fn width s
  | .perstAssert now hp => Sys2Proof.Machine.execPerstAssert now hp s
  | .hotResetStart now hp => Sys2Proof.Machine.execHotResetStart now hp s
  | .surpriseLinkDown now hp => Sys2Proof.Machine.execSurpriseLinkDown now hp s
  | .portResetComplete hp => Sys2Proof.Machine.execPortResetComplete hp s
  | .hostLinkUp now hp flit speed width => Sys2Proof.Machine.execHostLinkUp now hp flit speed width s
  | .pf0EnablesSet now hp cfg masked => Sys2Proof.Machine.execPf0EnablesSet now hp cfg masked s
  | .flrStart now hp fn => Sys2Proof.Machine.execFlrStart now hp fn s
  | .flrComplete hp fn => Sys2Proof.Machine.execFlrComplete hp fn s
  | .flrWedgeTimeout now hp fn => Sys2Proof.Machine.execFlrWedgeTimeout now hp fn s
  | .vfEnableClear now hp => Sys2Proof.Machine.execVfEnableClear now hp s
  | .d3hotEnter hp fn => Sys2Proof.Machine.execD3hotEnter hp fn s
  | .d0Return hp fn => Sys2Proof.Machine.execD0Return hp fn s
  | .l0pIdleNarrow hp lowNs => Sys2Proof.Machine.execL0pIdleNarrow hp lowNs s
  | .l0pRestore hp queued => Sys2Proof.Machine.execL0pRestore hp queued s
  | .l1IdleEntry hp idleNs => Sys2Proof.Machine.execL1IdleEntry hp idleNs s
  | .collClCmdAbort who g width => Sys2Proof.Machine.execCollClCmdAbort who g width s
  | .clCmdReset who g width => Sys2Proof.Machine.execClCmdReset who g width s
  | .clHopRtoExpired now g dev seq psn abort => Sys2Proof.Machine.execClHopRtoExpired now g dev seq psn abort s
  | .clOpLimitExpired now g seq => Sys2Proof.Machine.execClOpLimitExpired now g seq s
  | .exRingCiWrite who j width val => Sys2Proof.Machine.execExRingCiWrite who j width val s
  | .exBatchTimer now j dev ec => Sys2Proof.Machine.execExBatchTimer now j dev ec s
  | .exRtoExpired now j dev bseq => Sys2Proof.Machine.execExRtoExpired now j dev bseq s
  | .exProbeTimer now j dev => Sys2Proof.Machine.execExProbeTimer now j dev s
  | .exRingCopy now j => Sys2Proof.Machine.execExRingCopy now j s
  | .exRingStall now j => Sys2Proof.Machine.execExRingStall now j s
  | .aliasAcquireRead now hp fn slot => Sys2Proof.Machine.execAliasAcquireRead now hp fn slot s
  | .aliasTryRead now hp fn slot => Sys2Proof.Machine.execAliasTryRead now hp fn slot s
  | .aliasReleaseRead now hp fn slot => Sys2Proof.Machine.execAliasReleaseRead now hp fn slot s
  | .aliasResultRead now hp fn slot => Sys2Proof.Machine.execAliasResultRead now hp fn slot s
  | .aliasMarginExpired now slot => Sys2Proof.Machine.execAliasMarginExpired now slot s
  | .lockWaitExpired now dom dva src msgid => Sys2Proof.Machine.execLockWaitExpired now dom dva src msgid s
  | .abandonWaitExpired now hp fn => Sys2Proof.Machine.execAbandonWaitExpired now hp fn s
  | .abandonResendTimer now record => Sys2Proof.Machine.execAbandonResendTimer now record s
  | .kilnGatePass now kind a b => Sys2Proof.Machine.execKilnGatePass now kind a b s
  | .policerRelease now msgid => Sys2Proof.Machine.execPolicerRelease now msgid s
  | .injectionSelect now port => Sys2Proof.Machine.execInjectionSelect now port s
  | .sliceGrant now tile => Sys2Proof.Machine.execSliceGrant now tile s
  | .calendarSlotAdvance now => Sys2Proof.Machine.execCalendarSlotAdvance now s
  | .queueMonitorSample now monitor => Sys2Proof.Machine.execQueueMonitorSample now monitor s
  | .kilnPeriod now p temps speeds rails => Sys2Proof.Machine.execKilnPeriod now p temps speeds rails s
  | .vcoreStep now ok => Sys2Proof.Machine.execVcoreStep now ok s
  | .thermSoftStep now ok => Sys2Proof.Machine.execThermSoftStep now ok s
  | .avsCalibration now ok mv gain => Sys2Proof.Machine.execAvsCalibration now ok mv gain s
  | .avsRetry now ok mv => Sys2Proof.Machine.execAvsRetry now ok mv s
  | .knBudgetWrite who width val => Sys2Proof.Machine.execKnBudgetWrite who width val s
  | .faultRaised now src inst => Sys2Proof.Machine.execFaultRaised now src inst s
  | .brokenWireDetected now src => Sys2Proof.Machine.execBrokenWireDetected now src s
  | .fcCmdRelease who width all src inst held => Sys2Proof.Machine.execFcCmdRelease who width all src inst held s
  | .fcCmdChipReset who width confirm => Sys2Proof.Machine.execFcCmdChipReset who width confirm s
  | .fcCmdSelftest who width => Sys2Proof.Machine.execFcCmdSelftest who width s
  | .selftestDone failed => Sys2Proof.Machine.execSelftestDone failed s
  | .fcPendClear who width val => Sys2Proof.Machine.execFcPendClear who width val s
  | .tileFail now tile => Sys2Proof.Machine.execTileFail now tile s
  | .mgmtPairFail now => Sys2Proof.Machine.execMgmtPairFail now s
  | .mgmtPairRetestDone now pair ok => Sys2Proof.Machine.execMgmtPairRetestDone now pair ok s
  | .watchdogRestart now => Sys2Proof.Machine.execWatchdogRestart now s
  | .watchdogExpired now => Sys2Proof.Machine.execWatchdogExpired now s
  | .hbmStackFail now stack => Sys2Proof.Machine.execHbmStackFail now stack s
  | .hbmRemirrorDone => Sys2Proof.Machine.execHbmRemirrorDone s
  | .fwDlCmdWrite who width val => Sys2Proof.Machine.execFwDlCmdWrite who width val s
  | .mctpDownload via slot off data => Sys2Proof.Machine.execMctpDownload via slot off data s
  | .fwBlockWritten now data ok => Sys2Proof.Machine.execFwBlockWritten now data ok s
  | .fwCmdActivate who width slot => Sys2Proof.Machine.execFwCmdActivate who width slot s
  | .mctpActivate via slot => Sys2Proof.Machine.execMctpActivate via slot s
  | .fwWarmBootDone now img => Sys2Proof.Machine.execFwWarmBootDone now img s
  | .fwSwapPrepared now => Sys2Proof.Machine.execFwSwapPrepared now s
  | .fwHealthOk => Sys2Proof.Machine.execFwHealthOk s
  | .fwCmdConfirm who width => Sys2Proof.Machine.execFwCmdConfirm who width s
  | .mctpConfirm via => Sys2Proof.Machine.execMctpConfirm via s
  | .healthWindowExpired now => Sys2Proof.Machine.execHealthWindowExpired now s
  | .fwCmdRecoveryReq who width confirm => Sys2Proof.Machine.execFwCmdRecoveryReq who width confirm s
  | .fwCmdCommitSvn who width => Sys2Proof.Machine.execFwCmdCommitSvn who width s
  | .fwCmdRevokeKey who width key confirm => Sys2Proof.Machine.execFwCmdRevokeKey who width key confirm s
  | .mctpGetStatus via => Sys2Proof.Machine.execMctpGetStatus via s
  | .mctpGetCert via index => Sys2Proof.Machine.execMctpGetCert via index s
  | .mctpAttest via nonce => Sys2Proof.Machine.execMctpAttest via nonce s
  | .mctpCsrRead via off => Sys2Proof.Machine.execMctpCsrRead via off s
  | .mctpCsrWrite via off val env => Sys2Proof.Machine.execMctpCsrWrite via off val env s
  | .jtagDebugUnlock key valid => Sys2Proof.Machine.execJtagDebugUnlock key valid s
  | .supplyWarning now rail cv => Sys2Proof.Machine.execSupplyWarning now rail cv s
  | .supplyAboveRecovery now rail cv => Sys2Proof.Machine.execSupplyAboveRecovery now rail cv s
  | .supplyRecoveryDone now rail => Sys2Proof.Machine.execSupplyRecoveryDone now rail s
  | .supplyReset now rail => Sys2Proof.Machine.execSupplyReset now rail s
  | .vmonOpenTest now rise => Sys2Proof.Machine.execVmonOpenTest now rise s
  | .thermtrip now => Sys2Proof.Machine.execThermtrip now s
  | .refclkLoss now clock => Sys2Proof.Machine.execRefclkLoss now clock s
  | .i3cBusStuck now lowNs => Sys2Proof.Machine.execI3cBusStuck now lowNs s
  | .i3cSdaRelease now drivenNs => Sys2Proof.Machine.execI3cSdaRelease now drivenNs s
  | .cgEnable now who c width ramp => Sys2Proof.Machine.execCgEnable now who c width ramp s
  | .cgDisable now who c width ramp => Sys2Proof.Machine.execCgDisable now who c width ramp s
  | .cgClear now who c width ramp en => Sys2Proof.Machine.execCgClear now who c width ramp en s
  | .cgCheckDone now c reads => Sys2Proof.Machine.execCgCheckDone now c reads s
  | .cgRampDone now c => Sys2Proof.Machine.execCgRampDone now c s
  | .cgLimitEngage now c => Sys2Proof.Machine.execCgLimitEngage now c s
  | .cgLimitRelease now c => Sys2Proof.Machine.execCgLimitRelease now c s
  | .cgFaultTimerExpired now c => Sys2Proof.Machine.execCgFaultTimerExpired now c s
  | .cgHardShort now c => Sys2Proof.Machine.execCgHardShort now c s
  | .cgBackoffExpired now c => Sys2Proof.Machine.execCgBackoffExpired now c s
  | .cgPgQualified now c => Sys2Proof.Machine.execCgPgQualified now c s
  | .cgOffsetRezero now c => Sys2Proof.Machine.execCgOffsetRezero now c s
  | .cgMeasureTick now c vin vout iout => Sys2Proof.Machine.execCgMeasureTick now c vin vout iout s
  | .pmLevelSample now => Sys2Proof.Machine.execPmLevelSample now s
  | .pmFreezeWrite now who width val => Sys2Proof.Machine.execPmFreezeWrite now who width val s
  | .pmSnapWrite now who width val => Sys2Proof.Machine.execPmSnapWrite now who width val s
  | .pmSnapshotPeriod now => Sys2Proof.Machine.execPmSnapshotPeriod now s
  | .pmDrainCmd who width val => Sys2Proof.Machine.execPmDrainCmd who width val s
  | .pmDrainDone => Sys2Proof.Machine.execPmDrainDone s
  | .pmCounterWrite who ctr width val => Sys2Proof.Machine.execPmCounterWrite who ctr width val s
  | .patinaPeriodicWrite now hot powered => Sys2Proof.Machine.execPatinaPeriodicWrite now hot powered s
  | .pf0EnablesCleared now hp bme mse => Sys2Proof.Machine.execPf0EnablesCleared now hp bme mse s
  | .perstDeassert now hp => Sys2Proof.Machine.execPerstDeassert now hp s
  | .blockResetDone now code unit => Sys2Proof.Machine.execBlockResetDone now code unit s
  | .noSignalTimeout now lane => Sys2Proof.Machine.execNoSignalTimeout now lane s
  | .i3cTargetReset => Sys2Proof.Machine.execI3cTargetReset s

end Sys2Proof.Machine
end

