-- ==== Sys2Proof/Safety.lean ====
section
/-!
DEFINITION. Safety.lean: what claims say of a state and of a run: the mode that MODE_STAT reports is the one R27 gives, the register
file is in its canonical form, and a run answers a next state at every step.
-/

namespace Sys2Proof.Machine

/-- MODE_STAT.MODE is the mode that the base state and the conditions give (R27). -/
def ModeInStep (s : State) : Prop :=
  rd s F.modeStatMode = modeCode (baseOf s) (holdOn s) (fenceOn s) (brownOn s) (relayOn s)

/-- The canonical form of the register file: offsets strictly rising, and no word listed at its reset value, so that equal register
files are equal data. -/
def CsrCanonical (m : Map Word) : Prop :=
  sortedKeys m = true ∧ ∀ e ∈ m, e.2 ≠ csrDefault e.1

/-- A register write by `who` is served at once (R6, R34, R550, R557, R611): the function answers, or the management firmware runs
with no request before this one; HOLD is not active, and the base state is not RECOVERY. -/
def Served (s : State) (who : Who) : Prop :=
  holdOn s = false ∧ inRecovery s = false ∧
    match who with
    | .fn hp fn => hp < 2 ∧ fn < 256 ∧ fnSilent s hp fn = false ∧ fnEnabled s hp fn = true
    | .mgmt => firmwareRuns s = true ∧ s.fw.waiting = []

/-- What surrounds the effect `f` of a served write: the port's link leaves L1 (R467); the management controller's request is answered
with completion code 1 when the write was counted as refused, else 0 (R557). -/
def viaGate (s : State) (who : Who) (f : State → State) : State :=
  match who with
  | .fn hp _ => f (wakePort s hp)
  | .mgmt =>
    let t := f (wr s F.topCsrRefusedCount 0)
    if t.fc.chipReset && !s.fc.chipReset then emit t (.mctp 0 [])
    else
      let n := rd t F.topCsrRefusedCount
      emit (wr t F.topCsrRefusedCount (satAdd 32 (rd s F.topCsrRefusedCount) n)) (.mctp (bit (n != 0)) [])

/-- No command waits and nothing is left to act on. -/
def Idle (s : State) : Prop := s.pending = [] ∧ s.notices = []

/-- A command answered with a next state, with neither a fault nor a refusal. -/
def Answers (r : Res) : Prop := ∃ t, r = .next t

/-- Commands taken one after the other, stopping at the first that does not answer. -/
def runAll : List Instr → State → Res
  | [], s => .next s
  | c :: cs, s =>
    match exec c s with
    | .next t => runAll cs t
    | .fault r => .fault r
    | .refused r => .refused r

/-! ### Arriving packets -/

/-- Packet p, taken in outside HOLD at time `now` of state s, passes the checks that draw no answer and leaves state t (R86, R91). -/
def TakenIn (s : State) (now : Nat) (p : Pkt) (t : State) : Prop :=
  holdOn s = false ∧ t = takeIn (atTime s now) p ∧ arrivalDrop t p = none

/-- A response, ACK or NACK that finds its message m in state t: taken in, with the context of the message's EC cached (R236). -/
def ReachesMessage (s : State) (now : Nat) (p : Pkt) (m : Slot) (t : State) : Prop :=
  ∃ u, TakenIn s now p u ∧ opResponse p.op = true
    ∧ slotOf (pmSample u 0 1 (arrivalId p) [p.ec, p.op, p.off, p.src, p.dst, p.tc, p.len]) p.msgid = some m
    ∧ t = work (pmSample u 0 1 (arrivalId p) [p.ec, p.op, p.off, p.src, p.dst, p.tc, p.len]) 0 m.ec p.tc
    ∧ cached t m.ec = true ∧ mhas t.tp.parked m.ec = false ∧ slotOf t p.msgid = some m ∧ m.dst = p.src ∧ m.finish = none

/-- A request that finds its EC's context in state t (R236): taken in, in a device that serves it, with the context cached, and, unless
the context is closing, admitted by STATE and OPS. -/
def ReachesContext (s : State) (now : Nat) (p : Pkt) (t : State) : Prop :=
  ∃ u v, holdOn s = false
    ∧ u = takeIn (if p.op = opAtomic ∨ p.op = opLock then work (atTime s now) 4 (atKey (atTime s now) p) p.tc else atTime s now) p
    ∧ arrivalDrop u p = none ∧ opResponse p.op = false
    ∧ v = work (pmSample u 0 1 (arrivalId p) [p.ec, p.op, p.off, p.src, p.dst, p.tc, p.len]) 0 p.ec p.tc
    ∧ t = (if p.op = opSend ∨ p.op = opSendRts then work v 1 p.ec p.tc else v)
    ∧ shutToArrivals t = false ∧ rangeServes t p.ec = true ∧ cached t p.ec = true ∧ mhas t.tp.parked p.ec = false
    ∧ ∃ c, ctxOf t p.ec = some c ∧ c.state = 1 ∧ serving t c.hp = true ∧ c.closing = false ∧ bitAt c.ops (opsBit p.op) = true

/-- A request that finds its EC's context and, by its record, is a packet not seen before, in state t with record key k (R241). -/
def ReachesRecord (s : State) (now : Nat) (p : Pkt) (t : State) (k : Nat) (r : Rec) : Prop :=
  ∃ u v, ReachesContext s now p u ∧ recCheck u p u.timeNs = .go v k r ∧ t = see v k p u.timeNs

/-- A request that its region admits in state t, with its spans at the pieces l of host memory (R337). -/
def Translated (s : State) (p : Pkt) (opLen : Nat) (t : State) (a : Adm) (l : List (Nat × Nat)) : Prop :=
  ∃ u, blockDown s 0x68 0 = false ∧ mrCheck s p opLen = .admitted u a ∧ translateAdm u a = (t, .ok l)
    ∧ (0 < opLen → ∀ x ∈ a.spans.head?, x.1 % opLen = 0) ∧ (a.spans = [] → opLen = 0)

/-! ### Descriptors -/

/-- The next descriptor of a work queue, at hand and free to start at time `now`, is d with operation op (R460, R461): the queue is w. -/
def Starts (s : State) (now hp wq : Nat) (w : Wq) (d : List Word) (op : Nat) : Prop :=
  nextDesc (atTime s now) (qKey hp wq) = some (w, d) ∧ wqRuns (atTime s now) (qKey hp wq) w = true ∧ dOp d = op

end Sys2Proof.Machine
end

