-- ==== Sys2Proof/WellFormed.lean ====
section
/-!
DEFINITION. WellFormed.lean: which commands are well formed: every number names something the Orkor has (a port, a lane, a tile, a
function, a register width), and every packet, frame and image has the shape its rule gives it.  A command that is not well
formed stands for nothing that can happen at the device; exec answers it all the same.
-/

namespace Sys2Proof

/-- The width of an access in bits: writes are 64 bits wide and narrower ones are discarded; reads are 32 or 64 bits wide (R6). -/
def widthOk (w : Nat) : Bool := w == 8 || w == 16 || w == 32 || w == 64

/-- Two host ports with functions 0 to 255 each, or the management controller (15, R557). -/
def Who.wf : Who → Bool
  | .fn hp f => hp < 2 && f < 256
  | .mgmt => true

/-- An MCTP message arrives over a host port or over I3C (R557). -/
def viaOk (v : Option Nat) : Bool := v.all (· < 2)

/-- The fields of a packet fit their widths (Table 03-2, Table 03-4), and the payload is at most 4,096 bytes. -/
def Pkt.wf (p : Pkt) : Bool :=
  p.dst < 2 ^ 18 && p.src < 2 ^ 18 && p.tc < 2 ^ 3 && p.vc < 2 ^ 3 && p.hop < 2 ^ 4 && p.age < 2 ^ 10 && p.flags < 2 ^ 6 && p.op < 2 ^ 8
    && p.len < 2 ^ 13 && p.ec < 2 ^ 20 && p.hcrc < 2 ^ 16 && p.off < 2 ^ 46
    && p.psn < 2 ^ 18 && p.key < 2 ^ 32 && p.msgid < 2 ^ 24 && p.e2e < 2 ^ 32 && p.payload.length ≤ 4096 && p.rsv < 2 ^ 17

/-- A run of symbols of two bits each: 5,440 in a codeword-pair period, 4,096 in a training frame (R106, R110, R116). -/
def levelsOk (n x : Nat) : Bool := x < 4 ^ n

/-- An armature stream begins with a 64-byte header and six 64-byte directory entries (R45), and each entry has a body. -/
def ArmStream.wf (x : ArmStream) : Bool := x.head.length == 448 && x.bodies.length == 6

/-- A firmware image begins with 448 signed bytes, and each of its three directory entries has a body (Table 18-2). -/
def Image.wf (x : Image) : Bool := x.head.length == 448 && x.bodies.length == 3 && x.armature.all ArmStream.wf

/-- A port has at most 255 virtual functions (15). -/
def PortCfg.wf (x : PortCfg) : Bool := x.numVfs ≤ 255

/-- Whether a command is well formed. -/
def Instr.wf : Instr → Bool
  | .powerOnReset => true
  | .chipRstNAssert => true
  | .chipRstNRelease => true
  | .bootSlotVerified a b _ => a.wf && b.wf
  | .buildEnterRun .. => true
  | .modeCtlEnterTest who width => who.wf && widthOk width
  | .testEntryDone => true
  | .modeCtlLeaveTest who width => who.wf && widthOk width
  | .deviceIdWrite who width _ _ => who.wf && widthOk width
  | .csrWriteGeneric who off width _ => who.wf && off % 4 == 0 && widthOk width
  | .csrReadClear who off width => who.wf && off % 4 == 0 && widthOk width
  | .armStageFetchHost who width _ => who.wf && widthOk width
  | .armStageFetchSlot who width => who.wf && widthOk width
  | .armStageDiscard who width => who.wf && widthOk width
  | .armatureFetchDone stream => stream.wf
  | .armSignerWrite who width _ => who.wf && widthOk width
  | .armDrainWrite who width _ => who.wf && widthOk width
  | .tileDrained tile => tile < 52
  | .txnClaim _ who width _ => who.wf && widthOk width
  | .txnBegin _ who width _ => who.wf && widthOk width
  | .txnStageWrite _ who off width _ => who.wf && off % 4 == 0 && widthOk width
  | .txnCommit _ who width _ => who.wf && widthOk width
  | .txnCommitEpoch .. => true
  | .recastPrepDone .. => true
  | .holdExit .. => true
  | .txnAbort _ who width _ => who.wf && widthOk width
  | .txnIdleLimit .. => true
  | .lockBitsSet who width _ => who.wf && widthOk width
  | .packetHeadLookup _ inp vc => inp < 136 && vc < 8
  | .cellEpochMatch .. => true
  | .bankSwapCopyDone tile => tile < 16
  | .cellStallLimit _ o => o < 136
  | .bankFail _ tile bank _ => tile < 16 && bank < 25
  | .bankRepairDone tile => tile < 16
  | .codewordPairReceived _ lane pair => lane < 272 && levelsOk 5440 pair.levels
  | .frameReceived _ p lanes => p < 128 && lanes.all (· < 256)
  | .frameTransmit _ p _ => p < 128
  | .nackWaitExpired _ p _ => p < 128
  | .recoverNoFrameTimeout _ p => p < 128
  | .recoverLimitExpired _ p => p < 128
  | .noLaneTimeout _ p => p < 128
  | .returnForceTimeout _ p => p < 128
  | .probeTimer _ p => p < 128
  | .llDrainWrite _ who width p _ => who.wf && widthOk width && p < 128
  | .drainLimitExpired _ p => p < 128
  | .laneDetectDone _ lane wire => lane < 272 && wire < 8
  | .laneSignalDetected _ lane => lane < 272
  | .trainingFrameReceived _ lane levels _ ask => lane < 272 && levelsOk 4096 levels && ask < 2 ^ 12
  | .laneQualifyDone _ lane _ _ _ => lane < 272
  | .lanePhaseLimitExpired _ lane => lane < 272
  | .laneFailedRetryTimer _ lane => lane < 272
  | .lnCtlRetrain _ who width lane _ => who.wf && widthOk width && lane < 272
  | .lnCtlRecal _ who width lane _ => who.wf && widthOk width && lane < 272
  | .laneRecalCheck .. => true
  | .recalSpareLocked _ tile => tile < 16
  | .recalSliceQualified _ tile _ _ => tile < 16
  | .laneSelfCheckFail _ lane => lane < 272
  | .laneLockHuntExpired _ lane => lane < 272
  | .spareSwapResume _ tile => tile < 16
  | .failedSliceRetestDone _ tile _ => tile < 16
  | .routeNoticeReceived _ u p => u < 128 && p.wf
  | .settleTimerExpired .. => true
  | .joinReceived _ u p => u < 128 && p.wf
  | .joinAckReceived _ u p => u < 128 && p.wf
  | .joinRepeatTimer .. => true
  | .joinWindowExpired .. => true
  | .epochRepeatTimer .. => true
  | .epochNoticeReceived _ u p => u < 128 && p.wf
  | .packetInject _ msgid _ => msgid < 16777216
  | .contextFetchDone _ ec _ => ec < 1048576
  | .putArrived _ u p _ => u < 128 && p.wf
  | .getReqArrived _ u p _ => u < 128 && p.wf
  | .getRspArrived _ u p => u < 128 && p.wf
  | .sendArrived _ u p _ => u < 128 && p.wf
  | .sendRtsArrived _ u p => u < 128 && p.wf
  | .finArrived _ u p => u < 128 && p.wf
  | .ackArrived _ u p => u < 128 && p.wf
  | .nackArrived _ u p => u < 128 && p.wf
  | .atomicArrived _ u p _ => u < 128 && p.wf
  | .atomicRspArrived _ u p => u < 128 && p.wf
  | .lockArrived _ u p _ => u < 128 && p.wf
  | .lockRspArrived _ u p => u < 128 && p.wf
  | .lockNoticeArrived _ u p => u < 128 && p.wf
  | .mcPutArrived _ u p => u < 128 && p.wf
  | .clUpArrived _ u p => u < 128 && p.wf
  | .clDownArrived _ u p => u < 128 && p.wf
  | .clAckArrived _ u p => u < 128 && p.wf
  | .clAbortArrived _ u p => u < 128 && p.wf
  | .clBusyArrived _ u p => u < 128 && p.wf
  | .exBatchArrived _ u p => u < 128 && p.wf
  | .exCreditArrived _ u p => u < 128 && p.wf
  | .retransmitTimerExpired _ msgid => msgid < 16777216
  | .nackBackoffExpired _ msgid psn => msgid < 16777216 && psn < 262144
  | .nackWaitLimitExpired _ msgid psn => msgid < 16777216 && psn < 262144
  | .ackTimeExpired _ src msgid => src < 262144 && msgid < 16777216
  | .receiverRecordExpired _ src msgid => src < 262144 && msgid < 16777216
  | .msgidQuarantineEnd _ msgid => msgid < 16777216
  | .flowEntryIdle _ ec dst tc => ec < 1048576 && dst < 262144 && tc < 8
  | .rdvLimitExpired .. => true
  | .rdvCloseExpired _ ec => ec < 1048576
  | .xlInvalCmdWrite who width _ => who.wf && widthOk width
  | .xlInvalComplete .. => true
  | .xlDomWrite who dom width _ => who.wf && dom < 4096 && widthOk width
  | .domainSweepDone dom => dom < 4096
  | .pageWalkDone .. => true
  | .xlPkrrWrite hp fn page width _ => hp < 2 && fn < 256 && page < 16384 && widthOk width
  | .hostAccessFinished .. => true
  | .mrCmdRevoke who width _ => who.wf && widthOk width
  | .revokeFlushReadDone .. => true
  | .mrPageResolveRetry who width _ => who.wf && widthOk width
  | .mrPageResolveFail _ who width _ => who.wf && widthOk width
  | .faultResolveLimitExpired .. => true
  | .faultFailHoldExpired .. => true
  | .cxlMemRead _ hp _ => hp < 2
  | .cxlMemWrite _ hp _ data _ => hp < 2 && data.length == 64
  | .cxlMemWritePartial _ hp _ data en _ => hp < 2 && data.length == 64 && en.length == 64
  | .cxlMemSpecRead .. => true
  | .farCacheFetchDone .. => true
  | .writeBackPutDone .. => true
  | .sharedRwPutDone .. => true
  | .wbRetryTimer .. => true
  | .gwLimitExpired .. => true
  | .gwFlushWriteback who width _ _ => who.wf && widthOk width
  | .gwFlushEvict who width _ _ => who.wf && widthOk width
  | .gwFlushDiscard who width _ _ => who.wf && widthOk width
  | .gwFlushComplete .. => true
  | .hdmDecoderCommit hp dec _ _ _ _ => hp < 2 && dec < 8
  | .doorbellWrite _ hp fn page width _ => hp < 2 && fn < 256 && page < 16384 && widthOk width
  | .pushSlotWrite hp fn page _ _ => hp < 2 && fn < 256 && page < 16384
  | .descriptorFetchDone _ hp wq descs _ => hp < 2 && wq < 16384 && descs.all (·.length == 8)
  | .descNop _ hp wq => hp < 2 && wq < 16384
  | .descPut _ hp wq => hp < 2 && wq < 16384
  | .descGet _ hp wq => hp < 2 && wq < 16384
  | .descSend _ hp wq => hp < 2 && wq < 16384
  | .descRecv _ hp wq => hp < 2 && wq < 16384
  | .descProbe _ hp wq => hp < 2 && wq < 16384
  | .descCancel _ hp wq => hp < 2 && wq < 16384
  | .descAtomic _ hp wq => hp < 2 && wq < 16384
  | .descLock _ hp wq => hp < 2 && wq < 16384
  | .descReg _ hp wq => hp < 2 && wq < 16384
  | .descRevoke _ hp wq => hp < 2 && wq < 16384
  | .descResolve _ hp wq => hp < 2 && wq < 16384
  | .descInval _ hp wq => hp < 2 && wq < 16384
  | .descColl _ hp wq _ => hp < 2 && wq < 16384
  | .descCollAbort _ hp wq => hp < 2 && wq < 16384
  | .descExSend _ hp wq _ => hp < 2 && wq < 16384
  | .descExFlush _ hp wq => hp < 2 && wq < 16384
  | .descExConsume _ hp wq => hp < 2 && wq < 16384
  | .cqDoorbellWrite _ who hp fn width _ => who.wf && hp < 2 && fn < 256 && widthOk width
  | .eqDoorbellWrite _ who hp fn width _ => who.wf && hp < 2 && fn < 256 && widthOk width
  | .interruptModerationExpired _ _ hp n => hp < 2 && n < 16384
  | .cqStallLimitExpired _ hp cq => hp < 2 && cq < 16384
  | .qmCmdEqCreate who hp fn width => who.wf && hp < 2 && fn < 256 && widthOk width
  | .qmCmdCqCreate who hp fn width => who.wf && hp < 2 && fn < 256 && widthOk width
  | .qmCmdWqCreate who hp fn width => who.wf && hp < 2 && fn < 256 && widthOk width
  | .qmCmdEcOpen who hp fn width => who.wf && hp < 2 && fn < 256 && widthOk width
  | .qmCmdEcClose _ who hp fn width => who.wf && hp < 2 && fn < 256 && widthOk width
  | .qmCmdDestroy who hp fn width => who.wf && hp < 2 && fn < 256 && widthOk width
  | .qmCmdReset who hp fn width => who.wf && hp < 2 && fn < 256 && widthOk width
  | .qmCmdQuery who hp fn width => who.wf && hp < 2 && fn < 256 && widthOk width
  | .perstAssert _ hp => hp < 2
  | .hotResetStart _ hp => hp < 2
  | .surpriseLinkDown _ hp => hp < 2
  | .portResetComplete hp => hp < 2
  | .hostLinkUp _ hp _ speed width => hp < 2 && speed < 8 && (width == 4 || width == 8 || width == 16)
  | .pf0EnablesSet _ hp cfg _ => hp < 2 && cfg.wf
  | .flrStart _ hp fn => hp < 2 && fn < 256
  | .flrComplete hp fn => hp < 2 && fn < 256
  | .flrWedgeTimeout _ hp fn => hp < 2 && fn < 256
  | .vfEnableClear _ hp => hp < 2
  | .d3hotEnter hp fn => hp < 2 && fn < 256
  | .d0Return hp fn => hp < 2 && fn < 256
  | .l0pIdleNarrow hp _ => hp < 2
  | .l0pRestore hp _ => hp < 2
  | .l1IdleEntry hp _ => hp < 2
  | .collClCmdAbort who g width => who.wf && g < 4096 && widthOk width
  | .clCmdReset who g width => who.wf && g < 4096 && widthOk width
  | .clHopRtoExpired _ g dev _ psn _ => g < 4096 && dev < 262144 && psn < 262144
  | .clOpLimitExpired _ g _ => g < 4096
  | .exRingCiWrite who j width _ => who.wf && j < 64 && widthOk width
  | .exBatchTimer _ j dev ec => j < 64 && dev < 262144 && ec < 1048576
  | .exRtoExpired _ j dev _ => j < 64 && dev < 262144
  | .exProbeTimer _ j dev => j < 64 && dev < 262144
  | .exRingCopy _ j => j < 64
  | .exRingStall _ j => j < 64
  | .aliasAcquireRead _ hp fn slot => hp < 2 && fn < 256 && slot < 65536
  | .aliasTryRead _ hp fn slot => hp < 2 && fn < 256 && slot < 65536
  | .aliasReleaseRead _ hp fn slot => hp < 2 && fn < 256 && slot < 65536
  | .aliasResultRead _ hp fn slot => hp < 2 && fn < 256 && slot < 65536
  | .aliasMarginExpired _ slot => slot < 65536
  | .lockWaitExpired _ dom _ src msgid => dom < 4096 && src < 262144 && msgid < 16777216
  | .abandonWaitExpired _ hp fn => hp < 2 && (fn.all (· < 256))
  | .abandonResendTimer .. => true
  | .kilnGatePass .. => true
  | .policerRelease _ msgid => msgid < 16777216
  | .injectionSelect _ port => port < 128
  | .sliceGrant _ tile => tile < 52
  | .calendarSlotAdvance .. => true
  | .queueMonitorSample _ monitor => monitor < 64
  | .kilnPeriod .. => true
  | .vcoreStep .. => true
  | .thermSoftStep .. => true
  | .avsCalibration .. => true
  | .avsRetry .. => true
  | .knBudgetWrite who width _ => who.wf && widthOk width
  | .faultRaised _ src inst => src < 23 && inst < 65536
  | .brokenWireDetected _ src => src < 23
  | .fcCmdRelease who width _ src inst _ => who.wf && widthOk width && src < 23 && inst < 65536
  | .fcCmdChipReset who width _ => who.wf && widthOk width
  | .fcCmdSelftest who width => who.wf && widthOk width
  | .selftestDone .. => true
  | .fcPendClear who width _ => who.wf && widthOk width
  | .tileFail _ tile => tile < 52
  | .mgmtPairFail .. => true
  | .mgmtPairRetestDone _ pair _ => pair < 2
  | .watchdogRestart .. => true
  | .watchdogExpired .. => true
  | .hbmStackFail _ stack => stack < 4
  | .hbmRemirrorDone => true
  | .fwDlCmdWrite who width _ => who.wf && widthOk width
  | .mctpDownload via slot _ _ => viaOk via && slot < 2
  | .fwBlockWritten .. => true
  | .fwCmdActivate who width slot => who.wf && widthOk width && slot < 2
  | .mctpActivate via slot => viaOk via && slot < 2
  | .fwWarmBootDone _ img => img.wf
  | .fwSwapPrepared .. => true
  | .fwHealthOk => true
  | .fwCmdConfirm who width => who.wf && widthOk width
  | .mctpConfirm via => viaOk via
  | .healthWindowExpired .. => true
  | .fwCmdRecoveryReq who width _ => who.wf && widthOk width
  | .fwCmdCommitSvn who width => who.wf && widthOk width
  | .fwCmdRevokeKey who width key _ => who.wf && widthOk width && key < 8
  | .mctpGetStatus via => viaOk via
  | .mctpGetCert via index => viaOk via && index < 2
  | .mctpAttest via nonce => viaOk via && nonce.length == 32
  | .mctpCsrRead via off => viaOk via && off % 4 == 0
  | .mctpCsrWrite via off _ _ => viaOk via && off % 4 == 0
  | .jtagDebugUnlock .. => true
  | .supplyWarning _ rail _ => rail < 64
  | .supplyAboveRecovery _ rail _ => rail < 64
  | .supplyRecoveryDone _ rail => rail < 64
  | .supplyReset _ rail => rail < 64
  | .vmonOpenTest .. => true
  | .thermtrip .. => true
  | .refclkLoss _ clock => clock < 6
  | .i3cBusStuck .. => true
  | .i3cSdaRelease .. => true
  | .cgEnable _ who c width _ => who.wf && c < 64 && widthOk width
  | .cgDisable _ who c width _ => who.wf && c < 64 && widthOk width
  | .cgClear _ who c width _ _ => who.wf && c < 64 && widthOk width
  | .cgCheckDone _ c _ => c < 64
  | .cgRampDone _ c => c < 64
  | .cgLimitEngage _ c => c < 64
  | .cgLimitRelease _ c => c < 64
  | .cgFaultTimerExpired _ c => c < 64
  | .cgHardShort _ c => c < 64
  | .cgBackoffExpired _ c => c < 64
  | .cgPgQualified _ c => c < 64
  | .cgOffsetRezero _ c => c < 64
  | .cgMeasureTick _ c _ _ _ => c < 64
  | .pmLevelSample .. => true
  | .pmFreezeWrite _ who width _ => who.wf && widthOk width
  | .pmSnapWrite _ who width _ => who.wf && widthOk width
  | .pmSnapshotPeriod .. => true
  | .pmDrainCmd who width _ => who.wf && widthOk width
  | .pmDrainDone => true
  | .pmCounterWrite who ctr width _ => who.wf && ctr < 256 && widthOk width
  | .patinaPeriodicWrite .. => true
  | .pf0EnablesCleared _ hp _ _ => hp < 2
  | .perstDeassert _ hp => hp < 2
  | .blockResetDone .. => true
  | .noSignalTimeout _ lane => lane < 272
  | .i3cTargetReset => true

end Sys2Proof
end

