-- ==== Sys2Proof/Certificates/Slice0/Obligations.lean ====
section
/-!
DEFINITION. Certificates/Slice0/Obligations.lean: the statements about the model, one definition each.  A completion statement gives
the next state of a command's own effect: `settled s e` is the state e that the command's effect leaves, after what follows inside the
device (Machine/Fin.lean), and `viaGate s who f` is the effect f of a served register write with what surrounds it (Safety.lean).
-/

open Sys2Proof Sys2Proof.Machine

/-- A step takes the command at the front of the queue and runs exec on it with the queue's rest. -/
def Obligations.StepRunsFrontCommand : Prop :=
  ∀ s c rest, s.pending = c :: rest → step s = exec c { s with pending := rest }

/-- With no command waiting, a step lets one nanosecond pass (the model's choice, log entry 7): the clock reads one more, and what follows
inside the device is brought about. -/
def Obligations.IdleStepPassesOneNanosecond : Prop :=
  ∀ s, s.pending = [] → step s = .next (settled s { s with timeNs := s.timeNs + 1 })

/-- No command stops the machine, and none touches the queue. -/
def Obligations.EveryCommandAnswersAndKeepsQueue : Prop :=
  ∀ i s, ∃ t, exec i s = .next t ∧ t.pending = s.pending

/-- R27: after every step MODE_STAT.MODE reports RECOVERY (0), BUILD (1) or TEST (7) in that base state, and in RUN the first active
condition in the order HOLD (4), FENCE (6), BROWNOUT (5), RELAY (3), or SERVICE (2). -/
def Obligations.ModeReportsFirstActiveCondition : Prop :=
  ∀ s t, step s = .next t →
    rd t F.modeStatMode =
      (if rd t F.modeStatBase = 0 then 0 else if rd t F.modeStatBase = 1 then 1 else if rd t F.modeStatBase = 3 then 7
      else if rdb t F.modeStatHoldAct = true then 4 else if rdb t F.modeStatFenceAct = true then 6
      else if rdb t F.modeStatBrownoutAct = true then 5 else if rdb t F.modeStatRelayAct = true then 3 else 2)

/-- At power-on reset: BASE and MODE read BUILD, no condition is active, no command waits, nothing has been sent, the clock is 0, both host
ports' links are down, and the mode is in step. -/
def Obligations.ResetStateIsBuild : Prop :=
  rd State.reset F.modeStatBase = 1 ∧ rd State.reset F.modeStatMode = 1 ∧ ModeInStep State.reset
    ∧ noCondition State.reset = true ∧ State.reset.pending = [] ∧ State.reset.out = [] ∧ State.reset.timeNs = 0
    ∧ rdb State.reset F.hiPortStatLinkUp 0 = false ∧ rdb State.reset F.hiPortStatLinkUp 1 = false
    ∧ rd State.reset F.rtStatJoin = 0 ∧ rdb State.reset F.topDeviceIdValid = false ∧ rd State.reset F.txnOwnerOwner = 0
    ∧ rd State.reset F.fcSparesStacksLive = 4 ∧ csrRaw State.reset 0 = 0x4E594D4800010128

/-- A command that leaves nothing to follow ends in its own effect: every word of the register file but MODE_STAT and every other part of
the state is what the effect left, and the queue is as it was. -/
def Obligations.QuietCommandEndsInItsEffect : Prop :=
  ∀ s e, quiet s e = true →
    (∀ key, key ≠ 0x100 → csrRaw (settled s e) key = csrRaw e key)
    ∧ (∀ f : Fld, f.key 0 = 0x100 → f.lo + f.width ≤ F.modeStatMode.lo ∨ F.modeStatMode.lo + F.modeStatMode.width ≤ f.lo →
        rd (settled s e) f = rd e f)
    ∧ settled s e = { e with pending := s.pending, csr := (settled s e).csr }

/-- The register file keeps its canonical form under a write: offsets strictly rising, and no word listed at its reset value. No two fields
of a register share a bit, and every field lies within its 64-bit word. -/
def Obligations.RegisterFileKeepsItsForm : Prop :=
  (∀ m key w, CsrCanonical m → CsrCanonical (csrStore m key w))
  ∧ (∀ k p m, CsrCanonical (csrReset k p m))
  ∧ (∀ m1 m2, CsrCanonical m1 → CsrCanonical m2 →
      (∀ key, mgetD m1 key (csrDefault key) = mgetD m2 key (csrDefault key)) → m1 = m2)
  ∧ (∀ key r, regFind key = some r →
     (∀ f ∈ r.fields, f.lo + f.width ≤ 64)
     ∧ r.fields.Pairwise fun f g => f.lo + f.width ≤ g.lo ∨ g.lo + g.width ≤ f.lo)

/-- R11: a wider reset restores every field that a narrower reset restores, by the containments of R11. -/
def Obligations.WiderResetRestoresMore : Prop :=
  (∀ k, ResetKind.chip.restores k = true → ResetKind.por.restores k = true)
  ∧ (∀ k, ResetKind.hfund.restores k = true → ResetKind.chip.restores k = true)
  ∧ (∀ k, ResetKind.blk.restores k = true → ResetKind.chip.restores k = true)
  ∧ (∀ k, ResetKind.hot.restores k = true → ResetKind.hfund.restores k = true)
  ∧ (∀ k, ResetKind.flr.restores k = true → ResetKind.hot.restores k = true)
  ∧ (∀ k p m key r f, regFind key = some r → f ∈ r.fields → p key = true →
      wordGet (mgetD (csrReset k p m) key (csrDefault key)) f.lo f.width
        = wordGet (if k.restores f.rst then csrDefault key else mgetD m key (csrDefault key)) f.lo f.width)

/-- POWER_ON_RESET, CHIP_RST_N_ASSERT, CHIP_RST_N_RELEASE, BOOT_SLOT_VERIFIED and BUILD_ENTER_RUN. A power-on reset restores, in every
register, the fields whose reset code it contains, starts the clock at 0, and leaves flash, the board record and the patina in flash. The
chip reset of CHIP_RST_N does so for CHIP but for FC_RESET_CAUSE, which it sets to cause 1, and for FW_SLOT of a slot that was VERIFIED,
which keeps its word; the board record, the supplies and the cage channels stay. Its release ends it. The cold boot of a device that is not
yet booted goes to RECOVERY when the request flag is set, else runs the preferred slot when it is verified, else the other slot when that
one is, else goes to RECOVERY. A BUILD whose join is complete passes to RUN. What it takes from the model's own readings stands in log
entries 84, 85, 100 and 107. -/
def Obligations.ResetsAndBootComplete : Prop :=
  (∀ s, exec .powerOnReset s = .next (settled s (powerOn s)) ∧ (powerOn s).timeNs = 0
      ∧ (∀ key, csrRaw (powerOn s) key = wordReset .por key (csrRaw s key))
      ∧ (powerOn s).fw.flash = s.fw.flash ∧ (powerOn s).fw.boards = s.fw.boards ∧ (powerOn s).fc.patina = s.fc.patinaFlash)
  ∧ (∀ s, exec .chipRstNAssert s = .next (settled s (chipReset s 1 0 0)) ∧ (chipReset s 1 0 0).fc.chipReset = true
      ∧ rd (chipReset s 1 0 0) F.fcResetCauseCause = 1
      ∧ (∀ key, key ≠ 0x00200020 → (∀ x, x < 2 → rd s F.fwSlotState x = 2 → key ≠ F.fwSlotState.key x) →
          csrRaw (chipReset s 1 0 0) key = wordReset .chip key (csrRaw s key))
      ∧ (∀ x, x < 2 → rd s F.fwSlotState x = 2 → csrRaw (chipReset s 1 0 0) (F.fwSlotState.key x) = csrRaw s (F.fwSlotState.key x))
      ∧ (chipReset s 1 0 0).fw.boards = s.fw.boards ∧ (chipReset s 1 0 0).pw = s.pw ∧ (chipReset s 1 0 0).cage = s.cage)
  ∧ (∀ s, s.fc.chipReset = true →
      exec .chipRstNRelease s
        = .next (settled s { s with fc := { s.fc with chipReset := false }, pw := { s.pw with low := [] } }))
  ∧ (∀ s a b failed, baseOf s = 1 → s.fc.chipReset = false → booted s = false → (boardNow s).recovery = true →
      exec (.bootSlotVerified a b failed) s
        = .next (settled s (setBase (wr s F.fwStatPreferred (boardNow s).preferred) 0)))
  ∧ (∀ s a b failed m, baseOf s = 1 → s.fc.chipReset = false → booted s = false → (boardNow s).recovery = false →
      let pref := (boardNow s).preferred
      let img := if pref = 0 then a else b
      let s1 := wr s F.fwStatPreferred pref
      verifySlot s1 (rd s1 F.fwFuseArmMask) img = 0 → img.armature = some m →
      exec (.bootSlotVerified a b failed) s
        = .next (settled s (buildWith (runSlot (showSlot s1 pref img 0) pref (runOf img)) (armOf m) failed)))
  ∧ (∀ s a b failed m, baseOf s = 1 → s.fc.chipReset = false → booted s = false → (boardNow s).recovery = false →
      let pref := (boardNow s).preferred
      let img := if pref = 0 then a else b
      let other := if 1 - pref = 0 then a else b
      let s1 := wr s F.fwStatPreferred pref
      let mask := rd s1 F.fwFuseArmMask
      let s2 := showSlot s1 pref img (verifySlot s1 mask img)
      verifySlot s1 mask img ≠ 0 → verifySlot s2 mask other = 0 → other.armature = some m →
      exec (.bootSlotVerified a b failed) s
        = .next (settled s (buildWith (runSlot (showSlot s2 (1 - pref) other 0) (1 - pref) (runOf other)) (armOf m) failed)))
  ∧ (∀ s a b failed, baseOf s = 1 → s.fc.chipReset = false → booted s = false → (boardNow s).recovery = false →
      let pref := (boardNow s).preferred
      let img := if pref = 0 then a else b
      let other := if 1 - pref = 0 then a else b
      let s1 := wr s F.fwStatPreferred pref
      let mask := rd s1 F.fwFuseArmMask
      let s2 := showSlot s1 pref img (verifySlot s1 mask img)
      verifySlot s1 mask img ≠ 0 → verifySlot s2 mask other ≠ 0 →
      exec (.bootSlotVerified a b failed) s
        = .next (settled s (setBase (showSlot s2 (1 - pref) other (verifySlot s2 mask other)) 0)))
  ∧ (∀ s now, baseOf s = 1 → booted s = true → rd s F.rtStatJoin = 2 →
      exec (.buildEnterRun now) s = .next (settled s (enterRun (atTime s now))))

/-- MODE_CTL_ENTER_TEST, TEST_ENTRY_DONE, MODE_CTL_LEAVE_TEST, DEVICE_ID_WRITE and LOCK_BITS_SET, the writes by a writer whose write is
served. An enter request of PF0 or of the management controller that passes the checks of R36 reads accepted with cause 0, releases what R38
names, and takes every link down from this end; one that fails a check reads refused with its cause, and changes nothing else. The end of
the write-back of an accepted entry takes down what link is left, empties the context cache and the L1, ends every condition, and reads
TEST, done. A leave request in TEST takes the links down, starts BUILD again with the running slot's armature, and trains every enabled lane
and joins again; outside TEST it is refused with cause 4. An ID with a member below MEMBERS is taken in BUILD before the join begins, and is
stored in the board record. A write of LCK_BITS by PF0 or the management controller sets bits, and DEBUG_DIS ends a debug session. What
it takes from the model's own readings stands in log entries 84, 85, 96, 100 and 102. -/
def Obligations.ModeAndLockCommandsComplete : Prop :=
  (∀ s who width, Served s who → 64 ≤ width → isPf0 who = true → enterTestCause s = 0 →
      exec (.modeCtlEnterTest who width) s
        = .next (settled s (viaGate s who fun t =>
            let t' := releaseForTest { wr (wr t F.modeCtlReqSt 1) F.modeCtlRefuseCause 0 with testReq := .enter }
            (portUnits t').foldl localDown t')))
  ∧ (∀ s who width, Served s who → 64 ≤ width → isPf0 who = true → enterTestCause s ≠ 0 →
      exec (.modeCtlEnterTest who width) s
        = .next (settled s (viaGate s who fun t => wr (wr t F.modeCtlReqSt 3) F.modeCtlRefuseCause (enterTestCause s))))
  ∧ (∀ s, baseOf s = 2 → s.testReq = .enter →
      exec .testEntryDone s
        = .next (settled s (
            let t := (portUnits s).foldl (fun u p => linkDown u p 7) s
            modeEntry { wr (changeConds
              { t with tp := { t.tp with cache := [], parked := [] }, xl := { t.xl with l1 := [] } }
              fun u => noConds (wr u F.modeStatBase 3)) F.modeCtlReqSt 2 with testReq := .none } 32)))
  ∧ (∀ s who width, Served s who → 64 ≤ width → isPf0 who = true → baseOf s = 3 →
      exec (.modeCtlLeaveTest who width) s = .next (settled s (viaGate s who fun t =>
            let t1 := wr (wr t F.modeCtlReqSt 1) F.modeCtlRefuseCause 0
            let t2 := (portUnits t1).foldl (fun u p => linkDown u p 7) t1
            let t3 := { setBase t2 1 with rt := {}, testReq := .leave }
            let t4 := (List.range 272).foldl (fun u n => if rd u F.lnStatPhase n = 0 then u else retrainLane u n 0) t3
            let t5 := rebuildTables (wr t4 F.rtStatJoin 0)
            (portUnits t5).foldl restartLink (buildWith t5 t5.fw.slotArm []))))
  ∧ (∀ s who width, Served s who → 64 ≤ width → isPf0 who = true → baseOf s ≠ 3 →
      exec (.modeCtlLeaveTest who width) s
        = .next (settled s (viaGate s who fun t => wr (wr t F.modeCtlReqSt 3) F.modeCtlRefuseCause 4)))
  ∧ (∀ s who width val, Served s who → 64 ≤ width → wordLegal (fieldsAt 0x10) val = true → baseOf s = 1 → rd s F.rtStatJoin = 0 →
      wordGet val 0 18 % 64 < rd s F.rtGeomMembers →
      exec (.deviceIdWrite who width val true) s
        = .next (settled s (viaGate s who fun t =>
            writeBoard (wr (wrb t F.topDeviceIdValid true) F.topDeviceIdId (wordGet val 0 18))
              fun b => { b with idValid := true, id := wordGet val 0 18 })))
  ∧ (∀ s who width val, Served s who → 64 ≤ width → isPf0 who = true → wordLegal (fieldsAt 0x00102000) val = true →
      exec (.lockBitsSet who width val) s
        = .next (settled s (viaGate s who fun t =>
            let t' := csrPut t 0x00102000 (wordWrite (locked t 0x00102000) (fieldsAt 0x00102000) (csrRaw t 0x00102000) val)
            if rdb t' F.lckBitsDebugDis then { t' with fw := { t'.fw with debugOpen := false } } else t')))

/-- ARM_STAGE_FETCH_HOST, ARM_STAGE_FETCH_SLOT, ARM_STAGE_DISCARD, ARMATURE_FETCH_DONE, ARM_SIGNER_WRITE, ARM_DRAIN_WRITE and TILE_DRAINED,
the writes by a writer whose write is served. With no transaction open and no fetch running, FETCH_HOST of a port's function empties the
staging buffer, reads FETCHING, and reads LEN bytes of that port's host memory at ARM_SRC; FETCH_SLOT of the management controller does so
without a host read; with a transaction open or a fetch running either is refused with cause BUSY. DISCARD, unless a commit prepares or is
in HOLD, empties the staging buffer and reads EMPTY. A stream received (of LEN bytes, for FETCH_HOST) that passes the checks of R46 and R50
is staged, reads VERIFIED, and shows the sections that differ; one that fails reads INVALID with the cause of the first check that fails.
ENABLE of an unlocked ARM_SIGNER takes the AND. A tile marked in ARM_DRAIN gives up its streams, and shows DRAINED once it holds none. -/
def Obligations.ArmatureStagingCommandsComplete : Prop :=
  (∀ s hp fn width len, Served s (.fn hp fn) → 64 ≤ width → len < 2 ^ 25 →
      wordLegal (fieldsAt 0x00100018) (stageWord 1 len) = true → txnOpen s = false → rd s F.armStageSt ≠ 1 →
      exec (.armStageFetchHost (.fn hp fn) width len) s
        = .next (settled s (viaGate s (.fn hp fn) fun t =>
            let t1 := wr (wr (wr (wr t F.armStageLen len) F.armStageSt 1) F.armStageCause 0) F.armStageDiff 0
            let t2 := { t1 with txn := { t1.txn with staged := none, stagedBytesOn := [], fetchLen := some len } }
            emit t2 (.hostRead hp (rd t2 F.armSrcAddr * 4096) len))))
  ∧ (∀ s width, Served s .mgmt → 64 ≤ width → txnOpen s = false → rd s F.armStageSt ≠ 1 →
      exec (.armStageFetchSlot .mgmt width) s
        = .next (settled s (viaGate s .mgmt fun t =>
            let t1 := wr (wr (wr (wr t F.armStageLen 0) F.armStageSt 1) F.armStageCause 0) F.armStageDiff 0
            { t1 with txn := { t1.txn with staged := none, stagedBytesOn := [], fetchLen := none } })))
  ∧ (∀ s hp fn width len, Served s (.fn hp fn) → 64 ≤ width → wordLegal (fieldsAt 0x00100018) (stageWord 1 len) = true →
      txnOpen s = true ∨ rd s F.armStageSt = 1 →
      exec (.armStageFetchHost (.fn hp fn) width len) s
        = .next (settled s (viaGate s (.fn hp fn) fun t => wr (wr t F.armStageLen (len % 2 ^ 25)) F.armStageCause 8)))
  ∧ (∀ s width, Served s .mgmt → 64 ≤ width → txnOpen s = true ∨ rd s F.armStageSt = 1 →
      exec (.armStageFetchSlot .mgmt width) s
        = .next (settled s (viaGate s .mgmt fun t => wr (wr t F.armStageLen 0) F.armStageCause 8)))
  ∧ (∀ s who width, Served s who → 64 ≤ width → txnSt s ≠ 3 → txnSt s ≠ 4 →
      exec (.armStageDiscard who width) s
        = .next (settled s (viaGate s who fun t =>
            let t1 := wr t F.armStageLen 0
            wr (wr (wr { t1 with txn := { t1.txn with staged := none, stagedBytesOn := [] } } F.armStageSt 0)
              F.armStageCause 0) F.armStageDiff 0)))
  ∧ (∀ s (st : ArmStream), rd s F.armStageSt = 1 →
      let got := { st with recvLen := s.txn.fetchLen.getD st.recvLen }
      stageCheck s got = 0 →
      exec (.armatureFetchDone st) s
        = .next (settled s (wr (wr { s with txn := { s.txn with staged := some (armOf st), stagedBytesOn := [0, 1, 2, 3], fetchLen := none } }
            F.armStageSt 2) F.armStageDiff (armDiff (armOf st) s.txn.arm))))
  ∧ (∀ s (st : ArmStream), rd s F.armStageSt = 1 →
      let got := { st with recvLen := s.txn.fetchLen.getD st.recvLen }
      stageCheck s got ≠ 0 →
      exec (.armatureFetchDone st) s
        = .next (settled s (wr (wr { s with txn := { s.txn with fetchLen := none } } F.armStageSt 3) F.armStageCause (stageCheck s got))))
  ∧ (∀ s who width val, Served s who → 64 ≤ width → wordLegal (fieldsAt 0x00100008) val = true → locked s 0x00100008 = false →
      exec (.armSignerWrite who width val) s
        = .next (settled s (viaGate s who fun t =>
            wr t F.armSignerEnable (Nat.land (rd t F.armSignerEnable) (wordGet val 0 4)))))
  ∧ (∀ s who width val, Served s who → 64 ≤ width → wordLegal (fieldsAt 0x00100060) val = true →
      exec (.armDrainWrite who width val) s
        = .next (settled s (viaGate s who fun t => drainChanged (wr t F.armDrainTiles (wordGet val 0 48)))))
  ∧ (∀ s tile, tile < 48 → drains s tile = true → tileEmpty s tile = true →
      exec (.tileDrained tile) s
        = .next (settled s (wr s F.armDrainStatDrained (rd s F.armDrainStatDrained ||| 2 ^ tile))))

/-- TXN_CLAIM, TXN_BEGIN, TXN_STAGE_WRITE, TXN_COMMIT, TXN_COMMIT_EPOCH, RECAST_PREP_DONE, HOLD_EXIT, TXN_ABORT and TXN_IDLE_LIMIT, the
writes with CLAIM or GO set by a writer whose write is served. A claim of a writer that can own is granted while no owner stands. The
owner's BEGIN opens what it has claimed; its write of a staged register joins the maquette and STAGED counts it; its COMMIT of an open
transaction with nothing failed prepares, or, when a check of a re-cast fails, shows its cause and leaves the transaction open; its ABORT
ends a claim or an open transaction with cause 0. A COMMIT, BEGIN or ABORT of a writer that is neither the owner nor, for ABORT, the
management controller is refused, counted, and shows NOT_OWNER. A commit with no re-cast takes effect at its epoch; a prepared re-cast
begins HOLD; the end of HOLD switches what it was entered for, serves the streams by the new ROLES when a re-cast changed them, and resumes.
A claim or an open transaction left unused for the idle limit ends with IDLE_LIMIT. What it takes from the model's own readings stands
in log entries 14, 16, 39, 52 and 100. -/
def Obligations.TransactionCommandsComplete : Prop :=
  (∀ s now who width val, Served s who → 64 ≤ width → wordLegal (fieldsAt 0x00101000) val = true → bitAt val.toNat 0 = true →
      ownerOf who ≠ 0 → rd s F.txnOwnerOwner = 0 →
      exec (.txnClaim now who width val) s
        = .next (settled s (viaGate (atTime s now) who fun t =>
            let t1 := wr (wr (wr t F.txnOwnerOwner (ownerOf who)) F.txnStatCause 0) F.txnStatStaged 0
            let t2 := wr (wrb t1 F.txnStatFailed false) F.txnStatSt 1
            { t2 with txn := { t2.txn with maquette := [], lastUse := t2.timeNs } })))
  ∧ (∀ s now who width val, Served s who → 64 ≤ width → wordLegal (fieldsAt 0x00101008) val = true → bitAt val.toNat 0 = true →
      ownerOf who ≠ 0 → rd s F.txnOwnerOwner = ownerOf who → txnSt s = 1 →
      exec (.txnBegin now who width val) s
        = .next (settled s (viaGate (atTime s now) who fun t => txnUsed (wr t F.txnStatSt 2))))
  ∧ (∀ s now who off width val, Served s who → 64 ≤ width → csrKey who off = some off → off % 8 = 0 → off < 0x0C000000 →
      (regFind off).isSome = true → isRwt off = true → ¬ (0x08820000 ≤ off ∧ off < 0x08820800 ∧ off % 32 = 16) →
      ¬ (0x07100000 ≤ off ∧ off < 0x07300000) → ownerOf who ≠ 0 → rd s F.txnOwnerOwner = ownerOf who → txnSt s = 2 →
      mhas s.txn.maquette off = false → s.txn.maquette.length < 16384 →
      exec (.txnStageWrite now who off width val) s
        = .next (settled s (viaGate (atTime s now) who fun t =>
            let t1 := { t with txn := { t.txn with lastUse := t.timeNs, maquette := mset t.txn.maquette off val } }
            wr t1 F.txnStatStaged t1.txn.maquette.length)))
  ∧ (∀ s now who width val, Served s who → 64 ≤ width → wordLegal (fieldsAt 0x00101010) val = true → bitAt val.toNat 0 = true →
      ownerOf who ≠ 0 → rd s F.txnOwnerOwner = ownerOf who → txnSt s = 2 → rdb s F.txnStatFailed = false → recastMask s = 0 →
      exec (.txnCommit now who width val) s
        = .next (settled s (viaGate (atTime s now) who fun t => wr (txnUsed t) F.txnStatSt 3)))
  ∧ (∀ s now who width val, Served s who → 64 ≤ width → wordLegal (fieldsAt 0x00101010) val = true → bitAt val.toNat 0 = true →
      ownerOf who ≠ 0 → rd s F.txnOwnerOwner = ownerOf who → txnSt s = 2 → rdb s F.txnStatFailed = false → recastMask s ≠ 0 →
      exec (.txnCommit now who width val) s
        = .next (settled s (viaGate (atTime s now) who fun t =>
            let u := txnUsed t
            let c := recastFails u (recastMask u)
            if c = 0 then wr { u with txn := { u.txn with swap := .recast } } F.txnStatSt 3 else wr u F.txnStatCause c)))
  ∧ (∀ s now, txnSt s = 3 → s.txn.swap = .none →
      exec (.txnCommitEpoch now) s = .next (settled s (commitNow (atTime s now))))
  ∧ (∀ s now, txnSt s = 3 → s.txn.swap = .recast → holdOn s = false →
      exec (.recastPrepDone now) s
        = .next (settled s (setHold (wr (atTime s now) F.txnStatSt 4) true)))
  ∧ (∀ s now, holdOn s = true →
      (s.txn.swap ≠ .recast ∨ bitAt (recastMask s) 2 = false) →
      exec (.holdExit now) s = .next (settled s (resumeHold (switchSwap (atTime s now)))))
  ∧ (∀ s now, holdOn s = true → s.txn.swap = .recast → bitAt (recastMask s) 2 = true →
      exec (.holdExit now) s
        = .next (settled s (resumeHold (reorderStreams (atTime s now) (switchSwap (atTime s now))))))
  ∧ (∀ s now who width val, Served s who → 64 ≤ width → wordLegal (fieldsAt 0x00101018) val = true → bitAt val.toNat 0 = true →
      ownerOf who ≠ 0 → rd s F.txnOwnerOwner = ownerOf who → txnSt s = 1 ∨ txnSt s = 2 →
      exec (.txnAbort now who width val) s = .next (settled s (viaGate (atTime s now) who fun t => abortTxn t 0)))
  ∧ (∀ s now who width val, Served s who → 64 ≤ width → wordLegal (fieldsAt 0x00101018) val = true → who ≠ .mgmt →
      ownerOf who = 0 ∨ rd s F.txnOwnerOwner ≠ ownerOf who →
      exec (.txnAbort now who width val) s
        = .next (settled s (viaGate (atTime s now) who fun t => wr (refuseWrite t) F.txnStatCause 1)))
  ∧ (∀ s now who width val, Served s who → 64 ≤ width → wordLegal (fieldsAt 0x00101008) val = true →
      ownerOf who = 0 ∨ rd s F.txnOwnerOwner ≠ ownerOf who →
      exec (.txnBegin now who width val) s
        = .next (settled s (viaGate (atTime s now) who fun t => wr (refuseWrite t) F.txnStatCause 1)))
  ∧ (∀ s now who width val, Served s who → 64 ≤ width → wordLegal (fieldsAt 0x00101010) val = true →
      ownerOf who = 0 ∨ rd s F.txnOwnerOwner ≠ ownerOf who →
      exec (.txnCommit now who width val) s
        = .next (settled s (viaGate (atTime s now) who fun t => wr (refuseWrite t) F.txnStatCause 1)))
  ∧ (∀ s now, txnSt s = 1 ∨ txnSt s = 2 → rd s F.txnOwnerOwner ≠ 0 → s.txn.lastUse + 1000000 * rd s F.txnIdleLimitMs ≤ now →
      exec (.txnIdleLimit now) s = .next (settled s (abortTxn (atTime s now) 10)))

/-- CSR_WRITE_GENERIC and CSR_READ_CLEAR: a served 64-bit write of a register without effects of its own changes its fields as their access
codes say; with a value that some field does not list it is refused and counted; at an offset with no register it is discarded. A read of a
port's function answers the part it asks for and clears the RC fields it returns whole; the management controller's read answers all 64
bits. What it takes from the model's own readings stands in log entries 52 and 73. -/
def Obligations.RegisterAccessesComplete : Prop :=
  (∀ s who off width val, Served s who → 64 ≤ width → csrKey who off = some off → off % 8 = 0 → off < 0x00200000 →
      (off ∉ [0x10, 0x108, 0x100008, 0x100018, 0x100060, 0x101000, 0x101008, 0x101010, 0x101018, 0x102000]) →
      (regFind off).isSome = true → isRwt off = false → wordLegal (fieldsAt off) val = true →
      exec (.csrWriteGeneric who off width val) s
        = .next (settled s (viaGate s who fun t =>
            csrPut t off (wordWrite (locked t off) (fieldsAt off) (csrRaw t off) val))))
  ∧ (∀ s who off width val, Served s who → 64 ≤ width → csrKey who off = some off → off % 8 = 0 → off < 0x0C000000 →
      (regFind off).isSome = true → isRwt off = false → judgesItself off = false → wordLegal (fieldsAt off) val = false →
      exec (.csrWriteGeneric who off width val) s = .next (settled s (viaGate s who refuseWrite)))
  ∧ (∀ s who off width val, Served s who → 64 ≤ width → csrKey who off = some off → off % 8 = 0 → off < 0x0C000000 →
      regFind off = none →
      exec (.csrWriteGeneric who off width val) s = .next (settled s (viaGate s who id)))
  ∧ (∀ s hp fn off key width, Served s (.fn hp fn) → csrKey (.fn hp fn) off = some key →
      exec (.csrReadClear (.fn hp fn) off width) s
        = .next (settled s (emit (csrRead (wakePort s hp) key width).1
            (.readData (.fn hp fn) off (csrRead (wakePort s hp) key width).2))))
  ∧ (∀ s off width, Served s .mgmt → off % 8 = 0 → off < 0x0C000000 →
      exec (.csrReadClear .mgmt off width) s
        = .next (settled s (emit (csrRead s off 64).1 (.mctp 0 [(csrRead s off 64).2]))))

/-- R6: a write narrower than 64 bits has no effect and is counted, at every offset; a 32-bit read returns the half that its address
selects; a read clears the RC fields that it returns whole, and no other. -/
def Obligations.NarrowWritesCountedPartialReadsClearNothing : Prop :=
  (∀ s hp fn off width val, fnSilent s hp fn = false → fnEnabled s hp fn = true → hp < 2 → fn < 256 → width < 64 →
      exec (.csrWriteGeneric (.fn hp fn) off width val) s = .next (settled s (refuseWrite (wakePort s hp))))
  ∧ (∀ s key, (csrRead s key 64).2 = maskWo (fieldsAt (key / 8 * 8)) (csrView s (key / 8 * 8))
      ∧ (csrRead s key 32).2 = BitVec.ofNat 64 ((csrRead s key 64).2.toNat / 2 ^ (if key / 4 % 2 = 1 then 32 else 0) % 2 ^ 32))
  ∧ (∀ s key width f, (width = 32 ∨ width = 64) → f ∈ fieldsAt (key / 8 * 8) → f.acc = .rc →
      let lo := if width = 32 ∧ key / 4 % 2 = 1 then 32 else 0
      wordGet (csrRaw (csrRead s key width).1 (key / 8 * 8)) f.lo f.width
        = if lo ≤ f.lo ∧ f.lo + f.width ≤ lo + width then 0 else wordGet (csrRaw s (key / 8 * 8)) f.lo f.width)

/-- PACKET_HEAD_LOOKUP, CELL_EPOCH_MATCH, BANK_SWAP_COPY_DONE, CELL_STALL_LIMIT, BANK_FAIL and BANK_REPAIR_DONE. The oldest stored head of
an input and VC that has not been looked up is dropped and counted by the first check of R96 that it fails; one that passes is routed: an
MC_PUT as multicast, a packet of the units to ejection port 128, any other by its destination. An epoch matches in three iterations unless
HOLD is active, takes in the cells read with a corrected and with an uncorrectable error, and carries the bound cells. A bound output that
has waited 30 µs for its packet's next cell stomps it. A bank of B0 to B23 that fails is marked and reported, and loses the cells it held;
the tile pauses when B24 is free, else the pool is shrunk and checked. Its repair, or the end of a predictive copy, puts B24 in service for
it and reports the last spare used. What it takes from the model's own readings stands in log entries 27, 28 and 29. -/
def Obligations.SwitchCommandsComplete : Prop :=
  (∀ s now inp vc id p, waitsLookup (atTime s now) inp vc = some (id, p) → lookupDrop s inp p.hdr = none → p.hdr.op ≠ opMcPut →
      opUnitBound p.hdr.op = false →
      exec (.packetHeadLookup now inp vc) s = .next (settled s (routePkt (atTime s now) id p)))
  ∧ (∀ s now inp vc id p, waitsLookup (atTime s now) inp vc = some (id, p) → lookupDrop s inp p.hdr = none → p.hdr.op = opMcPut →
      exec (.packetHeadLookup now inp vc) s = .next (settled s (routeMulticast (atTime s now) id p)))
  ∧ (∀ s now inp vc id p, waitsLookup (atTime s now) inp vc = some (id, p) → lookupDrop s inp p.hdr = none → p.hdr.op ≠ opMcPut →
      opUnitBound p.hdr.op = true →
      exec (.packetHeadLookup now inp vc) s = .next (settled s (enqueue (atTime s now) id p [(128, p.hdr.vc)])))
  ∧ (∀ s now inp vc id p f, waitsLookup (atTime s now) inp vc = some (id, p) → lookupDrop s inp p.hdr = some f →
      exec (.packetHeadLookup now inp vc) s = .next (settled s (dropAtLookup (inc (atTime s now) f) id p)))
  ∧ (∀ s now corr uncorr,
      exec (.cellEpochMatch now corr uncorr) s
        = .next (settled s (
            let t := atTime s now
            let t := if holdOn t then t else matchRound false (matchRound false (matchRound true (fixTags t)))
            let t := corr.foldl (fun u e => cellCorrected u e.1 e.2) t
            crossAll (uncorr.foldl (fun u e => cellUncorrectable u e.outp e.bank e.held) t))))
  ∧ (∀ s tile b, (tileSt s tile).repair = some b → rdb s F.swBankSwapping tile = true →
      exec (.bankSwapCopyDone tile) s
        = .next (settled s (spareBankServes (markBank (setTile (wrb s F.swBankSwapping false tile) tile
            { tileSt s tile with repair := none }) tile b) tile b)))
  ∧ (∀ s now o id p c, crossing s o = some (id, p, c) → p.cells.length ≤ c.sent → c.cellAt + 30000 ≤ now →
      exec (.cellStallLimit now o) s = .next (settled s (stompNow (atTime s now) id o)))
  ∧ (∀ s now tile bank lost, tile < 16 → bank < 24 → bitAt (rd s F.swBankFailed tile) bank = false → spareBankFree s tile = true →
      exec (.bankFail now tile bank lost) s
        = .next (settled s (
            let t := tell (tell (markBank (atTime s now) tile bank) (.patina 3 (tile * 32 + bank))) (.fault 4 (tile * 32 + bank))
            let mine := lost.filter fun e => match mget t.sw.pkts e.1 with | some p => tileOf p.inp == tile | none => false
            let t := mine.foldl (fun u e => cellFreed (cellLost u e.1 e.2) e.1 e.2) t
            setTile (wrb t F.swBankSwapping false tile) tile { tileSt s tile with repair := some bank, pausedMatch := true })))
  ∧ (∀ s now tile bank lost, tile < 16 → bank < 24 → bitAt (rd s F.swBankFailed tile) bank = false → spareBankFree s tile = false →
      (tileSt s tile).repair ≠ some bank →
      exec (.bankFail now tile bank lost) s
        = .next (settled s (
            let t := tell (tell (markBank (atTime s now) tile bank) (.patina 3 (tile * 32 + bank))) (.fault 4 (tile * 32 + bank))
            let mine := lost.filter fun e => match mget t.sw.pkts e.1 with | some p => tileOf p.inp == tile | none => false
            let t := mine.foldl (fun u e => cellFreed (cellLost u e.1 e.2) e.1 e.2) t
            refreshFcSpares (poolCheck t tile))))
  ∧ (∀ s tile b, (tileSt s tile).repair = some b → (tileSt s tile).pausedMatch = true →
      exec (.bankRepairDone tile) s
        = .next (settled s (tell (tell (wr (wrb (setTile s tile { tileSt s tile with repair := none, pausedMatch := false })
            F.swBankSpareUsed true tile) F.swBankSpareFor b tile) (.patina 4 (tile * 32 + b))) (.fault 2 (0x20 + tile))
            |> refreshFcSpares)))

/-- FRAME_RECEIVED and FRAME_TRANSMIT of a port unit; the pairs that the lanes delivered are used up, and make the frame. Received: with no
lane that carried data, or in DOWN, nothing else happens. A frame with a bad block, lane-control groups, a wrong FCRC or a BODY that Table
05-1 does not list counts in LOST_FRAMES and does nothing else. A good frame is noted with the lanes that the partner reports, and then:
outside INIT, DOWN and HELD a RETURN body is taken, then the data; outside INIT and DOWN a MGMT body is taken, then, unless that record is
an INIT or leaves the link DOWN or in HELD, the data; in HELD a RETURN frame does no more; in INIT an INIT record is taken as R156 says, a
HELD or ABRUPT record as its own, and any other frame lets the link come up by R157 and is then taken. Transmitted, with the unreadable
spilled entries marked first: in DOWN with no lane in READY, and with no lane in S, no frame goes; in DOWN with a lane in READY the link
enters INIT first; an ABRUPT frame goes while one is left, and the last takes the link down; in HELD the HELD record goes; in INIT the INIT
record goes, with what R156 and R157 note of it; in any other state the data frame goes. What each lane sends follows the frame. After
THERMTRIP nothing goes. What it takes from the model's own readings stands in log entries 31, 77, 96, 103 and 109. -/
def Obligations.FrameCommandsComplete : Prop :=
  (∀ s now p on, isUnit s p = true →
      linkState s p = lsDown ∨ (gatherSlots ((frameLanes (atTime s now) p on).map (·.blocks))).getLast? = none →
      exec (.frameReceived now p on) s = .next (settled s (clearPairs (atTime s now) p)))
  ∧ (∀ s now p on c, isUnit s p = true → linkState s p ≠ lsDown →
      let lanes := frameLanes (atTime s now) p on
      let slots := gatherSlots (lanes.map (·.blocks))
      slots.getLast? = some c →
      lanes.any (fun x => x.bad || x.ctrl) = true ∨ frameCrc slots ≠ fcfWord c 15 % 2 ^ 32 ∨ 2 ≤ bits (fcfWord c 0) 40 2 →
      exec (.frameReceived now p on) s = .next (settled s (inc (clearPairs (atTime s now) p) F.llCnt0LostFrames 1 p)))
  ∧ (∀ s now p on c, isUnit s p = true → linkState s p ≠ lsDown → linkState s p ≠ lsInit →
      let lanes := frameLanes (atTime s now) p on
      let slots := gatherSlots (lanes.map (·.blocks))
      slots.getLast? = some c → lanes.any (fun x => x.bad || x.ctrl) = false → frameCrc slots = fcfWord c 15 % 2 ^ 32 →
      bits (fcfWord c 0) 40 2 = 0 →
      exec (.frameReceived now p on) s
        = .next (settled s (
            let t0 := clearPairs (atTime s now) p
            let t1 := followLanes (setLink t0 p { linkOf t0 p with lastGood := t0.timeNs, peerLanes := bits (fcfWord c 0) 42 4 }) p
            let t2 := if linkState s p = lsHeld then t1 else takeReturn t1 p (fcfWord c 2) (fcfWord c 3) (fcfWord c 4)
            if linkState t2 p = lsDown ∨ linkState t2 p = lsHeld then t2
            else refreshLink (drainCheck (takeData t2 p slots (fcfWord c 0) (fcfWord c 1)) p) p)))
  ∧ (∀ s now p on c, isUnit s p = true → linkState s p ≠ lsDown → linkState s p ≠ lsInit →
      let lanes := frameLanes (atTime s now) p on
      let slots := gatherSlots (lanes.map (·.blocks))
      slots.getLast? = some c → lanes.any (fun x => x.bad || x.ctrl) = false → frameCrc slots = fcfWord c 15 % 2 ^ 32 →
      bits (fcfWord c 0) 40 2 = 1 →
      exec (.frameReceived now p on) s
        = .next (settled s (
            let t0 := clearPairs (atTime s now) p
            let t1 := followLanes (setLink t0 p { linkOf t0 p with lastGood := t0.timeNs, peerLanes := bits (fcfWord c 0) 42 4 }) p
            let t2 := takeMgmt t1 p (fcfWord c 2) (fcfWord c 3)
            if linkState t2 p = lsDown ∨ linkState t2 p = lsHeld ∨ bits (fcfWord c 2) 0 8 = 1 then t2
            else refreshLink (drainCheck (takeData t2 p slots (fcfWord c 0) (fcfWord c 1)) p) p)))
  ∧ (∀ s now p on c, isUnit s p = true → linkState s p = lsInit →
      let lanes := frameLanes (atTime s now) p on
      let slots := gatherSlots (lanes.map (·.blocks))
      slots.getLast? = some c → lanes.any (fun x => x.bad || x.ctrl) = false → frameCrc slots = fcfWord c 15 % 2 ^ 32 →
      bits (fcfWord c 0) 40 2 < 2 →
      exec (.frameReceived now p on) s
        = .next (settled s (
            let t0 := clearPairs (atTime s now) p
            let t1 := followLanes (setLink t0 p { linkOf t0 p with lastGood := t0.timeNs, peerLanes := bits (fcfWord c 0) 42 4 }) p
            if bits (fcfWord c 0) 40 2 = 1 ∧ bits (fcfWord c 2) 0 8 = 1 then
              takeInit t1 p (fcfWord c 2) (fcfWord c 3) (fcfWord c 4) (fcfWord c 5)
            else if bits (fcfWord c 0) 40 2 = 1 ∧ bits (fcfWord c 2) 0 8 = 3 ∧ 3 ≤ bits (fcfWord c 2) 8 8 then
              takeMgmt t1 p (fcfWord c 2) (fcfWord c 3)
            else
              let t2 := initCheck t1 p true
              if linkState t2 p = lsInit then t2
              else
                let t3 := if bits (fcfWord c 0) 40 2 = 1 then takeMgmt t2 p (fcfWord c 2) (fcfWord c 3)
                  else takeReturn t2 p (fcfWord c 2) (fcfWord c 3) (fcfWord c 4)
                if linkState t3 p = lsDown then t3 else refreshLink (takeData t3 p slots (fcfWord c 0) (fcfWord c 1)) p)))
  ∧ (∀ s now p lost, isUnit s p = true → s.pw.tripped = true →
      exec (.frameTransmit now p lost) s = .next (settled s (loseSpill (atTime s now) p lost)))
  ∧ (∀ s now p lost, isUnit s p = true → s.pw.tripped = false →
      let u := loseSpill (atTime s now) p lost
      (linkState u p = lsDown ∧ (unitLanes u p).any (laneReady u) = false) ∨ (linkState u p ≠ lsDown ∧ txCount u p = 0) →
      exec (.frameTransmit now p lost) s = .next (settled s (sendLanes u p (txLanes u p) [])))
  ∧ (∀ s now p lost, isUnit s p = true → s.pw.tripped = false →
      let u := loseSpill (atTime s now) p lost
      let v := enterInit u p
      linkState u p = lsDown → (unitLanes u p).any (laneReady u) = true → mayInit u p = true → txCount v p ≠ 0 →
      linkState v p = lsInit → (linkOf v p).abruptLeft = 0 →
      exec (.frameTransmit now p lost) s
        = .next (settled s (sendLanes (emit (initCheck (setLink v p { linkOf v p with
            sentSeen := (linkOf v p).sentSeen || (linkOf v p).peerSeen, probeSent := (linkOf v p).probeSent.or (some v.timeNs) }) p false)
            (.frame p (initFrame v p))) p (txLanes v p) (initFrame v p))))
  ∧ (∀ s now p lost, isUnit s p = true → s.pw.tripped = false →
      let u := loseSpill (atTime s now) p lost
      linkState u p ≠ lsDown → txCount u p ≠ 0 → (linkOf u p).abruptLeft ≠ 0 →
      exec (.frameTransmit now p lost) s
        = .next (settled s (
            let fr := mgmtFrame u p (3 + 4 * 2 ^ 8) []
            let v := setLink u p { linkOf u p with abruptLeft := (linkOf u p).abruptLeft - 1 }
            sendLanes (emit (if (linkOf u p).abruptLeft = 1 then linkDown v p 7 else v) (.frame p fr)) p (txLanes u p) fr)))
  ∧ (∀ s now p lost, isUnit s p = true → s.pw.tripped = false →
      let u := loseSpill (atTime s now) p lost
      linkState u p = lsHeld → txCount u p ≠ 0 → (linkOf u p).abruptLeft = 0 →
      exec (.frameTransmit now p lost) s
        = .next (settled s (sendLanes (emit u (.frame p (mgmtFrame u p (3 + 3 * 2 ^ 8) []))) p (txLanes u p)
            (mgmtFrame u p (3 + 3 * 2 ^ 8) []))))
  ∧ (∀ s now p lost, isUnit s p = true → s.pw.tripped = false →
      let u := loseSpill (atTime s now) p lost
      linkState u p = lsInit → txCount u p ≠ 0 → (linkOf u p).abruptLeft = 0 →
      exec (.frameTransmit now p lost) s
        = .next (settled s (sendLanes (emit (initCheck (setLink u p { linkOf u p with
            sentSeen := (linkOf u p).sentSeen || (linkOf u p).peerSeen, probeSent := (linkOf u p).probeSent.or (some u.timeNs) }) p false)
            (.frame p (initFrame u p))) p (txLanes u p) (initFrame u p))))
  ∧ (∀ s now p lost, isUnit s p = true → s.pw.tripped = false →
      let u := loseSpill (atTime s now) p lost
      linkState u p ≠ lsDown → linkState u p ≠ lsHeld → linkState u p ≠ lsInit → txCount u p ≠ 0 → (linkOf u p).abruptLeft = 0 →
      exec (.frameTransmit now p lost) s
        = .next (settled s (
            let r := dataFrame u p (10 * txCount u p)
            sendLanes (if r.2.isEmpty then r.1 else emit r.1 (.frame p r.2)) p (txLanes u p) r.2)))

/-- NACK_WAIT_EXPIRED, RECOVER_NO_FRAME_TIMEOUT, RECOVER_LIMIT_EXPIRED, NO_LANE_TIMEOUT, RETURN_FORCE_TIMEOUT, PROBE_TIMER, LL_DRAIN_WRITE
and DRAIN_LIMIT_EXPIRED, each once its time has passed. In UP, DRAIN and TEST_LINK the gap that begins at an FSEQ is to be NACKed again, and
no good frame for 1 µs with block lock recovers; a gap with eight NACKs recovers. 20 µs of RECOVER, 4 µs without a lane, the time of a swap
not counted, and 1 ms of drain take the link down with their causes; a RETURN is due; PROBE changes in INIT. A served write of LL_CTL is
refused outside TEST when it sets SELFLINK or TGEN; else it is stored, and starts a drain when it sets DRAIN. What it takes from the
model's own readings stands in log entry 96. -/
def Obligations.LinkTimersAndDrainComplete : Prop :=
  (∀ s now p base g, (linkOf s p).gaps.find? (fun g => g.base == base) = some g →
      linkState s p = lsUp ∨ linkState s p = lsDrain ∨ linkState s p = lsTest → g.due = false → g.lastAt + nackWait s p ≤ now →
      exec (.nackWaitExpired now p base) s
        = .next (settled s (setLink (atTime s now) p { linkOf s p with
            gaps := (linkOf s p).gaps.map fun x => if x = g then { x with due := true } else x })))
  ∧ (∀ s p g, g ∈ (linkOf s p).gaps → 8 ≤ g.nacks → nackedOut s p = enterRecover s p)
  ∧ (∀ s now p, linkState s p = lsUp ∨ linkState s p = lsDrain ∨ linkState s p = lsTest →
      ((unitLanes s p).any fun k => rdb s F.lnStatBlkLock k) = true → (linkOf s p).lastGood + 1000 ≤ now →
      exec (.recoverNoFrameTimeout now p) s = .next (settled s (enterRecover (atTime s now) p)))
  ∧ (∀ s now p, linkState s p = lsRecover → (linkOf s p).recoverAt + 20000 ≤ now →
      exec (.recoverLimitExpired now p) s = .next (settled s (linkDown (atTime s now) p 2)))
  ∧ (∀ s now p t, (linkOf s p).noLaneAt = some t → (linkOf s p).swapUntil = none → t + 4000 ≤ now →
      exec (.noLaneTimeout now p) s = .next (settled s (linkDown (atTime s now) p 1)))
  ∧ (∀ s now p t u, (linkOf s p).noLaneAt = some t → (linkOf s p).swapUntil = some u →
      4000 ≤ (u - 20000 - t) + (now - max u t) →
      exec (.noLaneTimeout now p) s = .next (settled s (linkDown (atTime s now) p 1)))
  ∧ (∀ s now p, (linkOf s p).news = true → (linkOf s p).lastReturn + rd s F.llCtlForceNs p ≤ now →
      exec (.returnForceTimeout now p) s = .next (settled s (setLink (atTime s now) p { linkOf s p with retDue := true })))
  ∧ (∀ s now p, linkState s p = lsInit → (linkOf s p).probeAt + 1000 ≤ now →
      exec (.probeTimer now p) s
        = .next (settled s (setLink (atTime s now) p { linkOf s p with
            probe := ((linkOf s p).probe + 1) % 256, probeAt := max s.timeNs now, probeSent := none, probeDone := false })))
  ∧ (∀ s now who width p val, Served s who → 64 ≤ width → p < 128 → wordLegal (fieldsAt (F.llCtlDrain.key p)) val = true →
      wordGet val 2 2 = 0 ∨ baseOf s = 3 → bitAt val.toNat 1 = true →
      exec (.llDrainWrite now who width p val) s
        = .next (settled s (viaGate (atTime s now) who fun t =>
            enterDrain (csrPut t (F.llCtlCount.key p) (wordWrite (locked t (F.llCtlCount.key p)) (fieldsAt (F.llCtlCount.key p))
              (csrRaw t (F.llCtlCount.key p)) val)) p true)))
  ∧ (∀ s now who width p val, Served s who → 64 ≤ width → p < 128 → wordLegal (fieldsAt (F.llCtlDrain.key p)) val = true →
      wordGet val 2 2 = 0 ∨ baseOf s = 3 → bitAt val.toNat 1 = false →
      exec (.llDrainWrite now who width p val) s
        = .next (settled s (viaGate (atTime s now) who fun t =>
            csrPut t (F.llCtlCount.key p) (wordWrite (locked t (F.llCtlCount.key p)) (fieldsAt (F.llCtlCount.key p))
              (csrRaw t (F.llCtlCount.key p)) val))))
  ∧ (∀ s now who width p val, Served s who → 64 ≤ width → p < 128 → wordLegal (fieldsAt (F.llCtlDrain.key p)) val = true →
      wordGet val 2 2 ≠ 0 → baseOf s ≠ 3 →
      exec (.llDrainWrite now who width p val) s = .next (settled s (viaGate (atTime s now) who refuseWrite)))
  ∧ (∀ s now p, linkState s p = lsDrain → (linkOf s p).drainAt + 1000000 ≤ now →
      exec (.drainLimitExpired now p) s = .next (settled s (linkDown (atTime s now) p 8)))

/-- CODEWORD_PAIR_RECEIVED, LANE_DETECT_DONE, LANE_SIGNAL_DETECTED, TRAINING_FRAME_RECEIVED, LANE_QUALIFY_DONE, LANE_PHASE_LIMIT_EXPIRED,
LANE_FAILED_RETRY_TIMER and NO_SIGNAL_TIMEOUT, of a lane, or in TEST of a spare too. A pair is taken by the checker in TEST (PHASE 9);
before ALIGN and in FAILED it does nothing; else its headers are taken at the lane's offset, then, with block lock, its codewords. In DETECT
a WIRE result of OK leads to SIGNAL, and a wiring fault fails the attempt; in another phase it does nothing. Signal leads from SIGNAL to
CDR. In CDR a training frame that does not show the marker ends the run, one that shows it extends the run and sets RX_INV, and the eighth
in a row leads to COEFF. In COEFF a frame with a good CCRC records the partner's lane; the lane-order check fails the attempt, or, once
passed, the taps move as asked and 16 RX_READY in a row with this side settled lead to ALIGN; with a bad CCRC it does nothing. QUALIFY, 10
ms over, makes the lane READY when its error ratio passes and no codeword was uncorrectable, else fails the attempt. A phase past its limit
fails the attempt. A lane in FAILED whose slice is not retired, or whose spare makes the attempts, trains again after 10 s. 10 ms in SIGNAL
with termination and without signal, while another lane of the unit has signal, read NO_SIGNAL. What it takes from the model's own
readings stands in log entries 31, 32, 93, 102, 108 and 109. -/
def Obligations.LaneTrainingCommandsComplete : Prop :=
  (∀ s now n c, isLane s n = true → rd s F.lnStatPhase n = 9 →
      exec (.codewordPairReceived now n c) s = .next (settled s (testPeriod (atTime s now) n c.levels)))
  ∧ (∀ s now n c, isLane s n = true → rd s F.lnStatPhase n < 4 ∨ rd s F.lnStatPhase n = 8 →
      exec (.codewordPairReceived now n c) s = .next (settled s (atTime s now)))
  ∧ (∀ s now n c, isLane s n = true → 4 ≤ rd s F.lnStatPhase n → rd s F.lnStatPhase n < 8 →
      let lv := lineIn s n c.levels
      let raw := pamBits 5440 (if rdb s F.lnStatRxInv n then invLevels 5440 lv else lv)
      let x := pairWindow s n raw
      let oks := (headersOf x).map fun h => h == hdrData || h == hdrControl
      let u := huntOn (oks.foldl (fun v ok => takeHeader v n ok) (setLane (atTime s now) n { laneSt s n with rxPrev := raw, pair := none })) n
        (oks.all id)
      exec (.codewordPairReceived now n c) s
        = .next (settled s (if rdb u F.lnStatBlkLock n then readGroups u n x c.skewNs
            else lanesChanged (setLane u n { laneSt u n with data := false }) n)))
  ∧ (∀ s now n, isLane s n = true → rd s F.lnStatPhase n = 0 →
      exec (.laneDetectDone now n 1) s
        = .next (settled s (setLane (wr (wr (atTime s now) F.lnStatWire 1 n) F.lnStatPhase 1 n) n
            { laneSt s n with phaseSince := max s.timeNs now, terminated := true })))
  ∧ (∀ s now n wire, isLane s n = true → rd s F.lnStatPhase n = 0 → 2 ≤ wire → wire ≤ 4 →
      exec (.laneDetectDone now n wire) s
        = .next (settled s (failAttempt (setLane (wr (atTime s now) F.lnStatWire wire n) n
            { laneSt s n with wireFaults := (laneSt s n).wireFaults + 1, terminated := wire != 2 }) n)))
  ∧ (∀ s now n wire, isLane s n = true → rd s F.lnStatPhase n ≠ 0 →
      exec (.laneDetectDone now n wire) s = .next (settled s (atTime s now)))
  ∧ (∀ s now n, isLane s n = true → rd s F.lnStatPhase n = 1 →
      exec (.laneSignalDetected now n) s
        = .next (settled s (setLane (wr (atTime s now) F.lnStatPhase 2 n) n
            { laneSt s n with phaseSince := max s.timeNs now, signal := true, markerRun := 0 })))
  ∧ (∀ s now n levels set ask, isLane s n = true → rd s F.lnStatPhase n = 2 → markerIn (lineIn s n levels) = none →
      exec (.trainingFrameReceived now n levels set ask) s
        = .next (settled s (setLane (atTime s now) n { laneSt s n with ask := ask % 2 ^ 12, markerRun := 0 })))
  ∧ (∀ s now n levels set ask inv, isLane s n = true → rd s F.lnStatPhase n = 2 → markerIn (lineIn s n levels) = some inv →
      (laneSt s n).markerRun < 7 →
      exec (.trainingFrameReceived now n levels set ask) s
        = .next (settled s (setLane (wrb (atTime s now) F.lnStatRxInv inv n) n
            { laneSt s n with ask := ask % 2 ^ 12, markerRun := (laneSt s n).markerRun + 1 })))
  ∧ (∀ s now n levels set ask inv, isLane s n = true → rd s F.lnStatPhase n = 2 → markerIn (lineIn s n levels) = some inv →
      7 ≤ (laneSt s n).markerRun →
      exec (.trainingFrameReceived now n levels set ask) s
        = .next (settled s (setLane (wr (wrb (atTime s now) F.lnStatRxInv inv n) F.lnStatPhase 3 n) n
            { laneSt s n with ask := ask % 2 ^ 12, markerRun := 0, phaseSince := max s.timeNs now })))
  ∧ (∀ s now n levels set ask, isLane s n = true → rd s F.lnStatPhase n = 3 →
      let lv := lineIn s n levels
      let w := controlIn (if rdb s F.lnStatRxInv n then invLevels 4096 lv else lv)
      let c := if n < 256 then orderCheck (atTime s now) n w else 1
      let u := setLane (wr (wr (atTime s now) F.lnStatOrderCheck c n) F.lnStatLlane (bits w 0 2) n) n
        { laneSt s n with ask := ask % 2 ^ 12, partnerLane := some (bits w 0 2), partnerPort := some (bits w 2 7), settled := set,
                          readyRun := if bitAt w 32 then (laneSt s n).readyRun + 1 else 0 }
      let v := moveTaps u n w
      ccrcOk w = true →
      exec (.trainingFrameReceived now n levels set ask) s
        = .next (settled s (
            if c ≠ 1 then wr (failAttempt u n) F.lnStatOrderCheck c n
            else if (laneSt v n).settled = true ∧ 16 ≤ (laneSt v n).readyRun then
              setLane (wr v F.lnStatPhase 4 n) n
                { laneSt v n with phaseSince := v.timeNs, hdrRun := 0, hdrWin := [], deskew := false, partnerReady := false }
            else v)))
  ∧ (∀ s now n levels set ask, isLane s n = true → rd s F.lnStatPhase n = 3 →
      let lv := lineIn s n levels
      ccrcOk (controlIn (if rdb s F.lnStatRxInv n then invLevels 4096 lv else lv)) = false →
      exec (.trainingFrameReceived now n levels set ask) s = .next (settled s (atTime s now)))
  ∧ (∀ s now n tj mv, isLane s n = true → rd s F.lnStatPhase n = 5 → (laneSt s n).phaseSince + 10000000 ≤ now →
      (laneSt s n).qualBad = false →
      exec (.laneQualifyDone now n tj mv true) s = .next (settled s (laneReadyNow (atTime s now) n tj mv)))
  ∧ (∀ s now n tj mv ok, isLane s n = true → rd s F.lnStatPhase n = 5 → (laneSt s n).phaseSince + 10000000 ≤ now →
      ok = false ∨ (laneSt s n).qualBad = true →
      exec (.laneQualifyDone now n tj mv ok) s = .next (settled s (failAttempt (atTime s now) n)))
  ∧ (∀ s now n limit, isLane s n = true →
      (rd s F.lnStatPhase n, limit) ∈ [(0, 1000000), (2, 2000000), (3, 50000000), (4, 2000000), (5, 10000000)] →
      (laneSt s n).phaseSince + limit ≤ now →
      exec (.lanePhaseLimitExpired now n) s = .next (settled s (failAttempt (atTime s now) n)))
  ∧ (∀ s now n, isLane s n = true → rd s F.lnStatPhase n = 8 → rd s F.lnStatFailCause n ≠ 6 ∨ onAttempt s n = true →
      (laneSt s n).phaseSince + 10000000000 ≤ now →
      exec (.laneFailedRetryTimer now n) s = .next (settled s (retrainLane (atTime s now) n 5)))
  ∧ (∀ s now n k, n < 256 → rd s F.lnStatPhase n = 1 → (laneSt s n).terminated = true → k ∈ unitLanes s (laneUnit s n) → k ≠ n →
      (laneSt s k).signal = true ∨ (2 ≤ rd s F.lnStatPhase k ∧ rd s F.lnStatPhase k ≤ 7) → (laneSt s n).phaseSince + 10000000 ≤ now →
      exec (.noSignalTimeout now n) s = .next (settled s (wr (atTime s now) F.lnStatWire 5 n)))

/-- LN_CTL_RETRAIN, LN_CTL_RECAL, LANE_RECAL_CHECK, RECAL_SPARE_LOCKED and RECAL_SLICE_QUALIFIED. A served write of LN_CTL is refused when
it sets a loop, a pattern or RATE outside TEST, or a PAM4 pattern with RATE 2; else it is stored, a lane with a pattern or the far-end loop
in TEST enters PHASE 9, RECAL asks for a recalibration with reason 4, and RETRAIN restarts the lane with reason 1 and clears itself. The 10
ms check takes its lanes in lane-number order: a READY lane whose temperature is more than 8 °C, or whose VSERDES is more than 2 %, from its
record asks for a recalibration with reason 2, one whose error ratio is too high with reason 3, and any other asks for none. A spare that
has locked to a READY lane takes it over, and PHASE reads 7; a slice that has passed QUALIFY behind its spare takes its lane back. What
it takes from the model's own readings stands in log entries 31, 32, 55 and 102. -/
def Obligations.RecalibrationCommandsComplete : Prop :=
  (∀ s now who width n val, Served s who → 64 ≤ width → n < 272 → wordLegal (fieldsAt (lnCtlKey n)) val = true →
      wordGet val 5 11 = 0 ∨ baseOf s = 3 → ¬ (wordGet val 5 2 = 2 ∧ (3 ≤ wordGet val 10 3 ∨ 3 ≤ wordGet val 7 3)) →
      exec (.lnCtlRetrain now who width n val) s
        = .next (settled s (viaGate (atTime s now) who fun t =>
            let u := csrPut t (lnCtlKey n) (wordWrite (locked t (lnCtlKey n)) (fieldsAt (lnCtlKey n)) (csrRaw t (lnCtlKey n)) val)
            let u := lanePhaseTest (startPatterns u n (rd t F.lnCtlPrbsGen n) (rd t F.lnCtlPrbsChk n)) n
            let u := if bitAt val.toNat 1 then requestRecal u n 4 else u
            if bitAt val.toNat 0 then wrb (retrainLane u n 1) F.lnCtlRetrain false n else u)))
  ∧ (∀ s now who width n val, Served s who → 64 ≤ width → n < 272 → wordLegal (fieldsAt (lnCtlKey n)) val = true →
      (wordGet val 5 11 ≠ 0 ∧ baseOf s ≠ 3) ∨ (wordGet val 5 2 = 2 ∧ (3 ≤ wordGet val 10 3 ∨ 3 ≤ wordGet val 7 3)) →
      exec (.lnCtlRetrain now who width n val) s = .next (settled s (viaGate (atTime s now) who refuseWrite)))
  ∧ (∀ s now who width n val, Served s who → 64 ≤ width → n < 272 → wordLegal (fieldsAt (lnCtlKey n)) val = true →
      wordGet val 5 11 = 0 ∨ baseOf s = 3 → ¬ (wordGet val 5 2 = 2 ∧ (3 ≤ wordGet val 10 3 ∨ 3 ≤ wordGet val 7 3)) →
      exec (.lnCtlRecal now who width n val) s
        = .next (settled s (viaGate (atTime s now) who fun t =>
            let u := csrPut t (lnCtlKey n) (wordWrite (locked t (lnCtlKey n)) (fieldsAt (lnCtlKey n)) (csrRaw t (lnCtlKey n)) val)
            let u := lanePhaseTest (startPatterns u n (rd t F.lnCtlPrbsGen n) (rd t F.lnCtlPrbsChk n)) n
            let u := if bitAt val.toNat 1 then requestRecal u n 4 else u
            if bitAt val.toNat 0 then wrb (retrainLane u n 1) F.lnCtlRetrain false n else u)))
  ∧ (∀ s now who width n val, Served s who → 64 ≤ width → n < 272 → wordLegal (fieldsAt (lnCtlKey n)) val = true →
      (wordGet val 5 11 ≠ 0 ∧ baseOf s ≠ 3) ∨ (wordGet val 5 2 = 2 ∧ (3 ≤ wordGet val 10 3 ∨ 3 ≤ wordGet val 7 3)) →
      exec (.lnCtlRecal now who width n val) s = .next (settled s (viaGate (atTime s now) who refuseWrite)))
  ∧ (∀ s now lanes,
      exec (.laneRecalCheck now lanes) s = .next (settled s ((inLaneOrder lanes).foldl checkLane (atTime s now))))
  ∧ (∀ s n tj (mv : Nat) ber, n < 256 → rd s F.lnStatPhase n = 6 →
      8 < (toSigned 8 tj - toSigned 8 (rd s F.lnRecTj n)).natAbs
        ∨ rd s F.lnRecVserdesMv n * 2 < ((mv : Int) - rd s F.lnRecVserdesMv n).natAbs * 100 →
      checkLane s (n, tj, mv, ber) = requestRecal s n 2)
  ∧ (∀ s n tj (mv : Nat) ber, n < 256 → rd s F.lnStatPhase n = 6 →
      (toSigned 8 tj - toSigned 8 (rd s F.lnRecTj n)).natAbs ≤ 8 →
      ((mv : Int) - rd s F.lnRecVserdesMv n).natAbs * 100 ≤ rd s F.lnRecVserdesMv n * 2 →
      checkLane s (n, tj, mv, ber) = if ber then requestRecal s n 3 else s)
  ∧ (∀ s n tj mv ber, 256 ≤ n ∨ rd s F.lnStatPhase n ≠ 6 → checkLane s (n, tj, mv, ber) = s)
  ∧ (∀ s now t n, servedBy s t = some n → (spareSt s t).stage = .recalLock → rd s F.lnStatPhase n = 6 →
      exec (.recalSpareLocked now t) s
        = .next (settled s (lanesChanged (wr (wrb (setSpare (atTime s now) t { spareSt s t with stage := .recalCarry })
            F.lnStatOnSpare true n) F.lnStatPhase 7 n) n)))
  ∧ (∀ s now t n tj mv, servedBy s t = some n → (spareSt s t).stage = .recalCarry ∨ (spareSt s t).stage = .retrain →
      exec (.recalSliceQualified now t tj mv) s = .next (settled s (takeBack (atTime s now) t n tj mv)))

/-- LANE_SELF_CHECK_FAIL, LANE_LOCK_HUNT_EXPIRED, SPARE_SWAP_RESUME and FAILED_SLICE_RETEST_DONE. A self-check fault of a slice that is not
in FAILED fails it with SELF_CHECK; 10 µs without block lock in PHASE 6 or 7 fail the lane with LOCK_LOST. A spare in a swap whose lane has
block lock, FEC lock, deskew and the partner's RX_READY carries the lane from then on. The self-test of a failed slice that is not retired
counts a failure when it fails; with three failures within 24 h the slice is retired, else one that passed retrains behind the spare.
What it takes from the model's own readings stands in log entries 31 and 32. -/
def Obligations.LaneFailureCommandsComplete : Prop :=
  (∀ s now n, n < 272 → rd s F.lnStatPhase n ≠ 8 →
      exec (.laneSelfCheckFail now n) s = .next (settled s (failLane (atTime s now) n 1)))
  ∧ (∀ s now n t, isLane s n = true → (laneSt s n).lockLostAt = some t → rd s F.lnStatPhase n = 6 ∨ rd s F.lnStatPhase n = 7 →
      rdb s F.lnStatBlkLock n = false → t + 10000 ≤ now →
      exec (.laneLockHuntExpired now n) s
        = .next (settled s (failLane (setLane (atTime s now) n { laneSt s n with lockLostAt := none }) n 2)))
  ∧ (∀ s now t n, servedBy s t = some n → (spareSt s t).stage = .swapLock → rdb s F.lnStatBlkLock n = true →
      rdb s F.lnStatFecLock n = true → (laneSt s n).deskew = true → (laneSt s n).partnerReady = true →
      exec (.spareSwapResume now t) s
        = .next (settled s (
            let u := wrb (setSpare (atTime s now) t { spareSt s t with stage := .swapped }) F.lnStatOnSpare true n
            lanesChanged (setLink u (laneUnit s n) { linkOf s (laneUnit s n) with swapUntil := none }) n)))
  ∧ (∀ s now t n pass, servedBy s t = some n → (spareSt s t).stage = .swapped → rd s F.lnStatFailCause n ≠ 6 →
      let at' := max s.timeNs now
      let times := (if pass then (laneSt s n).failTimes else at' :: (laneSt s n).failTimes).filter fun x =>
        decide (at' < x + 86400000000000)
      let u := setLane (atTime s now) n { laneSt s n with failTimes := times }
      exec (.failedSliceRetestDone now t pass) s
        = .next (settled s (
            if 3 ≤ times.length then tell (wr u F.lnStatFailCause 6 n) (.patina 0 n)
            else if pass then setSpare u t { spareSt s t with stage := .retrain } else u)))

/-- ROUTE_NOTICE_RECEIVED, SETTLE_TIMER_EXPIRED, JOIN_RECEIVED, JOIN_ACK_RECEIVED, JOIN_REPEAT_TIMER, JOIN_WINDOW_EXPIRED,
EPOCH_REPEAT_TIMER and EPOCH_NOTICE_RECEIVED, the packets in BUILD or RUN outside HOLD once they pass the checks of an arrival. A notice of
the own group is taken record by record, and anything new rebuilds the tables and settles; one of another group does nothing. SETTLING
clears once its time has passed. On a unit that is UP and takes part in joining, a JOIN whose M, G and trunking match is answered ACCEPT and
makes the partner live, any other is answered GEOM; an ACCEPT makes the partner live and leaves JOIN 3; any other STATUS makes it not live
and sets GEOM_REFUSED; either may complete the join. JOIN is repeated on every unit not answered with ACCEPT whose last JOIN is 1 ms old,
and in BUILD, once booted, begins the join; 10 ms after that, with an ACCEPT received and a unit UP, the join completes. The announcement is
repeated 10 ms and 100 ms after the join. An announcement whose key is remembered still does nothing; any other is remembered and forwarded,
and, unless its epoch is known or it is this device's own, the roles learn that its device has rebooted. What it takes from the model's
own readings stands in log entries 20, 27, 38 and 110. -/
def Obligations.RoutingCommandsComplete : Prop :=
  (∀ s now u p t, t = takeIn (atTime s now) p → holdOn s = false → arrivalDrop t p = none → baseOf t = 1 ∨ baseOf t = 2 →
      p.op = opRouteNotice → p.src / 64 = selfGroup t →
      exec (.routeNoticeReceived now u p) s
        = .next (settled s (
            let v := (noticeRecs p).foldl (fun x r => takeRec x (p.src % 64) r) t
            if v.rt.otherLocal = t.rt.otherLocal ∧ v.rt.otherGlobal = t.rt.otherGlobal then t else settle (rebuildTables v))))
  ∧ (∀ s now u p t, t = takeIn (atTime s now) p → holdOn s = false → arrivalDrop t p = none → baseOf t = 1 ∨ baseOf t = 2 →
      p.op = opRouteNotice → p.src / 64 ≠ selfGroup t →
      exec (.routeNoticeReceived now u p) s = .next (settled s t))
  ∧ (∀ s now, rdb s F.rtStatSettling = true → s.rt.settleAt + rd s F.rtSettleMs * 1000000 ≤ now →
      exec (.settleTimerExpired now) s = .next (settled s (wrb (atTime s now) F.rtStatSettling false)))
  ∧ (∀ s now u p t, t = takeIn (atTime s now) p → holdOn s = false → arrivalDrop t p = none → baseOf t = 1 ∨ baseOf t = 2 →
      p.op = opJoin → roleOf t u ≠ 1 ∨ peerUse t = true → linkUp t u = true →
      exec (.joinReceived now u p) s
        = .next (settled s (
            if bits (payloadWord p 0) 18 7 = members t ∧ bits (payloadWord p 0) 25 13 = groupsNo t
                ∧ bitAt (payloadWord p 0) 38 = t.txn.arm.trunked then
              unitJoined (sendUnit t u opJoinAck p.src (joinPayload t 0)) u
            else sendUnit t u opJoinAck p.src (joinPayload t 1))))
  ∧ (∀ s now u p t, t = takeIn (atTime s now) p → holdOn s = false → arrivalDrop t p = none → baseOf t = 1 ∨ baseOf t = 2 →
      p.op = opJoinAck → roleOf t u ≠ 1 ∨ peerUse t = true → linkUp t u = true → bits (payloadWord p 1) 32 8 ≠ 0 →
      exec (.joinAckReceived now u p) s
        = .next (settled s (
            let v := setJoined { t with rt := { t.rt with
              geomRefused := u :: t.rt.geomRefused.erase u, answered := t.rt.answered.erase u } } u false
            joinCheck (wrb v F.rtStatGeomRefused true) (windowPast v))))
  ∧ (∀ s now u p t, t = takeIn (atTime s now) p → holdOn s = false → arrivalDrop t p = none → baseOf t = 1 ∨ baseOf t = 2 →
      p.op = opJoinAck → roleOf t u ≠ 1 ∨ peerUse t = true → linkUp t u = true → bits (payloadWord p 1) 32 8 = 0 →
      exec (.joinAckReceived now u p) s
        = .next (settled s (
            let v := unitJoined { t with rt := { t.rt with answered := u :: t.rt.answered.erase u, gotAccept := true } } u
            joinCheck (if rd v F.rtStatJoin = 3 then wr v F.rtStatJoin 1 else v) (windowPast v))))
  ∧ (∀ s now, baseOf s = 2 ∨ (baseOf s = 1 ∧ rd s F.rtStatJoin ≠ 0) →
      exec (.joinRepeatTimer now) s
        = .next (settled s (((joinUnits (atTime s now)).filter (joinDue (atTime s now))).foldl sendJoin (atTime s now))))
  ∧ (∀ s now, baseOf s = 1 → rd s F.rtStatJoin = 0 → booted s = true →
      exec (.joinRepeatTimer now) s = .next (settled s (beginJoin (atTime s now))))
  ∧ (∀ s now j, baseOf s = 1 → rd s F.rtStatJoin = 1 → s.rt.joinAt = some j → j + 10000000 ≤ now → s.rt.gotAccept = true →
      joinUnits (atTime s now) ≠ [] →
      exec (.joinWindowExpired now) s = .next (settled s (joinComplete (atTime s now))))
  ∧ (∀ s now j, s.rt.joinedAt = some j → s.rt.announced = 1 → j + 10000000 ≤ now →
      exec (.epochRepeatTimer now) s
        = .next (settled s (announce { atTime s now with rt := { s.rt with announced := 2 } } 1)))
  ∧ (∀ s now j, s.rt.joinedAt = some j → s.rt.announced = 2 → j + 100000000 ≤ now →
      exec (.epochRepeatTimer now) s
        = .next (settled s (announce { atTime s now with rt := { s.rt with announced := 3 } } 2)))
  ∧ (∀ s now u p t key, t = takeIn (atTime s now) p → holdOn s = false → arrivalDrop t p = none → baseOf t = 1 ∨ baseOf t = 2 →
      p.op = opEpochNotice →
      key = epochKey (bits (payloadWord p 0) 0 18) (bits (payloadWord p 0) 32 32) (bits (payloadWord p 1) 2 2) →
      (∃ e ∈ t.rt.epochKeys, e.1 = key ∧ t.timeNs < e.2 + 1000000000) →
      exec (.epochNoticeReceived now u p) s = .next (settled s t))
  ∧ (∀ s now u p t dev epoch rep, t = takeIn (atTime s now) p → holdOn s = false → arrivalDrop t p = none →
      baseOf t = 1 ∨ baseOf t = 2 → p.op = opEpochNotice →
      dev = bits (payloadWord p 0) 0 18 → epoch = bits (payloadWord p 0) 32 32 → rep = bits (payloadWord p 1) 2 2 →
      (∀ e ∈ t.rt.epochKeys, e.1 = epochKey dev epoch rep → e.2 + 1000000000 ≤ t.timeNs) →
      exec (.epochNoticeReceived now u p) s
        = .next (settled s (
            let v := rememberKey t (epochKey dev epoch rep)
            let w := ((liveGlobals v).filter (· != u)).foldl
              (fun x q => sendUnit x q opEpochNotice (partnerId x q) (epochPayload dev epoch 1 rep)) v
            let w := if roleOf w u = 2 then
                (noticePorts w).foldl (fun x q => sendUnit x q opEpochNotice (partnerId x q) (epochPayload dev epoch 2 rep)) w
              else w
            if epochKnown t dev epoch = true ∨ dev = selfId w then w else rebooted w dev)))

/-- PUT_ARRIVED, GET_REQ_ARRIVED and MC_PUT_ARRIVED. A request that reaches its open context (and, for a PUT, is not seen before by its
record), that its region admits and that translates, is acted on: a PUT is placed, a GET_REQ reads its span, for its GET_RSPs once the read
has finished, and an MC_PUT writes its payload. A PUT or GET_REQ that would be executed and meets an uncorrectable word of HBM draws
TARGET_ERROR, the stack's loss noted. What it takes from the model's own readings stands in log entry 11. -/
def Obligations.MemoryRequestsComplete : Prop :=
  (∀ s now u p t k r t2 a l, p.op = opPut → ReachesRecord s now p t k r → Translated t p 0 t2 a l → a.recv = none →
      exec (.putArrived now u p none) s = .next (settled s (placePut t2 p a l)))
  ∧ (∀ s now u p t t2 a l, p.op = opGetReq → ReachesContext s now p t → Translated t p 0 t2 a l → a.recv = none →
      exec (.getReqArrived now u p none) s
        = .next (settled s (beginAcc (readPieces t2 a.hp l)
            { what := .getRead p, mr := a.mr, hp := a.hp, pages := pagesOf a })))
  ∧ (∀ s now u p t t2 a l, p.op = opMcPut → ReachesContext s now p t → Translated t p 0 t2 a l → a.recv = none →
      exec (.mcPutArrived now u p) s
        = .next (settled s (beginAcc (writePieces t2 a.hp l p.payload)
            { what := .write, mr := a.mr, hp := a.hp, pages := pagesOf a })))
  ∧ (∀ s now u p h, p.op = opPut → holdOn s = false → executes (atTime s now) p = true →
      exec (.putArrived now u p (some h)) s = .next (settled s (targetError (atTime s now) p h)))
  ∧ (∀ s now u p h, p.op = opGetReq → holdOn s = false → executes (atTime s now) p = true →
      exec (.getReqArrived now u p (some h)) s = .next (settled s (targetError (atTime s now) p h)))

/-- SEND_ARRIVED, SEND_RTS_ARRIVED and FIN_ARRIVED, of a packet that reaches its record. PSN 0 of a SEND not matched before: matched by the
oldest posted receive that fits, which gets it and what came before it, unless its completion finds no room, when RETRY_LATER answers;
matched by none, it goes on the unexpected list with its units reserved and is acknowledged, unless the units do not fit, when
UNEXPECTED_FULL answers. A later packet goes into the matched receive, joins the unexpected message, or, before PSN 0, is kept with the
record while there is room. An RTS matched by a posted receive is acknowledged and starts the receive's GET; one that none matches takes one
unit of the unexpected list and is acknowledged, or draws UNEXPECTED_FULL. A FIN is acknowledged; when its tag names an entry, the send
completes, as NACKED with the FIN's kind for status 2, and the entry is free; else it counts in STRAY_FIN. What it takes from the
model's own readings stands in log entry 105. -/
def Obligations.MessageRequestsComplete : Prop :=
  (∀ s now u p t k r id x, p.op = opSend → p.psn = 0 → ReachesRecord s now p t k r → r.place = none →
      findPosted t p.ec (matchOf p) = some (id, x) → sendBlocked t p = false →
      exec (.sendArrived now u p none) s
        = .next (settled s (
            let v := leftList (matched (countMatch t x) id x (matchOf p) (sendDataLen p) p.tc) { x with matched := true }
            let w := giveEarly (setTp v fun y => { y with recs := mmod y.recs k fun z => { z with place := some id } }) k id
            match mget w.mt.recvs id with
            | some y => sendIntoRecv w p id y
            | none => w)))
  ∧ (∀ s now u p t k r id x, p.op = opSend → p.psn = 0 → ReachesRecord s now p t k r → r.place = none →
      findPosted t p.ec (matchOf p) = some (id, x) → sendBlocked t p = true →
      exec (.sendArrived now u p none) s = .next (settled s (refuse t p 1 20)))
  ∧ (∀ s now u p t k r, p.op = opSend → p.psn = 0 → ReachesRecord s now p t k r → r.place = none →
      findPosted t p.ec (matchOf p) = none →
      unitsUsed t - (mgetD t.mt.early k []).foldl (fun n e => n + ceilDiv e.2.length 64) 0 + (1 + ceilDiv (sendDataLen p) 64) ≤ unexpSize →
      exec (.sendArrived now u p none) s
        = .next (settled s (
            let y := takeEarly t k
            let x : Unexp :=
              { ec := p.ec, src := p.src, srcEc := (matchOf p).srcEc, bits := (matchOf p).bits, comm := (matchOf p).comm,
                dataLen := sendDataLen p, tc := p.tc, units := 1 + ceilDiv (sendDataLen p) 64, msgid := p.msgid, rts := none,
                data := mset y.2 0 (sendData p) }
            let v := refreshMt (setMt y.1 fun m => { m with unexp := mset m.unexp y.1.mt.next x, next := y.1.mt.next + 1 })
            placePsn (setTp v fun z => { z with recs := mmod z.recs k fun w => { w with place := some y.1.mt.next } }) p p.len true)))
  ∧ (∀ s now u p t k r, p.op = opSend → p.psn = 0 → ReachesRecord s now p t k r → r.place = none →
      findPosted t p.ec (matchOf p) = none →
      unexpSize < unitsUsed t - (mgetD t.mt.early k []).foldl (fun n e => n + ceilDiv e.2.length 64) 0 + (1 + ceilDiv (sendDataLen p) 64) →
      exec (.sendArrived now u p none) s = .next (settled s (refuse (unexpNack t p.ec) p 4 (rd (unexpNack t p.ec) F.mtCfgBackoffUs))))
  ∧ (∀ s now u p t k r id x, p.op = opSend → ReachesRecord s now p t k r → r.place = some id → mget t.mt.recvs id = some x →
      x.got + (sendData p).length < x.dataLen ∨ sendBlocked t p = false →
      exec (.sendArrived now u p none) s = .next (settled s (sendIntoRecv t p id x)))
  ∧ (∀ s now u p t k r id x, p.op = opSend → ReachesRecord s now p t k r → r.place = some id → mget t.mt.recvs id = none →
      mget t.mt.unexp id = some x →
      exec (.sendArrived now u p none) s
        = .next (settled s (placePsn
            (setMt t fun m => { m with unexp := mset m.unexp id { x with data := mset x.data p.psn (sendData p) } }) p p.len (p.psn == 0))))
  ∧ (∀ s now u p t k r, p.op = opSend → p.psn ≠ 0 → ReachesRecord s now p t k r → r.place = none →
      unitsUsed t + ceilDiv p.len 64 ≤ unexpSize →
      exec (.sendArrived now u p none) s
        = .next (settled s (placePsn (refreshMt (setMt t fun m =>
            { m with early := mset m.early k (mset (mgetD m.early k []) p.psn p.payload) })) p p.len false)))
  ∧ (∀ s now u p h, p.op = opSend → holdOn s = false → executes (atTime s now) p = true →
      exec (.sendArrived now u p (some h)) s = .next (settled s (targetError (atTime s now) p h)))
  ∧ (∀ s now u p t k r id x, p.op = opSendRts → isFin p = false → ReachesRecord s now p t k r →
      findPosted t p.ec (matchOf p) = some (id, x) → sendBlocked t p = false →
      exec (.sendRtsArrived now u p) s
        = .next (settled s (
            let v := placePsn (leftList (matched (countMatch t x) id x (matchOf p) (bits (payWord p 3) 32 31) p.tc)
              { x with matched := true }) p p.len true
            match mget v.mt.recvs id with
            | some y => startRdv v id y (bits (payWord p 1) 38 26) (payWord p 2 % 2 ^ 46) (payWord p 3 % 2 ^ 32)
            | none => v)))
  ∧ (∀ s now u p t k r, p.op = opSendRts → isFin p = false → ReachesRecord s now p t k r → findPosted t p.ec (matchOf p) = none →
      unitsUsed t + 1 ≤ unexpSize →
      exec (.sendRtsArrived now u p) s
        = .next (settled s (
            let x : Unexp :=
              { ec := p.ec, src := p.src, srcEc := (matchOf p).srcEc, bits := (matchOf p).bits, comm := (matchOf p).comm,
                dataLen := bits (payWord p 3) 32 31, tc := p.tc, units := 1, msgid := p.msgid,
                rts := some (bits (payWord p 1) 38 26, payWord p 2 % 2 ^ 46, payWord p 3 % 2 ^ 32), data := [] }
            let v := refreshMt (setMt t fun m => { m with unexp := mset m.unexp m.next x, next := m.next + 1 })
            placePsn (setTp v fun y => { y with recs := mmod y.recs k fun z => { z with place := some (v.mt.next - 1) } })
              p p.len true)))
  ∧ (∀ s now u p t k r, p.op = opSendRts → isFin p = false → ReachesRecord s now p t k r → findPosted t p.ec (matchOf p) = none →
      unexpSize < unitsUsed t + 1 →
      exec (.sendRtsArrived now u p) s
        = .next (settled s (refuse (unexpNack t p.ec) p 4 (rd (unexpNack t p.ec) F.mtCfgBackoffUs))))
  ∧ (∀ s now u p t k r x, p.op = opSendRts → isFin p = true → ReachesRecord s now p t k r →
      let tag := bits (payWord p 1) 38 26
      let v := placePsn t p p.len true
      mget v.mt.rdv (tag % 2 ^ 16) = some x → x.gen = tag / 2 ^ 16 →
      exec (.finArrived now u p) s
        = .next (settled s (
            let w := refreshMt (setMt v fun m => { m with rdv := mdel m.rdv (tag % 2 ^ 16) })
            let w := if payWord p 2 % 256 = 2 then descDone w x.origin 3 0 (bits (payWord p 2) 8 16) 0 0 0
              else descDone w x.origin 0 0 0 x.len 0 0
            startWaiting (settleClose w x.ec))))
  ∧ (∀ s now u p t k r, p.op = opSendRts → isFin p = true → ReachesRecord s now p t k r →
      let tag := bits (payWord p 1) 38 26
      let v := placePsn t p p.len true
      (∀ x, mget v.mt.rdv (tag % 2 ^ 16) = some x → x.gen ≠ tag / 2 ^ 16) →
      exec (.finArrived now u p) s = .next (settled s (inc v F.mtCnt4StrayFin)))

/-- ATOMIC_ARRIVED and LOCK_ARRIVED. An operation that reaches its record, that its region admits and that translates, queues at its word of
host memory, with an ACK due unless its response goes out first (R247); one that would be executed and meets an uncorrectable word of HBM
draws TARGET_ERROR, the stack's loss noted. -/
def Obligations.WordOperationsComplete : Prop :=
  (∀ s now u p t k r t2 a pa n l, p.op = opAtomic → ReachesRecord s now p t k r →
      Translated (seeOp t k) p (atomicSize p) t2 a ((pa, n) :: l) → a.recv = none →
      exec (.atomicArrived now u p none) s = .next (settled s (queueOp t2 p a pa)))
  ∧ (∀ s now u p t k r t2 a pa n l, p.op = opLock → ReachesRecord s now p t k r →
      Translated (seeOp t k) p 8 t2 a ((pa, n) :: l) → a.recv = none →
      exec (.lockArrived now u p none) s = .next (settled s (queueOp t2 p a pa)))
  ∧ (∀ s now u p h, p.op = opAtomic → holdOn s = false → executes (atTime s now) p = true →
      exec (.atomicArrived now u p (some h)) s = .next (settled s (targetError (atTime s now) p h)))
  ∧ (∀ s now u p h, p.op = opLock → holdOn s = false → executes (atTime s now) p = true →
      exec (.lockArrived now u p (some h)) s = .next (settled s (targetError (atTime s now) p h)))

/-- GET_RSP_ARRIVED, ATOMIC_RSP_ARRIVED, LOCK_RSP_ARRIVED, ACK_ARRIVED and NACK_ARRIVED at the message that each names. A GET_RSP that was
asked for and not received before is placed where its result translates, and is acknowledged; one received before, or not asked for, counts
in DUP. An ATOMIC_RSP or LOCK_RSP without a result before it acknowledges the request, ends its timer, and its result is kept and placed. An
ACK acts as ackMsg says and a NACK as nackMsg says (R246, R250, R253). A response whose MSGID names no message counts in TP_LATE_RSP, as
LATE while the MSGID is in quarantine, else as STRAY. What it takes from the model's own readings stands in log entries 11, 97 and 105. -/
def Obligations.ResponsesComplete : Prop :=
  (∀ s now u p m t a t2 l, p.op = opGetRsp → m.op = opGetReq → ReachesMessage s now p m t → isAcked m p.psn = false →
      mhas m.copies p.psn = true → m.result = .dva a →
      let v := sampleGetRsp t m p t.timeNs
      let adm := msgAdm v m (a + p.psn * 4096) p.payload.length 1
      translateAdm v adm = (t2, .ok l) →
      exec (.getRspArrived now u p) s
        = .next (settled s (getPlaced (beginAcc (writePieces t2 adm.hp l p.payload)
            { what := .write, mr := none, hp := adm.hp, pages := pagesOf adm }) m p)))
  ∧ (∀ s now u p m t, p.op = opGetRsp → m.op = opGetReq → ReachesMessage s now p m t →
      isAcked m p.psn = true ∨ mhas m.copies p.psn = false →
      exec (.getRspArrived now u p) s = .next (settled s (inc t F.tpCnt2Dup)))
  ∧ (∀ s now u p m t, p.op = opAtomicRsp → m.op = opAtomic → ReachesMessage s now p m t → m.kept = none →
      exec (.atomicRspArrived now u p) s
        = .next (settled s (
            let v := updateW (if opAcked m then t else sampleFrom t m 0 0 t.timeNs) m (hasFlag p flEce) (unackedBytes m)
            let w := ackPsns v m [0]
            let n := { w.2 with kept := some p.payload, timerAt := none }
            placeKept (setSlot w.1 n) n)))
  ∧ (∀ s now u p m t, p.op = opLockRsp → m.op = opLock → ReachesMessage s now p m t → m.kept = none →
      exec (.lockRspArrived now u p) s
        = .next (settled s (
            let v := updateW (if opAcked m then t else sampleFrom t m 0 0 t.timeNs) m (hasFlag p flEce) (unackedBytes m)
            let w := ackPsns v m [0]
            let n := { w.2 with kept := some p.payload, timerAt := none }
            placeKept (setSlot w.1 n) n)))
  ∧ (∀ s now u p m t, p.op = opAck → ReachesMessage s now p m t →
      exec (.ackArrived now u p) s = .next (settled s (ackMsg t m p t.timeNs)))
  ∧ (∀ s now u p m t, p.op = opNack → ReachesMessage s now p m t →
      exec (.nackArrived now u p) s = .next (settled s (nackMsg t m p)))
  ∧ (∀ s now u p t, TakenIn s now p t →
      let v := pmSample t 0 1 (arrivalId p) [p.ec, p.op, p.off, p.src, p.dst, p.tc, p.len]
      let e := if mhas v.tp.quarantine p.msgid then inc v F.tpLateRspLate else inc v F.tpLateRspStray
      slotOf v p.msgid = none →
      (p.op = opAck → exec (.ackArrived now u p) s = .next (settled s e))
      ∧ (p.op = opNack → exec (.nackArrived now u p) s = .next (settled s e))
      ∧ (p.op = opGetRsp → exec (.getRspArrived now u p) s = .next (settled s e))
      ∧ (p.op = opAtomicRsp → exec (.atomicRspArrived now u p) s = .next (settled s e))
      ∧ (p.op = opLockRsp → exec (.lockRspArrived now u p) s = .next (settled s e)))

/-- LOCK_NOTICE_ARRIVED, CL_UP_ARRIVED, CL_DOWN_ARRIVED, CL_ACK_ARRIVED, CL_ABORT_ARRIVED, CL_BUSY_ARRIVED, EX_BATCH_ARRIVED and
EX_CREDIT_ARRIVED, of a packet taken in, in RUN. LOCK_BOOST goes to the owner function's EQ. A DATA packet of a child is counted and taken
in by dataUp; one of the parent is counted, and acknowledged by an aborted group, taken in by takeDown for an operation under way,
acknowledged and counted in DUP for one that is over, and counted in STRAY otherwise. A hop ACK releases the kept packet that it names; an
ABORT, which counts in DUP in an aborted group, is acknowledged and aborts the group with its cause; a BUSY marks the packet that it names
for a resend. A collective packet of no neighbour counts in STRAY. A batch is counted as work of its job and taken in by takeBatch: for a
job that is not open for its EC the answer is a credit CLOSED, on a port that does not serve one FAILED. A credit is taken in by takeCredit:
for a job with anything outstanding CLOSED and FAILED fail the job. What it takes from the model's own readings stands in log entry 35. -/
def Obligations.CollectiveAndExchangeArrivalsComplete : Prop :=
  (∀ s now u p t, TakenIn s now p t → baseOf t = 2 → enteringTest t = false → p.op = opLockNotice →
      exec (.lockNoticeArrived now u p) s
        = .next (settled s (event t (bits (payloadWord p 0) 21 1) (bits (payloadWord p 0) 13 8)
            (0x60 + bits (payloadWord p 0) 8 36 * 2 ^ 8) (payloadWord p 1))))
  ∧ (∀ s now u p t g i, TakenIn s now p t → baseOf t = 2 → enteringTest t = false → p.op = opClUp → p.key % 8 = 0 →
      clNeighbour t p = some (g, some i) →
      exec (.clUpArrived now u p) s = .next (settled s (dataUp (pmCount (work t 2 g p.tc) 0x80 g 1 1) g i p)))
  ∧ (∀ s now u p t g, TakenIn s now p t → baseOf t = 2 → enteringTest t = false → p.op = opClDown → p.key % 8 = 0 → clNeighbour t p = some (g, none) →
      exec (.clDownArrived now u p) s
        = .next (settled s (
            let v := pmCount (work t 2 g p.tc) 0x80 g 1 1
            if rd v F.clGroupState g = 2 then ackColl v p
            else if mhas (grp v g).ops p.msgid then takeDown v g p
            else if seqBehind (rd v F.clGroupOpSeq g) p.msgid < 2 ^ 23 ∧ p.msgid ≠ rd v F.clGroupOpSeq g then ackColl (inc v F.clCnt0Dup) p
            else inc v F.clCnt1Stray)))
  ∧ (∀ s now u p t g c, TakenIn s now p t → baseOf t = 2 → enteringTest t = false → isClKind p 1 = true → clNeighbour t p = some (g, c) →
      exec (.clAckArrived now u p) s
        = .next (settled s (refreshGrp (dropSends t g fun k =>
            k.up == (p.op == opClDown) && k.dev == p.src && k.seq == p.msgid && k.psn == p.psn) g)))
  ∧ (∀ s now u p t g c, TakenIn s now p t → baseOf t = 2 → enteringTest t = false → isClKind p 2 = true → clNeighbour t p = some (g, c) →
      exec (.clAbortArrived now u p) s
        = .next (settled s (
            let v := if rd t F.clGroupState g = 2 then inc t F.clCnt0Dup else t
            abortGrp (ackColl v p) g p.msgid (bits p.key 16 8) (some p.src))))
  ∧ (∀ s now u p t g c, TakenIn s now p t → baseOf t = 2 → enteringTest t = false → isClKind p 3 = true → clNeighbour t p = some (g, c) →
      exec (.clBusyArrived now u p) s
        = .next (settled s (setGrp t g { grp t g with sends := mmap (grp t g).sends fun _ k =>
            if k.up == (p.op == opClDown) && k.dev == p.src && k.kind == 0 && k.seq == p.msgid && k.psn == p.psn then
              { k with busy := true, at' := t.timeNs } else k })))
  ∧ (∀ s now u p t, TakenIn s now p t → baseOf t = 2 → enteringTest t = false → clNeighbour t p = none →
      (p.op = opClUp ∧ p.key % 8 = 0 → exec (.clUpArrived now u p) s = .next (settled s (inc t F.clCnt1Stray)))
      ∧ (p.op = opClDown ∧ p.key % 8 = 0 → exec (.clDownArrived now u p) s = .next (settled s (inc t F.clCnt1Stray)))
      ∧ (isClKind p 1 = true → exec (.clAckArrived now u p) s = .next (settled s (inc t F.clCnt1Stray)))
      ∧ (isClKind p 2 = true → exec (.clAbortArrived now u p) s = .next (settled s (inc t F.clCnt1Stray)))
      ∧ (isClKind p 3 = true → exec (.clBusyArrived now u p) s = .next (settled s (inc t F.clCnt1Stray))))
  ∧ (∀ s now u p t, TakenIn s now p t → baseOf t = 2 → enteringTest t = false → p.op = opExBatch →
      exec (.exBatchArrived now u p) s = .next (settled s (takeBatch (work t 3 (p.key % 256) p.tc) p)))
  ∧ (∀ t p, let j := p.key % 256
      64 ≤ j ∨ rd t F.exJobState (j % 64) ≠ 1 ∨ rd t F.exJobRxEc (j % 64) ≠ p.ec →
      takeBatch t p = sendCredit (inc t F.exCnt3ClosedRx) j p.src p.ec p.tc p.msgid 2 {})
  ∧ (∀ t p, let j := p.key % 256
      j < 64 → rd t F.exJobState j = 1 → rd t F.exJobRxEc j = p.ec → serving t (rd t F.exJobHp j) = false →
      takeBatch t p = sendCredit t j p.src p.ec p.tc p.msgid 3 (mgetD (job t j).recvs p.src {}))
  ∧ (∀ s now u p t, TakenIn s now p t → baseOf t = 2 → enteringTest t = false → p.op = opExCredit →
      exec (.exCreditArrived now u p) s = .next (settled s (takeCredit t p)))
  ∧ (∀ t p status, let j := p.key % 256
      j < 64 → rd t F.exJobState j = 1 → status = bits (ofBytes (p.payload.take 8)) 45 3 → status = 2 ∨ status = 3 →
      ((job t j).batches.isEmpty && (job t j).sends.isEmpty) = false →
      takeCredit t p = failJob t j (if status = 2 then 3 else 2) p.src)

/-- PACKET_INJECT and CONTEXT_FETCH_DONE. A message that may send, whose source read fits, whose context is cached, and whose kiln gate and
policer are passed: with room in the flow window and the end-to-end window its next packet joins the injection scheduler, once its source or
result bytes, where it has any there, translate; without room in the end-to-end window it waits, and counts once; without room in the flow
window it waits. A message whose context is not cached has it fetched when its range serves. A fetched context whose range serves lets the
packets parked for it be processed in their order of arrival, after the stack's loss is noted when its first copy could not be corrected;
one whose range does not serve drops them by R272. What it takes from the model's own readings stands in log entries 9, 11 and 77. -/
def Obligations.InjectionAndContextFetchComplete : Prop :=
  (∀ s now id read m t, t = atTime s now → slotOf s id = some m → maySend t m = true → readFits m read = true → cached t m.ec = true →
      m.gate = true → m.polPassed = true → flowCount t m ≠ 0 →
      windowed m = false ∨ e2eRoom t m.dst (flitsOf (packetPayload m m.next (flowCount t m) (nextData m read)).length) = true →
      localSpan m (flowCount t m) = none →
      exec (.packetInject now id read) s = .next (settled s (queueRequest t m (flowCount t m) (nextData m read))))
  ∧ (∀ s now id read m t dva n cls u l, t = atTime s now → slotOf s id = some m → maySend t m = true → readFits m read = true →
      cached t m.ec = true → m.gate = true → m.polPassed = true → flowCount t m ≠ 0 →
      windowed m = false ∨ e2eRoom t m.dst (flitsOf (packetPayload m m.next (flowCount t m) (nextData m read)).length) = true →
      localSpan m (flowCount t m) = some (dva, n, cls) → translateAdm t (msgAdm t m dva n cls) = (u, .ok l) →
      exec (.packetInject now id read) s
        = .next (settled s (queueRequest (if cls = 0 then readPieces u (msgAdm t m dva n cls).hp l else u) m (flowCount t m)
            (nextData m read))))
  ∧ (∀ s now id read m t, t = atTime s now → slotOf s id = some m → maySend t m = true → readFits m read = true → cached t m.ec = true →
      m.gate = true → m.polPassed = true → flowCount t m ≠ 0 → windowed m = true →
      e2eRoom t m.dst (flitsOf (packetPayload m m.next (flowCount t m) (nextData m read)).length) = false →
      exec (.packetInject now id read) s
        = .next (settled s (setSlot (if m.stalledE2e then t else inc t F.rtCnt1E2eStall) { m with stalledE2e := true })))
  ∧ (∀ s now id read m t, t = atTime s now → slotOf s id = some m → maySend t m = true → readFits m read = true → cached t m.ec = true →
      m.gate = true → m.polPassed = true → flowCount t m = 0 →
      exec (.packetInject now id read) s = .next (settled s (setSlot t m)))
  ∧ (∀ s now id read m t, t = atTime s now → slotOf s id = some m → maySend t m = true → readFits m read = true →
      (ctxOf t m.ec).isSome = true → cached t m.ec = false →
      exec (.packetInject now id read) s = .next (settled s (if rangeServes t m.ec then fetchCtx t m.ec else t)))
  ∧ (∀ s now ec ue e,
      let t := match ue with
        | some h => if mhas s.tp.cache ec then hbmLost (atTime s now) h else atTime s now
        | none => atTime s now
      mget t.tp.cache ec = some e → e.fetching = true → rangeServes t ec = true →
      exec (.contextFetchDone now ec ue) s
        = .next (settled s ((mgetD t.tp.parked ec []).foldl (fun x y => deliverPkt x y.2 y.1)
            (setTp t fun v => { v with cache := mset v.cache ec { e with fetching := false }, parked := mdel v.parked ec }))))
  ∧ (∀ s now ec e, mget s.tp.cache ec = some e → e.fetching = true → rangeServes (atTime s now) ec = false →
      exec (.contextFetchDone now ec none) s = .next (settled s (dropParked (atTime s now))))

/-- RETRANSMIT_TIMER_EXPIRED, NACK_BACKOFF_EXPIRED, NACK_WAIT_LIMIT_EXPIRED, ACK_TIME_EXPIRED, RECEIVER_RECORD_EXPIRED,
MSGID_QUARANTINE_END, FLOW_ENTRY_IDLE, RDV_LIMIT_EXPIRED and RDV_CLOSE_EXPIRED, each once its time has passed. Outside HOLD, a message's
timer counts a retry and queues copies of the pending packets that do not wait for a backoff, or fails the message as RETRY_EXHAUSTED when
its retries are used up or one of them may have no further copy; with every one waiting it starts again. A NACKed packet whose backoff has
passed is queued again, of a GET with every other one that is due, or fails its message when one may have no further copy. A packet still
NACKed NACK_WAIT_MS after its first copy fails its message as NACKED. An arrival that has waited TIME_NS is acknowledged with the time it
waited. A record goes at STAMP plus 2 ms, an incomplete one counted, and a held flag leaves its region. A MSGID leaves quarantine after 2
ms. A flow with nothing in flight for 100 µs gives up its entry. A rendezvous send ends RDV_LIMIT_MS after its RTS was sent, and a closing
EC ends its entries RDV_CLOSE_MS after its close. What it takes from the model's own readings stands in log entries 97 and 105. -/
def Obligations.MessageAndRecordTimersComplete : Prop :=
  (∀ s now id m at', slotOf s id = some m → m.timerAt = some at' → holdOn s = false → m.finish = none →
      m.kept = none ∨ m.op = opGetReq → m.op ≠ opGetReq ∨ m.stall = none → at' + m.timerLen ≤ now → m.quietUntil ≤ now →
      let t := atTime s now
      let free := (pendingPsns m).filter fun k => match mget m.copies k with
        | some c => !c.waiting
        | none => false
      exec (.retransmitTimerExpired now id) s
        = .next (settled s (
            if free = [] then setSlot t (armTimer t m)
            else if rd s F.tpRetryRetries < m.retries + 1
                ∨ (free.any fun k => match mget m.copies k with | some c => !copyAllowed t c | none => false) = true then failMsg t m 1 0
            else
              let r := resendAll t m free
              setSlot r.1 (armTimer r.1 { r.2 with retries := r.2.retries + 1 }))))
  ∧ (∀ s now id psn m c, slotOf s id = some m → mget m.copies psn = some c → c.waiting = true → c.waitUntil ≤ now → m.finish = none →
      let t := atTime s now
      let l := (if m.op = opGetReq then pendingPsns m else [psn]).filter fun k => (match mget m.copies k with
        | some x => x.waiting && decide (x.waitUntil ≤ t.timeNs)
        | none => false) && !isAcked m k
      l ≠ [] →
      exec (.nackBackoffExpired now id psn) s
        = .next (settled s (
            if (l.any fun k => match mget m.copies k with | some x => !copyAllowed t x | none => false) = true then failMsg t m 1 0
            else setSlot (resendAll t m l).1 (resendAll t m l).2)))
  ∧ (∀ s now id psn m c, slotOf s id = some m → mget m.copies psn = some c → c.waiting = true → isAcked m psn = false →
      m.finish = none → c.firstEver + ms (rd s F.tpRetryNackWaitMs) ≤ now →
      exec (.nackWaitLimitExpired now id psn) s = .next (settled s (failMsg (atTime s now) m 3 c.nackKind)))
  ∧ (∀ s now src id r at' psn, mget s.tp.recs (recKey src id) = some r → r.firstAt = some (at', psn) →
      at' + rd s F.tpAckTimeNs ≤ now →
      exec (.ackTimeExpired now src id) s
        = .next (settled s (sendAck (atTime s now) (recKey src id) r psn (max s.timeNs now - at') false)))
  ∧ (∀ s (now : Nat) src id r, mget s.tp.recs (recKey src id) = some r → r.stamp + 2000000 ≤ (now : Int) →
      exec (.receiverRecordExpired now src id) s
        = .next (settled s (
            let t := if r.done then atTime s now else inc (atTime s now) F.tpCnt5RecExpire
            let t := match r.flag with
              | some f => leave t f.mr
              | none => t
            refreshMt (setMt (setTp t fun x => { x with recs := mdel x.recs (recKey src id) })
              fun m => { m with early := mdel m.early (recKey src id) }))))
  ∧ (∀ s now id at', mget s.tp.quarantine id = some at' → at' + ms 2 ≤ now →
      exec (.msgidQuarantineEnd now id) s
        = .next (settled s (setTp (atTime s now) fun t => { t with quarantine := mdel t.quarantine id })))
  ∧ (∀ s now ec dst tc f, mget s.tp.flows (flowKey ec dst tc) = some f → flowInFlight s (flowKey ec dst tc) = false →
      f.lastAt + us 100 ≤ now →
      exec (.flowEntryIdle now ec dst tc) s
        = .next (settled s (setTp (atTime s now) fun t => { t with flows := mdel t.flows (flowKey ec dst tc) })))
  ∧ (∀ s now i r at', mget s.mt.rdv i = some r → r.sentAt = some at' → rd s F.mtCfgRdvLimitMs ≠ 0 →
      at' + ms (rd s F.mtCfgRdvLimitMs) ≤ now →
      exec (.rdvLimitExpired now i) s = .next (settled s (startWaiting (endRdvEntry (atTime s now) i r))))
  ∧ (∀ s now ec c, mget s.tp.ecs ec = some c → c.closing = true → c.closeAt + ms (rd s F.mtCfgRdvCloseMs) ≤ now →
      exec (.rdvCloseExpired now ec) s = .next (settled s (endClose (atTime s now) ec)))

/-- XL_INVAL_CMD_WRITE, XL_INVAL_COMPLETE, XL_DOM_WRITE, DOMAIN_SWEEP_DONE, PAGE_WALK_DONE and XL_PKRR_WRITE. A served XL_INVAL_CMD of PF0,
with fewer than 16 pending and PAGES 1 to 65,536 in scope PAGES, takes the next number and starts an invalidation of its scope; one that
does not meet this, or is another writer's, is refused. A ready invalidation goes; one with a number advances DONE to it, and one of an
INVAL descriptor completes the descriptor; one that is not ready stays. A served XL_DOM write of PF0 of port hp changes the entry when VALID
is 0 or HP is hp, as long as it does not set VALID for another port or while a sweep runs, and does not move a valid entry's HP, FUNC or
ROOT; clearing VALID starts a sweep; any other write is refused. A sweep's end clears SWEEP. A walk that ends with a leaf installs it in L1
and L2 unless it was cancelled, and its waiters go on; one that ends with a fault hands the fault to each waiter. A 64-bit store of XL_PKRR
through an enabled function's page that is bound to a WQ writes bits 31:0 into the context of the WQ's EC; a narrower one changes
nothing. What it takes from the model's own readings stands in log entries 15, 22 and 105. -/
def Obligations.TranslationCommandsComplete : Prop :=
  (∀ s hp width val, Served s (.fn hp 0) → 64 ≤ width → wordLegal (fieldsAt 0x06000108) val = true →
      (mcount s.xl.invals fun _ v => v.seq.isSome) < 16 →
      wordGet val 0 2 ≠ 1 ∨ (1 ≤ wordGet val 30 17 ∧ wordGet val 30 17 ≤ 65536) →
      exec (.xlInvalCmdWrite (.fn hp 0) width val) s
        = .next (settled s (viaGate s (.fn hp 0) fun t =>
            let seq := (rd t F.xlInvalStatIssued + 1) % 2 ^ 32
            startInval (wr t F.xlInvalStatIssued seq) (some seq) (wordGet val 0 2) (wordGet val 16 12) (rd t F.xlInvalAddrDva)
              (wordGet val 30 17) none)))
  ∧ (∀ s who width val, Served s who → 64 ≤ width → wordLegal (fieldsAt 0x06000108) val = true →
      (∀ hp, who ≠ .fn hp 0) ∨ 16 ≤ (mcount s.xl.invals fun _ v => v.seq.isSome)
        ∨ (wordGet val 0 2 = 1 ∧ (wordGet val 30 17 = 0 ∨ 65536 < wordGet val 30 17)) →
      exec (.xlInvalCmdWrite who width val) s = .next (settled s (viaGate s who refuseWrite)))
  ∧ (∀ s now id v q, mget s.xl.invals id = some v → v.seq = some q → v.origin = none → invalReady s id v = true →
      exec (.xlInvalComplete now id) s
        = .next (settled s (wr (setXl (atTime s now) fun x => { x with invals := mdel x.invals id }) F.xlInvalStatDone q)))
  ∧ (∀ s now id v o, mget s.xl.invals id = some v → v.seq = none → v.origin = some o → invalReady s id v = true →
      exec (.xlInvalComplete now id) s
        = .next (settled s (descDone (setXl (atTime s now) fun x => { x with invals := mdel x.invals id }) o 0 0 0 0 0 0)))
  ∧ (∀ s now id v, mget s.xl.invals id = some v → invalReady s id v = false →
      exec (.xlInvalComplete now id) s = .next (settled s (atTime s now)))
  ∧ (∀ s hp d width val, Served s (.fn hp 0) → 64 ≤ width → d < 4096 → wordLegal (fieldsAt (F.xlDomValid.key d)) val = true →
      rdb s F.xlDomValid d = false ∨ rd s F.xlDomHp d = hp →
      (wordGet val 63 1 = 1 → wordGet val 62 1 = hp ∧ rdb s F.xlDomSweep d = false) →
      (rdb s F.xlDomValid d = true → wordGet val 62 1 = rd s F.xlDomHp d ∧ wordGet val 54 8 = rd s F.xlDomFunc d
        ∧ wordGet val 12 40 = rd s F.xlDomRoot d) →
      exec (.xlDomWrite (.fn hp 0) d width val) s
        = .next (settled s (viaGate s (.fn hp 0) fun t =>
            let u := csrPut t (F.xlDomValid.key d) (wordWrite (locked t (F.xlDomValid.key d)) (fieldsAt (F.xlDomValid.key d))
              (csrRaw t (F.xlDomValid.key d)) val)
            if rdb t F.xlDomValid d = true ∧ wordGet val 63 1 = 0 then sweepDomain u d else u)))
  ∧ (∀ s who d width val, Served s who → 64 ≤ width → d < 4096 → wordLegal (fieldsAt (F.xlDomValid.key d)) val = true →
      (∀ hp, who ≠ .fn hp 0) ∨ (∃ hp, who = .fn hp 0 ∧ rdb s F.xlDomValid d = true ∧ rd s F.xlDomHp d ≠ hp)
        ∨ (∃ hp, who = .fn hp 0 ∧ wordGet val 63 1 = 1 ∧ (wordGet val 62 1 ≠ hp ∨ rdb s F.xlDomSweep d = true))
        ∨ (rdb s F.xlDomValid d = true ∧ (wordGet val 62 1 ≠ rd s F.xlDomHp d ∨ wordGet val 54 8 ≠ rd s F.xlDomFunc d
          ∨ wordGet val 12 40 ≠ rd s F.xlDomRoot d)) →
      exec (.xlDomWrite who d width val) s = .next (settled s (viaGate s who refuseWrite)))
  ∧ (∀ s d, d ∈ s.xl.sweeps →
      exec (.domainSweepDone d) s
        = .next (settled s (wrb (setXl s fun x => { x with sweeps := x.sweeps.erase d }) F.xlDomSweep false d)))
  ∧ (∀ s now id reads w leaf, mget s.xl.walks id = some w → w.running = true →
      walk (atTime s now) w.dom reads = .leaf leaf →
      exec (.pageWalkDone now id reads) s
        = .next (settled s (
            let t := atTime s now
            let u := if w.cancelled = true then t else fillL2 (fillL1 t (pageKey w.dom w.page) leaf) (pageKey w.dom w.page) leaf
            w.waiters.foldl (fun x y => resumeWaiter x y.2) (endWalk u id))))
  ∧ (∀ s now id reads w kind level, mget s.xl.walks id = some w → w.running = true →
      walk (atTime s now) w.dom reads = .fault kind level →
      exec (.pageWalkDone now id reads) s
        = .next (settled s (w.waiters.foldl (fun x y => waiterFault x y.2 w.dom y.1 kind level) (endWalk (atTime s now) id))))
  ∧ (∀ s hp fn page val k w c, fnSilent s hp fn = false → fnEnabled s hp fn = true → pageWq s hp fn page = some k →
      mget s.hi.wqs k = some w → ctxOf s w.ec = some c →
      exec (.xlPkrrWrite hp fn page 64 val) s = .next (settled s (setCtx s w.ec { c with pkrr := val.toNat % 2 ^ 32 })))
  ∧ (∀ s hp fn page width val, width ≠ 64 → exec (.xlPkrrWrite hp fn page width val) s = .next (settled s s))

/-- HOST_ACCESS_FINISHED, MR_CMD_REVOKE, REVOKE_FLUSH_READ_DONE, MR_PAGE_RESOLVE_RETRY, MR_PAGE_RESOLVE_FAIL, FAULT_RESOLVE_LIMIT_EXPIRED
and FAULT_FAIL_HOLD_EXPIRED. A finished write leaves the accesses; a finished read answers its GET_REQ with the data; an atomic's word read
gives the operation its old value; reads that failed answer TARGET_ERROR, and an atomic's word is free again. A served MR_CMD of PF0 of a
port or of the management controller with CMD = REVOKE and fewer than 64 pending takes the next number: a key that names no region ends
NOT_FOUND (1); a region being revoked takes the command along; any other begins its revocation. CMD = NONE changes nothing; a 65th is
refused. When a region's zero-length read has completed, the region is FREE, and the commands and descriptors that wait for it complete.
RETRY of an entry of a domain of the writer's port releases its stalled work and frees it; FAIL of an entry that has not failed ends its
stalled work with its kind and keeps the entry FAILED; both are refused for an entry that does not exist or for another port's domain. An
entry open for RESOLVE_LIMIT_MS fails; a FAILED one is freed after FAIL_HOLD_MS. What it takes from the model's own readings stands in
log entry 9. -/
def Obligations.RegionCommandsComplete : Prop :=
  (∀ s now id a data ok, mget s.mr.accs id = some a → a.what = .write →
      exec (.hostAccessFinished now id data ok) s = .next (settled s (endAcc (atTime s now) id a)))
  ∧ (∀ s now id a p data, mget s.mr.accs id = some a → a.what = .getRead p → accFits a data = true →
      exec (.hostAccessFinished now id data true) s
        = .next (settled s (pmSample (answerGet (endAcc (atTime s now) id a) p data) 2 1 (arrivalId p) [0])))
  ∧ (∀ s now id a p data, mget s.mr.accs id = some a → a.what = .getRead p →
      exec (.hostAccessFinished now id data false) s = .next (settled s (mrRefuse (endAcc (atTime s now) id a) p 11 0)))
  ∧ (∀ s now id a p pa d page l data, mget s.mr.accs id = some a → a.what = .atomic p pa → a.pages = (d, page) :: l →
      accFits a data = true →
      exec (.hostAccessFinished now id data true) s
        = .next (settled s (finishOp (pmSample (endAcc (atTime s now) id a) 2 1 (arrivalId p) [0]) p
            (wordKey d (page * 4096 + pa % 4096)) a.hp pa (ofBytes (data.take 8)))))
  ∧ (∀ s now id a p pa d page l data, mget s.mr.accs id = some a → a.what = .atomic p pa → a.pages = (d, page) :: l →
      exec (.hostAccessFinished now id data false) s
        = .next (settled s (
            let k := wordKey d (page * 4096 + pa % 4096)
            let t := setAt (endAcc (atTime s now) id a) fun x => { x with busy := x.busy.erase k }
            drainOps ((mgetD t.at'.waitq k []).length + 1) (mrRefuse t p 11 0) k)))
  ∧ (∀ s who width val, Served s who → 64 ≤ width → wordLegal (fieldsAt 0x06800008) val = true → isPf0 who = true →
      wordGet val 32 2 = 1 → (rd s F.mrCmdStatIssued + 65536 - rd s F.mrCmdStatDone) % 65536 < 64 →
      exec (.mrCmdRevoke who width val) s
        = .next (settled s (viaGate s who fun t =>
            let seq := (rd t F.mrCmdStatIssued + 1) % 65536
            let u := wr t F.mrCmdStatIssued seq
            match regionOf u (wordGet val 0 32) with
            | none => cmdResult u seq 1
            | some i =>
              match mget u.mr.revokes i with
              | some r => setMr u fun m => { m with revokes := mset m.revokes i { r with seqs := r.seqs ++ [(seq, 2)] } }
              | none => markRevoking u i ⟨[(seq, 0)], [], false⟩)))
  ∧ (∀ s who width val, Served s who → 64 ≤ width → wordLegal (fieldsAt 0x06800008) val = true → isPf0 who = true →
      wordGet val 32 2 = 0 →
      exec (.mrCmdRevoke who width val) s = .next (settled s (viaGate s who id)))
  ∧ (∀ s who width val, Served s who → 64 ≤ width → wordLegal (fieldsAt 0x06800008) val = true →
      isPf0 who = false ∨ (wordGet val 32 2 ≠ 0 ∧ 64 ≤ (rd s F.mrCmdStatIssued + 65536 - rd s F.mrCmdStatDone) % 65536) →
      exec (.mrCmdRevoke who width val) s = .next (settled s (viaGate s who refuseWrite)))
  ∧ (∀ s now i r, mget s.mr.revokes i = some r → r.reading = true →
      exec (.revokeFlushReadDone now i) s
        = .next (settled s (
            let u := freeEntry (setMr (atTime s now) fun m => { m with revokes := mdel m.revokes i }) i
            let v := r.seqs.foldl (fun x q => cmdResult x q.1 q.2) u
            r.descs.foldl (fun x d => descDone x d.1 0 0 0 0 d.2 0) v)))
  ∧ (∀ s hp width id f, Served s (.fn hp 0) → 64 ≤ width → id < 4096 → mget s.mr.faults id = some f →
      rdb s F.xlDomValid f.dom = true → rd s F.xlDomHp f.dom = hp →
      exec (.mrPageResolveRetry (.fn hp 0) width id) s
        = .next (settled s (viaGate s (.fn hp 0) fun t => resolveRetry t id)))
  ∧ (∀ s hp width id, Served s (.fn hp 0) → 64 ≤ width → id < 4096 →
      (∀ f, mget s.mr.faults id = some f → rdb s F.xlDomValid f.dom = false ∨ rd s F.xlDomHp f.dom ≠ hp) →
      exec (.mrPageResolveRetry (.fn hp 0) width id) s = .next (settled s (viaGate s (.fn hp 0) refuseWrite)))
  ∧ (∀ s now hp width id f, Served s (.fn hp 0) → 64 ≤ width → id < 4096 → mget s.mr.faults id = some f → f.failed = false →
      rdb s F.xlDomValid f.dom = true → rd s F.xlDomHp f.dom = hp →
      exec (.mrPageResolveFail now (.fn hp 0) width id) s
        = .next (settled s (viaGate (atTime s now) (.fn hp 0) fun t => resolveFail t id f)))
  ∧ (∀ s now hp width id, Served s (.fn hp 0) → 64 ≤ width → id < 4096 →
      (∀ f, mget s.mr.faults id = some f → rdb s F.xlDomValid f.dom = false ∨ rd s F.xlDomHp f.dom ≠ hp) →
      exec (.mrPageResolveFail now (.fn hp 0) width id) s
        = .next (settled s (viaGate (atTime s now) (.fn hp 0) refuseWrite)))
  ∧ (∀ s now id f, mget s.mr.faults id = some f → f.failed = false →
      f.since + ms (rd s F.mrPageCfgResolveLimitMs) ≤ (atTime s now).timeNs →
      exec (.faultResolveLimitExpired now id) s = .next (settled s (resolveFail (atTime s now) id f)))
  ∧ (∀ s now id f, mget s.mr.faults id = some f → f.failed = true →
      f.since + ms (rd s F.mrPageCfgFailHoldMs) ≤ (atTime s now).timeNs →
      exec (.faultFailHoldExpired now id) s = .next (settled s (freeFault (atTime s now) id)))

/-- CXL_MEM_READ, CXL_MEM_WRITE, CXL_MEM_WRITE_PARTIAL, CXL_MEM_SPEC_READ and HDM_DECODER_COMMIT. An access over a port whose link is up,
outside RELAY, inside a committed decoder of the port, begins at its window offset (a write with 64 bytes of data, a partial one with 64
enables as well); outside every committed decoder a read answers with poison, and a write is completed, dropped and counted in NO_SPAN. An
access over a port that does not take any leaves everything but the port's L1 state. A MemSpecRd has no effect. A commit of decoder 0 to 7
of an answering port, with one way, base and size multiples of 256 MiB and its range within 128 TiB, commits it; any other is left not
committed, with its error flag. What it takes from the model's own readings stands in log entries 22, 60 and 73. -/
def Obligations.WindowAccessesComplete : Prop :=
  (∀ s now hp addr off t, t = wakePort (atTime s now) hp → cxlArrives t hp = true → hdmDecode t hp addr = some off →
      exec (.cxlMemRead now hp addr) s = .next (settled s (beginGw t hp addr off 0 [] [] false)))
  ∧ (∀ s now hp addr t, t = wakePort (atTime s now) hp → cxlArrives t hp = true → hdmDecode t hp addr = none →
      exec (.cxlMemRead now hp addr) s = .next (settled s (emit t (.cxl hp addr [] true))))
  ∧ (∀ s now hp addr, cxlArrives (wakePort (atTime s now) hp) hp = false →
      exec (.cxlMemRead now hp addr) s = .next (settled s (wakePort (atTime s now) hp)))
  ∧ (∀ s now hp addr off data poison t, t = wakePort (atTime s now) hp → cxlArrives t hp = true → hdmDecode t hp addr = some off →
      data.length = 64 →
      exec (.cxlMemWrite now hp addr data poison) s = .next (settled s (beginGw t hp addr off 1 data [] poison)))
  ∧ (∀ s now hp addr data poison t, t = wakePort (atTime s now) hp → cxlArrives t hp = true → hdmDecode t hp addr = none →
      data.length = 64 →
      exec (.cxlMemWrite now hp addr data poison) s
        = .next (settled s (emit (inc t F.gwCnt2NoSpan) (.cxl hp addr [] false))))
  ∧ (∀ s now hp addr off data en poison t, t = wakePort (atTime s now) hp → cxlArrives t hp = true →
      hdmDecode t hp addr = some off → data.length = 64 → en.length = 64 →
      exec (.cxlMemWritePartial now hp addr data en poison) s = .next (settled s (beginGw t hp addr off 2 data en poison)))
  ∧ (∀ s now hp addr data en poison t, t = wakePort (atTime s now) hp → cxlArrives t hp = true →
      hdmDecode t hp addr = none → data.length = 64 → en.length = 64 →
      exec (.cxlMemWritePartial now hp addr data en poison) s
        = .next (settled s (emit (inc t F.gwCnt2NoSpan) (.cxl hp addr [] false))))
  ∧ (∀ s now, exec (.cxlMemSpecRead now) s = .next (settled s (atTime s now)))
  ∧ (∀ s hp i base size skip t, hp < 2 → i < 8 → fnSilent s hp 0 = false → base % 2 ^ 28 = 0 → size % 2 ^ 28 = 0 →
      t = setGw s (fun g => { g with hdm := mset g.hdm (hp * 8 + i) ⟨base, size, skip, true, false⟩ }) →
      hdmDpa t hp i + size ≤ 2 ^ 47 →
      exec (.hdmDecoderCommit hp i base size skip 1) s = .next (settled s t))
  ∧ (∀ s hp i base size skip ways t, hp < 2 → i < 8 → fnSilent s hp 0 = false →
      t = setGw s (fun g => { g with hdm := mset g.hdm (hp * 8 + i) ⟨base, size, skip, true, false⟩ }) →
      ways ≠ 1 ∨ base % 2 ^ 28 ≠ 0 ∨ size % 2 ^ 28 ≠ 0 ∨ 2 ^ 47 < hdmDpa t hp i + size →
      exec (.hdmDecoderCommit hp i base size skip ways) s
        = .next (settled s (setGw s fun g => { g with hdm := mset g.hdm (hp * 8 + i) ⟨base, size, skip, false, true⟩ })))

/-- FAR_CACHE_FETCH_DONE, WRITE_BACK_PUT_DONE, SHARED_RW_PUT_DONE, WB_RETRY_TIMER, GW_LIMIT_EXPIRED, GW_FLUSH_WRITEBACK, GW_FLUSH_EVICT,
GW_FLUSH_DISCARD and GW_FLUSH_COMPLETE. An ended fetch of a line goes through fetchEnd, an ended GET of one sector answers its access; an
ended write-back goes through wbEnd, and fetches that wait for a way look again; an ended PUT of a write answers its access. A kept line is
written back again WB_RETRY_MS after its failure. An access LIMIT_US old: a read returns poison; a write that is sent or waits under R368 is
lost; any other write waits on. A served flush command of PF0 of a port or of the management controller with a listed scope (RANGE: 1 to
1,048,576 lines) and fewer than 16 pending is accepted; a DISCARD only outside MGMT mode or from the management controller, and waiting
fetches look again after it; a command that does not meet this is refused. The earliest pending command completes when it is ready and no
flush of a port reset is: DONE takes its number and RESULT whether it failed; while it is not ready nothing changes. -/
def Obligations.WindowMessagesAndFlushesComplete : Prop :=
  (∀ s now id line no st data, mget s.gw.msgs id = some ⟨.fetch line no, some (st, data)⟩ →
      exec (.farCacheFetchDone now id) s = .next (settled s (fetchEnd (atTime s now) id line no st data)))
  ∧ (∀ s now id a st data, mget s.gw.msgs id = some ⟨.sector a, some (st, data)⟩ →
      exec (.farCacheFetchDone now id) s = .next (settled s (moveAccs (ownEnd (atTime s now) id a st data))))
  ∧ (∀ s now id line first n st data, mget s.gw.msgs id = some ⟨.writeBack line first n, some (st, data)⟩ →
      exec (.writeBackPutDone now id) s = .next (settled s (retryFills (wbEnd (atTime s now) id line first n st))))
  ∧ (∀ s now id a st data, mget s.gw.msgs id = some ⟨.put a, some (st, data)⟩ →
      exec (.sharedRwPutDone now id) s = .next (settled s (moveAccs (ownEnd (atTime s now) id a st data))))
  ∧ (∀ s now line l, mget s.gw.lines line = some l → l.kept = true →
      l.keptAt + ms (rd s F.gwCfgWbRetryMs) ≤ (atTime s now).timeNs →
      exec (.wbRetryTimer now line) s = .next (settled s (writeBack (atTime s now) line)))
  ∧ (∀ s now id a, mget s.gw.accs id = some a → a.op = 0 → a.since + us (rd s F.gwCfgLimitUs) ≤ (atTime s now).timeNs →
      exec (.gwLimitExpired now id) s = .next (settled s (moveAccs (poisonRead (atTime s now) id a))))
  ∧ (∀ s now id a, mget s.gw.accs id = some a → a.op ≠ 0 → a.since + us (rd s F.gwCfgLimitUs) ≤ (atTime s now).timeNs →
      rd s F.gwSpanMode (spanOf a.off) = 3 ∨ a.msgs ≠ [] ∨ a.stalled = true →
      exec (.gwLimitExpired now id) s = .next (settled s (moveAccs (loseWrite (atTime s now) id a))))
  ∧ (∀ s now id a, mget s.gw.accs id = some a → a.op ≠ 0 → rd s F.gwSpanMode (spanOf a.off) ≠ 3 → a.msgs = [] → a.stalled = false →
      exec (.gwLimitExpired now id) s = .next (settled s (atTime s now)))
  ∧ (∀ s who width scope lines, Served s who → 64 ≤ width → isPf0 who = true → 1 ≤ scope → scope ≤ 3 →
      (scope = 1 → 1 ≤ lines ∧ lines ≤ 1048576) → lines < 2 ^ 21 → flushesPending s < 16 →
      exec (.gwFlushWriteback who width scope lines) s = .next (settled s (viaGate s who fun t => acceptFlush t 1 scope lines)))
  ∧ (∀ s who width scope lines, Served s who → 64 ≤ width → scope < 4 → lines < 2 ^ 21 →
      isPf0 who = false ∨ scope = 0 ∨ (scope = 1 ∧ (lines = 0 ∨ 1048576 < lines)) ∨ 16 ≤ flushesPending s →
      exec (.gwFlushWriteback who width scope lines) s = .next (settled s (viaGate s who refuseWrite)))
  ∧ (∀ s who width scope lines, Served s who → 64 ≤ width → isPf0 who = true → 1 ≤ scope → scope ≤ 3 →
      (scope = 1 → 1 ≤ lines ∧ lines ≤ 1048576) → lines < 2 ^ 21 → flushesPending s < 16 →
      exec (.gwFlushEvict who width scope lines) s = .next (settled s (viaGate s who fun t => acceptFlush t 2 scope lines)))
  ∧ (∀ s who width scope lines, Served s who → 64 ≤ width → scope < 4 → lines < 2 ^ 21 →
      isPf0 who = false ∨ scope = 0 ∨ (scope = 1 ∧ (lines = 0 ∨ 1048576 < lines)) ∨ 16 ≤ flushesPending s →
      exec (.gwFlushEvict who width scope lines) s = .next (settled s (viaGate s who refuseWrite)))
  ∧ (∀ s who width scope lines, Served s who → 64 ≤ width → isPf0 who = true → 1 ≤ scope → scope ≤ 3 →
      (scope = 1 → 1 ≤ lines ∧ lines ≤ 1048576) → lines < 2 ^ 21 → flushesPending s < 16 →
      rd s F.gwSecMode ≠ 1 ∨ who = .mgmt →
      exec (.gwFlushDiscard who width scope lines) s
        = .next (settled s (retryFills (viaGate s who fun t => acceptFlush t 3 scope lines))))
  ∧ (∀ s who width scope lines, Served s who → 64 ≤ width → scope < 4 → lines < 2 ^ 21 →
      isPf0 who = false ∨ scope = 0 ∨ (scope = 1 ∧ (lines = 0 ∨ 1048576 < lines)) ∨ 16 ≤ flushesPending s
        ∨ (rd s F.gwSecMode = 1 ∧ who ≠ .mgmt) →
      exec (.gwFlushDiscard who width scope lines) s = .next (settled s (retryFills (viaGate s who refuseWrite))))
  ∧ (∀ s now f q, (∀ g, g ∈ s.gw.flushes → flushReady s g = true → g.seq ≠ none) →
      s.gw.flushes.find? (fun g => g.seq.isSome) = some f → f.seq = some q → flushReady s f = true →
      exec (.gwFlushComplete now) s
        = .next (settled s (
            let u := setGw (evictClean (atTime s now)) fun g => { g with flushes := g.flushes.erase f }
            moveAccs (wr (wr u F.gwFlushStatDone q) F.gwFlushStatResult (bit f.failed)))))
  ∧ (∀ s now f, (∀ g, g ∈ s.gw.flushes → flushReady s g = true → g.seq ≠ none) →
      s.gw.flushes.find? (fun g => g.seq.isSome) = some f → flushReady s f = false →
      exec (.gwFlushComplete now) s = .next (settled s (atTime s now)))

/-- DOORBELL_WRITE, PUSH_SLOT_WRITE and DESCRIPTOR_FETCH_DONE. A 64-bit doorbell of an enabled function, in RUN outside a TEST entry, over a
serving port, to a page with a WQ: one that advances PI within the ring stores PI and takes the pushed copies; one beyond the ring puts the
WQ into ERROR with cause 1; one that does not advance clears the push slots. One of a WQ in ERROR or being destroyed, of a page with no WQ,
in D3hot, outside RUN, in a TEST entry or over a port that does not serve is discarded and counted, and its push slots are cleared. A
narrower store leaves everything but the port's L1 state. Bytes pushed, 8 to 64 of them and 8-byte aligned, stand in their slot. The
descriptors of a ring read join the cache, each with the EC's XL_PKRR of that time, and a failed read puts the WQ into ERROR with cause
3. What it takes from the model's own readings stands in log entries 22, 62 and 73. -/
def Obligations.DoorbellAndFetchCommandsComplete : Prop :=
  (∀ s now hp fn page val t k w, t = wakePort (atTime s now) hp → pageWq t hp fn page = some k → mget t.hi.wqs k = some w →
      (portOf t hp).d3hot.contains fn = false → fnSilent t hp fn = false → fnEnabled t hp fn = true → baseOf t = 2 →
      enteringTest t = false → serving t hp = true → w.state ≠ .error → w.destroying = false → wordGet val 0 17 < 2 ^ (w.log2 + 1) →
      ringCount w.log2 (wordGet val 0 17) w.ci ≤ 2 ^ w.log2 → ringCount w.log2 (wordGet val 0 17) w.pi ≠ 0 →
      ringCount w.log2 w.pi w.ci ≤ ringCount w.log2 (wordGet val 0 17) w.ci →
      exec (.doorbellWrite now hp fn page 64 val) s
        = .next (settled s (acceptBell t k w (wordGet val 0 17) (min 4 (wordGet val 17 3)) (ringCount w.log2 (wordGet val 0 17) w.pi))))
  ∧ (∀ s now hp fn page val t k w, t = wakePort (atTime s now) hp → pageWq t hp fn page = some k → mget t.hi.wqs k = some w →
      (portOf t hp).d3hot.contains fn = false → fnSilent t hp fn = false → fnEnabled t hp fn = true → baseOf t = 2 →
      enteringTest t = false → serving t hp = true → w.state ≠ .error → w.destroying = false →
      2 ^ (w.log2 + 1) ≤ wordGet val 0 17 ∨ 2 ^ w.log2 < ringCount w.log2 (wordGet val 0 17) w.ci →
      exec (.doorbellWrite now hp fn page 64 val) s = .next (settled s (wqError (clearPush t k) k 1)))
  ∧ (∀ s now hp fn page val t k w, t = wakePort (atTime s now) hp → pageWq t hp fn page = some k → mget t.hi.wqs k = some w →
      (portOf t hp).d3hot.contains fn = false → fnSilent t hp fn = false → fnEnabled t hp fn = true → baseOf t = 2 →
      enteringTest t = false → serving t hp = true → w.state ≠ .error → w.destroying = false → wordGet val 0 17 < 2 ^ (w.log2 + 1) →
      ringCount w.log2 (wordGet val 0 17) w.ci ≤ 2 ^ w.log2 →
      ringCount w.log2 (wordGet val 0 17) w.pi = 0 ∨ ringCount w.log2 (wordGet val 0 17) w.ci < ringCount w.log2 w.pi w.ci →
      exec (.doorbellWrite now hp fn page 64 val) s = .next (settled s (clearPush t k)))
  ∧ (∀ s now hp fn page val t k w, t = wakePort (atTime s now) hp → pageWq t hp fn page = some k → mget t.hi.wqs k = some w →
      (portOf t hp).d3hot.contains fn = true ∨ fnSilent t hp fn = false → fnEnabled t hp fn = true →
      w.state = .error ∨ w.destroying = true ∨ (portOf t hp).d3hot.contains fn = true ∨ baseOf t ≠ 2 ∨ enteringTest t = true
        ∨ serving t hp = false →
      exec (.doorbellWrite now hp fn page 64 val) s
        = .next (settled s (clearPush (inc t F.qmFnStatDbDiscard 1 (fnIdx hp fn)) k)))
  ∧ (∀ s now hp fn page val t, t = wakePort (atTime s now) hp → pageWq t hp fn page = none →
      (portOf t hp).d3hot.contains fn = true ∨ fnSilent t hp fn = false → fnEnabled t hp fn = true →
      exec (.doorbellWrite now hp fn page 64 val) s = .next (settled s (inc t F.qmFnStatDbDiscard 1 (fnIdx hp fn))))
  ∧ (∀ s now hp fn page width val, width ≠ 64 →
      exec (.doorbellWrite now hp fn page width val) s = .next (settled s (wakePort (atTime s now) hp)))
  ∧ (∀ s hp fn page off bs t k, t = wakePort s hp → pageWq t hp fn page = some k → mhas t.hi.wqs k = true → fnSilent t hp fn = false →
      fnEnabled t hp fn = true → 0x100 ≤ off → off + bs.length ≤ 0x200 → off % 8 = 0 → bs.length % 8 = 0 → bs ≠ [] → bs.length ≤ 64 →
      exec (.pushSlotWrite hp fn page off bs) s
        = .next (settled s (
            let old := mgetD t.hi.push k [] ++ List.replicate (256 - (mgetD t.hi.push k []).length) none
            let new := old.take (off - 0x100) ++ bs.map some ++ old.drop (off - 0x100 + bs.length)
            setHi t fun h => { h with push := mset h.push k new })))
  ∧ (∀ s now hp wq ds w, mget s.hi.wqs (qKey hp wq) = some w → w.reading ≠ [] → ds.length = w.reading.length →
      (∀ d ∈ ds, d.length = 8) →
      exec (.descriptorFetchDone now hp wq ds true) s
        = .next (settled s (setWq (atTime s now) (qKey hp wq) { w with
            reading := [],
            cache := (w.reading.zip ds).foldl (fun m e => mset m e.1 (e.2 ++ [pkrrWord s w])) w.cache })))
  ∧ (∀ s now hp wq ds w, mget s.hi.wqs (qKey hp wq) = some w → w.reading ≠ [] →
      exec (.descriptorFetchDone now hp wq ds false) s
        = .next (settled s (wqError (setWq (atTime s now) (qKey hp wq) { w with reading := [] }) (qKey hp wq) 3)))

/-- DESC_NOP, DESC_PUT, DESC_GET, DESC_SEND, DESC_ATOMIC and DESC_LOCK, for the next descriptor of a WQ that may start. A NOP completes; a
reserved operation ends with kind 21. A well-formed PUT, GET, SEND (eager up to EAGER_MAX, by RTS above it), ATOMIC or LOCK starts a message
from its WQ's EC with the fields of Table 15-3 and the rights that the descriptor was fetched with. A descriptor with wrong fields ends with
the kind that its check gives: 22, or of an ATOMIC and a LOCK the first of 21 and 22. An ACQUIRE or TRY of a word whose ABANDON is not
confirmed ends locally with ALREADY_OWNER; any other LOCK of such a word is sent. What it takes from the model's own readings stands in
log entries 48, 49, 65, 68 and 106. -/
def Obligations.MessageDescriptorsComplete : Prop :=
  (∀ s now hp wq w d t k, t = atTime s now → k = qKey hp wq → Starts s now hp wq w d 0 →
      wordsOk d wCommon 0 0 0 0 0 0 = true → lenBad d = false →
      exec (.descNop now hp wq) s = .next (settled s (descDone (takeDesc t k w) (originOf k w d) 0 0 0 0 0 0)))
  ∧ (∀ s now hp wq w d t k, t = atTime s now → k = qKey hp wq → Starts s now hp wq w d 0 →
      wordsOk d wCommon 0 0 0 0 0 0 = false ∨ lenBad d = true →
      exec (.descNop now hp wq) s = .next (settled s (descFails t k w d 22)))
  ∧ (∀ s now hp wq w d t k op, t = atTime s now → k = qKey hp wq → Starts s now hp wq w d op → opKnown op = false → op ≠ 0 →
      exec (.descNop now hp wq) s = .next (settled s (descFails t k w d 21)))
  ∧ (∀ s now hp wq w d t k, t = atTime s now → k = qKey hp wq → Starts s now hp wq w d 1 → putBad d = false →
      exec (.descPut now hp wq) s
        = .next (settled s (startMsg (takeDesc t k w)
            { newMsg t w.ec (dEc d) (dDev d) (dTc d) opPut (dLen d + if dFlag d then 16 else 0)
                (max 1 (ceilDiv (dLen d + if dFlag d then 16 else 0) 4096)) (originOf k w d) with
              key := dword d 3, off := dword d 4, pkrr := dword d 8, buf := descBuf d,
              flag := if dFlag d then some (dword d 6, dword d 7) else none, bulk := descBulk t d })))
  ∧ (∀ s now hp wq w d t k, t = atTime s now → k = qKey hp wq → Starts s now hp wq w d 1 → putBad d = true →
      exec (.descPut now hp wq) s = .next (settled s (descFails t k w d 22)))
  ∧ (∀ s now hp wq w d t k, t = atTime s now → k = qKey hp wq → Starts s now hp wq w d 2 →
      wordsOk d wCommon wDest wKey wOff allBits 0 0 = false ∨ lenBad d = true ∨ dLen d = 0 →
      exec (.descGet now hp wq) s = .next (settled s (descFails t k w d 22)))
  ∧ (∀ s now hp wq w d t k, t = atTime s now → k = qKey hp wq → Starts s now hp wq w d 3 → sendBad t d = true →
      exec (.descSend now hp wq) s = .next (settled s (descFails t k w d 22)))
  ∧ (∀ s now hp wq w d t k kind, t = atTime s now → k = qKey hp wq → Starts s now hp wq w d 8 → atomicBad d = some kind →
      exec (.descAtomic now hp wq) s = .next (settled s (descFails t k w d kind)))
  ∧ (∀ s now hp wq w d t k kind, t = atTime s now → k = qKey hp wq → Starts s now hp wq w d 9 → lockBad d = some kind →
      exec (.descLock now hp wq) s = .next (settled s (descFails t k w d kind)))
  ∧ (∀ s now hp wq w d t k, t = atTime s now → k = qKey hp wq → Starts s now hp wq w d 2 →
      wordsOk d wCommon wDest wKey wOff allBits 0 0 = true → lenBad d = false → dLen d ≠ 0 →
      exec (.descGet now hp wq) s
        = .next (settled s (startMsg (takeDesc t k w)
            { newMsg t w.ec (dEc d) (dDev d) (dTc d) opGetReq (dLen d) (max 1 (ceilDiv (dLen d) 4096)) (originOf k w d) with
              key := dword d 3, off := dword d 4, pkrr := dword d 8, result := .dva (dword d 5), bulk := descBulk t d })))
  ∧ (∀ s now hp wq w d t k, t = atTime s now → k = qKey hp wq → Starts s now hp wq w d 3 → sendBad t d = false →
      dLen d ≤ rd t F.mtCfgEagerMax →
      exec (.descSend now hp wq) s
        = .next (settled s (startMsg (takeDesc t k w)
            { newMsg t w.ec (dEc d) (dDev d) (dTc d) opSend (16 + dLen d) (max 1 (ceilDiv (16 + dLen d) 4096)) (originOf k w d) with
              key := 0, off := 0, pkrr := dword d 8, order := dOrder d, buf := descBuf d, bulk := descBulk t d,
              prefixBytes := toBytes 8 (dword d 4)
                ++ toBytes 8 (dword d 3 % 2 ^ 16 + w.ec % 2 ^ 20 * 2 ^ 16 + dLen d * 2 ^ 36) })))
  ∧ (∀ s now hp wq w d t k, t = atTime s now → k = qKey hp wq → Starts s now hp wq w d 3 → sendBad t d = false →
      rd t F.mtCfgEagerMax < dLen d →
      exec (.descSend now hp wq) s
        = .next (settled s (startMsg (takeDesc t k w)
            { newMsg t w.ec (dEc d) (dDev d) (dTc d) opSendRts 32 1 (originOf k w d) with
              key := 0, off := 0, pkrr := dword d 8, order := dOrder d,
              prefixBytes := toBytes 8 (dword d 4) ++ toBytes 8 (dword d 3 % 2 ^ 16 + w.ec % 2 ^ 20 * 2 ^ 16)
                ++ toBytes 8 (dword d 7) ++ toBytes 8 (dword d 6 + dLen d * 2 ^ 32) })))
  ∧ (∀ s now hp wq w d t k, t = atTime s now → k = qKey hp wq → Starts s now hp wq w d 8 → atomicBad d = none →
      exec (.descAtomic now hp wq) s
        = .next (settled s (
            let bs := toBytes 8 (dSub d % 64) ++ toBytes 8 (dword d 6) ++ (if aopHas2 (dSub d % 32) then toBytes 8 (dword d 7) else [])
            startMsg (takeDesc t k w) { descMsg t k w d opAtomic bs.length with result := .dva (dword d 5), prefixBytes := bs })))
  ∧ (∀ s now hp wq w d t k c v, t = atTime s now → k = qKey hp wq → Starts s now hp wq w d 9 → lockBad d = none →
      ctxOf t w.ec = some c → v = pmSample t 0 4 (descId k w.next) [w.ec, 9, dword d 4, selfId t, dDev d, dTc d, dLen d] →
      abandoning v d (reqId c.hp c.fn (bits (dSub d) 7 5)) = false ∨ 1 < dSub d % 8 →
      exec (.descLock now hp wq) s
        = .next (settled s (startMsg (takeDesc v k w)
            { descMsg t k w d opLock 16 with
              result := .dva (dword d 5),
              prefixBytes := lockPayload (dSub d % 8) (bits (dSub d) 3 4) (reqId c.hp c.fn (bits (dSub d) 7 5)) (dword d 6) 0 })))
  ∧ (∀ s now hp wq w d t k c v, t = atTime s now → k = qKey hp wq → Starts s now hp wq w d 9 → lockBad d = none →
      ctxOf t w.ec = some c → v = pmSample t 0 4 (descId k w.next) [w.ec, 9, dword d 4, selfId t, dDev d, dTc d, dLen d] →
      abandoning v d (reqId c.hp c.fn (bits (dSub d) 7 5)) = true → dSub d % 8 ≤ 1 →
      exec (.descLock now hp wq) s
        = .next (settled s (localOwner (takeDesc v k w)
            { descMsg t k w d opLock 16 with
              result := .dva (dword d 5),
              prefixBytes := lockPayload (dSub d % 8) (bits (dSub d) 3 4) (reqId c.hp c.fn (bits (dSub d) 7 5)) (dword d 6) 0 })))

/-- DESC_RECV, DESC_PROBE and DESC_CANCEL, for the next descriptor of a WQ that may start. A RECV takes the unexpected arrival that
findUnexp finds for it; with none it joins the EC's posted list on the die when no overflow entry of the EC stands and there is room, else
the overflow list, with an OVF_ENTER event for the EC's first entry there, and with 33,554,432 entries there it ends with kind 23 and an
event. A PROBE, while the EC's receive CQ is not blocked, reports the arrival that findUnexp finds without taking it, or NOT_FOUND (6);
while it is blocked it waits. A CANCEL ends the first unmatched receive of the EC with its tag CANCELLED and completes, or reports NOT_FOUND
(7). Wrong fields end each with kind 22. What it takes from the model's own readings stands in log entries 49, 69 and 82. -/
def Obligations.MatchingDescriptorsComplete : Prop :=
  (∀ s now hp wq w d t k id u, t = atTime s now → k = qKey hp wq → Starts s now hp wq w d 4 →
      wordsOk d wCommon (mask 38 0) (mask 15 0) allBits allBits allBits 0 = true → lenBad d = false →
      findUnexp t w.ec (dword d 3) (dword d 4) (dword d 6) (bitAt (dword d 2) 38) (dDev d) (dEc d) = some (id, u) →
      exec (.descRecv now hp wq) s = .next (settled s (takeUnexp (takeDesc t k w) (recvOf k w d true) id u)))
  ∧ (∀ s now hp wq w d t k, t = atTime s now → k = qKey hp wq → Starts s now hp wq w d 4 →
      wordsOk d wCommon (mask 38 0) (mask 15 0) allBits allBits allBits 0 = true → lenBad d = false →
      findUnexp t w.ec (dword d 3) (dword d 4) (dword d 6) (bitAt (dword d 2) 38) (dDev d) (dEc d) = none →
      overflowOf t w.ec = [] → onDieCount t < 32768 →
      exec (.descRecv now hp wq) s
        = .next (settled s (refreshMt (setMt (takeDesc t k w) fun m =>
            { m with recvs := mset m.recvs m.next (recvOf k w d true), next := m.next + 1 }))))
  ∧ (∀ s now hp wq w d t k, t = atTime s now → k = qKey hp wq → Starts s now hp wq w d 4 →
      wordsOk d wCommon (mask 38 0) (mask 15 0) allBits allBits allBits 0 = true → lenBad d = false →
      findUnexp t w.ec (dword d 3) (dword d 4) (dword d 6) (bitAt (dword d 2) 38) (dDev d) (dEc d) = none →
      overflowOf t w.ec ≠ [] ∨ 32768 ≤ onDieCount t → ovfCount t < 33554432 →
      exec (.descRecv now hp wq) s
        = .next (settled s (
            let u := inc (setMt (takeDesc t k w) fun m =>
              { m with recvs := mset m.recvs m.next (recvOf k w d false), next := m.next + 1 }) F.mtCnt1OvfPosts
            refreshMt (if (overflowOf (takeDesc t k w) w.ec).isEmpty then mtEvent u w.ec 0x20 else u))))
  ∧ (∀ s now hp wq w d t k, t = atTime s now → k = qKey hp wq → Starts s now hp wq w d 4 →
      wordsOk d wCommon (mask 38 0) (mask 15 0) allBits allBits allBits 0 = true → lenBad d = false →
      findUnexp t w.ec (dword d 3) (dword d 4) (dword d 6) (bitAt (dword d 2) 38) (dDev d) (dEc d) = none →
      overflowOf t w.ec ≠ [] ∨ 32768 ≤ onDieCount t → 33554432 ≤ ovfCount t →
      exec (.descRecv now hp wq) s = .next (settled s (mtEvent (descFails t k w d 23) w.ec 0x23)))
  ∧ (∀ s now hp wq w d t k, t = atTime s now → k = qKey hp wq → Starts s now hp wq w d 4 →
      wordsOk d wCommon (mask 38 0) (mask 15 0) allBits allBits allBits 0 = false ∨ lenBad d = true →
      exec (.descRecv now hp wq) s = .next (settled s (descFails t k w d 22)))
  ∧ (∀ s now hp wq w d, Starts s now hp wq w d 5 → rcqBlocked (atTime s now) w.ec = true →
      exec (.descProbe now hp wq) s = .next (settled s (atTime s now)))
  ∧ (∀ s now hp wq w d t k, t = atTime s now → k = qKey hp wq → Starts s now hp wq w d 5 → rcqBlocked t w.ec = false →
      wordsOk d wCommon (mask 38 0) (mask 15 0) allBits 0 allBits 0 = false ∨ lenBad d = true →
      exec (.descProbe now hp wq) s = .next (settled s (descFails t k w d 22)))
  ∧ (∀ s now hp wq w d t k, t = atTime s now → k = qKey hp wq → Starts s now hp wq w d 6 →
      wordsOk d wCommon allBits 0 0 0 0 0 = false ∨ lenBad d = true →
      exec (.descCancel now hp wq) s = .next (settled s (descFails t k w d 22)))
  ∧ (∀ s now hp wq w d t k id u, t = atTime s now → k = qKey hp wq → Starts s now hp wq w d 5 → rcqBlocked t w.ec = false →
      wordsOk d wCommon (mask 38 0) (mask 15 0) allBits 0 allBits 0 = true → lenBad d = false →
      findUnexp t w.ec (dword d 3) (dword d 4) (dword d 6) (bitAt (dword d 2) 38) (dDev d) (dEc d) = some (id, u) →
      exec (.descProbe now hp wq) s
        = .next (settled s (descDone (takeDesc t k w) (originOf k w d) 5 0 0 u.dataLen u.bits
            (u.src % 2 ^ 18 + u.srcEc % 2 ^ 20 * 2 ^ 18))))
  ∧ (∀ s now hp wq w d t k, t = atTime s now → k = qKey hp wq → Starts s now hp wq w d 5 → rcqBlocked t w.ec = false →
      wordsOk d wCommon (mask 38 0) (mask 15 0) allBits 0 allBits 0 = true → lenBad d = false →
      findUnexp t w.ec (dword d 3) (dword d 4) (dword d 6) (bitAt (dword d 2) 38) (dDev d) (dEc d) = none →
      exec (.descProbe now hp wq) s = .next (settled s (descDone (takeDesc t k w) (originOf k w d) 6 0 0 0 0 0)))
  ∧ (∀ s now hp wq w d t k id r, t = atTime s now → k = qKey hp wq → Starts s now hp wq w d 6 →
      wordsOk d wCommon allBits 0 0 0 0 0 = true → lenBad d = false →
      ((unmatched t).find? fun e => e.2.ec == w.ec && tagged e.2 (dword d 2)) = some (id, r) →
      exec (.descCancel now hp wq) s
        = .next (settled s (
            let v := leftList (endRecv t id r 2 0 0) r
            descDone (takeDesc v k w) (originOf k w d) 0 0 0 0 0 0)))
  ∧ (∀ s now hp wq w d t k, t = atTime s now → k = qKey hp wq → Starts s now hp wq w d 6 →
      wordsOk d wCommon allBits 0 0 0 0 0 = true → lenBad d = false →
      ((unmatched t).find? fun e => e.2.ec == w.ec && tagged e.2 (dword d 2)) = none →
      exec (.descCancel now hp wq) s = .next (settled s (descDone (takeDesc t k w) (originOf k w d) 7 0 0 0 0 0)))

/-- DESC_REG, DESC_REVOKE, DESC_RESOLVE and DESC_INVAL, for the next descriptor of a WQ that may start (an INVAL: of an open WQ, in HOLD
too). A REG that passes Table 11-2 writes a free entry and completes with its key; one that does not ends with the kind of its first failed
check. A REVOKE of a region of the WQ's function begins the revocation, or joins one that runs; of no region of the function it completes
with NOT_FOUND (1). A RESOLVE with ACTION 1 completes, releases its entry's stalled work and frees the entry; with ACTION 2 it completes and
fails an entry that has not failed yet; for a free entry or another function's domain it ends with kind 2. An INVAL of scope PAGES (1 to
65,536) or DOMAIN of the function's own domain begins an invalidation that completes it; one of another domain ends with kind 2. Wrong
fields end a REVOKE, RESOLVE or INVAL with kind 22. What it takes from the model's own readings stands in log entries 15, 49 and 64. -/
def Obligations.RegionDescriptorsComplete : Prop :=
  (∀ s now hp wq w d t k i, t = atTime s now → k = qKey hp wq → Starts s now hp wq w d 0x10 → regBad t k w d = none →
      freeRegion t = some i →
      exec (.descReg now hp wq) s
        = .next (settled s (
            let v := register t i (qPort k) w.fn (dword d 2) (dword d 4) (dword d 6) (dword d 5) (dword d 3) (dSub d % 2)
              (bits (dSub d) 1 1) (bits (dSub d) 2 1) (bits (dSub d) 3 1)
            descDone (takeDesc v k w) (originOf k w d) 0 0 0 0 (keyOf v i) 0)))
  ∧ (∀ s now hp wq w d t k kind, t = atTime s now → k = qKey hp wq → Starts s now hp wq w d 0x10 → regBad t k w d = some kind →
      exec (.descReg now hp wq) s = .next (settled s (descFails t k w d kind)))
  ∧ (∀ s now hp wq w d t k i, t = atTime s now → k = qKey hp wq → Starts s now hp wq w d 0x11 →
      wordsOk d wCommon wKey 0 0 0 0 0 = true → lenBad d = false → regionOf t (dword d 2) = some i → rd t F.mrEntryHp i = qPort k →
      rd t F.mrEntryFunc i = w.fn →
      exec (.descRevoke now hp wq) s
        = .next (settled s (
            let u := takeDesc t k w
            match mget u.mr.revokes i with
            | some r => setMr u fun m => { m with revokes := mset m.revokes i { r with descs := r.descs ++ [(originOf k w d, 2)] } }
            | none => markRevoking u i ⟨[], [(originOf k w d, 0)], false⟩)))
  ∧ (∀ s now hp wq w d t k, t = atTime s now → k = qKey hp wq → Starts s now hp wq w d 0x11 →
      wordsOk d wCommon wKey 0 0 0 0 0 = true → lenBad d = false →
      (∀ i, regionOf t (dword d 2) = some i → rd t F.mrEntryHp i ≠ qPort k ∨ rd t F.mrEntryFunc i ≠ w.fn) →
      exec (.descRevoke now hp wq) s = .next (settled s (descDone (takeDesc t k w) (originOf k w d) 0 0 0 0 1 0)))
  ∧ (∀ s now hp wq w d t k, t = atTime s now → k = qKey hp wq → Starts s now hp wq w d 0x11 →
      wordsOk d wCommon wKey 0 0 0 0 0 = false ∨ lenBad d = true →
      exec (.descRevoke now hp wq) s = .next (settled s (descFails t k w d 22)))
  ∧ (∀ s now hp wq w d t k f, t = atTime s now → k = qKey hp wq → Starts s now hp wq w d 0x12 →
      wordsOk d (wCommon + wSub 2) (mask 11 0) 0 0 0 0 0 = true → lenBad d = false → dSub d % 4 = 1 →
      mget t.mr.faults (dword d 2) = some f → ownsDom t k w f.dom = true →
      exec (.descResolve now hp wq) s
        = .next (settled s (resolveRetry (descDone (takeDesc t k w) (originOf k w d) 0 0 0 0 0 0) (dword d 2))))
  ∧ (∀ s now hp wq w d t k f, t = atTime s now → k = qKey hp wq → Starts s now hp wq w d 0x12 →
      wordsOk d (wCommon + wSub 2) (mask 11 0) 0 0 0 0 0 = true → lenBad d = false → dSub d % 4 = 2 →
      mget t.mr.faults (dword d 2) = some f → ownsDom t k w f.dom = true →
      exec (.descResolve now hp wq) s
        = .next (settled s (
            let u := descDone (takeDesc t k w) (originOf k w d) 0 0 0 0 0 0
            if f.failed = true then u else resolveFail u (dword d 2) f)))
  ∧ (∀ s now hp wq w d t k, t = atTime s now → k = qKey hp wq → Starts s now hp wq w d 0x12 →
      wordsOk d (wCommon + wSub 2) (mask 11 0) 0 0 0 0 0 = true → lenBad d = false → dSub d % 4 = 1 ∨ dSub d % 4 = 2 →
      (∀ f, mget t.mr.faults (dword d 2) = some f → ownsDom t k w f.dom = false) →
      exec (.descResolve now hp wq) s = .next (settled s (descFails t k w d 2)))
  ∧ (∀ s now hp wq w d t k, t = atTime s now → k = qKey hp wq → Starts s now hp wq w d 0x12 →
      wordsOk d (wCommon + wSub 2) (mask 11 0) 0 0 0 0 0 = false ∨ lenBad d = true ∨ dSub d % 4 = 0 ∨ dSub d % 4 = 3 →
      exec (.descResolve now hp wq) s = .next (settled s (descFails t k w d 22)))
  ∧ (∀ s now hp wq w d t k, t = atTime s now → k = qKey hp wq → nextDesc t k = some (w, d) → wqOpen t k w = true → dOp d = 0x13 →
      wordsOk d (wCommon + wSub 2) (mask 11 0 + mask 46 30) allBits 0 0 0 0 = true → lenBad d = false →
      (dSub d % 4 = 1 ∧ 1 ≤ bits (dword d 2) 30 17 ∧ bits (dword d 2) 30 17 ≤ 65536) ∨ dSub d % 4 = 2 →
      ownsDom t k w (dword d 2 % 2 ^ 12) = true →
      exec (.descInval now hp wq) s
        = .next (settled s (startInval (takeDesc t k w) none (dSub d % 4) (dword d 2 % 2 ^ 12) (dword d 3 / 4096)
            (bits (dword d 2) 30 17) (some (originOf k w d)))))
  ∧ (∀ s now hp wq w d t k, t = atTime s now → k = qKey hp wq → nextDesc t k = some (w, d) → wqOpen t k w = true → dOp d = 0x13 →
      wordsOk d (wCommon + wSub 2) (mask 11 0 + mask 46 30) allBits 0 0 0 0 = true → lenBad d = false →
      (dSub d % 4 = 1 ∧ 1 ≤ bits (dword d 2) 30 17 ∧ bits (dword d 2) 30 17 ≤ 65536) ∨ dSub d % 4 = 2 →
      ownsDom t k w (dword d 2 % 2 ^ 12) = false →
      exec (.descInval now hp wq) s = .next (settled s (descFails t k w d 2)))
  ∧ (∀ s now hp wq w d t k, t = atTime s now → k = qKey hp wq → nextDesc t k = some (w, d) → wqOpen t k w = true → dOp d = 0x13 →
      wordsOk d (wCommon + wSub 2) (mask 11 0 + mask 46 30) allBits 0 0 0 0 = false ∨ lenBad d = true ∨ dSub d % 4 = 0 ∨ dSub d % 4 = 3
        ∨ (dSub d % 4 = 1 ∧ (bits (dword d 2) 30 17 = 0 ∨ 65536 < bits (dword d 2) 30 17)) →
      exec (.descInval now hp wq) s = .next (settled s (descFails t k w d 22)))

/-- DESC_COLL, DESC_COLL_ABORT, DESC_EX_SEND, DESC_EX_FLUSH and DESC_EX_CONSUME, for the next descriptor of a WQ that may start. A COLL that
passes its checks starts with the bytes of its source: at once when it has none, after its source's host reads when every page translates;
it waits for a walk when a page misses, ends with the kind of a hard fault, and in an ABORTED group it completes ABORTED (1) with the cause;
one that does not pass ends with the kind of its check. A COLL_ABORT of a group of the WQ's function completes and aborts it with cause HOST
(6); of another group it ends with kind 2. EX_SEND (its buffer read the same way) and EX_FLUSH join the work of an OPEN job, and end with
EX_FAILED (20) for another one. EX_CONSUME with a CI that is at most PI completes and sets the ring's CI; with one beyond PI, and each of
these with wrong fields, ends with kind 22. What it takes from the model's own readings stands in log entries 9, 11, 49, 66, 67 and 106. -/
def Obligations.CollectiveAndExchangeDescriptorsComplete : Prop :=
  (∀ s now hp wq w d t k data c v l a, t = atTime s now → k = qKey hp wq → Starts s now hp wq w d 0x18 → collBad t k w d = none →
      rd t F.clGroupState (dword d 2) ≠ 2 → data.length = collBytes t d → data ≠ [] → ctxOf t w.ec = some c →
      a = { mr := none, dom := c.dom, hp := c.hp, fn := c.fn, pkrr := dword d 8, cls := 0,
            spans := [(dword d 4, data.length)], recv := none } →
      translateAdm t a = (v, .ok l) →
      exec (.descColl now hp wq data) s
        = .next (settled s (
            let u := pmSample (takeDesc (readPieces v c.hp l) k w) 0 3 (descId k w.next)
              [w.ec, 0x18, dword d 4, selfId v, selfId v, dTc d, data.length]
            let r := openOp u (dword d 2) (collOf (readPieces v c.hp l) k w d data)
            refreshGrp (drainEarly (contributeAll r.1 (dword d 2) r.2) (dword d 2)) (dword d 2))))
  ∧ (∀ s now hp wq w d t k c, t = atTime s now → k = qKey hp wq → Starts s now hp wq w d 0x18 → collBad t k w d = none →
      rd t F.clGroupState (dword d 2) ≠ 2 → collBytes t d = 0 → ctxOf t w.ec = some c →
      exec (.descColl now hp wq []) s
        = .next (settled s (
            let u := pmSample (takeDesc t k w) 0 3 (descId k w.next) [w.ec, 0x18, dword d 4, selfId t, selfId t, dTc d, 0]
            let r := openOp u (dword d 2) (collOf t k w d [])
            refreshGrp (drainEarly (contributeAll r.1 (dword d 2) r.2) (dword d 2)) (dword d 2))))
  ∧ (∀ s now hp wq w d t k data c v x a, t = atTime s now → k = qKey hp wq → Starts s now hp wq w d 0x18 → collBad t k w d = none →
      rd t F.clGroupState (dword d 2) ≠ 2 → data.length = collBytes t d → data ≠ [] → ctxOf t w.ec = some c →
      a = { mr := none, dom := c.dom, hp := c.hp, fn := c.fn, pkrr := dword d 8, cls := 0,
            spans := [(dword d 4, data.length)], recv := none } →
      translateAdm t a = (v, .miss x) →
      exec (.descColl now hp wq data) s
        = .next (settled s (awaitWalk (setWq v k { w with walking := true }) c.dom x (.desc k))))
  ∧ (∀ s now hp wq w d t k data c v kind x a, t = atTime s now → k = qKey hp wq → Starts s now hp wq w d 0x18 →
      collBad t k w d = none → rd t F.clGroupState (dword d 2) ≠ 2 → data.length = collBytes t d → data ≠ [] → ctxOf t w.ec = some c →
      a = { mr := none, dom := c.dom, hp := c.hp, fn := c.fn, pkrr := dword d 8, cls := 0,
            spans := [(dword d 4, data.length)], recv := none } →
      translateAdm t a = (v, .hard kind x) →
      exec (.descColl now hp wq data) s
        = .next (settled s (descFails (recordFault v w.ec c.dom 0 0 kind x) k w d kind)))
  ∧ (∀ s now hp wq w d t k data, t = atTime s now → k = qKey hp wq → Starts s now hp wq w d 0x18 → collBad t k w d = none →
      rd t F.clGroupState (dword d 2) = 2 →
      exec (.descColl now hp wq data) s
        = .next (settled s (descDone (takeDesc t k w) (originOf k w d) 1 0 (rd t F.clGroupCause (dword d 2)) 0 0 0)))
  ∧ (∀ s now hp wq w d t k data kind, t = atTime s now → k = qKey hp wq → Starts s now hp wq w d 0x18 → collBad t k w d = some kind →
      exec (.descColl now hp wq data) s = .next (settled s (descFails t k w d kind)))
  ∧ (∀ s now hp wq w d t k v, t = atTime s now → k = qKey hp wq → Starts s now hp wq w d 0x19 →
      wordsOk d wCommon (mask 11 0) 0 0 0 0 0 = true → lenBad d = false → ownsGroup t k w (dword d 2) = true →
      v = descDone (takeDesc t k w) (originOf k w d) 0 0 0 0 0 0 →
      exec (.descCollAbort now hp wq) s = .next (settled s (abortGrp v (dword d 2) (abortSeq t (dword d 2)) 6 none)))
  ∧ (∀ s now hp wq w d t k, t = atTime s now → k = qKey hp wq → Starts s now hp wq w d 0x19 →
      wordsOk d wCommon (mask 11 0) 0 0 0 0 0 = true → lenBad d = false → ownsGroup t k w (dword d 2) = false →
      exec (.descCollAbort now hp wq) s = .next (settled s (descFails t k w d 2)))
  ∧ (∀ s now hp wq w d t k, t = atTime s now → k = qKey hp wq → Starts s now hp wq w d 0x19 →
      wordsOk d wCommon (mask 11 0) 0 0 0 0 0 = false ∨ lenBad d = true →
      exec (.descCollAbort now hp wq) s = .next (settled s (descFails t k w d 22)))
  ∧ (∀ s now hp wq w d t k c, t = atTime s now → k = qKey hp wq → Starts s now hp wq w d 0x1C →
      wordsOk d wCommon (mask 5 0) allBits 0 0 0 0 = true → rd t F.exJobState (dword d 2) = 1 → dLen d = 0 → ctxOf t w.ec = some c →
      exec (.descExSend now hp wq []) s
        = .next (settled s (
            let j := dword d 2
            let v := takeDesc t k w
            moveJob (setJob v j { job v j with sends := (job v j).sends ++ [⟨originOf k w d, false, [], [], 0, 0, none⟩] }) j)))
  ∧ (∀ s now hp wq w d t k data c u l a, t = atTime s now → k = qKey hp wq → Starts s now hp wq w d 0x1C →
      wordsOk d wCommon (mask 5 0) allBits 0 0 0 0 = true → lenBad d = false → rd t F.exJobState (dword d 2) = 1 →
      data.length = dLen d → data ≠ [] → ctxOf t w.ec = some c →
      a = { mr := none, dom := c.dom, hp := c.hp, fn := c.fn, pkrr := dword d 8, cls := 0,
            spans := [(dword d 3, data.length)], recv := none } →
      translateAdm t a = (u, .ok l) → rd (readPieces u c.hp l) F.exJobState (dword d 2) = 1 →
      exec (.descExSend now hp wq data) s
        = .next (settled s (
            let j := dword d 2
            let v := takeDesc (readPieces u c.hp l) k w
            moveJob (setJob v j { job v j with sends := (job v j).sends ++ [⟨originOf k w d, false, data, [], 0, 0, none⟩] }) j)))
  ∧ (∀ s now hp wq w d t k data c v x a, t = atTime s now → k = qKey hp wq → Starts s now hp wq w d 0x1C →
      wordsOk d wCommon (mask 5 0) allBits 0 0 0 0 = true → lenBad d = false → rd t F.exJobState (dword d 2) = 1 →
      data.length = dLen d → data ≠ [] → ctxOf t w.ec = some c →
      a = { mr := none, dom := c.dom, hp := c.hp, fn := c.fn, pkrr := dword d 8, cls := 0,
            spans := [(dword d 3, data.length)], recv := none } →
      translateAdm t a = (v, .miss x) →
      exec (.descExSend now hp wq data) s
        = .next (settled s (awaitWalk (setWq v k { w with walking := true }) c.dom x (.desc k))))
  ∧ (∀ s now hp wq w d t k data c v kind x a, t = atTime s now → k = qKey hp wq → Starts s now hp wq w d 0x1C →
      wordsOk d wCommon (mask 5 0) allBits 0 0 0 0 = true → lenBad d = false → rd t F.exJobState (dword d 2) = 1 →
      data.length = dLen d → data ≠ [] → ctxOf t w.ec = some c →
      a = { mr := none, dom := c.dom, hp := c.hp, fn := c.fn, pkrr := dword d 8, cls := 0,
            spans := [(dword d 3, data.length)], recv := none } →
      translateAdm t a = (v, .hard kind x) →
      exec (.descExSend now hp wq data) s
        = .next (settled s (descFails (recordFault v w.ec c.dom 0 0 kind x) k w d kind)))
  ∧ (∀ s now hp wq w d t k data, t = atTime s now → k = qKey hp wq → Starts s now hp wq w d 0x1C →
      wordsOk d wCommon (mask 5 0) allBits 0 0 0 0 = true → lenBad d = false → rd t F.exJobState (dword d 2) ≠ 1 →
      exec (.descExSend now hp wq data) s = .next (settled s (descFails t k w d 20)))
  ∧ (∀ s now hp wq w d t k data, t = atTime s now → k = qKey hp wq → Starts s now hp wq w d 0x1C →
      wordsOk d wCommon (mask 5 0) allBits 0 0 0 0 = false ∨ lenBad d = true →
      exec (.descExSend now hp wq data) s = .next (settled s (descFails t k w d 22)))
  ∧ (∀ s now hp wq w d t k, t = atTime s now → k = qKey hp wq → Starts s now hp wq w d 0x1D →
      wordsOk d wCommon (mask 5 0) 0 0 0 0 0 = true → lenBad d = false → rd t F.exJobState (dword d 2) = 1 →
      exec (.descExFlush now hp wq) s
        = .next (settled s (
            let j := dword d 2
            let v := takeDesc t k w
            moveJob (setJob v j { job v j with sends := (job v j).sends ++ [⟨originOf k w d, true, [], [], 0, 0, none⟩] }) j)))
  ∧ (∀ s now hp wq w d t k, t = atTime s now → k = qKey hp wq → Starts s now hp wq w d 0x1D →
      wordsOk d wCommon (mask 5 0) 0 0 0 0 0 = true → lenBad d = false → rd t F.exJobState (dword d 2) ≠ 1 →
      exec (.descExFlush now hp wq) s = .next (settled s (descFails t k w d 20)))
  ∧ (∀ s now hp wq w d t k, t = atTime s now → k = qKey hp wq → Starts s now hp wq w d 0x1D →
      wordsOk d wCommon (mask 5 0) 0 0 0 0 0 = false ∨ lenBad d = true →
      exec (.descExFlush now hp wq) s = .next (settled s (descFails t k w d 22)))
  ∧ (∀ s now hp wq w d t k, t = atTime s now → k = qKey hp wq → Starts s now hp wq w d 0x1E →
      wordsOk d wCommon (mask 5 0) allBits 0 0 0 0 = true → lenBad d = false → dword d 3 ≤ rd t F.exRingPi (dword d 2) →
      exec (.descExConsume now hp wq) s
        = .next (settled s (noteFull (wr (descDone (takeDesc t k w) (originOf k w d) 0 0 0 0 0 0) F.exRingCi (dword d 3) (dword d 2))
            (dword d 2))))
  ∧ (∀ s now hp wq w d t k, t = atTime s now → k = qKey hp wq → Starts s now hp wq w d 0x1E →
      wordsOk d wCommon (mask 5 0) allBits 0 0 0 0 = false ∨ lenBad d = true ∨ rd t F.exRingPi (dword d 2) < dword d 3 →
      exec (.descExConsume now hp wq) s = .next (settled s (descFails t k w d 22)))

/-- QM_CMD_EQ_CREATE, QM_CMD_CQ_CREATE, QM_CMD_WQ_CREATE, QM_CMD_EC_OPEN, QM_CMD_EC_CLOSE, QM_CMD_DESTROY, QM_CMD_RESET and QM_CMD_QUERY,
written into the page of a function by the function, by PF0 of its port or, for port 0, by the management controller, and served: on a port
that serves, with no queue command of the function running, each acts on the arguments in QM_ARG0 to QM_ARG2 (the creating ones as
CreatedQueuesStartEmpty says); while one runs it is refused, and on a port that does not serve it fails with code 5. DESTROY of an EQ
removes it; of a CQ it fails with code 3 while a WQ or EC is bound to it and removes it otherwise; of a WQ it ends the descriptors not
started FLUSHED and removes the WQ once those started have ended, BUSY until then; of a WQ being destroyed it fails with code 5. RESET of an
EQ, and of a CQ or WQ not in ERROR, fails with code 5; a CQ in ERROR with no held completion is READY and empty again, one with held
completions is BUSY; a WQ in ERROR with nothing started, waiting or held is READY and empty again, any other fails with code 5. QUERY
reports state, cause, PI and CI. A number out of range fails with code 2, one with no object too, but for QUERY, which reports FREE; an
object of another function fails with code 4. What it takes from the model's own readings stands in log entry 83. -/
def Obligations.QueueCommandsComplete : Prop :=
  (∀ s who hp fn width i, i = fnIdx hp fn → Served s who → 64 ≤ width → fn < 256 → hp < 2 →
      (who = .fn hp fn ∨ who = .fn hp 0 ∨ (who = .mgmt ∧ hp = 0)) →
      rd s F.qmCmdStatSt i ≠ 1 → serving s hp = true →
      exec (.qmCmdEqCreate who hp fn width) s
        = .next (settled s (viaGate s who fun t => eqCreate t hp fn (rd t F.qmArg0Arg i) (rd t F.qmArg1Arg i))))
  ∧ (∀ s who hp fn width, Served s who → 64 ≤ width → fn < 256 → hp < 2 →
      (who = .fn hp fn ∨ who = .fn hp 0 ∨ (who = .mgmt ∧ hp = 0)) → rd s F.qmCmdStatSt (fnIdx hp fn) = 1 →
      exec (.qmCmdEqCreate who hp fn width) s = .next (settled s (viaGate s who refuseWrite)))
  ∧ (∀ s who hp fn width, Served s who → 64 ≤ width → fn < 256 → hp < 2 →
      (who = .fn hp fn ∨ who = .fn hp 0 ∨ (who = .mgmt ∧ hp = 0)) → rd s F.qmCmdStatSt (fnIdx hp fn) ≠ 1 →
      serving s hp = false →
      exec (.qmCmdEqCreate who hp fn width) s = .next (settled s (viaGate s who fun t => qmFail t hp fn 5)))
  ∧ (∀ s who hp fn width i, i = fnIdx hp fn → Served s who → 64 ≤ width → fn < 256 → hp < 2 →
      (who = .fn hp fn ∨ who = .fn hp 0 ∨ (who = .mgmt ∧ hp = 0)) →
      rd s F.qmCmdStatSt i ≠ 1 → serving s hp = true →
      exec (.qmCmdCqCreate who hp fn width) s
        = .next (settled s (viaGate s who fun t => cqCreate t hp fn (rd t F.qmArg0Arg i) (rd t F.qmArg1Arg i))))
  ∧ (∀ s who hp fn width, Served s who → 64 ≤ width → fn < 256 → hp < 2 →
      (who = .fn hp fn ∨ who = .fn hp 0 ∨ (who = .mgmt ∧ hp = 0)) → rd s F.qmCmdStatSt (fnIdx hp fn) = 1 →
      exec (.qmCmdCqCreate who hp fn width) s = .next (settled s (viaGate s who refuseWrite)))
  ∧ (∀ s who hp fn width, Served s who → 64 ≤ width → fn < 256 → hp < 2 →
      (who = .fn hp fn ∨ who = .fn hp 0 ∨ (who = .mgmt ∧ hp = 0)) → rd s F.qmCmdStatSt (fnIdx hp fn) ≠ 1 →
      serving s hp = false →
      exec (.qmCmdCqCreate who hp fn width) s = .next (settled s (viaGate s who fun t => qmFail t hp fn 5)))
  ∧ (∀ s who hp fn width i, i = fnIdx hp fn → Served s who → 64 ≤ width → fn < 256 → hp < 2 →
      (who = .fn hp fn ∨ who = .fn hp 0 ∨ (who = .mgmt ∧ hp = 0)) →
      rd s F.qmCmdStatSt i ≠ 1 → serving s hp = true →
      exec (.qmCmdWqCreate who hp fn width) s
        = .next (settled s (viaGate s who fun t => wqCreate t hp fn (rd t F.qmArg0Arg i) (rd t F.qmArg1Arg i) (rd t F.qmArg2Arg i))))
  ∧ (∀ s who hp fn width, Served s who → 64 ≤ width → fn < 256 → hp < 2 →
      (who = .fn hp fn ∨ who = .fn hp 0 ∨ (who = .mgmt ∧ hp = 0)) → rd s F.qmCmdStatSt (fnIdx hp fn) = 1 →
      exec (.qmCmdWqCreate who hp fn width) s = .next (settled s (viaGate s who refuseWrite)))
  ∧ (∀ s who hp fn width, Served s who → 64 ≤ width → fn < 256 → hp < 2 →
      (who = .fn hp fn ∨ who = .fn hp 0 ∨ (who = .mgmt ∧ hp = 0)) → rd s F.qmCmdStatSt (fnIdx hp fn) ≠ 1 →
      serving s hp = false →
      exec (.qmCmdWqCreate who hp fn width) s = .next (settled s (viaGate s who fun t => qmFail t hp fn 5)))
  ∧ (∀ s who hp fn width i, i = fnIdx hp fn → Served s who → 64 ≤ width → fn < 256 → hp < 2 →
      (who = .fn hp fn ∨ who = .fn hp 0 ∨ (who = .mgmt ∧ hp = 0)) →
      rd s F.qmCmdStatSt i ≠ 1 → serving s hp = true →
      exec (.qmCmdEcOpen who hp fn width) s
        = .next (settled s (viaGate s who fun t => ecOpenCmd t hp fn (rd t F.qmArg0Arg i) (rd t F.qmArg1Arg i))))
  ∧ (∀ s who hp fn width, Served s who → 64 ≤ width → fn < 256 → hp < 2 →
      (who = .fn hp fn ∨ who = .fn hp 0 ∨ (who = .mgmt ∧ hp = 0)) → rd s F.qmCmdStatSt (fnIdx hp fn) = 1 →
      exec (.qmCmdEcOpen who hp fn width) s = .next (settled s (viaGate s who refuseWrite)))
  ∧ (∀ s who hp fn width, Served s who → 64 ≤ width → fn < 256 → hp < 2 →
      (who = .fn hp fn ∨ who = .fn hp 0 ∨ (who = .mgmt ∧ hp = 0)) → rd s F.qmCmdStatSt (fnIdx hp fn) ≠ 1 →
      serving s hp = false →
      exec (.qmCmdEcOpen who hp fn width) s = .next (settled s (viaGate s who fun t => qmFail t hp fn 5)))
  ∧ (∀ s now who hp fn width i, i = fnIdx hp fn → Served s who → 64 ≤ width → fn < 256 → hp < 2 →
      (who = .fn hp fn ∨ who = .fn hp 0 ∨ (who = .mgmt ∧ hp = 0)) →
      rd s F.qmCmdStatSt i ≠ 1 → serving s hp = true →
      exec (.qmCmdEcClose now who hp fn width) s
        = .next (settled s (viaGate (atTime s now) who fun t => ecCloseCmd t hp fn (rd t F.qmArg0Arg i))))
  ∧ (∀ s now who hp fn width, Served s who → 64 ≤ width → fn < 256 → hp < 2 →
      (who = .fn hp fn ∨ who = .fn hp 0 ∨ (who = .mgmt ∧ hp = 0)) → rd s F.qmCmdStatSt (fnIdx hp fn) = 1 →
      exec (.qmCmdEcClose now who hp fn width) s = .next (settled s (viaGate (atTime s now) who refuseWrite)))
  ∧ (∀ s now who hp fn width, Served s who → 64 ≤ width → fn < 256 → hp < 2 →
      (who = .fn hp fn ∨ who = .fn hp 0 ∨ (who = .mgmt ∧ hp = 0)) → rd s F.qmCmdStatSt (fnIdx hp fn) ≠ 1 →
      serving s hp = false →
      exec (.qmCmdEcClose now who hp fn width) s = .next (settled s (viaGate (atTime s now) who fun t => qmFail t hp fn 5)))
  ∧ (∀ s who hp fn width i, i = fnIdx hp fn → Served s who → 64 ≤ width → fn < 256 → hp < 2 →
      (who = .fn hp fn ∨ who = .fn hp 0 ∨ (who = .mgmt ∧ hp = 0)) →
      rd s F.qmCmdStatSt i ≠ 1 → serving s hp = true →
      exec (.qmCmdDestroy who hp fn width) s
        = .next (settled s (viaGate s who fun t => objCommand t hp fn 6 (rd t F.qmArg0Arg i))))
  ∧ (∀ s who hp fn width, Served s who → 64 ≤ width → fn < 256 → hp < 2 →
      (who = .fn hp fn ∨ who = .fn hp 0 ∨ (who = .mgmt ∧ hp = 0)) → rd s F.qmCmdStatSt (fnIdx hp fn) = 1 →
      exec (.qmCmdDestroy who hp fn width) s = .next (settled s (viaGate s who refuseWrite)))
  ∧ (∀ s who hp fn width, Served s who → 64 ≤ width → fn < 256 → hp < 2 →
      (who = .fn hp fn ∨ who = .fn hp 0 ∨ (who = .mgmt ∧ hp = 0)) → rd s F.qmCmdStatSt (fnIdx hp fn) ≠ 1 →
      serving s hp = false →
      exec (.qmCmdDestroy who hp fn width) s = .next (settled s (viaGate s who fun t => qmFail t hp fn 5)))
  ∧ (∀ s who hp fn width i, i = fnIdx hp fn → Served s who → 64 ≤ width → fn < 256 → hp < 2 →
      (who = .fn hp fn ∨ who = .fn hp 0 ∨ (who = .mgmt ∧ hp = 0)) →
      rd s F.qmCmdStatSt i ≠ 1 → serving s hp = true →
      exec (.qmCmdReset who hp fn width) s
        = .next (settled s (viaGate s who fun t => objCommand t hp fn 7 (rd t F.qmArg0Arg i))))
  ∧ (∀ s who hp fn width, Served s who → 64 ≤ width → fn < 256 → hp < 2 →
      (who = .fn hp fn ∨ who = .fn hp 0 ∨ (who = .mgmt ∧ hp = 0)) → rd s F.qmCmdStatSt (fnIdx hp fn) = 1 →
      exec (.qmCmdReset who hp fn width) s = .next (settled s (viaGate s who refuseWrite)))
  ∧ (∀ s who hp fn width, Served s who → 64 ≤ width → fn < 256 → hp < 2 →
      (who = .fn hp fn ∨ who = .fn hp 0 ∨ (who = .mgmt ∧ hp = 0)) → rd s F.qmCmdStatSt (fnIdx hp fn) ≠ 1 →
      serving s hp = false →
      exec (.qmCmdReset who hp fn width) s = .next (settled s (viaGate s who fun t => qmFail t hp fn 5)))
  ∧ (∀ s who hp fn width i, i = fnIdx hp fn → Served s who → 64 ≤ width → fn < 256 → hp < 2 →
      (who = .fn hp fn ∨ who = .fn hp 0 ∨ (who = .mgmt ∧ hp = 0)) →
      rd s F.qmCmdStatSt i ≠ 1 → serving s hp = true →
      exec (.qmCmdQuery who hp fn width) s
        = .next (settled s (viaGate s who fun t => objCommand t hp fn 8 (rd t F.qmArg0Arg i))))
  ∧ (∀ s who hp fn width, Served s who → 64 ≤ width → fn < 256 → hp < 2 →
      (who = .fn hp fn ∨ who = .fn hp 0 ∨ (who = .mgmt ∧ hp = 0)) → rd s F.qmCmdStatSt (fnIdx hp fn) = 1 →
      exec (.qmCmdQuery who hp fn width) s = .next (settled s (viaGate s who refuseWrite)))
  ∧ (∀ s who hp fn width, Served s who → 64 ≤ width → fn < 256 → hp < 2 →
      (who = .fn hp fn ∨ who = .fn hp 0 ∨ (who = .mgmt ∧ hp = 0)) → rd s F.qmCmdStatSt (fnIdx hp fn) ≠ 1 →
      serving s hp = false →
      exec (.qmCmdQuery who hp fn width) s = .next (settled s (viaGate s who fun t => qmFail t hp fn 5)))
  ∧ (∀ s hp fn a0 e, bits a0 0 2 = 0 → bits a0 16 16 < 4096 → mget s.hi.eqs (eqKey hp (bits a0 16 16)) = some e → e.fn = fn →
      objCommand s hp fn 6 a0 = qmDone (setHi s fun h => { h with eqs := mdel h.eqs (eqKey hp (bits a0 16 16)) }) hp fn 0
      ∧ objCommand s hp fn 7 a0 = qmFail s hp fn 5
      ∧ objCommand s hp fn 8 a0
          = qmDone (wr (wr s F.qmArg1Arg (1 + e.cause * 16 + min e.lost (2 ^ 32 - 1) * 2 ^ 16) (fnIdx hp fn))
              F.qmArg2Arg (e.pi + e.ci * 2 ^ 32) (fnIdx hp fn)) hp fn 0)
  ∧ (∀ s hp fn a0 q, bits a0 0 2 = 1 → bits a0 16 16 < 16384 → mget s.hi.cqs (qKey hp (bits a0 16 16)) = some q → q.fn = fn →
      objCommand s hp fn 6 a0
        = (if cqBound s (qKey hp (bits a0 16 16)) = true then qmFail s hp fn 3
           else qmDone (refreshFnStat (setHi s fun h => { h with cqs := mdel h.cqs (qKey hp (bits a0 16 16)) }) hp fn) hp fn 0)
      ∧ (q.state = .ready → objCommand s hp fn 7 a0 = qmFail s hp fn 5)
      ∧ (q.state = .error → q.held = [] →
          objCommand s hp fn 7 a0
            = qmDone (refreshFnStat (setCq s (qKey hp (bits a0 16 16))
                { q with state := .ready, cause := 0, pi := 0, ci := 0, pendWritten := false, fullSince := none, armed := false,
                          count := 0, firstAt := none }) hp fn) hp fn 0)
      ∧ (q.state = .error → q.held ≠ [] →
          objCommand s hp fn 7 a0
            = setHi (qmBusy s hp fn) fun h => { h with resets := mset h.resets (fnIdx hp fn) (qKey hp (bits a0 16 16)) })
      ∧ objCommand s hp fn 8 a0
          = qmDone (wr (wr s F.qmArg1Arg (stateCode q.state + q.cause * 16) (fnIdx hp fn))
              F.qmArg2Arg (q.pi + q.ci * 2 ^ 32) (fnIdx hp fn)) hp fn 0)
  ∧ (∀ s hp fn a0 k w, bits a0 0 2 = 2 → bits a0 16 16 < 16384 → k = qKey hp (bits a0 16 16) → mget s.hi.wqs k = some w → w.fn = fn →
      (w.destroying = false →
        objCommand s hp fn 6 a0
          = (let rest := positions w.log2 w.next w.pi
             let u := setWq s k { w with destroying := true, cache := [], reading := [], live := rest ++ w.live, next := w.pi,
                                          stall := none, walking := false }
             let v := clearPush (flushDescs u k w rest) k
             if w.live = [] then qmDone (dropWq v k w.fn) (qPort k) w.fn 0 else qmBusy v (qPort k) w.fn))
      ∧ (w.destroying = true → objCommand s hp fn 6 a0 = qmFail s hp fn 5)
      ∧ (w.state = .ready ∨ w.live ≠ [] ∨ w.next ≠ w.pi ∨ w.destroying = true ∨ wqHolds s k w.cq = true →
          objCommand s hp fn 7 a0 = qmFail s hp fn 5)
      ∧ (w.state = .error → w.live = [] → w.next = w.pi → w.destroying = false → wqHolds s k w.cq = false →
          objCommand s hp fn 7 a0
            = qmDone (refreshFnStat (clearPush (setWq s k
                { w with state := .ready, cause := 0, pi := 0, ci := 0, next := 0, cache := [], reading := [], done := [],
                          shadowCi := 0 }) k) hp fn) hp fn 0)
      ∧ objCommand s hp fn 8 a0
          = qmDone (wr (wr s F.qmArg1Arg (stateCode w.state + w.cause * 16) (fnIdx hp fn))
              F.qmArg2Arg (w.pi + w.ci * 2 ^ 32) (fnIdx hp fn)) hp fn 0)
  ∧ (∀ s hp fn a0 cmd, bits a0 0 2 = 3 ∨ (bits a0 0 2 = 0 ∧ 4096 ≤ bits a0 16 16)
        ∨ ((bits a0 0 2 = 1 ∨ bits a0 0 2 = 2) ∧ 16384 ≤ bits a0 16 16) →
      objCommand s hp fn cmd a0 = qmFail s hp fn 2)
  ∧ (∀ s hp fn a0, (bits a0 0 2 = 0 ∧ bits a0 16 16 < 4096 ∧ mget s.hi.eqs (eqKey hp (bits a0 16 16)) = none)
        ∨ (bits a0 0 2 = 1 ∧ bits a0 16 16 < 16384 ∧ mget s.hi.cqs (qKey hp (bits a0 16 16)) = none)
        ∨ (bits a0 0 2 = 2 ∧ bits a0 16 16 < 16384 ∧ mget s.hi.wqs (qKey hp (bits a0 16 16)) = none) →
      objCommand s hp fn 6 a0 = qmFail s hp fn 2 ∧ objCommand s hp fn 7 a0 = qmFail s hp fn 2
      ∧ objCommand s hp fn 8 a0 = qmDone (wr (wr s F.qmArg1Arg 0 (fnIdx hp fn)) F.qmArg2Arg 0 (fnIdx hp fn)) hp fn 0)
  ∧ (∀ s hp fn a0 cmd, (∃ e, bits a0 0 2 = 0 ∧ bits a0 16 16 < 4096 ∧ mget s.hi.eqs (eqKey hp (bits a0 16 16)) = some e ∧ e.fn ≠ fn)
        ∨ (∃ q, bits a0 0 2 = 1 ∧ bits a0 16 16 < 16384 ∧ mget s.hi.cqs (qKey hp (bits a0 16 16)) = some q ∧ q.fn ≠ fn)
        ∨ (∃ w, bits a0 0 2 = 2 ∧ bits a0 16 16 < 16384 ∧ mget s.hi.wqs (qKey hp (bits a0 16 16)) = some w ∧ w.fn ≠ fn) →
      objCommand s hp fn cmd a0 = qmFail s hp fn 4)

/-- What the creating queue commands do: with parameters in range and a free number, EQ_CREATE and CQ_CREATE make the queue empty and ready
and report its number; with parameters out of range they fail with code 2, and EQ_CREATE with nothing free with code 1. WQ_CREATE with
parameters in range, its own CQ and its own open EC, and a free number, makes the WQ empty and ready. EC_OPEN of a free named EC that the
port may use, with a domain and a CQ of its own and a grant left, opens it with STATE OPEN and XL_PKRR 0. What it takes from the model's
own readings stands in log entries 50 and 105. -/
def Obligations.CreatedQueuesStartEmpty : Prop :=
  (∀ s hp fn a0 a1, ringArgsOk fn a0 a1 = false → eqCreate s hp fn a0 a1 = qmFail s hp fn 2 ∧ cqCreate s hp fn a0 a1 = qmFail s hp fn 2)
  ∧ (∀ s hp fn a0 a1, ringArgsOk fn a0 a1 = true → freeEq s hp fn = none → eqCreate s hp fn a0 a1 = qmFail s hp fn 1)
  ∧ (∀ s hp fn a0 a1 n, ringArgsOk fn a0 a1 = true → freeEq s hp fn = some n →
      eqCreate s hp fn a0 a1
        = qmDone (setHi s fun h => { h with
            eqs := mset h.eqs (eqKey hp n)
              { fn := fn, addr := a0, log2 := bits a1 0 5, vec := bits a1 16 11, poll := bitAt a1 27, modCount := bits a1 32 8,
                modUs := bits a1 40 10, pi := 0, ci := 0, lost := 0, cause := 0, armed := false, count := 0, firstAt := none } }) hp fn n)
  ∧ (∀ s hp fn a0 a1 n, ringArgsOk fn a0 a1 = true → freeCq s hp fn = some n →
      cqCreate s hp fn a0 a1
        = qmDone (setCq s (qKey hp n)
            { fn := fn, addr := a0, log2 := bits a1 0 5, vec := bits a1 16 11, poll := bitAt a1 27, modCount := bits a1 32 8,
              modUs := bits a1 40 10, state := .ready, cause := 0, pi := 0, ci := 0, held := [], pendWritten := false,
              fullSince := none, armed := false, count := 0, firstAt := none }) hp fn n)
  ∧ (∀ s hp fn a0 a1 a2 q c n, 6 ≤ bits a1 0 5 → bits a1 0 5 ≤ 16 → a0 % 4096 = 0 → a2 % 8 = 0 →
      mget s.hi.cqs (qKey hp (bits a1 16 14)) = some q → q.fn = fn → ctxOf s (bits a1 32 20) = some c → c.hp = hp → c.fn = fn →
      c.closing = false → c.state = 1 → freeWq s hp fn = some n →
      wqCreate s hp fn a0 a1 a2
        = qmDone (setWq s (qKey hp n)
            { fn := fn, addr := a0, log2 := bits a1 0 5, cq := qKey hp (bits a1 16 14), ec := bits a1 32 20, shadow := a2,
              state := .ready, cause := 0, pi := 0, ci := 0, next := 0, cache := [], reading := [], live := [], done := [],
              shadowAt := s.timeNs, shadowCi := 0, destroying := false }) hp fn n)
  ∧ (∀ s hp fn a0 a1 q, bits a1 17 3 = 0 → domServes s (bits a1 0 12) hp fn = true → mget s.hi.cqs (qKey hp (bits a1 32 14)) = some q →
      q.fn = fn → vfGrants s hp fn F.hiVfMapEcMax (mcount s.tp.ecs fun _ c => c.hp == hp && c.fn == fn) = true → bitAt a0 20 = false →
      ctxOf s (bits a0 0 20) = none → ecAllowed s hp (bits a0 0 20) = true →
      ecOpenCmd s hp fn a0 a1
        = qmDone (setCtx s (bits a0 0 20)
            { state := 1, hp := hp, fn := fn, agg := bits a1 20 12, ops := bits a1 12 8, dom := bits a1 0 12, pkrr := 0,
              rcq := bits a1 32 14, closing := false, closeAt := 0 }) hp fn (bits a0 0 20))

/-- CQ_DOORBELL_WRITE, EQ_DOORBELL_WRITE, INTERRUPT_MODERATION_EXPIRED and CQ_STALL_LIMIT_EXPIRED. A served doorbell in a function's page,
written by the function, by PF0 of its port or, for port 0, by the management controller, acts on the queue that it names: one that names no
queue of the function, or a CI that is not between the present one and PI, is refused; any other sets CI (a CQ with held completions writes
those first; an EQ that has lost events and has room reports them first), and with ARM the queue is armed, or its vector fires at once when
entries wait and MOD_US is 0. Once MOD_US has passed on an armed queue with entries its vector fires and it is disarmed; before that it
stays. A READY CQ full for the stall limit enters ERROR; one that is not stays. What it takes from the model's own readings stands in
log entries 74, 82 and 88. -/
def Obligations.CompletionQueueCommandsComplete : Prop :=
  (∀ s now who hp fn width val, Served s who → 64 ≤ width → fn < 256 → hp < 2 →
      (who = .fn hp fn ∨ who = .fn hp 0 ∨ (who = .mgmt ∧ hp = 0)) →
      wordLegal (fieldsAt (fnPageKey hp fn 0x1000)) val = true →
      exec (.cqDoorbellWrite now who hp fn width val) s
        = .next (settled s (viaGate (atTime s now) who fun t => cqDoorbell t hp fn val)))
  ∧ (∀ s now who hp fn width val, Served s who → 64 ≤ width → fn < 256 → hp < 2 →
      (who = .fn hp fn ∨ who = .fn hp 0 ∨ (who = .mgmt ∧ hp = 0)) →
      wordLegal (fieldsAt (fnPageKey hp fn 0x1008)) val = true →
      exec (.eqDoorbellWrite now who hp fn width val) s
        = .next (settled s (viaGate (atTime s now) who fun t => eqDoorbell t hp fn val)))
  ∧ (∀ s hp fn w, (∀ q, mget s.hi.cqs (qKey hp (wordGet w 32 14)) = some q →
        q.fn ≠ fn ∨ ciOk q.log2 q.pi q.ci (wordGet w 0 17) = false) → cqDoorbell s hp fn w = refuseWrite s)
  ∧ (∀ s hp fn w, (∀ e, mget s.hi.eqs (eqKey hp (wordGet w 32 12)) = some e →
        e.fn ≠ fn ∨ ciOk e.log2 e.pi e.ci (wordGet w 0 17) = false) → eqDoorbell s hp fn w = refuseWrite s)
  ∧ (∀ s hp fn w q, mget s.hi.cqs (qKey hp (wordGet w 32 14)) = some q → q.fn = fn →
      ciOk q.log2 q.pi q.ci (wordGet w 0 17) = true → q.held = [] →
      cqDoorbell s hp fn w
        = (let k := qKey hp (wordGet w 32 14)
           let new := wordGet w 0 17
           let since := if new = q.ci then q.fullSince else none
           let r := { q with ci := new, pendWritten := false,
                              fullSince := if ringFull q.log2 q.pi new = true ∧ since = none then some s.timeNs else since }
           let waits := ringCount q.log2 q.pi new
           if wordGet w 17 1 = 0 then setCq s k r
           else if waits ≠ 0 ∧ q.modUs = 0 then
             raiseIrq (setCq s k { r with armed := false, count := 0, firstAt := none }) hp fn q.vec q.poll
           else setCq s k { r with armed := true, count := 0, firstAt := if waits = 0 then none else some s.timeNs }))
  ∧ (∀ s hp fn w e, mget s.hi.eqs (eqKey hp (wordGet w 32 12)) = some e → e.fn = fn →
      ciOk e.log2 e.pi e.ci (wordGet w 0 17) = true → e.lost = 0 →
      eqDoorbell s hp fn w
        = (let k := eqKey hp (wordGet w 32 12)
           let r := { e with ci := wordGet w 0 17 }
           let waits := ringCount e.log2 e.pi (wordGet w 0 17)
           if wordGet w 17 1 = 0 then setHi s fun h => { h with eqs := mset h.eqs k r }
           else if waits ≠ 0 ∧ e.modUs = 0 then
             raiseIrq (setHi s fun h => { h with eqs := mset h.eqs k { r with armed := false, count := 0, firstAt := none } })
               hp fn e.vec e.poll
           else setHi s fun h => { h with
             eqs := mset h.eqs k { r with armed := true, count := 0, firstAt := if waits = 0 then none else some s.timeNs } }))
  ∧ (∀ s hp fn w e, mget s.hi.eqs (eqKey hp (wordGet w 32 12)) = some e → e.fn = fn →
      ciOk e.log2 e.pi e.ci (wordGet w 0 17) = true → e.lost ≠ 0 → ringFull e.log2 e.pi (wordGet w 0 17) = false →
      wordGet w 17 1 = 0 →
      eqDoorbell s hp fn w
        = eqOverflow (setHi s fun h => { h with eqs := mset h.eqs (eqKey hp (wordGet w 32 12)) { e with ci := wordGet w 0 17 } })
            (eqKey hp (wordGet w 32 12)) { e with ci := wordGet w 0 17 })
  ∧ (∀ s now hp n q, mget s.hi.cqs (qKey hp n) = some q → q.armed = true → q.pi ≠ q.ci → q.firstAt ≠ none →
      modOver (atTime s now) q.firstAt q.modUs = true →
      exec (.interruptModerationExpired now false hp n) s
        = .next (settled s (raiseIrq (setCq (atTime s now) (qKey hp n) { q with armed := false, count := 0, firstAt := none })
            (qPort (qKey hp n)) q.fn q.vec q.poll)))
  ∧ (∀ s now hp n q, mget s.hi.cqs (qKey hp n) = some q →
      q.armed = false ∨ q.pi = q.ci ∨ q.firstAt = none ∨ modOver (atTime s now) q.firstAt q.modUs = false →
      exec (.interruptModerationExpired now false hp n) s = .next (settled s (atTime s now)))
  ∧ (∀ s now hp n e, mget s.hi.eqs (eqKey hp n) = some e → e.armed = true → e.pi ≠ e.ci → e.firstAt ≠ none →
      modOver (atTime s now) e.firstAt e.modUs = true →
      exec (.interruptModerationExpired now true hp n) s
        = .next (settled s (
            let k := eqKey hp n
            let u := setHi (atTime s now) fun h => { h with eqs := mset h.eqs k { e with armed := false, count := 0, firstAt := none } }
            raiseIrq u hp e.fn e.vec e.poll)))
  ∧ (∀ s now hp n e, mget s.hi.eqs (eqKey hp n) = some e →
      e.armed = false ∨ e.pi = e.ci ∨ e.firstAt = none ∨ modOver (atTime s now) e.firstAt e.modUs = false →
      exec (.interruptModerationExpired now true hp n) s = .next (settled s (atTime s now)))
  ∧ (∀ s now hp n q full, mget s.hi.cqs (qKey hp n) = some q → q.fullSince = some full → q.state = .ready →
      ringFull q.log2 q.pi q.ci = true → full + rd s F.qmCqStallLimitMs hp * 1000000 ≤ (atTime s now).timeNs →
      exec (.cqStallLimitExpired now hp n) s = .next (settled s (cqError (atTime s now) (qKey hp n) q)))
  ∧ (∀ s now hp n q, mget s.hi.cqs (qKey hp n) = some q →
      q.fullSince = none ∨ q.state = .error ∨ ringFull q.log2 q.pi q.ci = false →
      exec (.cqStallLimitExpired now hp n) s = .next (settled s (atTime s now)))

/-- PERST_ASSERT, HOT_RESET_START, SURPRISE_LINK_DOWN, PORT_RESET_COMPLETE, HOST_LINK_UP and PF0_ENABLES_SET. PERSTn falling begins HFUND;
one that is low already changes nothing. A hot reset or link-down of a port with its link up resets its functions, a link-down leaving no
rate; with its link down neither does anything. The reset ends once nothing of its scope is left and PERSTn is high, and not before. A link
that comes up in FLIT mode takes its rate and width; one that does not, or after THERMTRIP, stays down. A configuration write with Bus
Master and Memory Space Enable set stores them with the host's settings (VF Enable is not cleared, NumVFs changes only while it is clear),
and vectors no longer masked raise what they have pending; of a PF0 that does not answer it changes nothing. What it takes from the
model's own readings stands in log entries 73, 74, 75 and 98. -/
def Obligations.PortCommandsComplete : Prop :=
  (∀ s now hp, hp < 2 → (portOf s hp).perstLow = false →
      exec (.perstAssert now hp) s
        = .next (settled s (beginHfund (wrb (setPort (atTime s now) hp { portOf s hp with perstLow := true })
            F.hiPortStatPerst true hp) hp)))
  ∧ (∀ s now hp, (portOf s hp).perstLow = true → exec (.perstAssert now hp) s = .next (settled s (atTime s now)))
  ∧ (∀ s now hp, rdb s F.hiPortStatLinkUp hp = false →
      exec (.hotResetStart now hp) s = .next (settled s (atTime s now))
      ∧ exec (.surpriseLinkDown now hp) s = .next (settled s (atTime s now)))
  ∧ (∀ s now hp, hp < 2 → rdb s F.hiPortStatLinkUp hp = true →
      exec (.hotResetStart now hp) s = .next (settled s (beginPortReset (atTime s now) hp)))
  ∧ (∀ s now hp, hp < 2 → rdb s F.hiPortStatLinkUp hp = true →
      exec (.surpriseLinkDown now hp) s
        = .next (settled s (wr (beginPortReset (atTime s now) hp) F.hiPortStatSpeed 0 hp)))
  ∧ (∀ s hp, hp < 2 → (portOf s hp).resetting = true → portAccs s hp = false → fnsFree s hp none = true →
      (portOf s hp).perstLow = false →
      exec (.portResetComplete hp) s
        = .next (settled s (refreshServing (wrb (setPort s hp { portOf s hp with resetting := false })
            F.hiPortStatHotReset false hp) hp)))
  ∧ (∀ s hp, (portOf s hp).resetting = false ∨ portAccs s hp = true ∨ fnsFree s hp none = false ∨ (portOf s hp).perstLow = true →
      exec (.portResetComplete hp) s = .next (settled s s))
  ∧ (∀ s now hp flit speed width, flit = false ∨ (portOf s hp).perstLow = true ∨ rdb s F.hiPortStatLinkUp hp = true ∨ speed = 0
        ∨ 3 < speed ∨ width ∉ [4, 8, 16] ∨ s.pw.tripped = true →
      exec (.hostLinkUp now hp flit speed width) s = .next (settled s (atTime s now)))
  ∧ (∀ s now hp cfg masked, configAnswers s hp 0 = false →
      exec (.pf0EnablesSet now hp cfg masked) s = .next (settled s (atTime s now)))
  ∧ (∀ s now hp speed width, hp < 2 → (portOf s hp).perstLow = false → rdb s F.hiPortStatLinkUp hp = false → 1 ≤ speed → speed ≤ 3 →
      width ∈ [4, 8, 16] → s.pw.tripped = false →
      exec (.hostLinkUp now hp true speed width) s
        = .next (settled s (
            let u := wr (wr (wr (atTime s now) F.hiPortStatSpeed speed hp) F.hiPortStatWidth width hp) F.hiPortStatL0pWidth width hp
            refreshServing (wrb (wr u F.hiPortStatPm 0 hp) F.hiPortStatLinkUp true hp) hp)))
  ∧ (∀ s now hp cfg masked t, configAnswers s hp 0 = true → t = wakePort (atTime s now) hp →
      exec (.pf0EnablesSet now hp cfg masked) s
        = .next (settled s (
            let old := (portOf t hp).cfg
            unmask (refreshServing (setPort t hp { portOf t hp with
              cfg := { cfg with
                bme := true, mse := true, vfEnable := old.vfEnable || cfg.vfEnable,
                numVfs := if old.vfEnable then old.numVfs else min 255 cfg.numVfs } }) hp) hp masked)))

/-- FLR_START, FLR_COMPLETE, FLR_WEDGE_TIMEOUT, VF_ENABLE_CLEAR, D3HOT_ENTER, D0_RETURN, L0P_IDLE_NARROW, L0P_RESTORE and L1_IDLE_ENTRY. An
FLR of a function that answers configuration requests, outside a port reset, begins; it ends once the objects of its scope are free, and 100
ms after it began its function is wedged and reported. Clearing VF Enable starts the FLR of every VF that is in none and not wedged. A
function that answers enters D3hot (PF0 with its Memory Space Enable cleared) and returns to D0. A link up in L0 with the feature on and
wider than x4 narrows to half its width after L0P_IDLE_US of low use; with over 4,096 bytes queued it has its full width; with ASPM L1
enabled, in L0, with no CXL.mem access of the port and no write-back waiting for it, it enters L1, or an enabled substate, after
L1_IDLE_US. What it takes from the model's own readings stands in log entries 73 and 75. -/
def Obligations.FunctionAndPowerStateCommandsComplete : Prop :=
  (∀ s now hp fn, configAnswers s hp fn = true → (portOf s hp).resetting = false →
      exec (.flrStart now hp fn) s = .next (settled s (beginFlr (wakePort (atTime s now) hp) hp fn)))
  ∧ (∀ s now hp fn, configAnswers s hp fn = false ∨ (portOf s hp).resetting = true →
      exec (.flrStart now hp fn) s = .next (settled s (atTime s now)))
  ∧ (∀ s hp fn, mhas (portOf s hp).flr fn = true → fnsFree s hp (if fn = 0 then none else some fn) = true →
      exec (.flrComplete hp fn) s
        = .next (settled s (setPort s hp { portOf s hp with flr := mdel (portOf s hp).flr fn })))
  ∧ (∀ s hp fn, mhas (portOf s hp).flr fn = false ∨ fnsFree s hp (if fn = 0 then none else some fn) = false →
      exec (.flrComplete hp fn) s = .next (settled s s))
  ∧ (∀ s now hp fn at', mget (portOf s hp).flr fn = some at' → at' + 100000000 ≤ (atTime s now).timeNs →
      exec (.flrWedgeTimeout now hp fn) s
        = .next (settled s (
            let u := setPort (atTime s now) hp { portOf s hp with flr := mdel (portOf s hp).flr fn }
            let j := hp * 4 + fn / 64
            let v := wr u F.hiWedgedFn (rd u F.hiWedgedFn j ||| 2 ^ (fn % 64)) j
            tell (wr v F.hiPortStatWedgedFns (rd v F.hiPortStatWedgedFns hp + 1) hp) (.fault 13 (hp * 256 + fn)))))
  ∧ (∀ s now hp, configAnswers s hp 0 = true → (portOf s hp).cfg.vfEnable = true → (portOf s hp).resetting = false →
      exec (.vfEnableClear now hp) s
        = .next (settled s (
            let p := portOf s hp
            let u := setPort (wakePort (atTime s now) hp) hp { p with cfg := { p.cfg with vfEnable := false, vfMse := false } }
            ((List.range p.cfg.numVfs).map (· + 1)).foldl
              (fun x f => if mhas (portOf x hp).flr f || wedged x hp f then x else beginFlr x hp f) u)))
  ∧ (∀ s hp fn, configAnswers s hp fn = true → (portOf s hp).d3hot.contains fn = false →
      exec (.d3hotEnter hp fn) s
        = .next (settled s (refreshServing (setPort (wakePort s hp) hp
            { portOf s hp with
              d3hot := fn :: (portOf s hp).d3hot
              cfg := if fn = 0 then { (portOf s hp).cfg with mse := false } else (portOf s hp).cfg }) hp)))
  ∧ (∀ s hp fn, configAnswers s hp fn = true → (portOf s hp).d3hot.contains fn = true →
      exec (.d0Return hp fn) s
        = .next (settled s (refreshServing (setPort (wakePort s hp) hp
            { portOf s hp with d3hot := (portOf s hp).d3hot.erase fn }) hp)))
  ∧ (∀ s hp lowNs, rdb s F.hiPortStatLinkUp hp = true → rdb s F.hiPmL0pEn hp = true → rd s F.hiPortStatPm hp = 0 →
      4 < rd s F.hiPortStatL0pWidth hp → rd s F.hiPmL0pIdleUs hp * 1000 ≤ lowNs →
      exec (.l0pIdleNarrow hp lowNs) s
        = .next (settled s (wr s F.hiPortStatL0pWidth (rd s F.hiPortStatL0pWidth hp / 2) hp)))
  ∧ (∀ s hp queued, rdb s F.hiPortStatLinkUp hp = true → 4096 < queued →
      exec (.l0pRestore hp queued) s
        = .next (settled s (wr (wakePort s hp) F.hiPortStatL0pWidth (rd s F.hiPortStatWidth hp) hp)))
  ∧ (∀ s hp idleNs, rdb s F.hiPortStatLinkUp hp = true → (portOf s hp).cfg.aspmL1 = true → rd s F.hiPortStatPm hp = 0 →
      (∀ id a, (id, a) ∈ s.gw.accs → a.hp ≠ hp) →
      wbPort s ≠ some hp ∨ (∀ i l, (i, l) ∈ s.gw.lines → l.wants = false) → rd s F.hiPmL1IdleUs hp * 1000 ≤ idleNs →
      exec (.l1IdleEntry hp idleNs) s
        = .next (settled s (wr s F.hiPortStatPm (if (portOf s hp).cfg.l1sub then 2 else 1) hp)))
  ∧ (∀ s hp lowNs, rdb s F.hiPortStatLinkUp hp = false →
      exec (.l0pIdleNarrow hp lowNs) s = .next (settled s s) ∧ exec (.l0pRestore hp lowNs) s = .next (settled s s)
      ∧ exec (.l1IdleEntry hp lowNs) s = .next (settled s s))

/-- COLL_CL_CMD_ABORT, CL_CMD_RESET, CL_HOP_RTO_EXPIRED and CL_OP_LIMIT_EXPIRED. A served ABORT of PF0 of a port or of the management
controller aborts a valid group with cause HOST (6) and does nothing to another; a RESET returns an ABORTED group to IDLE, empty and with
cause 0, and does nothing to another; both are refused from any other function. Outside HOLD a packet whose hop timer has run out is sent
again, with one retry more unless the receiver was busy; with HOP_RETRIES used its operation aborts with HOP_LOST (1), and of an ABORT
nothing more is sent; in HOLD, or before its time, it stays. Outside HOLD an operation not complete OP_LIMIT_MS after it began, or of which
only packets from below have come for so long, aborts with cause 5; with OP_LIMIT_MS = 0, in HOLD, or when it is done, it stays. -/
def Obligations.GroupCommandsComplete : Prop :=
  (∀ s who width g, Served s who → 64 ≤ width → isPf0 who = true → g < 4096 → rdb s F.clGroupValid g = true →
      exec (.collClCmdAbort who g width) s
        = .next (settled s (viaGate s who fun t => abortGrp t g (abortSeq t g) 6 none)))
  ∧ (∀ s who width g, Served s who → 64 ≤ width → isPf0 who = true → g < 4096 → rdb s F.clGroupValid g = false →
      exec (.collClCmdAbort who g width) s = .next (settled s (viaGate s who id)))
  ∧ (∀ s who width g, Served s who → 64 ≤ width → isPf0 who = true → g < 4096 → rd s F.clGroupState g = 2 →
      exec (.clCmdReset who g width) s
        = .next (settled s (viaGate s who fun t =>
            refreshPool (setGrp (wr (wr t F.clGroupState 0 g) F.clGroupCause 0 g) g {}))))
  ∧ (∀ s who width g, Served s who → 64 ≤ width → isPf0 who = true → g < 4096 → rd s F.clGroupState g ≠ 2 →
      exec (.clCmdReset who g width) s = .next (settled s (viaGate s who id)))
  ∧ (∀ s who width g, Served s who → 64 ≤ width → isPf0 who = false → g < 4096 →
      exec (.collClCmdAbort who g width) s = .next (settled s (viaGate s who refuseWrite))
      ∧ exec (.clCmdReset who g width) s = .next (settled s (viaGate s who refuseWrite)))
  ∧ (∀ s now g dev seq psn abort id p, collWaits s g dev seq psn abort = some (id, p) → holdOn s = false →
      p.at' + hopWait s p ≤ (atTime s now).timeNs → p.busy = true ∨ p.retries < rd s F.clCfgHopRetries →
      exec (.clHopRtoExpired now g dev seq psn abort) s
        = .next (settled s (
            let x := grp s g
            let q := { p with at' := (atTime s now).timeNs, busy := false, retries := if p.busy then p.retries else p.retries + 1 }
            queueColl (pmCount (inc (setGrp (atTime s now) g { x with sends := mset x.sends id q }) F.clCnt0Retx) 0x80 g 3 1)
              g p.dev p.up p.key p.seq p.psn p.off p.tc p.last p.payload)))
  ∧ (∀ s now g dev seq psn abort id p, collWaits s g dev seq psn abort = some (id, p) → holdOn s = false →
      p.at' + hopWait s p ≤ (atTime s now).timeNs → p.busy = false → rd s F.clCfgHopRetries ≤ p.retries →
      exec (.clHopRtoExpired now g dev seq psn abort) s
        = .next (settled s (
            if p.kind = 2 then setGrp (atTime s now) g { grp s g with sends := mdel (grp s g).sends id }
            else abortGrp (atTime s now) g seq 1 none)))
  ∧ (∀ s now g dev seq psn abort id p, collWaits s g dev seq psn abort = some (id, p) →
      holdOn s = true ∨ (atTime s now).timeNs < p.at' + hopWait s p →
      exec (.clHopRtoExpired now g dev seq psn abort) s = .next (settled s (atTime s now)))
  ∧ (∀ s now g seq o, mget (grp s g).ops seq = some o → holdOn s = false → o.done = false → rd s F.clCfgOpLimitMs ≠ 0 →
      o.since + rd s F.clCfgOpLimitMs * 1000000 ≤ (atTime s now).timeNs →
      exec (.clOpLimitExpired now g seq) s = .next (settled s (abortGrp (atTime s now) g seq 5 none)))
  ∧ (∀ s now g seq o, mget (grp s g).ops seq = some o → holdOn s = true ∨ o.done = true ∨ rd s F.clCfgOpLimitMs = 0
        ∨ (atTime s now).timeNs < o.since + rd s F.clCfgOpLimitMs * 1000000 →
      exec (.clOpLimitExpired now g seq) s = .next (settled s (atTime s now)))
  ∧ (∀ s now g seq at' p, mget (grp s g).ops seq = none → (at', p) ∈ (grp s g).early → p.msgid = seq → holdOn s = false →
      rd s F.clCfgOpLimitMs ≠ 0 → at' + rd s F.clCfgOpLimitMs * 1000000 ≤ (atTime s now).timeNs →
      exec (.clOpLimitExpired now g seq) s = .next (settled s (abortGrp (atTime s now) g seq 5 none)))

/-- EX_RING_CI_WRITE, EX_BATCH_TIMER, EX_RTO_EXPIRED, EX_PROBE_TIMER, EX_RING_COPY and EX_RING_STALL. A served CI of PF0 of the job's port
that is at most PI is stored, and the ring's full time follows; one beyond PI, or another writer's, is refused. Outside HOLD and at their
time: an open batch is closed and sent BATCH_US after its first record; a sent batch whose timer runs out is resent (with a retry more,
unless its receiver had no room), and with RETRIES used its job fails with cause 1; a stream whose window is closed with records waiting is
probed with an empty batch whose BSEQ is BASE - 1. In HOLD, or before its time, each stays. The oldest staged batch of an OPEN or FAILED job
that fits and whose pages translate is copied into the ring, PI moves, and the credit goes out; one that does not fit stays staged, and with
nothing staged nothing changes. A ring full for 100 ms is told once. What it takes from the model's own readings stands in log entries
11, 35, 81 and 82. -/
def Obligations.ExchangeCommandsComplete : Prop :=
  (∀ s width j val, Served s (.fn (rd s F.exJobHp j) 0) → 64 ≤ width → j < 64 → wordLegal (fieldsAt (F.exRingCi.key j)) val = true →
      val.toNat ≤ rd s F.exRingPi j →
      exec (.exRingCiWrite (.fn (rd s F.exJobHp j) 0) j width val) s
        = .next (settled s (viaGate s (.fn (rd s F.exJobHp j) 0) fun t => noteFull (wr t F.exRingCi val.toNat j) j)))
  ∧ (∀ s who width j val, Served s who → 64 ≤ width → j < 64 → wordLegal (fieldsAt (F.exRingCi.key j)) val = true →
      who ≠ .fn (rd s F.exJobHp j) 0 ∨ rd s F.exRingPi j < val.toNat →
      exec (.exRingCiWrite who j width val) s = .next (settled s (viaGate s who refuseWrite)))
  ∧ (∀ s now j dev ec id b, openBatch s j dev ec = some (id, b) → holdOn s = false →
      b.since + rd s F.exCfgBatchUs * 1000 ≤ (atTime s now).timeNs →
      exec (.exBatchTimer now j dev ec) s = .next (settled s (moveJob (closeBatch (atTime s now) j id) j)))
  ∧ (∀ s now j dev ec id b, openBatch s j dev ec = some (id, b) →
      holdOn s = true ∨ (atTime s now).timeNs < b.since + rd s F.exCfgBatchUs * 1000 →
      exec (.exBatchTimer now j dev ec) s = .next (settled s (atTime s now)))
  ∧ (∀ s now j dev q id b, ((job s j).batches.find? fun e => e.2.dev == dev && e.2.bseq == some q && e.2.sent) = some (id, b) →
      holdOn s = false → b.sentAt + batchWait s b ≤ (atTime s now).timeNs → b.noroom = true ∨ b.retries < rd s F.exCfgRetries →
      exec (.exRtoExpired now j dev q) s
        = .next (settled s (
            let b' := { b with
              sentAt := (atTime s now).timeNs, noroom := false, retries := if b.noroom then b.retries else b.retries + 1 }
            queueBatch (inc (setJob (atTime s now) j { job s j with batches := mset (job s j).batches id b' }) F.exCnt0Retx)
              j b.dev b.ec (b.bseq.getD 0) b.count b.bytes)))
  ∧ (∀ s now j dev q id b, ((job s j).batches.find? fun e => e.2.dev == dev && e.2.bseq == some q && e.2.sent) = some (id, b) →
      holdOn s = false → b.sentAt + batchWait s b ≤ (atTime s now).timeNs → b.noroom = false → rd s F.exCfgRetries ≤ b.retries →
      exec (.exRtoExpired now j dev q) s = .next (settled s (failJob (atTime s now) j 1 b.dev)))
  ∧ (∀ s now j dev q id b, ((job s j).batches.find? fun e => e.2.dev == dev && e.2.bseq == some q && e.2.sent) = some (id, b) →
      holdOn s = true ∨ (atTime s now).timeNs < b.sentAt + batchWait s b →
      exec (.exRtoExpired now j dev q) s = .next (settled s (atTime s now)))
  ∧ (∀ s now j dev x, mget (job s j).streams dev = some x → holdOn s = false → streamShut (job s j) dev x = true →
      x.probeAt + rd s F.exCfgBackoffUs * 1000 ≤ (atTime s now).timeNs →
      exec (.exProbeTimer now j dev) s
        = .next (settled s (queueBatch (setJob (atTime s now) j { job s j with
            streams := mset (job s j).streams dev { x with probeAt := (atTime s now).timeNs } }) j dev x.ec
              ((x.base + 2 ^ 24 - 1) % 2 ^ 24) 0 [])))
  ∧ (∀ s now j dev x, mget (job s j).streams dev = some x → holdOn s = true ∨ streamShut (job s j) dev x = false
        ∨ (atTime s now).timeNs < x.probeAt + rd s F.exCfgBackoffUs * 1000 →
      exec (.exProbeTimer now j dev) s = .next (settled s (atTime s now)))
  ∧ (∀ s now j, (job s j).arrival = [] → exec (.exRingCopy now j) s = .next (settled s (atTime s now)))
  ∧ (∀ s now j dev q rest, (job s j).arrival = (dev, q) :: rest →
      2 ^ rd s F.exRingLog2 j < rd s F.exRingPi j - rd s F.exRingCi j
        + ((mget (mgetD (job s j).recvs dev {}).staged q).getD []).length →
      exec (.exRingCopy now j) s = .next (settled s (noteFull (atTime s now) j)))
  ∧ (∀ s now j dev q rest t r bs pi u l v l', t = atTime s now → (job s j).arrival = (dev, q) :: rest → rd s F.exJobState j ≠ 0 →
      r = mgetD (job s j).recvs dev {} → bs = (mget r.staged q).getD [] → pi = rd s F.exRingPi j →
      pi - rd s F.exRingCi j + bs.length ≤ 2 ^ rd s F.exRingLog2 j →
      translateAdm t (ringAdm t j 1 (ringSpans t j pi bs.length)) = (u, .ok l) →
      translateAdm u (ringAdm t j 1 [(rd t F.exRingPiDva j * 8, 8)]) = (v, .ok l') →
      exec (.exRingCopy now j) s
        = .next (settled s (
            let a := writePieces v (ringAdm t j 1 (ringSpans t j pi bs.length)).hp l bs
            let b := writePieces (wr a F.exRingPi (pi + bs.length) j) (ringAdm t j 1 [(rd t F.exRingPiDva j * 8, 8)]).hp l'
              (toBytes 8 (pi + bs.length))
            let r' := moveBase 17 { r with staged := mdel r.staged q, have' := q :: r.have' }
            let c := grantWin (setJob b j { job s j with recvs := mset (job s j).recvs dev r', arrival := rest }) j dev
            let d := sendCredit c j dev r'.ec r'.tc q 0 (mgetD (job c j).recvs dev {})
            let e := if pi = rd d F.exRingCi j ∧ bs ≠ [] then
                drawn (event d (rd d F.exJobHp j) (rd d F.exJobFunc j) (openFields d 0x50) (freeNat d))
              else d
            refreshEx (noteFull e j))))
  ∧ (∀ s now j full, (job s j).fullSince = some full → (job s j).stallTold = false → rd s F.exJobState j ≠ 0 →
      full + 100000000 ≤ (atTime s now).timeNs →
      exec (.exRingStall now j) s
        = .next (settled s (
            let t := setJob (atTime s now) j { job s j with stallTold := true }
            drawn (event t (rd t F.exJobHp j) (rd t F.exJobFunc j) (openFields t 0x51) (freeNat t)))))
  ∧ (∀ s now j, (job s j).fullSince = none ∨ (job s j).stallTold = true →
      exec (.exRingStall now j) s = .next (settled s (atTime s now)))

/-- ALIAS_ACQUIRE_READ, ALIAS_TRY_READ, ALIAS_RELEASE_READ, ALIAS_RESULT_READ and ALIAS_MARGIN_EXPIRED: outside HOLD a read of a slot is
taken at once, and in HOLD one by a function that answers is put off; a read by a function that does not answer is an unsupported request; a
read of a slot that is not bound returns NOT_BOUND (8), with the other fields open; a read of a bound slot becomes pending, due WAIT plus
the margin later, and the first one begins. A read past its time outside HOLD returns UNKNOWN (9), its message is undone, and the next
begins; one in HOLD or before its time stays. LOCK_WAIT_EXPIRED: outside HOLD a waiter queued for WAIT_US leaves the queue and receives
TIMEOUT (2), and a word left without waiters is written over a serving port; in HOLD or before its time it stays. ABANDON_WAIT_EXPIRED: 50
ms into a reset the records of its scope whose ABANDON has not ended are marked. ABANDON_RESEND_TIMER: a marked record's ABANDON is sent
again 10 ms after the last unless one still runs. What it takes from the model's own readings stands in log entries 22, 68, 70, 71 and
73. -/
def Obligations.AliasAndLockTimersComplete : Prop :=
  (∀ s now hp fn i t, t = wakePort (atTime s now) hp → i < 65536 → holdOn t = false →
      exec (.aliasAcquireRead now hp fn i) s = .next (settled s (aliasTaken t hp fn i 0x00)))
  ∧ (∀ s now hp fn i t, t = wakePort (atTime s now) hp → i < 65536 → holdOn t = false →
      exec (.aliasTryRead now hp fn i) s = .next (settled s (aliasTaken t hp fn i 0x08)))
  ∧ (∀ s now hp fn i t, t = wakePort (atTime s now) hp → i < 65536 → holdOn t = false →
      exec (.aliasReleaseRead now hp fn i) s = .next (settled s (aliasTaken t hp fn i 0x10)))
  ∧ (∀ s now hp fn i t, t = wakePort (atTime s now) hp → i < 65536 → holdOn t = false →
      exec (.aliasResultRead now hp fn i) s = .next (settled s (aliasTaken t hp fn i 0x18)))
  ∧ (∀ s now hp fn i t, t = wakePort (atTime s now) hp → i < 65536 → holdOn t = true → fnSilent t hp fn = false →
      fnEnabled t hp fn = true →
      exec (.aliasAcquireRead now hp fn i) s
        = .next (settled s (setTxn t fun x => { x with held := x.held ++ [.aliasRd hp fn i 0x00] }))
      ∧ exec (.aliasTryRead now hp fn i) s
        = .next (settled s (setTxn t fun x => { x with held := x.held ++ [.aliasRd hp fn i 0x08] }))
      ∧ exec (.aliasReleaseRead now hp fn i) s
        = .next (settled s (setTxn t fun x => { x with held := x.held ++ [.aliasRd hp fn i 0x10] }))
      ∧ exec (.aliasResultRead now hp fn i) s
        = .next (settled s (setTxn t fun x => { x with held := x.held ++ [.aliasRd hp fn i 0x18] })))
  ∧ (∀ s hp fn i off, fnSilent s hp fn = true ∨ fnEnabled s hp fn = false →
      aliasTaken s hp fn i off = emit s (.unsupported (.fn hp fn) (64 * i + off)))
  ∧ (∀ s hp fn i off, fnSilent s hp fn = false → fnEnabled s hp fn = true → aliasBound s hp fn i = false →
      aliasTaken s hp fn i off = aliasData (drawn s) hp fn i off (aliasWord 8 (freeNat s)))
  ∧ (∀ s hp fn i off r t, fnSilent s hp fn = false → fnEnabled s hp fn = true → aliasBound s hp fn i = true →
      r = ({ id := s.at'.nextRead, hp := hp, fn := fn, off := off, since := s.timeNs,
             dueAt := s.timeNs + 1000 * (waitLimit s (rd s F.atAliasWaitUs i) + rd s F.atCfgAliasMarginUs) } : AliasRead) →
      t = setAt s (fun a => { a with reads := mset a.reads i (mgetD s.at'.reads i [] ++ [r]), nextRead := a.nextRead + 1 }) →
      aliasTaken s hp fn i off
        = (let u := pmSample (wrb t F.atAliasPending true i) 0 4 (aliasId i r.id)
             [rd t F.atAliasEc i, 9, aliasOff t i, selfId t, rd t F.atAliasDev i, 5, 16]
           if mgetD s.at'.reads i [] = [] then beginAlias u i else u))
  ∧ (∀ s now i r l t, mget s.at'.reads i = some (r :: l) → holdOn s = false → t = atTime s now → r.dueAt ≤ t.timeNs →
      exec (.aliasMarginExpired now i) s
        = .next (settled s (beginAlias (undoAlias (answerAlias (drawn t) i (aliasWord 9 (freeNat t))) i r) i)))
  ∧ (∀ s now i r l, mget s.at'.reads i = some (r :: l) → holdOn s = true ∨ (atTime s now).timeNs < r.dueAt →
      exec (.aliasMarginExpired now i) s = .next (settled s (atTime s now)))
  ∧ (∀ s now dom dva src id l w t, t = atTime s now → mget s.at'.locks (wordKey dom dva) = some l →
      (l.waiters.find? fun w => w.src == src && w.msgid == id) = some w → holdOn s = false → w.since + w.waitUs * 1000 ≤ t.timeNs →
      exec (.lockWaitExpired now dom dva src id) s
        = .next (settled s (
            let l' := { l with waiters := l.waiters.erase w }
            let u := setLock (inc t F.atCnt1Timeouts) (wordKey dom dva) l'
            let v := if l'.waiters = [] ∧ serving u l.hp = true then writeLock u l.hp l.pa (heldWord l') else u
            lockRsp v w.ec w.src w.tc w.msgid (heldWord l') 2 ((t.timeNs - w.queued) / 1000))))
  ∧ (∀ s now dom dva src id l w, mget s.at'.locks (wordKey dom dva) = some l →
      (l.waiters.find? fun w => w.src == src && w.msgid == id) = some w →
      holdOn s = true ∨ (atTime s now).timeNs < w.since + w.waitUs * 1000 →
      exec (.lockWaitExpired now dom dva src id) s = .next (settled s (atTime s now)))
  ∧ (∀ s now hp fn,
      exec (.abandonWaitExpired now hp fn) s
        = .next (settled s (setAt (atTime s now) fun a => { a with
            holds := mmap a.holds fun _ h =>
              if h.abandoning && h.req / 2 ^ 13 == hp && scopeHas fn (bits h.req 5 8)
                && decide (h.since + 50000000 ≤ (atTime s now).timeNs)
              then { h with marked := true } else h })))
  ∧ (∀ s now id h, mget s.at'.holds id = some h → h.marked = true → (∀ k m, (k, m) ∈ s.tp.slots → m.origin ≠ .abandon id) →
      (∀ m n, (m, n) ∈ s.tp.wait → m.origin ≠ .abandon id) → h.sentAt + 10000000 ≤ (atTime s now).timeNs →
      exec (.abandonResendTimer now id) s = .next (settled s (sendAbandon (atTime s now) id h)))
  ∧ (∀ s now id h, mget s.at'.holds id = some h → h.marked = false ∨ (∃ k m, (k, m) ∈ s.tp.slots ∧ m.origin = .abandon id)
        ∨ (atTime s now).timeNs < h.sentAt + 10000000 →
      exec (.abandonResendTimer now id) s = .next (settled s (atTime s now)))

/-- KILN_GATE_PASS, POLICER_RELEASE, INJECTION_SELECT, SLICE_GRANT, CALENDAR_SLOT_ADVANCE and QUEUE_MONITOR_SAMPLE, outside HOLD. A bulk
unit at an open gate draws its bytes and goes on: a message passes with its next chunk, a CL packet and a closed batch are queued, a job
reads up to 4 KiB of its records; at a closed gate it is noted as waiting. A packet held by its policer is marked again: it stays held,
passes, or passes in the policer's lower class. The head that a port's scheduler chooses, once its dead copies are gone, leaves its queue
and is injected; with none chosen, or with injection stopped, nothing is. The stream that a tile's arbiter picks takes a slice: it leaves
with its last one, and otherwise takes a new tag and its backing copy follows. The calendar moves to its next slot, or from the last to the
first, once SLOT_NS have passed. A monitor's sample, once SAMPLE_US have passed, sets its last depth, its maxima and its mean, and reports a
delay above its threshold. What it takes from the model's own readings stands in log entries 46, 78, 80, 86, 98 and 107. -/
def Obligations.SchedulerCommandsComplete : Prop :=
  (∀ s now id b m t, t = atTime s now → slotOf s id = some m → isBulk t m = true → 0 < nextCount m → m.gate = false →
      holdOn s = false → gateOpen t 1 = true →
      exec (.kilnGatePass now 1 id b) s
        = .next (settled s (setSlot
            (drawC (setKn t fun k => { k with deferred := k.deferred.erase (1, m.msgid, 0) }) 1 (requestBytes m (nextCount m)))
            { m with gate := true, chunkEnd := m.next + nextCount m })))
  ∧ (∀ s now id b m t, t = atTime s now → slotOf s id = some m → isBulk t m = true → 0 < nextCount m → m.gate = false →
      holdOn s = false → gateOpen t 1 = false →
      exec (.kilnGatePass now 1 id b) s
        = .next (settled s (setSlot (deferUnit t 1 1 m.msgid 0) { m with chunkEnd := m.next + nextCount m })))
  ∧ (∀ s now g k p t, t = atTime s now → mget (grp s g).sends k = some p → p.bulk = true → p.gated = false → holdOn s = false →
      gateOpen t 2 = true →
      exec (.kilnGatePass now 2 g k) s
        = .next (settled s (
            let u := drawC (setKn t fun x => { x with deferred := x.deferred.erase (2, g, k) }) 2 p.payload.length
            let v := setGrp u g { grp u g with sends := mset (grp u g).sends k { p with gated := true, at' := u.timeNs } }
            queueColl (work v 2 g p.tc) g p.dev p.up p.key p.seq p.psn p.off p.tc p.last p.payload)))
  ∧ (∀ s now g k p, mget (grp s g).sends k = some p → p.bulk = true → p.gated = false → holdOn s = false →
      gateOpen (atTime s now) 2 = false →
      exec (.kilnGatePass now 2 g k) s = .next (settled s (deferUnit (atTime s now) 2 2 g k)))
  ∧ (∀ s now j id b t, t = atTime s now → mget (job s j).batches id = some b → b.bseq ≠ none → b.gated = false → b.sent = false →
      holdOn s = false → gateOpen t 3 = true →
      exec (.kilnGatePass now 3 j id) s
        = .next (settled s (
            let u := drawC (setKn t fun x => { x with deferred := x.deferred.erase (3, j, id) }) 3 b.bytes.length
            trySend (setJob (work u 3 j (rd u F.exJobTc j)) j
              { job u j with batches := mset (job u j).batches id { b with gated := true } }) j id)))
  ∧ (∀ s now j id b, mget (job s j).batches id = some b → b.bseq ≠ none → b.gated = false → b.sent = false →
      holdOn s = false → gateOpen (atTime s now) 3 = false →
      exec (.kilnGatePass now 3 j id) s = .next (settled s (deferUnit (atTime s now) 3 3 j id)))
  ∧ (∀ s now j b d t, t = atTime s now → ((job s j).sends.find? fun e => !(e.flush && e.mark.isSome)) = some d → d.flush = false →
      d.unread ≠ [] → holdOn s = false → cutRecord t j d = .more → gateOpen t 3 = true →
      exec (.kilnGatePass now 4 j b) s
        = .next (settled s (
            let u := drawC (setKn t fun x => { x with deferred := x.deferred.erase (4, j, 0) }) 3 (min 4096 d.unread.length)
            moveJob (setJob (work u 3 j (rd u F.exJobTc j)) j { job u j with sends := (job u j).sends.map fun y =>
              if y = d then { d with unread := d.unread.drop 4096, rest := d.rest ++ d.unread.take 4096 } else y }) j)))
  ∧ (∀ s now j b d t, t = atTime s now → ((job s j).sends.find? fun e => !(e.flush && e.mark.isSome)) = some d → d.flush = false →
      d.unread ≠ [] → holdOn s = false → cutRecord t j d = .more → gateOpen t 3 = false →
      exec (.kilnGatePass now 4 j b) s = .next (settled s (deferUnit t 3 4 j 0)))
  ∧ (∀ s now id m, slotOf s id = some m → m.held = true → holdOn s = false → policerOf s m.ec = none →
      exec (.policerRelease now id) s = .next (settled s (setSlot (atTime s now) { m with polPassed := true })))
  ∧ (∀ s now id m i n u c t, t = atTime s now → slotOf s id = some m → m.held = true → m.polPassed = false → holdOn s = false →
      policerOf s m.ec = some i →
      n = (if m.op = opGetReq then requestBytes m (m.chunkEnd - m.next)
           else 128 * flitsOf (requestBytes m (m.chunkEnd - m.next))) →
      police t i n false = (u, c) →
      exec (.policerRelease now id) s
        = .next (settled s (setSlot u (
            if c = 2 then { m with held := true }
            else if c = 1 then { m with polPassed := true, held := false, qtc := some (rd t F.scPolDemoteTc i) }
            else { m with polPassed := true, held := false }))))
  ∧ (∀ s now k u t f id it, injectStopped s = false → holdOn s = false → k < 8 → u = fixHeads (dropDead (atTime s now) k) k →
      chooseTc u k = some t → tcHead u k t = some (f, id, it) →
      exec (.injectionSelect now k) s = .next (settled s (injectItem (fixHead (dequeue u k t id it f) k t) k it)))
  ∧ (∀ s now k u, injectStopped s = false → holdOn s = false → k < 8 → u = fixHeads (dropDead (atTime s now) k) k →
      chooseTc u k = none →
      exec (.injectionSelect now k) s = .next (settled s u))
  ∧ (∀ s now k, injectStopped s = true ∨ holdOn s = true → exec (.injectionSelect now k) s = .next (settled s (atTime s now)))
  ∧ (∀ s now t id x u, pick (atTime s now) (leastAskers (atTime s now) t) = some (id, x) → x.slices ≤ 1 →
      u = pmSample (drawn (atTime s now)) 1 x.role x.key [] →
      exec (.sliceGrant now t) s
        = .next (settled s (placeWaiting (setEng u fun e => { e with
            vtime := mset e.vtime t x.tag, prevTag := mset e.prevTag (t * 8 + x.chan) x.tag, streams := mdel e.streams id
            backing := mdel e.backing id }))))
  ∧ (∀ s now t id x u, pick (atTime s now) (leastAskers (atTime s now) t) = some (id, x) → 1 < x.slices →
      u = pmSample (drawn (atTime s now)) 1 x.role x.key [] →
      exec (.sliceGrant now t) s
        = .next (settled s (
            let v := setEng u fun e => { e with vtime := mset e.vtime t x.tag, prevTag := mset e.prevTag (t * 8 + x.chan) x.tag }
            let y := { x with slices := x.slices - 1, tag := sliceTag v t x.chan x.tc, since := v.timeNs }
            setEng v fun e => { e with streams := mset e.streams id y, backing := mset e.backing id y })))
  ∧ (∀ s now t, leastAskers (atTime s now) t = [] → exec (.sliceGrant now t) s = .next (settled s (atTime s now)))
  ∧ (∀ s now, rdb s F.scCfgCal = true → s.sc.calAt + rd s F.scCalCfgSlotNs ≤ (atTime s now).timeNs →
      exec (.calendarSlotAdvance now) s
        = .next (settled s (setSc (atTime s now) fun x => { x with
            calSlot := if x.calSlot + 1 < rd s F.scCalCfgLen then x.calSlot + 1 else 0, calAt := (atTime s now).timeNs,
            calUsed := [] })))
  ∧ (∀ s now, rdb s F.scCfgCal = false ∨ (atTime s now).timeNs < s.sc.calAt + rd s F.scCalCfgSlotNs →
      exec (.calendarSlotAdvance now) s = .next (settled s (atTime s now)))
  ∧ (∀ s now i w wait d t u, rdb s F.scQsmpSelEn i = true → i < 64 → t = atTime s now →
      (∀ x, mget s.sc.monAt i = some x → x + rd s F.scCfgSampleUs * 1000 ≤ t.timeNs) → w = watched t i →
      wait = (match w.2 with | some x => t.timeNs - x | none => 0) → d = min 65535 (wait / 10) →
      u = wr (wr (wr (setSc t fun x => { x with monAt := mset x.monAt i t.timeNs }) F.scQsmpValDepthLast (min 65535 w.1) i)
            F.scQsmpValDepthMax (max (min 65535 w.1) (rd s F.scQsmpValDepthMax i)) i) F.scQsmpValDelayMax
            (max d (rd s F.scQsmpValDelayMax i)) i →
      exec (.queueMonitorSample now i) s
        = .next (settled s (
            let v := drawn (wr u F.scQsmpValDelayAvg (runningMean u (rd s F.scQsmpValDelayAvg i) d) i)
            if rd s F.scQsmpSelDelayThrUs i ≠ 0 ∧ rd s F.scQsmpSelDelayThrUs i * 1000 < wait then delayEvent v i wait else v)))
  ∧ (∀ s now i, rdb s F.scQsmpSelEn i = false →
      exec (.queueMonitorSample now i) s = .next (settled s (atTime s now)))

/-- KILN_PERIOD, VCORE_STEP, THERM_SOFT_STEP, AVS_CALIBRATION, AVS_RETRY and KN_BUDGET_WRITE. A period shows its readings, sets P, TJ_MAX,
SPEED and THERM_SOFT, credits A and C, shows what waited, tells the sensors that rise to TJ_HARD, sets or clears the sources of BROWNOUT,
and puts its actions in force or ends them. Outside those actions and AVS_FAULT, under FIXED VCORE moves up to 5 mV towards SET_MV, and
under SPEED 5 mV up when SPEED is more than 1 % below the target, down when more than 1 % above, within MIN_MV and MAX_MV: up only without
THERM_SOFT, down only outside a HOLD with a warning; a transaction that fails counts. THERM_SOFT lowers it 5 mV, not below MIN_MV. A
readback sets VCORE and the gain; a failed one counts, and the third sets AVS_FAULT and is reported; while AVS_FAULT is set nothing but a
retry acts. A retry that succeeds clears it and, in BROWNOUT, makes a due write of BROWN_MV. A served budget of PF0 of a port or of the
management controller within its ranges is written, another one refused. What it takes from the model's own readings stands in log
entries 39 and 90. -/
def Obligations.KilnCommandsComplete : Prop :=
  (∀ s now p temps speeds rails t u v w, t = showReadings (atTime s now) temps speeds rails →
      u = wr (wr (wr t F.knStatPW p) F.knStatTjMax (hottest temps)) F.knStatSpeed (slowest speeds) →
      v = wrb u F.knStatThermSoft (decide ((rd u F.knThermTjSoft : Int) < degrees (hottest temps))) →
      w = refreshBrown (kilnSources (thermRises (deferShown (credits v p)) temps) p) →
      exec (.kilnPeriod now p temps speeds rails) s
        = .next (settled s (keepWaiting (brownActions (lateMode (if brownOn w then stopPrep w else w))))))
  ∧ (∀ s now, s.kn.applied = false → rdb s F.knStatAvsFault = false → rd s F.knStatVcoreMv ≠ 0 → rd s F.knVcorePolicy = 0 →
      rdb s F.knStatThermSoft = false → rd s F.knStatVcoreMv < rd s F.knVcoreSetMv →
      exec (.vcoreStep now true) s
        = .next (settled s (avsResult (writeVcore (atTime s now) (min (rd s F.knVcoreSetMv) (rd s F.knStatVcoreMv + 5))) true))
      ∧ exec (.vcoreStep now false) s = .next (settled s (avsResult (atTime s now) false)))
  ∧ (∀ s now, s.kn.applied = false → rdb s F.knStatAvsFault = false → rd s F.knVcorePolicy = 0 →
      holdOn s = false ∨ brownOn s = false → rd s F.knVcoreSetMv < rd s F.knStatVcoreMv →
      exec (.vcoreStep now true) s
        = .next (settled s (avsResult (writeVcore (atTime s now) (max (rd s F.knVcoreSetMv) (rd s F.knStatVcoreMv - 5))) true))
      ∧ exec (.vcoreStep now false) s = .next (settled s (avsResult (atTime s now) false)))
  ∧ (∀ s now, s.kn.applied = false → rdb s F.knStatAvsFault = false → rd s F.knStatVcoreMv ≠ 0 → rd s F.knVcorePolicy ≠ 0 →
      rdb s F.knStatThermSoft = false → rd s F.knStatSpeed + 10 < rd s F.knVcoreSpeedTgt * 10 →
      rd s F.knStatVcoreMv + 5 ≤ rd s F.knVcoreMaxMv →
      exec (.vcoreStep now true) s
        = .next (settled s (avsResult (writeVcore (atTime s now) (rd s F.knStatVcoreMv + 5)) true)))
  ∧ (∀ s now, s.kn.applied = false → rdb s F.knStatAvsFault = false → rd s F.knStatVcoreMv ≠ 0 → rd s F.knVcorePolicy ≠ 0 →
      holdOn s = false ∨ brownOn s = false → rd s F.knVcoreSpeedTgt * 10 + 10 < rd s F.knStatSpeed →
      rd s F.knVcoreMinMv + 5 ≤ rd s F.knStatVcoreMv →
      exec (.vcoreStep now true) s
        = .next (settled s (avsResult (writeVcore (atTime s now) (rd s F.knStatVcoreMv - 5)) true)))
  ∧ (∀ s now ok, s.kn.applied = true ∨ rdb s F.knStatAvsFault = true ∨ rd s F.knStatVcoreMv = 0
        ∨ (rd s F.knVcorePolicy = 0 ∧ rd s F.knStatVcoreMv = rd s F.knVcoreSetMv)
        ∨ (rd s F.knVcorePolicy = 0 ∧ rd s F.knStatVcoreMv < rd s F.knVcoreSetMv ∧ rdb s F.knStatThermSoft = true)
        ∨ (rd s F.knVcorePolicy = 0 ∧ rd s F.knVcoreSetMv < rd s F.knStatVcoreMv ∧ holdOn s = true ∧ brownOn s = true) →
      exec (.vcoreStep now ok) s = .next (settled s (atTime s now)))
  ∧ (∀ s now, rdb s F.knStatThermSoft = true → rdb s F.knStatAvsFault = false → holdOn s = false ∨ brownOn s = false →
      rd s F.knVcoreMinMv < rd s F.knStatVcoreMv →
      exec (.thermSoftStep now true) s
        = .next (settled s (avsResult (writeVcore (atTime s now) (max (rd s F.knVcoreMinMv) (rd s F.knStatVcoreMv - 5))) true))
      ∧ exec (.thermSoftStep now false) s = .next (settled s (avsResult (atTime s now) false)))
  ∧ (∀ s now ok, rdb s F.knStatThermSoft = false ∨ rdb s F.knStatAvsFault = true ∨ (holdOn s = true ∧ brownOn s = true)
        ∨ rd s F.knStatVcoreMv ≤ rd s F.knVcoreMinMv →
      exec (.thermSoftStep now ok) s = .next (settled s (atTime s now)))
  ∧ (∀ s now mv gain, rdb s F.knStatAvsFault = false →
      exec (.avsCalibration now true mv gain) s
        = .next (settled s (wrb (setKn (wr (atTime s now) F.knStatVcoreMv mv) fun k => { k with gain := gain, avsFails := 0 })
            F.knStatAvsFault false)))
  ∧ (∀ s now mv gain, rdb s F.knStatAvsFault = false → s.kn.avsFails ≠ 2 →
      exec (.avsCalibration now false mv gain) s
        = .next (settled s (setKn (atTime s now) fun k => { k with avsFails := k.avsFails + 1 })))
  ∧ (∀ s now mv gain, rdb s F.knStatAvsFault = false → s.kn.avsFails = 2 →
      exec (.avsCalibration now false mv gain) s
        = .next (settled s (tell (wrb (setKn (atTime s now) fun k => { k with avsFails := 3 }) F.knStatAvsFault true) (.fault 14 0))))
  ∧ (∀ s now ok mv gain, rdb s F.knStatAvsFault = true →
      exec (.avsCalibration now ok mv gain) s = .next (settled s (atTime s now)))
  ∧ (∀ s now mv u, rdb s F.knStatAvsFault = true → u = avsResult (wr (atTime s now) F.knStatVcoreMv mv) true → brownOn u = false →
      exec (.avsRetry now true mv) s = .next (settled s (setKn u fun k => { k with brownWrite := false })))
  ∧ (∀ s now mv u, rdb s F.knStatAvsFault = true → u = avsResult (wr (atTime s now) F.knStatVcoreMv mv) true → brownOn u = true →
      exec (.avsRetry now true mv) s = .next (settled s (brownVcore u)))
  ∧ (∀ s now ok mv, rdb s F.knStatAvsFault = false ∨ ok = false →
      exec (.avsRetry now ok mv) s = .next (settled s (atTime s now)))
  ∧ (∀ s who width val, Served s who → 64 ≤ width → wordLegal (fieldsAt 0x00400000) val = true → isPf0 who = true →
      100 ≤ wordGet val 16 10 → wordGet val 16 10 ≤ 560 → 100 ≤ wordGet val 0 10 → wordGet val 0 10 ≤ wordGet val 16 10 →
      exec (.knBudgetWrite who width val) s
        = .next (settled s (viaGate s who fun t =>
            csrPut t 0x00400000 (wordWrite (locked t 0x00400000) (fieldsAt 0x00400000) (csrRaw t 0x00400000) val))))
  ∧ (∀ s who width val, Served s who → 64 ≤ width → wordLegal (fieldsAt 0x00400000) val = true →
      isPf0 who = false ∨ wordGet val 16 10 < 100 ∨ 560 < wordGet val 16 10 ∨ wordGet val 0 10 < 100
        ∨ wordGet val 16 10 < wordGet val 0 10 →
      exec (.knBudgetWrite who width val) s = .next (settled s (viaGate s who refuseWrite)))

/-- FAULT_RAISED, BROKEN_WIRE_DETECTED, FC_CMD_RELEASE, FC_CMD_CHIP_RESET, FC_CMD_SELFTEST, SELFTEST_DONE and FC_PEND_CLEAR. A fault of a
source whose wires are whole is recorded with the reactions taken for it, ends a HOLD that they end, and they follow (HBM_UE may also have
struck a translation of L2, which is free); one of a source with broken wires records nothing more. A broken wire marks its source and is
recorded once, with WIRE. A served RELEASE of PF0 of a port or of the management controller: of an instance whose pair still reads an error,
or of ALL while a fenced one's does, it is refused; otherwise it releases the instance's fence, or every fence and the full fence, and FENCE
follows. CHIP_RESET with CONFIRM 0x0C17 from the management controller resets the chip with cause 2; any other is refused. SELFTEST starts
in TEST unless it runs, and does nothing elsewhere; its end reports a pass (2), or a failure (3) with the first failing source. A write of
FC_PEND changes its bits as their access says, and ERROR_N follows. From any other function the FC_CMD commands and FC_PEND are refused.
What it takes from the model's own readings stands in log entries 57 and 94. -/
def Obligations.CollectorCommandsComplete : Prop :=
  (∀ s now src inst, src < 23 → rdb s F.fcSrcWireBroken src = false →
      exec (.faultRaised now src inst) s
        = .next (settled s (
            let t := l2Struck (atTime s now) src
            let react := takenFor t src (inst % 65536)
            let u := recordError t src (inst % 65536) react false
            applyReact (if endsHold react && !bitAt react 6 then abandonHold u else u) src (inst % 65536) react)))
  ∧ (∀ s now src inst, src < 23 → rdb s F.fcSrcWireBroken src = true →
      exec (.faultRaised now src inst) s = .next (settled s (l2Struck (atTime s now) src)))
  ∧ (∀ s now src, src < 23 → rdb s F.fcSrcWireBroken src = false →
      exec (.brokenWireDetected now src) s
        = .next (settled s (
            let t := wrb (atTime s now) F.fcSrcWireBroken true src
            let react := takenFor t 0 src
            let u := recordError t 0 src react true
            applyReact (if endsHold react && !bitAt react 6 then abandonHold u else u) 0 src react)))
  ∧ (∀ s now src, rdb s F.fcSrcWireBroken src = true ∨ 23 ≤ src →
      exec (.brokenWireDetected now src) s = .next (settled s (atTime s now)))
  ∧ (∀ s who width all src inst held, Served s who → 64 ≤ width → isPf0 who = true → src < 64 → inst < 65536 →
      exec (.fcCmdRelease who width all src inst held) s
        = .next (settled s (viaGate s who fun t => releaseCmd t all src inst held)))
  ∧ (∀ s src inst held, held.contains (src, inst) = true → releaseCmd s false src inst held = refuseWrite s)
  ∧ (∀ s src inst held, (∃ x ∈ held, fenceNamed s x.1 x.2 = true) → releaseCmd s true src inst held = refuseWrite s)
  ∧ (∀ s src inst held, held.contains (src, inst) = false → s.fc.fences.contains (src, inst) = true → rdb s F.fcFenceFull = false →
      baseOf (releaseFence s src inst) = 2 →
      releaseCmd s false src inst held = refreshFences (releaseFence s src inst))
  ∧ (∀ s src inst held, held.contains (src, inst) = false → s.fc.fences.contains (src, inst) = false → rdb s F.fcFenceFull = true →
      rd s F.fcFenceFullSrc = src → rd s F.fcFenceFullInst = inst →
      releaseCmd s false src inst held
        = (let u := refreshFences (wr (wr (wrb s F.fcFenceFull false) F.fcFenceFullSrc 0) F.fcFenceFullInst 0)
           (portUnits u).foldl restartLink u))
  ∧ (∀ s src inst held, (∀ x ∈ held, fenceNamed s x.1 x.2 = false) →
      releaseCmd s true src inst held
        = (let t := s.fc.fences.foldl (fun u x => releaseFence u x.1 x.2) s
           releaseFull (if baseOf t = 2 then refreshFences t else t)))
  ∧ (∀ s width, Served s .mgmt → 64 ≤ width →
      exec (.fcCmdChipReset .mgmt width 0x0C17) s = .next (settled s (viaGate s .mgmt fun t => chipReset t 2 0 0)))
  ∧ (∀ s who width confirm, Served s who → 64 ≤ width → confirm < 65536 → who ≠ .mgmt ∨ confirm ≠ 0x0C17 →
      exec (.fcCmdChipReset who width confirm) s = .next (settled s (viaGate s who refuseWrite)))
  ∧ (∀ s who width, Served s who → 64 ≤ width → isPf0 who = true → baseOf s = 3 → rd s F.fcSelftestSt ≠ 1 →
      exec (.fcCmdSelftest who width) s
        = .next (settled s (viaGate s who fun t => wr (wr t F.fcSelftestSt 1) F.fcSelftestFailSrc 0)))
  ∧ (∀ s who width, Served s who → 64 ≤ width → isPf0 who = true → baseOf s ≠ 3 ∨ rd s F.fcSelftestSt = 1 →
      exec (.fcCmdSelftest who width) s = .next (settled s (viaGate s who id)))
  ∧ (∀ s, rd s F.fcSelftestSt = 1 → exec (.selftestDone none) s = .next (settled s (wr s F.fcSelftestSt 2)))
  ∧ (∀ s src, rd s F.fcSelftestSt = 1 →
      exec (.selftestDone (some src)) s = .next (settled s (wr (wr s F.fcSelftestSt 3) F.fcSelftestFailSrc src)))
  ∧ (∀ s failed, rd s F.fcSelftestSt ≠ 1 → exec (.selftestDone failed) s = .next (settled s s))
  ∧ (∀ s who width val, Served s who → 64 ≤ width → isPf0 who = true → wordLegal (fieldsAt 0x00200000) val = true →
      exec (.fcPendClear who width val) s
        = .next (settled s (viaGate s who fun t =>
            refreshErrN (csrPut t 0x00200000 (wordWrite (locked t 0x00200000) (fieldsAt 0x00200000) (csrRaw t 0x00200000) val)))))
  ∧ (∀ s who width all src inst held val, Served s who → 64 ≤ width → isPf0 who = false → src < 64 → inst < 65536 →
      wordLegal (fieldsAt 0x00200000) val = true →
      exec (.fcCmdRelease who width all src inst held) s = .next (settled s (viaGate s who refuseWrite))
      ∧ exec (.fcCmdSelftest who width) s = .next (settled s (viaGate s who refuseWrite))
      ∧ exec (.fcPendClear who width val) s = .next (settled s (viaGate s who refuseWrite)))

/-- TILE_FAIL, MGMT_PAIR_FAIL, MGMT_PAIR_RETEST_DONE, WATCHDOG_RESTART, WATCHDOG_EXPIRED, HBM_STACK_FAIL, HBM_REMIRROR_DONE,
BLOCK_RESET_DONE, PF0_ENABLES_CLEARED and PERST_DEASSERT. A tile that has not failed fails as failTile says, is told (TILE, patina), the
timers of its messages restart, and SPARE_OUT is told when its die has no spare left; one that has failed changes nothing. The standby takes
over from the active pair that fails. A pair in neither role that passes its test becomes the standby when there is none; one that fails it
counts; with three failures in 24 h it is retired. Firmware that runs restarts the watchdog; its expiry hands over to the standby, or raises
WATCHDOG with none; before the period, in RECOVERY, with PERIOD_MS 0 or while the complex boots nothing happens. A live stack fails once:
clean far-cache lines, L2 entries, staged batches and PM records on it go (with REMIRROR set also dirty sectors that had no mirror, log entry 77),
and it is told, with SPARE_OUT when one stack is left. REMIRROR
clears at the end. A block in reset resumes unless a fence holds it: its links are let go, and those of a port unit or a switch tile train
again; a host port may serve, the complex runs, the window's accesses go on. A clear enable is stored, and serving follows. When PERSTn
rises, the port's reset may end. What it takes from the model's own readings stands in log entries 41, 73, 75 and 76. -/
def Obligations.RepairAndPortCommandsComplete : Prop :=
  (∀ s now p, p < 52 → s.eng.failed.contains p = false →
      exec (.tileFail now p) s
        = .next (settled s (
            let t := atTime s now
            let ecs := (t.eng.streams.filter fun e => logicalOf t p == some e.2.tile && e.2.role == 0 && !e.2.waiting).map (·.2.key)
            let u := refreshFcSpares (restartTimers (tell (tell (failTile t p).1 (.fault 5 p)) (.patina 6 p)) ecs)
            if dieOf p = 0 then if rd u F.fcSparesTilesFree0 = 0 then tell u (.fault 2 16) else u
            else if rd u F.fcSparesTilesFree1 = 0 then tell u (.fault 2 (16 + dieOf p)) else u)))
  ∧ (∀ s now p, 52 ≤ p ∨ s.eng.failed.contains p = true → exec (.tileFail now p) s = .next (settled s (atTime s now)))
  ∧ (∀ s now k, s.fc.active = some k →
      exec (.mgmtPairFail now) s
        = .next (settled s (resumeMctp (
            let u := setFc (atTime s now) fun f => { f with
              active := f.standby, standby := none, pairFails := f.pairFails ++ [(k, (atTime s now).timeNs)] }
            refreshFcSpares (tell (tell u (.patina 10 k)) (.fault 8 k))))))
  ∧ (∀ s now k, k < 2 → s.fc.active ≠ some k → s.fc.standby = none → s.fc.retired.contains k = false →
      pairCount (atTime s now) k < 3 →
      exec (.mgmtPairRetestDone now k true) s
        = .next (settled s (resumeMctp (refreshFcSpares (setFc (atTime s now) fun f => { f with standby := some k })))))
  ∧ (∀ s now k u, k < 2 → s.fc.active ≠ some k → s.fc.standby ≠ some k → s.fc.retired.contains k = false →
      u = tell (tell (setFc (atTime s now) fun f => { f with pairFails := f.pairFails ++ [(k, (atTime s now).timeNs)] })
            (.patina 10 k)) (.fault 8 k) →
      exec (.mgmtPairRetestDone now k false) s
        = .next (settled s (resumeMctp (
            if 3 ≤ pairCount u k then
              tell (tell (setFc u fun f => { f with retired := f.retired ++ [k] }) (.patina 11 k)) (.fault 2 0x40)
            else u))))
  ∧ (∀ s now k ok, 2 ≤ k ∨ s.fc.active = some k ∨ s.fc.standby = some k ∨ s.fc.retired.contains k = true →
      exec (.mgmtPairRetestDone now k ok) s = .next (settled s (resumeMctp (atTime s now))))
  ∧ (∀ s now, firmwareRuns s = true →
      exec (.watchdogRestart now) s
        = .next (settled s (setFc (atTime s now) fun f => { f with wdogAt := (atTime s now).timeNs })))
  ∧ (∀ s now, firmwareRuns s = false → exec (.watchdogRestart now) s = .next (settled s (atTime s now)))
  ∧ (∀ s now, rd s F.fcWdogPeriodMs ≠ 0 → inRecovery s = false → s.fw.booting = false →
      s.fc.wdogAt + rd s F.fcWdogPeriodMs * 1000000 ≤ (atTime s now).timeNs → s.fc.standby = none →
      exec (.watchdogExpired now) s
        = .next (settled s (resumeMctp (tell (setFc (restartWdog (atTime s now)) fun f => { f with active := none }) (.fault 22 0)))))
  ∧ (∀ s now k, rd s F.fcWdogPeriodMs ≠ 0 → inRecovery s = false → s.fw.booting = false →
      s.fc.wdogAt + rd s F.fcWdogPeriodMs * 1000000 ≤ (atTime s now).timeNs → s.fc.standby = some k → s.fc.active ≠ none →
      exec (.watchdogExpired now) s = .next (settled s (resumeMctp (pairFailed (restartWdog (atTime s now))))))
  ∧ (∀ s now, rd s F.fcWdogPeriodMs = 0 ∨ inRecovery s = true ∨ s.fw.booting = true
        ∨ (atTime s now).timeNs < s.fc.wdogAt + rd s F.fcWdogPeriodMs * 1000000 →
      exec (.watchdogExpired now) s = .next (settled s (resumeMctp (atTime s now))))
  ∧ (∀ s now h, (liveStacks s.fc.deadStacks s.txn.arm).contains h = true →
      exec (.hbmStackFail now h) s
        = .next (settled s (
            let dead := s.fc.deadStacks ++ [h]
            let gone := (s.gw.lines.filter fun e => stackOf s.txn.arm e.1 == h && lineClean e.2).map fun e => lineSpan e.1
            let y := setGw (atTime s now) fun g => { g with lines := mfilter g.lines fun k l => stackOf s.txn.arm k != h || !lineClean l }
            let z := gone.foldl refreshGw (if s.fc.unmirrored then unmirroredLost y h else y)
            let b := setFc z fun f => { f with
              deadStacks := dead, unmirrored := decide (2 ≤ (liveStacks dead s.txn.arm).length) }
            let c := dropStaging (setXl b fun x => { x with l2 := mfilter x.l2 fun k _ => stackOf s.txn.arm k != h }) h
            let lost := fun (l : List (List Word)) => ((l.zipIdx).filter fun e => stackOf c.txn.arm e.2 == h).length
            let keep := fun (l : List (List Word)) => ((l.zipIdx).filter fun e => stackOf c.txn.arm e.2 != h).map fun e => e.1
            let d := inc (inc c F.pmStatSnapLost (lost c.pm.snaps)) F.pmSmpStatSmpLost (lost c.pm.samples)
            let e := { d with pm := { d.pm with snaps := keep d.pm.snaps, samples := keep d.pm.samples, shrunk := d.pm.shrunk + 1 } }
            let u := refreshFcSpares (tell (tell e (.patina 7 h)) (.fault 7 h))
            if (liveStacks u.fc.deadStacks u.txn.arm).length = 1 then tell u (.fault 2 0x30) else u)))
  ∧ (∀ s now h, (liveStacks s.fc.deadStacks s.txn.arm).contains h = false →
      exec (.hbmStackFail now h) s = .next (settled s (atTime s now)))
  ∧ (∀ s, exec .hbmRemirrorDone s = .next (settled s (refreshFcSpares (setFc s fun f => { f with unmirrored := false }))))
  ∧ (∀ s now code unit u v, s.fc.inReset.contains (code, unit) = true →
      u = setFc (atTime s now) (fun f => { f with inReset := f.inReset.erase (code, unit) }) → blockFenced u code unit = false →
      v = holdLinks u code unit false →
      exec (.blockResetDone now code unit) s
        = .next (settled s (resumeMctp (
            if code = 0x20 then restartLink (endLocal v (unitOf v unit)) (unitOf v unit)
            else if code = 0x30 then (tilePorts v unit).foldl restartLink ((tilePorts v unit).foldl endLocal v)
            else if code = 0xA0 then refreshServing (endPortReset v unit) unit
            else if code = 0x08 then if v.fw.bootKind = 4 then managed (endWarm v) else v
            else if code = 0x70 then moveAccs v
            else v))))
  ∧ (∀ s now code unit u, s.fc.inReset.contains (code, unit) = true →
      u = setFc (atTime s now) (fun f => { f with inReset := f.inReset.erase (code, unit) }) → blockFenced u code unit = true →
      exec (.blockResetDone now code unit) s = .next (settled s (resumeMctp u)))
  ∧ (∀ s now code unit, s.fc.inReset.contains (code, unit) = false →
      exec (.blockResetDone now code unit) s = .next (settled s (resumeMctp (atTime s now))))
  ∧ (∀ s now hp bme mse, configAnswers s hp 0 = true → bme = false ∨ mse = false →
      exec (.pf0EnablesCleared now hp bme mse) s
        = .next (settled s (
            let u := wakePort (atTime s now) hp
            let p := portOf u hp
            refreshServing (setPort u hp { p with cfg := { p.cfg with bme := bme, mse := mse } }) hp)))
  ∧ (∀ s now hp bme mse, configAnswers s hp 0 = false →
      exec (.pf0EnablesCleared now hp bme mse) s = .next (settled s (atTime s now)))
  ∧ (∀ s now hp, hp < 2 → (portOf s hp).perstLow = true →
      exec (.perstDeassert now hp) s
        = .next (settled s (endPortReset (wrb (setPort (atTime s now) hp { portOf s hp with perstLow := false })
            F.hiPortStatPerst false hp) hp)))
  ∧ (∀ s now hp, (portOf s hp).perstLow = false → exec (.perstDeassert now hp) s = .next (settled s (atTime s now)))

/-- FW_DL_CMD_WRITE, MCTP_DOWNLOAD, FW_BLOCK_WRITTEN, FW_CMD_ACTIVATE, MCTP_ACTIVATE, FW_WARM_BOOT_DONE and FW_SWAP_PREPARED. A served
FW_DL_CMD with GO of a host function, and a DOWNLOAD message over I3C or a serving port, ask for a block: one that nothing refuses is taken
(BUSY, its bytes read over the host port or taken from the message), one that is refused only leaves its cause, which the message's
completion carries too; FW_DL_CMD without GO does nothing. A block that firmware has written and read back is in flash, its slot unverified,
and counts; one that differs fails with cause 12 and is told (FLASH). An ACTIVATE, by FW_CMD or by message, that nothing refuses begins the
warm boot; a refused one leaves its cause. A warm boot's image is verified: a good one is prepared; a bad one ends an activation with cause
7, and a fallback with cause 10 and FW_FALLBACK; the boot back to the slot that ran ends the activation; in RECOVERY a good one starts BUILD
as PREFERRED, a bad one ends with cause 7. A prepared swap in RUN outside HOLD begins its HOLD. What it takes from the model's own
readings stands in log entries 39, 58, 84 and 107. -/
def Obligations.DownloadAndActivationComplete : Prop :=
  (∀ s hp fn width val, Served s (.fn hp fn) → 64 ≤ width → bitAt val.toNat 0 = true →
      exec (.fwDlCmdWrite (.fn hp fn) width val) s
        = .next (settled s (viaGate s (.fn hp fn) fun t =>
            download t (.fn hp fn) (wordGet val 8 1) (wordGet val 12 14 * 4096) (wordGet val 32 5 * 4096) (some hp) [])))
  ∧ (∀ s hp fn width val, Served s (.fn hp fn) → 64 ≤ width → bitAt val.toNat 0 = false →
      exec (.fwDlCmdWrite (.fn hp fn) width val) s = .next (settled s (viaGate s (.fn hp fn) id)))
  ∧ (∀ s who slot off len hp data, fwRefusal s who false slot (blockOk off len) = 0 →
      download s who slot off len (some hp) data
        = emit (wr (wr (setFw s fun w => { w with block := some ⟨slot, off, len, some hp, data⟩ }) F.fwDlStatSt 1) F.fwDlStatCause 0)
            (.hostRead hp (rd s F.fwDlSrcAddr * 4096) len))
  ∧ (∀ s who slot off len hp data, fwRefusal s who false slot (blockOk off len) ≠ 0 →
      download s who slot off len hp data = wr s F.fwDlStatCause (fwRefusal s who false slot (blockOk off len)))
  ∧ (∀ s slot off data t via, firmwareRuns s = true → s.fw.waiting = [] → (∀ hp, via = some hp → serving s hp = true) →
      fwRefusal s .mgmt false slot (blockOk off data.length) = 0 →
      t = wr (wr (setFw s fun w => { w with block := some ⟨slot, off, data.length, none, data⟩ }) F.fwDlStatSt 1) F.fwDlStatCause 0 →
      exec (.mctpDownload via slot off data) s = .next (settled s (emit t (.mctp 0 [csrView t 0x00300030]))))
  ∧ (∀ s slot off data c t via, firmwareRuns s = true → s.fw.waiting = [] → (∀ hp, via = some hp → serving s hp = true) →
      fwRefusal s .mgmt false slot (blockOk off data.length) = c → c ≠ 0 → t = wr s F.fwDlStatCause c →
      exec (.mctpDownload via slot off data) s = .next (settled s (emit t (.mctp c [csrView t 0x00300030]))))
  ∧ (∀ s now b u data bs, s.fw.block = some b → firmwareRuns s = true →
      (b.hp = none ∧ bs = b.data) ∨ (b.hp ≠ none ∧ data.length = b.len ∧ bs = data) →
      u = emit (wr (setFw (atTime s now) fun w => { w with
            block := none,
            flash := programFlash (b.len / 4096) ((b.slot * 0x4000000 + b.off) / 4096) bs w.flash }) F.fwSlotState 1 b.slot)
          (.flash (b.slot * 0x4000000 + b.off) b.len) →
      exec (.fwBlockWritten now data true) s
        = .next (settled s (wr (wr u F.fwDlStatSt 2) F.fwDlStatBlocks ((rd u F.fwDlStatBlocks + 1) % 2 ^ 32)))
      ∧ exec (.fwBlockWritten now data false) s
        = .next (settled s (tell (wr (wr u F.fwDlStatSt 3) F.fwDlStatCause 12) (.fault 18 0))))
  ∧ (∀ s now data ok, s.fw.block = none ∨ firmwareRuns s = false →
      exec (.fwBlockWritten now data ok) s = .next (settled s (atTime s now)))
  ∧ (∀ s who width slot, Served s who → 64 ≤ width → slot < 2 →
      exec (.fwCmdActivate who width slot) s = .next (settled s (viaGate s who fun t => activate t who slot)))
  ∧ (∀ s who slot, fwRefusal s who true slot true = 0 →
      activate s who slot
        = (let t := wr (wr (wr s F.fwStatActSt 1) F.fwStatCause 0) F.fwStatDeferred 0
           setFw (wr (setTxn t fun x => { x with staged := none, stagedBytesOn := [] }) F.armStageSt 0) fun w =>
             { w with booting := true, bootSlot := slot, bootKind := 1 }))
  ∧ (∀ s slot via, firmwareRuns s = true → s.fw.waiting = [] → (∀ hp, via = some hp → serving s hp = true) →
      exec (.mctpActivate via slot) s
        = .next (settled s (emit (activate s .mgmt slot) (.mctp (fwRefusal s .mgmt true slot true) []))))
  ∧ (∀ s who slot, fwRefusal s who true slot true ≠ 0 →
      activate s who slot = wr s F.fwStatCause (fwRefusal s who true slot true))
  ∧ (∀ s now (img : Image), s.fw.booting = true → s.fw.bootKind = 1 ∨ s.fw.bootKind = 2 → actSt s < 2 → inRecovery s = false →
      verifySlot (atTime s now) (rd s F.armSignerEnable) img = 0 →
      exec (.fwWarmBootDone now img) s
        = .next (settled s (resumeMctp (
            let u := showSlot (atTime s now) s.fw.bootSlot img 0
            wr (setFw u fun w => { w with newImage := some (runOf img, (img.armature.map armOf).getD s.txn.arm) })
              F.fwStatActSt 2))))
  ∧ (∀ s now (img : Image) cause, s.fw.booting = true → s.fw.bootKind = 1 ∨ s.fw.bootKind = 2 → actSt s < 2 → inRecovery s = false →
      verifySlot (atTime s now) (rd s F.armSignerEnable) img = cause → cause ≠ 0 →
      exec (.fwWarmBootDone now img) s
        = .next (settled s (resumeMctp (
            let u := showSlot (atTime s now) s.fw.bootSlot img cause
            if s.fw.bootKind = 2 then
              tell (endWarm (wr (wr u F.fwStatCause 10) F.fwStatActSt 6)) (.fault 21 (rd u F.fwStatRunning))
            else wr (endWarm (wr u F.fwStatCause 7)) F.fwStatActSt 6))))
  ∧ (∀ s now (img : Image), s.fw.booting = true → s.fw.bootKind = 3 → actSt s < 2 → inRecovery s = false →
      exec (.fwWarmBootDone now img) s = .next (settled s (resumeMctp (wr (endWarm (atTime s now)) F.fwStatActSt 6))))
  ∧ (∀ s now (img : Image) c u, s.fw.booting = true → s.fw.bootKind ≠ 4 → actSt s < 2 → inRecovery s = true →
      verifySlot (atTime s now) (rd s F.fwFuseArmMask) img = c → u = endWarm (showSlot (atTime s now) s.fw.bootSlot img c) →
      exec (.fwWarmBootDone now img) s
        = .next (settled s (resumeMctp (
            if c = 0 then
              let v := writeBoard u fun b => { b with preferred := s.fw.bootSlot, recovery := false }
              setBase (wr (wr v F.fwStatPreferred s.fw.bootSlot) F.fwStatActSt 5) 1
            else wr (wr u F.fwStatCause 7) F.fwStatActSt 6))))
  ∧ (∀ s now, actSt s = 2 → baseOf s = 2 → holdOn s = false → s.fw.newImage ≠ none →
      exec (.fwSwapPrepared now) s
        = .next (settled s (
            let u := setTxn (atTime s now) fun t => { t with
              swap := if s.fw.bootKind = 2 then .fallback else .activation }
            setHold (wr u F.fwStatActSt 3) true)))
  ∧ (∀ s now, actSt s ≠ 2 ∨ baseOf s ≠ 2 ∨ holdOn s = true ∨ s.fw.newImage = none →
      exec (.fwSwapPrepared now) s = .next (settled s (atTime s now)))

/-- FW_HEALTH_OK, FW_CMD_CONFIRM, MCTP_CONFIRM, HEALTH_WINDOW_EXPIRED, FW_CMD_RECOVERY_REQ, FW_CMD_COMMIT_SVN and FW_CMD_REVOKE_KEY. OK of
firmware that runs in the health window is shown and confirms, unless HOST_CONFIRM waits for CONFIRM; outside the window it does nothing.
CONFIRM, by a served FW_CMD or by message over I3C or a serving port, confirms with OK and HOST_CONFIRM set in the window, and does nothing
otherwise. Confirming makes the running slot PREFERRED in the board record and ends the window. 30 s after the window opened, unconfirmed,
the fallback's warm boot begins, or waits for BROWNOUT and FENCE to end. RECOVERY_REQ of the management controller with CONFIRM 0x0E5C sets
the request flag; COMMIT_SVN of PF0 or of the management controller after a confirmed activation raises SVN_MIN to the running SVN;
REVOKE_KEY of the management controller with CONFIRM, of a key that does not sign the running image and leaves another, revokes it.
OWNER_LOCK (cause 1, not of REVOKE_KEY) and another writer (cause 11) leave only their cause. What it takes from the model's own
readings stands in log entries 24 and 84. -/
def Obligations.HealthAndKeyCommandsComplete : Prop :=
  (∀ s, firmwareRuns s = true → actSt s = 4 → rdb s F.fwCtlHostConfirm = false →
      exec .fwHealthOk s = .next (settled s (confirmHealth (wrb s F.fwHealthOk true))))
  ∧ (∀ s, firmwareRuns s = true → actSt s = 4 → rdb s F.fwCtlHostConfirm = true →
      exec .fwHealthOk s = .next (settled s (wrb s F.fwHealthOk true)))
  ∧ (∀ s, firmwareRuns s = false ∨ actSt s ≠ 4 → exec .fwHealthOk s = .next (settled s s))
  ∧ (∀ s who width, Served s who → 64 ≤ width → actSt s = 4 → rdb s F.fwHealthOk = true → rdb s F.fwCtlHostConfirm = true →
      exec (.fwCmdConfirm who width) s = .next (settled s (viaGate s who confirmHealth)))
  ∧ (∀ s who width, Served s who → 64 ≤ width → actSt s ≠ 4 ∨ rdb s F.fwHealthOk = false ∨ rdb s F.fwCtlHostConfirm = false →
      exec (.fwCmdConfirm who width) s = .next (settled s (viaGate s who id)))
  ∧ (∀ s via, firmwareRuns s = true → s.fw.waiting = [] → (∀ hp, via = some hp → serving s hp = true) → inRecovery s = false →
      exec (.mctpConfirm via) s
        = .next (settled s (emit (
            if actSt s = 4 ∧ rdb s F.fwHealthOk = true ∧ rdb s F.fwCtlHostConfirm = true then confirmHealth s else s) (.mctp 0 []))))
  ∧ (∀ s, confirmHealth s
      = (let t := setFw (writeBoard s fun b => { b with preferred := rd s F.fwStatRunning }) fun w =>
           { w with windowAt := none, prev := none, pendFall := false }
         wr (wr t F.fwStatPreferred (rd s F.fwStatRunning)) F.fwStatActSt 5))
  ∧ (∀ s now at', s.fw.windowAt = some at' → at' + 30000000000 ≤ (atTime s now).timeNs → actSt s = 4 → brownOn s = false →
      fenceOn s = false →
      exec (.healthWindowExpired now) s
        = .next (settled s (
            let t := atTime s now
            let slot := (s.fw.prev.map fun e => e.2.2).getD (1 - rd s F.fwStatRunning)
            beginWarm (wr (setFw t fun w => { w with windowAt := none, pendFall := false }) F.fwStatActSt 1) slot 2)))
  ∧ (∀ s now at', s.fw.windowAt = some at' → at' + 30000000000 ≤ (atTime s now).timeNs → actSt s = 4 →
      brownOn s = true ∨ fenceOn s = true →
      exec (.healthWindowExpired now) s = .next (settled s (setFw (atTime s now) fun w => { w with pendFall := true })))
  ∧ (∀ s now, (∀ at', s.fw.windowAt = some at' → (atTime s now).timeNs < at' + 30000000000) ∨ actSt s ≠ 4 →
      exec (.healthWindowExpired now) s = .next (settled s (atTime s now)))
  ∧ (∀ s width, Served s .mgmt → 64 ≤ width → ownerLocked s = false →
      exec (.fwCmdRecoveryReq .mgmt width 0x0E5C) s
        = .next (settled s (viaGate s .mgmt fun t => writeBoard t fun b => { b with recovery := true })))
  ∧ (∀ s who width confirm, Served s who → 64 ≤ width → confirm < 65536 → ownerLocked s = true ∨ who ≠ .mgmt →
      exec (.fwCmdRecoveryReq who width confirm) s
        = .next (settled s (viaGate s who fun t => wr t F.fwStatCause (if ownerLocked s = true then 1 else 11))))
  ∧ (∀ s who width, Served s who → 64 ≤ width → isPf0 who = true → ownerLocked s = false → actSt s = 5 →
      exec (.fwCmdCommitSvn who width) s
        = .next (settled s (viaGate s who fun t => wr t F.fwFuseSvnMin (max (rd t F.fwFuseSvnMin) t.fw.run.svn))))
  ∧ (∀ s who width, Served s who → 64 ≤ width → ownerLocked s = true ∨ isPf0 who = false →
      exec (.fwCmdCommitSvn who width) s
        = .next (settled s (viaGate s who fun t => wr t F.fwStatCause (if ownerLocked s = true then 1 else 11))))
  ∧ (∀ s who width, Served s who → 64 ≤ width → isPf0 who = true → ownerLocked s = false → actSt s ≠ 5 →
      exec (.fwCmdCommitSvn who width) s = .next (settled s (viaGate s who id)))
  ∧ (∀ s width k j, Served s .mgmt → 64 ≤ width → k < 4 → s.fw.run.signer ≠ k → j < 4 → j ≠ k → bitAt (rd s F.fwFuseFwProg) j = true →
      bitAt (rd s F.fwFuseFwRevoked) j = false →
      exec (.fwCmdRevokeKey .mgmt width k 0x0E5C) s
        = .next (settled s (viaGate s .mgmt fun t => wr t F.fwFuseFwRevoked (rd t F.fwFuseFwRevoked ||| 2 ^ k))))
  ∧ (∀ s who width k confirm, Served s who → 64 ≤ width → k < 4 → confirm < 65536 → who ≠ .mgmt →
      exec (.fwCmdRevokeKey who width k confirm) s = .next (settled s (viaGate s who fun t => wr t F.fwStatCause 11)))
  ∧ (∀ s width k confirm, Served s .mgmt → 64 ≤ width → k < 4 → confirm < 65536 → confirm ≠ 0x0E5C ∨ s.fw.run.signer = k
        ∨ (∀ j, j < 4 → j ≠ k → bitAt (rd s F.fwFuseFwProg) j = false ∨ bitAt (rd s F.fwFuseFwRevoked) j = true) →
      exec (.fwCmdRevokeKey .mgmt width k confirm) s = .next (settled s (viaGate s .mgmt id)))

/-- MCTP_GET_STATUS, MCTP_GET_CERT, MCTP_ATTEST, MCTP_CSR_READ and MCTP_CSR_WRITE, over I3C or a serving host port, while firmware runs and
no request waits: the three FW registers; the certificate (its bytes open, log entry 5); the report with an open signature for a nonce of 32
bytes, on a transport that FW_ID_POLICY allows, and otherwise a refusal with an open code; one register read or written outside RECOVERY (a
write also outside HOLD), with completion code 0, or 1 for a write that is refused; an offset that names no place completes with code 2, and
in RECOVERY a certificate and a write with code 3. While no firmware runs a request waits in its transport's order. JTAG_DEBUG_UNLOCK: a
valid token of a key that is programmed and not revoked opens debug access in TEST or RECOVERY with the fuse set and no lock; any other does
not. I3C_BUS_STUCK: a bus held low for over 10 ms raises SIDEBAND; I3C_SDA_RELEASE: SDA driven for 100 us is released; I3C_TARGET_RESET: the
target resets. What it takes from the model's own readings stands in log entry 53. -/
def Obligations.ManagementMessagesComplete : Prop :=
  (∀ s via, firmwareRuns s = true → s.fw.waiting = [] → (∀ hp, via = some hp → serving s hp = true) →
      exec (.mctpGetStatus via) s
        = .next (settled s (emit s (.mctp 0 [csrView s 0x00300000, csrView s 0x00300008, csrView s 0x00300010]))))
  ∧ (∀ s i via, firmwareRuns s = true → s.fw.waiting = [] → (∀ hp, via = some hp → serving s hp = true) →
      exec (.mctpGetCert via i) s
        = .next (settled s (emit s (if inRecovery s = true then .mctp 3 [] else .mctp 0 (Config.certificate i)))))
  ∧ (∀ s nonce via, firmwareRuns s = true → s.fw.waiting = [] → (∀ hp, via = some hp → serving s hp = true) → inRecovery s = false →
      rdb s (if via = none then F.fwIdPolicyAttestI3c else F.fwIdPolicyAttestVdm) = true → nonce.length = 32 →
      exec (.mctpAttest via nonce) s
        = .next (settled s (emit (openWords 12 s).1 (.mctp 0 (wordsOfBytes 52 (reportBytes s nonce) ++ (openWords 12 s).2)))))
  ∧ (∀ s nonce via, firmwareRuns s = true → s.fw.waiting = [] → (∀ hp, via = some hp → serving s hp = true) → nonce.length = 32 →
      inRecovery s = true ∨ rdb s (if via = none then F.fwIdPolicyAttestI3c else F.fwIdPolicyAttestVdm) = false →
      exec (.mctpAttest via nonce) s = .next (settled s (emit (drawn s) (.mctp (1 + freeNat s % 255) []))))
  ∧ (∀ s off via, firmwareRuns s = true → s.fw.waiting = [] → (∀ hp, via = some hp → serving s hp = true) → inRecovery s = false →
      mctpOffOk off = true →
      exec (.mctpCsrRead via off) s = .next (settled s (emit (csrRead s off 64).1 (.mctp 0 [(csrRead s off 64).2]))))
  ∧ (∀ s off val env via, firmwareRuns s = true → s.fw.waiting = [] → (∀ hp, via = some hp → serving s hp = true) →
      inRecovery s = false → holdOn s = false → mctpOffOk off = true →
      exec (.mctpCsrWrite via off val env) s
        = .next (settled s (emit (mgmtWrite s off val env).1 (.mctp (bit (mgmtWrite s off val env).2) []))))
  ∧ (∀ s off val env via, firmwareRuns s = true → s.fw.waiting = [] → (∀ hp, via = some hp → serving s hp = true) → holdOn s = false →
      mctpOffOk off = false ∨ inRecovery s = true →
      exec (.mctpCsrWrite via off val env) s
        = .next (settled s (emit s (.mctp (if mctpOffOk off = false then 2 else 3) []))))
  ∧ (∀ s off via, firmwareRuns s = true → s.fw.waiting = [] → (∀ hp, via = some hp → serving s hp = true) → mctpOffOk off = false →
      exec (.mctpCsrRead via off) s = .next (settled s (emit s (.mctp 2 []))))
  ∧ (∀ s hp i, firmwareRuns s = false → s.fw.waiting = [] → serving s hp = true →
      exec (.mctpGetStatus (some hp)) s = .next (settled s (setFw s fun w => { w with waiting := [(hp, .status)] }))
      ∧ exec (.mctpGetCert (some hp) i) s = .next (settled s (setFw s fun w => { w with waiting := [(hp, .cert i)] })))
  ∧ (∀ s key, key < 4 → rdb s F.fwFuseDebugEn = true → rdb s F.lckBitsDebugDis = false → baseOf s = 3 ∨ baseOf s = 0 →
      bitAt (rd s F.fwFuseFwProg) key = true → bitAt (rd s F.fwFuseFwRevoked) key = false →
      exec (.jtagDebugUnlock key true) s
        = .next (settled s (emit (setFw s fun w => { w with debugOpen := true, debugEver := true }) (.jtag true))))
  ∧ (∀ s key valid, valid = false ∨ 4 ≤ key ∨ rdb s F.fwFuseDebugEn = false ∨ rdb s F.lckBitsDebugDis = true
        ∨ (baseOf s ≠ 3 ∧ baseOf s ≠ 0) ∨ bitAt (rd s F.fwFuseFwProg) key = false ∨ bitAt (rd s F.fwFuseFwRevoked) key = true →
      exec (.jtagDebugUnlock key valid) s = .next (settled s (emit s (.jtag false))))
  ∧ (∀ s now lowNs, 10000000 < lowNs →
      exec (.i3cBusStuck now lowNs) s = .next (settled s (takeFault (atTime s now) 19 0)))
  ∧ (∀ s now lowNs, lowNs ≤ 10000000 → exec (.i3cBusStuck now lowNs) s = .next (settled s (atTime s now)))
  ∧ (∀ s now drivenNs, 100000 ≤ drivenNs →
      exec (.i3cSdaRelease now drivenNs) s = .next (settled s (emit (atTime s now) (.i3c 0))))
  ∧ (∀ s now drivenNs, drivenNs < 100000 → exec (.i3cSdaRelease now drivenNs) s = .next (settled s (atTime s now)))
  ∧ (∀ s, exec .i3cTargetReset s = .next (settled s (emit s (.i3c 1))))

/-- SUPPLY_WARNING, SUPPLY_ABOVE_RECOVERY, SUPPLY_RECOVERY_DONE, SUPPLY_RESET, VMON_OPEN_TEST, THERMTRIP and REFCLK_LOSS. A supply below its
warning level (VMON only while its pin is not open, with its reading shown) sets its warning and its sticky bit, stops its count, sets the
supply source and tells SUPPLY. One that rises after a warning or a count clears its warning and starts its 2 ms count; any other only has
time pass. A count that is over ends, and the supply source clears when no warning stands and no count runs. A supply below its reset level
records it and, unless a chip reset runs, resets the chip with cause 3 and names the rail. A rise above 300 mV says that the VMON pin is
open and is told the first time; a lower one says that it is not. THERMTRIP latches once: every cage channel goes off, and a host link that
is up drops; the mode stays. A lost clock raises REFCLK. What it takes from the model's own readings stands in log entry 107. -/
def Obligations.SupplyCommandsComplete : Prop :=
  (∀ s now rail cv, rail = 1 ∨ rail = 2 →
      exec (.supplyWarning now rail cv) s
        = .next (settled s (
            let u := setDip (setWarn (atTime s now) rail true) rail
            tell (supplySource (refreshRecovering (setPw u fun w => { w with recoverAt := mdel w.recoverAt rail })) true)
              (.fault 15 rail))))
  ∧ (∀ s now cv, rdb s F.pwStatVmonOpen = false →
      exec (.supplyWarning now 0 cv) s
        = .next (settled s (
            let u := setDip (setWarn (showVmon (atTime s now) cv) 0 true) 0
            tell (supplySource (refreshRecovering (setPw u fun w => { w with recoverAt := mdel w.recoverAt 0 })) true) (.fault 15 0))))
  ∧ (∀ s now rail cv, 3 ≤ rail ∨ (rail = 0 ∧ rdb s F.pwStatVmonOpen = true) →
      exec (.supplyWarning now rail cv) s = .next (settled s (atTime s now)))
  ∧ (∀ s now rail cv, railWarns s rail = true ∨ mhas s.pw.recoverAt rail = true →
      exec (.supplyAboveRecovery now rail cv) s
        = .next (settled s (
            let u := setWarn (if rail = 0 then showVmon (atTime s now) cv else atTime s now) rail false
            refreshRecovering (setPw u fun w => { w with recoverAt := mset w.recoverAt rail (atTime s now).timeNs }))))
  ∧ (∀ s now rail cv, railWarns s rail = false → mhas s.pw.recoverAt rail = false →
      exec (.supplyAboveRecovery now rail cv) s = .next (settled s (atTime s now)))
  ∧ (∀ s now rail at' u, mget s.pw.recoverAt rail = some at' → at' + 2000000 ≤ (atTime s now).timeNs →
      u = refreshRecovering (setPw (atTime s now) fun w => { w with recoverAt := mdel w.recoverAt rail }) →
      exec (.supplyRecoveryDone now rail) s
        = .next (settled s (if warningStands u = true ∨ u.pw.recoverAt ≠ [] then u else supplySource u false)))
  ∧ (∀ s now rail, (∀ at', mget s.pw.recoverAt rail = some at' → (atTime s now).timeNs < at' + 2000000) →
      exec (.supplyRecoveryDone now rail) s = .next (settled s (atTime s now)))
  ∧ (∀ s now rail u, rail < 9 → (rail = 0 → rdb s F.pwStatVmonOpen = false) →
      u = setPw (wrb (atTime s now) F.pwEvtSupplyReset true) (fun w => { w with low := rail :: w.low.erase rail }) →
      exec (.supplyReset now rail) s
        = .next (settled s (if s.fc.chipReset = true then u else chipReset u 3 15 (0x0100 + rail))))
  ∧ (∀ s now rail, 9 ≤ rail ∨ (rail = 0 ∧ rdb s F.pwStatVmonOpen = true) →
      exec (.supplyReset now rail) s = .next (settled s (atTime s now)))
  ∧ (∀ s now rise, 300 < rise → rdb s F.pwStatVmonOpen = false →
      exec (.vmonOpenTest now rise) s
        = .next (settled s (tell (wrb (wrb (atTime s now) F.pwStatVmonOpen true) F.pwEvtVmonOpenSeen true) (.fault 19 1))))
  ∧ (∀ s now rise, 300 < rise → rdb s F.pwStatVmonOpen = true →
      exec (.vmonOpenTest now rise) s = .next (settled s (wrb (atTime s now) F.pwEvtVmonOpenSeen true)))
  ∧ (∀ s now rise, rise ≤ 300 →
      exec (.vmonOpenTest now rise) s = .next (settled s (wrb (atTime s now) F.pwStatVmonOpen false)))
  ∧ (∀ s now t, s.pw.tripped = false →
      t = (List.range 64).foldl (fun x c => if cageState x c = 0 then x else cageOff x c)
            (setPw (atTime s now) fun w => { w with tripped := true }) →
      exec (.thermtrip now) s
        = .next (settled s (
            let u := if rdb t F.hiPortStatLinkUp 0 = true then beginPortReset t 0 else t
            if rdb u F.hiPortStatLinkUp 1 = true then beginPortReset u 1 else u)))
  ∧ (∀ s now, s.pw.tripped = true → exec (.thermtrip now) s = .next (settled s (atTime s now)))
  ∧ (∀ s now clock, clock < 6 →
      exec (.refclkLoss now clock) s = .next (settled s (takeFault (atTime s now) 20 clock)))
  ∧ (∀ s now clock, 6 ≤ clock → exec (.refclkLoss now clock) s = .next (settled s (atTime s now)))

/-- CG_ENABLE, CG_DISABLE, CG_CLEAR, CG_CHECK_DONE, CG_RAMP_DONE, CG_LIMIT_ENGAGE, CG_LIMIT_RELEASE, CG_FAULT_TIMER_EXPIRED, CG_HARD_SHORT,
CG_BACKOFF_EXPIRED, CG_PG_QUALIFIED, CG_OFFSET_REZERO and CG_MEASURE_TICK, of a channel 0 to 63. A served CG_CTL with a legal RAMP: EN set
starts the check of a channel that was not enabled, EN clear turns one that was off, and CLEAR of a latched fault or refusal ends it, an
enabled channel starting its check again. A check that ends with CAUSE 0 starts the ramp; another CAUSE refuses the channel and is told; one
that waits for a supply warning stays. A ramp that ends clear of limiting begins qualification. Limiting withdraws power good with CWARN_N
and holds the channel at its limit, an ON channel qualifying again; its end releases CWARN_N and starts the 1 ms again. A driven channel
whose fault timer has reached TIMER_US faults with cause 1, one with a hard short with cause 2 (latched in OFF, FAULT or REFUSED). After 1 s
of backoff it is checked again; 1 ms clear of limiting gives power good; an OFF channel is re-zeroed every 100 ms; a measurement sets
CG_MEAS and adds to CG_ENERGY. In any other state these only let time pass. What it takes from the model's own readings stands in log
entries 56, 80, 107 and 111. -/
def Obligations.CageCommandsComplete : Prop :=
  (∀ s now who c width ramp, Served s who → 64 ≤ width → c < 64 → ramp < 256 →
      wordLegal (fieldsAt (0x00420000 + 64 * c)) (BitVec.ofNat 64 (1 + 0 * 2 + ramp * 2 ^ 8)) = true →
      exec (.cgEnable now who c width ramp) s
        = .next (settled s (viaGate (atTime s now) who fun t =>
            let u := wrb (wr t F.cgCtlRamp ramp c) F.cgCtlEn true c
            if rdb t F.cgCtlEn c = true then u else cageCheck (wr u F.cgStatCause 0 c) c)))
  ∧ (∀ s now who c width ramp, Served s who → 64 ≤ width → c < 64 → ramp < 256 →
      wordLegal (fieldsAt (0x00420000 + 64 * c)) (BitVec.ofNat 64 (0 + 0 * 2 + ramp * 2 ^ 8)) = true →
      exec (.cgDisable now who c width ramp) s
        = .next (settled s (viaGate (atTime s now) who fun t =>
            let u := wrb (wr t F.cgCtlRamp ramp c) F.cgCtlEn false c
            if rdb t F.cgCtlEn c = true then cageOff u c else u)))
  ∧ (∀ s now who c width ramp, Served s who → 64 ≤ width → c < 64 → ramp < 256 →
      wordLegal (fieldsAt (0x00420000 + 64 * c)) (BitVec.ofNat 64 (1 + 1 * 2 + ramp * 2 ^ 8)) = true →
      cageState s c = 6 ∨ cageState s c = 7 →
      exec (.cgClear now who c width ramp true) s
        = .next (settled s (viaGate (atTime s now) who fun t =>
            let u := wr (wrb (wr t F.cgCtlRamp ramp c) F.cgCtlEn true c) F.cgRetryUsed 0 c
            cageCheck (wr (wr (wrb (wr u F.cgStatCause 0 c) F.cgStatCwarn false c) F.cgStatState 0 c) F.cgStatCause 0 c) c)))
  ∧ (∀ s now who c width ramp, Served s who → 64 ≤ width → c < 64 → ramp < 256 →
      wordLegal (fieldsAt (0x00420000 + 64 * c)) (BitVec.ofNat 64 (0 + 1 * 2 + ramp * 2 ^ 8)) = true → rdb s F.cgCtlEn c = false →
      cageState s c = 6 ∨ cageState s c = 7 →
      exec (.cgClear now who c width ramp false) s
        = .next (settled s (viaGate (atTime s now) who fun t =>
            let u := wr (wrb (wr t F.cgCtlRamp ramp c) F.cgCtlEn false c) F.cgRetryUsed 0 c
            wr (wrb (wr u F.cgStatCause 0 c) F.cgStatCwarn false c) F.cgStatState 0 c)))
  ∧ (∀ s now c reads, c < 64 → cageState s c = 1 → ((cageOf s c).waits && warningStands s) = false →
      cageCause (atTime s now) c reads = 0 →
      exec (.cgCheckDone now c reads) s
        = .next (settled s (wr (drawn (setCage (atTime s now) c
            { cageOf s c with waits := false, zeroAt := (atTime s now).timeNs })) F.cgStatState 2 c)))
  ∧ (∀ s now c reads cause, c < 64 → cageState s c = 1 → ((cageOf s c).waits && warningStands s) = false →
      cageCause (atTime s now) c reads = cause → cause ≠ 0 →
      exec (.cgCheckDone now c reads) s
        = .next (settled s (
            let u := drawn (setCage (atTime s now) c { cageOf s c with waits := false, zeroAt := (atTime s now).timeNs })
            tell (wrb (wr (wr u F.cgStatState 7 c) F.cgStatCause cause c) F.cgStatCwarn true c) (.fault 17 c))))
  ∧ (∀ s now c reads, cageState s c ≠ 1 ∨ ((cageOf s c).waits = true ∧ warningStands s = true) →
      exec (.cgCheckDone now c reads) s = .next (settled s (atTime s now)))
  ∧ (∀ s now c, c < 64 → cageState s c = 2 → rdb s F.cgStatLimit c = false →
      exec (.cgRampDone now c) s
        = .next (settled s (wr (setCage (atTime s now) c { cageOf s c with qualAt := (atTime s now).timeNs }) F.cgStatState 3 c)))
  ∧ (∀ s now c, cageState s c ≠ 2 ∨ rdb s F.cgStatLimit c = true →
      exec (.cgRampDone now c) s = .next (settled s (atTime s now)))
  ∧ (∀ s now c u v, c < 64 → cageDrives s c = true → rdb s F.cgStatLimit c = false →
      u = setLimit (wrb (atTime s now) F.cgStatPg false c) c true →
      v = (if rdb s F.cgStatPg c = true then wrb u F.cgStatCwarn true c else u) →
      exec (.cgLimitEngage now c) s
        = .next (settled s (if cageState v c = 4 then wr v F.cgStatState 3 c else v)))
  ∧ (∀ s now c u, c < 64 → cageDrives s c = true → rdb s F.cgStatLimit c = true →
      u = wrb (setLimit (atTime s now) c false) F.cgStatCwarn false c →
      exec (.cgLimitRelease now c) s
        = .next (settled s (setCage u c { cageOf u c with qualAt := u.timeNs })))
  ∧ (∀ s now c, cageDrives s c = false →
      exec (.cgLimitEngage now c) s = .next (settled s (atTime s now))
      ∧ exec (.cgLimitRelease now c) s = .next (settled s (atTime s now)))
  ∧ (∀ s now c, c < 64 → cageDrives s c = true → rd s F.cgPlimTimerUs c * 8000 ≤ cageTimer (atTime s now) c →
      exec (.cgFaultTimerExpired now c) s = .next (settled s (cageFault (atTime s now) c 1)))
  ∧ (∀ s now c, cageDrives s c = false ∨ cageTimer (atTime s now) c < rd s F.cgPlimTimerUs c * 8000 →
      exec (.cgFaultTimerExpired now c) s = .next (settled s (atTime s now)))
  ∧ (∀ s now c, c < 64 → 1 ≤ cageState s c → cageState s c ≤ 5 →
      exec (.cgHardShort now c) s = .next (settled s (cageFault (atTime s now) c 2)))
  ∧ (∀ s now c, c < 64 → cageState s c = 0 ∨ 6 ≤ cageState s c →
      exec (.cgHardShort now c) s = .next (settled s (wr (cageTrip (atTime s now) c 2) F.cgStatState 6 c)))
  ∧ (∀ s c cause, cageFault s c cause
      = (let t := tell (wrb (wr (wrb (setLimit s c false) F.cgStatPg false c) F.cgStatCause cause c) F.cgStatCwarn true c) (.fault 17 c)
         if rdb t F.cgRetryAuto c = true ∧ rd t F.cgRetryUsed c < 3 then
           wr (setCage t c { cageOf t c with backoffAt := t.timeNs }) F.cgStatState 5 c
         else wr t F.cgStatState 6 c))
  ∧ (∀ s now c, c < 64 → cageState s c = 5 → (cageOf s c).backoffAt + 1000000000 ≤ (atTime s now).timeNs →
      exec (.cgBackoffExpired now c) s
        = .next (settled s (cageCheck (wrb (wr (atTime s now) F.cgRetryUsed (rd s F.cgRetryUsed c + 1) c) F.cgStatCwarn false c) c)))
  ∧ (∀ s now c, cageState s c ≠ 5 ∨ (atTime s now).timeNs < (cageOf s c).backoffAt + 1000000000 →
      exec (.cgBackoffExpired now c) s = .next (settled s (atTime s now)))
  ∧ (∀ s now c, c < 64 → cageState s c = 3 → rdb s F.cgStatLimit c = false →
      (cageOf s c).qualAt + 1000000 ≤ (atTime s now).timeNs →
      exec (.cgPgQualified now c) s = .next (settled s (wrb (wr (atTime s now) F.cgStatState 4 c) F.cgStatPg true c)))
  ∧ (∀ s now c, cageState s c ≠ 3 ∨ rdb s F.cgStatLimit c = true ∨ (atTime s now).timeNs < (cageOf s c).qualAt + 1000000 →
      exec (.cgPgQualified now c) s = .next (settled s (atTime s now)))
  ∧ (∀ s now c, c < 64 → cageState s c = 0 → (cageOf s c).zeroAt + 100000000 ≤ (atTime s now).timeNs →
      exec (.cgOffsetRezero now c) s
        = .next (settled s (setCage (atTime s now) c { cageOf s c with zeroAt := (atTime s now).timeNs })))
  ∧ (∀ s now c vin vout iout u, c < 64 →
      u = wr (wr (wr (wr (atTime s now) F.cgMeasVinMv vin c) F.cgMeasVoutMv vout c) F.cgMeasIoutMa iout c)
            F.cgMeasP (min 65535 (vout * iout / 10000)) c →
      exec (.cgMeasureTick now c vin vout iout) s
        = .next (settled s (
            let e := (cageOf u c).part + vout * iout * 10
            let v := setCage u c { cageOf u c with
              part := e % 10 ^ 9, heldMa := if rdb u F.cgStatLimit c = true then some (cageILim u c vin vout) else none }
            wr v F.cgEnergyMj ((rd v F.cgEnergyMj c + e / 10 ^ 9) % 2 ^ 64) c)))

/-- PM_LEVEL_SAMPLE, PM_FREEZE_WRITE, PM_SNAP_WRITE, PM_SNAPSHOT_PERIOD, PM_DRAIN_CMD, PM_DRAIN_DONE, PM_COUNTER_WRITE and
PATINA_PERIODIC_WRITE. A level sample takes, for every counter that runs as it begins and selects a level, its level: added in MODE 0,
counted at or above THR in MODE 1, and when it rises to THR in MODE 2. A served write of PM_CTL (with SNAP 0 or 1) stores it with SNAP 0,
starts the count of a changed PERIOD_US, freezes with cause 1 or resumes with cause 0 as FREEZE says, and takes a snapshot with SNAP; a
PERIOD_US of 1 to 9 is refused. A snapshot is taken once PERIOD_US have passed, and not before. A served PM_DRAIN_CMD of a function with GO
and a COUNT, while no drain runs, begins one over its port; with no GO it does nothing; with COUNT 0, while one runs, or from the management
controller it is refused. A drain's end posts the oldest COUNT records over a serving port, frees them and shows COPIED. A counter's word is
written as its fields' access says. Firmware that runs brings LIFE up to date and writes the patina to flash. -/
def Obligations.MonitoringCommandsComplete : Prop :=
  (∀ s now t, t = atTime s now →
      exec (.pmLevelSample now) s
        = .next (settled s ((List.range 256).foldl (fun u i =>
            if pmRuns t i && pmLevel (rd u F.pmSelBlock i) (rd u F.pmSelEvent i) then
              let v := pmSampled u i
              let x := setPm u fun p => { p with levels := mset p.levels i v }
              if rd x F.pmSelMode i = 0 then pmAdd x i v
              else if rd x F.pmSelMode i = 1 then if rd u F.pmSelThr i ≤ v then pmAdd x i 1 else x
              else if rd x F.pmSelMode i = 2 then
                if mgetD u.pm.levels i 0 < rd u F.pmSelThr i ∧ rd u F.pmSelThr i ≤ v then pmAdd x i 1 else x
              else x
            else u) t)))
  ∧ (∀ s now who width val, Served s who → 64 ≤ width → wordLegal (fieldsAt 0x00500000) (wordSet val 2 1 0) = true →
      exec (.pmFreezeWrite now who width val) s
        = .next (settled s (viaGate (atTime s now) who fun t => pmCtlWrite t (wordSet val 2 1 0))))
  ∧ (∀ s now who width val, Served s who → 64 ≤ width → wordLegal (fieldsAt 0x00500000) (wordSet val 2 1 1) = true →
      exec (.pmSnapWrite now who width val) s
        = .next (settled s (viaGate (atTime s now) who fun t => pmCtlWrite t (wordSet val 2 1 1))))
  ∧ (∀ s w u v x, wordGet w 16 16 = 0 ∨ 10 ≤ wordGet w 16 16 → u = csrPlain s 0x500000 (wordSet w 2 1 0) →
      v = (if rd s F.pmCtlPeriodUs = wordGet w 16 16 then u else setPm u fun p => { p with snapAt := u.timeNs }) →
      x = (if bitAt w.toNat 1 = true then freezePm v 1 else wr (setPm v fun p => { p with frozen := false }) F.pmStatFrzCause 0) →
      pmCtlWrite s w = (if bitAt w.toNat 2 = true then takeSnapshot x else x))
  ∧ (∀ s w, 1 ≤ wordGet w 16 16 → wordGet w 16 16 ≤ 9 → pmCtlWrite s w = refuseWrite s)
  ∧ (∀ s now, rd s F.pmCtlPeriodUs ≠ 0 → s.pm.snapAt + rd s F.pmCtlPeriodUs * 1000 ≤ (atTime s now).timeNs →
      exec (.pmSnapshotPeriod now) s
        = .next (settled s (takeSnapshot (setPm (atTime s now) fun x => { x with snapAt := (atTime s now).timeNs }))))
  ∧ (∀ s now, rd s F.pmCtlPeriodUs = 0 ∨ (atTime s now).timeNs < s.pm.snapAt + rd s F.pmCtlPeriodUs * 1000 →
      exec (.pmSnapshotPeriod now) s = .next (settled s (atTime s now)))
  ∧ (∀ s hp fn width val, Served s (.fn hp fn) → 64 ≤ width → wordLegal (fieldsAt 0x00500118) val = true →
      rd s F.pmDrainStatSt ≠ 1 → wordGet val 16 16 ≠ 0 → bitAt val.toNat 0 = true →
      exec (.pmDrainCmd (.fn hp fn) width val) s
        = .next (settled s (viaGate s (.fn hp fn) fun t =>
            wr (setPm t fun p => { p with drain := some (wordGet val 8 1, wordGet val 16 16, hp) }) F.pmDrainStatSt 1)))
  ∧ (∀ s who width val, Served s who → 64 ≤ width → wordLegal (fieldsAt 0x00500118) val = true →
      rd s F.pmDrainStatSt ≠ 1 → wordGet val 16 16 ≠ 0 → bitAt val.toNat 0 = false →
      exec (.pmDrainCmd who width val) s = .next (settled s (viaGate s who id)))
  ∧ (∀ s who width val, Served s who → 64 ≤ width → wordLegal (fieldsAt 0x00500118) val = true →
      rd s F.pmDrainStatSt = 1 ∨ wordGet val 16 16 = 0 ∨ (bitAt val.toNat 0 = true ∧ who = .mgmt) →
      exec (.pmDrainCmd who width val) s = .next (settled s (viaGate s who refuseWrite)))
  ∧ (∀ s ring count hp l n, s.pm.drain = some (ring, count, hp) → l = (if ring = 0 then s.pm.snaps else s.pm.samples) →
      n = min count l.length →
      exec .pmDrainDone s
        = .next (settled s (
            let u := if serving s hp = true ∧ 0 < n then emit s (.hostWords hp (rd s F.pmDrainAddrAddr * 64) (l.take n).flatten) else s
            wr (wr (setPm u fun p => { p with
              drain := none, snaps := if ring = 0 then p.snaps.drop n else p.snaps,
              samples := if ring = 0 then p.samples else p.samples.drop n }) F.pmDrainStatSt 2) F.pmDrainStatCopied n)))
  ∧ (∀ s, s.pm.drain = none → exec .pmDrainDone s = .next (settled s s))
  ∧ (∀ s who width i val, Served s who → 64 ≤ width → i < 256 → wordLegal (fieldsAt (0x00501800 + 8 * i)) val = true →
      exec (.pmCounterWrite who i width val) s
        = .next (settled s (viaGate s who fun t =>
            csrPut t (0x00501800 + 8 * i) (wordWrite (locked t (0x00501800 + 8 * i)) (fieldsAt (0x00501800 + 8 * i))
              (csrRaw t (0x00501800 + 8 * i)) val))))
  ∧ (∀ s now hot powered, firmwareRuns s = true →
      exec (.patinaPeriodicWrite now hot powered) s
        = .next (settled s (
            let u := setPat (atTime s now) 6 0 (hot % 2 ^ 32 * 2 ^ 32 + powered % 2 ^ 32) true
            setFc u fun f => { f with patinaFlash := f.patina })))
  ∧ (∀ s now hot powered, firmwareRuns s = false →
      exec (.patinaPeriodicWrite now hot powered) s = .next (settled s (atTime s now)))

/-- R35: a served write of MODE_CTL from PF0 of either host port or from the management controller is acted on; from any other function it
is discarded and counted in TOP_CSR_REFUSED.COUNT, and no other register changes. -/
def Obligations.ModeControlTakesPf0AndManagement : Prop :=
  (∀ s who width, Served s who → 64 ≤ width → (who = .mgmt ∨ ∃ hp, who = .fn hp 0) →
      exec (.modeCtlEnterTest who width) s = .next (settled s (viaGate s who enterTest))
      ∧ exec (.modeCtlLeaveTest who width) s = .next (settled s (viaGate s who leaveTest))
      ∧ ∀ val, wordLegal (fieldsAt 0x108) val = true →
        exec (.csrWriteGeneric who 0x108 width val) s
          = .next (settled s (viaGate s who fun t =>
              if wordGet val 0 2 = 1 then enterTest t else if wordGet val 0 2 = 2 then leaveTest t else t)))
  ∧ (∀ s hp fn width, Served s (.fn hp fn) → 64 ≤ width → fn ≠ 0 →
      exec (.modeCtlEnterTest (.fn hp fn) width) s = .next (settled s (viaGate s (.fn hp fn) refuseWrite))
      ∧ exec (.modeCtlLeaveTest (.fn hp fn) width) s = .next (settled s (viaGate s (.fn hp fn) refuseWrite)))
  ∧ (∀ t, rd (refuseWrite t) F.topCsrRefusedCount = min (rd t F.topCsrRefusedCount + 1) (2 ^ 32 - 1)
      ∧ (∀ key, key ≠ F.topCsrRefusedCount.key 0 → csrRaw (refuseWrite t) key = csrRaw t key)
      ∧ refuseWrite t = { t with csr := (refuseWrite t).csr })

/-- R80: a packet's first 32 bytes are its four header words, word 0 first, each least significant byte first, and the payload follows in
memory byte order; and what reads flits back finds the packet that was cut into them, with every field at every value its width admits. -/
def Obligations.PacketFlitsSpellThePacket : Prop :=
  (∀ p j i, j < 4 → i < 8 →
      (hdrBytes p)[8 * j + i]? = some (BitVec.ofNat 8 (([hdr0 p, hdr1 p, hdr2 p, hdr3 p].getD j 0) / 256 ^ i)))
  ∧ (∀ p, p.payload.length = p.len → p.len ≤ 4096 → (pktFlits p).flatten.take (32 + p.len) = hdrBytes p ++ p.payload)
  ∧ (∀ p, p.wf = true → p.payload.length = p.len → p.stomp < 256 → pktOf (pktFlits p) = p)

/-- R90: at the lookup of its head, a packet for another device that arrived with AGE of 1,000 or more and HOP of 12 or more is dropped once
and counted once, in AGE: HOP does not count it. -/
def Obligations.PacketOverBothLimitsCountsInAge : Prop :=
  ∀ s now inp vc id p, waitsLookup s inp vc = some (id, p) → p.hdr.hcrc = hcrcOf p.hdr → (p.hdr.dst ≠ selfId s ∨ p.hdr.op = opMcPut) →
    1000 ≤ p.hdr.age → 12 ≤ p.hdr.hop →
    let e := dropAtLookup (inc (atTime s now) F.rtPktDrop0Age) id p
    exec (.packetHeadLookup now inp vc) s = .next (settled s e)
    ∧ rd e F.rtPktDrop0Age = satAdd F.rtPktDrop0Age.width (rd s F.rtPktDrop0Age) 1
    ∧ rd e F.rtPktDrop1Hop = rd s F.rtPktDrop1Hop

/-- R605: a served write of PM_CNT replaces VALUE at once; events counted then are added after it; OVF changes only by writing 1 to it, and
every other register keeps its value. -/
def Obligations.CounterWriteReplacesValueAtOnce : Prop :=
  ∀ i, i < 256 →
    (∀ s who width val, Served s who → 64 ≤ width → wordLegal (fieldsAt (0x00501800 + 8 * i)) val = true →
      exec (.pmCounterWrite who i width val) s
        = .next (settled s (viaGate s who fun t =>
            csrPut t (0x00501800 + 8 * i) (wordWrite (locked t (0x00501800 + 8 * i)) (fieldsAt (0x00501800 + 8 * i))
              (csrRaw t (0x00501800 + 8 * i)) val))))
    ∧ (∀ t l val n, let u := csrPut t (0x00501800 + 8 * i) (wordWrite l (fieldsAt (0x00501800 + 8 * i)) (csrRaw t (0x00501800 + 8 * i)) val)
        rd u F.pmCntValue i = wordGet val 0 48
        ∧ rdb u F.pmCntOvf i = (rdb t F.pmCntOvf i && !bitAt val.toNat 63)
        ∧ rd (pmAdd u i n) F.pmCntValue i = (wordGet val 0 48 + n) % 2 ^ 48
        ∧ ∀ key, key ≠ 0x00501800 + 8 * i → csrRaw u key = csrRaw t key)

/-- R576 and R583: a current above 2 x ILIM turns a channel's gate off in any state and whatever its fault timer holds, and the fault
latches with CAUSE HARD_SHORT (2): a channel that was checking, driven or in BACKOFF waits in BACKOFF with AUTO and a retry left, else stays
in FAULT; clearing EN during BACKOFF takes the channel to OFF at once, with CAUSE kept until the next enable, which clears it. Other
channels keep their registers. -/
def Obligations.ShortTurnsGateOffAndDisableEndsRetries : Prop :=
  (∀ s now c, c < 64 →
      let e := cageShort (atTime s now) c
      exec (.cgHardShort now c) s = .next (settled s e)
      ∧ cageDrives e c = false ∧ rd e F.cgStatCause c = 2 ∧ rdb e F.cgStatPg c = false
      ∧ (cageState e c = 5 ∨ cageState e c = 6)
      ∧ (1 ≤ cageState s c → cageState s c ≤ 5 →
          cageState e c = (if rdb s F.cgRetryAuto c = true ∧ rd s F.cgRetryUsed c < 3 then 5 else 6))
      ∧ ∀ c', c' < 64 → c' ≠ c → csrRaw e (F.cgStatState.key c') = csrRaw s (F.cgStatState.key c'))
  ∧ (∀ s now who c width ramp, Served s who → 64 ≤ width → c < 64 → ramp < 256 →
      wordLegal (fieldsAt (0x00420000 + 64 * c)) (BitVec.ofNat 64 (0 + 0 * 2 + ramp * 2 ^ 8)) = true → rdb s F.cgCtlEn c = true →
      exec (.cgDisable now who c width ramp) s
        = .next (settled s (viaGate (atTime s now) who fun t => cageOff (wrb (wr t F.cgCtlRamp ramp c) F.cgCtlEn false c) c)))
  ∧ (∀ t c ramp, c < 64 → cageState t c = 5 →
      let e := cageOff (wrb (wr t F.cgCtlRamp ramp c) F.cgCtlEn false c) c
      cageState e c = 0 ∧ rd e F.cgStatCause c = rd t F.cgStatCause c ∧ rdb e F.cgCtlEn c = false)
  ∧ (∀ t c ramp, c < 64 → rdb t F.cgCtlEn c = false → rd (cageControl t c ramp true false) F.cgStatCause c = 0)
end

