-- ==== Sys2Proof/Laws/State.lean ====
section
/-!
SUPPORT. Laws/State.lean: one lemma for each field of the state under each elementary update: which field the update writes, and
that it leaves the others.
-/

namespace Sys2Proof.Machine

/-! atTime -/

@[simp] theorem atTime_pending (s : State) (now : Nat) : (atTime s now).pending = s.pending := by cases s; rfl
@[simp] theorem atTime_csr (s : State) (now : Nat) : (atTime s now).csr = s.csr := by cases s; rfl
@[simp] theorem atTime_out (s : State) (now : Nat) : (atTime s now).out = s.out := by cases s; rfl
@[simp] theorem atTime_free (s : State) (now : Nat) : (atTime s now).free = s.free := by cases s; rfl
@[simp] theorem atTime_timeNs (s : State) (now : Nat) : (atTime s now).timeNs = max s.timeNs now := rfl
@[simp] theorem atTime_lanes (s : State) (now : Nat) : (atTime s now).lanes = s.lanes := by cases s; rfl
@[simp] theorem atTime_spares (s : State) (now : Nat) : (atTime s now).spares = s.spares := by cases s; rfl
@[simp] theorem atTime_links (s : State) (now : Nat) : (atTime s now).links = s.links := by cases s; rfl
@[simp] theorem atTime_sw (s : State) (now : Nat) : (atTime s now).sw = s.sw := by cases s; rfl
@[simp] theorem atTime_rt (s : State) (now : Nat) : (atTime s now).rt = s.rt := by cases s; rfl
@[simp] theorem atTime_hi (s : State) (now : Nat) : (atTime s now).hi = s.hi := by cases s; rfl
@[simp] theorem atTime_txn (s : State) (now : Nat) : (atTime s now).txn = s.txn := by cases s; rfl
@[simp] theorem atTime_eng (s : State) (now : Nat) : (atTime s now).eng = s.eng := by cases s; rfl
@[simp] theorem atTime_tp (s : State) (now : Nat) : (atTime s now).tp = s.tp := by cases s; rfl
@[simp] theorem atTime_mt (s : State) (now : Nat) : (atTime s now).mt = s.mt := by cases s; rfl
@[simp] theorem atTime_xl (s : State) (now : Nat) : (atTime s now).xl = s.xl := by cases s; rfl
@[simp] theorem atTime_mr (s : State) (now : Nat) : (atTime s now).mr = s.mr := by cases s; rfl
@[simp] theorem atTime_sc (s : State) (now : Nat) : (atTime s now).sc = s.sc := by cases s; rfl
@[simp] theorem atTime_kn (s : State) (now : Nat) : (atTime s now).kn = s.kn := by cases s; rfl
@[simp] theorem atTime_at' (s : State) (now : Nat) : (atTime s now).at' = s.at' := by cases s; rfl
@[simp] theorem atTime_cl (s : State) (now : Nat) : (atTime s now).cl = s.cl := by cases s; rfl
@[simp] theorem atTime_gw (s : State) (now : Nat) : (atTime s now).gw = s.gw := by cases s; rfl
@[simp] theorem atTime_fc (s : State) (now : Nat) : (atTime s now).fc = s.fc := by cases s; rfl
@[simp] theorem atTime_fw (s : State) (now : Nat) : (atTime s now).fw = s.fw := by cases s; rfl
@[simp] theorem atTime_pw (s : State) (now : Nat) : (atTime s now).pw = s.pw := by cases s; rfl
@[simp] theorem atTime_cage (s : State) (now : Nat) : (atTime s now).cage = s.cage := by cases s; rfl
@[simp] theorem atTime_pm (s : State) (now : Nat) : (atTime s now).pm = s.pm := by cases s; rfl
@[simp] theorem atTime_testReq (s : State) (now : Nat) : (atTime s now).testReq = s.testReq := by cases s; rfl
@[simp] theorem atTime_notices (s : State) (now : Nat) : (atTime s now).notices = s.notices := by cases s; rfl
@[simp] theorem csrRaw_atTime (s : State) (now : Nat) (key : Nat) : csrRaw (atTime s now) key = csrRaw s key := by simp only [csrRaw, atTime_csr]
@[simp] theorem rd_atTime (s : State) (now : Nat) (fld : Fld) (a b : Nat) : rd (atTime s now) fld a b = rd s fld a b := by simp only [rd, csrRaw_atTime]
@[simp] theorem rdb_atTime (s : State) (now : Nat) (fld : Fld) (a b : Nat) : rdb (atTime s now) fld a b = rdb s fld a b := by simp only [rdb, rd_atTime]

/-! emit -/

@[simp] theorem emit_pending (s : State) (o : Out) : (emit s o).pending = s.pending := by cases s; rfl
@[simp] theorem emit_csr (s : State) (o : Out) : (emit s o).csr = s.csr := by cases s; rfl
@[simp] theorem emit_out (s : State) (o : Out) : (emit s o).out = s.out ++ [o] := rfl
@[simp] theorem emit_free (s : State) (o : Out) : (emit s o).free = s.free := by cases s; rfl
@[simp] theorem emit_timeNs (s : State) (o : Out) : (emit s o).timeNs = s.timeNs := by cases s; rfl
@[simp] theorem emit_lanes (s : State) (o : Out) : (emit s o).lanes = s.lanes := by cases s; rfl
@[simp] theorem emit_spares (s : State) (o : Out) : (emit s o).spares = s.spares := by cases s; rfl
@[simp] theorem emit_links (s : State) (o : Out) : (emit s o).links = s.links := by cases s; rfl
@[simp] theorem emit_sw (s : State) (o : Out) : (emit s o).sw = s.sw := by cases s; rfl
@[simp] theorem emit_rt (s : State) (o : Out) : (emit s o).rt = s.rt := by cases s; rfl
@[simp] theorem emit_hi (s : State) (o : Out) : (emit s o).hi = s.hi := by cases s; rfl
@[simp] theorem emit_txn (s : State) (o : Out) : (emit s o).txn = s.txn := by cases s; rfl
@[simp] theorem emit_eng (s : State) (o : Out) : (emit s o).eng = s.eng := by cases s; rfl
@[simp] theorem emit_tp (s : State) (o : Out) : (emit s o).tp = s.tp := by cases s; rfl
@[simp] theorem emit_mt (s : State) (o : Out) : (emit s o).mt = s.mt := by cases s; rfl
@[simp] theorem emit_xl (s : State) (o : Out) : (emit s o).xl = s.xl := by cases s; rfl
@[simp] theorem emit_mr (s : State) (o : Out) : (emit s o).mr = s.mr := by cases s; rfl
@[simp] theorem emit_sc (s : State) (o : Out) : (emit s o).sc = s.sc := by cases s; rfl
@[simp] theorem emit_kn (s : State) (o : Out) : (emit s o).kn = s.kn := by cases s; rfl
@[simp] theorem emit_at' (s : State) (o : Out) : (emit s o).at' = s.at' := by cases s; rfl
@[simp] theorem emit_cl (s : State) (o : Out) : (emit s o).cl = s.cl := by cases s; rfl
@[simp] theorem emit_gw (s : State) (o : Out) : (emit s o).gw = s.gw := by cases s; rfl
@[simp] theorem emit_fc (s : State) (o : Out) : (emit s o).fc = s.fc := by cases s; rfl
@[simp] theorem emit_fw (s : State) (o : Out) : (emit s o).fw = s.fw := by cases s; rfl
@[simp] theorem emit_pw (s : State) (o : Out) : (emit s o).pw = s.pw := by cases s; rfl
@[simp] theorem emit_cage (s : State) (o : Out) : (emit s o).cage = s.cage := by cases s; rfl
@[simp] theorem emit_pm (s : State) (o : Out) : (emit s o).pm = s.pm := by cases s; rfl
@[simp] theorem emit_testReq (s : State) (o : Out) : (emit s o).testReq = s.testReq := by cases s; rfl
@[simp] theorem emit_notices (s : State) (o : Out) : (emit s o).notices = s.notices := by cases s; rfl
@[simp] theorem csrRaw_emit (s : State) (o : Out) (key : Nat) : csrRaw (emit s o) key = csrRaw s key := by simp only [csrRaw, emit_csr]
@[simp] theorem rd_emit (s : State) (o : Out) (fld : Fld) (a b : Nat) : rd (emit s o) fld a b = rd s fld a b := by simp only [rd, csrRaw_emit]
@[simp] theorem rdb_emit (s : State) (o : Out) (fld : Fld) (a b : Nat) : rdb (emit s o) fld a b = rdb s fld a b := by simp only [rdb, rd_emit]

/-! emits -/

@[simp] theorem emits_pending (s : State) (os : List Out) : (emits s os).pending = s.pending := by cases s; rfl
@[simp] theorem emits_csr (s : State) (os : List Out) : (emits s os).csr = s.csr := by cases s; rfl
@[simp] theorem emits_out (s : State) (os : List Out) : (emits s os).out = s.out ++ os := rfl
@[simp] theorem emits_free (s : State) (os : List Out) : (emits s os).free = s.free := by cases s; rfl
@[simp] theorem emits_timeNs (s : State) (os : List Out) : (emits s os).timeNs = s.timeNs := by cases s; rfl
@[simp] theorem emits_lanes (s : State) (os : List Out) : (emits s os).lanes = s.lanes := by cases s; rfl
@[simp] theorem emits_spares (s : State) (os : List Out) : (emits s os).spares = s.spares := by cases s; rfl
@[simp] theorem emits_links (s : State) (os : List Out) : (emits s os).links = s.links := by cases s; rfl
@[simp] theorem emits_sw (s : State) (os : List Out) : (emits s os).sw = s.sw := by cases s; rfl
@[simp] theorem emits_rt (s : State) (os : List Out) : (emits s os).rt = s.rt := by cases s; rfl
@[simp] theorem emits_hi (s : State) (os : List Out) : (emits s os).hi = s.hi := by cases s; rfl
@[simp] theorem emits_txn (s : State) (os : List Out) : (emits s os).txn = s.txn := by cases s; rfl
@[simp] theorem emits_eng (s : State) (os : List Out) : (emits s os).eng = s.eng := by cases s; rfl
@[simp] theorem emits_tp (s : State) (os : List Out) : (emits s os).tp = s.tp := by cases s; rfl
@[simp] theorem emits_mt (s : State) (os : List Out) : (emits s os).mt = s.mt := by cases s; rfl
@[simp] theorem emits_xl (s : State) (os : List Out) : (emits s os).xl = s.xl := by cases s; rfl
@[simp] theorem emits_mr (s : State) (os : List Out) : (emits s os).mr = s.mr := by cases s; rfl
@[simp] theorem emits_sc (s : State) (os : List Out) : (emits s os).sc = s.sc := by cases s; rfl
@[simp] theorem emits_kn (s : State) (os : List Out) : (emits s os).kn = s.kn := by cases s; rfl
@[simp] theorem emits_at' (s : State) (os : List Out) : (emits s os).at' = s.at' := by cases s; rfl
@[simp] theorem emits_cl (s : State) (os : List Out) : (emits s os).cl = s.cl := by cases s; rfl
@[simp] theorem emits_gw (s : State) (os : List Out) : (emits s os).gw = s.gw := by cases s; rfl
@[simp] theorem emits_fc (s : State) (os : List Out) : (emits s os).fc = s.fc := by cases s; rfl
@[simp] theorem emits_fw (s : State) (os : List Out) : (emits s os).fw = s.fw := by cases s; rfl
@[simp] theorem emits_pw (s : State) (os : List Out) : (emits s os).pw = s.pw := by cases s; rfl
@[simp] theorem emits_cage (s : State) (os : List Out) : (emits s os).cage = s.cage := by cases s; rfl
@[simp] theorem emits_pm (s : State) (os : List Out) : (emits s os).pm = s.pm := by cases s; rfl
@[simp] theorem emits_testReq (s : State) (os : List Out) : (emits s os).testReq = s.testReq := by cases s; rfl
@[simp] theorem emits_notices (s : State) (os : List Out) : (emits s os).notices = s.notices := by cases s; rfl
@[simp] theorem csrRaw_emits (s : State) (os : List Out) (key : Nat) : csrRaw (emits s os) key = csrRaw s key := by simp only [csrRaw, emits_csr]
@[simp] theorem rd_emits (s : State) (os : List Out) (fld : Fld) (a b : Nat) : rd (emits s os) fld a b = rd s fld a b := by simp only [rd, csrRaw_emits]
@[simp] theorem rdb_emits (s : State) (os : List Out) (fld : Fld) (a b : Nat) : rdb (emits s os) fld a b = rdb s fld a b := by simp only [rdb, rd_emits]

/-! drawn -/

@[simp] theorem drawn_pending (s : State)  : (drawn s).pending = s.pending := by cases s; rfl
@[simp] theorem drawn_csr (s : State)  : (drawn s).csr = s.csr := by cases s; rfl
@[simp] theorem drawn_out (s : State)  : (drawn s).out = s.out := by cases s; rfl
@[simp] theorem drawn_free (s : State)  : (drawn s).free = s.free + 1 := rfl
@[simp] theorem drawn_timeNs (s : State)  : (drawn s).timeNs = s.timeNs := by cases s; rfl
@[simp] theorem drawn_lanes (s : State)  : (drawn s).lanes = s.lanes := by cases s; rfl
@[simp] theorem drawn_spares (s : State)  : (drawn s).spares = s.spares := by cases s; rfl
@[simp] theorem drawn_links (s : State)  : (drawn s).links = s.links := by cases s; rfl
@[simp] theorem drawn_sw (s : State)  : (drawn s).sw = s.sw := by cases s; rfl
@[simp] theorem drawn_rt (s : State)  : (drawn s).rt = s.rt := by cases s; rfl
@[simp] theorem drawn_hi (s : State)  : (drawn s).hi = s.hi := by cases s; rfl
@[simp] theorem drawn_txn (s : State)  : (drawn s).txn = s.txn := by cases s; rfl
@[simp] theorem drawn_eng (s : State)  : (drawn s).eng = s.eng := by cases s; rfl
@[simp] theorem drawn_tp (s : State)  : (drawn s).tp = s.tp := by cases s; rfl
@[simp] theorem drawn_mt (s : State)  : (drawn s).mt = s.mt := by cases s; rfl
@[simp] theorem drawn_xl (s : State)  : (drawn s).xl = s.xl := by cases s; rfl
@[simp] theorem drawn_mr (s : State)  : (drawn s).mr = s.mr := by cases s; rfl
@[simp] theorem drawn_sc (s : State)  : (drawn s).sc = s.sc := by cases s; rfl
@[simp] theorem drawn_kn (s : State)  : (drawn s).kn = s.kn := by cases s; rfl
@[simp] theorem drawn_at' (s : State)  : (drawn s).at' = s.at' := by cases s; rfl
@[simp] theorem drawn_cl (s : State)  : (drawn s).cl = s.cl := by cases s; rfl
@[simp] theorem drawn_gw (s : State)  : (drawn s).gw = s.gw := by cases s; rfl
@[simp] theorem drawn_fc (s : State)  : (drawn s).fc = s.fc := by cases s; rfl
@[simp] theorem drawn_fw (s : State)  : (drawn s).fw = s.fw := by cases s; rfl
@[simp] theorem drawn_pw (s : State)  : (drawn s).pw = s.pw := by cases s; rfl
@[simp] theorem drawn_cage (s : State)  : (drawn s).cage = s.cage := by cases s; rfl
@[simp] theorem drawn_pm (s : State)  : (drawn s).pm = s.pm := by cases s; rfl
@[simp] theorem drawn_testReq (s : State)  : (drawn s).testReq = s.testReq := by cases s; rfl
@[simp] theorem drawn_notices (s : State)  : (drawn s).notices = s.notices := by cases s; rfl
@[simp] theorem csrRaw_drawn (s : State)  (key : Nat) : csrRaw (drawn s) key = csrRaw s key := by simp only [csrRaw, drawn_csr]
@[simp] theorem rd_drawn (s : State)  (fld : Fld) (a b : Nat) : rd (drawn s) fld a b = rd s fld a b := by simp only [rd, csrRaw_drawn]
@[simp] theorem rdb_drawn (s : State)  (fld : Fld) (a b : Nat) : rdb (drawn s) fld a b = rdb s fld a b := by simp only [rdb, rd_drawn]

/-! csrPut -/

@[simp] theorem csrPut_pending (s : State) (k : Nat) (w : Word) : (csrPut s k w).pending = s.pending := by cases s; rfl
@[simp] theorem csrPut_csr (s : State) (k : Nat) (w : Word) : (csrPut s k w).csr = csrStore s.csr k w := rfl
@[simp] theorem csrPut_out (s : State) (k : Nat) (w : Word) : (csrPut s k w).out = s.out := by cases s; rfl
@[simp] theorem csrPut_free (s : State) (k : Nat) (w : Word) : (csrPut s k w).free = s.free := by cases s; rfl
@[simp] theorem csrPut_timeNs (s : State) (k : Nat) (w : Word) : (csrPut s k w).timeNs = s.timeNs := by cases s; rfl
@[simp] theorem csrPut_lanes (s : State) (k : Nat) (w : Word) : (csrPut s k w).lanes = s.lanes := by cases s; rfl
@[simp] theorem csrPut_spares (s : State) (k : Nat) (w : Word) : (csrPut s k w).spares = s.spares := by cases s; rfl
@[simp] theorem csrPut_links (s : State) (k : Nat) (w : Word) : (csrPut s k w).links = s.links := by cases s; rfl
@[simp] theorem csrPut_sw (s : State) (k : Nat) (w : Word) : (csrPut s k w).sw = s.sw := by cases s; rfl
@[simp] theorem csrPut_rt (s : State) (k : Nat) (w : Word) : (csrPut s k w).rt = s.rt := by cases s; rfl
@[simp] theorem csrPut_hi (s : State) (k : Nat) (w : Word) : (csrPut s k w).hi = s.hi := by cases s; rfl
@[simp] theorem csrPut_txn (s : State) (k : Nat) (w : Word) : (csrPut s k w).txn = s.txn := by cases s; rfl
@[simp] theorem csrPut_eng (s : State) (k : Nat) (w : Word) : (csrPut s k w).eng = s.eng := by cases s; rfl
@[simp] theorem csrPut_tp (s : State) (k : Nat) (w : Word) : (csrPut s k w).tp = s.tp := by cases s; rfl
@[simp] theorem csrPut_mt (s : State) (k : Nat) (w : Word) : (csrPut s k w).mt = s.mt := by cases s; rfl
@[simp] theorem csrPut_xl (s : State) (k : Nat) (w : Word) : (csrPut s k w).xl = s.xl := by cases s; rfl
@[simp] theorem csrPut_mr (s : State) (k : Nat) (w : Word) : (csrPut s k w).mr = s.mr := by cases s; rfl
@[simp] theorem csrPut_sc (s : State) (k : Nat) (w : Word) : (csrPut s k w).sc = s.sc := by cases s; rfl
@[simp] theorem csrPut_kn (s : State) (k : Nat) (w : Word) : (csrPut s k w).kn = s.kn := by cases s; rfl
@[simp] theorem csrPut_at' (s : State) (k : Nat) (w : Word) : (csrPut s k w).at' = s.at' := by cases s; rfl
@[simp] theorem csrPut_cl (s : State) (k : Nat) (w : Word) : (csrPut s k w).cl = s.cl := by cases s; rfl
@[simp] theorem csrPut_gw (s : State) (k : Nat) (w : Word) : (csrPut s k w).gw = s.gw := by cases s; rfl
@[simp] theorem csrPut_fc (s : State) (k : Nat) (w : Word) : (csrPut s k w).fc = s.fc := by cases s; rfl
@[simp] theorem csrPut_fw (s : State) (k : Nat) (w : Word) : (csrPut s k w).fw = s.fw := by cases s; rfl
@[simp] theorem csrPut_pw (s : State) (k : Nat) (w : Word) : (csrPut s k w).pw = s.pw := by cases s; rfl
@[simp] theorem csrPut_cage (s : State) (k : Nat) (w : Word) : (csrPut s k w).cage = s.cage := by cases s; rfl
@[simp] theorem csrPut_pm (s : State) (k : Nat) (w : Word) : (csrPut s k w).pm = s.pm := by cases s; rfl
@[simp] theorem csrPut_testReq (s : State) (k : Nat) (w : Word) : (csrPut s k w).testReq = s.testReq := by cases s; rfl
@[simp] theorem csrPut_notices (s : State) (k : Nat) (w : Word) : (csrPut s k w).notices = s.notices := by cases s; rfl

/-! wr -/

@[simp] theorem wr_pending (s : State) (f : Fld) (v i j : Nat) : (wr s f v i j).pending = s.pending := csrPut_pending _ _ _
@[simp] theorem wr_out (s : State) (f : Fld) (v i j : Nat) : (wr s f v i j).out = s.out := csrPut_out _ _ _
@[simp] theorem wr_free (s : State) (f : Fld) (v i j : Nat) : (wr s f v i j).free = s.free := csrPut_free _ _ _
@[simp] theorem wr_timeNs (s : State) (f : Fld) (v i j : Nat) : (wr s f v i j).timeNs = s.timeNs := csrPut_timeNs _ _ _
@[simp] theorem wr_lanes (s : State) (f : Fld) (v i j : Nat) : (wr s f v i j).lanes = s.lanes := csrPut_lanes _ _ _
@[simp] theorem wr_spares (s : State) (f : Fld) (v i j : Nat) : (wr s f v i j).spares = s.spares := csrPut_spares _ _ _
@[simp] theorem wr_links (s : State) (f : Fld) (v i j : Nat) : (wr s f v i j).links = s.links := csrPut_links _ _ _
@[simp] theorem wr_sw (s : State) (f : Fld) (v i j : Nat) : (wr s f v i j).sw = s.sw := csrPut_sw _ _ _
@[simp] theorem wr_rt (s : State) (f : Fld) (v i j : Nat) : (wr s f v i j).rt = s.rt := csrPut_rt _ _ _
@[simp] theorem wr_hi (s : State) (f : Fld) (v i j : Nat) : (wr s f v i j).hi = s.hi := csrPut_hi _ _ _
@[simp] theorem wr_txn (s : State) (f : Fld) (v i j : Nat) : (wr s f v i j).txn = s.txn := csrPut_txn _ _ _
@[simp] theorem wr_eng (s : State) (f : Fld) (v i j : Nat) : (wr s f v i j).eng = s.eng := csrPut_eng _ _ _
@[simp] theorem wr_tp (s : State) (f : Fld) (v i j : Nat) : (wr s f v i j).tp = s.tp := csrPut_tp _ _ _
@[simp] theorem wr_mt (s : State) (f : Fld) (v i j : Nat) : (wr s f v i j).mt = s.mt := csrPut_mt _ _ _
@[simp] theorem wr_xl (s : State) (f : Fld) (v i j : Nat) : (wr s f v i j).xl = s.xl := csrPut_xl _ _ _
@[simp] theorem wr_mr (s : State) (f : Fld) (v i j : Nat) : (wr s f v i j).mr = s.mr := csrPut_mr _ _ _
@[simp] theorem wr_sc (s : State) (f : Fld) (v i j : Nat) : (wr s f v i j).sc = s.sc := csrPut_sc _ _ _
@[simp] theorem wr_kn (s : State) (f : Fld) (v i j : Nat) : (wr s f v i j).kn = s.kn := csrPut_kn _ _ _
@[simp] theorem wr_at' (s : State) (f : Fld) (v i j : Nat) : (wr s f v i j).at' = s.at' := csrPut_at' _ _ _
@[simp] theorem wr_cl (s : State) (f : Fld) (v i j : Nat) : (wr s f v i j).cl = s.cl := csrPut_cl _ _ _
@[simp] theorem wr_gw (s : State) (f : Fld) (v i j : Nat) : (wr s f v i j).gw = s.gw := csrPut_gw _ _ _
@[simp] theorem wr_fc (s : State) (f : Fld) (v i j : Nat) : (wr s f v i j).fc = s.fc := csrPut_fc _ _ _
@[simp] theorem wr_fw (s : State) (f : Fld) (v i j : Nat) : (wr s f v i j).fw = s.fw := csrPut_fw _ _ _
@[simp] theorem wr_pw (s : State) (f : Fld) (v i j : Nat) : (wr s f v i j).pw = s.pw := csrPut_pw _ _ _
@[simp] theorem wr_cage (s : State) (f : Fld) (v i j : Nat) : (wr s f v i j).cage = s.cage := csrPut_cage _ _ _
@[simp] theorem wr_pm (s : State) (f : Fld) (v i j : Nat) : (wr s f v i j).pm = s.pm := csrPut_pm _ _ _
@[simp] theorem wr_testReq (s : State) (f : Fld) (v i j : Nat) : (wr s f v i j).testReq = s.testReq := csrPut_testReq _ _ _
@[simp] theorem wr_notices (s : State) (f : Fld) (v i j : Nat) : (wr s f v i j).notices = s.notices := csrPut_notices _ _ _

/-! wrb -/

@[simp] theorem wrb_pending (s : State) (f : Fld) (b : Bool) (i j : Nat) : (wrb s f b i j).pending = s.pending := wr_pending _ _ _ _ _
@[simp] theorem wrb_out (s : State) (f : Fld) (b : Bool) (i j : Nat) : (wrb s f b i j).out = s.out := wr_out _ _ _ _ _
@[simp] theorem wrb_free (s : State) (f : Fld) (b : Bool) (i j : Nat) : (wrb s f b i j).free = s.free := wr_free _ _ _ _ _
@[simp] theorem wrb_timeNs (s : State) (f : Fld) (b : Bool) (i j : Nat) : (wrb s f b i j).timeNs = s.timeNs := wr_timeNs _ _ _ _ _
@[simp] theorem wrb_lanes (s : State) (f : Fld) (b : Bool) (i j : Nat) : (wrb s f b i j).lanes = s.lanes := wr_lanes _ _ _ _ _
@[simp] theorem wrb_spares (s : State) (f : Fld) (b : Bool) (i j : Nat) : (wrb s f b i j).spares = s.spares := wr_spares _ _ _ _ _
@[simp] theorem wrb_links (s : State) (f : Fld) (b : Bool) (i j : Nat) : (wrb s f b i j).links = s.links := wr_links _ _ _ _ _
@[simp] theorem wrb_sw (s : State) (f : Fld) (b : Bool) (i j : Nat) : (wrb s f b i j).sw = s.sw := wr_sw _ _ _ _ _
@[simp] theorem wrb_rt (s : State) (f : Fld) (b : Bool) (i j : Nat) : (wrb s f b i j).rt = s.rt := wr_rt _ _ _ _ _
@[simp] theorem wrb_hi (s : State) (f : Fld) (b : Bool) (i j : Nat) : (wrb s f b i j).hi = s.hi := wr_hi _ _ _ _ _
@[simp] theorem wrb_txn (s : State) (f : Fld) (b : Bool) (i j : Nat) : (wrb s f b i j).txn = s.txn := wr_txn _ _ _ _ _
@[simp] theorem wrb_eng (s : State) (f : Fld) (b : Bool) (i j : Nat) : (wrb s f b i j).eng = s.eng := wr_eng _ _ _ _ _
@[simp] theorem wrb_tp (s : State) (f : Fld) (b : Bool) (i j : Nat) : (wrb s f b i j).tp = s.tp := wr_tp _ _ _ _ _
@[simp] theorem wrb_mt (s : State) (f : Fld) (b : Bool) (i j : Nat) : (wrb s f b i j).mt = s.mt := wr_mt _ _ _ _ _
@[simp] theorem wrb_xl (s : State) (f : Fld) (b : Bool) (i j : Nat) : (wrb s f b i j).xl = s.xl := wr_xl _ _ _ _ _
@[simp] theorem wrb_mr (s : State) (f : Fld) (b : Bool) (i j : Nat) : (wrb s f b i j).mr = s.mr := wr_mr _ _ _ _ _
@[simp] theorem wrb_sc (s : State) (f : Fld) (b : Bool) (i j : Nat) : (wrb s f b i j).sc = s.sc := wr_sc _ _ _ _ _
@[simp] theorem wrb_kn (s : State) (f : Fld) (b : Bool) (i j : Nat) : (wrb s f b i j).kn = s.kn := wr_kn _ _ _ _ _
@[simp] theorem wrb_at' (s : State) (f : Fld) (b : Bool) (i j : Nat) : (wrb s f b i j).at' = s.at' := wr_at' _ _ _ _ _
@[simp] theorem wrb_cl (s : State) (f : Fld) (b : Bool) (i j : Nat) : (wrb s f b i j).cl = s.cl := wr_cl _ _ _ _ _
@[simp] theorem wrb_gw (s : State) (f : Fld) (b : Bool) (i j : Nat) : (wrb s f b i j).gw = s.gw := wr_gw _ _ _ _ _
@[simp] theorem wrb_fc (s : State) (f : Fld) (b : Bool) (i j : Nat) : (wrb s f b i j).fc = s.fc := wr_fc _ _ _ _ _
@[simp] theorem wrb_fw (s : State) (f : Fld) (b : Bool) (i j : Nat) : (wrb s f b i j).fw = s.fw := wr_fw _ _ _ _ _
@[simp] theorem wrb_pw (s : State) (f : Fld) (b : Bool) (i j : Nat) : (wrb s f b i j).pw = s.pw := wr_pw _ _ _ _ _
@[simp] theorem wrb_cage (s : State) (f : Fld) (b : Bool) (i j : Nat) : (wrb s f b i j).cage = s.cage := wr_cage _ _ _ _ _
@[simp] theorem wrb_pm (s : State) (f : Fld) (b : Bool) (i j : Nat) : (wrb s f b i j).pm = s.pm := wr_pm _ _ _ _ _
@[simp] theorem wrb_testReq (s : State) (f : Fld) (b : Bool) (i j : Nat) : (wrb s f b i j).testReq = s.testReq := wr_testReq _ _ _ _ _
@[simp] theorem wrb_notices (s : State) (f : Fld) (b : Bool) (i j : Nat) : (wrb s f b i j).notices = s.notices := wr_notices _ _ _ _ _

/-! inc -/

@[simp] theorem inc_pending (s : State) (f : Fld) (n i j : Nat) : (inc s f n i j).pending = s.pending := wr_pending _ _ _ _ _
@[simp] theorem inc_out (s : State) (f : Fld) (n i j : Nat) : (inc s f n i j).out = s.out := wr_out _ _ _ _ _
@[simp] theorem inc_free (s : State) (f : Fld) (n i j : Nat) : (inc s f n i j).free = s.free := wr_free _ _ _ _ _
@[simp] theorem inc_timeNs (s : State) (f : Fld) (n i j : Nat) : (inc s f n i j).timeNs = s.timeNs := wr_timeNs _ _ _ _ _
@[simp] theorem inc_lanes (s : State) (f : Fld) (n i j : Nat) : (inc s f n i j).lanes = s.lanes := wr_lanes _ _ _ _ _
@[simp] theorem inc_spares (s : State) (f : Fld) (n i j : Nat) : (inc s f n i j).spares = s.spares := wr_spares _ _ _ _ _
@[simp] theorem inc_links (s : State) (f : Fld) (n i j : Nat) : (inc s f n i j).links = s.links := wr_links _ _ _ _ _
@[simp] theorem inc_sw (s : State) (f : Fld) (n i j : Nat) : (inc s f n i j).sw = s.sw := wr_sw _ _ _ _ _
@[simp] theorem inc_rt (s : State) (f : Fld) (n i j : Nat) : (inc s f n i j).rt = s.rt := wr_rt _ _ _ _ _
@[simp] theorem inc_hi (s : State) (f : Fld) (n i j : Nat) : (inc s f n i j).hi = s.hi := wr_hi _ _ _ _ _
@[simp] theorem inc_txn (s : State) (f : Fld) (n i j : Nat) : (inc s f n i j).txn = s.txn := wr_txn _ _ _ _ _
@[simp] theorem inc_eng (s : State) (f : Fld) (n i j : Nat) : (inc s f n i j).eng = s.eng := wr_eng _ _ _ _ _
@[simp] theorem inc_tp (s : State) (f : Fld) (n i j : Nat) : (inc s f n i j).tp = s.tp := wr_tp _ _ _ _ _
@[simp] theorem inc_mt (s : State) (f : Fld) (n i j : Nat) : (inc s f n i j).mt = s.mt := wr_mt _ _ _ _ _
@[simp] theorem inc_xl (s : State) (f : Fld) (n i j : Nat) : (inc s f n i j).xl = s.xl := wr_xl _ _ _ _ _
@[simp] theorem inc_mr (s : State) (f : Fld) (n i j : Nat) : (inc s f n i j).mr = s.mr := wr_mr _ _ _ _ _
@[simp] theorem inc_sc (s : State) (f : Fld) (n i j : Nat) : (inc s f n i j).sc = s.sc := wr_sc _ _ _ _ _
@[simp] theorem inc_kn (s : State) (f : Fld) (n i j : Nat) : (inc s f n i j).kn = s.kn := wr_kn _ _ _ _ _
@[simp] theorem inc_at' (s : State) (f : Fld) (n i j : Nat) : (inc s f n i j).at' = s.at' := wr_at' _ _ _ _ _
@[simp] theorem inc_cl (s : State) (f : Fld) (n i j : Nat) : (inc s f n i j).cl = s.cl := wr_cl _ _ _ _ _
@[simp] theorem inc_gw (s : State) (f : Fld) (n i j : Nat) : (inc s f n i j).gw = s.gw := wr_gw _ _ _ _ _
@[simp] theorem inc_fc (s : State) (f : Fld) (n i j : Nat) : (inc s f n i j).fc = s.fc := wr_fc _ _ _ _ _
@[simp] theorem inc_fw (s : State) (f : Fld) (n i j : Nat) : (inc s f n i j).fw = s.fw := wr_fw _ _ _ _ _
@[simp] theorem inc_pw (s : State) (f : Fld) (n i j : Nat) : (inc s f n i j).pw = s.pw := wr_pw _ _ _ _ _
@[simp] theorem inc_cage (s : State) (f : Fld) (n i j : Nat) : (inc s f n i j).cage = s.cage := wr_cage _ _ _ _ _
@[simp] theorem inc_pm (s : State) (f : Fld) (n i j : Nat) : (inc s f n i j).pm = s.pm := wr_pm _ _ _ _ _
@[simp] theorem inc_testReq (s : State) (f : Fld) (n i j : Nat) : (inc s f n i j).testReq = s.testReq := wr_testReq _ _ _ _ _
@[simp] theorem inc_notices (s : State) (f : Fld) (n i j : Nat) : (inc s f n i j).notices = s.notices := wr_notices _ _ _ _ _

/-! refuseWrite -/

@[simp] theorem refuseWrite_pending (s : State)  : (refuseWrite s).pending = s.pending := inc_pending _ _ _ _ _
@[simp] theorem refuseWrite_out (s : State)  : (refuseWrite s).out = s.out := inc_out _ _ _ _ _
@[simp] theorem refuseWrite_free (s : State)  : (refuseWrite s).free = s.free := inc_free _ _ _ _ _
@[simp] theorem refuseWrite_timeNs (s : State)  : (refuseWrite s).timeNs = s.timeNs := inc_timeNs _ _ _ _ _
@[simp] theorem refuseWrite_lanes (s : State)  : (refuseWrite s).lanes = s.lanes := inc_lanes _ _ _ _ _
@[simp] theorem refuseWrite_spares (s : State)  : (refuseWrite s).spares = s.spares := inc_spares _ _ _ _ _
@[simp] theorem refuseWrite_links (s : State)  : (refuseWrite s).links = s.links := inc_links _ _ _ _ _
@[simp] theorem refuseWrite_sw (s : State)  : (refuseWrite s).sw = s.sw := inc_sw _ _ _ _ _
@[simp] theorem refuseWrite_rt (s : State)  : (refuseWrite s).rt = s.rt := inc_rt _ _ _ _ _
@[simp] theorem refuseWrite_hi (s : State)  : (refuseWrite s).hi = s.hi := inc_hi _ _ _ _ _
@[simp] theorem refuseWrite_txn (s : State)  : (refuseWrite s).txn = s.txn := inc_txn _ _ _ _ _
@[simp] theorem refuseWrite_eng (s : State)  : (refuseWrite s).eng = s.eng := inc_eng _ _ _ _ _
@[simp] theorem refuseWrite_tp (s : State)  : (refuseWrite s).tp = s.tp := inc_tp _ _ _ _ _
@[simp] theorem refuseWrite_mt (s : State)  : (refuseWrite s).mt = s.mt := inc_mt _ _ _ _ _
@[simp] theorem refuseWrite_xl (s : State)  : (refuseWrite s).xl = s.xl := inc_xl _ _ _ _ _
@[simp] theorem refuseWrite_mr (s : State)  : (refuseWrite s).mr = s.mr := inc_mr _ _ _ _ _
@[simp] theorem refuseWrite_sc (s : State)  : (refuseWrite s).sc = s.sc := inc_sc _ _ _ _ _
@[simp] theorem refuseWrite_kn (s : State)  : (refuseWrite s).kn = s.kn := inc_kn _ _ _ _ _
@[simp] theorem refuseWrite_at' (s : State)  : (refuseWrite s).at' = s.at' := inc_at' _ _ _ _ _
@[simp] theorem refuseWrite_cl (s : State)  : (refuseWrite s).cl = s.cl := inc_cl _ _ _ _ _
@[simp] theorem refuseWrite_gw (s : State)  : (refuseWrite s).gw = s.gw := inc_gw _ _ _ _ _
@[simp] theorem refuseWrite_fc (s : State)  : (refuseWrite s).fc = s.fc := inc_fc _ _ _ _ _
@[simp] theorem refuseWrite_fw (s : State)  : (refuseWrite s).fw = s.fw := inc_fw _ _ _ _ _
@[simp] theorem refuseWrite_pw (s : State)  : (refuseWrite s).pw = s.pw := inc_pw _ _ _ _ _
@[simp] theorem refuseWrite_cage (s : State)  : (refuseWrite s).cage = s.cage := inc_cage _ _ _ _ _
@[simp] theorem refuseWrite_pm (s : State)  : (refuseWrite s).pm = s.pm := inc_pm _ _ _ _ _
@[simp] theorem refuseWrite_testReq (s : State)  : (refuseWrite s).testReq = s.testReq := inc_testReq _ _ _ _ _
@[simp] theorem refuseWrite_notices (s : State)  : (refuseWrite s).notices = s.notices := inc_notices _ _ _ _ _

/-! tell -/

@[simp] theorem tell_pending (s : State) (n : Notice) : (tell s n).pending = s.pending := by cases s; rfl
@[simp] theorem tell_csr (s : State) (n : Notice) : (tell s n).csr = s.csr := by cases s; rfl
@[simp] theorem tell_out (s : State) (n : Notice) : (tell s n).out = s.out := by cases s; rfl
@[simp] theorem tell_free (s : State) (n : Notice) : (tell s n).free = s.free := by cases s; rfl
@[simp] theorem tell_timeNs (s : State) (n : Notice) : (tell s n).timeNs = s.timeNs := by cases s; rfl
@[simp] theorem tell_lanes (s : State) (n : Notice) : (tell s n).lanes = s.lanes := by cases s; rfl
@[simp] theorem tell_spares (s : State) (n : Notice) : (tell s n).spares = s.spares := by cases s; rfl
@[simp] theorem tell_links (s : State) (n : Notice) : (tell s n).links = s.links := by cases s; rfl
@[simp] theorem tell_sw (s : State) (n : Notice) : (tell s n).sw = s.sw := by cases s; rfl
@[simp] theorem tell_rt (s : State) (n : Notice) : (tell s n).rt = s.rt := by cases s; rfl
@[simp] theorem tell_hi (s : State) (n : Notice) : (tell s n).hi = s.hi := by cases s; rfl
@[simp] theorem tell_txn (s : State) (n : Notice) : (tell s n).txn = s.txn := by cases s; rfl
@[simp] theorem tell_eng (s : State) (n : Notice) : (tell s n).eng = s.eng := by cases s; rfl
@[simp] theorem tell_tp (s : State) (n : Notice) : (tell s n).tp = s.tp := by cases s; rfl
@[simp] theorem tell_mt (s : State) (n : Notice) : (tell s n).mt = s.mt := by cases s; rfl
@[simp] theorem tell_xl (s : State) (n : Notice) : (tell s n).xl = s.xl := by cases s; rfl
@[simp] theorem tell_mr (s : State) (n : Notice) : (tell s n).mr = s.mr := by cases s; rfl
@[simp] theorem tell_sc (s : State) (n : Notice) : (tell s n).sc = s.sc := by cases s; rfl
@[simp] theorem tell_kn (s : State) (n : Notice) : (tell s n).kn = s.kn := by cases s; rfl
@[simp] theorem tell_at' (s : State) (n : Notice) : (tell s n).at' = s.at' := by cases s; rfl
@[simp] theorem tell_cl (s : State) (n : Notice) : (tell s n).cl = s.cl := by cases s; rfl
@[simp] theorem tell_gw (s : State) (n : Notice) : (tell s n).gw = s.gw := by cases s; rfl
@[simp] theorem tell_fc (s : State) (n : Notice) : (tell s n).fc = s.fc := by cases s; rfl
@[simp] theorem tell_fw (s : State) (n : Notice) : (tell s n).fw = s.fw := by cases s; rfl
@[simp] theorem tell_pw (s : State) (n : Notice) : (tell s n).pw = s.pw := by cases s; rfl
@[simp] theorem tell_cage (s : State) (n : Notice) : (tell s n).cage = s.cage := by cases s; rfl
@[simp] theorem tell_pm (s : State) (n : Notice) : (tell s n).pm = s.pm := by cases s; rfl
@[simp] theorem tell_testReq (s : State) (n : Notice) : (tell s n).testReq = s.testReq := by cases s; rfl
@[simp] theorem tell_notices (s : State) (n : Notice) : (tell s n).notices = s.notices ++ [n] := rfl
@[simp] theorem csrRaw_tell (s : State) (n : Notice) (key : Nat) : csrRaw (tell s n) key = csrRaw s key := by simp only [csrRaw, tell_csr]
@[simp] theorem rd_tell (s : State) (n : Notice) (fld : Fld) (a b : Nat) : rd (tell s n) fld a b = rd s fld a b := by simp only [rd, csrRaw_tell]
@[simp] theorem rdb_tell (s : State) (n : Notice) (fld : Fld) (a b : Nat) : rdb (tell s n) fld a b = rdb s fld a b := by simp only [rdb, rd_tell]

/-! setAt -/

@[simp] theorem setAt_pending (s : State) (g : AtSt → AtSt) : (setAt s g).pending = s.pending := by cases s; rfl
@[simp] theorem setAt_csr (s : State) (g : AtSt → AtSt) : (setAt s g).csr = s.csr := by cases s; rfl
@[simp] theorem setAt_out (s : State) (g : AtSt → AtSt) : (setAt s g).out = s.out := by cases s; rfl
@[simp] theorem setAt_free (s : State) (g : AtSt → AtSt) : (setAt s g).free = s.free := by cases s; rfl
@[simp] theorem setAt_timeNs (s : State) (g : AtSt → AtSt) : (setAt s g).timeNs = s.timeNs := by cases s; rfl
@[simp] theorem setAt_lanes (s : State) (g : AtSt → AtSt) : (setAt s g).lanes = s.lanes := by cases s; rfl
@[simp] theorem setAt_spares (s : State) (g : AtSt → AtSt) : (setAt s g).spares = s.spares := by cases s; rfl
@[simp] theorem setAt_links (s : State) (g : AtSt → AtSt) : (setAt s g).links = s.links := by cases s; rfl
@[simp] theorem setAt_sw (s : State) (g : AtSt → AtSt) : (setAt s g).sw = s.sw := by cases s; rfl
@[simp] theorem setAt_rt (s : State) (g : AtSt → AtSt) : (setAt s g).rt = s.rt := by cases s; rfl
@[simp] theorem setAt_hi (s : State) (g : AtSt → AtSt) : (setAt s g).hi = s.hi := by cases s; rfl
@[simp] theorem setAt_txn (s : State) (g : AtSt → AtSt) : (setAt s g).txn = s.txn := by cases s; rfl
@[simp] theorem setAt_eng (s : State) (g : AtSt → AtSt) : (setAt s g).eng = s.eng := by cases s; rfl
@[simp] theorem setAt_tp (s : State) (g : AtSt → AtSt) : (setAt s g).tp = s.tp := by cases s; rfl
@[simp] theorem setAt_mt (s : State) (g : AtSt → AtSt) : (setAt s g).mt = s.mt := by cases s; rfl
@[simp] theorem setAt_xl (s : State) (g : AtSt → AtSt) : (setAt s g).xl = s.xl := by cases s; rfl
@[simp] theorem setAt_mr (s : State) (g : AtSt → AtSt) : (setAt s g).mr = s.mr := by cases s; rfl
@[simp] theorem setAt_sc (s : State) (g : AtSt → AtSt) : (setAt s g).sc = s.sc := by cases s; rfl
@[simp] theorem setAt_kn (s : State) (g : AtSt → AtSt) : (setAt s g).kn = s.kn := by cases s; rfl
@[simp] theorem setAt_at' (s : State) (g : AtSt → AtSt) : (setAt s g).at' = g s.at' := rfl
@[simp] theorem setAt_cl (s : State) (g : AtSt → AtSt) : (setAt s g).cl = s.cl := by cases s; rfl
@[simp] theorem setAt_gw (s : State) (g : AtSt → AtSt) : (setAt s g).gw = s.gw := by cases s; rfl
@[simp] theorem setAt_fc (s : State) (g : AtSt → AtSt) : (setAt s g).fc = s.fc := by cases s; rfl
@[simp] theorem setAt_fw (s : State) (g : AtSt → AtSt) : (setAt s g).fw = s.fw := by cases s; rfl
@[simp] theorem setAt_pw (s : State) (g : AtSt → AtSt) : (setAt s g).pw = s.pw := by cases s; rfl
@[simp] theorem setAt_cage (s : State) (g : AtSt → AtSt) : (setAt s g).cage = s.cage := by cases s; rfl
@[simp] theorem setAt_pm (s : State) (g : AtSt → AtSt) : (setAt s g).pm = s.pm := by cases s; rfl
@[simp] theorem setAt_testReq (s : State) (g : AtSt → AtSt) : (setAt s g).testReq = s.testReq := by cases s; rfl
@[simp] theorem setAt_notices (s : State) (g : AtSt → AtSt) : (setAt s g).notices = s.notices := by cases s; rfl
@[simp] theorem csrRaw_setAt (s : State) (g : AtSt → AtSt) (key : Nat) : csrRaw (setAt s g) key = csrRaw s key := by simp only [csrRaw, setAt_csr]
@[simp] theorem rd_setAt (s : State) (g : AtSt → AtSt) (fld : Fld) (a b : Nat) : rd (setAt s g) fld a b = rd s fld a b := by simp only [rd, csrRaw_setAt]
@[simp] theorem rdb_setAt (s : State) (g : AtSt → AtSt) (fld : Fld) (a b : Nat) : rdb (setAt s g) fld a b = rdb s fld a b := by simp only [rdb, rd_setAt]

/-! setFw -/

@[simp] theorem setFw_pending (s : State) (g : FwSt → FwSt) : (setFw s g).pending = s.pending := by cases s; rfl
@[simp] theorem setFw_csr (s : State) (g : FwSt → FwSt) : (setFw s g).csr = s.csr := by cases s; rfl
@[simp] theorem setFw_out (s : State) (g : FwSt → FwSt) : (setFw s g).out = s.out := by cases s; rfl
@[simp] theorem setFw_free (s : State) (g : FwSt → FwSt) : (setFw s g).free = s.free := by cases s; rfl
@[simp] theorem setFw_timeNs (s : State) (g : FwSt → FwSt) : (setFw s g).timeNs = s.timeNs := by cases s; rfl
@[simp] theorem setFw_lanes (s : State) (g : FwSt → FwSt) : (setFw s g).lanes = s.lanes := by cases s; rfl
@[simp] theorem setFw_spares (s : State) (g : FwSt → FwSt) : (setFw s g).spares = s.spares := by cases s; rfl
@[simp] theorem setFw_links (s : State) (g : FwSt → FwSt) : (setFw s g).links = s.links := by cases s; rfl
@[simp] theorem setFw_sw (s : State) (g : FwSt → FwSt) : (setFw s g).sw = s.sw := by cases s; rfl
@[simp] theorem setFw_rt (s : State) (g : FwSt → FwSt) : (setFw s g).rt = s.rt := by cases s; rfl
@[simp] theorem setFw_hi (s : State) (g : FwSt → FwSt) : (setFw s g).hi = s.hi := by cases s; rfl
@[simp] theorem setFw_txn (s : State) (g : FwSt → FwSt) : (setFw s g).txn = s.txn := by cases s; rfl
@[simp] theorem setFw_eng (s : State) (g : FwSt → FwSt) : (setFw s g).eng = s.eng := by cases s; rfl
@[simp] theorem setFw_tp (s : State) (g : FwSt → FwSt) : (setFw s g).tp = s.tp := by cases s; rfl
@[simp] theorem setFw_mt (s : State) (g : FwSt → FwSt) : (setFw s g).mt = s.mt := by cases s; rfl
@[simp] theorem setFw_xl (s : State) (g : FwSt → FwSt) : (setFw s g).xl = s.xl := by cases s; rfl
@[simp] theorem setFw_mr (s : State) (g : FwSt → FwSt) : (setFw s g).mr = s.mr := by cases s; rfl
@[simp] theorem setFw_sc (s : State) (g : FwSt → FwSt) : (setFw s g).sc = s.sc := by cases s; rfl
@[simp] theorem setFw_kn (s : State) (g : FwSt → FwSt) : (setFw s g).kn = s.kn := by cases s; rfl
@[simp] theorem setFw_at' (s : State) (g : FwSt → FwSt) : (setFw s g).at' = s.at' := by cases s; rfl
@[simp] theorem setFw_cl (s : State) (g : FwSt → FwSt) : (setFw s g).cl = s.cl := by cases s; rfl
@[simp] theorem setFw_gw (s : State) (g : FwSt → FwSt) : (setFw s g).gw = s.gw := by cases s; rfl
@[simp] theorem setFw_fc (s : State) (g : FwSt → FwSt) : (setFw s g).fc = s.fc := by cases s; rfl
@[simp] theorem setFw_fw (s : State) (g : FwSt → FwSt) : (setFw s g).fw = g s.fw := rfl
@[simp] theorem setFw_pw (s : State) (g : FwSt → FwSt) : (setFw s g).pw = s.pw := by cases s; rfl
@[simp] theorem setFw_cage (s : State) (g : FwSt → FwSt) : (setFw s g).cage = s.cage := by cases s; rfl
@[simp] theorem setFw_pm (s : State) (g : FwSt → FwSt) : (setFw s g).pm = s.pm := by cases s; rfl
@[simp] theorem setFw_testReq (s : State) (g : FwSt → FwSt) : (setFw s g).testReq = s.testReq := by cases s; rfl
@[simp] theorem setFw_notices (s : State) (g : FwSt → FwSt) : (setFw s g).notices = s.notices := by cases s; rfl
@[simp] theorem csrRaw_setFw (s : State) (g : FwSt → FwSt) (key : Nat) : csrRaw (setFw s g) key = csrRaw s key := by simp only [csrRaw, setFw_csr]
@[simp] theorem rd_setFw (s : State) (g : FwSt → FwSt) (fld : Fld) (a b : Nat) : rd (setFw s g) fld a b = rd s fld a b := by simp only [rd, csrRaw_setFw]
@[simp] theorem rdb_setFw (s : State) (g : FwSt → FwSt) (fld : Fld) (a b : Nat) : rdb (setFw s g) fld a b = rdb s fld a b := by simp only [rdb, rd_setFw]

/-! setFc -/

@[simp] theorem setFc_pending (s : State) (g : FcSt → FcSt) : (setFc s g).pending = s.pending := by cases s; rfl
@[simp] theorem setFc_csr (s : State) (g : FcSt → FcSt) : (setFc s g).csr = s.csr := by cases s; rfl
@[simp] theorem setFc_out (s : State) (g : FcSt → FcSt) : (setFc s g).out = s.out := by cases s; rfl
@[simp] theorem setFc_free (s : State) (g : FcSt → FcSt) : (setFc s g).free = s.free := by cases s; rfl
@[simp] theorem setFc_timeNs (s : State) (g : FcSt → FcSt) : (setFc s g).timeNs = s.timeNs := by cases s; rfl
@[simp] theorem setFc_lanes (s : State) (g : FcSt → FcSt) : (setFc s g).lanes = s.lanes := by cases s; rfl
@[simp] theorem setFc_spares (s : State) (g : FcSt → FcSt) : (setFc s g).spares = s.spares := by cases s; rfl
@[simp] theorem setFc_links (s : State) (g : FcSt → FcSt) : (setFc s g).links = s.links := by cases s; rfl
@[simp] theorem setFc_sw (s : State) (g : FcSt → FcSt) : (setFc s g).sw = s.sw := by cases s; rfl
@[simp] theorem setFc_rt (s : State) (g : FcSt → FcSt) : (setFc s g).rt = s.rt := by cases s; rfl
@[simp] theorem setFc_hi (s : State) (g : FcSt → FcSt) : (setFc s g).hi = s.hi := by cases s; rfl
@[simp] theorem setFc_txn (s : State) (g : FcSt → FcSt) : (setFc s g).txn = s.txn := by cases s; rfl
@[simp] theorem setFc_eng (s : State) (g : FcSt → FcSt) : (setFc s g).eng = s.eng := by cases s; rfl
@[simp] theorem setFc_tp (s : State) (g : FcSt → FcSt) : (setFc s g).tp = s.tp := by cases s; rfl
@[simp] theorem setFc_mt (s : State) (g : FcSt → FcSt) : (setFc s g).mt = s.mt := by cases s; rfl
@[simp] theorem setFc_xl (s : State) (g : FcSt → FcSt) : (setFc s g).xl = s.xl := by cases s; rfl
@[simp] theorem setFc_mr (s : State) (g : FcSt → FcSt) : (setFc s g).mr = s.mr := by cases s; rfl
@[simp] theorem setFc_sc (s : State) (g : FcSt → FcSt) : (setFc s g).sc = s.sc := by cases s; rfl
@[simp] theorem setFc_kn (s : State) (g : FcSt → FcSt) : (setFc s g).kn = s.kn := by cases s; rfl
@[simp] theorem setFc_at' (s : State) (g : FcSt → FcSt) : (setFc s g).at' = s.at' := by cases s; rfl
@[simp] theorem setFc_cl (s : State) (g : FcSt → FcSt) : (setFc s g).cl = s.cl := by cases s; rfl
@[simp] theorem setFc_gw (s : State) (g : FcSt → FcSt) : (setFc s g).gw = s.gw := by cases s; rfl
@[simp] theorem setFc_fc (s : State) (g : FcSt → FcSt) : (setFc s g).fc = g s.fc := rfl
@[simp] theorem setFc_fw (s : State) (g : FcSt → FcSt) : (setFc s g).fw = s.fw := by cases s; rfl
@[simp] theorem setFc_pw (s : State) (g : FcSt → FcSt) : (setFc s g).pw = s.pw := by cases s; rfl
@[simp] theorem setFc_cage (s : State) (g : FcSt → FcSt) : (setFc s g).cage = s.cage := by cases s; rfl
@[simp] theorem setFc_pm (s : State) (g : FcSt → FcSt) : (setFc s g).pm = s.pm := by cases s; rfl
@[simp] theorem setFc_testReq (s : State) (g : FcSt → FcSt) : (setFc s g).testReq = s.testReq := by cases s; rfl
@[simp] theorem setFc_notices (s : State) (g : FcSt → FcSt) : (setFc s g).notices = s.notices := by cases s; rfl
@[simp] theorem csrRaw_setFc (s : State) (g : FcSt → FcSt) (key : Nat) : csrRaw (setFc s g) key = csrRaw s key := by simp only [csrRaw, setFc_csr]
@[simp] theorem rd_setFc (s : State) (g : FcSt → FcSt) (fld : Fld) (a b : Nat) : rd (setFc s g) fld a b = rd s fld a b := by simp only [rd, csrRaw_setFc]
@[simp] theorem rdb_setFc (s : State) (g : FcSt → FcSt) (fld : Fld) (a b : Nat) : rdb (setFc s g) fld a b = rdb s fld a b := by simp only [rdb, rd_setFc]

/-! setGw -/

@[simp] theorem setGw_pending (s : State) (g : GwSt → GwSt) : (setGw s g).pending = s.pending := by cases s; rfl
@[simp] theorem setGw_csr (s : State) (g : GwSt → GwSt) : (setGw s g).csr = s.csr := by cases s; rfl
@[simp] theorem setGw_out (s : State) (g : GwSt → GwSt) : (setGw s g).out = s.out := by cases s; rfl
@[simp] theorem setGw_free (s : State) (g : GwSt → GwSt) : (setGw s g).free = s.free := by cases s; rfl
@[simp] theorem setGw_timeNs (s : State) (g : GwSt → GwSt) : (setGw s g).timeNs = s.timeNs := by cases s; rfl
@[simp] theorem setGw_lanes (s : State) (g : GwSt → GwSt) : (setGw s g).lanes = s.lanes := by cases s; rfl
@[simp] theorem setGw_spares (s : State) (g : GwSt → GwSt) : (setGw s g).spares = s.spares := by cases s; rfl
@[simp] theorem setGw_links (s : State) (g : GwSt → GwSt) : (setGw s g).links = s.links := by cases s; rfl
@[simp] theorem setGw_sw (s : State) (g : GwSt → GwSt) : (setGw s g).sw = s.sw := by cases s; rfl
@[simp] theorem setGw_rt (s : State) (g : GwSt → GwSt) : (setGw s g).rt = s.rt := by cases s; rfl
@[simp] theorem setGw_hi (s : State) (g : GwSt → GwSt) : (setGw s g).hi = s.hi := by cases s; rfl
@[simp] theorem setGw_txn (s : State) (g : GwSt → GwSt) : (setGw s g).txn = s.txn := by cases s; rfl
@[simp] theorem setGw_eng (s : State) (g : GwSt → GwSt) : (setGw s g).eng = s.eng := by cases s; rfl
@[simp] theorem setGw_tp (s : State) (g : GwSt → GwSt) : (setGw s g).tp = s.tp := by cases s; rfl
@[simp] theorem setGw_mt (s : State) (g : GwSt → GwSt) : (setGw s g).mt = s.mt := by cases s; rfl
@[simp] theorem setGw_xl (s : State) (g : GwSt → GwSt) : (setGw s g).xl = s.xl := by cases s; rfl
@[simp] theorem setGw_mr (s : State) (g : GwSt → GwSt) : (setGw s g).mr = s.mr := by cases s; rfl
@[simp] theorem setGw_sc (s : State) (g : GwSt → GwSt) : (setGw s g).sc = s.sc := by cases s; rfl
@[simp] theorem setGw_kn (s : State) (g : GwSt → GwSt) : (setGw s g).kn = s.kn := by cases s; rfl
@[simp] theorem setGw_at' (s : State) (g : GwSt → GwSt) : (setGw s g).at' = s.at' := by cases s; rfl
@[simp] theorem setGw_cl (s : State) (g : GwSt → GwSt) : (setGw s g).cl = s.cl := by cases s; rfl
@[simp] theorem setGw_gw (s : State) (g : GwSt → GwSt) : (setGw s g).gw = g s.gw := rfl
@[simp] theorem setGw_fc (s : State) (g : GwSt → GwSt) : (setGw s g).fc = s.fc := by cases s; rfl
@[simp] theorem setGw_fw (s : State) (g : GwSt → GwSt) : (setGw s g).fw = s.fw := by cases s; rfl
@[simp] theorem setGw_pw (s : State) (g : GwSt → GwSt) : (setGw s g).pw = s.pw := by cases s; rfl
@[simp] theorem setGw_cage (s : State) (g : GwSt → GwSt) : (setGw s g).cage = s.cage := by cases s; rfl
@[simp] theorem setGw_pm (s : State) (g : GwSt → GwSt) : (setGw s g).pm = s.pm := by cases s; rfl
@[simp] theorem setGw_testReq (s : State) (g : GwSt → GwSt) : (setGw s g).testReq = s.testReq := by cases s; rfl
@[simp] theorem setGw_notices (s : State) (g : GwSt → GwSt) : (setGw s g).notices = s.notices := by cases s; rfl
@[simp] theorem csrRaw_setGw (s : State) (g : GwSt → GwSt) (key : Nat) : csrRaw (setGw s g) key = csrRaw s key := by simp only [csrRaw, setGw_csr]
@[simp] theorem rd_setGw (s : State) (g : GwSt → GwSt) (fld : Fld) (a b : Nat) : rd (setGw s g) fld a b = rd s fld a b := by simp only [rd, csrRaw_setGw]
@[simp] theorem rdb_setGw (s : State) (g : GwSt → GwSt) (fld : Fld) (a b : Nat) : rdb (setGw s g) fld a b = rdb s fld a b := by simp only [rdb, rd_setGw]

/-! setTxn -/

@[simp] theorem setTxn_pending (s : State) (g : TxnSt → TxnSt) : (setTxn s g).pending = s.pending := by cases s; rfl
@[simp] theorem setTxn_csr (s : State) (g : TxnSt → TxnSt) : (setTxn s g).csr = s.csr := by cases s; rfl
@[simp] theorem setTxn_out (s : State) (g : TxnSt → TxnSt) : (setTxn s g).out = s.out := by cases s; rfl
@[simp] theorem setTxn_free (s : State) (g : TxnSt → TxnSt) : (setTxn s g).free = s.free := by cases s; rfl
@[simp] theorem setTxn_timeNs (s : State) (g : TxnSt → TxnSt) : (setTxn s g).timeNs = s.timeNs := by cases s; rfl
@[simp] theorem setTxn_lanes (s : State) (g : TxnSt → TxnSt) : (setTxn s g).lanes = s.lanes := by cases s; rfl
@[simp] theorem setTxn_spares (s : State) (g : TxnSt → TxnSt) : (setTxn s g).spares = s.spares := by cases s; rfl
@[simp] theorem setTxn_links (s : State) (g : TxnSt → TxnSt) : (setTxn s g).links = s.links := by cases s; rfl
@[simp] theorem setTxn_sw (s : State) (g : TxnSt → TxnSt) : (setTxn s g).sw = s.sw := by cases s; rfl
@[simp] theorem setTxn_rt (s : State) (g : TxnSt → TxnSt) : (setTxn s g).rt = s.rt := by cases s; rfl
@[simp] theorem setTxn_hi (s : State) (g : TxnSt → TxnSt) : (setTxn s g).hi = s.hi := by cases s; rfl
@[simp] theorem setTxn_txn (s : State) (g : TxnSt → TxnSt) : (setTxn s g).txn = g s.txn := rfl
@[simp] theorem setTxn_eng (s : State) (g : TxnSt → TxnSt) : (setTxn s g).eng = s.eng := by cases s; rfl
@[simp] theorem setTxn_tp (s : State) (g : TxnSt → TxnSt) : (setTxn s g).tp = s.tp := by cases s; rfl
@[simp] theorem setTxn_mt (s : State) (g : TxnSt → TxnSt) : (setTxn s g).mt = s.mt := by cases s; rfl
@[simp] theorem setTxn_xl (s : State) (g : TxnSt → TxnSt) : (setTxn s g).xl = s.xl := by cases s; rfl
@[simp] theorem setTxn_mr (s : State) (g : TxnSt → TxnSt) : (setTxn s g).mr = s.mr := by cases s; rfl
@[simp] theorem setTxn_sc (s : State) (g : TxnSt → TxnSt) : (setTxn s g).sc = s.sc := by cases s; rfl
@[simp] theorem setTxn_kn (s : State) (g : TxnSt → TxnSt) : (setTxn s g).kn = s.kn := by cases s; rfl
@[simp] theorem setTxn_at' (s : State) (g : TxnSt → TxnSt) : (setTxn s g).at' = s.at' := by cases s; rfl
@[simp] theorem setTxn_cl (s : State) (g : TxnSt → TxnSt) : (setTxn s g).cl = s.cl := by cases s; rfl
@[simp] theorem setTxn_gw (s : State) (g : TxnSt → TxnSt) : (setTxn s g).gw = s.gw := by cases s; rfl
@[simp] theorem setTxn_fc (s : State) (g : TxnSt → TxnSt) : (setTxn s g).fc = s.fc := by cases s; rfl
@[simp] theorem setTxn_fw (s : State) (g : TxnSt → TxnSt) : (setTxn s g).fw = s.fw := by cases s; rfl
@[simp] theorem setTxn_pw (s : State) (g : TxnSt → TxnSt) : (setTxn s g).pw = s.pw := by cases s; rfl
@[simp] theorem setTxn_cage (s : State) (g : TxnSt → TxnSt) : (setTxn s g).cage = s.cage := by cases s; rfl
@[simp] theorem setTxn_pm (s : State) (g : TxnSt → TxnSt) : (setTxn s g).pm = s.pm := by cases s; rfl
@[simp] theorem setTxn_testReq (s : State) (g : TxnSt → TxnSt) : (setTxn s g).testReq = s.testReq := by cases s; rfl
@[simp] theorem setTxn_notices (s : State) (g : TxnSt → TxnSt) : (setTxn s g).notices = s.notices := by cases s; rfl
@[simp] theorem csrRaw_setTxn (s : State) (g : TxnSt → TxnSt) (key : Nat) : csrRaw (setTxn s g) key = csrRaw s key := by simp only [csrRaw, setTxn_csr]
@[simp] theorem rd_setTxn (s : State) (g : TxnSt → TxnSt) (fld : Fld) (a b : Nat) : rd (setTxn s g) fld a b = rd s fld a b := by simp only [rd, csrRaw_setTxn]
@[simp] theorem rdb_setTxn (s : State) (g : TxnSt → TxnSt) (fld : Fld) (a b : Nat) : rdb (setTxn s g) fld a b = rdb s fld a b := by simp only [rdb, rd_setTxn]

/-! setMr -/

@[simp] theorem setMr_pending (s : State) (g : MrSt → MrSt) : (setMr s g).pending = s.pending := by cases s; rfl
@[simp] theorem setMr_csr (s : State) (g : MrSt → MrSt) : (setMr s g).csr = s.csr := by cases s; rfl
@[simp] theorem setMr_out (s : State) (g : MrSt → MrSt) : (setMr s g).out = s.out := by cases s; rfl
@[simp] theorem setMr_free (s : State) (g : MrSt → MrSt) : (setMr s g).free = s.free := by cases s; rfl
@[simp] theorem setMr_timeNs (s : State) (g : MrSt → MrSt) : (setMr s g).timeNs = s.timeNs := by cases s; rfl
@[simp] theorem setMr_lanes (s : State) (g : MrSt → MrSt) : (setMr s g).lanes = s.lanes := by cases s; rfl
@[simp] theorem setMr_spares (s : State) (g : MrSt → MrSt) : (setMr s g).spares = s.spares := by cases s; rfl
@[simp] theorem setMr_links (s : State) (g : MrSt → MrSt) : (setMr s g).links = s.links := by cases s; rfl
@[simp] theorem setMr_sw (s : State) (g : MrSt → MrSt) : (setMr s g).sw = s.sw := by cases s; rfl
@[simp] theorem setMr_rt (s : State) (g : MrSt → MrSt) : (setMr s g).rt = s.rt := by cases s; rfl
@[simp] theorem setMr_hi (s : State) (g : MrSt → MrSt) : (setMr s g).hi = s.hi := by cases s; rfl
@[simp] theorem setMr_txn (s : State) (g : MrSt → MrSt) : (setMr s g).txn = s.txn := by cases s; rfl
@[simp] theorem setMr_eng (s : State) (g : MrSt → MrSt) : (setMr s g).eng = s.eng := by cases s; rfl
@[simp] theorem setMr_tp (s : State) (g : MrSt → MrSt) : (setMr s g).tp = s.tp := by cases s; rfl
@[simp] theorem setMr_mt (s : State) (g : MrSt → MrSt) : (setMr s g).mt = s.mt := by cases s; rfl
@[simp] theorem setMr_xl (s : State) (g : MrSt → MrSt) : (setMr s g).xl = s.xl := by cases s; rfl
@[simp] theorem setMr_mr (s : State) (g : MrSt → MrSt) : (setMr s g).mr = g s.mr := rfl
@[simp] theorem setMr_sc (s : State) (g : MrSt → MrSt) : (setMr s g).sc = s.sc := by cases s; rfl
@[simp] theorem setMr_kn (s : State) (g : MrSt → MrSt) : (setMr s g).kn = s.kn := by cases s; rfl
@[simp] theorem setMr_at' (s : State) (g : MrSt → MrSt) : (setMr s g).at' = s.at' := by cases s; rfl
@[simp] theorem setMr_cl (s : State) (g : MrSt → MrSt) : (setMr s g).cl = s.cl := by cases s; rfl
@[simp] theorem setMr_gw (s : State) (g : MrSt → MrSt) : (setMr s g).gw = s.gw := by cases s; rfl
@[simp] theorem setMr_fc (s : State) (g : MrSt → MrSt) : (setMr s g).fc = s.fc := by cases s; rfl
@[simp] theorem setMr_fw (s : State) (g : MrSt → MrSt) : (setMr s g).fw = s.fw := by cases s; rfl
@[simp] theorem setMr_pw (s : State) (g : MrSt → MrSt) : (setMr s g).pw = s.pw := by cases s; rfl
@[simp] theorem setMr_cage (s : State) (g : MrSt → MrSt) : (setMr s g).cage = s.cage := by cases s; rfl
@[simp] theorem setMr_pm (s : State) (g : MrSt → MrSt) : (setMr s g).pm = s.pm := by cases s; rfl
@[simp] theorem setMr_testReq (s : State) (g : MrSt → MrSt) : (setMr s g).testReq = s.testReq := by cases s; rfl
@[simp] theorem setMr_notices (s : State) (g : MrSt → MrSt) : (setMr s g).notices = s.notices := by cases s; rfl
@[simp] theorem csrRaw_setMr (s : State) (g : MrSt → MrSt) (key : Nat) : csrRaw (setMr s g) key = csrRaw s key := by simp only [csrRaw, setMr_csr]
@[simp] theorem rd_setMr (s : State) (g : MrSt → MrSt) (fld : Fld) (a b : Nat) : rd (setMr s g) fld a b = rd s fld a b := by simp only [rd, csrRaw_setMr]
@[simp] theorem rdb_setMr (s : State) (g : MrSt → MrSt) (fld : Fld) (a b : Nat) : rdb (setMr s g) fld a b = rdb s fld a b := by simp only [rdb, rd_setMr]

/-! setMt -/

@[simp] theorem setMt_pending (s : State) (g : MtSt → MtSt) : (setMt s g).pending = s.pending := by cases s; rfl
@[simp] theorem setMt_csr (s : State) (g : MtSt → MtSt) : (setMt s g).csr = s.csr := by cases s; rfl
@[simp] theorem setMt_out (s : State) (g : MtSt → MtSt) : (setMt s g).out = s.out := by cases s; rfl
@[simp] theorem setMt_free (s : State) (g : MtSt → MtSt) : (setMt s g).free = s.free := by cases s; rfl
@[simp] theorem setMt_timeNs (s : State) (g : MtSt → MtSt) : (setMt s g).timeNs = s.timeNs := by cases s; rfl
@[simp] theorem setMt_lanes (s : State) (g : MtSt → MtSt) : (setMt s g).lanes = s.lanes := by cases s; rfl
@[simp] theorem setMt_spares (s : State) (g : MtSt → MtSt) : (setMt s g).spares = s.spares := by cases s; rfl
@[simp] theorem setMt_links (s : State) (g : MtSt → MtSt) : (setMt s g).links = s.links := by cases s; rfl
@[simp] theorem setMt_sw (s : State) (g : MtSt → MtSt) : (setMt s g).sw = s.sw := by cases s; rfl
@[simp] theorem setMt_rt (s : State) (g : MtSt → MtSt) : (setMt s g).rt = s.rt := by cases s; rfl
@[simp] theorem setMt_hi (s : State) (g : MtSt → MtSt) : (setMt s g).hi = s.hi := by cases s; rfl
@[simp] theorem setMt_txn (s : State) (g : MtSt → MtSt) : (setMt s g).txn = s.txn := by cases s; rfl
@[simp] theorem setMt_eng (s : State) (g : MtSt → MtSt) : (setMt s g).eng = s.eng := by cases s; rfl
@[simp] theorem setMt_tp (s : State) (g : MtSt → MtSt) : (setMt s g).tp = s.tp := by cases s; rfl
@[simp] theorem setMt_mt (s : State) (g : MtSt → MtSt) : (setMt s g).mt = g s.mt := rfl
@[simp] theorem setMt_xl (s : State) (g : MtSt → MtSt) : (setMt s g).xl = s.xl := by cases s; rfl
@[simp] theorem setMt_mr (s : State) (g : MtSt → MtSt) : (setMt s g).mr = s.mr := by cases s; rfl
@[simp] theorem setMt_sc (s : State) (g : MtSt → MtSt) : (setMt s g).sc = s.sc := by cases s; rfl
@[simp] theorem setMt_kn (s : State) (g : MtSt → MtSt) : (setMt s g).kn = s.kn := by cases s; rfl
@[simp] theorem setMt_at' (s : State) (g : MtSt → MtSt) : (setMt s g).at' = s.at' := by cases s; rfl
@[simp] theorem setMt_cl (s : State) (g : MtSt → MtSt) : (setMt s g).cl = s.cl := by cases s; rfl
@[simp] theorem setMt_gw (s : State) (g : MtSt → MtSt) : (setMt s g).gw = s.gw := by cases s; rfl
@[simp] theorem setMt_fc (s : State) (g : MtSt → MtSt) : (setMt s g).fc = s.fc := by cases s; rfl
@[simp] theorem setMt_fw (s : State) (g : MtSt → MtSt) : (setMt s g).fw = s.fw := by cases s; rfl
@[simp] theorem setMt_pw (s : State) (g : MtSt → MtSt) : (setMt s g).pw = s.pw := by cases s; rfl
@[simp] theorem setMt_cage (s : State) (g : MtSt → MtSt) : (setMt s g).cage = s.cage := by cases s; rfl
@[simp] theorem setMt_pm (s : State) (g : MtSt → MtSt) : (setMt s g).pm = s.pm := by cases s; rfl
@[simp] theorem setMt_testReq (s : State) (g : MtSt → MtSt) : (setMt s g).testReq = s.testReq := by cases s; rfl
@[simp] theorem setMt_notices (s : State) (g : MtSt → MtSt) : (setMt s g).notices = s.notices := by cases s; rfl
@[simp] theorem csrRaw_setMt (s : State) (g : MtSt → MtSt) (key : Nat) : csrRaw (setMt s g) key = csrRaw s key := by simp only [csrRaw, setMt_csr]
@[simp] theorem rd_setMt (s : State) (g : MtSt → MtSt) (fld : Fld) (a b : Nat) : rd (setMt s g) fld a b = rd s fld a b := by simp only [rd, csrRaw_setMt]
@[simp] theorem rdb_setMt (s : State) (g : MtSt → MtSt) (fld : Fld) (a b : Nat) : rdb (setMt s g) fld a b = rdb s fld a b := by simp only [rdb, rd_setMt]

/-! setPm -/

@[simp] theorem setPm_pending (s : State) (g : PmSt → PmSt) : (setPm s g).pending = s.pending := by cases s; rfl
@[simp] theorem setPm_csr (s : State) (g : PmSt → PmSt) : (setPm s g).csr = s.csr := by cases s; rfl
@[simp] theorem setPm_out (s : State) (g : PmSt → PmSt) : (setPm s g).out = s.out := by cases s; rfl
@[simp] theorem setPm_free (s : State) (g : PmSt → PmSt) : (setPm s g).free = s.free := by cases s; rfl
@[simp] theorem setPm_timeNs (s : State) (g : PmSt → PmSt) : (setPm s g).timeNs = s.timeNs := by cases s; rfl
@[simp] theorem setPm_lanes (s : State) (g : PmSt → PmSt) : (setPm s g).lanes = s.lanes := by cases s; rfl
@[simp] theorem setPm_spares (s : State) (g : PmSt → PmSt) : (setPm s g).spares = s.spares := by cases s; rfl
@[simp] theorem setPm_links (s : State) (g : PmSt → PmSt) : (setPm s g).links = s.links := by cases s; rfl
@[simp] theorem setPm_sw (s : State) (g : PmSt → PmSt) : (setPm s g).sw = s.sw := by cases s; rfl
@[simp] theorem setPm_rt (s : State) (g : PmSt → PmSt) : (setPm s g).rt = s.rt := by cases s; rfl
@[simp] theorem setPm_hi (s : State) (g : PmSt → PmSt) : (setPm s g).hi = s.hi := by cases s; rfl
@[simp] theorem setPm_txn (s : State) (g : PmSt → PmSt) : (setPm s g).txn = s.txn := by cases s; rfl
@[simp] theorem setPm_eng (s : State) (g : PmSt → PmSt) : (setPm s g).eng = s.eng := by cases s; rfl
@[simp] theorem setPm_tp (s : State) (g : PmSt → PmSt) : (setPm s g).tp = s.tp := by cases s; rfl
@[simp] theorem setPm_mt (s : State) (g : PmSt → PmSt) : (setPm s g).mt = s.mt := by cases s; rfl
@[simp] theorem setPm_xl (s : State) (g : PmSt → PmSt) : (setPm s g).xl = s.xl := by cases s; rfl
@[simp] theorem setPm_mr (s : State) (g : PmSt → PmSt) : (setPm s g).mr = s.mr := by cases s; rfl
@[simp] theorem setPm_sc (s : State) (g : PmSt → PmSt) : (setPm s g).sc = s.sc := by cases s; rfl
@[simp] theorem setPm_kn (s : State) (g : PmSt → PmSt) : (setPm s g).kn = s.kn := by cases s; rfl
@[simp] theorem setPm_at' (s : State) (g : PmSt → PmSt) : (setPm s g).at' = s.at' := by cases s; rfl
@[simp] theorem setPm_cl (s : State) (g : PmSt → PmSt) : (setPm s g).cl = s.cl := by cases s; rfl
@[simp] theorem setPm_gw (s : State) (g : PmSt → PmSt) : (setPm s g).gw = s.gw := by cases s; rfl
@[simp] theorem setPm_fc (s : State) (g : PmSt → PmSt) : (setPm s g).fc = s.fc := by cases s; rfl
@[simp] theorem setPm_fw (s : State) (g : PmSt → PmSt) : (setPm s g).fw = s.fw := by cases s; rfl
@[simp] theorem setPm_pw (s : State) (g : PmSt → PmSt) : (setPm s g).pw = s.pw := by cases s; rfl
@[simp] theorem setPm_cage (s : State) (g : PmSt → PmSt) : (setPm s g).cage = s.cage := by cases s; rfl
@[simp] theorem setPm_pm (s : State) (g : PmSt → PmSt) : (setPm s g).pm = g s.pm := rfl
@[simp] theorem setPm_testReq (s : State) (g : PmSt → PmSt) : (setPm s g).testReq = s.testReq := by cases s; rfl
@[simp] theorem setPm_notices (s : State) (g : PmSt → PmSt) : (setPm s g).notices = s.notices := by cases s; rfl
@[simp] theorem csrRaw_setPm (s : State) (g : PmSt → PmSt) (key : Nat) : csrRaw (setPm s g) key = csrRaw s key := by simp only [csrRaw, setPm_csr]
@[simp] theorem rd_setPm (s : State) (g : PmSt → PmSt) (fld : Fld) (a b : Nat) : rd (setPm s g) fld a b = rd s fld a b := by simp only [rd, csrRaw_setPm]
@[simp] theorem rdb_setPm (s : State) (g : PmSt → PmSt) (fld : Fld) (a b : Nat) : rdb (setPm s g) fld a b = rdb s fld a b := by simp only [rdb, rd_setPm]

/-! setHi -/

@[simp] theorem setHi_pending (s : State) (g : HiSt → HiSt) : (setHi s g).pending = s.pending := by cases s; rfl
@[simp] theorem setHi_csr (s : State) (g : HiSt → HiSt) : (setHi s g).csr = s.csr := by cases s; rfl
@[simp] theorem setHi_out (s : State) (g : HiSt → HiSt) : (setHi s g).out = s.out := by cases s; rfl
@[simp] theorem setHi_free (s : State) (g : HiSt → HiSt) : (setHi s g).free = s.free := by cases s; rfl
@[simp] theorem setHi_timeNs (s : State) (g : HiSt → HiSt) : (setHi s g).timeNs = s.timeNs := by cases s; rfl
@[simp] theorem setHi_lanes (s : State) (g : HiSt → HiSt) : (setHi s g).lanes = s.lanes := by cases s; rfl
@[simp] theorem setHi_spares (s : State) (g : HiSt → HiSt) : (setHi s g).spares = s.spares := by cases s; rfl
@[simp] theorem setHi_links (s : State) (g : HiSt → HiSt) : (setHi s g).links = s.links := by cases s; rfl
@[simp] theorem setHi_sw (s : State) (g : HiSt → HiSt) : (setHi s g).sw = s.sw := by cases s; rfl
@[simp] theorem setHi_rt (s : State) (g : HiSt → HiSt) : (setHi s g).rt = s.rt := by cases s; rfl
@[simp] theorem setHi_hi (s : State) (g : HiSt → HiSt) : (setHi s g).hi = g s.hi := rfl
@[simp] theorem setHi_txn (s : State) (g : HiSt → HiSt) : (setHi s g).txn = s.txn := by cases s; rfl
@[simp] theorem setHi_eng (s : State) (g : HiSt → HiSt) : (setHi s g).eng = s.eng := by cases s; rfl
@[simp] theorem setHi_tp (s : State) (g : HiSt → HiSt) : (setHi s g).tp = s.tp := by cases s; rfl
@[simp] theorem setHi_mt (s : State) (g : HiSt → HiSt) : (setHi s g).mt = s.mt := by cases s; rfl
@[simp] theorem setHi_xl (s : State) (g : HiSt → HiSt) : (setHi s g).xl = s.xl := by cases s; rfl
@[simp] theorem setHi_mr (s : State) (g : HiSt → HiSt) : (setHi s g).mr = s.mr := by cases s; rfl
@[simp] theorem setHi_sc (s : State) (g : HiSt → HiSt) : (setHi s g).sc = s.sc := by cases s; rfl
@[simp] theorem setHi_kn (s : State) (g : HiSt → HiSt) : (setHi s g).kn = s.kn := by cases s; rfl
@[simp] theorem setHi_at' (s : State) (g : HiSt → HiSt) : (setHi s g).at' = s.at' := by cases s; rfl
@[simp] theorem setHi_cl (s : State) (g : HiSt → HiSt) : (setHi s g).cl = s.cl := by cases s; rfl
@[simp] theorem setHi_gw (s : State) (g : HiSt → HiSt) : (setHi s g).gw = s.gw := by cases s; rfl
@[simp] theorem setHi_fc (s : State) (g : HiSt → HiSt) : (setHi s g).fc = s.fc := by cases s; rfl
@[simp] theorem setHi_fw (s : State) (g : HiSt → HiSt) : (setHi s g).fw = s.fw := by cases s; rfl
@[simp] theorem setHi_pw (s : State) (g : HiSt → HiSt) : (setHi s g).pw = s.pw := by cases s; rfl
@[simp] theorem setHi_cage (s : State) (g : HiSt → HiSt) : (setHi s g).cage = s.cage := by cases s; rfl
@[simp] theorem setHi_pm (s : State) (g : HiSt → HiSt) : (setHi s g).pm = s.pm := by cases s; rfl
@[simp] theorem setHi_testReq (s : State) (g : HiSt → HiSt) : (setHi s g).testReq = s.testReq := by cases s; rfl
@[simp] theorem setHi_notices (s : State) (g : HiSt → HiSt) : (setHi s g).notices = s.notices := by cases s; rfl
@[simp] theorem csrRaw_setHi (s : State) (g : HiSt → HiSt) (key : Nat) : csrRaw (setHi s g) key = csrRaw s key := by simp only [csrRaw, setHi_csr]
@[simp] theorem rd_setHi (s : State) (g : HiSt → HiSt) (fld : Fld) (a b : Nat) : rd (setHi s g) fld a b = rd s fld a b := by simp only [rd, csrRaw_setHi]
@[simp] theorem rdb_setHi (s : State) (g : HiSt → HiSt) (fld : Fld) (a b : Nat) : rdb (setHi s g) fld a b = rdb s fld a b := by simp only [rdb, rd_setHi]

/-! setTp -/

@[simp] theorem setTp_pending (s : State) (g : TpSt → TpSt) : (setTp s g).pending = s.pending := by cases s; rfl
@[simp] theorem setTp_csr (s : State) (g : TpSt → TpSt) : (setTp s g).csr = s.csr := by cases s; rfl
@[simp] theorem setTp_out (s : State) (g : TpSt → TpSt) : (setTp s g).out = s.out := by cases s; rfl
@[simp] theorem setTp_free (s : State) (g : TpSt → TpSt) : (setTp s g).free = s.free := by cases s; rfl
@[simp] theorem setTp_timeNs (s : State) (g : TpSt → TpSt) : (setTp s g).timeNs = s.timeNs := by cases s; rfl
@[simp] theorem setTp_lanes (s : State) (g : TpSt → TpSt) : (setTp s g).lanes = s.lanes := by cases s; rfl
@[simp] theorem setTp_spares (s : State) (g : TpSt → TpSt) : (setTp s g).spares = s.spares := by cases s; rfl
@[simp] theorem setTp_links (s : State) (g : TpSt → TpSt) : (setTp s g).links = s.links := by cases s; rfl
@[simp] theorem setTp_sw (s : State) (g : TpSt → TpSt) : (setTp s g).sw = s.sw := by cases s; rfl
@[simp] theorem setTp_rt (s : State) (g : TpSt → TpSt) : (setTp s g).rt = s.rt := by cases s; rfl
@[simp] theorem setTp_hi (s : State) (g : TpSt → TpSt) : (setTp s g).hi = s.hi := by cases s; rfl
@[simp] theorem setTp_txn (s : State) (g : TpSt → TpSt) : (setTp s g).txn = s.txn := by cases s; rfl
@[simp] theorem setTp_eng (s : State) (g : TpSt → TpSt) : (setTp s g).eng = s.eng := by cases s; rfl
@[simp] theorem setTp_tp (s : State) (g : TpSt → TpSt) : (setTp s g).tp = g s.tp := rfl
@[simp] theorem setTp_mt (s : State) (g : TpSt → TpSt) : (setTp s g).mt = s.mt := by cases s; rfl
@[simp] theorem setTp_xl (s : State) (g : TpSt → TpSt) : (setTp s g).xl = s.xl := by cases s; rfl
@[simp] theorem setTp_mr (s : State) (g : TpSt → TpSt) : (setTp s g).mr = s.mr := by cases s; rfl
@[simp] theorem setTp_sc (s : State) (g : TpSt → TpSt) : (setTp s g).sc = s.sc := by cases s; rfl
@[simp] theorem setTp_kn (s : State) (g : TpSt → TpSt) : (setTp s g).kn = s.kn := by cases s; rfl
@[simp] theorem setTp_at' (s : State) (g : TpSt → TpSt) : (setTp s g).at' = s.at' := by cases s; rfl
@[simp] theorem setTp_cl (s : State) (g : TpSt → TpSt) : (setTp s g).cl = s.cl := by cases s; rfl
@[simp] theorem setTp_gw (s : State) (g : TpSt → TpSt) : (setTp s g).gw = s.gw := by cases s; rfl
@[simp] theorem setTp_fc (s : State) (g : TpSt → TpSt) : (setTp s g).fc = s.fc := by cases s; rfl
@[simp] theorem setTp_fw (s : State) (g : TpSt → TpSt) : (setTp s g).fw = s.fw := by cases s; rfl
@[simp] theorem setTp_pw (s : State) (g : TpSt → TpSt) : (setTp s g).pw = s.pw := by cases s; rfl
@[simp] theorem setTp_cage (s : State) (g : TpSt → TpSt) : (setTp s g).cage = s.cage := by cases s; rfl
@[simp] theorem setTp_pm (s : State) (g : TpSt → TpSt) : (setTp s g).pm = s.pm := by cases s; rfl
@[simp] theorem setTp_testReq (s : State) (g : TpSt → TpSt) : (setTp s g).testReq = s.testReq := by cases s; rfl
@[simp] theorem setTp_notices (s : State) (g : TpSt → TpSt) : (setTp s g).notices = s.notices := by cases s; rfl
@[simp] theorem csrRaw_setTp (s : State) (g : TpSt → TpSt) (key : Nat) : csrRaw (setTp s g) key = csrRaw s key := by simp only [csrRaw, setTp_csr]
@[simp] theorem rd_setTp (s : State) (g : TpSt → TpSt) (fld : Fld) (a b : Nat) : rd (setTp s g) fld a b = rd s fld a b := by simp only [rd, csrRaw_setTp]
@[simp] theorem rdb_setTp (s : State) (g : TpSt → TpSt) (fld : Fld) (a b : Nat) : rdb (setTp s g) fld a b = rdb s fld a b := by simp only [rdb, rd_setTp]

/-! setSc -/

@[simp] theorem setSc_pending (s : State) (g : SchedSt → SchedSt) : (setSc s g).pending = s.pending := by cases s; rfl
@[simp] theorem setSc_csr (s : State) (g : SchedSt → SchedSt) : (setSc s g).csr = s.csr := by cases s; rfl
@[simp] theorem setSc_out (s : State) (g : SchedSt → SchedSt) : (setSc s g).out = s.out := by cases s; rfl
@[simp] theorem setSc_free (s : State) (g : SchedSt → SchedSt) : (setSc s g).free = s.free := by cases s; rfl
@[simp] theorem setSc_timeNs (s : State) (g : SchedSt → SchedSt) : (setSc s g).timeNs = s.timeNs := by cases s; rfl
@[simp] theorem setSc_lanes (s : State) (g : SchedSt → SchedSt) : (setSc s g).lanes = s.lanes := by cases s; rfl
@[simp] theorem setSc_spares (s : State) (g : SchedSt → SchedSt) : (setSc s g).spares = s.spares := by cases s; rfl
@[simp] theorem setSc_links (s : State) (g : SchedSt → SchedSt) : (setSc s g).links = s.links := by cases s; rfl
@[simp] theorem setSc_sw (s : State) (g : SchedSt → SchedSt) : (setSc s g).sw = s.sw := by cases s; rfl
@[simp] theorem setSc_rt (s : State) (g : SchedSt → SchedSt) : (setSc s g).rt = s.rt := by cases s; rfl
@[simp] theorem setSc_hi (s : State) (g : SchedSt → SchedSt) : (setSc s g).hi = s.hi := by cases s; rfl
@[simp] theorem setSc_txn (s : State) (g : SchedSt → SchedSt) : (setSc s g).txn = s.txn := by cases s; rfl
@[simp] theorem setSc_eng (s : State) (g : SchedSt → SchedSt) : (setSc s g).eng = s.eng := by cases s; rfl
@[simp] theorem setSc_tp (s : State) (g : SchedSt → SchedSt) : (setSc s g).tp = s.tp := by cases s; rfl
@[simp] theorem setSc_mt (s : State) (g : SchedSt → SchedSt) : (setSc s g).mt = s.mt := by cases s; rfl
@[simp] theorem setSc_xl (s : State) (g : SchedSt → SchedSt) : (setSc s g).xl = s.xl := by cases s; rfl
@[simp] theorem setSc_mr (s : State) (g : SchedSt → SchedSt) : (setSc s g).mr = s.mr := by cases s; rfl
@[simp] theorem setSc_sc (s : State) (g : SchedSt → SchedSt) : (setSc s g).sc = g s.sc := rfl
@[simp] theorem setSc_kn (s : State) (g : SchedSt → SchedSt) : (setSc s g).kn = s.kn := by cases s; rfl
@[simp] theorem setSc_at' (s : State) (g : SchedSt → SchedSt) : (setSc s g).at' = s.at' := by cases s; rfl
@[simp] theorem setSc_cl (s : State) (g : SchedSt → SchedSt) : (setSc s g).cl = s.cl := by cases s; rfl
@[simp] theorem setSc_gw (s : State) (g : SchedSt → SchedSt) : (setSc s g).gw = s.gw := by cases s; rfl
@[simp] theorem setSc_fc (s : State) (g : SchedSt → SchedSt) : (setSc s g).fc = s.fc := by cases s; rfl
@[simp] theorem setSc_fw (s : State) (g : SchedSt → SchedSt) : (setSc s g).fw = s.fw := by cases s; rfl
@[simp] theorem setSc_pw (s : State) (g : SchedSt → SchedSt) : (setSc s g).pw = s.pw := by cases s; rfl
@[simp] theorem setSc_cage (s : State) (g : SchedSt → SchedSt) : (setSc s g).cage = s.cage := by cases s; rfl
@[simp] theorem setSc_pm (s : State) (g : SchedSt → SchedSt) : (setSc s g).pm = s.pm := by cases s; rfl
@[simp] theorem setSc_testReq (s : State) (g : SchedSt → SchedSt) : (setSc s g).testReq = s.testReq := by cases s; rfl
@[simp] theorem setSc_notices (s : State) (g : SchedSt → SchedSt) : (setSc s g).notices = s.notices := by cases s; rfl
@[simp] theorem csrRaw_setSc (s : State) (g : SchedSt → SchedSt) (key : Nat) : csrRaw (setSc s g) key = csrRaw s key := by simp only [csrRaw, setSc_csr]
@[simp] theorem rd_setSc (s : State) (g : SchedSt → SchedSt) (fld : Fld) (a b : Nat) : rd (setSc s g) fld a b = rd s fld a b := by simp only [rd, csrRaw_setSc]
@[simp] theorem rdb_setSc (s : State) (g : SchedSt → SchedSt) (fld : Fld) (a b : Nat) : rdb (setSc s g) fld a b = rdb s fld a b := by simp only [rdb, rd_setSc]

/-! setKn -/

@[simp] theorem setKn_pending (s : State) (g : KilnSt → KilnSt) : (setKn s g).pending = s.pending := by cases s; rfl
@[simp] theorem setKn_csr (s : State) (g : KilnSt → KilnSt) : (setKn s g).csr = s.csr := by cases s; rfl
@[simp] theorem setKn_out (s : State) (g : KilnSt → KilnSt) : (setKn s g).out = s.out := by cases s; rfl
@[simp] theorem setKn_free (s : State) (g : KilnSt → KilnSt) : (setKn s g).free = s.free := by cases s; rfl
@[simp] theorem setKn_timeNs (s : State) (g : KilnSt → KilnSt) : (setKn s g).timeNs = s.timeNs := by cases s; rfl
@[simp] theorem setKn_lanes (s : State) (g : KilnSt → KilnSt) : (setKn s g).lanes = s.lanes := by cases s; rfl
@[simp] theorem setKn_spares (s : State) (g : KilnSt → KilnSt) : (setKn s g).spares = s.spares := by cases s; rfl
@[simp] theorem setKn_links (s : State) (g : KilnSt → KilnSt) : (setKn s g).links = s.links := by cases s; rfl
@[simp] theorem setKn_sw (s : State) (g : KilnSt → KilnSt) : (setKn s g).sw = s.sw := by cases s; rfl
@[simp] theorem setKn_rt (s : State) (g : KilnSt → KilnSt) : (setKn s g).rt = s.rt := by cases s; rfl
@[simp] theorem setKn_hi (s : State) (g : KilnSt → KilnSt) : (setKn s g).hi = s.hi := by cases s; rfl
@[simp] theorem setKn_txn (s : State) (g : KilnSt → KilnSt) : (setKn s g).txn = s.txn := by cases s; rfl
@[simp] theorem setKn_eng (s : State) (g : KilnSt → KilnSt) : (setKn s g).eng = s.eng := by cases s; rfl
@[simp] theorem setKn_tp (s : State) (g : KilnSt → KilnSt) : (setKn s g).tp = s.tp := by cases s; rfl
@[simp] theorem setKn_mt (s : State) (g : KilnSt → KilnSt) : (setKn s g).mt = s.mt := by cases s; rfl
@[simp] theorem setKn_xl (s : State) (g : KilnSt → KilnSt) : (setKn s g).xl = s.xl := by cases s; rfl
@[simp] theorem setKn_mr (s : State) (g : KilnSt → KilnSt) : (setKn s g).mr = s.mr := by cases s; rfl
@[simp] theorem setKn_sc (s : State) (g : KilnSt → KilnSt) : (setKn s g).sc = s.sc := by cases s; rfl
@[simp] theorem setKn_kn (s : State) (g : KilnSt → KilnSt) : (setKn s g).kn = g s.kn := rfl
@[simp] theorem setKn_at' (s : State) (g : KilnSt → KilnSt) : (setKn s g).at' = s.at' := by cases s; rfl
@[simp] theorem setKn_cl (s : State) (g : KilnSt → KilnSt) : (setKn s g).cl = s.cl := by cases s; rfl
@[simp] theorem setKn_gw (s : State) (g : KilnSt → KilnSt) : (setKn s g).gw = s.gw := by cases s; rfl
@[simp] theorem setKn_fc (s : State) (g : KilnSt → KilnSt) : (setKn s g).fc = s.fc := by cases s; rfl
@[simp] theorem setKn_fw (s : State) (g : KilnSt → KilnSt) : (setKn s g).fw = s.fw := by cases s; rfl
@[simp] theorem setKn_pw (s : State) (g : KilnSt → KilnSt) : (setKn s g).pw = s.pw := by cases s; rfl
@[simp] theorem setKn_cage (s : State) (g : KilnSt → KilnSt) : (setKn s g).cage = s.cage := by cases s; rfl
@[simp] theorem setKn_pm (s : State) (g : KilnSt → KilnSt) : (setKn s g).pm = s.pm := by cases s; rfl
@[simp] theorem setKn_testReq (s : State) (g : KilnSt → KilnSt) : (setKn s g).testReq = s.testReq := by cases s; rfl
@[simp] theorem setKn_notices (s : State) (g : KilnSt → KilnSt) : (setKn s g).notices = s.notices := by cases s; rfl
@[simp] theorem csrRaw_setKn (s : State) (g : KilnSt → KilnSt) (key : Nat) : csrRaw (setKn s g) key = csrRaw s key := by simp only [csrRaw, setKn_csr]
@[simp] theorem rd_setKn (s : State) (g : KilnSt → KilnSt) (fld : Fld) (a b : Nat) : rd (setKn s g) fld a b = rd s fld a b := by simp only [rd, csrRaw_setKn]
@[simp] theorem rdb_setKn (s : State) (g : KilnSt → KilnSt) (fld : Fld) (a b : Nat) : rdb (setKn s g) fld a b = rdb s fld a b := by simp only [rdb, rd_setKn]

/-! setPw -/

@[simp] theorem setPw_pending (s : State) (g : SupplySt → SupplySt) : (setPw s g).pending = s.pending := by cases s; rfl
@[simp] theorem setPw_csr (s : State) (g : SupplySt → SupplySt) : (setPw s g).csr = s.csr := by cases s; rfl
@[simp] theorem setPw_out (s : State) (g : SupplySt → SupplySt) : (setPw s g).out = s.out := by cases s; rfl
@[simp] theorem setPw_free (s : State) (g : SupplySt → SupplySt) : (setPw s g).free = s.free := by cases s; rfl
@[simp] theorem setPw_timeNs (s : State) (g : SupplySt → SupplySt) : (setPw s g).timeNs = s.timeNs := by cases s; rfl
@[simp] theorem setPw_lanes (s : State) (g : SupplySt → SupplySt) : (setPw s g).lanes = s.lanes := by cases s; rfl
@[simp] theorem setPw_spares (s : State) (g : SupplySt → SupplySt) : (setPw s g).spares = s.spares := by cases s; rfl
@[simp] theorem setPw_links (s : State) (g : SupplySt → SupplySt) : (setPw s g).links = s.links := by cases s; rfl
@[simp] theorem setPw_sw (s : State) (g : SupplySt → SupplySt) : (setPw s g).sw = s.sw := by cases s; rfl
@[simp] theorem setPw_rt (s : State) (g : SupplySt → SupplySt) : (setPw s g).rt = s.rt := by cases s; rfl
@[simp] theorem setPw_hi (s : State) (g : SupplySt → SupplySt) : (setPw s g).hi = s.hi := by cases s; rfl
@[simp] theorem setPw_txn (s : State) (g : SupplySt → SupplySt) : (setPw s g).txn = s.txn := by cases s; rfl
@[simp] theorem setPw_eng (s : State) (g : SupplySt → SupplySt) : (setPw s g).eng = s.eng := by cases s; rfl
@[simp] theorem setPw_tp (s : State) (g : SupplySt → SupplySt) : (setPw s g).tp = s.tp := by cases s; rfl
@[simp] theorem setPw_mt (s : State) (g : SupplySt → SupplySt) : (setPw s g).mt = s.mt := by cases s; rfl
@[simp] theorem setPw_xl (s : State) (g : SupplySt → SupplySt) : (setPw s g).xl = s.xl := by cases s; rfl
@[simp] theorem setPw_mr (s : State) (g : SupplySt → SupplySt) : (setPw s g).mr = s.mr := by cases s; rfl
@[simp] theorem setPw_sc (s : State) (g : SupplySt → SupplySt) : (setPw s g).sc = s.sc := by cases s; rfl
@[simp] theorem setPw_kn (s : State) (g : SupplySt → SupplySt) : (setPw s g).kn = s.kn := by cases s; rfl
@[simp] theorem setPw_at' (s : State) (g : SupplySt → SupplySt) : (setPw s g).at' = s.at' := by cases s; rfl
@[simp] theorem setPw_cl (s : State) (g : SupplySt → SupplySt) : (setPw s g).cl = s.cl := by cases s; rfl
@[simp] theorem setPw_gw (s : State) (g : SupplySt → SupplySt) : (setPw s g).gw = s.gw := by cases s; rfl
@[simp] theorem setPw_fc (s : State) (g : SupplySt → SupplySt) : (setPw s g).fc = s.fc := by cases s; rfl
@[simp] theorem setPw_fw (s : State) (g : SupplySt → SupplySt) : (setPw s g).fw = s.fw := by cases s; rfl
@[simp] theorem setPw_pw (s : State) (g : SupplySt → SupplySt) : (setPw s g).pw = g s.pw := rfl
@[simp] theorem setPw_cage (s : State) (g : SupplySt → SupplySt) : (setPw s g).cage = s.cage := by cases s; rfl
@[simp] theorem setPw_pm (s : State) (g : SupplySt → SupplySt) : (setPw s g).pm = s.pm := by cases s; rfl
@[simp] theorem setPw_testReq (s : State) (g : SupplySt → SupplySt) : (setPw s g).testReq = s.testReq := by cases s; rfl
@[simp] theorem setPw_notices (s : State) (g : SupplySt → SupplySt) : (setPw s g).notices = s.notices := by cases s; rfl
@[simp] theorem csrRaw_setPw (s : State) (g : SupplySt → SupplySt) (key : Nat) : csrRaw (setPw s g) key = csrRaw s key := by simp only [csrRaw, setPw_csr]
@[simp] theorem rd_setPw (s : State) (g : SupplySt → SupplySt) (fld : Fld) (a b : Nat) : rd (setPw s g) fld a b = rd s fld a b := by simp only [rd, csrRaw_setPw]
@[simp] theorem rdb_setPw (s : State) (g : SupplySt → SupplySt) (fld : Fld) (a b : Nat) : rdb (setPw s g) fld a b = rdb s fld a b := by simp only [rdb, rd_setPw]

/-! setEng -/

@[simp] theorem setEng_pending (s : State) (g : TileEng → TileEng) : (setEng s g).pending = s.pending := by cases s; rfl
@[simp] theorem setEng_csr (s : State) (g : TileEng → TileEng) : (setEng s g).csr = s.csr := by cases s; rfl
@[simp] theorem setEng_out (s : State) (g : TileEng → TileEng) : (setEng s g).out = s.out := by cases s; rfl
@[simp] theorem setEng_free (s : State) (g : TileEng → TileEng) : (setEng s g).free = s.free := by cases s; rfl
@[simp] theorem setEng_timeNs (s : State) (g : TileEng → TileEng) : (setEng s g).timeNs = s.timeNs := by cases s; rfl
@[simp] theorem setEng_lanes (s : State) (g : TileEng → TileEng) : (setEng s g).lanes = s.lanes := by cases s; rfl
@[simp] theorem setEng_spares (s : State) (g : TileEng → TileEng) : (setEng s g).spares = s.spares := by cases s; rfl
@[simp] theorem setEng_links (s : State) (g : TileEng → TileEng) : (setEng s g).links = s.links := by cases s; rfl
@[simp] theorem setEng_sw (s : State) (g : TileEng → TileEng) : (setEng s g).sw = s.sw := by cases s; rfl
@[simp] theorem setEng_rt (s : State) (g : TileEng → TileEng) : (setEng s g).rt = s.rt := by cases s; rfl
@[simp] theorem setEng_hi (s : State) (g : TileEng → TileEng) : (setEng s g).hi = s.hi := by cases s; rfl
@[simp] theorem setEng_txn (s : State) (g : TileEng → TileEng) : (setEng s g).txn = s.txn := by cases s; rfl
@[simp] theorem setEng_eng (s : State) (g : TileEng → TileEng) : (setEng s g).eng = g s.eng := rfl
@[simp] theorem setEng_tp (s : State) (g : TileEng → TileEng) : (setEng s g).tp = s.tp := by cases s; rfl
@[simp] theorem setEng_mt (s : State) (g : TileEng → TileEng) : (setEng s g).mt = s.mt := by cases s; rfl
@[simp] theorem setEng_xl (s : State) (g : TileEng → TileEng) : (setEng s g).xl = s.xl := by cases s; rfl
@[simp] theorem setEng_mr (s : State) (g : TileEng → TileEng) : (setEng s g).mr = s.mr := by cases s; rfl
@[simp] theorem setEng_sc (s : State) (g : TileEng → TileEng) : (setEng s g).sc = s.sc := by cases s; rfl
@[simp] theorem setEng_kn (s : State) (g : TileEng → TileEng) : (setEng s g).kn = s.kn := by cases s; rfl
@[simp] theorem setEng_at' (s : State) (g : TileEng → TileEng) : (setEng s g).at' = s.at' := by cases s; rfl
@[simp] theorem setEng_cl (s : State) (g : TileEng → TileEng) : (setEng s g).cl = s.cl := by cases s; rfl
@[simp] theorem setEng_gw (s : State) (g : TileEng → TileEng) : (setEng s g).gw = s.gw := by cases s; rfl
@[simp] theorem setEng_fc (s : State) (g : TileEng → TileEng) : (setEng s g).fc = s.fc := by cases s; rfl
@[simp] theorem setEng_fw (s : State) (g : TileEng → TileEng) : (setEng s g).fw = s.fw := by cases s; rfl
@[simp] theorem setEng_pw (s : State) (g : TileEng → TileEng) : (setEng s g).pw = s.pw := by cases s; rfl
@[simp] theorem setEng_cage (s : State) (g : TileEng → TileEng) : (setEng s g).cage = s.cage := by cases s; rfl
@[simp] theorem setEng_pm (s : State) (g : TileEng → TileEng) : (setEng s g).pm = s.pm := by cases s; rfl
@[simp] theorem setEng_testReq (s : State) (g : TileEng → TileEng) : (setEng s g).testReq = s.testReq := by cases s; rfl
@[simp] theorem setEng_notices (s : State) (g : TileEng → TileEng) : (setEng s g).notices = s.notices := by cases s; rfl
@[simp] theorem csrRaw_setEng (s : State) (g : TileEng → TileEng) (key : Nat) : csrRaw (setEng s g) key = csrRaw s key := by simp only [csrRaw, setEng_csr]
@[simp] theorem rd_setEng (s : State) (g : TileEng → TileEng) (fld : Fld) (a b : Nat) : rd (setEng s g) fld a b = rd s fld a b := by simp only [rd, csrRaw_setEng]
@[simp] theorem rdb_setEng (s : State) (g : TileEng → TileEng) (fld : Fld) (a b : Nat) : rdb (setEng s g) fld a b = rdb s fld a b := by simp only [rdb, rd_setEng]

/-! setXl -/

@[simp] theorem setXl_pending (s : State) (g : XlSt → XlSt) : (setXl s g).pending = s.pending := by cases s; rfl
@[simp] theorem setXl_csr (s : State) (g : XlSt → XlSt) : (setXl s g).csr = s.csr := by cases s; rfl
@[simp] theorem setXl_out (s : State) (g : XlSt → XlSt) : (setXl s g).out = s.out := by cases s; rfl
@[simp] theorem setXl_free (s : State) (g : XlSt → XlSt) : (setXl s g).free = s.free := by cases s; rfl
@[simp] theorem setXl_timeNs (s : State) (g : XlSt → XlSt) : (setXl s g).timeNs = s.timeNs := by cases s; rfl
@[simp] theorem setXl_lanes (s : State) (g : XlSt → XlSt) : (setXl s g).lanes = s.lanes := by cases s; rfl
@[simp] theorem setXl_spares (s : State) (g : XlSt → XlSt) : (setXl s g).spares = s.spares := by cases s; rfl
@[simp] theorem setXl_links (s : State) (g : XlSt → XlSt) : (setXl s g).links = s.links := by cases s; rfl
@[simp] theorem setXl_sw (s : State) (g : XlSt → XlSt) : (setXl s g).sw = s.sw := by cases s; rfl
@[simp] theorem setXl_rt (s : State) (g : XlSt → XlSt) : (setXl s g).rt = s.rt := by cases s; rfl
@[simp] theorem setXl_hi (s : State) (g : XlSt → XlSt) : (setXl s g).hi = s.hi := by cases s; rfl
@[simp] theorem setXl_txn (s : State) (g : XlSt → XlSt) : (setXl s g).txn = s.txn := by cases s; rfl
@[simp] theorem setXl_eng (s : State) (g : XlSt → XlSt) : (setXl s g).eng = s.eng := by cases s; rfl
@[simp] theorem setXl_tp (s : State) (g : XlSt → XlSt) : (setXl s g).tp = s.tp := by cases s; rfl
@[simp] theorem setXl_mt (s : State) (g : XlSt → XlSt) : (setXl s g).mt = s.mt := by cases s; rfl
@[simp] theorem setXl_xl (s : State) (g : XlSt → XlSt) : (setXl s g).xl = g s.xl := rfl
@[simp] theorem setXl_mr (s : State) (g : XlSt → XlSt) : (setXl s g).mr = s.mr := by cases s; rfl
@[simp] theorem setXl_sc (s : State) (g : XlSt → XlSt) : (setXl s g).sc = s.sc := by cases s; rfl
@[simp] theorem setXl_kn (s : State) (g : XlSt → XlSt) : (setXl s g).kn = s.kn := by cases s; rfl
@[simp] theorem setXl_at' (s : State) (g : XlSt → XlSt) : (setXl s g).at' = s.at' := by cases s; rfl
@[simp] theorem setXl_cl (s : State) (g : XlSt → XlSt) : (setXl s g).cl = s.cl := by cases s; rfl
@[simp] theorem setXl_gw (s : State) (g : XlSt → XlSt) : (setXl s g).gw = s.gw := by cases s; rfl
@[simp] theorem setXl_fc (s : State) (g : XlSt → XlSt) : (setXl s g).fc = s.fc := by cases s; rfl
@[simp] theorem setXl_fw (s : State) (g : XlSt → XlSt) : (setXl s g).fw = s.fw := by cases s; rfl
@[simp] theorem setXl_pw (s : State) (g : XlSt → XlSt) : (setXl s g).pw = s.pw := by cases s; rfl
@[simp] theorem setXl_cage (s : State) (g : XlSt → XlSt) : (setXl s g).cage = s.cage := by cases s; rfl
@[simp] theorem setXl_pm (s : State) (g : XlSt → XlSt) : (setXl s g).pm = s.pm := by cases s; rfl
@[simp] theorem setXl_testReq (s : State) (g : XlSt → XlSt) : (setXl s g).testReq = s.testReq := by cases s; rfl
@[simp] theorem setXl_notices (s : State) (g : XlSt → XlSt) : (setXl s g).notices = s.notices := by cases s; rfl
@[simp] theorem csrRaw_setXl (s : State) (g : XlSt → XlSt) (key : Nat) : csrRaw (setXl s g) key = csrRaw s key := by simp only [csrRaw, setXl_csr]
@[simp] theorem rd_setXl (s : State) (g : XlSt → XlSt) (fld : Fld) (a b : Nat) : rd (setXl s g) fld a b = rd s fld a b := by simp only [rd, csrRaw_setXl]
@[simp] theorem rdb_setXl (s : State) (g : XlSt → XlSt) (fld : Fld) (a b : Nat) : rdb (setXl s g) fld a b = rdb s fld a b := by simp only [rdb, rd_setXl]

/-! setGrp -/

@[simp] theorem setGrp_pending (s : State) (g : Nat) (x : CollGrp) : (setGrp s g x).pending = s.pending := by cases s; rfl
@[simp] theorem setGrp_csr (s : State) (g : Nat) (x : CollGrp) : (setGrp s g x).csr = s.csr := by cases s; rfl
@[simp] theorem setGrp_out (s : State) (g : Nat) (x : CollGrp) : (setGrp s g x).out = s.out := by cases s; rfl
@[simp] theorem setGrp_free (s : State) (g : Nat) (x : CollGrp) : (setGrp s g x).free = s.free := by cases s; rfl
@[simp] theorem setGrp_timeNs (s : State) (g : Nat) (x : CollGrp) : (setGrp s g x).timeNs = s.timeNs := by cases s; rfl
@[simp] theorem setGrp_lanes (s : State) (g : Nat) (x : CollGrp) : (setGrp s g x).lanes = s.lanes := by cases s; rfl
@[simp] theorem setGrp_spares (s : State) (g : Nat) (x : CollGrp) : (setGrp s g x).spares = s.spares := by cases s; rfl
@[simp] theorem setGrp_links (s : State) (g : Nat) (x : CollGrp) : (setGrp s g x).links = s.links := by cases s; rfl
@[simp] theorem setGrp_sw (s : State) (g : Nat) (x : CollGrp) : (setGrp s g x).sw = s.sw := by cases s; rfl
@[simp] theorem setGrp_rt (s : State) (g : Nat) (x : CollGrp) : (setGrp s g x).rt = s.rt := by cases s; rfl
@[simp] theorem setGrp_hi (s : State) (g : Nat) (x : CollGrp) : (setGrp s g x).hi = s.hi := by cases s; rfl
@[simp] theorem setGrp_txn (s : State) (g : Nat) (x : CollGrp) : (setGrp s g x).txn = s.txn := by cases s; rfl
@[simp] theorem setGrp_eng (s : State) (g : Nat) (x : CollGrp) : (setGrp s g x).eng = s.eng := by cases s; rfl
@[simp] theorem setGrp_tp (s : State) (g : Nat) (x : CollGrp) : (setGrp s g x).tp = s.tp := by cases s; rfl
@[simp] theorem setGrp_mt (s : State) (g : Nat) (x : CollGrp) : (setGrp s g x).mt = s.mt := by cases s; rfl
@[simp] theorem setGrp_xl (s : State) (g : Nat) (x : CollGrp) : (setGrp s g x).xl = s.xl := by cases s; rfl
@[simp] theorem setGrp_mr (s : State) (g : Nat) (x : CollGrp) : (setGrp s g x).mr = s.mr := by cases s; rfl
@[simp] theorem setGrp_sc (s : State) (g : Nat) (x : CollGrp) : (setGrp s g x).sc = s.sc := by cases s; rfl
@[simp] theorem setGrp_kn (s : State) (g : Nat) (x : CollGrp) : (setGrp s g x).kn = s.kn := by cases s; rfl
@[simp] theorem setGrp_at' (s : State) (g : Nat) (x : CollGrp) : (setGrp s g x).at' = s.at' := by cases s; rfl
@[simp] theorem setGrp_gw (s : State) (g : Nat) (x : CollGrp) : (setGrp s g x).gw = s.gw := by cases s; rfl
@[simp] theorem setGrp_fc (s : State) (g : Nat) (x : CollGrp) : (setGrp s g x).fc = s.fc := by cases s; rfl
@[simp] theorem setGrp_fw (s : State) (g : Nat) (x : CollGrp) : (setGrp s g x).fw = s.fw := by cases s; rfl
@[simp] theorem setGrp_pw (s : State) (g : Nat) (x : CollGrp) : (setGrp s g x).pw = s.pw := by cases s; rfl
@[simp] theorem setGrp_cage (s : State) (g : Nat) (x : CollGrp) : (setGrp s g x).cage = s.cage := by cases s; rfl
@[simp] theorem setGrp_pm (s : State) (g : Nat) (x : CollGrp) : (setGrp s g x).pm = s.pm := by cases s; rfl
@[simp] theorem setGrp_testReq (s : State) (g : Nat) (x : CollGrp) : (setGrp s g x).testReq = s.testReq := by cases s; rfl
@[simp] theorem setGrp_notices (s : State) (g : Nat) (x : CollGrp) : (setGrp s g x).notices = s.notices := by cases s; rfl
@[simp] theorem csrRaw_setGrp (s : State) (g : Nat) (x : CollGrp) (key : Nat) : csrRaw (setGrp s g x) key = csrRaw s key := by simp only [csrRaw, setGrp_csr]
@[simp] theorem rd_setGrp (s : State) (g : Nat) (x : CollGrp) (fld : Fld) (a b : Nat) : rd (setGrp s g x) fld a b = rd s fld a b := by simp only [rd, csrRaw_setGrp]
@[simp] theorem rdb_setGrp (s : State) (g : Nat) (x : CollGrp) (fld : Fld) (a b : Nat) : rdb (setGrp s g x) fld a b = rdb s fld a b := by simp only [rdb, rd_setGrp]

/-! setJob -/

@[simp] theorem setJob_pending (s : State) (j : Nat) (x : ExJobSt) : (setJob s j x).pending = s.pending := by cases s; rfl
@[simp] theorem setJob_csr (s : State) (j : Nat) (x : ExJobSt) : (setJob s j x).csr = s.csr := by cases s; rfl
@[simp] theorem setJob_out (s : State) (j : Nat) (x : ExJobSt) : (setJob s j x).out = s.out := by cases s; rfl
@[simp] theorem setJob_free (s : State) (j : Nat) (x : ExJobSt) : (setJob s j x).free = s.free := by cases s; rfl
@[simp] theorem setJob_timeNs (s : State) (j : Nat) (x : ExJobSt) : (setJob s j x).timeNs = s.timeNs := by cases s; rfl
@[simp] theorem setJob_lanes (s : State) (j : Nat) (x : ExJobSt) : (setJob s j x).lanes = s.lanes := by cases s; rfl
@[simp] theorem setJob_spares (s : State) (j : Nat) (x : ExJobSt) : (setJob s j x).spares = s.spares := by cases s; rfl
@[simp] theorem setJob_links (s : State) (j : Nat) (x : ExJobSt) : (setJob s j x).links = s.links := by cases s; rfl
@[simp] theorem setJob_sw (s : State) (j : Nat) (x : ExJobSt) : (setJob s j x).sw = s.sw := by cases s; rfl
@[simp] theorem setJob_rt (s : State) (j : Nat) (x : ExJobSt) : (setJob s j x).rt = s.rt := by cases s; rfl
@[simp] theorem setJob_hi (s : State) (j : Nat) (x : ExJobSt) : (setJob s j x).hi = s.hi := by cases s; rfl
@[simp] theorem setJob_txn (s : State) (j : Nat) (x : ExJobSt) : (setJob s j x).txn = s.txn := by cases s; rfl
@[simp] theorem setJob_eng (s : State) (j : Nat) (x : ExJobSt) : (setJob s j x).eng = s.eng := by cases s; rfl
@[simp] theorem setJob_tp (s : State) (j : Nat) (x : ExJobSt) : (setJob s j x).tp = s.tp := by cases s; rfl
@[simp] theorem setJob_mt (s : State) (j : Nat) (x : ExJobSt) : (setJob s j x).mt = s.mt := by cases s; rfl
@[simp] theorem setJob_xl (s : State) (j : Nat) (x : ExJobSt) : (setJob s j x).xl = s.xl := by cases s; rfl
@[simp] theorem setJob_mr (s : State) (j : Nat) (x : ExJobSt) : (setJob s j x).mr = s.mr := by cases s; rfl
@[simp] theorem setJob_sc (s : State) (j : Nat) (x : ExJobSt) : (setJob s j x).sc = s.sc := by cases s; rfl
@[simp] theorem setJob_kn (s : State) (j : Nat) (x : ExJobSt) : (setJob s j x).kn = s.kn := by cases s; rfl
@[simp] theorem setJob_at' (s : State) (j : Nat) (x : ExJobSt) : (setJob s j x).at' = s.at' := by cases s; rfl
@[simp] theorem setJob_gw (s : State) (j : Nat) (x : ExJobSt) : (setJob s j x).gw = s.gw := by cases s; rfl
@[simp] theorem setJob_fc (s : State) (j : Nat) (x : ExJobSt) : (setJob s j x).fc = s.fc := by cases s; rfl
@[simp] theorem setJob_fw (s : State) (j : Nat) (x : ExJobSt) : (setJob s j x).fw = s.fw := by cases s; rfl
@[simp] theorem setJob_pw (s : State) (j : Nat) (x : ExJobSt) : (setJob s j x).pw = s.pw := by cases s; rfl
@[simp] theorem setJob_cage (s : State) (j : Nat) (x : ExJobSt) : (setJob s j x).cage = s.cage := by cases s; rfl
@[simp] theorem setJob_pm (s : State) (j : Nat) (x : ExJobSt) : (setJob s j x).pm = s.pm := by cases s; rfl
@[simp] theorem setJob_testReq (s : State) (j : Nat) (x : ExJobSt) : (setJob s j x).testReq = s.testReq := by cases s; rfl
@[simp] theorem setJob_notices (s : State) (j : Nat) (x : ExJobSt) : (setJob s j x).notices = s.notices := by cases s; rfl
@[simp] theorem csrRaw_setJob (s : State) (j : Nat) (x : ExJobSt) (key : Nat) : csrRaw (setJob s j x) key = csrRaw s key := by simp only [csrRaw, setJob_csr]
@[simp] theorem rd_setJob (s : State) (j : Nat) (x : ExJobSt) (fld : Fld) (a b : Nat) : rd (setJob s j x) fld a b = rd s fld a b := by simp only [rd, csrRaw_setJob]
@[simp] theorem rdb_setJob (s : State) (j : Nat) (x : ExJobSt) (fld : Fld) (a b : Nat) : rdb (setJob s j x) fld a b = rdb s fld a b := by simp only [rdb, rd_setJob]

/-! setSpare -/

@[simp] theorem setSpare_pending (s : State) (n : Nat) (x : SpareSt) : (setSpare s n x).pending = s.pending := by cases s; rfl
@[simp] theorem setSpare_csr (s : State) (n : Nat) (x : SpareSt) : (setSpare s n x).csr = s.csr := by cases s; rfl
@[simp] theorem setSpare_out (s : State) (n : Nat) (x : SpareSt) : (setSpare s n x).out = s.out := by cases s; rfl
@[simp] theorem setSpare_free (s : State) (n : Nat) (x : SpareSt) : (setSpare s n x).free = s.free := by cases s; rfl
@[simp] theorem setSpare_timeNs (s : State) (n : Nat) (x : SpareSt) : (setSpare s n x).timeNs = s.timeNs := by cases s; rfl
@[simp] theorem setSpare_lanes (s : State) (n : Nat) (x : SpareSt) : (setSpare s n x).lanes = s.lanes := by cases s; rfl
@[simp] theorem setSpare_spares (s : State) (n : Nat) (x : SpareSt) : (setSpare s n x).spares = mset s.spares n x := rfl
@[simp] theorem setSpare_links (s : State) (n : Nat) (x : SpareSt) : (setSpare s n x).links = s.links := by cases s; rfl
@[simp] theorem setSpare_sw (s : State) (n : Nat) (x : SpareSt) : (setSpare s n x).sw = s.sw := by cases s; rfl
@[simp] theorem setSpare_rt (s : State) (n : Nat) (x : SpareSt) : (setSpare s n x).rt = s.rt := by cases s; rfl
@[simp] theorem setSpare_hi (s : State) (n : Nat) (x : SpareSt) : (setSpare s n x).hi = s.hi := by cases s; rfl
@[simp] theorem setSpare_txn (s : State) (n : Nat) (x : SpareSt) : (setSpare s n x).txn = s.txn := by cases s; rfl
@[simp] theorem setSpare_eng (s : State) (n : Nat) (x : SpareSt) : (setSpare s n x).eng = s.eng := by cases s; rfl
@[simp] theorem setSpare_tp (s : State) (n : Nat) (x : SpareSt) : (setSpare s n x).tp = s.tp := by cases s; rfl
@[simp] theorem setSpare_mt (s : State) (n : Nat) (x : SpareSt) : (setSpare s n x).mt = s.mt := by cases s; rfl
@[simp] theorem setSpare_xl (s : State) (n : Nat) (x : SpareSt) : (setSpare s n x).xl = s.xl := by cases s; rfl
@[simp] theorem setSpare_mr (s : State) (n : Nat) (x : SpareSt) : (setSpare s n x).mr = s.mr := by cases s; rfl
@[simp] theorem setSpare_sc (s : State) (n : Nat) (x : SpareSt) : (setSpare s n x).sc = s.sc := by cases s; rfl
@[simp] theorem setSpare_kn (s : State) (n : Nat) (x : SpareSt) : (setSpare s n x).kn = s.kn := by cases s; rfl
@[simp] theorem setSpare_at' (s : State) (n : Nat) (x : SpareSt) : (setSpare s n x).at' = s.at' := by cases s; rfl
@[simp] theorem setSpare_cl (s : State) (n : Nat) (x : SpareSt) : (setSpare s n x).cl = s.cl := by cases s; rfl
@[simp] theorem setSpare_gw (s : State) (n : Nat) (x : SpareSt) : (setSpare s n x).gw = s.gw := by cases s; rfl
@[simp] theorem setSpare_fc (s : State) (n : Nat) (x : SpareSt) : (setSpare s n x).fc = s.fc := by cases s; rfl
@[simp] theorem setSpare_fw (s : State) (n : Nat) (x : SpareSt) : (setSpare s n x).fw = s.fw := by cases s; rfl
@[simp] theorem setSpare_pw (s : State) (n : Nat) (x : SpareSt) : (setSpare s n x).pw = s.pw := by cases s; rfl
@[simp] theorem setSpare_cage (s : State) (n : Nat) (x : SpareSt) : (setSpare s n x).cage = s.cage := by cases s; rfl
@[simp] theorem setSpare_pm (s : State) (n : Nat) (x : SpareSt) : (setSpare s n x).pm = s.pm := by cases s; rfl
@[simp] theorem setSpare_testReq (s : State) (n : Nat) (x : SpareSt) : (setSpare s n x).testReq = s.testReq := by cases s; rfl
@[simp] theorem setSpare_notices (s : State) (n : Nat) (x : SpareSt) : (setSpare s n x).notices = s.notices := by cases s; rfl
@[simp] theorem csrRaw_setSpare (s : State) (n : Nat) (x : SpareSt) (key : Nat) : csrRaw (setSpare s n x) key = csrRaw s key := by simp only [csrRaw, setSpare_csr]
@[simp] theorem rd_setSpare (s : State) (n : Nat) (x : SpareSt) (fld : Fld) (a b : Nat) : rd (setSpare s n x) fld a b = rd s fld a b := by simp only [rd, csrRaw_setSpare]
@[simp] theorem rdb_setSpare (s : State) (n : Nat) (x : SpareSt) (fld : Fld) (a b : Nat) : rdb (setSpare s n x) fld a b = rdb s fld a b := by simp only [rdb, rd_setSpare]

/-! setLane -/

@[simp] theorem setLane_pending (s : State) (n : Nat) (x : LaneSt) : (setLane s n x).pending = s.pending := by cases s; rfl
@[simp] theorem setLane_csr (s : State) (n : Nat) (x : LaneSt) : (setLane s n x).csr = s.csr := by cases s; rfl
@[simp] theorem setLane_out (s : State) (n : Nat) (x : LaneSt) : (setLane s n x).out = s.out := by cases s; rfl
@[simp] theorem setLane_free (s : State) (n : Nat) (x : LaneSt) : (setLane s n x).free = s.free := by cases s; rfl
@[simp] theorem setLane_timeNs (s : State) (n : Nat) (x : LaneSt) : (setLane s n x).timeNs = s.timeNs := by cases s; rfl
@[simp] theorem setLane_lanes (s : State) (n : Nat) (x : LaneSt) : (setLane s n x).lanes = mset s.lanes n x := rfl
@[simp] theorem setLane_spares (s : State) (n : Nat) (x : LaneSt) : (setLane s n x).spares = s.spares := by cases s; rfl
@[simp] theorem setLane_links (s : State) (n : Nat) (x : LaneSt) : (setLane s n x).links = s.links := by cases s; rfl
@[simp] theorem setLane_sw (s : State) (n : Nat) (x : LaneSt) : (setLane s n x).sw = s.sw := by cases s; rfl
@[simp] theorem setLane_rt (s : State) (n : Nat) (x : LaneSt) : (setLane s n x).rt = s.rt := by cases s; rfl
@[simp] theorem setLane_hi (s : State) (n : Nat) (x : LaneSt) : (setLane s n x).hi = s.hi := by cases s; rfl
@[simp] theorem setLane_txn (s : State) (n : Nat) (x : LaneSt) : (setLane s n x).txn = s.txn := by cases s; rfl
@[simp] theorem setLane_eng (s : State) (n : Nat) (x : LaneSt) : (setLane s n x).eng = s.eng := by cases s; rfl
@[simp] theorem setLane_tp (s : State) (n : Nat) (x : LaneSt) : (setLane s n x).tp = s.tp := by cases s; rfl
@[simp] theorem setLane_mt (s : State) (n : Nat) (x : LaneSt) : (setLane s n x).mt = s.mt := by cases s; rfl
@[simp] theorem setLane_xl (s : State) (n : Nat) (x : LaneSt) : (setLane s n x).xl = s.xl := by cases s; rfl
@[simp] theorem setLane_mr (s : State) (n : Nat) (x : LaneSt) : (setLane s n x).mr = s.mr := by cases s; rfl
@[simp] theorem setLane_sc (s : State) (n : Nat) (x : LaneSt) : (setLane s n x).sc = s.sc := by cases s; rfl
@[simp] theorem setLane_kn (s : State) (n : Nat) (x : LaneSt) : (setLane s n x).kn = s.kn := by cases s; rfl
@[simp] theorem setLane_at' (s : State) (n : Nat) (x : LaneSt) : (setLane s n x).at' = s.at' := by cases s; rfl
@[simp] theorem setLane_cl (s : State) (n : Nat) (x : LaneSt) : (setLane s n x).cl = s.cl := by cases s; rfl
@[simp] theorem setLane_gw (s : State) (n : Nat) (x : LaneSt) : (setLane s n x).gw = s.gw := by cases s; rfl
@[simp] theorem setLane_fc (s : State) (n : Nat) (x : LaneSt) : (setLane s n x).fc = s.fc := by cases s; rfl
@[simp] theorem setLane_fw (s : State) (n : Nat) (x : LaneSt) : (setLane s n x).fw = s.fw := by cases s; rfl
@[simp] theorem setLane_pw (s : State) (n : Nat) (x : LaneSt) : (setLane s n x).pw = s.pw := by cases s; rfl
@[simp] theorem setLane_cage (s : State) (n : Nat) (x : LaneSt) : (setLane s n x).cage = s.cage := by cases s; rfl
@[simp] theorem setLane_pm (s : State) (n : Nat) (x : LaneSt) : (setLane s n x).pm = s.pm := by cases s; rfl
@[simp] theorem setLane_testReq (s : State) (n : Nat) (x : LaneSt) : (setLane s n x).testReq = s.testReq := by cases s; rfl
@[simp] theorem setLane_notices (s : State) (n : Nat) (x : LaneSt) : (setLane s n x).notices = s.notices := by cases s; rfl
@[simp] theorem csrRaw_setLane (s : State) (n : Nat) (x : LaneSt) (key : Nat) : csrRaw (setLane s n x) key = csrRaw s key := by simp only [csrRaw, setLane_csr]
@[simp] theorem rd_setLane (s : State) (n : Nat) (x : LaneSt) (fld : Fld) (a b : Nat) : rd (setLane s n x) fld a b = rd s fld a b := by simp only [rd, csrRaw_setLane]
@[simp] theorem rdb_setLane (s : State) (n : Nat) (x : LaneSt) (fld : Fld) (a b : Nat) : rdb (setLane s n x) fld a b = rdb s fld a b := by simp only [rdb, rd_setLane]

/-! setLink -/

@[simp] theorem setLink_pending (s : State) (p : Nat) (x : LinkSt) : (setLink s p x).pending = s.pending := by cases s; rfl
@[simp] theorem setLink_csr (s : State) (p : Nat) (x : LinkSt) : (setLink s p x).csr = s.csr := by cases s; rfl
@[simp] theorem setLink_out (s : State) (p : Nat) (x : LinkSt) : (setLink s p x).out = s.out := by cases s; rfl
@[simp] theorem setLink_free (s : State) (p : Nat) (x : LinkSt) : (setLink s p x).free = s.free := by cases s; rfl
@[simp] theorem setLink_timeNs (s : State) (p : Nat) (x : LinkSt) : (setLink s p x).timeNs = s.timeNs := by cases s; rfl
@[simp] theorem setLink_lanes (s : State) (p : Nat) (x : LinkSt) : (setLink s p x).lanes = s.lanes := by cases s; rfl
@[simp] theorem setLink_spares (s : State) (p : Nat) (x : LinkSt) : (setLink s p x).spares = s.spares := by cases s; rfl
@[simp] theorem setLink_links (s : State) (p : Nat) (x : LinkSt) : (setLink s p x).links = mset s.links p x := rfl
@[simp] theorem setLink_sw (s : State) (p : Nat) (x : LinkSt) : (setLink s p x).sw = s.sw := by cases s; rfl
@[simp] theorem setLink_rt (s : State) (p : Nat) (x : LinkSt) : (setLink s p x).rt = s.rt := by cases s; rfl
@[simp] theorem setLink_hi (s : State) (p : Nat) (x : LinkSt) : (setLink s p x).hi = s.hi := by cases s; rfl
@[simp] theorem setLink_txn (s : State) (p : Nat) (x : LinkSt) : (setLink s p x).txn = s.txn := by cases s; rfl
@[simp] theorem setLink_eng (s : State) (p : Nat) (x : LinkSt) : (setLink s p x).eng = s.eng := by cases s; rfl
@[simp] theorem setLink_tp (s : State) (p : Nat) (x : LinkSt) : (setLink s p x).tp = s.tp := by cases s; rfl
@[simp] theorem setLink_mt (s : State) (p : Nat) (x : LinkSt) : (setLink s p x).mt = s.mt := by cases s; rfl
@[simp] theorem setLink_xl (s : State) (p : Nat) (x : LinkSt) : (setLink s p x).xl = s.xl := by cases s; rfl
@[simp] theorem setLink_mr (s : State) (p : Nat) (x : LinkSt) : (setLink s p x).mr = s.mr := by cases s; rfl
@[simp] theorem setLink_sc (s : State) (p : Nat) (x : LinkSt) : (setLink s p x).sc = s.sc := by cases s; rfl
@[simp] theorem setLink_kn (s : State) (p : Nat) (x : LinkSt) : (setLink s p x).kn = s.kn := by cases s; rfl
@[simp] theorem setLink_at' (s : State) (p : Nat) (x : LinkSt) : (setLink s p x).at' = s.at' := by cases s; rfl
@[simp] theorem setLink_cl (s : State) (p : Nat) (x : LinkSt) : (setLink s p x).cl = s.cl := by cases s; rfl
@[simp] theorem setLink_gw (s : State) (p : Nat) (x : LinkSt) : (setLink s p x).gw = s.gw := by cases s; rfl
@[simp] theorem setLink_fc (s : State) (p : Nat) (x : LinkSt) : (setLink s p x).fc = s.fc := by cases s; rfl
@[simp] theorem setLink_fw (s : State) (p : Nat) (x : LinkSt) : (setLink s p x).fw = s.fw := by cases s; rfl
@[simp] theorem setLink_pw (s : State) (p : Nat) (x : LinkSt) : (setLink s p x).pw = s.pw := by cases s; rfl
@[simp] theorem setLink_cage (s : State) (p : Nat) (x : LinkSt) : (setLink s p x).cage = s.cage := by cases s; rfl
@[simp] theorem setLink_pm (s : State) (p : Nat) (x : LinkSt) : (setLink s p x).pm = s.pm := by cases s; rfl
@[simp] theorem setLink_testReq (s : State) (p : Nat) (x : LinkSt) : (setLink s p x).testReq = s.testReq := by cases s; rfl
@[simp] theorem setLink_notices (s : State) (p : Nat) (x : LinkSt) : (setLink s p x).notices = s.notices := by cases s; rfl
@[simp] theorem csrRaw_setLink (s : State) (p : Nat) (x : LinkSt) (key : Nat) : csrRaw (setLink s p x) key = csrRaw s key := by simp only [csrRaw, setLink_csr]
@[simp] theorem rd_setLink (s : State) (p : Nat) (x : LinkSt) (fld : Fld) (a b : Nat) : rd (setLink s p x) fld a b = rd s fld a b := by simp only [rd, csrRaw_setLink]
@[simp] theorem rdb_setLink (s : State) (p : Nat) (x : LinkSt) (fld : Fld) (a b : Nat) : rdb (setLink s p x) fld a b = rdb s fld a b := by simp only [rdb, rd_setLink]

/-! setCage -/

@[simp] theorem setCage_pending (s : State) (c : Nat) (x : CageSt) : (setCage s c x).pending = s.pending := by cases s; rfl
@[simp] theorem setCage_csr (s : State) (c : Nat) (x : CageSt) : (setCage s c x).csr = s.csr := by cases s; rfl
@[simp] theorem setCage_out (s : State) (c : Nat) (x : CageSt) : (setCage s c x).out = s.out := by cases s; rfl
@[simp] theorem setCage_free (s : State) (c : Nat) (x : CageSt) : (setCage s c x).free = s.free := by cases s; rfl
@[simp] theorem setCage_timeNs (s : State) (c : Nat) (x : CageSt) : (setCage s c x).timeNs = s.timeNs := by cases s; rfl
@[simp] theorem setCage_lanes (s : State) (c : Nat) (x : CageSt) : (setCage s c x).lanes = s.lanes := by cases s; rfl
@[simp] theorem setCage_spares (s : State) (c : Nat) (x : CageSt) : (setCage s c x).spares = s.spares := by cases s; rfl
@[simp] theorem setCage_links (s : State) (c : Nat) (x : CageSt) : (setCage s c x).links = s.links := by cases s; rfl
@[simp] theorem setCage_sw (s : State) (c : Nat) (x : CageSt) : (setCage s c x).sw = s.sw := by cases s; rfl
@[simp] theorem setCage_rt (s : State) (c : Nat) (x : CageSt) : (setCage s c x).rt = s.rt := by cases s; rfl
@[simp] theorem setCage_hi (s : State) (c : Nat) (x : CageSt) : (setCage s c x).hi = s.hi := by cases s; rfl
@[simp] theorem setCage_txn (s : State) (c : Nat) (x : CageSt) : (setCage s c x).txn = s.txn := by cases s; rfl
@[simp] theorem setCage_eng (s : State) (c : Nat) (x : CageSt) : (setCage s c x).eng = s.eng := by cases s; rfl
@[simp] theorem setCage_tp (s : State) (c : Nat) (x : CageSt) : (setCage s c x).tp = s.tp := by cases s; rfl
@[simp] theorem setCage_mt (s : State) (c : Nat) (x : CageSt) : (setCage s c x).mt = s.mt := by cases s; rfl
@[simp] theorem setCage_xl (s : State) (c : Nat) (x : CageSt) : (setCage s c x).xl = s.xl := by cases s; rfl
@[simp] theorem setCage_mr (s : State) (c : Nat) (x : CageSt) : (setCage s c x).mr = s.mr := by cases s; rfl
@[simp] theorem setCage_sc (s : State) (c : Nat) (x : CageSt) : (setCage s c x).sc = s.sc := by cases s; rfl
@[simp] theorem setCage_kn (s : State) (c : Nat) (x : CageSt) : (setCage s c x).kn = s.kn := by cases s; rfl
@[simp] theorem setCage_at' (s : State) (c : Nat) (x : CageSt) : (setCage s c x).at' = s.at' := by cases s; rfl
@[simp] theorem setCage_cl (s : State) (c : Nat) (x : CageSt) : (setCage s c x).cl = s.cl := by cases s; rfl
@[simp] theorem setCage_gw (s : State) (c : Nat) (x : CageSt) : (setCage s c x).gw = s.gw := by cases s; rfl
@[simp] theorem setCage_fc (s : State) (c : Nat) (x : CageSt) : (setCage s c x).fc = s.fc := by cases s; rfl
@[simp] theorem setCage_fw (s : State) (c : Nat) (x : CageSt) : (setCage s c x).fw = s.fw := by cases s; rfl
@[simp] theorem setCage_pw (s : State) (c : Nat) (x : CageSt) : (setCage s c x).pw = s.pw := by cases s; rfl
@[simp] theorem setCage_cage (s : State) (c : Nat) (x : CageSt) : (setCage s c x).cage = mset s.cage c x := rfl
@[simp] theorem setCage_pm (s : State) (c : Nat) (x : CageSt) : (setCage s c x).pm = s.pm := by cases s; rfl
@[simp] theorem setCage_testReq (s : State) (c : Nat) (x : CageSt) : (setCage s c x).testReq = s.testReq := by cases s; rfl
@[simp] theorem setCage_notices (s : State) (c : Nat) (x : CageSt) : (setCage s c x).notices = s.notices := by cases s; rfl
@[simp] theorem csrRaw_setCage (s : State) (c : Nat) (x : CageSt) (key : Nat) : csrRaw (setCage s c x) key = csrRaw s key := by simp only [csrRaw, setCage_csr]
@[simp] theorem rd_setCage (s : State) (c : Nat) (x : CageSt) (fld : Fld) (a b : Nat) : rd (setCage s c x) fld a b = rd s fld a b := by simp only [rd, csrRaw_setCage]
@[simp] theorem rdb_setCage (s : State) (c : Nat) (x : CageSt) (fld : Fld) (a b : Nat) : rdb (setCage s c x) fld a b = rdb s fld a b := by simp only [rdb, rd_setCage]

/-! setWq -/

@[simp] theorem setWq_pending (s : State) (n : Nat) (x : Wq) : (setWq s n x).pending = s.pending := by cases s; rfl
@[simp] theorem setWq_csr (s : State) (n : Nat) (x : Wq) : (setWq s n x).csr = s.csr := by cases s; rfl
@[simp] theorem setWq_out (s : State) (n : Nat) (x : Wq) : (setWq s n x).out = s.out := by cases s; rfl
@[simp] theorem setWq_free (s : State) (n : Nat) (x : Wq) : (setWq s n x).free = s.free := by cases s; rfl
@[simp] theorem setWq_timeNs (s : State) (n : Nat) (x : Wq) : (setWq s n x).timeNs = s.timeNs := by cases s; rfl
@[simp] theorem setWq_lanes (s : State) (n : Nat) (x : Wq) : (setWq s n x).lanes = s.lanes := by cases s; rfl
@[simp] theorem setWq_spares (s : State) (n : Nat) (x : Wq) : (setWq s n x).spares = s.spares := by cases s; rfl
@[simp] theorem setWq_links (s : State) (n : Nat) (x : Wq) : (setWq s n x).links = s.links := by cases s; rfl
@[simp] theorem setWq_sw (s : State) (n : Nat) (x : Wq) : (setWq s n x).sw = s.sw := by cases s; rfl
@[simp] theorem setWq_rt (s : State) (n : Nat) (x : Wq) : (setWq s n x).rt = s.rt := by cases s; rfl
@[simp] theorem setWq_txn (s : State) (n : Nat) (x : Wq) : (setWq s n x).txn = s.txn := by cases s; rfl
@[simp] theorem setWq_eng (s : State) (n : Nat) (x : Wq) : (setWq s n x).eng = s.eng := by cases s; rfl
@[simp] theorem setWq_tp (s : State) (n : Nat) (x : Wq) : (setWq s n x).tp = s.tp := by cases s; rfl
@[simp] theorem setWq_mt (s : State) (n : Nat) (x : Wq) : (setWq s n x).mt = s.mt := by cases s; rfl
@[simp] theorem setWq_xl (s : State) (n : Nat) (x : Wq) : (setWq s n x).xl = s.xl := by cases s; rfl
@[simp] theorem setWq_mr (s : State) (n : Nat) (x : Wq) : (setWq s n x).mr = s.mr := by cases s; rfl
@[simp] theorem setWq_sc (s : State) (n : Nat) (x : Wq) : (setWq s n x).sc = s.sc := by cases s; rfl
@[simp] theorem setWq_kn (s : State) (n : Nat) (x : Wq) : (setWq s n x).kn = s.kn := by cases s; rfl
@[simp] theorem setWq_at' (s : State) (n : Nat) (x : Wq) : (setWq s n x).at' = s.at' := by cases s; rfl
@[simp] theorem setWq_cl (s : State) (n : Nat) (x : Wq) : (setWq s n x).cl = s.cl := by cases s; rfl
@[simp] theorem setWq_gw (s : State) (n : Nat) (x : Wq) : (setWq s n x).gw = s.gw := by cases s; rfl
@[simp] theorem setWq_fc (s : State) (n : Nat) (x : Wq) : (setWq s n x).fc = s.fc := by cases s; rfl
@[simp] theorem setWq_fw (s : State) (n : Nat) (x : Wq) : (setWq s n x).fw = s.fw := by cases s; rfl
@[simp] theorem setWq_pw (s : State) (n : Nat) (x : Wq) : (setWq s n x).pw = s.pw := by cases s; rfl
@[simp] theorem setWq_cage (s : State) (n : Nat) (x : Wq) : (setWq s n x).cage = s.cage := by cases s; rfl
@[simp] theorem setWq_pm (s : State) (n : Nat) (x : Wq) : (setWq s n x).pm = s.pm := by cases s; rfl
@[simp] theorem setWq_testReq (s : State) (n : Nat) (x : Wq) : (setWq s n x).testReq = s.testReq := by cases s; rfl
@[simp] theorem setWq_notices (s : State) (n : Nat) (x : Wq) : (setWq s n x).notices = s.notices := by cases s; rfl
@[simp] theorem csrRaw_setWq (s : State) (n : Nat) (x : Wq) (key : Nat) : csrRaw (setWq s n x) key = csrRaw s key := by simp only [csrRaw, setWq_csr]
@[simp] theorem rd_setWq (s : State) (n : Nat) (x : Wq) (fld : Fld) (a b : Nat) : rd (setWq s n x) fld a b = rd s fld a b := by simp only [rd, csrRaw_setWq]
@[simp] theorem rdb_setWq (s : State) (n : Nat) (x : Wq) (fld : Fld) (a b : Nat) : rdb (setWq s n x) fld a b = rdb s fld a b := by simp only [rdb, rd_setWq]

/-! setCq -/

@[simp] theorem setCq_pending (s : State) (n : Nat) (x : Cq) : (setCq s n x).pending = s.pending := by cases s; rfl
@[simp] theorem setCq_csr (s : State) (n : Nat) (x : Cq) : (setCq s n x).csr = s.csr := by cases s; rfl
@[simp] theorem setCq_out (s : State) (n : Nat) (x : Cq) : (setCq s n x).out = s.out := by cases s; rfl
@[simp] theorem setCq_free (s : State) (n : Nat) (x : Cq) : (setCq s n x).free = s.free := by cases s; rfl
@[simp] theorem setCq_timeNs (s : State) (n : Nat) (x : Cq) : (setCq s n x).timeNs = s.timeNs := by cases s; rfl
@[simp] theorem setCq_lanes (s : State) (n : Nat) (x : Cq) : (setCq s n x).lanes = s.lanes := by cases s; rfl
@[simp] theorem setCq_spares (s : State) (n : Nat) (x : Cq) : (setCq s n x).spares = s.spares := by cases s; rfl
@[simp] theorem setCq_links (s : State) (n : Nat) (x : Cq) : (setCq s n x).links = s.links := by cases s; rfl
@[simp] theorem setCq_sw (s : State) (n : Nat) (x : Cq) : (setCq s n x).sw = s.sw := by cases s; rfl
@[simp] theorem setCq_rt (s : State) (n : Nat) (x : Cq) : (setCq s n x).rt = s.rt := by cases s; rfl
@[simp] theorem setCq_txn (s : State) (n : Nat) (x : Cq) : (setCq s n x).txn = s.txn := by cases s; rfl
@[simp] theorem setCq_eng (s : State) (n : Nat) (x : Cq) : (setCq s n x).eng = s.eng := by cases s; rfl
@[simp] theorem setCq_tp (s : State) (n : Nat) (x : Cq) : (setCq s n x).tp = s.tp := by cases s; rfl
@[simp] theorem setCq_mt (s : State) (n : Nat) (x : Cq) : (setCq s n x).mt = s.mt := by cases s; rfl
@[simp] theorem setCq_xl (s : State) (n : Nat) (x : Cq) : (setCq s n x).xl = s.xl := by cases s; rfl
@[simp] theorem setCq_mr (s : State) (n : Nat) (x : Cq) : (setCq s n x).mr = s.mr := by cases s; rfl
@[simp] theorem setCq_sc (s : State) (n : Nat) (x : Cq) : (setCq s n x).sc = s.sc := by cases s; rfl
@[simp] theorem setCq_kn (s : State) (n : Nat) (x : Cq) : (setCq s n x).kn = s.kn := by cases s; rfl
@[simp] theorem setCq_at' (s : State) (n : Nat) (x : Cq) : (setCq s n x).at' = s.at' := by cases s; rfl
@[simp] theorem setCq_cl (s : State) (n : Nat) (x : Cq) : (setCq s n x).cl = s.cl := by cases s; rfl
@[simp] theorem setCq_gw (s : State) (n : Nat) (x : Cq) : (setCq s n x).gw = s.gw := by cases s; rfl
@[simp] theorem setCq_fc (s : State) (n : Nat) (x : Cq) : (setCq s n x).fc = s.fc := by cases s; rfl
@[simp] theorem setCq_fw (s : State) (n : Nat) (x : Cq) : (setCq s n x).fw = s.fw := by cases s; rfl
@[simp] theorem setCq_pw (s : State) (n : Nat) (x : Cq) : (setCq s n x).pw = s.pw := by cases s; rfl
@[simp] theorem setCq_cage (s : State) (n : Nat) (x : Cq) : (setCq s n x).cage = s.cage := by cases s; rfl
@[simp] theorem setCq_pm (s : State) (n : Nat) (x : Cq) : (setCq s n x).pm = s.pm := by cases s; rfl
@[simp] theorem setCq_testReq (s : State) (n : Nat) (x : Cq) : (setCq s n x).testReq = s.testReq := by cases s; rfl
@[simp] theorem setCq_notices (s : State) (n : Nat) (x : Cq) : (setCq s n x).notices = s.notices := by cases s; rfl
@[simp] theorem csrRaw_setCq (s : State) (n : Nat) (x : Cq) (key : Nat) : csrRaw (setCq s n x) key = csrRaw s key := by simp only [csrRaw, setCq_csr]
@[simp] theorem rd_setCq (s : State) (n : Nat) (x : Cq) (fld : Fld) (a b : Nat) : rd (setCq s n x) fld a b = rd s fld a b := by simp only [rd, csrRaw_setCq]
@[simp] theorem rdb_setCq (s : State) (n : Nat) (x : Cq) (fld : Fld) (a b : Nat) : rdb (setCq s n x) fld a b = rdb s fld a b := by simp only [rdb, rd_setCq]

/-! setRecv -/

@[simp] theorem setRecv_pending (s : State) (n : Nat) (x : Recv) : (setRecv s n x).pending = s.pending := by cases s; rfl
@[simp] theorem setRecv_csr (s : State) (n : Nat) (x : Recv) : (setRecv s n x).csr = s.csr := by cases s; rfl
@[simp] theorem setRecv_out (s : State) (n : Nat) (x : Recv) : (setRecv s n x).out = s.out := by cases s; rfl
@[simp] theorem setRecv_free (s : State) (n : Nat) (x : Recv) : (setRecv s n x).free = s.free := by cases s; rfl
@[simp] theorem setRecv_timeNs (s : State) (n : Nat) (x : Recv) : (setRecv s n x).timeNs = s.timeNs := by cases s; rfl
@[simp] theorem setRecv_lanes (s : State) (n : Nat) (x : Recv) : (setRecv s n x).lanes = s.lanes := by cases s; rfl
@[simp] theorem setRecv_spares (s : State) (n : Nat) (x : Recv) : (setRecv s n x).spares = s.spares := by cases s; rfl
@[simp] theorem setRecv_links (s : State) (n : Nat) (x : Recv) : (setRecv s n x).links = s.links := by cases s; rfl
@[simp] theorem setRecv_sw (s : State) (n : Nat) (x : Recv) : (setRecv s n x).sw = s.sw := by cases s; rfl
@[simp] theorem setRecv_rt (s : State) (n : Nat) (x : Recv) : (setRecv s n x).rt = s.rt := by cases s; rfl
@[simp] theorem setRecv_hi (s : State) (n : Nat) (x : Recv) : (setRecv s n x).hi = s.hi := by cases s; rfl
@[simp] theorem setRecv_txn (s : State) (n : Nat) (x : Recv) : (setRecv s n x).txn = s.txn := by cases s; rfl
@[simp] theorem setRecv_eng (s : State) (n : Nat) (x : Recv) : (setRecv s n x).eng = s.eng := by cases s; rfl
@[simp] theorem setRecv_tp (s : State) (n : Nat) (x : Recv) : (setRecv s n x).tp = s.tp := by cases s; rfl
@[simp] theorem setRecv_xl (s : State) (n : Nat) (x : Recv) : (setRecv s n x).xl = s.xl := by cases s; rfl
@[simp] theorem setRecv_mr (s : State) (n : Nat) (x : Recv) : (setRecv s n x).mr = s.mr := by cases s; rfl
@[simp] theorem setRecv_sc (s : State) (n : Nat) (x : Recv) : (setRecv s n x).sc = s.sc := by cases s; rfl
@[simp] theorem setRecv_kn (s : State) (n : Nat) (x : Recv) : (setRecv s n x).kn = s.kn := by cases s; rfl
@[simp] theorem setRecv_at' (s : State) (n : Nat) (x : Recv) : (setRecv s n x).at' = s.at' := by cases s; rfl
@[simp] theorem setRecv_cl (s : State) (n : Nat) (x : Recv) : (setRecv s n x).cl = s.cl := by cases s; rfl
@[simp] theorem setRecv_gw (s : State) (n : Nat) (x : Recv) : (setRecv s n x).gw = s.gw := by cases s; rfl
@[simp] theorem setRecv_fc (s : State) (n : Nat) (x : Recv) : (setRecv s n x).fc = s.fc := by cases s; rfl
@[simp] theorem setRecv_fw (s : State) (n : Nat) (x : Recv) : (setRecv s n x).fw = s.fw := by cases s; rfl
@[simp] theorem setRecv_pw (s : State) (n : Nat) (x : Recv) : (setRecv s n x).pw = s.pw := by cases s; rfl
@[simp] theorem setRecv_cage (s : State) (n : Nat) (x : Recv) : (setRecv s n x).cage = s.cage := by cases s; rfl
@[simp] theorem setRecv_pm (s : State) (n : Nat) (x : Recv) : (setRecv s n x).pm = s.pm := by cases s; rfl
@[simp] theorem setRecv_testReq (s : State) (n : Nat) (x : Recv) : (setRecv s n x).testReq = s.testReq := by cases s; rfl
@[simp] theorem setRecv_notices (s : State) (n : Nat) (x : Recv) : (setRecv s n x).notices = s.notices := by cases s; rfl
@[simp] theorem csrRaw_setRecv (s : State) (n : Nat) (x : Recv) (key : Nat) : csrRaw (setRecv s n x) key = csrRaw s key := by simp only [csrRaw, setRecv_csr]
@[simp] theorem rd_setRecv (s : State) (n : Nat) (x : Recv) (fld : Fld) (a b : Nat) : rd (setRecv s n x) fld a b = rd s fld a b := by simp only [rd, csrRaw_setRecv]
@[simp] theorem rdb_setRecv (s : State) (n : Nat) (x : Recv) (fld : Fld) (a b : Nat) : rdb (setRecv s n x) fld a b = rdb s fld a b := by simp only [rdb, rd_setRecv]

/-! setAcc -/

@[simp] theorem setAcc_pending (s : State) (n : Nat) (x : GwAcc) : (setAcc s n x).pending = s.pending := by cases s; rfl
@[simp] theorem setAcc_csr (s : State) (n : Nat) (x : GwAcc) : (setAcc s n x).csr = s.csr := by cases s; rfl
@[simp] theorem setAcc_out (s : State) (n : Nat) (x : GwAcc) : (setAcc s n x).out = s.out := by cases s; rfl
@[simp] theorem setAcc_free (s : State) (n : Nat) (x : GwAcc) : (setAcc s n x).free = s.free := by cases s; rfl
@[simp] theorem setAcc_timeNs (s : State) (n : Nat) (x : GwAcc) : (setAcc s n x).timeNs = s.timeNs := by cases s; rfl
@[simp] theorem setAcc_lanes (s : State) (n : Nat) (x : GwAcc) : (setAcc s n x).lanes = s.lanes := by cases s; rfl
@[simp] theorem setAcc_spares (s : State) (n : Nat) (x : GwAcc) : (setAcc s n x).spares = s.spares := by cases s; rfl
@[simp] theorem setAcc_links (s : State) (n : Nat) (x : GwAcc) : (setAcc s n x).links = s.links := by cases s; rfl
@[simp] theorem setAcc_sw (s : State) (n : Nat) (x : GwAcc) : (setAcc s n x).sw = s.sw := by cases s; rfl
@[simp] theorem setAcc_rt (s : State) (n : Nat) (x : GwAcc) : (setAcc s n x).rt = s.rt := by cases s; rfl
@[simp] theorem setAcc_hi (s : State) (n : Nat) (x : GwAcc) : (setAcc s n x).hi = s.hi := by cases s; rfl
@[simp] theorem setAcc_txn (s : State) (n : Nat) (x : GwAcc) : (setAcc s n x).txn = s.txn := by cases s; rfl
@[simp] theorem setAcc_eng (s : State) (n : Nat) (x : GwAcc) : (setAcc s n x).eng = s.eng := by cases s; rfl
@[simp] theorem setAcc_tp (s : State) (n : Nat) (x : GwAcc) : (setAcc s n x).tp = s.tp := by cases s; rfl
@[simp] theorem setAcc_mt (s : State) (n : Nat) (x : GwAcc) : (setAcc s n x).mt = s.mt := by cases s; rfl
@[simp] theorem setAcc_xl (s : State) (n : Nat) (x : GwAcc) : (setAcc s n x).xl = s.xl := by cases s; rfl
@[simp] theorem setAcc_mr (s : State) (n : Nat) (x : GwAcc) : (setAcc s n x).mr = s.mr := by cases s; rfl
@[simp] theorem setAcc_sc (s : State) (n : Nat) (x : GwAcc) : (setAcc s n x).sc = s.sc := by cases s; rfl
@[simp] theorem setAcc_kn (s : State) (n : Nat) (x : GwAcc) : (setAcc s n x).kn = s.kn := by cases s; rfl
@[simp] theorem setAcc_at' (s : State) (n : Nat) (x : GwAcc) : (setAcc s n x).at' = s.at' := by cases s; rfl
@[simp] theorem setAcc_cl (s : State) (n : Nat) (x : GwAcc) : (setAcc s n x).cl = s.cl := by cases s; rfl
@[simp] theorem setAcc_fc (s : State) (n : Nat) (x : GwAcc) : (setAcc s n x).fc = s.fc := by cases s; rfl
@[simp] theorem setAcc_fw (s : State) (n : Nat) (x : GwAcc) : (setAcc s n x).fw = s.fw := by cases s; rfl
@[simp] theorem setAcc_pw (s : State) (n : Nat) (x : GwAcc) : (setAcc s n x).pw = s.pw := by cases s; rfl
@[simp] theorem setAcc_cage (s : State) (n : Nat) (x : GwAcc) : (setAcc s n x).cage = s.cage := by cases s; rfl
@[simp] theorem setAcc_pm (s : State) (n : Nat) (x : GwAcc) : (setAcc s n x).pm = s.pm := by cases s; rfl
@[simp] theorem setAcc_testReq (s : State) (n : Nat) (x : GwAcc) : (setAcc s n x).testReq = s.testReq := by cases s; rfl
@[simp] theorem setAcc_notices (s : State) (n : Nat) (x : GwAcc) : (setAcc s n x).notices = s.notices := by cases s; rfl
@[simp] theorem csrRaw_setAcc (s : State) (n : Nat) (x : GwAcc) (key : Nat) : csrRaw (setAcc s n x) key = csrRaw s key := by simp only [csrRaw, setAcc_csr]
@[simp] theorem rd_setAcc (s : State) (n : Nat) (x : GwAcc) (fld : Fld) (a b : Nat) : rd (setAcc s n x) fld a b = rd s fld a b := by simp only [rd, csrRaw_setAcc]
@[simp] theorem rdb_setAcc (s : State) (n : Nat) (x : GwAcc) (fld : Fld) (a b : Nat) : rdb (setAcc s n x) fld a b = rdb s fld a b := by simp only [rdb, rd_setAcc]

/-! setSlot -/

@[simp] theorem setSlot_pending (s : State) (x : Slot) : (setSlot s x).pending = s.pending := by cases s; rfl
@[simp] theorem setSlot_csr (s : State) (x : Slot) : (setSlot s x).csr = s.csr := by cases s; rfl
@[simp] theorem setSlot_out (s : State) (x : Slot) : (setSlot s x).out = s.out := by cases s; rfl
@[simp] theorem setSlot_free (s : State) (x : Slot) : (setSlot s x).free = s.free := by cases s; rfl
@[simp] theorem setSlot_timeNs (s : State) (x : Slot) : (setSlot s x).timeNs = s.timeNs := by cases s; rfl
@[simp] theorem setSlot_lanes (s : State) (x : Slot) : (setSlot s x).lanes = s.lanes := by cases s; rfl
@[simp] theorem setSlot_spares (s : State) (x : Slot) : (setSlot s x).spares = s.spares := by cases s; rfl
@[simp] theorem setSlot_links (s : State) (x : Slot) : (setSlot s x).links = s.links := by cases s; rfl
@[simp] theorem setSlot_sw (s : State) (x : Slot) : (setSlot s x).sw = s.sw := by cases s; rfl
@[simp] theorem setSlot_rt (s : State) (x : Slot) : (setSlot s x).rt = s.rt := by cases s; rfl
@[simp] theorem setSlot_hi (s : State) (x : Slot) : (setSlot s x).hi = s.hi := by cases s; rfl
@[simp] theorem setSlot_txn (s : State) (x : Slot) : (setSlot s x).txn = s.txn := by cases s; rfl
@[simp] theorem setSlot_eng (s : State) (x : Slot) : (setSlot s x).eng = s.eng := by cases s; rfl
@[simp] theorem setSlot_mt (s : State) (x : Slot) : (setSlot s x).mt = s.mt := by cases s; rfl
@[simp] theorem setSlot_xl (s : State) (x : Slot) : (setSlot s x).xl = s.xl := by cases s; rfl
@[simp] theorem setSlot_mr (s : State) (x : Slot) : (setSlot s x).mr = s.mr := by cases s; rfl
@[simp] theorem setSlot_sc (s : State) (x : Slot) : (setSlot s x).sc = s.sc := by cases s; rfl
@[simp] theorem setSlot_kn (s : State) (x : Slot) : (setSlot s x).kn = s.kn := by cases s; rfl
@[simp] theorem setSlot_at' (s : State) (x : Slot) : (setSlot s x).at' = s.at' := by cases s; rfl
@[simp] theorem setSlot_cl (s : State) (x : Slot) : (setSlot s x).cl = s.cl := by cases s; rfl
@[simp] theorem setSlot_gw (s : State) (x : Slot) : (setSlot s x).gw = s.gw := by cases s; rfl
@[simp] theorem setSlot_fc (s : State) (x : Slot) : (setSlot s x).fc = s.fc := by cases s; rfl
@[simp] theorem setSlot_fw (s : State) (x : Slot) : (setSlot s x).fw = s.fw := by cases s; rfl
@[simp] theorem setSlot_pw (s : State) (x : Slot) : (setSlot s x).pw = s.pw := by cases s; rfl
@[simp] theorem setSlot_cage (s : State) (x : Slot) : (setSlot s x).cage = s.cage := by cases s; rfl
@[simp] theorem setSlot_pm (s : State) (x : Slot) : (setSlot s x).pm = s.pm := by cases s; rfl
@[simp] theorem setSlot_testReq (s : State) (x : Slot) : (setSlot s x).testReq = s.testReq := by cases s; rfl
@[simp] theorem setSlot_notices (s : State) (x : Slot) : (setSlot s x).notices = s.notices := by cases s; rfl
@[simp] theorem csrRaw_setSlot (s : State) (x : Slot) (key : Nat) : csrRaw (setSlot s x) key = csrRaw s key := by simp only [csrRaw, setSlot_csr]
@[simp] theorem rd_setSlot (s : State) (x : Slot) (fld : Fld) (a b : Nat) : rd (setSlot s x) fld a b = rd s fld a b := by simp only [rd, csrRaw_setSlot]
@[simp] theorem rdb_setSlot (s : State) (x : Slot) (fld : Fld) (a b : Nat) : rdb (setSlot s x) fld a b = rdb s fld a b := by simp only [rdb, rd_setSlot]

/-! setRec -/

@[simp] theorem setRec_pending (s : State) (n : Nat) (x : Rec) : (setRec s n x).pending = s.pending := by cases s; rfl
@[simp] theorem setRec_csr (s : State) (n : Nat) (x : Rec) : (setRec s n x).csr = s.csr := by cases s; rfl
@[simp] theorem setRec_out (s : State) (n : Nat) (x : Rec) : (setRec s n x).out = s.out := by cases s; rfl
@[simp] theorem setRec_free (s : State) (n : Nat) (x : Rec) : (setRec s n x).free = s.free := by cases s; rfl
@[simp] theorem setRec_timeNs (s : State) (n : Nat) (x : Rec) : (setRec s n x).timeNs = s.timeNs := by cases s; rfl
@[simp] theorem setRec_lanes (s : State) (n : Nat) (x : Rec) : (setRec s n x).lanes = s.lanes := by cases s; rfl
@[simp] theorem setRec_spares (s : State) (n : Nat) (x : Rec) : (setRec s n x).spares = s.spares := by cases s; rfl
@[simp] theorem setRec_links (s : State) (n : Nat) (x : Rec) : (setRec s n x).links = s.links := by cases s; rfl
@[simp] theorem setRec_sw (s : State) (n : Nat) (x : Rec) : (setRec s n x).sw = s.sw := by cases s; rfl
@[simp] theorem setRec_rt (s : State) (n : Nat) (x : Rec) : (setRec s n x).rt = s.rt := by cases s; rfl
@[simp] theorem setRec_hi (s : State) (n : Nat) (x : Rec) : (setRec s n x).hi = s.hi := by cases s; rfl
@[simp] theorem setRec_txn (s : State) (n : Nat) (x : Rec) : (setRec s n x).txn = s.txn := by cases s; rfl
@[simp] theorem setRec_eng (s : State) (n : Nat) (x : Rec) : (setRec s n x).eng = s.eng := by cases s; rfl
@[simp] theorem setRec_mt (s : State) (n : Nat) (x : Rec) : (setRec s n x).mt = s.mt := by cases s; rfl
@[simp] theorem setRec_xl (s : State) (n : Nat) (x : Rec) : (setRec s n x).xl = s.xl := by cases s; rfl
@[simp] theorem setRec_mr (s : State) (n : Nat) (x : Rec) : (setRec s n x).mr = s.mr := by cases s; rfl
@[simp] theorem setRec_sc (s : State) (n : Nat) (x : Rec) : (setRec s n x).sc = s.sc := by cases s; rfl
@[simp] theorem setRec_kn (s : State) (n : Nat) (x : Rec) : (setRec s n x).kn = s.kn := by cases s; rfl
@[simp] theorem setRec_at' (s : State) (n : Nat) (x : Rec) : (setRec s n x).at' = s.at' := by cases s; rfl
@[simp] theorem setRec_cl (s : State) (n : Nat) (x : Rec) : (setRec s n x).cl = s.cl := by cases s; rfl
@[simp] theorem setRec_gw (s : State) (n : Nat) (x : Rec) : (setRec s n x).gw = s.gw := by cases s; rfl
@[simp] theorem setRec_fc (s : State) (n : Nat) (x : Rec) : (setRec s n x).fc = s.fc := by cases s; rfl
@[simp] theorem setRec_fw (s : State) (n : Nat) (x : Rec) : (setRec s n x).fw = s.fw := by cases s; rfl
@[simp] theorem setRec_pw (s : State) (n : Nat) (x : Rec) : (setRec s n x).pw = s.pw := by cases s; rfl
@[simp] theorem setRec_cage (s : State) (n : Nat) (x : Rec) : (setRec s n x).cage = s.cage := by cases s; rfl
@[simp] theorem setRec_pm (s : State) (n : Nat) (x : Rec) : (setRec s n x).pm = s.pm := by cases s; rfl
@[simp] theorem setRec_testReq (s : State) (n : Nat) (x : Rec) : (setRec s n x).testReq = s.testReq := by cases s; rfl
@[simp] theorem setRec_notices (s : State) (n : Nat) (x : Rec) : (setRec s n x).notices = s.notices := by cases s; rfl
@[simp] theorem csrRaw_setRec (s : State) (n : Nat) (x : Rec) (key : Nat) : csrRaw (setRec s n x) key = csrRaw s key := by simp only [csrRaw, setRec_csr]
@[simp] theorem rd_setRec (s : State) (n : Nat) (x : Rec) (fld : Fld) (a b : Nat) : rd (setRec s n x) fld a b = rd s fld a b := by simp only [rd, csrRaw_setRec]
@[simp] theorem rdb_setRec (s : State) (n : Nat) (x : Rec) (fld : Fld) (a b : Nat) : rdb (setRec s n x) fld a b = rdb s fld a b := by simp only [rdb, rd_setRec]

/-! setTile -/

@[simp] theorem setTile_pending (s : State) (n : Nat) (x : TileSt) : (setTile s n x).pending = s.pending := by cases s; rfl
@[simp] theorem setTile_csr (s : State) (n : Nat) (x : TileSt) : (setTile s n x).csr = s.csr := by cases s; rfl
@[simp] theorem setTile_out (s : State) (n : Nat) (x : TileSt) : (setTile s n x).out = s.out := by cases s; rfl
@[simp] theorem setTile_free (s : State) (n : Nat) (x : TileSt) : (setTile s n x).free = s.free := by cases s; rfl
@[simp] theorem setTile_timeNs (s : State) (n : Nat) (x : TileSt) : (setTile s n x).timeNs = s.timeNs := by cases s; rfl
@[simp] theorem setTile_lanes (s : State) (n : Nat) (x : TileSt) : (setTile s n x).lanes = s.lanes := by cases s; rfl
@[simp] theorem setTile_spares (s : State) (n : Nat) (x : TileSt) : (setTile s n x).spares = s.spares := by cases s; rfl
@[simp] theorem setTile_links (s : State) (n : Nat) (x : TileSt) : (setTile s n x).links = s.links := by cases s; rfl
@[simp] theorem setTile_rt (s : State) (n : Nat) (x : TileSt) : (setTile s n x).rt = s.rt := by cases s; rfl
@[simp] theorem setTile_hi (s : State) (n : Nat) (x : TileSt) : (setTile s n x).hi = s.hi := by cases s; rfl
@[simp] theorem setTile_txn (s : State) (n : Nat) (x : TileSt) : (setTile s n x).txn = s.txn := by cases s; rfl
@[simp] theorem setTile_eng (s : State) (n : Nat) (x : TileSt) : (setTile s n x).eng = s.eng := by cases s; rfl
@[simp] theorem setTile_tp (s : State) (n : Nat) (x : TileSt) : (setTile s n x).tp = s.tp := by cases s; rfl
@[simp] theorem setTile_mt (s : State) (n : Nat) (x : TileSt) : (setTile s n x).mt = s.mt := by cases s; rfl
@[simp] theorem setTile_xl (s : State) (n : Nat) (x : TileSt) : (setTile s n x).xl = s.xl := by cases s; rfl
@[simp] theorem setTile_mr (s : State) (n : Nat) (x : TileSt) : (setTile s n x).mr = s.mr := by cases s; rfl
@[simp] theorem setTile_sc (s : State) (n : Nat) (x : TileSt) : (setTile s n x).sc = s.sc := by cases s; rfl
@[simp] theorem setTile_kn (s : State) (n : Nat) (x : TileSt) : (setTile s n x).kn = s.kn := by cases s; rfl
@[simp] theorem setTile_at' (s : State) (n : Nat) (x : TileSt) : (setTile s n x).at' = s.at' := by cases s; rfl
@[simp] theorem setTile_cl (s : State) (n : Nat) (x : TileSt) : (setTile s n x).cl = s.cl := by cases s; rfl
@[simp] theorem setTile_gw (s : State) (n : Nat) (x : TileSt) : (setTile s n x).gw = s.gw := by cases s; rfl
@[simp] theorem setTile_fc (s : State) (n : Nat) (x : TileSt) : (setTile s n x).fc = s.fc := by cases s; rfl
@[simp] theorem setTile_fw (s : State) (n : Nat) (x : TileSt) : (setTile s n x).fw = s.fw := by cases s; rfl
@[simp] theorem setTile_pw (s : State) (n : Nat) (x : TileSt) : (setTile s n x).pw = s.pw := by cases s; rfl
@[simp] theorem setTile_cage (s : State) (n : Nat) (x : TileSt) : (setTile s n x).cage = s.cage := by cases s; rfl
@[simp] theorem setTile_pm (s : State) (n : Nat) (x : TileSt) : (setTile s n x).pm = s.pm := by cases s; rfl
@[simp] theorem setTile_testReq (s : State) (n : Nat) (x : TileSt) : (setTile s n x).testReq = s.testReq := by cases s; rfl
@[simp] theorem setTile_notices (s : State) (n : Nat) (x : TileSt) : (setTile s n x).notices = s.notices := by cases s; rfl
@[simp] theorem csrRaw_setTile (s : State) (n : Nat) (x : TileSt) (key : Nat) : csrRaw (setTile s n x) key = csrRaw s key := by simp only [csrRaw, setTile_csr]
@[simp] theorem rd_setTile (s : State) (n : Nat) (x : TileSt) (fld : Fld) (a b : Nat) : rd (setTile s n x) fld a b = rd s fld a b := by simp only [rd, csrRaw_setTile]
@[simp] theorem rdb_setTile (s : State) (n : Nat) (x : TileSt) (fld : Fld) (a b : Nat) : rdb (setTile s n x) fld a b = rdb s fld a b := by simp only [rdb, rd_setTile]

/-! setPkt -/

@[simp] theorem setPkt_pending (s : State) (n : Nat) (x : SwPkt) : (setPkt s n x).pending = s.pending := by cases s; rfl
@[simp] theorem setPkt_csr (s : State) (n : Nat) (x : SwPkt) : (setPkt s n x).csr = s.csr := by cases s; rfl
@[simp] theorem setPkt_out (s : State) (n : Nat) (x : SwPkt) : (setPkt s n x).out = s.out := by cases s; rfl
@[simp] theorem setPkt_free (s : State) (n : Nat) (x : SwPkt) : (setPkt s n x).free = s.free := by cases s; rfl
@[simp] theorem setPkt_timeNs (s : State) (n : Nat) (x : SwPkt) : (setPkt s n x).timeNs = s.timeNs := by cases s; rfl
@[simp] theorem setPkt_lanes (s : State) (n : Nat) (x : SwPkt) : (setPkt s n x).lanes = s.lanes := by cases s; rfl
@[simp] theorem setPkt_spares (s : State) (n : Nat) (x : SwPkt) : (setPkt s n x).spares = s.spares := by cases s; rfl
@[simp] theorem setPkt_links (s : State) (n : Nat) (x : SwPkt) : (setPkt s n x).links = s.links := by cases s; rfl
@[simp] theorem setPkt_rt (s : State) (n : Nat) (x : SwPkt) : (setPkt s n x).rt = s.rt := by cases s; rfl
@[simp] theorem setPkt_hi (s : State) (n : Nat) (x : SwPkt) : (setPkt s n x).hi = s.hi := by cases s; rfl
@[simp] theorem setPkt_txn (s : State) (n : Nat) (x : SwPkt) : (setPkt s n x).txn = s.txn := by cases s; rfl
@[simp] theorem setPkt_eng (s : State) (n : Nat) (x : SwPkt) : (setPkt s n x).eng = s.eng := by cases s; rfl
@[simp] theorem setPkt_tp (s : State) (n : Nat) (x : SwPkt) : (setPkt s n x).tp = s.tp := by cases s; rfl
@[simp] theorem setPkt_mt (s : State) (n : Nat) (x : SwPkt) : (setPkt s n x).mt = s.mt := by cases s; rfl
@[simp] theorem setPkt_xl (s : State) (n : Nat) (x : SwPkt) : (setPkt s n x).xl = s.xl := by cases s; rfl
@[simp] theorem setPkt_mr (s : State) (n : Nat) (x : SwPkt) : (setPkt s n x).mr = s.mr := by cases s; rfl
@[simp] theorem setPkt_sc (s : State) (n : Nat) (x : SwPkt) : (setPkt s n x).sc = s.sc := by cases s; rfl
@[simp] theorem setPkt_kn (s : State) (n : Nat) (x : SwPkt) : (setPkt s n x).kn = s.kn := by cases s; rfl
@[simp] theorem setPkt_at' (s : State) (n : Nat) (x : SwPkt) : (setPkt s n x).at' = s.at' := by cases s; rfl
@[simp] theorem setPkt_cl (s : State) (n : Nat) (x : SwPkt) : (setPkt s n x).cl = s.cl := by cases s; rfl
@[simp] theorem setPkt_gw (s : State) (n : Nat) (x : SwPkt) : (setPkt s n x).gw = s.gw := by cases s; rfl
@[simp] theorem setPkt_fc (s : State) (n : Nat) (x : SwPkt) : (setPkt s n x).fc = s.fc := by cases s; rfl
@[simp] theorem setPkt_fw (s : State) (n : Nat) (x : SwPkt) : (setPkt s n x).fw = s.fw := by cases s; rfl
@[simp] theorem setPkt_pw (s : State) (n : Nat) (x : SwPkt) : (setPkt s n x).pw = s.pw := by cases s; rfl
@[simp] theorem setPkt_cage (s : State) (n : Nat) (x : SwPkt) : (setPkt s n x).cage = s.cage := by cases s; rfl
@[simp] theorem setPkt_pm (s : State) (n : Nat) (x : SwPkt) : (setPkt s n x).pm = s.pm := by cases s; rfl
@[simp] theorem setPkt_testReq (s : State) (n : Nat) (x : SwPkt) : (setPkt s n x).testReq = s.testReq := by cases s; rfl
@[simp] theorem setPkt_notices (s : State) (n : Nat) (x : SwPkt) : (setPkt s n x).notices = s.notices := by cases s; rfl
@[simp] theorem csrRaw_setPkt (s : State) (n : Nat) (x : SwPkt) (key : Nat) : csrRaw (setPkt s n x) key = csrRaw s key := by simp only [csrRaw, setPkt_csr]
@[simp] theorem rd_setPkt (s : State) (n : Nat) (x : SwPkt) (fld : Fld) (a b : Nat) : rd (setPkt s n x) fld a b = rd s fld a b := by simp only [rd, csrRaw_setPkt]
@[simp] theorem rdb_setPkt (s : State) (n : Nat) (x : SwPkt) (fld : Fld) (a b : Nat) : rdb (setPkt s n x) fld a b = rdb s fld a b := by simp only [rdb, rd_setPkt]

/-! delPkt -/

@[simp] theorem delPkt_pending (s : State) (n : Nat) : (delPkt s n).pending = s.pending := by cases s; rfl
@[simp] theorem delPkt_csr (s : State) (n : Nat) : (delPkt s n).csr = s.csr := by cases s; rfl
@[simp] theorem delPkt_out (s : State) (n : Nat) : (delPkt s n).out = s.out := by cases s; rfl
@[simp] theorem delPkt_free (s : State) (n : Nat) : (delPkt s n).free = s.free := by cases s; rfl
@[simp] theorem delPkt_timeNs (s : State) (n : Nat) : (delPkt s n).timeNs = s.timeNs := by cases s; rfl
@[simp] theorem delPkt_lanes (s : State) (n : Nat) : (delPkt s n).lanes = s.lanes := by cases s; rfl
@[simp] theorem delPkt_spares (s : State) (n : Nat) : (delPkt s n).spares = s.spares := by cases s; rfl
@[simp] theorem delPkt_links (s : State) (n : Nat) : (delPkt s n).links = s.links := by cases s; rfl
@[simp] theorem delPkt_rt (s : State) (n : Nat) : (delPkt s n).rt = s.rt := by cases s; rfl
@[simp] theorem delPkt_hi (s : State) (n : Nat) : (delPkt s n).hi = s.hi := by cases s; rfl
@[simp] theorem delPkt_txn (s : State) (n : Nat) : (delPkt s n).txn = s.txn := by cases s; rfl
@[simp] theorem delPkt_eng (s : State) (n : Nat) : (delPkt s n).eng = s.eng := by cases s; rfl
@[simp] theorem delPkt_tp (s : State) (n : Nat) : (delPkt s n).tp = s.tp := by cases s; rfl
@[simp] theorem delPkt_mt (s : State) (n : Nat) : (delPkt s n).mt = s.mt := by cases s; rfl
@[simp] theorem delPkt_xl (s : State) (n : Nat) : (delPkt s n).xl = s.xl := by cases s; rfl
@[simp] theorem delPkt_mr (s : State) (n : Nat) : (delPkt s n).mr = s.mr := by cases s; rfl
@[simp] theorem delPkt_sc (s : State) (n : Nat) : (delPkt s n).sc = s.sc := by cases s; rfl
@[simp] theorem delPkt_kn (s : State) (n : Nat) : (delPkt s n).kn = s.kn := by cases s; rfl
@[simp] theorem delPkt_at' (s : State) (n : Nat) : (delPkt s n).at' = s.at' := by cases s; rfl
@[simp] theorem delPkt_cl (s : State) (n : Nat) : (delPkt s n).cl = s.cl := by cases s; rfl
@[simp] theorem delPkt_gw (s : State) (n : Nat) : (delPkt s n).gw = s.gw := by cases s; rfl
@[simp] theorem delPkt_fc (s : State) (n : Nat) : (delPkt s n).fc = s.fc := by cases s; rfl
@[simp] theorem delPkt_fw (s : State) (n : Nat) : (delPkt s n).fw = s.fw := by cases s; rfl
@[simp] theorem delPkt_pw (s : State) (n : Nat) : (delPkt s n).pw = s.pw := by cases s; rfl
@[simp] theorem delPkt_cage (s : State) (n : Nat) : (delPkt s n).cage = s.cage := by cases s; rfl
@[simp] theorem delPkt_pm (s : State) (n : Nat) : (delPkt s n).pm = s.pm := by cases s; rfl
@[simp] theorem delPkt_testReq (s : State) (n : Nat) : (delPkt s n).testReq = s.testReq := by cases s; rfl
@[simp] theorem delPkt_notices (s : State) (n : Nat) : (delPkt s n).notices = s.notices := by cases s; rfl
@[simp] theorem csrRaw_delPkt (s : State) (n : Nat) (key : Nat) : csrRaw (delPkt s n) key = csrRaw s key := by simp only [csrRaw, delPkt_csr]
@[simp] theorem rd_delPkt (s : State) (n : Nat) (fld : Fld) (a b : Nat) : rd (delPkt s n) fld a b = rd s fld a b := by simp only [rd, csrRaw_delPkt]
@[simp] theorem rdb_delPkt (s : State) (n : Nat) (fld : Fld) (a b : Nat) : rdb (delPkt s n) fld a b = rdb s fld a b := by simp only [rdb, rd_delPkt]

end Sys2Proof.Machine
end

