-- ==== Sys2Proof/Laws/Regs.lean ====
section
/-!
SUPPORT. Laws/Regs.lean: sparse tables, bit fields and the register file: a read after a write of the same place gives the value
written, and every other place is left as it was.
-/

namespace Sys2Proof.Machine

/-! ### Sparse tables -/

@[simp] theorem mget_mset_same {α : Type} (m : Map α) (k : Nat) (v : α) : mget (mset m k v) k = some v := by
  induction m with
  | nil => simp [mset, mget]
  | cons a t ih =>
    simp only [mset]
    split
    · simp [mget]
    · split
      · simp [mget]
      · simp [mget, *]

theorem mget_mset_ne {α : Type} (m : Map α) {k k' : Nat} (v : α) (h : k' ≠ k) : mget (mset m k v) k' = mget m k' := by
  induction m with
  | nil => simp [mset, mget, h]
  | cons a t ih =>
    simp only [mset]
    split
    · simp [mget, h]
    · split
      · next e => subst e; simp [mget, h]
      · simp only [mget]; split <;> simp [ih]

@[simp] theorem mget_mdel_same {α : Type} (m : Map α) (k : Nat) : mget (mdel m k) k = none := by
  induction m with
  | nil => rfl
  | cons a t ih =>
    simp only [mdel]
    split
    · exact ih
    · simp [mget, *]

theorem mget_mdel_ne {α : Type} (m : Map α) {k k' : Nat} (h : k' ≠ k) : mget (mdel m k) k' = mget m k' := by
  induction m with
  | nil => rfl
  | cons a t ih =>
    simp only [mdel]
    split
    · next e => subst e; simp [mget, h, ih]
    · simp only [mget]; split <;> simp [ih]

@[simp] theorem mgetD_mset_same {α : Type} (m : Map α) (k : Nat) (v d : α) : mgetD (mset m k v) k d = v := by simp [mgetD]

theorem mgetD_mset_ne {α : Type} (m : Map α) {k k' : Nat} (v d : α) (h : k' ≠ k) : mgetD (mset m k v) k' d = mgetD m k' d := by
  simp [mgetD, mget_mset_ne m v h]

/-! ### Words of the register file -/

@[simp] theorem csrRaw_csrPut_same (s : State) (k : Nat) (w : Word) : csrRaw (csrPut s k w) k = w := by
  simp only [csrRaw, csrPut, csrStore, mgetD]
  split
  · simp [*]
  · simp

theorem csrRaw_csrPut_ne (s : State) {k k' : Nat} (w : Word) (h : k' ≠ k) : csrRaw (csrPut s k w) k' = csrRaw s k' := by
  simp only [csrRaw, csrPut, csrStore, mgetD]
  split
  · rw [mget_mdel_ne _ h]
  · rw [mget_mset_ne _ _ h]

/-! ### Fields of a word -/

theorem putBits_lt (x lo width v n : Nat) (h : lo + width ≤ n) (hx : x < 2 ^ n) : putBits x lo width v < 2 ^ n := by
  obtain ⟨d, rfl⟩ := Nat.exists_eq_add_of_le h
  have h1 : x % 2 ^ lo < 2 ^ lo := Nat.mod_lt _ (Nat.two_pow_pos _)
  have h2 : v % 2 ^ width < 2 ^ width := Nat.mod_lt _ (Nat.two_pow_pos _)
  have h3 : x / 2 ^ (lo + width) < 2 ^ d := by
    rw [Nat.div_lt_iff_lt_mul (Nat.two_pow_pos _), Nat.mul_comm, ← Nat.pow_add]; exact hx
  have h4 : x % 2 ^ lo + v % 2 ^ width * 2 ^ lo < 2 ^ (lo + width) := by
    have : (v % 2 ^ width + 1) * 2 ^ lo ≤ 2 ^ width * 2 ^ lo := Nat.mul_le_mul_right _ h2
    rw [Nat.pow_add, Nat.mul_comm (2 ^ lo)]; rw [Nat.add_mul] at this; omega
  have h5 : (x / 2 ^ (lo + width) + 1) * 2 ^ (lo + width) ≤ 2 ^ d * 2 ^ (lo + width) := Nat.mul_le_mul_right _ h3
  simp only [putBits]
  rw [Nat.pow_add 2 (lo + width) d, Nat.mul_comm (2 ^ (lo + width))]
  rw [Nat.add_mul] at h5
  omega

theorem wordSet_toNat (w : Word) (lo width v : Nat) (h : lo + width ≤ 64) :
    (wordSet w lo width v).toNat = putBits w.toNat lo width v := by
  simp only [wordSet, BitVec.toNat_ofNat]
  exact Nat.mod_eq_of_lt (putBits_lt _ _ _ _ _ h w.isLt)

/-- A field read after it is written gives the value's low bits. -/
theorem wordGet_wordSet_same (w : Word) (lo width v : Nat) (h : lo + width ≤ 64) :
    wordGet (wordSet w lo width v) lo width = v % 2 ^ width := by
  simp only [wordGet, wordSet_toNat w lo width v h, putBits]
  have h1 : w.toNat % 2 ^ lo < 2 ^ lo := Nat.mod_lt _ (Nat.two_pow_pos _)
  have e : w.toNat % 2 ^ lo + v % 2 ^ width * 2 ^ lo + w.toNat / 2 ^ (lo + width) * 2 ^ (lo + width)
      = w.toNat % 2 ^ lo + 2 ^ lo * (v % 2 ^ width + 2 ^ width * (w.toNat / 2 ^ (lo + width))) := by
    rw [Nat.pow_add, Nat.mul_add, Nat.mul_comm (v % 2 ^ width), ← Nat.mul_assoc (2 ^ lo), Nat.mul_comm (w.toNat / _), Nat.add_assoc]
  rw [e, Nat.add_mul_div_left _ _ (Nat.two_pow_pos _), Nat.div_eq_of_lt h1, Nat.zero_add, Nat.add_mul_mod_self_left]
  exact Nat.mod_mod _ _

/-- A field above the one written is left as it was. -/
theorem wordGet_wordSet_above (w : Word) (lo width v lo' width' : Nat) (h : lo + width ≤ 64) (h' : lo + width ≤ lo') :
    wordGet (wordSet w lo width v) lo' width' = wordGet w lo' width' := by
  simp only [wordGet, wordSet_toNat w lo width v h, putBits]
  obtain ⟨d, rfl⟩ := Nat.exists_eq_add_of_le h'
  have h1 : w.toNat % 2 ^ lo < 2 ^ lo := Nat.mod_lt _ (Nat.two_pow_pos _)
  have h2 : v % 2 ^ width < 2 ^ width := Nat.mod_lt _ (Nat.two_pow_pos _)
  have h4 : w.toNat % 2 ^ lo + v % 2 ^ width * 2 ^ lo < 2 ^ (lo + width) := by
    have : (v % 2 ^ width + 1) * 2 ^ lo ≤ 2 ^ width * 2 ^ lo := Nat.mul_le_mul_right _ h2
    rw [Nat.pow_add, Nat.mul_comm (2 ^ lo)]; rw [Nat.add_mul] at this; omega
  rw [Nat.pow_add 2 (lo + width) d, ← Nat.div_div_eq_div_mul, ← Nat.div_div_eq_div_mul w.toNat,
    Nat.mul_comm _ (2 ^ (lo + width)), Nat.add_mul_div_left _ _ (Nat.two_pow_pos _), Nat.div_eq_of_lt h4, Nat.zero_add]

/-- A field below the one written is left as it was. -/
theorem wordGet_wordSet_below (w : Word) (lo width v lo' width' : Nat) (h : lo + width ≤ 64) (h' : lo' + width' ≤ lo) :
    wordGet (wordSet w lo width v) lo' width' = wordGet w lo' width' := by
  simp only [wordGet, wordSet_toNat w lo width v h, putBits]
  obtain ⟨d, rfl⟩ := Nat.exists_eq_add_of_le h'
  have key : ∀ a b : Nat, (a % 2 ^ (lo' + width' + d) + b * 2 ^ (lo' + width' + d)) / 2 ^ lo' % 2 ^ width' = a / 2 ^ lo' % 2 ^ width' := by
    intro a b
    have e1 : ∀ n : Nat, n / 2 ^ lo' % 2 ^ width' = n % 2 ^ (lo' + width') / 2 ^ lo' := by
      intro n; rw [Nat.pow_add, Nat.mod_mul_right_div_self]
    rw [e1, e1, Nat.pow_add 2 (lo' + width') d, Nat.mul_comm b, Nat.mul_assoc, Nat.add_mul_mod_self_left, Nat.mod_mul_right_mod]
  have e : w.toNat % 2 ^ (lo' + width' + d) + v % 2 ^ width * 2 ^ (lo' + width' + d)
        + w.toNat / 2 ^ (lo' + width' + d + width) * 2 ^ (lo' + width' + d + width)
      = w.toNat % 2 ^ (lo' + width' + d)
        + (v % 2 ^ width + w.toNat / 2 ^ (lo' + width' + d + width) * 2 ^ width) * 2 ^ (lo' + width' + d) := by
    rw [Nat.pow_add 2 (lo' + width' + d) width, Nat.add_mul, Nat.mul_comm (2 ^ (lo' + width' + d)), Nat.mul_assoc, Nat.add_assoc]
  rw [e]; exact key _ _

/-! ### Fields of registers -/

/-- Two fields, each with its instance and copy, that share no bit. -/
def Apart (f : Fld) (i j : Nat) (g : Fld) (k l : Nat) : Prop :=
  g.key k ≠ f.key i ∨ f.lo + f.bstep * j + f.width ≤ g.lo + g.bstep * l ∨ g.lo + g.bstep * l + g.width ≤ f.lo + f.bstep * j

theorem rd_wr_same (s : State) (f : Fld) (v i j : Nat) (h : f.lo + f.bstep * j + f.width ≤ 64) :
    rd (wr s f v i j) f i j = v % 2 ^ f.width := by
  simp [rd, wr, wordGet_wordSet_same _ _ _ _ h]

theorem rd_wr_apart (s : State) (f : Fld) (v i j : Nat) (g : Fld) (k l : Nat) (hf : f.lo + f.bstep * j + f.width ≤ 64)
    (h : Apart f i j g k l) : rd (wr s f v i j) g k l = rd s g k l := by
  simp only [rd, wr]
  by_cases e : g.key k = f.key i
  · rw [e, csrRaw_csrPut_same]
    rcases h with h | h | h
    · exact absurd e h
    · exact wordGet_wordSet_above _ _ _ _ _ _ hf h
    · exact wordGet_wordSet_below _ _ _ _ _ _ hf h
  · rw [csrRaw_csrPut_ne _ _ e]

theorem csrRaw_wr_ne (s : State) (f : Fld) (v i j k : Nat) (h : k ≠ f.key i) : csrRaw (wr s f v i j) k = csrRaw s k :=
  csrRaw_csrPut_ne s _ h

/-- A field takes no more bits than a number written to it has. -/
theorem rd_lt (s : State) (f : Fld) (i j : Nat) : rd s f i j < 2 ^ f.width := Nat.mod_lt _ (Nat.two_pow_pos _)

theorem rdb_wrb_same (s : State) (f : Fld) (b : Bool) (i j : Nat) (h : f.lo + f.bstep * j + f.width ≤ 64) (h1 : f.width = 1) :
    rdb (wrb s f b i j) f i j = b := by
  simp only [rdb, wrb, rd_wr_same s f _ i j h, h1]
  cases b <;> rfl

theorem rdb_wr_apart (s : State) (f : Fld) (v i j : Nat) (g : Fld) (k l : Nat) (hf : f.lo + f.bstep * j + f.width ≤ 64)
    (h : Apart f i j g k l) : rdb (wr s f v i j) g k l = rdb s g k l := by
  simp only [rdb, rd_wr_apart s f v i j g k l hf h]

end Sys2Proof.Machine
end

