-- ==== Sys2Proof/Laws/Fin.lean ====
section
/-!
SUPPORT. Laws/Fin.lean: what the end of every command does: the queue is as it was, MODE_STAT.MODE is in step (R27), and a command
that leaves nothing to follow changes nothing else.
-/

namespace Sys2Proof.Machine

@[simp] theorem done_eq (before s : State) : done before s = .next (settled before s) := rfl

/-- Reads of any field but MODE_STAT.MODE are as they were once the mode is brought into step. -/
theorem rd_refreshMode (s : State) (g : Fld) (k l : Nat) (h : Apart F.modeStatMode 0 0 g k l) :
    rd (refreshMode s) g k l = rd s g k l :=
  rd_wr_apart s _ _ 0 0 g k l (by decide) h

theorem rdb_refreshMode (s : State) (g : Fld) (k l : Nat) (h : Apart F.modeStatMode 0 0 g k l) :
    rdb (refreshMode s) g k l = rdb s g k l := by
  simp only [rdb, rd_refreshMode s g k l h]

theorem modeCode_lt (b : Nat) (h f w r : Bool) : modeCode b h f w r < 8 := by
  unfold modeCode
  split
  · omega
  · omega
  · omega
  · cases h <;> cases f <;> cases w <;> cases r <;> decide

/-- After the mode is brought into step, it is in step. -/
theorem refreshMode_inStep (s : State) : ModeInStep (refreshMode s) := by
  have e1 : baseOf (refreshMode s) = baseOf s := rd_refreshMode s _ 0 0 (by unfold Apart; decide)
  have e2 : holdOn (refreshMode s) = holdOn s := rdb_refreshMode s _ 0 0 (by unfold Apart; decide)
  have e3 : fenceOn (refreshMode s) = fenceOn s := rdb_refreshMode s _ 0 0 (by unfold Apart; decide)
  have e4 : brownOn (refreshMode s) = brownOn s := rdb_refreshMode s _ 0 0 (by unfold Apart; decide)
  have e5 : relayOn (refreshMode s) = relayOn s := rdb_refreshMode s _ 0 0 (by unfold Apart; decide)
  unfold ModeInStep
  rw [e1, e2, e3, e4, e5]
  unfold refreshMode
  rw [rd_wr_same _ _ _ 0 0 (by decide)]
  exact Nat.mod_eq_of_lt (modeCode_lt _ _ _ _ _)

/-- The end of every command leaves the mode in step. -/
theorem settled_inStep (before s : State) : ModeInStep (settled before s) := refreshMode_inStep _

/-- The end of every command leaves the queue as it was. -/
@[simp] theorem settled_pending (before s : State) : (settled before s).pending = before.pending := by
  simp [settled, refreshMode]

/-- A command that leaves nothing to follow ends with the mode brought into step and nothing else. -/
theorem settled_quiet (before s : State) (h : quiet before s = true) :
    settled before s = refreshMode { s with pending := before.pending } := by
  simp [settled, h]

end Sys2Proof.Machine
end

