-- ==== Sys2Proof/Laws/Gate.lean ====
section
/-!
SUPPORT. Laws/Gate.lean: the gate that every register write passes (R6 to R9, R34, R557, R611): a served write has its effect, with
what surrounds it.
-/

namespace Sys2Proof.Machine

/-- A register that takes its writes at once: it exists, and it is not staged (R57), but for the CI of a ring (R417). -/
def takesWrites (key : Nat) : Bool :=
  (regFind key).isSome && !(isRwt key && !(decide (0x08820000 ≤ key) && decide (key < 0x08820800) && key % 32 == 16))

theorem csrApply_block (env : CsrEnv) (s : State) (who : Who) (key : Nat) (w : Word) (h : inRecovery s = false)
    (hk : takesWrites key = true) (hl : judgesItself key = true ∨ wordLegal (fieldsAt key) w = true) :
    csrApply env s who key w = blockWrite s who key w env := by
  simp only [takesWrites, Bool.and_eq_true, Bool.not_eq_true'] at hk
  obtain ⟨r, hr⟩ := Option.isSome_iff_exists.mp hk.1
  have hf : fieldsAt key = r.fields := by simp [fieldsAt, hr]
  rw [hf] at hl
  simp only [csrApply, h, hr, hk.2, Bool.false_and, Bool.false_eq_true, if_false]
  rcases hl with hl | hl <;> simp [hl]

theorem csrApply_refused (env : CsrEnv) (s : State) (who : Who) (key : Nat) (w : Word) (h : inRecovery s = false)
    (hk : takesWrites key = true) (hj : judgesItself key = false) (hl : wordLegal (fieldsAt key) w = false) :
    csrApply env s who key w = refuseWrite s := by
  simp only [takesWrites, Bool.and_eq_true, Bool.not_eq_true'] at hk
  obtain ⟨r, hr⟩ := Option.isSome_iff_exists.mp hk.1
  have hf : fieldsAt key = r.fields := by simp [fieldsAt, hr]
  rw [hf] at hl
  simp only [csrApply, h, hr, hk.2, Bool.false_and, Bool.false_eq_true, if_false]
  simp [hj, hl]

theorem holdOn_wakePort (s : State) (hp : Nat) : holdOn (wakePort s hp) = holdOn s := by
  unfold wakePort; split
  · rfl
  · unfold holdOn
    rw [rdb_wr_apart _ _ _ _ _ _ _ _ (by simp [F.hiPortStatPm]) (by simp [Apart, F.hiPortStatPm, F.modeStatHoldAct, Fld.key])]

theorem fnSilent_wakePort (s : State) (hp fn : Nat) (_h : hp < 2) (hf : fn < 256) : fnSilent (wakePort s hp) hp fn = fnSilent s hp fn := by
  unfold wakePort; split
  · rfl
  · simp only [fnSilent, portOf, wedged, blockDown, blockFenced, wr_hi, wr_fc]
    rw [rd_wr_apart _ _ _ _ _ _ _ _ (by simp [F.hiPortStatPm]) (by simp [Apart, F.hiPortStatPm, F.hiWedgedFn, Fld.key]; omega)]

theorem fnEnabled_wakePort (s : State) (hp fn : Nat) : fnEnabled (wakePort s hp) hp fn = fnEnabled s hp fn := by
  unfold wakePort; split
  · rfl
  · simp only [fnEnabled, portOf, wr_hi]; rfl

theorem inRecovery_wakePort (s : State) (hp : Nat) : inRecovery (wakePort s hp) = inRecovery s := by
  unfold wakePort; split
  · rfl
  · unfold inRecovery baseOf
    rw [rd_wr_apart _ _ _ _ _ _ _ _ (by simp [F.hiPortStatPm]) (by simp [Apart, F.hiPortStatPm, F.modeStatBase, Fld.key])]

theorem hostWrite_served (s : State) (hp fn key width : Nat) (w : Word) (env : CsrEnv) (h : Served s (.fn hp fn)) (hw : 64 ≤ width) :
    hostWrite s hp fn key width w env = viaGate s (.fn hp fn) fun t => csrApply env t (.fn hp fn) key w := by
  obtain ⟨h1, -, hp2, hf2, h3, h4⟩ := h
  have hw' : ¬ width < 64 := by omega
  simp [hostWrite, viaGate, holdOn_wakePort, h1, fnSilent_wakePort _ _ _ hp2 hf2, h3, fnEnabled_wakePort, h4, hw']

theorem mctpOffOk_wr (off : Nat) (h8 : off % 8 = 0) (hb : off < 0x0C000000) : mctpOffOk off = true := by simp [mctpOffOk, h8, hb]

theorem mgmtWrite_eq (s : State) (key : Nat) (w : Word) (env : CsrEnv) (t : State)
    (ht : csrApply env (wr s F.topCsrRefusedCount 0) .mgmt key w = t) :
    mgmtWrite s key w env = if t.fc.chipReset && !s.fc.chipReset then (t, false)
      else (wr t F.topCsrRefusedCount (satAdd 32 (rd s F.topCsrRefusedCount) (rd t F.topCsrRefusedCount)),
        rd t F.topCsrRefusedCount != 0) := by
  subst ht; rw [mgmtWrite]

/-- What surrounds an effect that the management controller commands, with the effect's result named. -/
theorem viaGate_mgmt (s : State) (f : State → State) (t : State) (ht : f (wr s F.topCsrRefusedCount 0) = t) :
    viaGate s .mgmt f = if t.fc.chipReset && !s.fc.chipReset then emit t (.mctp 0 [])
      else emit (wr t F.topCsrRefusedCount (satAdd 32 (rd s F.topCsrRefusedCount) (rd t F.topCsrRefusedCount)))
        (.mctp (bit (rd t F.topCsrRefusedCount != 0)) []) := by
  subst ht; rw [viaGate]

theorem viaGate_fn (s : State) (hp fn : Nat) (f : State → State) : viaGate s (.fn hp fn) f = f (wakePort s hp) := by rw [viaGate]

theorem mctpDo_write (s : State) (key : Nat) (w : Word) (env : CsrEnv) (h2 : inRecovery s = false) (h : mctpOffOk key = true) :
    mctpDo s (.csrWrite key w env) = viaGate s .mgmt fun t => csrApply env t .mgmt key w := by
  have e1 : mctpDo s (.csrWrite key w env) = mctpWrite s key w env := by rw [mctpDo]
  have e2 : mctpWrite s key w env = emit (mgmtWrite s key w env).1 (.mctp (bit (mgmtWrite s key w env).2) []) := by
    rw [mctpWrite]; simp only [h, h2, Bool.not_true, Bool.false_eq_true, if_false]
  rw [e1, e2, mgmtWrite_eq s key w env _ rfl, viaGate_mgmt s _ _ rfl]
  split
  · rfl
  · rfl

theorem mctpIn_served (s : State) (key : Nat) (w : Word) (env : CsrEnv) (h : Served s .mgmt) (h8 : key % 8 = 0) (hb : key < 0x0C000000) :
    mctpIn s 2 (.csrWrite key w env) = viaGate s .mgmt fun t => csrApply env t .mgmt key w := by
  obtain ⟨h1, h2, h3, h4⟩ := h
  have e3 : ∀ l, firmwareRuns (setFw s fun f => { f with waiting := l }) = firmwareRuns s := by
    intro l; simp only [firmwareRuns, blockDown, blockFenced, setFw_fc, setFw_fw]
  have e1 : ∀ l, holdOn (setFw s fun f => { f with waiting := l }) = holdOn s := fun l => rdb_setFw _ _ _ _ _
  have es : (setFw (setFw s fun f => { f with waiting := [(2, MctpReq.csrWrite key w env)] }) fun f => { f with waiting := [] }) = s := by
    simp only [setFw]; rw [← h4]
  have ew : (setFw s fun f => { f with waiting := f.waiting ++ [(2, MctpReq.csrWrite key w env)] })
      = setFw s fun f => { f with waiting := [(2, MctpReq.csrWrite key w env)] } := by
    simp only [setFw, h4, List.nil_append]
  have el : (setFw s fun f => { f with waiting := [(2, MctpReq.csrWrite key w env)] }).fw.waiting = [(2, MctpReq.csrWrite key w env)] := rfl
  have hw : mctpWaits (setFw s fun f => { f with waiting := [(2, MctpReq.csrWrite key w env)] }) (.csrWrite key w env) = false := by
    simp only [mctpWaits, e3, e1, h3, h1, Bool.not_true, Bool.or_false]
  rw [mctpIn, ew, el]
  simp only [List.length_singleton, mctpRun, el, mctpPick, hw, List.contains_nil, Bool.or_self, Bool.false_eq_true, if_false, es]
  exact mctpDo_write s key w env h2 (mctpOffOk_wr key h8 hb)

/-- A served write of a register has its effect, with what surrounds it. -/
theorem csrWriteBy_served (s : State) (who : Who) (key width : Nat) (w : Word) (env : CsrEnv) (h : Served s who) (hw : 64 ≤ width)
    (h8 : key % 8 = 0) (hb : key < 0x0C000000) :
    csrWriteBy s who key width w env = viaGate s who fun t => csrApply env t who key w := by
  cases who with
  | fn hp fn => exact hostWrite_served s hp fn key width w env h hw
  | mgmt => exact mctpIn_served s key w env h h8 hb

/-- Reads of every register but HI_PORT_STAT are as they were once a port's link has left L1. -/
theorem rd_wakePort (s : State) (hp : Nat) (g : Fld) (k l : Nat) (hh : hp < 2) (h : g.key k ≠ 0x0A000000 ∧ g.key k ≠ 0x0A000008) :
    rd (wakePort s hp) g k l = rd s g k l := by
  unfold wakePort
  split
  · rfl
  · exact rd_wr_apart _ _ _ _ _ _ _ _ (by simp [F.hiPortStatPm]) (by
      left; simp only [F.hiPortStatPm, Fld.key] at *; omega)

theorem rdb_wakePort (s : State) (hp : Nat) (g : Fld) (k l : Nat) (hh : hp < 2) (h : g.key k ≠ 0x0A000000 ∧ g.key k ≠ 0x0A000008) :
    rdb (wakePort s hp) g k l = rdb s g k l := by
  simp only [rdb, rd_wakePort s hp g k l hh h]

/-- Reads of every register but TOP_CSR_REFUSED are as they were. -/
theorem rd_wr_refused (s : State) (v : Nat) (g : Fld) (k l : Nat) (h : g.key k ≠ 0x40) :
    rd (wr s F.topCsrRefusedCount v 0 0) g k l = rd s g k l :=
  rd_wr_apart _ _ _ _ _ _ _ _ (by simp [F.topCsrRefusedCount]) (by left; simpa [F.topCsrRefusedCount, Fld.key] using h)

theorem rdb_wr_refused (s : State) (v : Nat) (g : Fld) (k l : Nat) (h : g.key k ≠ 0x40) :
    rdb (wr s F.topCsrRefusedCount v 0 0) g k l = rdb s g k l := by
  simp only [rdb, rd_wr_refused s v g k l h]

/-- Everything of a state but its registers. -/
def SameBut (t s : State) : Prop := t = { s with csr := t.csr }

theorem wakePort_sameBut (s : State) (hp : Nat) : SameBut (wakePort s hp) s := by
  unfold wakePort; split <;> rfl

theorem wr_sameBut (s : State) (f : Fld) (v i j : Nat) : SameBut (wr s f v i j) s := rfl

/-- A state that a served write acts on: it differs from the one before in HI_PORT_STAT and TOP_CSR_REFUSED at most. -/
structure Entry (t s : State) : Prop where
  same : SameBut t s
  word : ∀ key, key ≠ 0x0A000000 → key ≠ 0x0A000008 → key ≠ 0x40 → csrRaw t key = csrRaw s key

theorem Entry.raw {t s : State} (h : Entry t s) (g : Fld) (k l : Nat) (h1 : g.key k ≠ 0x0A000000) (h2 : g.key k ≠ 0x0A000008)
    (h3 : g.key k ≠ 0x40) : rd t g k l = rd s g k l := by
  simp only [rd, h.word (g.key k) h1 h2 h3]

theorem Entry.rdb' {t s : State} (h : Entry t s) (g : Fld) (k l : Nat) (h1 : g.key k ≠ 0x0A000000) (h2 : g.key k ≠ 0x0A000008)
    (h3 : g.key k ≠ 0x40) : rdb t g k l = rdb s g k l := by
  simp only [rdb, h.raw g k l h1 h2 h3]

/-- To show what a served write of a register does, show it of every state the write may act on. -/
theorem csrWriteBy_eq (s : State) (who : Who) (key width : Nat) (w : Word) (env : CsrEnv) (f : State → State) (h : Served s who)
    (hw : 64 ≤ width) (h8 : key % 8 = 0) (hb : key < 0x0C000000)
    (hf : ∀ t, Entry t s → inRecovery t = false → csrApply env t who key w = f t) :
    csrWriteBy s who key width w env = viaGate s who f := by
  rw [csrWriteBy_served s who key width w env h hw h8 hb]
  have hr := h.2.1
  cases who with
  | fn hp fn =>
    rw [viaGate_fn, viaGate_fn]
    have hh := h.2.2.1
    refine hf _ ⟨wakePort_sameBut s hp, fun key h1 h2 _ => ?_⟩ ?_
    · unfold wakePort
      split
      · rfl
      · exact csrRaw_wr_ne _ _ _ _ _ _ (by simp only [F.hiPortStatPm, Fld.key]; omega)
    simp only [inRecovery, baseOf] at *
    rw [rd_wakePort s hp _ _ _ hh (by decide)]; exact hr
  | mgmt =>
    rw [viaGate_mgmt s _ _ rfl, viaGate_mgmt s f _ rfl]
    rw [hf (wr s F.topCsrRefusedCount 0) ⟨wr_sameBut _ _ _ _ _, fun key _ _ h3 => csrRaw_wr_ne _ _ _ _ _ _ (by simpa [F.topCsrRefusedCount, Fld.key] using h3)⟩ (by
      simp only [inRecovery, baseOf] at *
      rw [rd_wr_refused s 0 _ _ _ (by decide)]; exact hr)]

/-- The same for a register that takes writes and a word that holds only listed encodings. -/
theorem csrWriteBy_block (s : State) (who : Who) (key width : Nat) (w : Word) (env : CsrEnv) (f : State → State) (h : Served s who)
    (hw : 64 ≤ width) (hk : (takesWrites key && key % 8 == 0 && decide (key < 0x0C000000)) = true)
    (hl : judgesItself key = true ∨ wordLegal (fieldsAt key) w = true)
    (hf : ∀ t, Entry t s → blockWrite t who key w env = f t) :
    csrWriteBy s who key width w env = viaGate s who f := by
  simp only [Bool.and_eq_true, beq_iff_eq, decide_eq_true_eq] at hk
  exact csrWriteBy_eq s who key width w env f h hw hk.1.2 hk.2 fun t ht hr => by
    rw [csrApply_block env t who key w hr hk.1.1 hl]; exact hf t ht

/-- Effects that agree where a write is served agree through the gate. -/
theorem viaGate_congr (s : State) (who : Who) (f g : State → State)
    (h1 : ∀ hp fn, who = .fn hp fn → f (wakePort s hp) = g (wakePort s hp))
    (h2 : who = .mgmt → f (wr s F.topCsrRefusedCount 0) = g (wr s F.topCsrRefusedCount 0)) : viaGate s who f = viaGate s who g := by
  cases who with
  | fn hp fn => exact h1 hp fn rfl
  | mgmt => rw [viaGate_mgmt s f _ rfl, viaGate_mgmt s g _ rfl, h2 rfl]

end Sys2Proof.Machine
end

