-- ==== Sys2Proof/Laws/PerInstr.lean ====
section
/-!
SUPPORT. Laws/PerInstr.lean: one lemma per command for the statements made of every command.  Senders: a well-formed command that a
requester sends comes from function 0 to 255 of host port 0 or 1, or from the management controller.
-/

namespace Sys2Proof.Laws

/-- The requester that a command names, if it names one. -/
def sender : Instr → Option Who
  | .powerOnReset => none
  | .chipRstNAssert => none
  | .chipRstNRelease => none
  | .bootSlotVerified .. => none
  | .buildEnterRun .. => none
  | .modeCtlEnterTest who _ => some who
  | .testEntryDone => none
  | .modeCtlLeaveTest who _ => some who
  | .deviceIdWrite who _ _ _ => some who
  | .csrWriteGeneric who _ _ _ => some who
  | .csrReadClear who _ _ => some who
  | .armStageFetchHost who _ _ => some who
  | .armStageFetchSlot who _ => some who
  | .armStageDiscard who _ => some who
  | .armatureFetchDone .. => none
  | .armSignerWrite who _ _ => some who
  | .armDrainWrite who _ _ => some who
  | .tileDrained .. => none
  | .txnClaim _ who _ _ => some who
  | .txnBegin _ who _ _ => some who
  | .txnStageWrite _ who _ _ _ => some who
  | .txnCommit _ who _ _ => some who
  | .txnCommitEpoch .. => none
  | .recastPrepDone .. => none
  | .holdExit .. => none
  | .txnAbort _ who _ _ => some who
  | .txnIdleLimit .. => none
  | .lockBitsSet who _ _ => some who
  | .packetHeadLookup .. => none
  | .cellEpochMatch .. => none
  | .bankSwapCopyDone .. => none
  | .cellStallLimit .. => none
  | .bankFail .. => none
  | .bankRepairDone .. => none
  | .codewordPairReceived .. => none
  | .frameReceived .. => none
  | .frameTransmit .. => none
  | .nackWaitExpired .. => none
  | .recoverNoFrameTimeout .. => none
  | .recoverLimitExpired .. => none
  | .noLaneTimeout .. => none
  | .returnForceTimeout .. => none
  | .probeTimer .. => none
  | .llDrainWrite _ who _ _ _ => some who
  | .drainLimitExpired .. => none
  | .laneDetectDone .. => none
  | .laneSignalDetected .. => none
  | .trainingFrameReceived .. => none
  | .laneQualifyDone .. => none
  | .lanePhaseLimitExpired .. => none
  | .laneFailedRetryTimer .. => none
  | .lnCtlRetrain _ who _ _ _ => some who
  | .lnCtlRecal _ who _ _ _ => some who
  | .laneRecalCheck .. => none
  | .recalSpareLocked .. => none
  | .recalSliceQualified .. => none
  | .laneSelfCheckFail .. => none
  | .laneLockHuntExpired .. => none
  | .spareSwapResume .. => none
  | .failedSliceRetestDone .. => none
  | .routeNoticeReceived .. => none
  | .settleTimerExpired .. => none
  | .joinReceived .. => none
  | .joinAckReceived .. => none
  | .joinRepeatTimer .. => none
  | .joinWindowExpired .. => none
  | .epochRepeatTimer .. => none
  | .epochNoticeReceived .. => none
  | .packetInject .. => none
  | .contextFetchDone .. => none
  | .putArrived .. => none
  | .getReqArrived .. => none
  | .getRspArrived .. => none
  | .sendArrived .. => none
  | .sendRtsArrived .. => none
  | .finArrived .. => none
  | .ackArrived .. => none
  | .nackArrived .. => none
  | .atomicArrived .. => none
  | .atomicRspArrived .. => none
  | .lockArrived .. => none
  | .lockRspArrived .. => none
  | .lockNoticeArrived .. => none
  | .mcPutArrived .. => none
  | .clUpArrived .. => none
  | .clDownArrived .. => none
  | .clAckArrived .. => none
  | .clAbortArrived .. => none
  | .clBusyArrived .. => none
  | .exBatchArrived .. => none
  | .exCreditArrived .. => none
  | .retransmitTimerExpired .. => none
  | .nackBackoffExpired .. => none
  | .nackWaitLimitExpired .. => none
  | .ackTimeExpired .. => none
  | .receiverRecordExpired .. => none
  | .msgidQuarantineEnd .. => none
  | .flowEntryIdle .. => none
  | .rdvLimitExpired .. => none
  | .rdvCloseExpired .. => none
  | .xlInvalCmdWrite who _ _ => some who
  | .xlInvalComplete .. => none
  | .xlDomWrite who _ _ _ => some who
  | .domainSweepDone .. => none
  | .pageWalkDone .. => none
  | .xlPkrrWrite .. => none
  | .hostAccessFinished .. => none
  | .mrCmdRevoke who _ _ => some who
  | .revokeFlushReadDone .. => none
  | .mrPageResolveRetry who _ _ => some who
  | .mrPageResolveFail _ who _ _ => some who
  | .faultResolveLimitExpired .. => none
  | .faultFailHoldExpired .. => none
  | .cxlMemRead .. => none
  | .cxlMemWrite .. => none
  | .cxlMemWritePartial .. => none
  | .cxlMemSpecRead .. => none
  | .farCacheFetchDone .. => none
  | .writeBackPutDone .. => none
  | .sharedRwPutDone .. => none
  | .wbRetryTimer .. => none
  | .gwLimitExpired .. => none
  | .gwFlushWriteback who _ _ _ => some who
  | .gwFlushEvict who _ _ _ => some who
  | .gwFlushDiscard who _ _ _ => some who
  | .gwFlushComplete .. => none
  | .hdmDecoderCommit .. => none
  | .doorbellWrite .. => none
  | .pushSlotWrite .. => none
  | .descriptorFetchDone .. => none
  | .descNop .. => none
  | .descPut .. => none
  | .descGet .. => none
  | .descSend .. => none
  | .descRecv .. => none
  | .descProbe .. => none
  | .descCancel .. => none
  | .descAtomic .. => none
  | .descLock .. => none
  | .descReg .. => none
  | .descRevoke .. => none
  | .descResolve .. => none
  | .descInval .. => none
  | .descColl .. => none
  | .descCollAbort .. => none
  | .descExSend .. => none
  | .descExFlush .. => none
  | .descExConsume .. => none
  | .cqDoorbellWrite _ who _ _ _ _ => some who
  | .eqDoorbellWrite _ who _ _ _ _ => some who
  | .interruptModerationExpired .. => none
  | .cqStallLimitExpired .. => none
  | .qmCmdEqCreate who _ _ _ => some who
  | .qmCmdCqCreate who _ _ _ => some who
  | .qmCmdWqCreate who _ _ _ => some who
  | .qmCmdEcOpen who _ _ _ => some who
  | .qmCmdEcClose _ who _ _ _ => some who
  | .qmCmdDestroy who _ _ _ => some who
  | .qmCmdReset who _ _ _ => some who
  | .qmCmdQuery who _ _ _ => some who
  | .perstAssert .. => none
  | .hotResetStart .. => none
  | .surpriseLinkDown .. => none
  | .portResetComplete .. => none
  | .hostLinkUp .. => none
  | .pf0EnablesSet .. => none
  | .flrStart .. => none
  | .flrComplete .. => none
  | .flrWedgeTimeout .. => none
  | .vfEnableClear .. => none
  | .d3hotEnter .. => none
  | .d0Return .. => none
  | .l0pIdleNarrow .. => none
  | .l0pRestore .. => none
  | .l1IdleEntry .. => none
  | .collClCmdAbort who _ _ => some who
  | .clCmdReset who _ _ => some who
  | .clHopRtoExpired .. => none
  | .clOpLimitExpired .. => none
  | .exRingCiWrite who _ _ _ => some who
  | .exBatchTimer .. => none
  | .exRtoExpired .. => none
  | .exProbeTimer .. => none
  | .exRingCopy .. => none
  | .exRingStall .. => none
  | .aliasAcquireRead .. => none
  | .aliasTryRead .. => none
  | .aliasReleaseRead .. => none
  | .aliasResultRead .. => none
  | .aliasMarginExpired .. => none
  | .lockWaitExpired .. => none
  | .abandonWaitExpired .. => none
  | .abandonResendTimer .. => none
  | .kilnGatePass .. => none
  | .policerRelease .. => none
  | .injectionSelect .. => none
  | .sliceGrant .. => none
  | .calendarSlotAdvance .. => none
  | .queueMonitorSample .. => none
  | .kilnPeriod .. => none
  | .vcoreStep .. => none
  | .thermSoftStep .. => none
  | .avsCalibration .. => none
  | .avsRetry .. => none
  | .knBudgetWrite who _ _ => some who
  | .faultRaised .. => none
  | .brokenWireDetected .. => none
  | .fcCmdRelease who _ _ _ _ _ => some who
  | .fcCmdChipReset who _ _ => some who
  | .fcCmdSelftest who _ => some who
  | .selftestDone .. => none
  | .fcPendClear who _ _ => some who
  | .tileFail .. => none
  | .mgmtPairFail .. => none
  | .mgmtPairRetestDone .. => none
  | .watchdogRestart .. => none
  | .watchdogExpired .. => none
  | .hbmStackFail .. => none
  | .hbmRemirrorDone => none
  | .fwDlCmdWrite who _ _ => some who
  | .mctpDownload .. => none
  | .fwBlockWritten .. => none
  | .fwCmdActivate who _ _ => some who
  | .mctpActivate .. => none
  | .fwWarmBootDone .. => none
  | .fwSwapPrepared .. => none
  | .fwHealthOk => none
  | .fwCmdConfirm who _ => some who
  | .mctpConfirm .. => none
  | .healthWindowExpired .. => none
  | .fwCmdRecoveryReq who _ _ => some who
  | .fwCmdCommitSvn who _ => some who
  | .fwCmdRevokeKey who _ _ _ => some who
  | .mctpGetStatus .. => none
  | .mctpGetCert .. => none
  | .mctpAttest .. => none
  | .mctpCsrRead .. => none
  | .mctpCsrWrite .. => none
  | .jtagDebugUnlock .. => none
  | .supplyWarning .. => none
  | .supplyAboveRecovery .. => none
  | .supplyRecoveryDone .. => none
  | .supplyReset .. => none
  | .vmonOpenTest .. => none
  | .thermtrip .. => none
  | .refclkLoss .. => none
  | .i3cBusStuck .. => none
  | .i3cSdaRelease .. => none
  | .cgEnable _ who _ _ _ => some who
  | .cgDisable _ who _ _ _ => some who
  | .cgClear _ who _ _ _ _ => some who
  | .cgCheckDone .. => none
  | .cgRampDone .. => none
  | .cgLimitEngage .. => none
  | .cgLimitRelease .. => none
  | .cgFaultTimerExpired .. => none
  | .cgHardShort .. => none
  | .cgBackoffExpired .. => none
  | .cgPgQualified .. => none
  | .cgOffsetRezero .. => none
  | .cgMeasureTick .. => none
  | .pmLevelSample .. => none
  | .pmFreezeWrite _ who _ _ => some who
  | .pmSnapWrite _ who _ _ => some who
  | .pmSnapshotPeriod .. => none
  | .pmDrainCmd who _ _ => some who
  | .pmDrainDone => none
  | .pmCounterWrite who _ _ _ => some who
  | .patinaPeriodicWrite .. => none
  | .pf0EnablesCleared .. => none
  | .perstDeassert .. => none
  | .blockResetDone .. => none
  | .noSignalTimeout .. => none
  | .i3cTargetReset => none

/-- The sender of a well-formed command is one that the Orkor has. -/
def Senders.Statement (i : Instr) : Prop := i.wf = true → ∀ who ∈ sender i, who.wf = true

theorem left_of_and {a b : Bool} (h : (a && b) = true) : a = true := (Bool.and_eq_true_iff.mp h).1

theorem senders_of {i : Instr} {w : Who} (h : sender i = some w) (h' : i.wf = true → w.wf = true) : Senders.Statement i := by
  intro hi who hw
  rw [h] at hw
  cases Option.mem_some_iff.mp hw
  exact h' hi

theorem Senders.powerOnReset : Statement .powerOnReset := fun _ _ h => nomatch h
theorem Senders.chipRstNAssert : Statement .chipRstNAssert := fun _ _ h => nomatch h
theorem Senders.chipRstNRelease : Statement .chipRstNRelease := fun _ _ h => nomatch h
theorem Senders.bootSlotVerified {a b c} : Statement (.bootSlotVerified a b c) := fun _ _ h => nomatch h
theorem Senders.buildEnterRun {a} : Statement (.buildEnterRun a) := fun _ _ h => nomatch h
theorem Senders.modeCtlEnterTest {a b} : Statement (.modeCtlEnterTest a b) := senders_of rfl fun h => left_of_and h
theorem Senders.testEntryDone : Statement .testEntryDone := fun _ _ h => nomatch h
theorem Senders.modeCtlLeaveTest {a b} : Statement (.modeCtlLeaveTest a b) := senders_of rfl fun h => left_of_and h
theorem Senders.deviceIdWrite {a b c d} : Statement (.deviceIdWrite a b c d) := senders_of rfl fun h => left_of_and h
theorem Senders.csrWriteGeneric {a b c d} : Statement (.csrWriteGeneric a b c d) := senders_of rfl fun h => left_of_and (left_of_and h)
theorem Senders.csrReadClear {a b c} : Statement (.csrReadClear a b c) := senders_of rfl fun h => left_of_and (left_of_and h)
theorem Senders.armStageFetchHost {a b c} : Statement (.armStageFetchHost a b c) := senders_of rfl fun h => left_of_and h
theorem Senders.armStageFetchSlot {a b} : Statement (.armStageFetchSlot a b) := senders_of rfl fun h => left_of_and h
theorem Senders.armStageDiscard {a b} : Statement (.armStageDiscard a b) := senders_of rfl fun h => left_of_and h
theorem Senders.armatureFetchDone {a} : Statement (.armatureFetchDone a) := fun _ _ h => nomatch h
theorem Senders.armSignerWrite {a b c} : Statement (.armSignerWrite a b c) := senders_of rfl fun h => left_of_and h
theorem Senders.armDrainWrite {a b c} : Statement (.armDrainWrite a b c) := senders_of rfl fun h => left_of_and h
theorem Senders.tileDrained {a} : Statement (.tileDrained a) := fun _ _ h => nomatch h
theorem Senders.txnClaim {a b c d} : Statement (.txnClaim a b c d) := senders_of rfl fun h => left_of_and h
theorem Senders.txnBegin {a b c d} : Statement (.txnBegin a b c d) := senders_of rfl fun h => left_of_and h
theorem Senders.txnStageWrite {a b c d e} : Statement (.txnStageWrite a b c d e) := senders_of rfl fun h => left_of_and (left_of_and h)
theorem Senders.txnCommit {a b c d} : Statement (.txnCommit a b c d) := senders_of rfl fun h => left_of_and h
theorem Senders.txnCommitEpoch {a} : Statement (.txnCommitEpoch a) := fun _ _ h => nomatch h
theorem Senders.recastPrepDone {a} : Statement (.recastPrepDone a) := fun _ _ h => nomatch h
theorem Senders.holdExit {a} : Statement (.holdExit a) := fun _ _ h => nomatch h
theorem Senders.txnAbort {a b c d} : Statement (.txnAbort a b c d) := senders_of rfl fun h => left_of_and h
theorem Senders.txnIdleLimit {a} : Statement (.txnIdleLimit a) := fun _ _ h => nomatch h
theorem Senders.lockBitsSet {a b c} : Statement (.lockBitsSet a b c) := senders_of rfl fun h => left_of_and h
theorem Senders.packetHeadLookup {a b c} : Statement (.packetHeadLookup a b c) := fun _ _ h => nomatch h
theorem Senders.cellEpochMatch {a b c} : Statement (.cellEpochMatch a b c) := fun _ _ h => nomatch h
theorem Senders.bankSwapCopyDone {a} : Statement (.bankSwapCopyDone a) := fun _ _ h => nomatch h
theorem Senders.cellStallLimit {a b} : Statement (.cellStallLimit a b) := fun _ _ h => nomatch h
theorem Senders.bankFail {a b c d} : Statement (.bankFail a b c d) := fun _ _ h => nomatch h
theorem Senders.bankRepairDone {a} : Statement (.bankRepairDone a) := fun _ _ h => nomatch h
theorem Senders.codewordPairReceived {a b c} : Statement (.codewordPairReceived a b c) := fun _ _ h => nomatch h
theorem Senders.frameReceived {a b c} : Statement (.frameReceived a b c) := fun _ _ h => nomatch h
theorem Senders.frameTransmit {a b c} : Statement (.frameTransmit a b c) := fun _ _ h => nomatch h
theorem Senders.nackWaitExpired {a b c} : Statement (.nackWaitExpired a b c) := fun _ _ h => nomatch h
theorem Senders.recoverNoFrameTimeout {a b} : Statement (.recoverNoFrameTimeout a b) := fun _ _ h => nomatch h
theorem Senders.recoverLimitExpired {a b} : Statement (.recoverLimitExpired a b) := fun _ _ h => nomatch h
theorem Senders.noLaneTimeout {a b} : Statement (.noLaneTimeout a b) := fun _ _ h => nomatch h
theorem Senders.returnForceTimeout {a b} : Statement (.returnForceTimeout a b) := fun _ _ h => nomatch h
theorem Senders.probeTimer {a b} : Statement (.probeTimer a b) := fun _ _ h => nomatch h
theorem Senders.llDrainWrite {a b c d e} : Statement (.llDrainWrite a b c d e) := senders_of rfl fun h => left_of_and (left_of_and h)
theorem Senders.drainLimitExpired {a b} : Statement (.drainLimitExpired a b) := fun _ _ h => nomatch h
theorem Senders.laneDetectDone {a b c} : Statement (.laneDetectDone a b c) := fun _ _ h => nomatch h
theorem Senders.laneSignalDetected {a b} : Statement (.laneSignalDetected a b) := fun _ _ h => nomatch h
theorem Senders.trainingFrameReceived {a b c d e} : Statement (.trainingFrameReceived a b c d e) := fun _ _ h => nomatch h
theorem Senders.laneQualifyDone {a b c d e} : Statement (.laneQualifyDone a b c d e) := fun _ _ h => nomatch h
theorem Senders.lanePhaseLimitExpired {a b} : Statement (.lanePhaseLimitExpired a b) := fun _ _ h => nomatch h
theorem Senders.laneFailedRetryTimer {a b} : Statement (.laneFailedRetryTimer a b) := fun _ _ h => nomatch h
theorem Senders.lnCtlRetrain {a b c d e} : Statement (.lnCtlRetrain a b c d e) := senders_of rfl fun h => left_of_and (left_of_and h)
theorem Senders.lnCtlRecal {a b c d e} : Statement (.lnCtlRecal a b c d e) := senders_of rfl fun h => left_of_and (left_of_and h)
theorem Senders.laneRecalCheck {a b} : Statement (.laneRecalCheck a b) := fun _ _ h => nomatch h
theorem Senders.recalSpareLocked {a b} : Statement (.recalSpareLocked a b) := fun _ _ h => nomatch h
theorem Senders.recalSliceQualified {a b c d} : Statement (.recalSliceQualified a b c d) := fun _ _ h => nomatch h
theorem Senders.laneSelfCheckFail {a b} : Statement (.laneSelfCheckFail a b) := fun _ _ h => nomatch h
theorem Senders.laneLockHuntExpired {a b} : Statement (.laneLockHuntExpired a b) := fun _ _ h => nomatch h
theorem Senders.spareSwapResume {a b} : Statement (.spareSwapResume a b) := fun _ _ h => nomatch h
theorem Senders.failedSliceRetestDone {a b c} : Statement (.failedSliceRetestDone a b c) := fun _ _ h => nomatch h
theorem Senders.routeNoticeReceived {a b c} : Statement (.routeNoticeReceived a b c) := fun _ _ h => nomatch h
theorem Senders.settleTimerExpired {a} : Statement (.settleTimerExpired a) := fun _ _ h => nomatch h
theorem Senders.joinReceived {a b c} : Statement (.joinReceived a b c) := fun _ _ h => nomatch h
theorem Senders.joinAckReceived {a b c} : Statement (.joinAckReceived a b c) := fun _ _ h => nomatch h
theorem Senders.joinRepeatTimer {a} : Statement (.joinRepeatTimer a) := fun _ _ h => nomatch h
theorem Senders.joinWindowExpired {a} : Statement (.joinWindowExpired a) := fun _ _ h => nomatch h
theorem Senders.epochRepeatTimer {a} : Statement (.epochRepeatTimer a) := fun _ _ h => nomatch h
theorem Senders.epochNoticeReceived {a b c} : Statement (.epochNoticeReceived a b c) := fun _ _ h => nomatch h
theorem Senders.packetInject {a b c} : Statement (.packetInject a b c) := fun _ _ h => nomatch h
theorem Senders.contextFetchDone {a b c} : Statement (.contextFetchDone a b c) := fun _ _ h => nomatch h
theorem Senders.putArrived {a b c d} : Statement (.putArrived a b c d) := fun _ _ h => nomatch h
theorem Senders.getReqArrived {a b c d} : Statement (.getReqArrived a b c d) := fun _ _ h => nomatch h
theorem Senders.getRspArrived {a b c} : Statement (.getRspArrived a b c) := fun _ _ h => nomatch h
theorem Senders.sendArrived {a b c d} : Statement (.sendArrived a b c d) := fun _ _ h => nomatch h
theorem Senders.sendRtsArrived {a b c} : Statement (.sendRtsArrived a b c) := fun _ _ h => nomatch h
theorem Senders.finArrived {a b c} : Statement (.finArrived a b c) := fun _ _ h => nomatch h
theorem Senders.ackArrived {a b c} : Statement (.ackArrived a b c) := fun _ _ h => nomatch h
theorem Senders.nackArrived {a b c} : Statement (.nackArrived a b c) := fun _ _ h => nomatch h
theorem Senders.atomicArrived {a b c d} : Statement (.atomicArrived a b c d) := fun _ _ h => nomatch h
theorem Senders.atomicRspArrived {a b c} : Statement (.atomicRspArrived a b c) := fun _ _ h => nomatch h
theorem Senders.lockArrived {a b c d} : Statement (.lockArrived a b c d) := fun _ _ h => nomatch h
theorem Senders.lockRspArrived {a b c} : Statement (.lockRspArrived a b c) := fun _ _ h => nomatch h
theorem Senders.lockNoticeArrived {a b c} : Statement (.lockNoticeArrived a b c) := fun _ _ h => nomatch h
theorem Senders.mcPutArrived {a b c} : Statement (.mcPutArrived a b c) := fun _ _ h => nomatch h
theorem Senders.clUpArrived {a b c} : Statement (.clUpArrived a b c) := fun _ _ h => nomatch h
theorem Senders.clDownArrived {a b c} : Statement (.clDownArrived a b c) := fun _ _ h => nomatch h
theorem Senders.clAckArrived {a b c} : Statement (.clAckArrived a b c) := fun _ _ h => nomatch h
theorem Senders.clAbortArrived {a b c} : Statement (.clAbortArrived a b c) := fun _ _ h => nomatch h
theorem Senders.clBusyArrived {a b c} : Statement (.clBusyArrived a b c) := fun _ _ h => nomatch h
theorem Senders.exBatchArrived {a b c} : Statement (.exBatchArrived a b c) := fun _ _ h => nomatch h
theorem Senders.exCreditArrived {a b c} : Statement (.exCreditArrived a b c) := fun _ _ h => nomatch h
theorem Senders.retransmitTimerExpired {a b} : Statement (.retransmitTimerExpired a b) := fun _ _ h => nomatch h
theorem Senders.nackBackoffExpired {a b c} : Statement (.nackBackoffExpired a b c) := fun _ _ h => nomatch h
theorem Senders.nackWaitLimitExpired {a b c} : Statement (.nackWaitLimitExpired a b c) := fun _ _ h => nomatch h
theorem Senders.ackTimeExpired {a b c} : Statement (.ackTimeExpired a b c) := fun _ _ h => nomatch h
theorem Senders.receiverRecordExpired {a b c} : Statement (.receiverRecordExpired a b c) := fun _ _ h => nomatch h
theorem Senders.msgidQuarantineEnd {a b} : Statement (.msgidQuarantineEnd a b) := fun _ _ h => nomatch h
theorem Senders.flowEntryIdle {a b c d} : Statement (.flowEntryIdle a b c d) := fun _ _ h => nomatch h
theorem Senders.rdvLimitExpired {a b} : Statement (.rdvLimitExpired a b) := fun _ _ h => nomatch h
theorem Senders.rdvCloseExpired {a b} : Statement (.rdvCloseExpired a b) := fun _ _ h => nomatch h
theorem Senders.xlInvalCmdWrite {a b c} : Statement (.xlInvalCmdWrite a b c) := senders_of rfl fun h => left_of_and h
theorem Senders.xlInvalComplete {a b} : Statement (.xlInvalComplete a b) := fun _ _ h => nomatch h
theorem Senders.xlDomWrite {a b c d} : Statement (.xlDomWrite a b c d) := senders_of rfl fun h => left_of_and (left_of_and h)
theorem Senders.domainSweepDone {a} : Statement (.domainSweepDone a) := fun _ _ h => nomatch h
theorem Senders.pageWalkDone {a b c} : Statement (.pageWalkDone a b c) := fun _ _ h => nomatch h
theorem Senders.xlPkrrWrite {a b c d e} : Statement (.xlPkrrWrite a b c d e) := fun _ _ h => nomatch h
theorem Senders.hostAccessFinished {a b c d} : Statement (.hostAccessFinished a b c d) := fun _ _ h => nomatch h
theorem Senders.mrCmdRevoke {a b c} : Statement (.mrCmdRevoke a b c) := senders_of rfl fun h => left_of_and h
theorem Senders.revokeFlushReadDone {a b} : Statement (.revokeFlushReadDone a b) := fun _ _ h => nomatch h
theorem Senders.mrPageResolveRetry {a b c} : Statement (.mrPageResolveRetry a b c) := senders_of rfl fun h => left_of_and h
theorem Senders.mrPageResolveFail {a b c d} : Statement (.mrPageResolveFail a b c d) := senders_of rfl fun h => left_of_and h
theorem Senders.faultResolveLimitExpired {a b} : Statement (.faultResolveLimitExpired a b) := fun _ _ h => nomatch h
theorem Senders.faultFailHoldExpired {a b} : Statement (.faultFailHoldExpired a b) := fun _ _ h => nomatch h
theorem Senders.cxlMemRead {a b c} : Statement (.cxlMemRead a b c) := fun _ _ h => nomatch h
theorem Senders.cxlMemWrite {a b c d e} : Statement (.cxlMemWrite a b c d e) := fun _ _ h => nomatch h
theorem Senders.cxlMemWritePartial {a b c d e f} : Statement (.cxlMemWritePartial a b c d e f) := fun _ _ h => nomatch h
theorem Senders.cxlMemSpecRead {a} : Statement (.cxlMemSpecRead a) := fun _ _ h => nomatch h
theorem Senders.farCacheFetchDone {a b} : Statement (.farCacheFetchDone a b) := fun _ _ h => nomatch h
theorem Senders.writeBackPutDone {a b} : Statement (.writeBackPutDone a b) := fun _ _ h => nomatch h
theorem Senders.sharedRwPutDone {a b} : Statement (.sharedRwPutDone a b) := fun _ _ h => nomatch h
theorem Senders.wbRetryTimer {a b} : Statement (.wbRetryTimer a b) := fun _ _ h => nomatch h
theorem Senders.gwLimitExpired {a b} : Statement (.gwLimitExpired a b) := fun _ _ h => nomatch h
theorem Senders.gwFlushWriteback {a b c d} : Statement (.gwFlushWriteback a b c d) := senders_of rfl fun h => left_of_and h
theorem Senders.gwFlushEvict {a b c d} : Statement (.gwFlushEvict a b c d) := senders_of rfl fun h => left_of_and h
theorem Senders.gwFlushDiscard {a b c d} : Statement (.gwFlushDiscard a b c d) := senders_of rfl fun h => left_of_and h
theorem Senders.gwFlushComplete {a} : Statement (.gwFlushComplete a) := fun _ _ h => nomatch h
theorem Senders.hdmDecoderCommit {a b c d e f} : Statement (.hdmDecoderCommit a b c d e f) := fun _ _ h => nomatch h
theorem Senders.doorbellWrite {a b c d e f} : Statement (.doorbellWrite a b c d e f) := fun _ _ h => nomatch h
theorem Senders.pushSlotWrite {a b c d e} : Statement (.pushSlotWrite a b c d e) := fun _ _ h => nomatch h
theorem Senders.descriptorFetchDone {a b c d e} : Statement (.descriptorFetchDone a b c d e) := fun _ _ h => nomatch h
theorem Senders.descNop {a b c} : Statement (.descNop a b c) := fun _ _ h => nomatch h
theorem Senders.descPut {a b c} : Statement (.descPut a b c) := fun _ _ h => nomatch h
theorem Senders.descGet {a b c} : Statement (.descGet a b c) := fun _ _ h => nomatch h
theorem Senders.descSend {a b c} : Statement (.descSend a b c) := fun _ _ h => nomatch h
theorem Senders.descRecv {a b c} : Statement (.descRecv a b c) := fun _ _ h => nomatch h
theorem Senders.descProbe {a b c} : Statement (.descProbe a b c) := fun _ _ h => nomatch h
theorem Senders.descCancel {a b c} : Statement (.descCancel a b c) := fun _ _ h => nomatch h
theorem Senders.descAtomic {a b c} : Statement (.descAtomic a b c) := fun _ _ h => nomatch h
theorem Senders.descLock {a b c} : Statement (.descLock a b c) := fun _ _ h => nomatch h
theorem Senders.descReg {a b c} : Statement (.descReg a b c) := fun _ _ h => nomatch h
theorem Senders.descRevoke {a b c} : Statement (.descRevoke a b c) := fun _ _ h => nomatch h
theorem Senders.descResolve {a b c} : Statement (.descResolve a b c) := fun _ _ h => nomatch h
theorem Senders.descInval {a b c} : Statement (.descInval a b c) := fun _ _ h => nomatch h
theorem Senders.descColl {a b c d} : Statement (.descColl a b c d) := fun _ _ h => nomatch h
theorem Senders.descCollAbort {a b c} : Statement (.descCollAbort a b c) := fun _ _ h => nomatch h
theorem Senders.descExSend {a b c d} : Statement (.descExSend a b c d) := fun _ _ h => nomatch h
theorem Senders.descExFlush {a b c} : Statement (.descExFlush a b c) := fun _ _ h => nomatch h
theorem Senders.descExConsume {a b c} : Statement (.descExConsume a b c) := fun _ _ h => nomatch h
theorem Senders.cqDoorbellWrite {a b c d e f} : Statement (.cqDoorbellWrite a b c d e f) := senders_of rfl fun h => left_of_and (left_of_and (left_of_and h))
theorem Senders.eqDoorbellWrite {a b c d e f} : Statement (.eqDoorbellWrite a b c d e f) := senders_of rfl fun h => left_of_and (left_of_and (left_of_and h))
theorem Senders.interruptModerationExpired {a b c d} : Statement (.interruptModerationExpired a b c d) := fun _ _ h => nomatch h
theorem Senders.cqStallLimitExpired {a b c} : Statement (.cqStallLimitExpired a b c) := fun _ _ h => nomatch h
theorem Senders.qmCmdEqCreate {a b c d} : Statement (.qmCmdEqCreate a b c d) := senders_of rfl fun h => left_of_and (left_of_and (left_of_and h))
theorem Senders.qmCmdCqCreate {a b c d} : Statement (.qmCmdCqCreate a b c d) := senders_of rfl fun h => left_of_and (left_of_and (left_of_and h))
theorem Senders.qmCmdWqCreate {a b c d} : Statement (.qmCmdWqCreate a b c d) := senders_of rfl fun h => left_of_and (left_of_and (left_of_and h))
theorem Senders.qmCmdEcOpen {a b c d} : Statement (.qmCmdEcOpen a b c d) := senders_of rfl fun h => left_of_and (left_of_and (left_of_and h))
theorem Senders.qmCmdEcClose {a b c d e} : Statement (.qmCmdEcClose a b c d e) := senders_of rfl fun h => left_of_and (left_of_and (left_of_and h))
theorem Senders.qmCmdDestroy {a b c d} : Statement (.qmCmdDestroy a b c d) := senders_of rfl fun h => left_of_and (left_of_and (left_of_and h))
theorem Senders.qmCmdReset {a b c d} : Statement (.qmCmdReset a b c d) := senders_of rfl fun h => left_of_and (left_of_and (left_of_and h))
theorem Senders.qmCmdQuery {a b c d} : Statement (.qmCmdQuery a b c d) := senders_of rfl fun h => left_of_and (left_of_and (left_of_and h))
theorem Senders.perstAssert {a b} : Statement (.perstAssert a b) := fun _ _ h => nomatch h
theorem Senders.hotResetStart {a b} : Statement (.hotResetStart a b) := fun _ _ h => nomatch h
theorem Senders.surpriseLinkDown {a b} : Statement (.surpriseLinkDown a b) := fun _ _ h => nomatch h
theorem Senders.portResetComplete {a} : Statement (.portResetComplete a) := fun _ _ h => nomatch h
theorem Senders.hostLinkUp {a b c d e} : Statement (.hostLinkUp a b c d e) := fun _ _ h => nomatch h
theorem Senders.pf0EnablesSet {a b c d} : Statement (.pf0EnablesSet a b c d) := fun _ _ h => nomatch h
theorem Senders.flrStart {a b c} : Statement (.flrStart a b c) := fun _ _ h => nomatch h
theorem Senders.flrComplete {a b} : Statement (.flrComplete a b) := fun _ _ h => nomatch h
theorem Senders.flrWedgeTimeout {a b c} : Statement (.flrWedgeTimeout a b c) := fun _ _ h => nomatch h
theorem Senders.vfEnableClear {a b} : Statement (.vfEnableClear a b) := fun _ _ h => nomatch h
theorem Senders.d3hotEnter {a b} : Statement (.d3hotEnter a b) := fun _ _ h => nomatch h
theorem Senders.d0Return {a b} : Statement (.d0Return a b) := fun _ _ h => nomatch h
theorem Senders.l0pIdleNarrow {a b} : Statement (.l0pIdleNarrow a b) := fun _ _ h => nomatch h
theorem Senders.l0pRestore {a b} : Statement (.l0pRestore a b) := fun _ _ h => nomatch h
theorem Senders.l1IdleEntry {a b} : Statement (.l1IdleEntry a b) := fun _ _ h => nomatch h
theorem Senders.collClCmdAbort {a b c} : Statement (.collClCmdAbort a b c) := senders_of rfl fun h => left_of_and (left_of_and h)
theorem Senders.clCmdReset {a b c} : Statement (.clCmdReset a b c) := senders_of rfl fun h => left_of_and (left_of_and h)
theorem Senders.clHopRtoExpired {a b c d e f} : Statement (.clHopRtoExpired a b c d e f) := fun _ _ h => nomatch h
theorem Senders.clOpLimitExpired {a b c} : Statement (.clOpLimitExpired a b c) := fun _ _ h => nomatch h
theorem Senders.exRingCiWrite {a b c d} : Statement (.exRingCiWrite a b c d) := senders_of rfl fun h => left_of_and (left_of_and h)
theorem Senders.exBatchTimer {a b c d} : Statement (.exBatchTimer a b c d) := fun _ _ h => nomatch h
theorem Senders.exRtoExpired {a b c d} : Statement (.exRtoExpired a b c d) := fun _ _ h => nomatch h
theorem Senders.exProbeTimer {a b c} : Statement (.exProbeTimer a b c) := fun _ _ h => nomatch h
theorem Senders.exRingCopy {a b} : Statement (.exRingCopy a b) := fun _ _ h => nomatch h
theorem Senders.exRingStall {a b} : Statement (.exRingStall a b) := fun _ _ h => nomatch h
theorem Senders.aliasAcquireRead {a b c d} : Statement (.aliasAcquireRead a b c d) := fun _ _ h => nomatch h
theorem Senders.aliasTryRead {a b c d} : Statement (.aliasTryRead a b c d) := fun _ _ h => nomatch h
theorem Senders.aliasReleaseRead {a b c d} : Statement (.aliasReleaseRead a b c d) := fun _ _ h => nomatch h
theorem Senders.aliasResultRead {a b c d} : Statement (.aliasResultRead a b c d) := fun _ _ h => nomatch h
theorem Senders.aliasMarginExpired {a b} : Statement (.aliasMarginExpired a b) := fun _ _ h => nomatch h
theorem Senders.lockWaitExpired {a b c d e} : Statement (.lockWaitExpired a b c d e) := fun _ _ h => nomatch h
theorem Senders.abandonWaitExpired {a b c} : Statement (.abandonWaitExpired a b c) := fun _ _ h => nomatch h
theorem Senders.abandonResendTimer {a b} : Statement (.abandonResendTimer a b) := fun _ _ h => nomatch h
theorem Senders.kilnGatePass {a b c d} : Statement (.kilnGatePass a b c d) := fun _ _ h => nomatch h
theorem Senders.policerRelease {a b} : Statement (.policerRelease a b) := fun _ _ h => nomatch h
theorem Senders.injectionSelect {a b} : Statement (.injectionSelect a b) := fun _ _ h => nomatch h
theorem Senders.sliceGrant {a b} : Statement (.sliceGrant a b) := fun _ _ h => nomatch h
theorem Senders.calendarSlotAdvance {a} : Statement (.calendarSlotAdvance a) := fun _ _ h => nomatch h
theorem Senders.queueMonitorSample {a b} : Statement (.queueMonitorSample a b) := fun _ _ h => nomatch h
theorem Senders.kilnPeriod {a b c d e} : Statement (.kilnPeriod a b c d e) := fun _ _ h => nomatch h
theorem Senders.vcoreStep {a b} : Statement (.vcoreStep a b) := fun _ _ h => nomatch h
theorem Senders.thermSoftStep {a b} : Statement (.thermSoftStep a b) := fun _ _ h => nomatch h
theorem Senders.avsCalibration {a b c d} : Statement (.avsCalibration a b c d) := fun _ _ h => nomatch h
theorem Senders.avsRetry {a b c} : Statement (.avsRetry a b c) := fun _ _ h => nomatch h
theorem Senders.knBudgetWrite {a b c} : Statement (.knBudgetWrite a b c) := senders_of rfl fun h => left_of_and h
theorem Senders.faultRaised {a b c} : Statement (.faultRaised a b c) := fun _ _ h => nomatch h
theorem Senders.brokenWireDetected {a b} : Statement (.brokenWireDetected a b) := fun _ _ h => nomatch h
theorem Senders.fcCmdRelease {a b c d e f} : Statement (.fcCmdRelease a b c d e f) := senders_of rfl fun h => left_of_and (left_of_and (left_of_and h))
theorem Senders.fcCmdChipReset {a b c} : Statement (.fcCmdChipReset a b c) := senders_of rfl fun h => left_of_and h
theorem Senders.fcCmdSelftest {a b} : Statement (.fcCmdSelftest a b) := senders_of rfl fun h => left_of_and h
theorem Senders.selftestDone {a} : Statement (.selftestDone a) := fun _ _ h => nomatch h
theorem Senders.fcPendClear {a b c} : Statement (.fcPendClear a b c) := senders_of rfl fun h => left_of_and h
theorem Senders.tileFail {a b} : Statement (.tileFail a b) := fun _ _ h => nomatch h
theorem Senders.mgmtPairFail {a} : Statement (.mgmtPairFail a) := fun _ _ h => nomatch h
theorem Senders.mgmtPairRetestDone {a b c} : Statement (.mgmtPairRetestDone a b c) := fun _ _ h => nomatch h
theorem Senders.watchdogRestart {a} : Statement (.watchdogRestart a) := fun _ _ h => nomatch h
theorem Senders.watchdogExpired {a} : Statement (.watchdogExpired a) := fun _ _ h => nomatch h
theorem Senders.hbmStackFail {a b} : Statement (.hbmStackFail a b) := fun _ _ h => nomatch h
theorem Senders.hbmRemirrorDone : Statement .hbmRemirrorDone := fun _ _ h => nomatch h
theorem Senders.fwDlCmdWrite {a b c} : Statement (.fwDlCmdWrite a b c) := senders_of rfl fun h => left_of_and h
theorem Senders.mctpDownload {a b c d} : Statement (.mctpDownload a b c d) := fun _ _ h => nomatch h
theorem Senders.fwBlockWritten {a b c} : Statement (.fwBlockWritten a b c) := fun _ _ h => nomatch h
theorem Senders.fwCmdActivate {a b c} : Statement (.fwCmdActivate a b c) := senders_of rfl fun h => left_of_and (left_of_and h)
theorem Senders.mctpActivate {a b} : Statement (.mctpActivate a b) := fun _ _ h => nomatch h
theorem Senders.fwWarmBootDone {a b} : Statement (.fwWarmBootDone a b) := fun _ _ h => nomatch h
theorem Senders.fwSwapPrepared {a} : Statement (.fwSwapPrepared a) := fun _ _ h => nomatch h
theorem Senders.fwHealthOk : Statement .fwHealthOk := fun _ _ h => nomatch h
theorem Senders.fwCmdConfirm {a b} : Statement (.fwCmdConfirm a b) := senders_of rfl fun h => left_of_and h
theorem Senders.mctpConfirm {a} : Statement (.mctpConfirm a) := fun _ _ h => nomatch h
theorem Senders.healthWindowExpired {a} : Statement (.healthWindowExpired a) := fun _ _ h => nomatch h
theorem Senders.fwCmdRecoveryReq {a b c} : Statement (.fwCmdRecoveryReq a b c) := senders_of rfl fun h => left_of_and h
theorem Senders.fwCmdCommitSvn {a b} : Statement (.fwCmdCommitSvn a b) := senders_of rfl fun h => left_of_and h
theorem Senders.fwCmdRevokeKey {a b c d} : Statement (.fwCmdRevokeKey a b c d) := senders_of rfl fun h => left_of_and (left_of_and h)
theorem Senders.mctpGetStatus {a} : Statement (.mctpGetStatus a) := fun _ _ h => nomatch h
theorem Senders.mctpGetCert {a b} : Statement (.mctpGetCert a b) := fun _ _ h => nomatch h
theorem Senders.mctpAttest {a b} : Statement (.mctpAttest a b) := fun _ _ h => nomatch h
theorem Senders.mctpCsrRead {a b} : Statement (.mctpCsrRead a b) := fun _ _ h => nomatch h
theorem Senders.mctpCsrWrite {a b c d} : Statement (.mctpCsrWrite a b c d) := fun _ _ h => nomatch h
theorem Senders.jtagDebugUnlock {a b} : Statement (.jtagDebugUnlock a b) := fun _ _ h => nomatch h
theorem Senders.supplyWarning {a b c} : Statement (.supplyWarning a b c) := fun _ _ h => nomatch h
theorem Senders.supplyAboveRecovery {a b c} : Statement (.supplyAboveRecovery a b c) := fun _ _ h => nomatch h
theorem Senders.supplyRecoveryDone {a b} : Statement (.supplyRecoveryDone a b) := fun _ _ h => nomatch h
theorem Senders.supplyReset {a b} : Statement (.supplyReset a b) := fun _ _ h => nomatch h
theorem Senders.vmonOpenTest {a b} : Statement (.vmonOpenTest a b) := fun _ _ h => nomatch h
theorem Senders.thermtrip {a} : Statement (.thermtrip a) := fun _ _ h => nomatch h
theorem Senders.refclkLoss {a b} : Statement (.refclkLoss a b) := fun _ _ h => nomatch h
theorem Senders.i3cBusStuck {a b} : Statement (.i3cBusStuck a b) := fun _ _ h => nomatch h
theorem Senders.i3cSdaRelease {a b} : Statement (.i3cSdaRelease a b) := fun _ _ h => nomatch h
theorem Senders.cgEnable {a b c d e} : Statement (.cgEnable a b c d e) := senders_of rfl fun h => left_of_and (left_of_and h)
theorem Senders.cgDisable {a b c d e} : Statement (.cgDisable a b c d e) := senders_of rfl fun h => left_of_and (left_of_and h)
theorem Senders.cgClear {a b c d e f} : Statement (.cgClear a b c d e f) := senders_of rfl fun h => left_of_and (left_of_and h)
theorem Senders.cgCheckDone {a b c} : Statement (.cgCheckDone a b c) := fun _ _ h => nomatch h
theorem Senders.cgRampDone {a b} : Statement (.cgRampDone a b) := fun _ _ h => nomatch h
theorem Senders.cgLimitEngage {a b} : Statement (.cgLimitEngage a b) := fun _ _ h => nomatch h
theorem Senders.cgLimitRelease {a b} : Statement (.cgLimitRelease a b) := fun _ _ h => nomatch h
theorem Senders.cgFaultTimerExpired {a b} : Statement (.cgFaultTimerExpired a b) := fun _ _ h => nomatch h
theorem Senders.cgHardShort {a b} : Statement (.cgHardShort a b) := fun _ _ h => nomatch h
theorem Senders.cgBackoffExpired {a b} : Statement (.cgBackoffExpired a b) := fun _ _ h => nomatch h
theorem Senders.cgPgQualified {a b} : Statement (.cgPgQualified a b) := fun _ _ h => nomatch h
theorem Senders.cgOffsetRezero {a b} : Statement (.cgOffsetRezero a b) := fun _ _ h => nomatch h
theorem Senders.cgMeasureTick {a b c d e} : Statement (.cgMeasureTick a b c d e) := fun _ _ h => nomatch h
theorem Senders.pmLevelSample {a} : Statement (.pmLevelSample a) := fun _ _ h => nomatch h
theorem Senders.pmFreezeWrite {a b c d} : Statement (.pmFreezeWrite a b c d) := senders_of rfl fun h => left_of_and h
theorem Senders.pmSnapWrite {a b c d} : Statement (.pmSnapWrite a b c d) := senders_of rfl fun h => left_of_and h
theorem Senders.pmSnapshotPeriod {a} : Statement (.pmSnapshotPeriod a) := fun _ _ h => nomatch h
theorem Senders.pmDrainCmd {a b c} : Statement (.pmDrainCmd a b c) := senders_of rfl fun h => left_of_and h
theorem Senders.pmDrainDone : Statement .pmDrainDone := fun _ _ h => nomatch h
theorem Senders.pmCounterWrite {a b c d} : Statement (.pmCounterWrite a b c d) := senders_of rfl fun h => left_of_and (left_of_and h)
theorem Senders.patinaPeriodicWrite {a b c} : Statement (.patinaPeriodicWrite a b c) := fun _ _ h => nomatch h
theorem Senders.pf0EnablesCleared {a b c d} : Statement (.pf0EnablesCleared a b c d) := fun _ _ h => nomatch h
theorem Senders.perstDeassert {a b} : Statement (.perstDeassert a b) := fun _ _ h => nomatch h
theorem Senders.blockResetDone {a b c} : Statement (.blockResetDone a b c) := fun _ _ h => nomatch h
theorem Senders.noSignalTimeout {a b} : Statement (.noSignalTimeout a b) := fun _ _ h => nomatch h
theorem Senders.i3cTargetReset : Statement .i3cTargetReset := fun _ _ h => nomatch h

end Sys2Proof.Laws
end

