-- ==== Sys2Proof/Laws/Reset.lean ====
section
/-!
SUPPORT. Laws/Reset.lean: what a reset leaves in the register file (R10 to R12).
-/

namespace Sys2Proof.Machine

/-- A field written with what it reads leaves its word as it was. -/
theorem putBits_self (x lo width : Nat) : putBits x lo width (x / 2 ^ lo % 2 ^ width) = x := by
  simp only [putBits, Nat.mod_mod]
  have e1 := Nat.mod_add_div x (2 ^ lo)
  have e2 := Nat.mod_add_div (x / 2 ^ lo) (2 ^ width)
  rw [Nat.div_div_eq_div_mul, ← Nat.pow_add] at e2
  have e3 : x = x % 2 ^ lo + 2 ^ lo * (x / 2 ^ lo % 2 ^ width + 2 ^ width * (x / 2 ^ (lo + width))) := by rw [e2]; exact e1.symm
  rw [Nat.mul_add, ← Nat.mul_assoc, ← Nat.pow_add] at e3
  rw [Nat.mul_comm _ (2 ^ lo), Nat.mul_comm _ (2 ^ (lo + width)), Nat.add_assoc]
  exact e3.symm

theorem wordSet_self (w : Word) (lo width : Nat) : wordSet w lo width (wordGet w lo width) = w := by
  simp only [wordSet, wordGet, putBits_self]
  exact BitVec.ofNat_toNat ..

/-- A word at its reset value is left as it is by every reset. -/
theorem wordReset_default (k : ResetKind) (key : Nat) : wordReset k key (csrDefault key) = csrDefault key := by
  have h : ∀ fs : List Field, fs.foldl
      (fun w f => if k.restores f.rst then wordSet w f.lo f.width (wordGet (csrDefault key) f.lo f.width) else w) (csrDefault key)
      = csrDefault key := by
    intro fs
    induction fs with
    | nil => rfl
    | cons f fs ih => simp only [List.foldl_cons, wordSet_self, ite_self]; exact ih
  exact h _

theorem mgetD_csrStore_same (m : Map Word) (k : Nat) (w : Word) : mgetD (csrStore m k w) k (csrDefault k) = w := by
  simp only [csrStore, mgetD]; split
  · simp [*]
  · simp

theorem mgetD_csrStore_ne (m : Map Word) {k k' : Nat} (w d : Word) (h : k' ≠ k) : mgetD (csrStore m k w) k' d = mgetD m k' d := by
  simp only [csrStore, mgetD]; split
  · rw [mget_mdel_ne _ h]
  · rw [mget_mset_ne _ _ h]

/-- Every word after a reset of the register file: reset where it is selected, else as it was. -/
theorem mgetD_csrReset (k : ResetKind) (p : Nat → Bool) (m : Map Word) (key : Nat) :
    mgetD (csrReset k p m) key (csrDefault key)
      = if p key then wordReset k key (mgetD m key (csrDefault key)) else mgetD m key (csrDefault key) := by
  induction m with
  | nil => simp [csrReset, mgetD, mget, wordReset_default]
  | cons a t ih =>
    obtain ⟨k', w⟩ := a
    have e : csrReset k p ((k', w) :: t) = csrStore (csrReset k p t) k' (if p k' then wordReset k k' w else w) := rfl
    rw [e]
    by_cases h : key = k'
    · subst h
      rw [mgetD_csrStore_same]
      simp [mgetD, mget]
    · rw [mgetD_csrStore_ne _ _ _ h, ih]
      simp [mgetD, mget, h]

end Sys2Proof.Machine
end

