-- ==== Sys2Proof/Tests/Slice0.lean ====
section
/-!
SUPPORT. Tests/Slice0.lean: a witness for every clause of every statement that has hypotheses, on small states; ill-formed commands that
the well-formedness check refuses; and values worked by hand from the rules.
-/

namespace Sys2Proof.Tests

open Sys2Proof Sys2Proof.Machine

set_option Elab.async false

/-! ### States to test on -/

/-- RUN with host port 0 serving and its link up, all 255 virtual functions enabled, as device 65 (member 1 of group 1). -/
def run : State :=
  let s := wrb (wr (wr State.reset F.modeStatBase 2) F.modeStatMode 2) F.modeStatHp0Serving true
  let s := wrb (wr s F.topDeviceIdId 65) F.topDeviceIdValid true
  let s := wr (wrb s F.hiPortStatLinkUp true 0) F.rtStatJoin 2
  setPort s 0 { cfg := { bme := true, mse := true, vfEnable := true, numVfs := 255, vfMse := true } }

/-- Whether a write is served, as a Bool. -/
def served (s : State) (who : Who) : Bool :=
  !holdOn s && !inRecovery s && match who with
    | .fn hp fn => decide (hp < 2) && decide (fn < 256) && !fnSilent s hp fn && fnEnabled s hp fn
    | .mgmt => firmwareRuns s && s.fw.waiting.isEmpty

theorem servedOf {s : State} {who : Who} (h : served s who = true) : Served s who := by
  cases who <;> simp_all [served, Served]

/-- The same device in TEST, and in BUILD. -/
def test : State := wr run F.modeStatBase 3
def build : State := wr run F.modeStatBase 1

/-- The management controller's transaction, in a state of TXN_STAT. -/
def txn (st : Nat) : State := wr (wr run F.txnOwnerOwner 3) F.txnStatSt st

/-- Zero bytes. -/
def zeros (n : Nat) : List Byte := List.replicate n 0

/-- Numbers laid out little-endian one after another: each is (bytes, value). -/
def layOut (l : List (Nat × Nat)) : List Byte := (l.map fun e => toBytes e.1 e.2).flatten

/-- A directory entry of Table 02-2: a section or component of 4,096 bytes at a page, its digest 7. -/
def dirOf (id page : Nat) : List Byte := layOut [(2, id), (2, 0), (4, 4096 * page), (4, 4096), (4, 0), (48, 7)]

/-- An armature stream that R46 accepts, of the default armature. -/
def goodArm : ArmStream :=
  { head := layOut [(4, 0x544D5241), (2, 1), (2, 0x0128), (4, 0), (4, 0x7080), (2, 6), (1, 0), (1, 0), (4, 64), (8, 0), (32, 0)]
      ++ ((List.range 6).map fun i => dirOf (i + 1) (i + 1)).flatten,
    bodies := List.replicate 6 7, recvLen := 0x7080, sigOk := true, arm := armDefault }

/-- A firmware image that Table 18-3 accepts. -/
def goodImage : Image :=
  { present := true, readError := false, keyHashOk := true, sigOk := true, armature := some goodArm, bodies := [7, 7, 0],
    head := layOut [(4, 0x57465446), (2, 1), (2, 0x0128), (4, 2), (4, 0), (4, 0x3000), (236, 0)] ++ dirOf 1 1 ++ dirOf 3 2 ++ zeros 64 }

/-- Port unit 5 in a link state. -/
def linkAs (st : Nat) : State := wr run F.llStatState st 5

/-- Port unit 5 in a link state, with what its link layer holds. -/
def linkWith (st : Nat) (l : LinkSt) : State := setLink (linkAs st) 5 l

/-- The 120 bytes of a frame control flit of BODY kind, and the flit with the FCRC of a frame whose other nine slots are zero. -/
def controlBody (kind : Nat) : Flit := layOut [(5, 0), (1, kind), (114, 0)]
def controlFlit (kind : Nat) : Flit := controlBody kind ++ toBytes 4 (if kind = 0 then 2373963794 else 274943831) ++ zeros 4
def frameOf (kind : Nat) : List Flit := List.replicate 9 (zeros 128) ++ [controlFlit kind]

theorem crc_run_append (n : Nat) (a b : List Byte) : crc32Run n (a ++ b) = crc32Run (crc32Run n a) b := List.foldl_append

/-- The CRC register after each further empty slot. -/
theorem crc_of_empty_slots (l : List Byte) :
    crc32Run 0xFFFFFFFF ((List.replicate 9 (zeros 128)).flatten ++ l) = crc32Run 2823063697 l := by
  have slot : ∀ n m, crc32Run n (zeros 128) = m → ∀ l, crc32Run n (zeros 128 ++ l) = crc32Run m l := by
    intro n m h l
    rw [crc_run_append, h]
  simp only [List.replicate, List.flatten_cons, List.flatten_nil, List.append_assoc, List.nil_append]
  rw [slot 4294967295 4158167844 (by decide +kernel), slot _ 1200442991 (by decide +kernel), slot _ 1158271177 (by decide +kernel),
    slot _ 3473084991 (by decide +kernel), slot _ 534250289 (by decide +kernel), slot _ 3318006521 (by decide +kernel),
    slot _ 225952960 (by decide +kernel), slot _ 290529667 (by decide +kernel), slot _ 2823063697 (by decide +kernel)]

theorem frame_crc {l : List Flit} {kind : Nat} (h : l = frameOf kind)
    (e : Nat.xor (crc32Run 2823063697 (controlBody kind ++ zeros 4 ++ zeros 4)) 0xFFFFFFFF = fcfWord (controlFlit kind) 15 % 2 ^ 32)
    (a : (controlFlit kind).take 120 = controlBody kind) (b : ((controlFlit kind).drop 124).take 4 = zeros 4) :
    frameCrc l = fcfWord (controlFlit kind) 15 % 2 ^ 32 := by
  subst h
  rw [← e, frameCrc, frameOf, List.getLast?_concat]
  simp only [List.dropLast_concat, a, b, crc32c, List.append_assoc, crc_of_empty_slots]
  rfl

/-- Port unit 5 in a link state, whose lane 10 delivered a frame, its blocks good or bad. -/
def framed (st kind : Nat) (bad : Bool) : State :=
  { linkAs st with lanes := [(10, { pair := some ⟨bad, false, true, dealLane (frameOf kind) 0 1⟩ })] }

/-- Port unit 5 in a link state with lane 10 in READY. -/
def sending1 (st : Nat) (l : LinkSt) : State := wr (linkWith st l) F.lnStatPhase 6 10

/-- What holds of every value of nothing. -/
theorem noneOf {α : Type} {P : α → Prop} {o : Option α} (h : o.isNone = true) : ∀ x, o = some x → P x := by
  intro x e
  simp [e] at h

theorem pairOf {α β : Type} {x : α × β} {c : β} (h : x.2 = c) : x = (x.1, c) := by rw [← h]

theorem noMember {α β : Type} {P : α → β → Prop} {l : List (α × β)} (h : l.isEmpty = true) : ∀ k m, (k, m) ∈ l → P k m := by
  intro k m e
  simp [List.isEmpty_iff.mp h] at e

/-- Lane 3 in a phase, with what its slice holds. -/
def laneAs (phase : Nat) (x : LaneSt) : State := { wr run F.lnStatPhase phase 3 with lanes := [(3, x)] }

/-- The spare slice of tile 0 in a stage, standing for lane 3 in a phase. -/
def spareAs (phase : Nat) (st : SpareStage) (x : LaneSt) : State :=
  { wr (wrb (laneAs phase x) F.lnStatSpareBusy true 256) F.lnStatServing 3 256 with spares := [(0, { stage := st })] }

/-- A sealed packet of device 130 (group 2) for this device, with EC 1, PSN 0 and the opcode's VC. -/
def pkt (op key off msgid flags : Nat) (payload : List Byte) : Pkt :=
  sealPkt { dst := 65, src := 130, tc := 0, vc := if opResponse op then 4 else 0, hop := 0, age := 1, flags := flags, op := op,
            len := payload.length, ec := 1, hcrc := 0, off := off, psn := 0, key := key, msgid := msgid, payload := payload, e2e := 0, stomp := 0 }

/-- A packet of one flit stored at input 8, with the copies given. -/
def stored (p : Pkt) (copies : List Copy) : SwPkt :=
  { inp := 8, hdr := p, arriveAt := 0, flits := 1, cells := [zeros 128], adopted := [true], bad := [], lost := [], inputLost := false,
    routed := !copies.isEmpty, unitBound := false, marked := false, inAccount := false, copies := copies, order := 0 }

/-- The switch holding one packet. -/
def holding (p : SwPkt) : State := { run with sw := { pkts := [(0, p)] } }

/-- A switch tile's repair under way. -/
def tileWith (t : TileSt) : State := { run with sw := { tiles := [(0, t)] } }

/-- EC 1 of PF0, open for every operation, with domain 1 and receive CQ 0. -/
def ctx : EcCtx :=
  { state := 1, hp := 0, fn := 0, agg := 0, ops := 31, dom := 1, pkrr := 0, rcq := 0, closing := false, closeAt := 0 }

/-- CQ 0 of port 0, of 64 entries. -/
def cq : Cq :=
  { fn := 0, addr := 0x10000, log2 := 6, vec := 0, poll := false, modCount := 0, modUs := 0, state := .ready, cause := 0, pi := 0, ci := 0,
    held := [], pendWritten := false, fullSince := none, armed := false, count := 0, firstAt := none }

/-- EC 1 open and cached, CQ 0, domain 1 of PF0 with page 0x100 in L1, and region 0 of that page, its key 0x20000. -/
def mem : State :=
  let s := register (wrb run F.xlDomValid true 1) 0 0 0 1 0 4096 0x100000 0 1 1 1 0
  { s with tp := { s.tp with ecs := [(1, ctx)], cache := [(1, ⟨false, false⟩)] }, hi := { s.hi with cqs := [(0, cq)] },
           xl := { s.xl with l1 := [(pageKey 1 0x100, 0x500F)] } }

/-- The states that a request passes through until its context has admitted it. -/
def taken (s : State) (p : Pkt) : State :=
  takeIn (if p.op = opAtomic ∨ p.op = opLock then work (atTime s 0) 4 (atKey (atTime s 0) p) p.tc else atTime s 0) p
def sampled (s : State) (p : Pkt) : State :=
  pmSample s 0 1 (arrivalId p) [p.ec, p.op, p.off, p.src, p.dst, p.tc, p.len]
def worked (s : State) (p : Pkt) : State := work (sampled (taken s p) p) 0 p.ec p.tc
def admitted (s : State) (p : Pkt) : State := if p.op = opSend ∨ p.op = opSendRts then work (worked s p) 1 p.ec p.tc else worked s p

/-- That a request reaches EC 1's context, in equations that evaluate. -/
abbrev Reaches (s : State) (p : Pkt) : Prop :=
  (holdOn s = false ∧ arrivalDrop (taken s p) p = none ∧ opResponse p.op = false)
    ∧ (shutToArrivals (admitted s p) = false ∧ rangeServes (admitted s p) p.ec = true ∧ cached (admitted s p) p.ec = true
      ∧ mhas (admitted s p).tp.parked p.ec = false)
    ∧ ctxOf (admitted s p) p.ec = some ctx ∧ serving (admitted s p) 0 = true ∧ bitAt 31 (opsBit p.op) = true

theorem reachesContext {s : State} {p : Pkt} (h : Reaches s p) : ReachesContext s 0 p (admitted s p) :=
  have ⟨way, gates, ec⟩ := h
  ⟨taken s p, worked s p, way.1, rfl, way.2.1, way.2.2, rfl, rfl, gates.1, gates.2.1, gates.2.2.1, gates.2.2.2,
    ctx, ec.1, rfl, ec.2.1, rfl, ec.2.2⟩

/-- The record that a new message of EC 1 takes. -/
def freshRec (op : Nat) : Rec :=
  { ec := 1, op := op, tc := 0, base := 0, placed := [], last := none, stamp := -1000, since := 0, firstAt := none, ce := false, bytes := 0,
    flag := none, rsp := none, running := false, seen := [], place := none, done := false }

/-- What the record check answers when a packet goes on. -/
def goState (s : State) (p : Pkt) : State :=
  match recCheck s p s.timeNs with
  | .go v _ _ => v
  | .stop v => v
def goRec (s : State) (p : Pkt) : Option Rec :=
  match recCheck s p s.timeNs with
  | .go _ _ r => some r
  | .stop _ => none
def recorded (s : State) (p : Pkt) : State := see (goState (admitted s p) p) (recKey p.src p.msgid) p (admitted s p).timeNs

theorem recCheck_goes {s : State} {p : Pkt} {r : Rec} (h : goRec s p = some r) :
    recCheck s p s.timeNs = .go (goState s p) (recKey p.src p.msgid) r := by
  unfold goRec goState at *
  unfold recCheck at *
  dsimp only at *
  split at h
  all_goals rename_i x y hx
  all_goals first
    | (cases h; rw [hx]; revert hx; split <;> intro hx <;> (repeat' split at hx) <;> cases hx <;> rfl)
    | cases h

theorem reachesRecord {s : State} {p : Pkt} {r : Rec} (h : Reaches s p) (h' : goRec (admitted s p) p = some r) :
    ReachesRecord s 0 p (recorded s p) (recKey p.src p.msgid) r :=
  ⟨_, _, reachesContext h, recCheck_goes h', rfl⟩

/-- What the region check and the translation answer. -/
def admOf (s : State) (p : Pkt) (n : Nat) : Option Adm :=
  match mrCheck s p n with
  | .admitted _ a => some a
  | .nack .. => none
def admState (s : State) (p : Pkt) (n : Nat) : State :=
  match mrCheck s p n with
  | .admitted u _ => u
  | .nack u .. => u
def placedState (s : State) (p : Pkt) (n : Nat) (a : Adm) : State := (translateAdm (admState s p n) a).1

theorem translated {s : State} {p : Pkt} {n : Nat} {a : Adm} {l : List (Nat × Nat)} (h : blockDown s 0x68 0 = false)
    (h1 : admOf s p n = some a) (h2 : (translateAdm (admState s p n) a).2 = .ok l) (h3 : 0 < n → ∀ x ∈ a.spans.head?, x.1 % n = 0)
    (h4 : a.spans = [] → n = 0) : Translated s p n (placedState s p n a) a l := by
  refine ⟨admState s p n, h, ?_, ?_, h3, h4⟩
  · unfold admOf at h1
    unfold admState
    split at h1 <;> rename_i hx <;> simp_all
  · rw [← h2]; rfl

/-- A request to region 0's first bytes, admitted there. -/
def admAt (cls len : Nat) : Adm :=
  { mr := some (0, 0), dom := 1, hp := 0, fn := 0, pkrr := 0, cls := cls, spans := [(0x100000, len)], recv := none }

/-- A message of EC 1 to device 130, under MSGID 7. -/
def msg (op total npkts : Nat) : Slot := { newMsg run 1 1 130 0 op total npkts .fin with msgid := 7 }

/-- A state in which a message is under way. -/
def sending (m : Slot) : State := { mem with tp := { mem.tp with slots := [(7, m)] } }

/-- A response's way to its message. -/
def responded (s : State) (p : Pkt) : State := work (sampled (takeIn (atTime s 0) p) p) 0 1 p.tc

theorem takenIn {s : State} {p : Pkt} (h : (!holdOn s && (arrivalDrop (takeIn (atTime s 0) p) p).isNone) = true) :
    TakenIn s 0 p (takeIn (atTime s 0) p) := by
  simp only [Bool.and_eq_true, Bool.not_eq_true', Option.isNone_iff_eq_none] at h
  exact ⟨h.1, rfl, h.2⟩

theorem reachesMessage {s : State} {p : Pkt} {m : Slot} (h : (!holdOn s && (arrivalDrop (takeIn (atTime s 0) p) p).isNone) = true)
    (h1 : opResponse p.op = true) (h2 : slotOf (sampled (takeIn (atTime s 0) p) p) p.msgid = some m) (h3 : m.ec = 1)
    (h4 : cached (responded s p) 1 = true ∧ mhas (responded s p).tp.parked 1 = false ∧ slotOf (responded s p) p.msgid = some m)
    (h5 : m.dst = p.src ∧ m.finish = none) : ReachesMessage s 0 p m (responded s p) := by
  refine ⟨_, takenIn h, h1, h2, ?_, ?_, ?_, h4.2.2, h5.1, h5.2⟩
  · rw [h3]; rfl
  · rw [h3]; exact h4.1
  · rw [h3]; exact h4.2.1

/-- Group 5 with device 130 as its parent, or as its one child. -/
def group (child : Bool) : State :=
  let s := wrb (wr mem F.clGroupParent 130 5) F.clGroupValid true 5
  if child then wr (wrb (wr s F.clGroupChildCount 1 5) F.clGroupRoot true 5) F.clChildDev 130 0 else s

/-- A SEND whose first packet went on the unexpected list. -/
def oldRec : Rec :=
  { ec := 1, op := opSend, tc := 0, base := 1, placed := [], last := none, stamp := 0, since := 0, firstAt := none, ce := false, bytes := 0,
    flag := none, rsp := none, running := false, seen := [(0, 0, false)], place := some 4, done := false }
def oldUnexp : Unexp :=
  { ec := 1, src := 130, srcEc := 0, bits := 0, comm := 0, dataLen := 4088, tc := 0, units := 65, msgid := 9, rts := none, data := [] }
def inSend : State :=
  { mem with tp := { mem.tp with recs := [(recKey 130 9, oldRec)] }, mt := { mem.mt with unexp := [(4, oldUnexp)] } }

/-- A GET of 8 bytes into page 0x100, its request built once. -/
def getMsg : Slot :=
  { msg opGetReq 8 1 with result := .dva 0x100000, copies := [(0, ⟨0, 0, 1, 0, 1, 0, 0, false, 0, none, 1, [], 1, 0, 0, 0⟩)] }

theorem okOf {s : State} {a : Adm} {l : List (Nat × Nat)} (h : (translateAdm s a).2 = .ok l) :
    translateAdm s a = ((translateAdm s a).1, .ok l) := by rw [← h]

theorem endOf {s : State} {a : Adm} {r : TrSpan} (h : (translateAdm s a).2 = r) : translateAdm s a = ((translateAdm s a).1, r) := by rw [← h]

/-- Page 0x300 of domain 1 in L1, with a leaf that lets nothing through. -/
def denied (s : State) : State := { s with xl := { s.xl with l1 := [(pageKey 1 0x300, 0x5001)] } }

/-- A collective operation, number 9 of group 5. -/
def collOp : CollOp :=
  { coll := 0, oper := 0, dtype := 0, exact := false, count := 1, pos := 0, chunks := 1, data := [], res := 0, ec := 1, pkrr := 0,
    origin := none, since := 0, arrived := 0, pend := [], stall := none, walking := false, failed := false, done := false }
def inColl : State := { group false with cl := { groups := [(5, { ops := [(9, collOp)] })] } }

/-- A rendezvous entry. -/
def rdvEnt : Rdv := { gen := 0, ec := 1, dst := 130, len := 8, origin := .fin, sentAt := some 0 }

/-- A walk of domain 1 for page 0x200, with every page in walk window 0. -/
def walking : State :=
  let s := wr (wrb (wrb mem F.xlWinBaseValid true 0) F.xlWinBaseMem true 0) F.xlWinLimitAddr (2 ^ 40 - 1) 0
  { s with xl := { s.xl with walks := [(0, ⟨1, 0x200, true, false, []⟩)] } }

/-- WQ 0 of PF0 of port 0, of 64 entries, on CQ 0 and EC 1. -/
def wq : Wq :=
  { fn := 0, addr := 0x20000, log2 := 6, cq := 0, ec := 1, shadow := 0, state := .ready, cause := 0, pi := 0, ci := 0, next := 0, cache := [],
    reading := [], live := [], done := [], shadowAt := 0, shadowCi := 0, destroying := false }
def withWq (w : Wq) : State := { mem with hi := { mem.hi with wqs := [(0, w)] } }

/-- Decoder 0 of port 0 over the window's first 256 MiB, at host address 0x10000000. -/
def window : State := { mem with gw := { mem.gw with hdm := [(0, ⟨0x10000000, 0x10000000, 0, true, false⟩)] } }

/-- A descriptor: OP, SUB, LEN and words 2 to 7, USER 7, fetched with XL_PKRR 0; and WQ 0 with it next. -/
def desc (op sub len w2 w3 w4 w5 w6 w7 : Nat) : List Word :=
  [op + sub * 2 ^ 20 + len * 2 ^ 32, 7, w2, w3, w4, w5, w6, w7, 0].map (BitVec.ofNat 64)
def wqWith (d : List Word) : Wq := { wq with pi := 1, cache := [(0, d)] }
def ready (d : List Word) : State := withWq (wqWith d)

/-- The same in a small armature of 16 regions, or with EC 1's receive in the match table. -/
def few (s : State) : State := { s with txn := { s.txn with arm := { s.txn.arm with regionSize := 16 } } }
def oldRecv : Recv :=
  { origin := .desc 0 0 4 true 9, ec := 1, anySrc := true, srcDev := 0, srcEc := 0, comm := 0, bits := 0, ignore := 0, dva := 0x100000,
    len := 8, pkrr := 0, onDie := true, matched := false, fromDev := 0, fromEc := 0, fromBits := 0, dataLen := 0, got := 0, rdvTag := none,
    tc := 0, failed := false, pend := [], stall := none, walking := false, finish := none }
def waits (s : State) : State := { s with mt := { s.mt with recvs := [(0, oldRecv)] } }
def arrived (s : State) : State := { s with mt := { s.mt with unexp := [(4, oldUnexp)] } }

/-- A receive of EC 1 in the overflow list, and that list full. -/
def overflowing (s : State) : State := { s with mt := { s.mt with recvs := [(0, { oldRecv with onDie := false })] } }
def brimming (n : Nat) (s : State) : State :=
  { s with mt := { s.mt with recvs := List.replicate n (0, { oldRecv with onDie := false }) } }

theorem brims {n : Nat} (h : 0 < n) (s : State) :
    overflowOf (atTime (brimming n s) 0) 1 ≠ [] ∧ ovfCount (atTime (brimming n s) 0) = n := by
  have e : unmatched (atTime (brimming n s) 0) = List.replicate n (0, { oldRecv with onDie := false }) := by
    simp [unmatched, atTime, brimming, oldRecv]
  constructor
  · simp [overflowOf, e, oldRecv]
    omega
  · simp [ovfCount, e, oldRecv]

/-- CQ 0 with 64 completions held; an unexpected list with every unit taken; and EC 1's receive matched by message 9. -/
def fullCq (s : State) : State := { s with hi := { s.hi with cqs := [(0, { cq with held := List.replicate 64 ⟨0, 0, 0, 0, none⟩ }), (1, cq)] } }
def crowded : State := { mem with mt := { mem.mt with unexp := [(4, { oldUnexp with units := unexpSize })] } }
def intoRecv : State := { inSend with mt := { recvs := [(4, { oldRecv with dataLen := 4088 })] } }

/-- Fault-table entry 3, for page 0x200 of domain 1. -/
def faulted (s : State) : State := { s with mr := { s.mr with faults := [(3, ⟨1, 0x200, 6, 0, false, 0⟩)] } }

/-- Group 5 armed for PF0 of port 0, with two members, in STATE st; and job 2 of PF0 in STATE st, with 8 records in its ring. -/
def armed (st : Nat) (s : State) : State :=
  wr (wr (wrb (wrb s F.clGroupValid true 5) F.clGroupLocal true 5) F.clGroupMembers 2 5) F.clGroupState st 5
def jobIn (st : Nat) (s : State) : State := wr (wr s F.exJobState st 2) F.exRingPi 8 2

/-- EQ 0 of port 0, of 64 entries. -/
def evq : Evq :=
  { fn := 0, addr := 0x30000, log2 := 6, vec := 0, poll := false, modCount := 1, modUs := 0, pi := 0, ci := 0, lost := 0, cause := 0,
    armed := false, count := 0, firstAt := none }

/-- A CL packet of group 5 to its parent that waits for its ACK, and the group with it. -/
def hopPkt : CollPkt :=
  { dev := 130, up := true, kind := 0, seq := 9, psn := 0, pos := 0, key := 0, off := 0, last := true, tc := 0, payload := [], bulk := false,
    gated := true, retries := 0, at' := 0 }
def hopping (p : CollPkt) : State := { group false with cl := { groups := [(5, { ops := [(9, collOp)], sends := [(0, p)] })] } }

/-- Job 2 in STATE 1 with what it holds, and a batch of it. -/
def jobWith (x : ExJobSt) : State := { wr mem F.exJobState 1 2 with cl := { jobs := [(2, x)] } }
def batch (bseq : Option Nat) (sent : Bool) : ExBatch :=
  { dev := 130, ec := 1, bseq := bseq, bytes := zeros 64, count := 1, since := 0, sent := sent, sentAt := 0, retries := 0, noroom := false,
    gated := true }

/-- Alias slot 0 bound to PF0 of port 0, with a read that waits; a lock at DVA 0x100000 of domain 1 with two waiters; a holds record. -/
def bound : State := wrb mem F.atAliasValid true 0
def lateRead : AliasRead := ⟨0, 0, 0, 0, 0, 0⟩
def waiter (src : Nat) : LockWait := ⟨src, 1, 0, 3, 0, 0, 10, 0, 0x20000, 0, 0⟩
def lock : LockSt := ⟨0x5000, 0, 130, 0, 0, 9, 1, false, 0x20000, 0, [waiter 131, waiter 132]⟩
def locking : State := { mem with at' := { mem.at' with locks := [(wordKey 1 0x100000, lock)] } }
def oldHold : Hold := ⟨130, 1, 1, 0, 0x20000, 0, 0, true, true, 0, 0⟩

/-- A GET of a whole packet in flight: it fills the least flow window. -/
def inFlight : Slot :=
  { msg opGetReq 4096 1 with msgid := 8, result := .dva 0x100000,
                             copies := [(0, ⟨0, 0, 1, 0, 1, 0, 0, false, 0, none, 1, [], 1, 0, 0, 0⟩)] }

/-- A packet of port 0's PF0 at injection port 0 in TC 0, and a stream with one slice on tile 0. -/
def item : InjItem :=
  { port := 0, tc := 0, fn := 0, dst := 130, htc := 0, op := opAck, ec := 1, flags := 1, off := 0, psn := 0, key := 0, msgid := 7, payload := [],
    slot := none, unit := none, enqAt := 0, fnTag := none }
def injecting : State := { mem with tp := { mem.tp with inj := [(0, item)] } }
def slicing : Stream := { role := 0, key := 1, tile := 0, chan := 0, tc := 0, slices := 1, tag := 5, waiting := false, since := 0 }

/-- Firmware in activation state 4, in its health window; and a slot being booted for an activation. -/
def trial : State := wr run F.fwStatActSt 4
def booting : State := { run with fw := { run.fw with booting := true, bootKind := 1 } }
def blockOne : Block := { slot := 1, off := 0, len := 4096, hp := none, data := [] }

/-- Cage-power channel 3 in a state. -/
def cageAs (st : Nat) : State := wr run F.cgStatState st 3

/-- What a channel's check reads when nothing is wrong. -/
def healthyCage : CageReads := { csnsp := 3300, cvout := 0, sense := 50 * rd run F.cgPlimRsenseUohm 3, fall := 0 }

/-! ### Witnesses: what every statement assumes can be met -/

theorem witness_StepRunsFrontCommand :
    ∃ s : State, ∃ c : Instr, ∃ rest : List Instr, s.pending = c :: rest :=
  ⟨{ run with pending := [.testEntryDone] }, .testEntryDone, [], by decide +kernel⟩

theorem witness_IdleStepPassesOneNanosecond :
    ∃ s : State, s.pending = [] :=
  ⟨run, by decide +kernel⟩

theorem witness_ModeReportsFirstActiveCondition :
    ∃ s t : State, step s = .next t :=
  ⟨run, _, rfl⟩

theorem witness_QuietCommandEndsInItsEffect :
    ∃ s e : State, quiet s e = true :=
  ⟨run, (wrb run F.fwHealthOk true), by decide +kernel⟩

theorem witness_RegisterFileKeepsItsForm :
    (∃ m : Map Word, CsrCanonical m)
    ∧ (∃ m1 m2 : Map Word, CsrCanonical m1 ∧ CsrCanonical m2 ∧ (∀ key, mgetD m1 key (csrDefault key) = mgetD m2 key (csrDefault key)))
    ∧ (∃ key : Nat, ∃ r : Reg, regFind key = some r) :=
  ⟨⟨[(0x10, 5)], ⟨by decide +kernel, by decide +kernel⟩⟩,
   ⟨[(0x10, 5)], [(0x10, 5)], ⟨by decide +kernel, by decide +kernel⟩, ⟨by decide +kernel, by decide +kernel⟩, fun _ => rfl⟩,
   ⟨0x108, _, rfl⟩⟩

theorem witness_WiderResetRestoresMore :
    (∃ k : ResetKind, ResetKind.chip.restores k = true)
    ∧ (∃ k : ResetKind, ResetKind.hfund.restores k = true)
    ∧ (∃ k : ResetKind, ResetKind.blk.restores k = true)
    ∧ (∃ k : ResetKind, ResetKind.hot.restores k = true)
    ∧ (∃ k : ResetKind, ResetKind.flr.restores k = true)
    ∧ (∃ p : Nat → Bool, ∃ key : Nat, ∃ r : Reg, ∃ f : Field, regFind key = some r ∧ f ∈ r.fields ∧ p key = true) :=
  ⟨⟨.hfund, by decide +kernel⟩,
   ⟨.hot, by decide +kernel⟩,
   ⟨.blk, by decide +kernel⟩,
   ⟨.flr, by decide +kernel⟩,
   ⟨.flr, by decide +kernel⟩,
   ⟨fun _ => true, 0x108, _, _, rfl, List.mem_cons_self, rfl⟩⟩

theorem witness_ResetsAndBootComplete :
    (∃ s : State, s.fc.chipReset = true)
    ∧ (∃ s : State, baseOf s = 1 ∧ s.fc.chipReset = false ∧ booted s = false ∧ (boardNow s).recovery = true)
    ∧ (∃ s : State, ∃ a b : Image, ∃ m : ArmStream, baseOf s = 1 ∧ s.fc.chipReset = false ∧ booted s = false
        ∧ (boardNow s).recovery = false
        ∧ (let pref := (boardNow s).preferred; let img := if pref = 0 then a else b; let s1 := wr s F.fwStatPreferred pref; (verifySlot s1 (rd s1 F.fwFuseArmMask) img = 0) ∧ img.armature = some m))
    ∧ (∃ s : State, ∃ a b : Image, ∃ m : ArmStream, baseOf s = 1 ∧ s.fc.chipReset = false ∧ booted s = false
        ∧ (boardNow s).recovery = false
        ∧ (let pref := (boardNow s).preferred; let img := if pref = 0 then a else b; let other := if 1 - pref = 0 then a else b; let s1 := wr s F.fwStatPreferred pref; let mask := rd s1 F.fwFuseArmMask; let s2 := showSlot s1 pref img (verifySlot s1 mask img); (verifySlot s1 mask img ≠ 0) ∧ verifySlot s2 mask other = 0 ∧ other.armature = some m))
    ∧ (∃ s : State, ∃ a b : Image, baseOf s = 1 ∧ s.fc.chipReset = false ∧ booted s = false ∧ (boardNow s).recovery = false
        ∧ (let pref := (boardNow s).preferred; let img := if pref = 0 then a else b; let other := if 1 - pref = 0 then a else b; let s1 := wr s F.fwStatPreferred pref; let mask := rd s1 F.fwFuseArmMask; let s2 := showSlot s1 pref img (verifySlot s1 mask img); (verifySlot s1 mask img ≠ 0) ∧ verifySlot s2 mask other ≠ 0))
    ∧ (∃ s : State, baseOf s = 1 ∧ booted s = true ∧ rd s F.rtStatJoin = 2) :=
  ⟨⟨{ run with fc := { run.fc with chipReset := true } }, by decide +kernel⟩,
   ⟨writeBoard State.reset fun b => { b with recovery := true }, by decide +kernel⟩,
   ⟨State.reset, goodImage, goodImage, goodArm, by decide +kernel⟩,
   ⟨State.reset, { goodImage with present := false }, goodImage, goodArm, by decide +kernel⟩,
   ⟨State.reset, { goodImage with present := false }, { goodImage with sigOk := false }, by decide +kernel⟩,
   ⟨wr (wr build F.armStatLoaded 0x3F) F.rtStatJoin 2, by decide +kernel⟩⟩

theorem witness_ModeAndLockCommandsComplete :
    (∃ s : State, ∃ who : Who, ∃ width : Nat, Served s who ∧ 64 ≤ width ∧ isPf0 who = true ∧ enterTestCause s = 0)
    ∧ (∃ s : State, ∃ who : Who, ∃ width : Nat, Served s who ∧ 64 ≤ width ∧ isPf0 who = true ∧ enterTestCause s ≠ 0)
    ∧ (∃ s : State, baseOf s = 2 ∧ s.testReq = .enter)
    ∧ (∃ s : State, ∃ who : Who, ∃ width : Nat, Served s who ∧ 64 ≤ width ∧ isPf0 who = true ∧ baseOf s = 3)
    ∧ (∃ s : State, ∃ who : Who, ∃ width : Nat, Served s who ∧ 64 ≤ width ∧ isPf0 who = true ∧ baseOf s ≠ 3)
    ∧ (∃ s : State, ∃ who : Who, ∃ width : Nat, ∃ val : Word, Served s who ∧ 64 ≤ width ∧ wordLegal (fieldsAt 0x10) val = true
        ∧ baseOf s = 1 ∧ rd s F.rtStatJoin = 0 ∧ wordGet val 0 18 % 64 < rd s F.rtGeomMembers)
    ∧ (∃ s : State, ∃ who : Who, ∃ width : Nat, ∃ val : Word, Served s who ∧ 64 ≤ width ∧ isPf0 who = true
        ∧ wordLegal (fieldsAt 0x00102000) val = true) :=
  ⟨⟨run, .fn 0 0, 64, servedOf (by decide +kernel), by decide +kernel⟩,
   ⟨test, .fn 0 0, 64, servedOf (by decide +kernel), by decide +kernel⟩,
   ⟨{ run with testReq := .enter }, by decide +kernel⟩,
   ⟨test, .mgmt, 64, servedOf (by decide +kernel), by decide +kernel⟩,
   ⟨run, .fn 0 0, 64, servedOf (by decide +kernel), by decide +kernel⟩,
   ⟨wr (wr build F.rtStatJoin 0) F.rtGeomMembers 64, .fn 0 0, 64, 0x3003F, servedOf (by decide +kernel), by decide +kernel⟩,
   ⟨run, .mgmt, 64, 0x1F, servedOf (by decide +kernel), by decide +kernel⟩⟩

theorem witness_ArmatureStagingCommandsComplete :
    (∃ s : State, ∃ hp fn width len : Nat, Served s (.fn hp fn) ∧ 64 ≤ width ∧ len < 2 ^ 25
        ∧ wordLegal (fieldsAt 0x00100018) (stageWord 1 len) = true ∧ txnOpen s = false ∧ rd s F.armStageSt ≠ 1)
    ∧ (∃ s : State, ∃ width : Nat, Served s .mgmt ∧ 64 ≤ width ∧ txnOpen s = false ∧ rd s F.armStageSt ≠ 1)
    ∧ (∃ s : State, ∃ hp fn width len : Nat, Served s (.fn hp fn) ∧ 64 ≤ width ∧ wordLegal (fieldsAt 0x00100018) (stageWord 1 len) = true
        ∧ (txnOpen s = true ∨ rd s F.armStageSt = 1))
    ∧ (∃ s : State, ∃ width : Nat, Served s .mgmt ∧ 64 ≤ width ∧ (txnOpen s = true ∨ rd s F.armStageSt = 1))
    ∧ (∃ s : State, ∃ who : Who, ∃ width : Nat, Served s who ∧ 64 ≤ width ∧ txnSt s ≠ 3 ∧ txnSt s ≠ 4)
    ∧ (∃ s : State, ∃ st : ArmStream, rd s F.armStageSt = 1
        ∧ (let got := { st with recvLen := s.txn.fetchLen.getD st.recvLen }; (stageCheck s got = 0)))
    ∧ (∃ s : State, ∃ st : ArmStream, rd s F.armStageSt = 1
        ∧ (let got := { st with recvLen := s.txn.fetchLen.getD st.recvLen }; (stageCheck s got ≠ 0)))
    ∧ (∃ s : State, ∃ who : Who, ∃ width : Nat, ∃ val : Word, Served s who ∧ 64 ≤ width ∧ wordLegal (fieldsAt 0x00100008) val = true
        ∧ locked s 0x00100008 = false)
    ∧ (∃ s : State, ∃ who : Who, ∃ width : Nat, ∃ val : Word, Served s who ∧ 64 ≤ width ∧ wordLegal (fieldsAt 0x00100060) val = true)
    ∧ (∃ s : State, ∃ tile : Nat, tile < 48 ∧ drains s tile = true ∧ tileEmpty s tile = true) :=
  ⟨⟨run, 0, 0, 64, 2 ^ 24, servedOf (by decide +kernel), by decide +kernel⟩,
   ⟨run, 64, servedOf (by decide +kernel), by decide +kernel⟩,
   ⟨txn 2, 0, 0, 64, 4096, servedOf (by decide +kernel), by decide +kernel⟩,
   ⟨txn 2, 64, servedOf (by decide +kernel), by decide +kernel⟩,
   ⟨run, .fn 0 0, 64, servedOf (by decide +kernel), by decide +kernel⟩,
   ⟨{ wr run F.armStageSt 1 with txn := { run.txn with arm := armOf goodArm } }, goodArm, by decide +kernel⟩,
   ⟨wr run F.armStageSt 1, { goodArm with sigOk := false }, by decide +kernel⟩,
   ⟨run, .mgmt, 64, 1, servedOf (by decide +kernel), by decide +kernel⟩,
   ⟨run, .fn 0 0, 64, 2 ^ 47, servedOf (by decide +kernel), by decide +kernel⟩,
   ⟨wr run F.armDrainTiles (2 ^ 47), 47, by decide +kernel⟩⟩

theorem witness_TransactionCommandsComplete :
    (∃ s : State, ∃ who : Who, ∃ width : Nat, ∃ val : Word, Served s who ∧ 64 ≤ width ∧ wordLegal (fieldsAt 0x00101000) val = true
        ∧ bitAt val.toNat 0 = true ∧ ownerOf who ≠ 0 ∧ rd s F.txnOwnerOwner = 0)
    ∧ (∃ s : State, ∃ who : Who, ∃ width : Nat, ∃ val : Word, Served s who ∧ 64 ≤ width ∧ wordLegal (fieldsAt 0x00101008) val = true
        ∧ bitAt val.toNat 0 = true ∧ ownerOf who ≠ 0 ∧ rd s F.txnOwnerOwner = ownerOf who ∧ txnSt s = 1)
    ∧ (∃ s : State, ∃ who : Who, ∃ off width : Nat, Served s who ∧ 64 ≤ width ∧ csrKey who off = some off ∧ off % 8 = 0
        ∧ off < 0x0C000000 ∧ (regFind off).isSome = true ∧ isRwt off = true ∧ (¬ (0x08820000 ≤ off ∧ off < 0x08820800 ∧ off % 32 = 16))
        ∧ (¬ (0x07100000 ≤ off ∧ off < 0x07300000)) ∧ ownerOf who ≠ 0 ∧ rd s F.txnOwnerOwner = ownerOf who ∧ txnSt s = 2
        ∧ mhas s.txn.maquette off = false ∧ s.txn.maquette.length < 16384)
    ∧ (∃ s : State, ∃ who : Who, ∃ width : Nat, ∃ val : Word, Served s who ∧ 64 ≤ width ∧ wordLegal (fieldsAt 0x00101010) val = true
        ∧ bitAt val.toNat 0 = true ∧ ownerOf who ≠ 0 ∧ rd s F.txnOwnerOwner = ownerOf who ∧ txnSt s = 2 ∧ rdb s F.txnStatFailed = false
        ∧ recastMask s = 0)
    ∧ (∃ s : State, ∃ who : Who, ∃ width : Nat, ∃ val : Word, Served s who ∧ 64 ≤ width ∧ wordLegal (fieldsAt 0x00101010) val = true
        ∧ bitAt val.toNat 0 = true ∧ ownerOf who ≠ 0 ∧ rd s F.txnOwnerOwner = ownerOf who ∧ txnSt s = 2 ∧ rdb s F.txnStatFailed = false
        ∧ recastMask s ≠ 0)
    ∧ (∃ s : State, txnSt s = 3 ∧ s.txn.swap = .none)
    ∧ (∃ s : State, txnSt s = 3 ∧ s.txn.swap = .recast ∧ holdOn s = false)
    ∧ (∃ s : State, holdOn s = true ∧ (s.txn.swap ≠ .recast ∨ bitAt (recastMask s) 2 = false))
    ∧ (∃ s : State, holdOn s = true ∧ s.txn.swap = .recast ∧ bitAt (recastMask s) 2 = true)
    ∧ (∃ s : State, ∃ who : Who, ∃ width : Nat, ∃ val : Word, Served s who ∧ 64 ≤ width ∧ wordLegal (fieldsAt 0x00101018) val = true
        ∧ bitAt val.toNat 0 = true ∧ ownerOf who ≠ 0 ∧ rd s F.txnOwnerOwner = ownerOf who ∧ (txnSt s = 1 ∨ txnSt s = 2))
    ∧ (∃ s : State, ∃ who : Who, ∃ width : Nat, ∃ val : Word, Served s who ∧ 64 ≤ width ∧ wordLegal (fieldsAt 0x00101018) val = true
        ∧ who ≠ .mgmt ∧ (ownerOf who = 0 ∨ rd s F.txnOwnerOwner ≠ ownerOf who))
    ∧ (∃ s : State, ∃ who : Who, ∃ width : Nat, ∃ val : Word, Served s who ∧ 64 ≤ width ∧ wordLegal (fieldsAt 0x00101008) val = true
        ∧ (ownerOf who = 0 ∨ rd s F.txnOwnerOwner ≠ ownerOf who))
    ∧ (∃ s : State, ∃ who : Who, ∃ width : Nat, ∃ val : Word, Served s who ∧ 64 ≤ width ∧ wordLegal (fieldsAt 0x00101010) val = true
        ∧ (ownerOf who = 0 ∨ rd s F.txnOwnerOwner ≠ ownerOf who))
    ∧ (∃ s : State, ∃ now : Nat, (txnSt s = 1 ∨ txnSt s = 2) ∧ rd s F.txnOwnerOwner ≠ 0
        ∧ s.txn.lastUse + 1000000 * rd s F.txnIdleLimitMs ≤ now) :=
  ⟨⟨run, .mgmt, 64, 1, servedOf (by decide +kernel), by decide +kernel⟩,
   ⟨txn 1, .mgmt, 64, 1, servedOf (by decide +kernel), by decide +kernel⟩,
   ⟨txn 2, .mgmt, 0x03900000, 64, servedOf (by decide +kernel), by decide +kernel⟩,
   ⟨txn 2, .mgmt, 64, 1, servedOf (by decide +kernel), by decide +kernel⟩,
   ⟨wr (txn 2) F.armRecastSections 1, .mgmt, 64, 1, servedOf (by decide +kernel), by decide +kernel⟩,
   ⟨txn 3, by decide +kernel⟩,
   ⟨setTxn (txn 3) fun t => { t with swap := .recast }, by decide +kernel⟩,
   ⟨wrb run F.modeStatHoldAct true, by decide +kernel⟩,
   ⟨setTxn (wr (wrb run F.modeStatHoldAct true) F.armRecastSections 2) fun t => { t with swap := .recast }, by decide +kernel⟩,
   ⟨txn 1, .mgmt, 64, 1, servedOf (by decide +kernel), by decide +kernel⟩,
   ⟨txn 1, .fn 0 0, 64, 1, servedOf (by decide +kernel), by decide +kernel⟩,
   ⟨txn 1, .fn 0 0, 64, 1, servedOf (by decide +kernel), by decide +kernel⟩,
   ⟨txn 1, .fn 0 0, 64, 1, servedOf (by decide +kernel), by decide +kernel⟩,
   ⟨txn 2, 60000000000, by decide +kernel⟩⟩

theorem witness_RegisterAccessesComplete :
    (∃ s : State, ∃ who : Who, ∃ off width : Nat, ∃ val : Word, Served s who ∧ 64 ≤ width ∧ csrKey who off = some off ∧ off % 8 = 0
        ∧ off < 0x00200000 ∧ (off ∉ [0x10, 0x108, 0x100008, 0x100018, 0x100060, 0x101000, 0x101008, 0x101010, 0x101018, 0x102000])
        ∧ (regFind off).isSome = true ∧ isRwt off = false ∧ wordLegal (fieldsAt off) val = true)
    ∧ (∃ s : State, ∃ who : Who, ∃ off width : Nat, ∃ val : Word, Served s who ∧ 64 ≤ width ∧ csrKey who off = some off ∧ off % 8 = 0
        ∧ off < 0x0C000000 ∧ (regFind off).isSome = true ∧ isRwt off = false ∧ judgesItself off = false
        ∧ wordLegal (fieldsAt off) val = false)
    ∧ (∃ s : State, ∃ who : Who, ∃ off width : Nat, Served s who ∧ 64 ≤ width ∧ csrKey who off = some off ∧ off % 8 = 0
        ∧ off < 0x0C000000 ∧ regFind off = none)
    ∧ (∃ s : State, ∃ hp fn off key : Nat, Served s (.fn hp fn) ∧ csrKey (.fn hp fn) off = some key)
    ∧ (∃ s : State, ∃ off : Nat, Served s .mgmt ∧ off % 8 = 0 ∧ off < 0x0C000000) :=
  ⟨⟨run, .fn 0 0, 0x110, 64, 0x7F, servedOf (by decide +kernel), by decide +kernel⟩,
   ⟨run, .fn 0 0, 0x00400000, 64, 0, servedOf (by decide +kernel), by decide +kernel⟩,
   ⟨run, .mgmt, 0x0BFFFFF8, 64, servedOf (by decide +kernel), by decide +kernel⟩,
   ⟨run, 0, 0, 0x0A800008, 0x0A800008, servedOf (by decide +kernel), by decide +kernel⟩,
   ⟨run, 0x40, servedOf (by decide +kernel), by decide +kernel⟩⟩

theorem witness_NarrowWritesCountedPartialReadsClearNothing :
    (∃ s : State, ∃ hp fn width : Nat, fnSilent s hp fn = false ∧ fnEnabled s hp fn = true ∧ hp < 2 ∧ fn < 256 ∧ width < 64)
    ∧ (∃ key width : Nat, ∃ f : Field, (width = 32 ∨ width = 64) ∧ f ∈ fieldsAt (key / 8 * 8) ∧ f.acc = .rc) :=
  ⟨⟨run, 0, 255, 63, by decide +kernel⟩,
   ⟨0x40, 32, ⟨0, 32, .rc, .chip, 0, .any⟩, by decide +kernel⟩⟩

theorem witness_SwitchCommandsComplete :
    (∃ s : State, ∃ now inp vc id : Nat, ∃ p : SwPkt, waitsLookup (atTime s now) inp vc = some (id, p) ∧ lookupDrop s inp p.hdr = none
        ∧ p.hdr.op ≠ opMcPut ∧ opUnitBound p.hdr.op = false)
    ∧ (∃ s : State, ∃ now inp vc id : Nat, ∃ p : SwPkt, waitsLookup (atTime s now) inp vc = some (id, p) ∧ lookupDrop s inp p.hdr = none
        ∧ p.hdr.op = opMcPut)
    ∧ (∃ s : State, ∃ now inp vc id : Nat, ∃ p : SwPkt, waitsLookup (atTime s now) inp vc = some (id, p) ∧ lookupDrop s inp p.hdr = none
        ∧ p.hdr.op ≠ opMcPut ∧ opUnitBound p.hdr.op = true)
    ∧ (∃ s : State, ∃ now inp vc id : Nat, ∃ p : SwPkt, ∃ f : Fld, waitsLookup (atTime s now) inp vc = some (id, p)
        ∧ lookupDrop s inp p.hdr = some f)
    ∧ (∃ s : State, ∃ tile b : Nat, (tileSt s tile).repair = some b ∧ rdb s F.swBankSwapping tile = true)
    ∧ (∃ s : State, ∃ now o id : Nat, ∃ p : SwPkt, ∃ c : Copy, crossing s o = some (id, p, c) ∧ p.cells.length ≤ c.sent
        ∧ c.cellAt + 30000 ≤ now)
    ∧ (∃ s : State, ∃ tile bank : Nat, tile < 16 ∧ bank < 24 ∧ bitAt (rd s F.swBankFailed tile) bank = false
        ∧ spareBankFree s tile = true)
    ∧ (∃ s : State, ∃ tile bank : Nat, tile < 16 ∧ bank < 24 ∧ bitAt (rd s F.swBankFailed tile) bank = false
        ∧ spareBankFree s tile = false ∧ (tileSt s tile).repair ≠ some bank)
    ∧ (∃ s : State, ∃ tile b : Nat, (tileSt s tile).repair = some b ∧ (tileSt s tile).pausedMatch = true) :=
  ⟨⟨holding (stored (pkt opAck 0 0 7 1 (zeros 8)) []), 0, 8, 4, 0, stored (pkt opAck 0 0 7 1 (zeros 8)) [], by decide +kernel⟩,
   ⟨holding (stored (pkt opMcPut 0 0 7 1 (zeros 8)) []), 0, 8, 0, 0, stored (pkt opMcPut 0 0 7 1 (zeros 8)) [], by decide +kernel⟩,
   ⟨holding (stored (pkt opJoin 0 0 0 1 (zeros 64)) []), 0, 8, 0, 0, stored (pkt opJoin 0 0 0 1 (zeros 64)) [], by decide +kernel⟩,
   ⟨holding (stored ({ pkt opAck 0 0 7 1 (zeros 8) with vc := 0 }) []), 0, 8, 0, 0,
       stored ({ pkt opAck 0 0 7 1 (zeros 8) with vc := 0 }) [], F.rtPktDrop0Hcrc, by decide +kernel⟩,
   ⟨wrb (tileWith { repair := some 3 }) F.swBankSwapping true, 0, 3, by decide +kernel⟩,
   ⟨holding (stored (pkt opAck 0 0 7 1 (zeros 8)) [⟨9, 4, 1, true, 0, false, false⟩]), 30000, 9, 0,
       stored (pkt opAck 0 0 7 1 (zeros 8)) [⟨9, 4, 1, true, 0, false, false⟩], ⟨9, 4, 1, true, 0, false, false⟩, by decide +kernel⟩,
   ⟨run, 15, 23, by decide +kernel⟩,
   ⟨wrb run F.swBankSpareUsed true 15, 15, 23, by decide +kernel⟩,
   ⟨tileWith { repair := some 3, pausedMatch := true }, 0, 3, by decide +kernel⟩⟩

theorem witness_FrameCommandsComplete :
    (∃ s : State, ∃ now p : Nat, ∃ on : List Nat, isUnit s p = true
        ∧ (linkState s p = lsDown ∨ (gatherSlots ((frameLanes (atTime s now) p on).map (·.blocks))).getLast? = none))
    ∧ (∃ s : State, ∃ now p : Nat, ∃ on : List Nat, ∃ c : Flit, isUnit s p = true ∧ linkState s p ≠ lsDown
        ∧ (let lanes := frameLanes (atTime s now) p on; let slots := gatherSlots (lanes.map (·.blocks)); (slots.getLast? = some c)
        ∧ (lanes.any (fun x => x.bad || x.ctrl) = true ∨ frameCrc slots ≠ fcfWord c 15 % 2 ^ 32 ∨ 2 ≤ bits (fcfWord c 0) 40 2)))
    ∧ (∃ s : State, ∃ now p : Nat, ∃ on : List Nat, ∃ c : Flit, isUnit s p = true ∧ linkState s p ≠ lsDown ∧ linkState s p ≠ lsInit
        ∧ (let lanes := frameLanes (atTime s now) p on; let slots := gatherSlots (lanes.map (·.blocks)); (slots.getLast? = some c)
        ∧ lanes.any (fun x => x.bad || x.ctrl) = false ∧ frameCrc slots = fcfWord c 15 % 2 ^ 32 ∧ bits (fcfWord c 0) 40 2 = 0))
    ∧ (∃ s : State, ∃ now p : Nat, ∃ on : List Nat, ∃ c : Flit, isUnit s p = true ∧ linkState s p ≠ lsDown ∧ linkState s p ≠ lsInit
        ∧ (let lanes := frameLanes (atTime s now) p on; let slots := gatherSlots (lanes.map (·.blocks)); (slots.getLast? = some c)
        ∧ lanes.any (fun x => x.bad || x.ctrl) = false ∧ frameCrc slots = fcfWord c 15 % 2 ^ 32 ∧ bits (fcfWord c 0) 40 2 = 1))
    ∧ (∃ s : State, ∃ now p : Nat, ∃ on : List Nat, ∃ c : Flit, isUnit s p = true ∧ linkState s p = lsInit
        ∧ (let lanes := frameLanes (atTime s now) p on; let slots := gatherSlots (lanes.map (·.blocks)); (slots.getLast? = some c)
        ∧ lanes.any (fun x => x.bad || x.ctrl) = false ∧ frameCrc slots = fcfWord c 15 % 2 ^ 32 ∧ bits (fcfWord c 0) 40 2 < 2))
    ∧ (∃ s : State, ∃ p : Nat, isUnit s p = true ∧ s.pw.tripped = true)
    ∧ (∃ s : State, ∃ now p : Nat, ∃ lost : List Nat, isUnit s p = true ∧ s.pw.tripped = false
        ∧ (let u := loseSpill (atTime s now) p lost; ((linkState u p = lsDown
        ∧ (unitLanes u p).any (laneReady u) = false) ∨ (linkState u p ≠ lsDown ∧ txCount u p = 0))))
    ∧ (∃ s : State, ∃ now p : Nat, ∃ lost : List Nat, isUnit s p = true ∧ s.pw.tripped = false
        ∧ (let u := loseSpill (atTime s now) p lost; let v := enterInit u p; (linkState u p = lsDown)
        ∧ (unitLanes u p).any (laneReady u) = true ∧ mayInit u p = true ∧ txCount v p ≠ 0 ∧ linkState v p = lsInit
        ∧ (linkOf v p).abruptLeft = 0))
    ∧ (∃ s : State, ∃ now p : Nat, ∃ lost : List Nat, isUnit s p = true ∧ s.pw.tripped = false
        ∧ (let u := loseSpill (atTime s now) p lost; (linkState u p ≠ lsDown) ∧ txCount u p ≠ 0 ∧ (linkOf u p).abruptLeft ≠ 0))
    ∧ (∃ s : State, ∃ now p : Nat, ∃ lost : List Nat, isUnit s p = true ∧ s.pw.tripped = false
        ∧ (let u := loseSpill (atTime s now) p lost; (linkState u p = lsHeld) ∧ txCount u p ≠ 0 ∧ (linkOf u p).abruptLeft = 0))
    ∧ (∃ s : State, ∃ now p : Nat, ∃ lost : List Nat, isUnit s p = true ∧ s.pw.tripped = false
        ∧ (let u := loseSpill (atTime s now) p lost; (linkState u p = lsInit) ∧ txCount u p ≠ 0 ∧ (linkOf u p).abruptLeft = 0))
    ∧ (∃ s : State, ∃ now p : Nat, ∃ lost : List Nat, isUnit s p = true ∧ s.pw.tripped = false
        ∧ (let u := loseSpill (atTime s now) p lost; (linkState u p ≠ lsDown) ∧ linkState u p ≠ lsHeld ∧ linkState u p ≠ lsInit
        ∧ txCount u p ≠ 0 ∧ (linkOf u p).abruptLeft = 0)) :=
  ⟨⟨linkAs lsUp, 0, 5, [10], by decide +kernel⟩,
   ⟨framed lsUp 0 true, 0, 5, [10], controlFlit 0, by decide +kernel⟩,
   ⟨framed lsUp 0 false, 0, 5, [10], controlFlit 0, by decide +kernel, by decide +kernel, by decide +kernel, by decide +kernel,
       by decide +kernel, frame_crc (by decide +kernel) (by decide +kernel) (by decide +kernel) (by decide +kernel), by decide +kernel⟩,
   ⟨framed lsUp 1 false, 0, 5, [10], controlFlit 1, by decide +kernel, by decide +kernel, by decide +kernel, by decide +kernel,
       by decide +kernel, frame_crc (by decide +kernel) (by decide +kernel) (by decide +kernel) (by decide +kernel), by decide +kernel⟩,
   ⟨framed lsInit 1 false, 0, 5, [10], controlFlit 1, by decide +kernel, by decide +kernel, by decide +kernel, by decide +kernel,
       frame_crc (by decide +kernel) (by decide +kernel) (by decide +kernel) (by decide +kernel), by decide +kernel⟩,
   ⟨{ run with pw := { run.pw with tripped := true } }, 5, by decide +kernel⟩,
   ⟨linkAs lsUp, 0, 5, [], by decide +kernel⟩,
   ⟨sending1 lsDown {}, 0, 5, [], by decide +kernel⟩,
   ⟨sending1 lsUp { peerLanes := 1, abruptLeft := 4 }, 0, 5, [], by decide +kernel⟩,
   ⟨sending1 lsHeld { peerLanes := 1 }, 0, 5, [], by decide +kernel⟩,
   ⟨sending1 lsInit { peerLanes := 1 }, 0, 5, [], by decide +kernel⟩,
   ⟨sending1 lsUp { peerLanes := 1 }, 0, 5, [], by decide +kernel⟩⟩

theorem witness_LinkTimersAndDrainComplete :
    (∃ s : State, ∃ now p base : Nat, ∃ g : Gap, (linkOf s p).gaps.find? (fun g => g.base == base) = some g
        ∧ (linkState s p = lsUp ∨ linkState s p = lsDrain ∨ linkState s p = lsTest) ∧ g.due = false ∧ g.lastAt + nackWait s p ≤ now)
    ∧ (∃ s : State, ∃ p : Nat, ∃ g : Gap, g ∈ (linkOf s p).gaps ∧ 8 ≤ g.nacks)
    ∧ (∃ s : State, ∃ now p : Nat, (linkState s p = lsUp ∨ linkState s p = lsDrain ∨ linkState s p = lsTest)
        ∧ ((unitLanes s p).any fun k => rdb s F.lnStatBlkLock k) = true ∧ (linkOf s p).lastGood + 1000 ≤ now)
    ∧ (∃ s : State, ∃ now p : Nat, linkState s p = lsRecover ∧ (linkOf s p).recoverAt + 20000 ≤ now)
    ∧ (∃ s : State, ∃ now p t : Nat, (linkOf s p).noLaneAt = some t ∧ (linkOf s p).swapUntil = none ∧ t + 4000 ≤ now)
    ∧ (∃ s : State, ∃ now p t u : Nat, (linkOf s p).noLaneAt = some t ∧ (linkOf s p).swapUntil = some u
        ∧ 4000 ≤ (u - 20000 - t) + (now - max u t))
    ∧ (∃ s : State, ∃ now p : Nat, (linkOf s p).news = true ∧ (linkOf s p).lastReturn + rd s F.llCtlForceNs p ≤ now)
    ∧ (∃ s : State, ∃ now p : Nat, linkState s p = lsInit ∧ (linkOf s p).probeAt + 1000 ≤ now)
    ∧ (∃ s : State, ∃ who : Who, ∃ width p : Nat, ∃ val : Word, Served s who ∧ 64 ≤ width ∧ p < 128
        ∧ wordLegal (fieldsAt (F.llCtlDrain.key p)) val = true ∧ (wordGet val 2 2 = 0 ∨ baseOf s = 3) ∧ bitAt val.toNat 1 = true)
    ∧ (∃ s : State, ∃ who : Who, ∃ width p : Nat, ∃ val : Word, Served s who ∧ 64 ≤ width ∧ p < 128
        ∧ wordLegal (fieldsAt (F.llCtlDrain.key p)) val = true ∧ (wordGet val 2 2 = 0 ∨ baseOf s = 3) ∧ bitAt val.toNat 1 = false)
    ∧ (∃ s : State, ∃ who : Who, ∃ width p : Nat, ∃ val : Word, Served s who ∧ 64 ≤ width ∧ p < 128
        ∧ wordLegal (fieldsAt (F.llCtlDrain.key p)) val = true ∧ wordGet val 2 2 ≠ 0 ∧ baseOf s ≠ 3)
    ∧ (∃ s : State, ∃ now p : Nat, linkState s p = lsDrain ∧ (linkOf s p).drainAt + 1000000 ≤ now) :=
  ⟨⟨linkWith lsUp { gaps := [⟨4, 1, 7, 0, false⟩] }, 10 ^ 6, 5, 4, ⟨4, 1, 7, 0, false⟩, by decide +kernel⟩,
   ⟨linkWith lsUp { gaps := [⟨4, 1, 8, 0, false⟩] }, 5, ⟨4, 1, 8, 0, false⟩, by decide +kernel⟩,
   ⟨wrb (linkAs lsUp) F.lnStatBlkLock true 10, 1000, 5, by decide +kernel⟩,
   ⟨linkAs lsRecover, 20000, 5, by decide +kernel⟩,
   ⟨linkWith lsUp { noLaneAt := some 0 }, 4000, 5, 0, by decide +kernel⟩,
   ⟨linkWith lsUp { noLaneAt := some 0, swapUntil := some 20000 }, 24000, 5, 0, 20000, by decide +kernel⟩,
   ⟨linkWith lsUp { news := true }, 2 ^ 16, 5, by decide +kernel⟩,
   ⟨linkAs lsInit, 1000, 5, by decide +kernel⟩,
   ⟨run, .fn 0 0, 64, 127, csrDefault (F.llCtlDrain.key 127) + 2, servedOf (by decide +kernel), by decide +kernel⟩,
   ⟨run, .fn 0 0, 64, 127, csrDefault (F.llCtlDrain.key 127), servedOf (by decide +kernel), by decide +kernel⟩,
   ⟨run, .fn 0 0, 64, 127, csrDefault (F.llCtlDrain.key 127) + 4, servedOf (by decide +kernel), by decide +kernel⟩,
   ⟨linkAs lsDrain, 1000000, 5, by decide +kernel⟩⟩

theorem witness_LaneTrainingCommandsComplete :
    (∃ s : State, ∃ n : Nat, isLane s n = true ∧ rd s F.lnStatPhase n = 9)
    ∧ (∃ s : State, ∃ n : Nat, isLane s n = true ∧ (rd s F.lnStatPhase n < 4 ∨ rd s F.lnStatPhase n = 8))
    ∧ (∃ s : State, ∃ n : Nat, isLane s n = true ∧ 4 ≤ rd s F.lnStatPhase n ∧ rd s F.lnStatPhase n < 8)
    ∧ (∃ s : State, ∃ n : Nat, isLane s n = true ∧ rd s F.lnStatPhase n = 0)
    ∧ (∃ s : State, ∃ n wire : Nat, isLane s n = true ∧ rd s F.lnStatPhase n = 0 ∧ 2 ≤ wire ∧ wire ≤ 4)
    ∧ (∃ s : State, ∃ n : Nat, isLane s n = true ∧ rd s F.lnStatPhase n ≠ 0)
    ∧ (∃ s : State, ∃ n : Nat, isLane s n = true ∧ rd s F.lnStatPhase n = 1)
    ∧ (∃ s : State, ∃ n levels : Nat, isLane s n = true ∧ rd s F.lnStatPhase n = 2 ∧ markerIn (lineIn s n levels) = none)
    ∧ (∃ s : State, ∃ n levels : Nat, ∃ inv : Bool, isLane s n = true ∧ rd s F.lnStatPhase n = 2
        ∧ markerIn (lineIn s n levels) = some inv ∧ (laneSt s n).markerRun < 7)
    ∧ (∃ s : State, ∃ n levels : Nat, ∃ inv : Bool, isLane s n = true ∧ rd s F.lnStatPhase n = 2
        ∧ markerIn (lineIn s n levels) = some inv ∧ 7 ≤ (laneSt s n).markerRun)
    ∧ (∃ s : State, ∃ n levels : Nat, isLane s n = true ∧ rd s F.lnStatPhase n = 3
        ∧ (let lv := lineIn s n levels; let w := controlIn (if rdb s F.lnStatRxInv n then invLevels 4096 lv else lv); (ccrcOk w = true)))
    ∧ (∃ s : State, ∃ n levels : Nat, isLane s n = true ∧ rd s F.lnStatPhase n = 3
        ∧ (let lv := lineIn s n levels; (ccrcOk (controlIn (if rdb s F.lnStatRxInv n then invLevels 4096 lv else lv)) = false)))
    ∧ (∃ s : State, ∃ now n : Nat, isLane s n = true ∧ rd s F.lnStatPhase n = 5 ∧ (laneSt s n).phaseSince + 10000000 ≤ now
        ∧ (laneSt s n).qualBad = false)
    ∧ (∃ s : State, ∃ now n : Nat, ∃ ok : Bool, isLane s n = true ∧ rd s F.lnStatPhase n = 5 ∧ (laneSt s n).phaseSince + 10000000 ≤ now
        ∧ (ok = false ∨ (laneSt s n).qualBad = true))
    ∧ (∃ s : State, ∃ now n limit : Nat, isLane s n = true ∧ (rd s F.lnStatPhase n, limit) ∈ [(0, 1000000), (2, 2000000), (3, 50000000),
        (4, 2000000), (5, 10000000)] ∧ (laneSt s n).phaseSince + limit ≤ now)
    ∧ (∃ s : State, ∃ now n : Nat, isLane s n = true ∧ rd s F.lnStatPhase n = 8 ∧ (rd s F.lnStatFailCause n ≠ 6 ∨ onAttempt s n = true)
        ∧ (laneSt s n).phaseSince + 10000000000 ≤ now)
    ∧ (∃ s : State, ∃ now n k : Nat, n < 256 ∧ rd s F.lnStatPhase n = 1 ∧ (laneSt s n).terminated = true ∧ k ∈ unitLanes s (laneUnit s n)
        ∧ k ≠ n ∧ ((laneSt s k).signal = true ∨ (2 ≤ rd s F.lnStatPhase k ∧ rd s F.lnStatPhase k ≤ 7))
        ∧ (laneSt s n).phaseSince + 10000000 ≤ now) :=
  ⟨⟨wr test F.lnStatPhase 9 271, 271, by decide +kernel⟩,
   ⟨laneAs 0 {}, 3, by decide +kernel⟩,
   ⟨laneAs 4 {}, 3, by decide +kernel⟩,
   ⟨laneAs 0 {}, 3, by decide +kernel⟩,
   ⟨laneAs 0 {}, 3, 4, by decide +kernel⟩,
   ⟨laneAs 1 {}, 3, by decide +kernel⟩,
   ⟨laneAs 1 {}, 3, by decide +kernel⟩,
   ⟨laneAs 2 {}, 3, 0, by decide +kernel⟩,
   ⟨laneAs 2 {}, 3, trainMarker, false, by decide +kernel⟩,
   ⟨laneAs 2 { markerRun := 7 }, 3, trainMarker * 2 ^ 32, true, by decide +kernel⟩,
   ⟨laneAs 3 {}, 3, trainLevels (sealWord 0) 0, by decide +kernel⟩,
   ⟨laneAs 3 {}, 3, 0, by decide +kernel⟩,
   ⟨laneAs 5 {}, 10000000, 3, by decide +kernel⟩,
   ⟨laneAs 5 {}, 10000000, 3, false, by decide +kernel⟩,
   ⟨laneAs 5 {}, 10000000, 3, 10000000, by decide +kernel⟩,
   ⟨laneAs 8 {}, 10000000000, 3, by decide +kernel⟩,
   ⟨{ laneAs 1 { terminated := true } with lanes := [(2, { signal := true }), (3, { terminated := true })] }, 10000000, 3, 2,
       by decide +kernel⟩⟩

theorem witness_RecalibrationCommandsComplete :
    (∃ s : State, ∃ who : Who, ∃ width n : Nat, ∃ val : Word, Served s who ∧ 64 ≤ width ∧ n < 272
        ∧ wordLegal (fieldsAt (lnCtlKey n)) val = true ∧ (wordGet val 5 11 = 0 ∨ baseOf s = 3) ∧ (¬ (wordGet val 5 2 = 2
        ∧ (3 ≤ wordGet val 10 3 ∨ 3 ≤ wordGet val 7 3))))
    ∧ (∃ s : State, ∃ who : Who, ∃ width n : Nat, ∃ val : Word, Served s who ∧ 64 ≤ width ∧ n < 272
        ∧ wordLegal (fieldsAt (lnCtlKey n)) val = true ∧ ((wordGet val 5 11 ≠ 0 ∧ baseOf s ≠ 3) ∨ (wordGet val 5 2 = 2
        ∧ (3 ≤ wordGet val 10 3 ∨ 3 ≤ wordGet val 7 3))))
    ∧ (∃ s : State, ∃ who : Who, ∃ width n : Nat, ∃ val : Word, Served s who ∧ 64 ≤ width ∧ n < 272
        ∧ wordLegal (fieldsAt (lnCtlKey n)) val = true ∧ (wordGet val 5 11 = 0 ∨ baseOf s = 3) ∧ (¬ (wordGet val 5 2 = 2
        ∧ (3 ≤ wordGet val 10 3 ∨ 3 ≤ wordGet val 7 3))))
    ∧ (∃ s : State, ∃ who : Who, ∃ width n : Nat, ∃ val : Word, Served s who ∧ 64 ≤ width ∧ n < 272
        ∧ wordLegal (fieldsAt (lnCtlKey n)) val = true ∧ ((wordGet val 5 11 ≠ 0 ∧ baseOf s ≠ 3) ∨ (wordGet val 5 2 = 2
        ∧ (3 ≤ wordGet val 10 3 ∨ 3 ≤ wordGet val 7 3))))
    ∧ (∃ s : State, ∃ n tj mv : Nat, n < 256 ∧ rd s F.lnStatPhase n = 6
        ∧ (8 < (toSigned 8 tj - toSigned 8 (rd s F.lnRecTj n)).natAbs ∨ rd s F.lnRecVserdesMv n * 2 < ((mv : Int) - rd s F.lnRecVserdesMv n).natAbs * 100))
    ∧ (∃ s : State, ∃ n tj mv : Nat, n < 256 ∧ rd s F.lnStatPhase n = 6 ∧ (toSigned 8 tj - toSigned 8 (rd s F.lnRecTj n)).natAbs ≤ 8
        ∧ ((mv : Int) - rd s F.lnRecVserdesMv n).natAbs * 100 ≤ rd s F.lnRecVserdesMv n * 2)
    ∧ (∃ s : State, ∃ n : Nat, (256 ≤ n ∨ rd s F.lnStatPhase n ≠ 6))
    ∧ (∃ s : State, ∃ t n : Nat, servedBy s t = some n ∧ (spareSt s t).stage = .recalLock ∧ rd s F.lnStatPhase n = 6)
    ∧ (∃ s : State, ∃ t n : Nat, servedBy s t = some n ∧ ((spareSt s t).stage = .recalCarry ∨ (spareSt s t).stage = .retrain)) :=
  ⟨⟨run, .mgmt, 64, 271, csrDefault (lnCtlKey 271) + 1, servedOf (by decide +kernel), by decide +kernel⟩,
   ⟨run, .mgmt, 64, 271, csrDefault (lnCtlKey 271) + 32, servedOf (by decide +kernel), by decide +kernel⟩,
   ⟨run, .mgmt, 64, 271, csrDefault (lnCtlKey 271) + 2, servedOf (by decide +kernel), by decide +kernel⟩,
   ⟨run, .mgmt, 64, 271, csrDefault (lnCtlKey 271) + 32, servedOf (by decide +kernel), by decide +kernel⟩,
   ⟨laneAs 6 {}, 3, 9, 0, by decide +kernel⟩,
   ⟨laneAs 6 {}, 3, 8, 0, by decide +kernel⟩,
   ⟨laneAs 5 {}, 3, by decide +kernel⟩,
   ⟨spareAs 6 .recalLock {}, 0, 3, by decide +kernel⟩,
   ⟨spareAs 7 .recalCarry {}, 0, 3, by decide +kernel⟩⟩

theorem witness_LaneFailureCommandsComplete :
    (∃ s : State, ∃ n : Nat, n < 272 ∧ rd s F.lnStatPhase n ≠ 8)
    ∧ (∃ s : State, ∃ now n t : Nat, isLane s n = true ∧ (laneSt s n).lockLostAt = some t
        ∧ (rd s F.lnStatPhase n = 6 ∨ rd s F.lnStatPhase n = 7) ∧ rdb s F.lnStatBlkLock n = false ∧ t + 10000 ≤ now)
    ∧ (∃ s : State, ∃ t n : Nat, servedBy s t = some n ∧ (spareSt s t).stage = .swapLock ∧ rdb s F.lnStatBlkLock n = true
        ∧ rdb s F.lnStatFecLock n = true ∧ (laneSt s n).deskew = true ∧ (laneSt s n).partnerReady = true)
    ∧ (∃ s : State, ∃ t n : Nat, servedBy s t = some n ∧ (spareSt s t).stage = .swapped ∧ rd s F.lnStatFailCause n ≠ 6) :=
  ⟨⟨laneAs 6 {}, 3, by decide +kernel⟩,
   ⟨laneAs 6 { lockLostAt := some 0 }, 10000, 3, 0, by decide +kernel⟩,
   ⟨wrb (wrb (spareAs 8 .swapLock { deskew := true, partnerReady := true }) F.lnStatBlkLock true 3) F.lnStatFecLock true 3, 0, 3,
       by decide +kernel⟩,
   ⟨spareAs 8 .swapped {}, 0, 3, by decide +kernel⟩⟩

theorem witness_RoutingCommandsComplete :
    (∃ s : State, ∃ now : Nat, ∃ p : Pkt, ∃ t : State, t = takeIn (atTime s now) p ∧ holdOn s = false ∧ arrivalDrop t p = none
        ∧ (baseOf t = 1 ∨ baseOf t = 2) ∧ p.op = opRouteNotice ∧ p.src / 64 = selfGroup t)
    ∧ (∃ s : State, ∃ now : Nat, ∃ p : Pkt, ∃ t : State, t = takeIn (atTime s now) p ∧ holdOn s = false ∧ arrivalDrop t p = none
        ∧ (baseOf t = 1 ∨ baseOf t = 2) ∧ p.op = opRouteNotice ∧ p.src / 64 ≠ selfGroup t)
    ∧ (∃ s : State, ∃ now : Nat, rdb s F.rtStatSettling = true ∧ s.rt.settleAt + rd s F.rtSettleMs * 1000000 ≤ now)
    ∧ (∃ s : State, ∃ now u : Nat, ∃ p : Pkt, ∃ t : State, t = takeIn (atTime s now) p ∧ holdOn s = false ∧ arrivalDrop t p = none
        ∧ (baseOf t = 1 ∨ baseOf t = 2) ∧ p.op = opJoin ∧ (roleOf t u ≠ 1 ∨ peerUse t = true) ∧ linkUp t u = true)
    ∧ (∃ s : State, ∃ now u : Nat, ∃ p : Pkt, ∃ t : State, t = takeIn (atTime s now) p ∧ holdOn s = false ∧ arrivalDrop t p = none
        ∧ (baseOf t = 1 ∨ baseOf t = 2) ∧ p.op = opJoinAck ∧ (roleOf t u ≠ 1 ∨ peerUse t = true) ∧ linkUp t u = true
        ∧ bits (payloadWord p 1) 32 8 ≠ 0)
    ∧ (∃ s : State, ∃ now u : Nat, ∃ p : Pkt, ∃ t : State, t = takeIn (atTime s now) p ∧ holdOn s = false ∧ arrivalDrop t p = none
        ∧ (baseOf t = 1 ∨ baseOf t = 2) ∧ p.op = opJoinAck ∧ (roleOf t u ≠ 1 ∨ peerUse t = true) ∧ linkUp t u = true
        ∧ bits (payloadWord p 1) 32 8 = 0)
    ∧ (∃ s : State, (baseOf s = 2 ∨ (baseOf s = 1 ∧ rd s F.rtStatJoin ≠ 0)))
    ∧ (∃ s : State, baseOf s = 1 ∧ rd s F.rtStatJoin = 0 ∧ booted s = true)
    ∧ (∃ s : State, ∃ now j : Nat, baseOf s = 1 ∧ rd s F.rtStatJoin = 1 ∧ s.rt.joinAt = some j ∧ j + 10000000 ≤ now
        ∧ s.rt.gotAccept = true ∧ joinUnits (atTime s now) ≠ [])
    ∧ (∃ s : State, ∃ now j : Nat, s.rt.joinedAt = some j ∧ s.rt.announced = 1 ∧ j + 10000000 ≤ now)
    ∧ (∃ s : State, ∃ now j : Nat, s.rt.joinedAt = some j ∧ s.rt.announced = 2 ∧ j + 100000000 ≤ now)
    ∧ (∃ s : State, ∃ now : Nat, ∃ p : Pkt, ∃ t : State, ∃ key : Nat, t = takeIn (atTime s now) p ∧ holdOn s = false
        ∧ arrivalDrop t p = none ∧ (baseOf t = 1 ∨ baseOf t = 2) ∧ p.op = opEpochNotice
        ∧ key = epochKey (bits (payloadWord p 0) 0 18) (bits (payloadWord p 0) 32 32) (bits (payloadWord p 1) 2 2)
        ∧ (∃ e ∈ t.rt.epochKeys, e.1 = key ∧ t.timeNs < e.2 + 1000000000))
    ∧ (∃ s : State, ∃ now : Nat, ∃ p : Pkt, ∃ t : State, ∃ dev epoch rep : Nat, t = takeIn (atTime s now) p ∧ holdOn s = false
        ∧ arrivalDrop t p = none ∧ (baseOf t = 1 ∨ baseOf t = 2) ∧ p.op = opEpochNotice ∧ dev = bits (payloadWord p 0) 0 18
        ∧ epoch = bits (payloadWord p 0) 32 32 ∧ rep = bits (payloadWord p 1) 2 2 ∧ (∀ e ∈ t.rt.epochKeys,
        e.1 = epochKey dev epoch rep → e.2 + 1000000000 ≤ t.timeNs)) :=
  ⟨⟨run, 0, { sealPkt { pkt opRouteNotice 0 0 0 1 (zeros 8) with src := 66 } with stomp := 0 }, _, rfl, by decide +kernel⟩,
   ⟨run, 0, { sealPkt { pkt opRouteNotice 0 0 0 1 (zeros 8) with src := 130 } with stomp := 0 }, _, rfl, by decide +kernel⟩,
   ⟨wrb run F.rtStatSettling true, 2 ^ 40, by decide +kernel⟩,
   ⟨linkAs lsUp, 0, 5, pkt opJoin 0 0 0 1 (zeros 64), _, rfl, by decide +kernel⟩,
   ⟨linkAs lsUp, 0, 5, pkt opJoinAck 0 0 0 1 (zeros 12 ++ [1] ++ zeros 51), _, rfl, by decide +kernel⟩,
   ⟨linkAs lsUp, 0, 5, pkt opJoinAck 0 0 0 1 (zeros 12 ++ [0] ++ zeros 51), _, rfl, by decide +kernel⟩,
   ⟨run, by decide +kernel⟩,
   ⟨wr (wr build F.armStatLoaded 0x3F) F.rtStatJoin 0, by decide +kernel⟩,
   ⟨{ wr (wr (linkAs lsUp) F.modeStatBase 1) F.rtStatJoin 1 with rt := { gotAccept := true, joinAt := some 0 } }, 10000000, 0,
       by decide +kernel⟩,
   ⟨{ run with rt := { joinedAt := some 0, announced := 1 } }, 10000000, 0, by decide +kernel⟩,
   ⟨{ run with rt := { joinedAt := some 0, announced := 2 } }, 100000000, 0, by decide +kernel⟩,
   ⟨{ run with rt := { epochKeys := [(130, 0)] } }, 0, pkt opEpochNotice 0 0 0 1 ([130] ++ zeros 15), _, 130, rfl, by decide +kernel⟩,
   ⟨{ run with timeNs := 10 ^ 9, rt := { epochKeys := [(130, 0)] } }, 0, pkt opEpochNotice 0 0 0 1 ([130] ++ zeros 15), _, 130, 0, 0, rfl,
       by decide +kernel⟩⟩

theorem witness_MemoryRequestsComplete :
    (∃ s : State, ∃ now : Nat, ∃ p : Pkt, ∃ t : State, ∃ k : Nat, ∃ r : Rec, ∃ t2 : State, ∃ a : Adm, ∃ l : List (Nat × Nat),
        p.op = opPut ∧ ReachesRecord s now p t k r ∧ Translated t p 0 t2 a l ∧ a.recv = none)
    ∧ (∃ s : State, ∃ now : Nat, ∃ p : Pkt, ∃ t t2 : State, ∃ a : Adm, ∃ l : List (Nat × Nat), p.op = opGetReq ∧ ReachesContext s now p t
        ∧ Translated t p 0 t2 a l ∧ a.recv = none)
    ∧ (∃ s : State, ∃ now : Nat, ∃ p : Pkt, ∃ t t2 : State, ∃ a : Adm, ∃ l : List (Nat × Nat), p.op = opMcPut ∧ ReachesContext s now p t
        ∧ Translated t p 0 t2 a l ∧ a.recv = none)
    ∧ (∃ s : State, ∃ now : Nat, ∃ p : Pkt, p.op = opPut ∧ holdOn s = false ∧ executes (atTime s now) p = true)
    ∧ (∃ s : State, ∃ now : Nat, ∃ p : Pkt, p.op = opGetReq ∧ holdOn s = false ∧ executes (atTime s now) p = true) :=
  ⟨⟨mem, 0, (pkt opPut 0x20000 0 9 1 (zeros 8)), recorded mem (pkt opPut 0x20000 0 9 1 (zeros 8)), _, (freshRec opPut), _, admAt 1 8,
      [(0x5000, 8)], rfl, reachesRecord (by decide +kernel) (by decide +kernel),
      translated (by decide +kernel) (by decide +kernel) (by decide +kernel) (by decide +kernel) (by decide +kernel), rfl⟩,
   ⟨mem, 0, (pkt opGetReq 0x20000 0 9 1 (toBytes 8 (8 + 2 ^ 31) ++ zeros 8)), _, _, admAt 0 8, [(0x5000, 8)], rfl,
       reachesContext (by decide +kernel),
       translated (by decide +kernel) (by decide +kernel) (by decide +kernel) (by decide +kernel) (by decide +kernel), rfl⟩,
   ⟨mem, 0, (pkt opMcPut 0x20000 0 9 1 (zeros 8)), _, _, admAt 1 8, [(0x5000, 8)], rfl, reachesContext (by decide +kernel),
       translated (by decide +kernel) (by decide +kernel) (by decide +kernel) (by decide +kernel) (by decide +kernel), rfl⟩,
   ⟨mem, 0, (pkt opPut 0x20000 0 9 1 (zeros 8)), by decide +kernel⟩,
   ⟨mem, 0, (pkt opGetReq 0x20000 0 9 1 (toBytes 8 (8 + 2 ^ 31) ++ zeros 8)), by decide +kernel⟩⟩

theorem witness_MessageRequestsComplete :
    (∃ s : State, ∃ now : Nat, ∃ p : Pkt, ∃ t : State, ∃ k : Nat, ∃ r : Rec, ∃ id : Nat, ∃ x : Recv, p.op = opSend ∧ p.psn = 0
        ∧ ReachesRecord s now p t k r ∧ r.place = none ∧ findPosted t p.ec (matchOf p) = some (id, x) ∧ sendBlocked t p = false)
    ∧ (∃ s : State, ∃ now : Nat, ∃ p : Pkt, ∃ t : State, ∃ k : Nat, ∃ r : Rec, ∃ id : Nat, ∃ x : Recv, p.op = opSend ∧ p.psn = 0
        ∧ ReachesRecord s now p t k r ∧ r.place = none ∧ findPosted t p.ec (matchOf p) = some (id, x) ∧ sendBlocked t p = true)
    ∧ (∃ s : State, ∃ now : Nat, ∃ p : Pkt, ∃ t : State, ∃ k : Nat, ∃ r : Rec, p.op = opSend ∧ p.psn = 0 ∧ ReachesRecord s now p t k r
        ∧ r.place = none ∧ findPosted t p.ec (matchOf p) = none
        ∧ unitsUsed t - (mgetD t.mt.early k []).foldl (fun n e => n + ceilDiv e.2.length 64) 0 + (1 + ceilDiv (sendDataLen p) 64) ≤ unexpSize)
    ∧ (∃ s : State, ∃ now : Nat, ∃ p : Pkt, ∃ t : State, ∃ k : Nat, ∃ r : Rec, p.op = opSend ∧ p.psn = 0 ∧ ReachesRecord s now p t k r
        ∧ r.place = none ∧ findPosted t p.ec (matchOf p) = none
        ∧ unexpSize < unitsUsed t - (mgetD t.mt.early k []).foldl (fun n e => n + ceilDiv e.2.length 64) 0 + (1 + ceilDiv (sendDataLen p) 64))
    ∧ (∃ s : State, ∃ now : Nat, ∃ p : Pkt, ∃ t : State, ∃ k : Nat, ∃ r : Rec, ∃ id : Nat, ∃ x : Recv, p.op = opSend
        ∧ ReachesRecord s now p t k r ∧ r.place = some id ∧ mget t.mt.recvs id = some x
        ∧ (x.got + (sendData p).length < x.dataLen ∨ sendBlocked t p = false))
    ∧ (∃ s : State, ∃ now : Nat, ∃ p : Pkt, ∃ t : State, ∃ k : Nat, ∃ r : Rec, ∃ id : Nat, ∃ x : Unexp, p.op = opSend
        ∧ ReachesRecord s now p t k r ∧ r.place = some id ∧ mget t.mt.recvs id = none ∧ mget t.mt.unexp id = some x)
    ∧ (∃ s : State, ∃ now : Nat, ∃ p : Pkt, ∃ t : State, ∃ k : Nat, ∃ r : Rec, p.op = opSend ∧ p.psn ≠ 0 ∧ ReachesRecord s now p t k r
        ∧ r.place = none ∧ unitsUsed t + ceilDiv p.len 64 ≤ unexpSize)
    ∧ (∃ s : State, ∃ now : Nat, ∃ p : Pkt, p.op = opSend ∧ holdOn s = false ∧ executes (atTime s now) p = true)
    ∧ (∃ s : State, ∃ now : Nat, ∃ p : Pkt, ∃ t : State, ∃ k : Nat, ∃ r : Rec, ∃ id : Nat, ∃ x : Recv, p.op = opSendRts ∧ isFin p = false
        ∧ ReachesRecord s now p t k r ∧ findPosted t p.ec (matchOf p) = some (id, x) ∧ sendBlocked t p = false)
    ∧ (∃ s : State, ∃ now : Nat, ∃ p : Pkt, ∃ t : State, ∃ k : Nat, ∃ r : Rec, p.op = opSendRts ∧ isFin p = false
        ∧ ReachesRecord s now p t k r ∧ findPosted t p.ec (matchOf p) = none ∧ unitsUsed t + 1 ≤ unexpSize)
    ∧ (∃ s : State, ∃ now : Nat, ∃ p : Pkt, ∃ t : State, ∃ k : Nat, ∃ r : Rec, p.op = opSendRts ∧ isFin p = false
        ∧ ReachesRecord s now p t k r ∧ findPosted t p.ec (matchOf p) = none ∧ unexpSize < unitsUsed t + 1)
    ∧ (∃ s : State, ∃ now : Nat, ∃ p : Pkt, ∃ t : State, ∃ k : Nat, ∃ r : Rec, ∃ x : Rdv, p.op = opSendRts ∧ isFin p = true
        ∧ ReachesRecord s now p t k r
        ∧ (let tag := bits (payWord p 1) 38 26; let v := placePsn t p p.len true; (mget v.mt.rdv (tag % 2 ^ 16) = some x)
        ∧ x.gen = tag / 2 ^ 16))
    ∧ (∃ s : State, ∃ now : Nat, ∃ p : Pkt, ∃ t : State, ∃ k : Nat, ∃ r : Rec, p.op = opSendRts ∧ isFin p = true
        ∧ ReachesRecord s now p t k r ∧ (let tag := bits (payWord p 1) 38 26; let v := placePsn t p p.len true; ((∀ x,
        mget v.mt.rdv (tag % 2 ^ 16) = some x → x.gen ≠ tag / 2 ^ 16)))) :=
  ⟨⟨waits mem, 0, (pkt opSend 0 0 9 1 (zeros 16)), _, _, freshRec opSend, 0, oldRecv, rfl, by decide +kernel,
      reachesRecord (by decide +kernel) (by decide +kernel), by decide +kernel⟩,
   ⟨fullCq (waits mem), 0, (pkt opSend 0 0 9 1 (zeros 16)), _, _, freshRec opSend, 0, oldRecv, rfl, by decide +kernel,
       reachesRecord (by decide +kernel) (by decide +kernel), by decide +kernel⟩,
   ⟨mem, 0, (pkt opSend 0 0 9 1 (zeros 16)), _, _, freshRec opSend, rfl, by decide +kernel,
       reachesRecord (by decide +kernel) (by decide +kernel), by decide +kernel⟩,
   ⟨crowded, 0, (pkt opSend 0 0 9 1 (zeros 16)), _, _, freshRec opSend, rfl, by decide +kernel,
       reachesRecord (by decide +kernel) (by decide +kernel), by decide +kernel⟩,
   ⟨intoRecv, 0, (sealPkt { pkt opSend 0 0 9 1 (zeros 8) with psn := 1 }), _, _, oldRec, 4, { oldRecv with dataLen := 4088 }, rfl,
       reachesRecord (by decide +kernel) (by decide +kernel), by decide +kernel⟩,
   ⟨inSend, 0, (sealPkt { pkt opSend 0 0 9 1 (zeros 8) with psn := 1 }), _, _, oldRec, 4, oldUnexp, rfl,
       reachesRecord (by decide +kernel) (by decide +kernel), by decide +kernel⟩,
   ⟨mem, 0, (sealPkt { pkt opSend 0 0 9 1 (zeros 8) with psn := 1 }), _, _, freshRec opSend, rfl, by decide +kernel,
       reachesRecord (by decide +kernel) (by decide +kernel), by decide +kernel⟩,
   ⟨mem, 0, (pkt opSend 0 0 9 1 (zeros 16)), by decide +kernel⟩,
   ⟨waits mem, 0, (pkt opSendRts 0 0 9 1 (zeros 32)), _, _, freshRec opSendRts, 0, oldRecv, rfl, by decide +kernel,
       reachesRecord (by decide +kernel) (by decide +kernel), by decide +kernel⟩,
   ⟨mem, 0, (pkt opSendRts 0 0 9 1 (zeros 32)), _, _, (freshRec opSendRts), rfl, by decide +kernel,
       reachesRecord (by decide +kernel) (by decide +kernel), by decide +kernel⟩,
   ⟨crowded, 0, (pkt opSendRts 0 0 9 1 (zeros 32)), _, _, freshRec opSendRts, rfl, by decide +kernel,
       reachesRecord (by decide +kernel) (by decide +kernel), by decide +kernel⟩,
   ⟨{ mem with mt := { rdv := [(0, rdvEnt)] } }, 0, (pkt opSendRts 0 0 9 1 (zeros 8 ++ toBytes 8 (2 ^ 36) ++ zeros 16)), _, _,
       freshRec opSendRts, rdvEnt, rfl, by decide +kernel, reachesRecord (by decide +kernel) (by decide +kernel), by decide +kernel⟩,
   ⟨mem, 0, (pkt opSendRts 0 0 9 1 (zeros 8 ++ toBytes 8 (2 ^ 36) ++ zeros 16)), _, _, freshRec opSendRts, rfl, by decide +kernel,
       reachesRecord (by decide +kernel) (by decide +kernel), noneOf (by decide +kernel)⟩⟩

theorem witness_WordOperationsComplete :
    (∃ s : State, ∃ now : Nat, ∃ p : Pkt, ∃ t : State, ∃ k : Nat, ∃ r : Rec, ∃ t2 : State, ∃ a : Adm, ∃ pa n : Nat,
        ∃ l : List (Nat × Nat), p.op = opAtomic ∧ ReachesRecord s now p t k r ∧ Translated (seeOp t k) p (atomicSize p) t2 a ((pa,
        n) :: l) ∧ a.recv = none)
    ∧ (∃ s : State, ∃ now : Nat, ∃ p : Pkt, ∃ t : State, ∃ k : Nat, ∃ r : Rec, ∃ t2 : State, ∃ a : Adm, ∃ pa n : Nat,
        ∃ l : List (Nat × Nat), p.op = opLock ∧ ReachesRecord s now p t k r ∧ Translated (seeOp t k) p 8 t2 a ((pa, n) :: l)
        ∧ a.recv = none)
    ∧ (∃ s : State, ∃ now : Nat, ∃ p : Pkt, p.op = opAtomic ∧ holdOn s = false ∧ executes (atTime s now) p = true)
    ∧ (∃ s : State, ∃ now : Nat, ∃ p : Pkt, p.op = opLock ∧ holdOn s = false ∧ executes (atTime s now) p = true) :=
  ⟨⟨mem, 0, (pkt opAtomic 0x20000 0 9 1 (toBytes 8 32 ++ zeros 8)), _, _, (freshRec opAtomic), _, admAt 2 8, 0x5000, 8, [], rfl,
      reachesRecord (by decide +kernel) (by decide +kernel),
      translated (by decide +kernel) (by decide +kernel) (by decide +kernel) (by decide +kernel) (by decide +kernel), rfl⟩,
   ⟨mem, 0, (pkt opLock 0x20000 0 9 1 (zeros 16)), _, _, (freshRec opLock), _, admAt 2 8, 0x5000, 8, [], rfl,
       reachesRecord (by decide +kernel) (by decide +kernel),
       translated (by decide +kernel) (by decide +kernel) (by decide +kernel) (by decide +kernel) (by decide +kernel), rfl⟩,
   ⟨mem, 0, (pkt opAtomic 0x20000 0 9 1 (toBytes 8 32 ++ zeros 8)), by decide +kernel⟩,
   ⟨mem, 0, (pkt opLock 0x20000 0 9 1 (zeros 16)), by decide +kernel⟩⟩

theorem witness_ResponsesComplete :
    (∃ s : State, ∃ now : Nat, ∃ p : Pkt, ∃ m : Slot, ∃ t : State, ∃ a : Nat, ∃ t2 : State, ∃ l : List (Nat × Nat), p.op = opGetRsp
        ∧ m.op = opGetReq ∧ ReachesMessage s now p m t ∧ isAcked m p.psn = false ∧ mhas m.copies p.psn = true ∧ m.result = .dva a
        ∧ (let v := sampleGetRsp t m p t.timeNs; let adm := msgAdm v m (a + p.psn * 4096) p.payload.length 1; (translateAdm v adm = (t2,
        .ok l))))
    ∧ (∃ s : State, ∃ now : Nat, ∃ p : Pkt, ∃ m : Slot, ∃ t : State, p.op = opGetRsp ∧ m.op = opGetReq ∧ ReachesMessage s now p m t
        ∧ (isAcked m p.psn = true ∨ mhas m.copies p.psn = false))
    ∧ (∃ s : State, ∃ now : Nat, ∃ p : Pkt, ∃ m : Slot, ∃ t : State, p.op = opAtomicRsp ∧ m.op = opAtomic ∧ ReachesMessage s now p m t
        ∧ m.kept = none)
    ∧ (∃ s : State, ∃ now : Nat, ∃ p : Pkt, ∃ m : Slot, ∃ t : State, p.op = opLockRsp ∧ m.op = opLock ∧ ReachesMessage s now p m t
        ∧ m.kept = none)
    ∧ (∃ s : State, ∃ now : Nat, ∃ p : Pkt, ∃ m : Slot, ∃ t : State, p.op = opAck ∧ ReachesMessage s now p m t)
    ∧ (∃ s : State, ∃ now : Nat, ∃ p : Pkt, ∃ m : Slot, ∃ t : State, p.op = opNack ∧ ReachesMessage s now p m t)
    ∧ (∃ s : State, ∃ now : Nat, ∃ p : Pkt, ∃ t : State, TakenIn s now p t ∧ (let v := pmSample t 0 1 (arrivalId p) [p.ec, p.op, p.off,
        p.src, p.dst, p.tc, p.len]; (slotOf v p.msgid = none))) :=
  ⟨⟨sending getMsg, 0, (pkt opGetRsp 0 0 7 1 (zeros 8)), getMsg, _, 0x100000, _, [(0x5000, 8)], rfl, rfl,
      reachesMessage (by decide +kernel) rfl (by decide +kernel) (by decide +kernel) (by decide +kernel) (by decide +kernel),
      by decide +kernel, by decide +kernel, rfl, okOf (by decide +kernel)⟩,
   ⟨sending { getMsg with base := 1 }, 0, (pkt opGetRsp 0 0 7 1 (zeros 8)), { getMsg with base := 1 }, _, rfl, rfl,
       reachesMessage (by decide +kernel) rfl (by decide +kernel) (by decide +kernel) (by decide +kernel) (by decide +kernel),
       by decide +kernel⟩,
   ⟨sending (msg opAtomic 16 1), 0, (pkt opAtomicRsp 0 0 7 1 (zeros 8)), msg opAtomic 16 1, _, rfl, rfl,
       reachesMessage (by decide +kernel) rfl (by decide +kernel) (by decide +kernel) (by decide +kernel) (by decide +kernel), rfl⟩,
   ⟨sending (msg opLock 16 1), 0, (pkt opLockRsp 0 0 7 1 (zeros 16)), msg opLock 16 1, _, rfl, rfl,
       reachesMessage (by decide +kernel) rfl (by decide +kernel) (by decide +kernel) (by decide +kernel) (by decide +kernel), rfl⟩,
   ⟨sending (msg opPut 8 1), 0, (pkt opAck 0 0 7 1 (zeros 8)), msg opPut 8 1, _, rfl,
       reachesMessage (by decide +kernel) rfl (by decide +kernel) (by decide +kernel) (by decide +kernel) (by decide +kernel)⟩,
   ⟨sending (msg opPut 8 1), 0, (pkt opNack 0 0 7 1 (zeros 8)), msg opPut 8 1, _, rfl,
       reachesMessage (by decide +kernel) rfl (by decide +kernel) (by decide +kernel) (by decide +kernel) (by decide +kernel)⟩,
   ⟨run, 0, (pkt opAck 0 0 7 1 (zeros 8)), _, takenIn (by decide +kernel), by decide +kernel⟩⟩

theorem witness_CollectiveAndExchangeArrivalsComplete :
    (∃ s : State, ∃ now : Nat, ∃ p : Pkt, ∃ t : State, TakenIn s now p t ∧ baseOf t = 2 ∧ enteringTest t = false ∧ p.op = opLockNotice)
    ∧ (∃ s : State, ∃ now : Nat, ∃ p : Pkt, ∃ t : State, ∃ g i : Nat, TakenIn s now p t ∧ baseOf t = 2 ∧ enteringTest t = false
        ∧ p.op = opClUp ∧ p.key % 8 = 0 ∧ clNeighbour t p = some (g, some i))
    ∧ (∃ s : State, ∃ now : Nat, ∃ p : Pkt, ∃ t : State, ∃ g : Nat, TakenIn s now p t ∧ baseOf t = 2 ∧ enteringTest t = false
        ∧ p.op = opClDown ∧ p.key % 8 = 0 ∧ clNeighbour t p = some (g, none))
    ∧ (∃ s : State, ∃ now : Nat, ∃ p : Pkt, ∃ t : State, ∃ g : Nat, ∃ c : Option Nat, TakenIn s now p t ∧ baseOf t = 2
        ∧ enteringTest t = false ∧ isClKind p 1 = true ∧ clNeighbour t p = some (g, c))
    ∧ (∃ s : State, ∃ now : Nat, ∃ p : Pkt, ∃ t : State, ∃ g : Nat, ∃ c : Option Nat, TakenIn s now p t ∧ baseOf t = 2
        ∧ enteringTest t = false ∧ isClKind p 2 = true ∧ clNeighbour t p = some (g, c))
    ∧ (∃ s : State, ∃ now : Nat, ∃ p : Pkt, ∃ t : State, ∃ g : Nat, ∃ c : Option Nat, TakenIn s now p t ∧ baseOf t = 2
        ∧ enteringTest t = false ∧ isClKind p 3 = true ∧ clNeighbour t p = some (g, c))
    ∧ (∃ s : State, ∃ now : Nat, ∃ p : Pkt, ∃ t : State, TakenIn s now p t ∧ baseOf t = 2 ∧ enteringTest t = false
        ∧ clNeighbour t p = none)
    ∧ (∃ s : State, ∃ now : Nat, ∃ p : Pkt, ∃ t : State, TakenIn s now p t ∧ baseOf t = 2 ∧ enteringTest t = false ∧ p.op = opExBatch)
    ∧ (∃ t : State, ∃ p : Pkt, (let j := p.key % 256; (64 ≤ j ∨ rd t F.exJobState (j % 64) ≠ 1 ∨ rd t F.exJobRxEc (j % 64) ≠ p.ec)))
    ∧ (∃ t : State, ∃ p : Pkt, (let j := p.key % 256; (j < 64) ∧ rd t F.exJobState j = 1 ∧ rd t F.exJobRxEc j = p.ec
        ∧ serving t (rd t F.exJobHp j) = false))
    ∧ (∃ s : State, ∃ now : Nat, ∃ p : Pkt, ∃ t : State, TakenIn s now p t ∧ baseOf t = 2 ∧ enteringTest t = false ∧ p.op = opExCredit)
    ∧ (∃ t : State, ∃ p : Pkt, ∃ status : Nat, (let j := p.key % 256; (j < 64) ∧ rd t F.exJobState j = 1
        ∧ status = bits (ofBytes (p.payload.take 8)) 45 3 ∧ (status = 2 ∨ status = 3)
        ∧ ((job t j).batches.isEmpty && (job t j).sends.isEmpty) = false)) :=
  ⟨⟨run, 0, (pkt opLockNotice 0 0 9 1 (zeros 16)), _, takenIn (by decide +kernel), by decide +kernel, by decide +kernel, rfl⟩,
   ⟨group true, 0, (sealPkt { pkt opClUp 0 0 9 1 (zeros 0) with ec := 5 }), _, 5, 0, takenIn (by decide +kernel), by decide +kernel⟩,
   ⟨inColl, 0, (sealPkt { pkt opClDown 0 0 9 1 (zeros 0) with ec := 5 }), _, 5, takenIn (by decide +kernel), by decide +kernel⟩,
   ⟨group true, 0, (sealPkt { pkt opClUp 1 0 9 1 (zeros 0) with ec := 5 }), _, 5, some 0, takenIn (by decide +kernel), by decide +kernel⟩,
   ⟨group false, 0, (sealPkt { pkt opClDown 2 0 9 1 (zeros 0) with ec := 5 }), _, 5, none, takenIn (by decide +kernel),
       by decide +kernel⟩,
   ⟨group false, 0, (sealPkt { pkt opClDown 3 0 9 1 (zeros 0) with ec := 5 }), _, 5, none, takenIn (by decide +kernel),
       by decide +kernel⟩,
   ⟨run, 0, (sealPkt { pkt opClDown 3 0 9 1 (zeros 0) with ec := 5 }), _, takenIn (by decide +kernel), by decide +kernel⟩,
   ⟨run, 0, (pkt opExBatch 0 0 9 1 (zeros 0)), _, takenIn (by decide +kernel), by decide +kernel, by decide +kernel, rfl⟩,
   ⟨run, (pkt opExBatch 64 0 9 1 (zeros 0)), by decide +kernel⟩,
   ⟨wr (wr (wr run F.exJobState 1 2) F.exJobRxEc 1 2) F.exJobHp 1 2, (pkt opExBatch 2 0 9 1 (zeros 0)), by decide +kernel⟩,
   ⟨run, 0, (pkt opExCredit 0 0 9 1 (zeros 8)), _, takenIn (by decide +kernel), by decide +kernel, by decide +kernel, rfl⟩,
   ⟨jobWith { batches := [(0, batch (some 0) true)] }, (pkt opExCredit 2 0 9 1 (toBytes 8 (3 * 2 ^ 45))), 3, by decide +kernel⟩⟩

theorem witness_InjectionAndContextFetchComplete :
    (∃ s : State, ∃ now id : Nat, ∃ read : List Byte, ∃ m : Slot, ∃ t : State, t = atTime s now ∧ slotOf s id = some m
        ∧ maySend t m = true ∧ readFits m read = true ∧ cached t m.ec = true ∧ m.gate = true ∧ m.polPassed = true ∧ flowCount t m ≠ 0
        ∧ (windowed m = false ∨ e2eRoom t m.dst (flitsOf (packetPayload m m.next (flowCount t m) (nextData m read)).length) = true)
        ∧ localSpan m (flowCount t m) = none)
    ∧ (∃ s : State, ∃ now id : Nat, ∃ read : List Byte, ∃ m : Slot, ∃ t : State, ∃ dva n cls : Nat, ∃ u : State, ∃ l : List (Nat × Nat),
        t = atTime s now ∧ slotOf s id = some m ∧ maySend t m = true ∧ readFits m read = true ∧ cached t m.ec = true ∧ m.gate = true
        ∧ m.polPassed = true ∧ flowCount t m ≠ 0
        ∧ (windowed m = false ∨ e2eRoom t m.dst (flitsOf (packetPayload m m.next (flowCount t m) (nextData m read)).length) = true)
        ∧ localSpan m (flowCount t m) = some (dva, n, cls) ∧ translateAdm t (msgAdm t m dva n cls) = (u, .ok l))
    ∧ (∃ s : State, ∃ now id : Nat, ∃ read : List Byte, ∃ m : Slot, ∃ t : State, t = atTime s now ∧ slotOf s id = some m
        ∧ maySend t m = true ∧ readFits m read = true ∧ cached t m.ec = true ∧ m.gate = true ∧ m.polPassed = true ∧ flowCount t m ≠ 0
        ∧ windowed m = true ∧ e2eRoom t m.dst (flitsOf (packetPayload m m.next (flowCount t m) (nextData m read)).length) = false)
    ∧ (∃ s : State, ∃ now id : Nat, ∃ read : List Byte, ∃ m : Slot, ∃ t : State, t = atTime s now ∧ slotOf s id = some m
        ∧ maySend t m = true ∧ readFits m read = true ∧ cached t m.ec = true ∧ m.gate = true ∧ m.polPassed = true ∧ flowCount t m = 0)
    ∧ (∃ s : State, ∃ now id : Nat, ∃ read : List Byte, ∃ m : Slot, ∃ t : State, t = atTime s now ∧ slotOf s id = some m
        ∧ maySend t m = true ∧ readFits m read = true ∧ (ctxOf t m.ec).isSome = true ∧ cached t m.ec = false)
    ∧ (∃ s : State, ∃ now ec : Nat, ∃ e : CacheEnt, mget s.tp.cache ec = some e ∧ e.fetching = true
        ∧ rangeServes (atTime s now) ec = false) :=
  ⟨⟨sending ({ msg opPut 8 1 with buf := .bytes (zeros 8), gate := true, polPassed := true, chunkEnd := 1 }), 0, 7, [],
      { msg opPut 8 1 with buf := .bytes (zeros 8), gate := true, polPassed := true, chunkEnd := 1 }, _, rfl, by decide +kernel⟩,
   ⟨sending ({ msg opPut 8 1 with buf := .dva 0x100000, gate := true, polPassed := true, chunkEnd := 1 }), 0, 7, zeros 8,
       { msg opPut 8 1 with buf := .dva 0x100000, gate := true, polPassed := true, chunkEnd := 1 }, _, 0x100000, 8, 0, _, [(0x5000, 8)],
       rfl, by decide +kernel, by decide +kernel, by decide +kernel, by decide +kernel, by decide +kernel, by decide +kernel,
       by decide +kernel, by decide +kernel, by decide +kernel, okOf (by decide +kernel)⟩,
   ⟨wr (sending ({ msg opPut 8 1 with buf := .bytes (zeros 8), gate := true, polPassed := true, chunkEnd := 1 })) F.rtE2eCfgWin 0, 0, 7,
       [], { msg opPut 8 1 with buf := .bytes (zeros 8), gate := true, polPassed := true, chunkEnd := 1 }, _, rfl, by decide +kernel⟩,
   ⟨{ mem with tp := { mem.tp with slots := [(7, { msg opPut 8 1 with buf := .bytes (zeros 8), gate := true, polPassed := true, chunkEnd := 1 }), (8, inFlight)], flows := [(flowKey 1 130 0, ⟨0, 0, 0⟩)] } }, 0, 7, [], { msg opPut 8 1 with buf := .bytes (zeros 8), gate := true, polPassed := true, chunkEnd := 1 }, _, rfl, by decide +kernel⟩,
   ⟨{ sending ({ msg opPut 8 1 with buf := .bytes (zeros 8), gate := true, polPassed := true, chunkEnd := 1 }) with tp := { (sending ({ msg opPut 8 1 with buf := .bytes (zeros 8), gate := true, polPassed := true, chunkEnd := 1 })).tp with cache := [] } }, 0, 7, [], { msg opPut 8 1 with buf := .bytes (zeros 8), gate := true, polPassed := true, chunkEnd := 1 }, _, rfl, by decide +kernel⟩,
   ⟨{ wr mem F.tpEcMapLoc 2 with tp := { mem.tp with cache := [(1, ⟨false, true⟩)] } }, 0, 1, ⟨false, true⟩, by decide +kernel⟩⟩

theorem witness_MessageAndRecordTimersComplete :
    (∃ s : State, ∃ now id : Nat, ∃ m : Slot, ∃ at' : Nat, slotOf s id = some m ∧ m.timerAt = some at' ∧ holdOn s = false
        ∧ m.finish = none ∧ (m.kept = none ∨ m.op = opGetReq) ∧ (m.op ≠ opGetReq ∨ m.stall = none) ∧ at' + m.timerLen ≤ now
        ∧ m.quietUntil ≤ now)
    ∧ (∃ s : State, ∃ now id psn : Nat, ∃ m : Slot, ∃ c : CopySt, slotOf s id = some m ∧ mget m.copies psn = some c ∧ c.waiting = true
        ∧ c.waitUntil ≤ now ∧ m.finish = none
        ∧ (let t := atTime s now; let l := (if m.op = opGetReq then pendingPsns m else [psn]).filter fun k => (match mget m.copies k with | some x => x.waiting && decide (x.waitUntil ≤ t.timeNs) | none => false) && !isAcked m k; (l ≠ [])))
    ∧ (∃ s : State, ∃ now id psn : Nat, ∃ m : Slot, ∃ c : CopySt, slotOf s id = some m ∧ mget m.copies psn = some c ∧ c.waiting = true
        ∧ isAcked m psn = false ∧ m.finish = none ∧ c.firstEver + ms (rd s F.tpRetryNackWaitMs) ≤ now)
    ∧ (∃ s : State, ∃ now src id : Nat, ∃ r : Rec, ∃ at' psn : Nat, mget s.tp.recs (recKey src id) = some r ∧ r.firstAt = some (at', psn)
        ∧ at' + rd s F.tpAckTimeNs ≤ now)
    ∧ (∃ s : State, ∃ now src id : Nat, ∃ r : Rec, mget s.tp.recs (recKey src id) = some r ∧ r.stamp + 2000000 ≤ (now : Int))
    ∧ (∃ s : State, ∃ now id at' : Nat, mget s.tp.quarantine id = some at' ∧ at' + ms 2 ≤ now)
    ∧ (∃ s : State, ∃ now ec dst tc : Nat, ∃ f : Flow, mget s.tp.flows (flowKey ec dst tc) = some f
        ∧ flowInFlight s (flowKey ec dst tc) = false ∧ f.lastAt + us 100 ≤ now)
    ∧ (∃ s : State, ∃ now i : Nat, ∃ r : Rdv, ∃ at' : Nat, mget s.mt.rdv i = some r ∧ r.sentAt = some at' ∧ rd s F.mtCfgRdvLimitMs ≠ 0
        ∧ at' + ms (rd s F.mtCfgRdvLimitMs) ≤ now)
    ∧ (∃ s : State, ∃ now ec : Nat, ∃ c : EcCtx, mget s.tp.ecs ec = some c ∧ c.closing = true
        ∧ c.closeAt + ms (rd s F.mtCfgRdvCloseMs) ≤ now) :=
  ⟨⟨sending ({ msg opPut 8 1 with timerAt := some 0, copies := [(0, ⟨0, 0, 1, 0, 1, 0, 0, false, 0, none, 1, [], 1, 0, 0, 0⟩)] }),
      10 ^ 12, 7, { msg opPut 8 1 with timerAt := some 0, copies := [(0, ⟨0, 0, 1, 0, 1, 0, 0, false, 0, none, 1, [], 1, 0, 0, 0⟩)] }, 0,
      by decide +kernel⟩,
   ⟨sending ({ msg opPut 8 1 with timerAt := some 0, copies := [(0, ⟨0, 0, 1, 0, 1, 0, 0, true, 0, none, 1, [], 1, 0, 0, 0⟩)] }), 0, 7, 0,
       { msg opPut 8 1 with timerAt := some 0, copies := [(0, ⟨0, 0, 1, 0, 1, 0, 0, true, 0, none, 1, [], 1, 0, 0, 0⟩)] }, ⟨0, 0, 1, 0, 1,
       0, 0, true, 0, none, 1, [], 1, 0, 0, 0⟩, by decide +kernel⟩,
   ⟨sending ({ msg opPut 8 1 with timerAt := some 0, copies := [(0, ⟨0, 0, 1, 0, 1, 0, 0, true, 0, none, 1, [], 1, 0, 0, 0⟩)] }), 10 ^ 12,
       7, 0, { msg opPut 8 1 with timerAt := some 0, copies := [(0, ⟨0, 0, 1, 0, 1, 0, 0, true, 0, none, 1, [], 1, 0, 0, 0⟩)] }, ⟨0, 0, 1,
       0, 1, 0, 0, true, 0, none, 1, [], 1, 0, 0, 0⟩, by decide +kernel⟩,
   ⟨{ mem with tp := { mem.tp with recs := [(recKey 130 9, { oldRec with firstAt := some (0, 0) })] } }, 10 ^ 9, 130, 9,
       { oldRec with firstAt := some (0, 0) }, 0, 0, by decide +kernel⟩,
   ⟨{ mem with tp := { mem.tp with recs := [(recKey 130 9, { oldRec with done := true })] } }, 10 ^ 9, 130, 9,
       { oldRec with done := true }, by decide +kernel⟩,
   ⟨{ mem with tp := { mem.tp with quarantine := [(7, 0)] } }, 10 ^ 9, 7, 0, by decide +kernel⟩,
   ⟨{ mem with tp := { mem.tp with flows := [(flowKey 1 130 0, ⟨4096, 0, 0⟩)] } }, 10 ^ 9, 1, 130, 0, ⟨4096, 0, 0⟩, by decide +kernel⟩,
   ⟨{ wr mem F.mtCfgRdvLimitMs 1 with mt := { mem.mt with rdv := [(3, rdvEnt)] } }, 10 ^ 12, 3, rdvEnt, 0, by decide +kernel⟩,
   ⟨{ mem with tp := { mem.tp with ecs := [(1, { ctx with closing := true })] } }, 10 ^ 12, 1, { ctx with closing := true },
       by decide +kernel⟩⟩

theorem witness_TranslationCommandsComplete :
    (∃ s : State, ∃ hp width : Nat, ∃ val : Word, Served s (.fn hp 0) ∧ 64 ≤ width ∧ wordLegal (fieldsAt 0x06000108) val = true
        ∧ (mcount s.xl.invals fun _ v => v.seq.isSome) < 16 ∧ (wordGet val 0 2 ≠ 1 ∨ (1 ≤ wordGet val 30 17 ∧ wordGet val 30 17 ≤ 65536)))
    ∧ (∃ s : State, ∃ who : Who, ∃ width : Nat, ∃ val : Word, Served s who ∧ 64 ≤ width ∧ wordLegal (fieldsAt 0x06000108) val = true
        ∧ ((∀ hp, who ≠ .fn hp 0) ∨ 16 ≤ (mcount s.xl.invals fun _ v => v.seq.isSome) ∨ (wordGet val 0 2 = 1
        ∧ (wordGet val 30 17 = 0 ∨ 65536 < wordGet val 30 17))))
    ∧ (∃ s : State, ∃ id : Nat, ∃ v : Inval, ∃ q : Nat, mget s.xl.invals id = some v ∧ v.seq = some q ∧ v.origin = none
        ∧ invalReady s id v = true)
    ∧ (∃ s : State, ∃ id : Nat, ∃ v : Inval, ∃ o : Origin, mget s.xl.invals id = some v ∧ v.seq = none ∧ v.origin = some o
        ∧ invalReady s id v = true)
    ∧ (∃ s : State, ∃ id : Nat, ∃ v : Inval, mget s.xl.invals id = some v ∧ invalReady s id v = false)
    ∧ (∃ s : State, ∃ hp d width : Nat, ∃ val : Word, Served s (.fn hp 0) ∧ 64 ≤ width ∧ d < 4096
        ∧ wordLegal (fieldsAt (F.xlDomValid.key d)) val = true ∧ (rdb s F.xlDomValid d = false ∨ rd s F.xlDomHp d = hp)
        ∧ (wordGet val 63 1 = 1 → wordGet val 62 1 = hp ∧ rdb s F.xlDomSweep d = false)
        ∧ (rdb s F.xlDomValid d = true → wordGet val 62 1 = rd s F.xlDomHp d ∧ wordGet val 54 8 = rd s F.xlDomFunc d
        ∧ wordGet val 12 40 = rd s F.xlDomRoot d))
    ∧ (∃ s : State, ∃ who : Who, ∃ d width : Nat, ∃ val : Word, Served s who ∧ 64 ≤ width ∧ d < 4096
        ∧ wordLegal (fieldsAt (F.xlDomValid.key d)) val = true ∧ ((∀ hp, who ≠ .fn hp 0) ∨ (∃ hp, who = .fn hp 0
        ∧ rdb s F.xlDomValid d = true ∧ rd s F.xlDomHp d ≠ hp) ∨ (∃ hp, who = .fn hp 0 ∧ wordGet val 63 1 = 1
        ∧ (wordGet val 62 1 ≠ hp ∨ rdb s F.xlDomSweep d = true)) ∨ (rdb s F.xlDomValid d = true
        ∧ (wordGet val 62 1 ≠ rd s F.xlDomHp d ∨ wordGet val 54 8 ≠ rd s F.xlDomFunc d ∨ wordGet val 12 40 ≠ rd s F.xlDomRoot d))))
    ∧ (∃ s : State, ∃ d : Nat, d ∈ s.xl.sweeps)
    ∧ (∃ s : State, ∃ now id : Nat, ∃ reads : List WalkRead, ∃ w : Walk, ∃ leaf : Nat, mget s.xl.walks id = some w ∧ w.running = true
        ∧ walk (atTime s now) w.dom reads = .leaf leaf)
    ∧ (∃ s : State, ∃ now id : Nat, ∃ reads : List WalkRead, ∃ w : Walk, ∃ kind level : Nat, mget s.xl.walks id = some w
        ∧ w.running = true ∧ walk (atTime s now) w.dom reads = .fault kind level)
    ∧ (∃ s : State, ∃ hp fn page k : Nat, ∃ w : Wq, ∃ c : EcCtx, fnSilent s hp fn = false ∧ fnEnabled s hp fn = true
        ∧ pageWq s hp fn page = some k ∧ mget s.hi.wqs k = some w ∧ ctxOf s w.ec = some c)
    ∧ (∃ width : Nat, width ≠ 64) :=
  ⟨⟨mem, 0, 64, 3, servedOf (by decide +kernel), by decide +kernel⟩,
   ⟨mem, .fn 0 0, 64, 1, servedOf (by decide +kernel), by decide +kernel, by decide +kernel, Or.inr (Or.inr (by decide +kernel))⟩,
   ⟨{ mem with xl := { mem.xl with invals := [(0, ⟨some 1, 0, 0, 0, [], [], none⟩)] } }, 0, ⟨some 1, 0, 0, 0, [], [], none⟩, 1,
       by decide +kernel⟩,
   ⟨{ mem with xl := { mem.xl with invals := [(0, ⟨none, 0, 0, 0, [], [], (some .fin)⟩)] } }, 0, ⟨none, 0, 0, 0, [], [], (some .fin)⟩,
       .fin, by decide +kernel⟩,
   ⟨{ mem with xl := { mem.xl with invals := [(0, ⟨some 1, 0, 0, 0, [0], [], none⟩)] }, mr := { mem.mr with accs := [(0, ⟨.write, none, 0, []⟩)] } }, 0, ⟨some 1, 0, 0, 0, [0], [], none⟩, by decide +kernel⟩,
   ⟨mem, 0, 2, 64, 2 ^ 63, servedOf (by decide +kernel), by decide +kernel⟩,
   ⟨mem, .fn 0 0, 1, 64, 2 ^ 63 + 2 ^ 62, servedOf (by decide +kernel), by decide +kernel, by decide +kernel, by decide +kernel,
       Or.inr (Or.inr (Or.inl ⟨0, by decide +kernel⟩))⟩,
   ⟨{ mem with xl := { mem.xl with sweeps := [1] } }, 1, by decide +kernel⟩,
   ⟨walking, 0, 0, [.word 1, .word 1, .word 1, .word 0x500001], ⟨1, 0x200, true, false, []⟩, 0x500001, by decide +kernel⟩,
   ⟨walking, 0, 0, [.word 0], ⟨1, 0x200, true, false, []⟩, 6, 3, by decide +kernel⟩,
   ⟨withWq wq, 0, 0, 0, 0, wq, ctx, by decide +kernel⟩,
   ⟨32, by decide +kernel⟩⟩

theorem witness_RegionCommandsComplete :
    (∃ s : State, ∃ id : Nat, ∃ a : Machine.Acc, mget s.mr.accs id = some a ∧ a.what = .write)
    ∧ (∃ s : State, ∃ id : Nat, ∃ a : Machine.Acc, ∃ p : Pkt, ∃ data : List Byte, mget s.mr.accs id = some a ∧ a.what = .getRead p
        ∧ accFits a data = true)
    ∧ (∃ s : State, ∃ id : Nat, ∃ a : Machine.Acc, ∃ p : Pkt, mget s.mr.accs id = some a ∧ a.what = .getRead p)
    ∧ (∃ s : State, ∃ id : Nat, ∃ a : Machine.Acc, ∃ p : Pkt, ∃ pa d page : Nat, ∃ l : List (Nat × Nat), ∃ data : List Byte,
        mget s.mr.accs id = some a ∧ a.what = .atomic p pa ∧ a.pages = (d, page) :: l ∧ accFits a data = true)
    ∧ (∃ s : State, ∃ id : Nat, ∃ a : Machine.Acc, ∃ p : Pkt, ∃ pa d page : Nat, ∃ l : List (Nat × Nat), mget s.mr.accs id = some a
        ∧ a.what = .atomic p pa ∧ a.pages = (d, page) :: l)
    ∧ (∃ s : State, ∃ who : Who, ∃ width : Nat, ∃ val : Word, Served s who ∧ 64 ≤ width ∧ wordLegal (fieldsAt 0x06800008) val = true
        ∧ isPf0 who = true ∧ wordGet val 32 2 = 1 ∧ (rd s F.mrCmdStatIssued + 65536 - rd s F.mrCmdStatDone) % 65536 < 64)
    ∧ (∃ s : State, ∃ who : Who, ∃ width : Nat, ∃ val : Word, Served s who ∧ 64 ≤ width ∧ wordLegal (fieldsAt 0x06800008) val = true
        ∧ isPf0 who = true ∧ wordGet val 32 2 = 0)
    ∧ (∃ s : State, ∃ who : Who, ∃ width : Nat, ∃ val : Word, Served s who ∧ 64 ≤ width ∧ wordLegal (fieldsAt 0x06800008) val = true
        ∧ (isPf0 who = false ∨ (wordGet val 32 2 ≠ 0 ∧ 64 ≤ (rd s F.mrCmdStatIssued + 65536 - rd s F.mrCmdStatDone) % 65536)))
    ∧ (∃ s : State, ∃ i : Nat, ∃ r : Revoke, mget s.mr.revokes i = some r ∧ r.reading = true)
    ∧ (∃ s : State, ∃ hp width id : Nat, ∃ f : FaultEnt, Served s (.fn hp 0) ∧ 64 ≤ width ∧ id < 4096 ∧ mget s.mr.faults id = some f
        ∧ rdb s F.xlDomValid f.dom = true ∧ rd s F.xlDomHp f.dom = hp)
    ∧ (∃ s : State, ∃ hp width id : Nat, Served s (.fn hp 0) ∧ 64 ≤ width ∧ id < 4096 ∧ (∀ f,
        mget s.mr.faults id = some f → rdb s F.xlDomValid f.dom = false ∨ rd s F.xlDomHp f.dom ≠ hp))
    ∧ (∃ s : State, ∃ hp width id : Nat, ∃ f : FaultEnt, Served s (.fn hp 0) ∧ 64 ≤ width ∧ id < 4096 ∧ mget s.mr.faults id = some f
        ∧ f.failed = false ∧ rdb s F.xlDomValid f.dom = true ∧ rd s F.xlDomHp f.dom = hp)
    ∧ (∃ s : State, ∃ hp width id : Nat, Served s (.fn hp 0) ∧ 64 ≤ width ∧ id < 4096 ∧ (∀ f,
        mget s.mr.faults id = some f → rdb s F.xlDomValid f.dom = false ∨ rd s F.xlDomHp f.dom ≠ hp))
    ∧ (∃ s : State, ∃ now id : Nat, ∃ f : FaultEnt, mget s.mr.faults id = some f ∧ f.failed = false
        ∧ f.since + ms (rd s F.mrPageCfgResolveLimitMs) ≤ (atTime s now).timeNs)
    ∧ (∃ s : State, ∃ now id : Nat, ∃ f : FaultEnt, mget s.mr.faults id = some f ∧ f.failed = true
        ∧ f.since + ms (rd s F.mrPageCfgFailHoldMs) ≤ (atTime s now).timeNs) :=
  ⟨⟨{ mem with mr := { mem.mr with accs := [(0, ⟨.write, none, 0, []⟩)] } }, 0, ⟨.write, none, 0, []⟩, by decide +kernel⟩,
   ⟨{ mem with mr := { mem.mr with accs := [(0, ⟨.getRead (pkt opGetReq 0x20000 0 9 1 (toBytes 8 (8 + 2 ^ 31) ++ zeros 8)), none, 0, []⟩)] } }, 0, ⟨.getRead (pkt opGetReq 0x20000 0 9 1 (toBytes 8 (8 + 2 ^ 31) ++ zeros 8)), none, 0, []⟩, (pkt opGetReq 0x20000 0 9 1 (toBytes 8 (8 + 2 ^ 31) ++ zeros 8)), zeros 8, by decide +kernel⟩,
   ⟨{ mem with mr := { mem.mr with accs := [(0, ⟨.getRead (pkt opGetReq 0x20000 0 9 1 (toBytes 8 (8 + 2 ^ 31) ++ zeros 8)), none, 0, []⟩)] } }, 0, ⟨.getRead (pkt opGetReq 0x20000 0 9 1 (toBytes 8 (8 + 2 ^ 31) ++ zeros 8)), none, 0, []⟩, (pkt opGetReq 0x20000 0 9 1 (toBytes 8 (8 + 2 ^ 31) ++ zeros 8)), by decide +kernel⟩,
   ⟨{ mem with mr := { mem.mr with accs := [(0, ⟨.atomic (pkt opAtomic 0x20000 0 9 1 (toBytes 8 32 ++ zeros 8)) 0x5000, some (0, 0), 0, [(1, 0x100)]⟩)] } }, 0, ⟨.atomic (pkt opAtomic 0x20000 0 9 1 (toBytes 8 32 ++ zeros 8)) 0x5000, some (0, 0), 0, [(1, 0x100)]⟩, (pkt opAtomic 0x20000 0 9 1 (toBytes 8 32 ++ zeros 8)), 0x5000, 1, 0x100, [], zeros 8, by decide +kernel⟩,
   ⟨{ mem with mr := { mem.mr with accs := [(0, ⟨.atomic (pkt opAtomic 0x20000 0 9 1 (toBytes 8 32 ++ zeros 8)) 0x5000, some (0, 0), 0, [(1, 0x100)]⟩)] } }, 0, ⟨.atomic (pkt opAtomic 0x20000 0 9 1 (toBytes 8 32 ++ zeros 8)) 0x5000, some (0, 0), 0, [(1, 0x100)]⟩, (pkt opAtomic 0x20000 0 9 1 (toBytes 8 32 ++ zeros 8)), 0x5000, 1, 0x100, [], by decide +kernel⟩,
   ⟨mem, .fn 0 0, 64, 2 ^ 32, servedOf (by decide +kernel), by decide +kernel⟩,
   ⟨mem, .fn 0 0, 64, 0, servedOf (by decide +kernel), by decide +kernel⟩,
   ⟨mem, .fn 0 1, 64, 2 ^ 32, servedOf (by decide +kernel), by decide +kernel⟩,
   ⟨{ mem with mr := { mem.mr with revokes := [(0, ⟨[], [], true⟩)] } }, 0, ⟨[], [], true⟩, by decide +kernel⟩,
   ⟨{ mem with mr := { mem.mr with faults := [(0, ⟨1, 0x200, 1, 0, false, 0⟩)] } }, 0, 64, 0, ⟨1, 0x200, 1, 0, false, 0⟩,
       servedOf (by decide +kernel), by decide +kernel⟩,
   ⟨mem, 0, 64, 0, servedOf (by decide +kernel), by decide +kernel, by decide +kernel, noneOf (by decide +kernel)⟩,
   ⟨{ mem with mr := { mem.mr with faults := [(0, ⟨1, 0x200, 1, 0, false, 0⟩)] } }, 0, 64, 0, ⟨1, 0x200, 1, 0, false, 0⟩,
       servedOf (by decide +kernel), by decide +kernel⟩,
   ⟨mem, 0, 64, 0, servedOf (by decide +kernel), by decide +kernel, by decide +kernel, noneOf (by decide +kernel)⟩,
   ⟨{ mem with mr := { mem.mr with faults := [(0, ⟨1, 0x200, 1, 0, false, 0⟩)] } }, 10 ^ 13, 0, ⟨1, 0x200, 1, 0, false, 0⟩,
       by decide +kernel⟩,
   ⟨{ mem with mr := { mem.mr with faults := [(0, ⟨1, 0x200, 1, 0, true, 0⟩)] } }, 10 ^ 13, 0, ⟨1, 0x200, 1, 0, true, 0⟩,
       by decide +kernel⟩⟩

theorem witness_WindowAccessesComplete :
    (∃ s : State, ∃ now hp addr off : Nat, ∃ t : State, t = wakePort (atTime s now) hp ∧ cxlArrives t hp = true
        ∧ hdmDecode t hp addr = some off)
    ∧ (∃ s : State, ∃ now hp addr : Nat, ∃ t : State, t = wakePort (atTime s now) hp ∧ cxlArrives t hp = true
        ∧ hdmDecode t hp addr = none)
    ∧ (∃ s : State, ∃ now hp : Nat, cxlArrives (wakePort (atTime s now) hp) hp = false)
    ∧ (∃ s : State, ∃ now hp addr off : Nat, ∃ data : List Byte, ∃ t : State, t = wakePort (atTime s now) hp ∧ cxlArrives t hp = true
        ∧ hdmDecode t hp addr = some off ∧ data.length = 64)
    ∧ (∃ s : State, ∃ now hp addr : Nat, ∃ data : List Byte, ∃ t : State, t = wakePort (atTime s now) hp ∧ cxlArrives t hp = true
        ∧ hdmDecode t hp addr = none ∧ data.length = 64)
    ∧ (∃ s : State, ∃ now hp addr off : Nat, ∃ data : List Byte, ∃ en : List Bool, ∃ t : State, t = wakePort (atTime s now) hp
        ∧ cxlArrives t hp = true ∧ hdmDecode t hp addr = some off ∧ data.length = 64 ∧ en.length = 64)
    ∧ (∃ s : State, ∃ now hp addr : Nat, ∃ data : List Byte, ∃ en : List Bool, ∃ t : State, t = wakePort (atTime s now) hp
        ∧ cxlArrives t hp = true ∧ hdmDecode t hp addr = none ∧ data.length = 64 ∧ en.length = 64)
    ∧ (∃ s : State, ∃ hp i base size skip : Nat, ∃ t : State, hp < 2 ∧ i < 8 ∧ fnSilent s hp 0 = false ∧ base % 2 ^ 28 = 0
        ∧ size % 2 ^ 28 = 0 ∧ t = setGw s (fun g => { g with hdm := mset g.hdm (hp * 8 + i) ⟨base, size, skip, true, false⟩ })
        ∧ hdmDpa t hp i + size ≤ 2 ^ 47)
    ∧ (∃ s : State, ∃ hp i base size skip ways : Nat, ∃ t : State, hp < 2 ∧ i < 8 ∧ fnSilent s hp 0 = false
        ∧ t = setGw s (fun g => { g with hdm := mset g.hdm (hp * 8 + i) ⟨base, size, skip, true, false⟩ })
        ∧ (ways ≠ 1 ∨ base % 2 ^ 28 ≠ 0 ∨ size % 2 ^ 28 ≠ 0 ∨ 2 ^ 47 < hdmDpa t hp i + size)) :=
  ⟨⟨window, 0, 0, 0x10000000, 0, _, rfl, by decide +kernel⟩,
   ⟨window, 0, 0, 0, _, rfl, by decide +kernel⟩,
   ⟨run, 0, 2, by decide +kernel⟩,
   ⟨window, 0, 0, 0x10000000, 0, zeros 64, _, rfl, by decide +kernel⟩,
   ⟨window, 0, 0, 0, zeros 64, _, rfl, by decide +kernel⟩,
   ⟨window, 0, 0, 0x10000000, 0, zeros 64, List.replicate 64 true, _, rfl, by decide +kernel⟩,
   ⟨window, 0, 0, 0, zeros 64, List.replicate 64 true, _, rfl, by decide +kernel⟩,
   ⟨run, 0, 0, 0x10000000, 0x10000000, 0, _, by decide +kernel, by decide +kernel, by decide +kernel, by decide +kernel,
       by decide +kernel, rfl, by decide +kernel⟩,
   ⟨run, 0, 0, 0x10000000, 0x10000000, 0, 2, _, by decide +kernel, by decide +kernel, by decide +kernel, rfl, by decide +kernel⟩⟩

theorem witness_WindowMessagesAndFlushesComplete :
    (∃ s : State, ∃ id line : Nat, ∃ no : Bool, ∃ st : Nat, ∃ data : List Byte, mget s.gw.msgs id = some ⟨.fetch line no, some (st,
        data)⟩)
    ∧ (∃ s : State, ∃ id a st : Nat, ∃ data : List Byte, mget s.gw.msgs id = some ⟨.sector a, some (st, data)⟩)
    ∧ (∃ s : State, ∃ id line first n st : Nat, ∃ data : List Byte, mget s.gw.msgs id = some ⟨.writeBack line first n, some (st, data)⟩)
    ∧ (∃ s : State, ∃ id a st : Nat, ∃ data : List Byte, mget s.gw.msgs id = some ⟨.put a, some (st, data)⟩)
    ∧ (∃ s : State, ∃ now line : Nat, ∃ l : Line, mget s.gw.lines line = some l ∧ l.kept = true
        ∧ l.keptAt + ms (rd s F.gwCfgWbRetryMs) ≤ (atTime s now).timeNs)
    ∧ (∃ s : State, ∃ now id : Nat, ∃ a : GwAcc, mget s.gw.accs id = some a ∧ a.op = 0
        ∧ a.since + us (rd s F.gwCfgLimitUs) ≤ (atTime s now).timeNs)
    ∧ (∃ s : State, ∃ now id : Nat, ∃ a : GwAcc, mget s.gw.accs id = some a ∧ a.op ≠ 0
        ∧ a.since + us (rd s F.gwCfgLimitUs) ≤ (atTime s now).timeNs
        ∧ (rd s F.gwSpanMode (spanOf a.off) = 3 ∨ a.msgs ≠ [] ∨ a.stalled = true))
    ∧ (∃ s : State, ∃ id : Nat, ∃ a : GwAcc, mget s.gw.accs id = some a ∧ a.op ≠ 0 ∧ rd s F.gwSpanMode (spanOf a.off) ≠ 3 ∧ a.msgs = []
        ∧ a.stalled = false)
    ∧ (∃ s : State, ∃ who : Who, ∃ width scope lines : Nat, Served s who ∧ 64 ≤ width ∧ isPf0 who = true ∧ 1 ≤ scope ∧ scope ≤ 3
        ∧ (scope = 1 → 1 ≤ lines ∧ lines ≤ 1048576) ∧ lines < 2 ^ 21 ∧ flushesPending s < 16)
    ∧ (∃ s : State, ∃ who : Who, ∃ width scope lines : Nat, Served s who ∧ 64 ≤ width ∧ scope < 4 ∧ lines < 2 ^ 21
        ∧ (isPf0 who = false ∨ scope = 0 ∨ (scope = 1 ∧ (lines = 0 ∨ 1048576 < lines)) ∨ 16 ≤ flushesPending s))
    ∧ (∃ s : State, ∃ who : Who, ∃ width scope lines : Nat, Served s who ∧ 64 ≤ width ∧ isPf0 who = true ∧ 1 ≤ scope ∧ scope ≤ 3
        ∧ (scope = 1 → 1 ≤ lines ∧ lines ≤ 1048576) ∧ lines < 2 ^ 21 ∧ flushesPending s < 16)
    ∧ (∃ s : State, ∃ who : Who, ∃ width scope lines : Nat, Served s who ∧ 64 ≤ width ∧ scope < 4 ∧ lines < 2 ^ 21
        ∧ (isPf0 who = false ∨ scope = 0 ∨ (scope = 1 ∧ (lines = 0 ∨ 1048576 < lines)) ∨ 16 ≤ flushesPending s))
    ∧ (∃ s : State, ∃ who : Who, ∃ width scope lines : Nat, Served s who ∧ 64 ≤ width ∧ isPf0 who = true ∧ 1 ≤ scope ∧ scope ≤ 3
        ∧ (scope = 1 → 1 ≤ lines ∧ lines ≤ 1048576) ∧ lines < 2 ^ 21 ∧ flushesPending s < 16 ∧ (rd s F.gwSecMode ≠ 1 ∨ who = .mgmt))
    ∧ (∃ s : State, ∃ who : Who, ∃ width scope lines : Nat, Served s who ∧ 64 ≤ width ∧ scope < 4 ∧ lines < 2 ^ 21
        ∧ (isPf0 who = false ∨ scope = 0 ∨ (scope = 1 ∧ (lines = 0 ∨ 1048576 < lines)) ∨ 16 ≤ flushesPending s ∨ (rd s F.gwSecMode = 1
        ∧ who ≠ .mgmt)))
    ∧ (∃ s : State, ∃ f : GwFlush, ∃ q : Nat, (∀ g, g ∈ s.gw.flushes → flushReady s g = true → g.seq ≠ none)
        ∧ s.gw.flushes.find? (fun g => g.seq.isSome) = some f ∧ f.seq = some q ∧ flushReady s f = true)
    ∧ (∃ s : State, ∃ f : GwFlush, (∀ g, g ∈ s.gw.flushes → flushReady s g = true → g.seq ≠ none)
        ∧ s.gw.flushes.find? (fun g => g.seq.isSome) = some f ∧ flushReady s f = false) :=
  ⟨⟨{ window with gw := { window.gw with msgs := [(0, ⟨.fetch 0 false, some (0, zeros 512)⟩)] } }, 0, 0, false, 0, zeros 512,
      by decide +kernel⟩,
   ⟨{ window with gw := { window.gw with msgs := [(0, ⟨.sector 0, some (0, [])⟩)] } }, 0, 0, 0, [], by decide +kernel⟩,
   ⟨{ window with gw := { window.gw with msgs := [(0, ⟨.writeBack 0 0 1, some (0, [])⟩)] } }, 0, 0, 0, 1, 0, [], by decide +kernel⟩,
   ⟨{ window with gw := { window.gw with msgs := [(0, ⟨.put 0, some (0, [])⟩)] } }, 0, 0, 0, [], by decide +kernel⟩,
   ⟨{ window with gw := { window.gw with lines := [(0, ⟨[], 0, true, 0, false⟩)] } }, 10 ^ 12, 0, ⟨[], 0, true, 0, false⟩,
       by decide +kernel⟩,
   ⟨{ window with gw := { window.gw with accs := [(0, ⟨0, 0x10000000, 0, 0, zeros 64, [], false, 0, none, [], false, true, false, true⟩)] } }, 10 ^ 12, 0, ⟨0, 0x10000000, 0, 0, zeros 64, [], false, 0, none, [], false, true, false, true⟩, by decide +kernel⟩,
   ⟨{ window with gw := { window.gw with accs := [(0, ⟨0, 0x10000000, 0, 1, zeros 64, [], false, 0, none, [], false, true, false, true⟩)] } }, 10 ^ 12, 0, ⟨0, 0x10000000, 0, 1, zeros 64, [], false, 0, none, [], false, true, false, true⟩, by decide +kernel⟩,
   ⟨{ window with gw := { window.gw with accs := [(0, ⟨0, 0x10000000, 0, 1, zeros 64, [], false, 0, none, [], false, false, false, true⟩)] } }, 0, ⟨0, 0x10000000, 0, 1, zeros 64, [], false, 0, none, [], false, false, false, true⟩, by decide +kernel⟩,
   ⟨window, .fn 0 0, 64, 1, 1, servedOf (by decide +kernel), by decide +kernel⟩,
   ⟨window, .fn 0 0, 64, 1, 0, servedOf (by decide +kernel), by decide +kernel⟩,
   ⟨window, .fn 0 0, 64, 2, 0, servedOf (by decide +kernel), by decide +kernel⟩,
   ⟨window, .fn 0 0, 64, 1, 0, servedOf (by decide +kernel), by decide +kernel⟩,
   ⟨window, .fn 0 0, 64, 3, 0, servedOf (by decide +kernel), by decide +kernel⟩,
   ⟨window, .fn 0 0, 64, 1, 1048577, servedOf (by decide +kernel), by decide +kernel⟩,
   ⟨{ window with gw := { window.gw with flushes := [⟨some 1, 1, 0, 0, [], [], false⟩] } }, ⟨some 1, 1, 0, 0, [], [], false⟩, 1,
       by decide +kernel⟩,
   ⟨{ window with gw := { window.gw with flushes := [⟨some 1, 1, 0, 0, [(0, 0)], [], false⟩] } }, ⟨some 1, 1, 0, 0, [(0, 0)], [], false⟩,
       by decide +kernel⟩⟩

theorem witness_DoorbellAndFetchCommandsComplete :
    (∃ s : State, ∃ now hp fn page : Nat, ∃ val : Word, ∃ t : State, ∃ k : Nat, ∃ w : Wq, t = wakePort (atTime s now) hp
        ∧ pageWq t hp fn page = some k ∧ mget t.hi.wqs k = some w ∧ (portOf t hp).d3hot.contains fn = false ∧ fnSilent t hp fn = false
        ∧ fnEnabled t hp fn = true ∧ baseOf t = 2 ∧ enteringTest t = false ∧ serving t hp = true ∧ w.state ≠ .error
        ∧ w.destroying = false ∧ wordGet val 0 17 < 2 ^ (w.log2 + 1) ∧ ringCount w.log2 (wordGet val 0 17) w.ci ≤ 2 ^ w.log2
        ∧ ringCount w.log2 (wordGet val 0 17) w.pi ≠ 0 ∧ ringCount w.log2 w.pi w.ci ≤ ringCount w.log2 (wordGet val 0 17) w.ci)
    ∧ (∃ s : State, ∃ now hp fn page : Nat, ∃ val : Word, ∃ t : State, ∃ k : Nat, ∃ w : Wq, t = wakePort (atTime s now) hp
        ∧ pageWq t hp fn page = some k ∧ mget t.hi.wqs k = some w ∧ (portOf t hp).d3hot.contains fn = false ∧ fnSilent t hp fn = false
        ∧ fnEnabled t hp fn = true ∧ baseOf t = 2 ∧ enteringTest t = false ∧ serving t hp = true ∧ w.state ≠ .error
        ∧ w.destroying = false ∧ (2 ^ (w.log2 + 1) ≤ wordGet val 0 17 ∨ 2 ^ w.log2 < ringCount w.log2 (wordGet val 0 17) w.ci))
    ∧ (∃ s : State, ∃ now hp fn page : Nat, ∃ val : Word, ∃ t : State, ∃ k : Nat, ∃ w : Wq, t = wakePort (atTime s now) hp
        ∧ pageWq t hp fn page = some k ∧ mget t.hi.wqs k = some w ∧ (portOf t hp).d3hot.contains fn = false ∧ fnSilent t hp fn = false
        ∧ fnEnabled t hp fn = true ∧ baseOf t = 2 ∧ enteringTest t = false ∧ serving t hp = true ∧ w.state ≠ .error
        ∧ w.destroying = false ∧ wordGet val 0 17 < 2 ^ (w.log2 + 1) ∧ ringCount w.log2 (wordGet val 0 17) w.ci ≤ 2 ^ w.log2
        ∧ (ringCount w.log2 (wordGet val 0 17) w.pi = 0 ∨ ringCount w.log2 (wordGet val 0 17) w.ci < ringCount w.log2 w.pi w.ci))
    ∧ (∃ s : State, ∃ now hp fn page : Nat, ∃ t : State, ∃ k : Nat, ∃ w : Wq, t = wakePort (atTime s now) hp
        ∧ pageWq t hp fn page = some k ∧ mget t.hi.wqs k = some w ∧ ((portOf t hp).d3hot.contains fn = true ∨ fnSilent t hp fn = false)
        ∧ fnEnabled t hp fn = true
        ∧ (w.state = .error ∨ w.destroying = true ∨ (portOf t hp).d3hot.contains fn = true ∨ baseOf t ≠ 2 ∨ enteringTest t = true ∨ serving t hp = false))
    ∧ (∃ s : State, ∃ now hp fn page : Nat, ∃ t : State, t = wakePort (atTime s now) hp ∧ pageWq t hp fn page = none
        ∧ ((portOf t hp).d3hot.contains fn = true ∨ fnSilent t hp fn = false) ∧ fnEnabled t hp fn = true)
    ∧ (∃ width : Nat, width ≠ 64)
    ∧ (∃ s : State, ∃ hp fn page off : Nat, ∃ bs : List Byte, ∃ t : State, ∃ k : Nat, t = wakePort s hp ∧ pageWq t hp fn page = some k
        ∧ mhas t.hi.wqs k = true ∧ fnSilent t hp fn = false ∧ fnEnabled t hp fn = true ∧ 0x100 ≤ off ∧ off + bs.length ≤ 0x200
        ∧ off % 8 = 0 ∧ bs.length % 8 = 0 ∧ bs ≠ [] ∧ bs.length ≤ 64)
    ∧ (∃ s : State, ∃ hp wq : Nat, ∃ ds : List (List Word), ∃ w : Wq, mget s.hi.wqs (qKey hp wq) = some w ∧ w.reading ≠ []
        ∧ ds.length = w.reading.length ∧ (∀ d ∈ ds, d.length = 8))
    ∧ (∃ s : State, ∃ hp wq : Nat, ∃ w : Wq, mget s.hi.wqs (qKey hp wq) = some w ∧ w.reading ≠ []) :=
  ⟨⟨withWq wq, 0, 0, 0, 0, 1, _, 0, wq, rfl, by decide +kernel⟩,
   ⟨withWq wq, 0, 0, 0, 0, 65, _, 0, wq, rfl, by decide +kernel⟩,
   ⟨withWq wq, 0, 0, 0, 0, 0, _, 0, wq, rfl, by decide +kernel⟩,
   ⟨withWq ({ wq with state := .error }), 0, 0, 0, 0, _, 0, { wq with state := .error }, rfl, by decide +kernel⟩,
   ⟨run, 0, 0, 0, 16384, _, rfl, by decide +kernel⟩,
   ⟨32, by decide +kernel⟩,
   ⟨withWq wq, 0, 0, 0, 0x100, zeros 64, _, 0, rfl, by decide +kernel⟩,
   ⟨withWq { wq with reading := [0] }, 0, 0, [List.replicate 8 0], { wq with reading := [0] }, by decide +kernel⟩,
   ⟨withWq { wq with reading := [0] }, 0, 0, { wq with reading := [0] }, by decide +kernel⟩⟩

theorem witness_MessageDescriptorsComplete :
    (∃ s : State, ∃ now hp wq : Nat, ∃ w : Wq, ∃ d : List Word, ∃ t : State, ∃ k : Nat, t = atTime s now ∧ k = qKey hp wq
        ∧ Starts s now hp wq w d 0 ∧ wordsOk d wCommon 0 0 0 0 0 0 = true ∧ lenBad d = false)
    ∧ (∃ s : State, ∃ now hp wq : Nat, ∃ w : Wq, ∃ d : List Word, ∃ t : State, ∃ k : Nat, t = atTime s now ∧ k = qKey hp wq
        ∧ Starts s now hp wq w d 0 ∧ (wordsOk d wCommon 0 0 0 0 0 0 = false ∨ lenBad d = true))
    ∧ (∃ s : State, ∃ now hp wq : Nat, ∃ w : Wq, ∃ d : List Word, ∃ t : State, ∃ k op : Nat, t = atTime s now ∧ k = qKey hp wq
        ∧ Starts s now hp wq w d op ∧ opKnown op = false ∧ op ≠ 0)
    ∧ (∃ s : State, ∃ now hp wq : Nat, ∃ w : Wq, ∃ d : List Word, ∃ t : State, ∃ k : Nat, t = atTime s now ∧ k = qKey hp wq
        ∧ Starts s now hp wq w d 1 ∧ putBad d = false)
    ∧ (∃ s : State, ∃ now hp wq : Nat, ∃ w : Wq, ∃ d : List Word, ∃ t : State, ∃ k : Nat, t = atTime s now ∧ k = qKey hp wq
        ∧ Starts s now hp wq w d 1 ∧ putBad d = true)
    ∧ (∃ s : State, ∃ now hp wq : Nat, ∃ w : Wq, ∃ d : List Word, ∃ t : State, ∃ k : Nat, t = atTime s now ∧ k = qKey hp wq
        ∧ Starts s now hp wq w d 2 ∧ (wordsOk d wCommon wDest wKey wOff allBits 0 0 = false ∨ lenBad d = true ∨ dLen d = 0))
    ∧ (∃ s : State, ∃ now hp wq : Nat, ∃ w : Wq, ∃ d : List Word, ∃ t : State, ∃ k : Nat, t = atTime s now ∧ k = qKey hp wq
        ∧ Starts s now hp wq w d 3 ∧ sendBad t d = true)
    ∧ (∃ s : State, ∃ now hp wq : Nat, ∃ w : Wq, ∃ d : List Word, ∃ t : State, ∃ k kind : Nat, t = atTime s now ∧ k = qKey hp wq
        ∧ Starts s now hp wq w d 8 ∧ atomicBad d = some kind)
    ∧ (∃ s : State, ∃ now hp wq : Nat, ∃ w : Wq, ∃ d : List Word, ∃ t : State, ∃ k kind : Nat, t = atTime s now ∧ k = qKey hp wq
        ∧ Starts s now hp wq w d 9 ∧ lockBad d = some kind)
    ∧ (∃ s : State, ∃ now hp wq : Nat, ∃ w : Wq, ∃ d : List Word, ∃ t : State, ∃ k : Nat, t = atTime s now ∧ k = qKey hp wq
        ∧ Starts s now hp wq w d 2 ∧ wordsOk d wCommon wDest wKey wOff allBits 0 0 = true ∧ lenBad d = false ∧ dLen d ≠ 0)
    ∧ (∃ s : State, ∃ now hp wq : Nat, ∃ w : Wq, ∃ d : List Word, ∃ t : State, ∃ k : Nat, t = atTime s now ∧ k = qKey hp wq
        ∧ Starts s now hp wq w d 3 ∧ sendBad t d = false ∧ dLen d ≤ rd t F.mtCfgEagerMax)
    ∧ (∃ s : State, ∃ now hp wq : Nat, ∃ w : Wq, ∃ d : List Word, ∃ t : State, ∃ k : Nat, t = atTime s now ∧ k = qKey hp wq
        ∧ Starts s now hp wq w d 3 ∧ sendBad t d = false ∧ rd t F.mtCfgEagerMax < dLen d)
    ∧ (∃ s : State, ∃ now hp wq : Nat, ∃ w : Wq, ∃ d : List Word, ∃ t : State, ∃ k : Nat, t = atTime s now ∧ k = qKey hp wq
        ∧ Starts s now hp wq w d 8 ∧ atomicBad d = none)
    ∧ (∃ s : State, ∃ now hp wq : Nat, ∃ w : Wq, ∃ d : List Word, ∃ t : State, ∃ k : Nat, ∃ c : EcCtx, ∃ v : State, t = atTime s now
        ∧ k = qKey hp wq ∧ Starts s now hp wq w d 9 ∧ lockBad d = none ∧ ctxOf t w.ec = some c
        ∧ v = pmSample t 0 4 (descId k w.next) [w.ec, 9, dword d 4, selfId t, dDev d, dTc d, dLen d]
        ∧ (abandoning v d (reqId c.hp c.fn (bits (dSub d) 7 5)) = false ∨ 1 < dSub d % 8))
    ∧ (∃ s : State, ∃ now hp wq : Nat, ∃ w : Wq, ∃ d : List Word, ∃ t : State, ∃ k : Nat, ∃ c : EcCtx, ∃ v : State, t = atTime s now
        ∧ k = qKey hp wq ∧ Starts s now hp wq w d 9 ∧ lockBad d = none ∧ ctxOf t w.ec = some c
        ∧ v = pmSample t 0 4 (descId k w.next) [w.ec, 9, dword d 4, selfId t, dDev d, dTc d, dLen d]
        ∧ abandoning v d (reqId c.hp c.fn (bits (dSub d) 7 5)) = true ∧ dSub d % 8 ≤ 1) :=
  ⟨⟨ready (desc 0 0 0 0 0 0 0 0 0), 0, 0, 0, wqWith (desc 0 0 0 0 0 0 0 0 0), (desc 0 0 0 0 0 0 0 0 0), _, _, rfl, rfl,
      ⟨by decide +kernel, by decide +kernel, by decide +kernel⟩, by decide +kernel⟩,
   ⟨ready (desc 0 0 8 0 0 0 0 0 1), 0, 0, 0, wqWith (desc 0 0 8 0 0 0 0 0 1), (desc 0 0 8 0 0 0 0 0 1), _, _, rfl, rfl,
       ⟨by decide +kernel, by decide +kernel, by decide +kernel⟩, by decide +kernel⟩,
   ⟨ready (desc 0x1F 0 0 0 0 0 0 0 0), 0, 0, 0, wqWith (desc 0x1F 0 0 0 0 0 0 0 0), (desc 0x1F 0 0 0 0 0 0 0 0), _, _, 0x1F, rfl, rfl,
       ⟨by decide +kernel, by decide +kernel, by decide +kernel⟩, by decide +kernel⟩,
   ⟨ready (desc 1 0 8 262210 0x20000 0 0x100000 0 0), 0, 0, 0, wqWith (desc 1 0 8 262210 0x20000 0 0x100000 0 0),
       (desc 1 0 8 262210 0x20000 0 0x100000 0 0), _, _, rfl, rfl, ⟨by decide +kernel, by decide +kernel, by decide +kernel⟩,
       by decide +kernel⟩,
   ⟨ready (desc 1 0 8 262210 131072 0 1048576 1 0), 0, 0, 0, wqWith (desc 1 0 8 262210 131072 0 1048576 1 0),
       (desc 1 0 8 262210 131072 0 1048576 1 0), _, _, rfl, rfl, ⟨by decide +kernel, by decide +kernel, by decide +kernel⟩,
       by decide +kernel⟩,
   ⟨ready (desc 2 0 0 262210 131072 0 1048576 0 0), 0, 0, 0, wqWith (desc 2 0 0 262210 131072 0 1048576 0 0),
       (desc 2 0 0 262210 131072 0 1048576 0 0), _, _, rfl, rfl, ⟨by decide +kernel, by decide +kernel, by decide +kernel⟩,
       by decide +kernel⟩,
   ⟨ready (desc 3 0 8 262210 (2 ^ 16) 0 0 0 0), 0, 0, 0, wqWith (desc 3 0 8 262210 (2 ^ 16) 0 0 0 0),
       (desc 3 0 8 262210 (2 ^ 16) 0 0 0 0), _, _, rfl, rfl, ⟨by decide +kernel, by decide +kernel, by decide +kernel⟩,
       by decide +kernel⟩,
   ⟨ready (desc 8 13 0 262210 131072 0 1048576 0 0), 0, 0, 0, wqWith (desc 8 13 0 262210 131072 0 1048576 0 0),
       (desc 8 13 0 262210 131072 0 1048576 0 0), _, _, 21, rfl, rfl, ⟨by decide +kernel, by decide +kernel, by decide +kernel⟩,
       by decide +kernel⟩,
   ⟨ready (desc 9 3 0 262210 131072 0 1048576 0 0), 0, 0, 0, wqWith (desc 9 3 0 262210 131072 0 1048576 0 0),
       (desc 9 3 0 262210 131072 0 1048576 0 0), _, _, 21, rfl, rfl, ⟨by decide +kernel, by decide +kernel, by decide +kernel⟩,
       by decide +kernel⟩,
   ⟨ready (desc 2 0 8 262210 0x20000 0 0x100000 0 0), 0, 0, 0, wqWith (desc 2 0 8 262210 0x20000 0 0x100000 0 0),
       (desc 2 0 8 262210 0x20000 0 0x100000 0 0), _, _, rfl, rfl, ⟨by decide +kernel, by decide +kernel, by decide +kernel⟩,
       by decide +kernel⟩,
   ⟨ready (desc 3 0 8 262210 0 0 0x100000 0 0), 0, 0, 0, wqWith (desc 3 0 8 262210 0 0 0x100000 0 0),
       (desc 3 0 8 262210 0 0 0x100000 0 0), _, _, rfl, rfl, ⟨by decide +kernel, by decide +kernel, by decide +kernel⟩,
       by decide +kernel⟩,
   ⟨ready (desc 3 0 0x10000 262210 0 0 0x100000 0 0), 0, 0, 0, wqWith (desc 3 0 0x10000 262210 0 0 0x100000 0 0),
       (desc 3 0 0x10000 262210 0 0 0x100000 0 0), _, _, rfl, rfl, ⟨by decide +kernel, by decide +kernel, by decide +kernel⟩,
       by decide +kernel⟩,
   ⟨ready (desc 8 0x20 0 262210 0x20000 0 0x100000 5 0), 0, 0, 0, wqWith (desc 8 0x20 0 262210 0x20000 0 0x100000 5 0),
       (desc 8 0x20 0 262210 0x20000 0 0x100000 5 0), _, _, rfl, rfl, ⟨by decide +kernel, by decide +kernel, by decide +kernel⟩,
       by decide +kernel⟩,
   ⟨ready (desc 9 0 0 262210 131072 0 1048576 0 0), 0, 0, 0, wqWith (desc 9 0 0 262210 131072 0 1048576 0 0),
       (desc 9 0 0 262210 131072 0 1048576 0 0), _, _, ctx, _, rfl, rfl, ⟨by decide +kernel, by decide +kernel, by decide +kernel⟩,
       by decide +kernel, by decide +kernel, rfl, by decide +kernel⟩,
   ⟨{ ready (desc 9 0 0 262210 131072 0 1048576 0 0) with at' := { mem.at' with holds := [(0, { oldHold with dev := 66, key := 0x20000 })] } }, 0, 0, 0, wqWith (desc 9 0 0 262210 131072 0 1048576 0 0), (desc 9 0 0 262210 131072 0 1048576 0 0), _, _, ctx, _, rfl, rfl, ⟨by decide +kernel, by decide +kernel, by decide +kernel⟩, by decide +kernel, by decide +kernel, rfl, by decide +kernel⟩⟩

theorem witness_MatchingDescriptorsComplete :
    (∃ s : State, ∃ now hp wq : Nat, ∃ w : Wq, ∃ d : List Word, ∃ t : State, ∃ k id : Nat, ∃ u : Unexp, t = atTime s now ∧ k = qKey hp wq
        ∧ Starts s now hp wq w d 4 ∧ wordsOk d wCommon (mask 38 0) (mask 15 0) allBits allBits allBits 0 = true ∧ lenBad d = false
        ∧ findUnexp t w.ec (dword d 3) (dword d 4) (dword d 6) (bitAt (dword d 2) 38) (dDev d) (dEc d) = some (id, u))
    ∧ (∃ s : State, ∃ now hp wq : Nat, ∃ w : Wq, ∃ d : List Word, ∃ t : State, ∃ k : Nat, t = atTime s now ∧ k = qKey hp wq
        ∧ Starts s now hp wq w d 4 ∧ wordsOk d wCommon (mask 38 0) (mask 15 0) allBits allBits allBits 0 = true ∧ lenBad d = false
        ∧ findUnexp t w.ec (dword d 3) (dword d 4) (dword d 6) (bitAt (dword d 2) 38) (dDev d) (dEc d) = none ∧ overflowOf t w.ec = []
        ∧ onDieCount t < 32768)
    ∧ (∃ s : State, ∃ now hp wq : Nat, ∃ w : Wq, ∃ d : List Word, ∃ t : State, ∃ k : Nat, t = atTime s now ∧ k = qKey hp wq
        ∧ Starts s now hp wq w d 4 ∧ wordsOk d wCommon (mask 38 0) (mask 15 0) allBits allBits allBits 0 = true ∧ lenBad d = false
        ∧ findUnexp t w.ec (dword d 3) (dword d 4) (dword d 6) (bitAt (dword d 2) 38) (dDev d) (dEc d) = none
        ∧ (overflowOf t w.ec ≠ [] ∨ 32768 ≤ onDieCount t) ∧ ovfCount t < 33554432)
    ∧ (∃ s : State, ∃ now hp wq : Nat, ∃ w : Wq, ∃ d : List Word, ∃ t : State, ∃ k : Nat, t = atTime s now ∧ k = qKey hp wq
        ∧ Starts s now hp wq w d 4 ∧ wordsOk d wCommon (mask 38 0) (mask 15 0) allBits allBits allBits 0 = true ∧ lenBad d = false
        ∧ findUnexp t w.ec (dword d 3) (dword d 4) (dword d 6) (bitAt (dword d 2) 38) (dDev d) (dEc d) = none
        ∧ (overflowOf t w.ec ≠ [] ∨ 32768 ≤ onDieCount t) ∧ 33554432 ≤ ovfCount t)
    ∧ (∃ s : State, ∃ now hp wq : Nat, ∃ w : Wq, ∃ d : List Word, ∃ t : State, ∃ k : Nat, t = atTime s now ∧ k = qKey hp wq
        ∧ Starts s now hp wq w d 4 ∧ (wordsOk d wCommon (mask 38 0) (mask 15 0) allBits allBits allBits 0 = false ∨ lenBad d = true))
    ∧ (∃ s : State, ∃ now hp wq : Nat, ∃ w : Wq, ∃ d : List Word, Starts s now hp wq w d 5 ∧ rcqBlocked (atTime s now) w.ec = true)
    ∧ (∃ s : State, ∃ now hp wq : Nat, ∃ w : Wq, ∃ d : List Word, ∃ t : State, ∃ k : Nat, t = atTime s now ∧ k = qKey hp wq
        ∧ Starts s now hp wq w d 5 ∧ rcqBlocked t w.ec = false
        ∧ (wordsOk d wCommon (mask 38 0) (mask 15 0) allBits 0 allBits 0 = false ∨ lenBad d = true))
    ∧ (∃ s : State, ∃ now hp wq : Nat, ∃ w : Wq, ∃ d : List Word, ∃ t : State, ∃ k : Nat, t = atTime s now ∧ k = qKey hp wq
        ∧ Starts s now hp wq w d 6 ∧ (wordsOk d wCommon allBits 0 0 0 0 0 = false ∨ lenBad d = true))
    ∧ (∃ s : State, ∃ now hp wq : Nat, ∃ w : Wq, ∃ d : List Word, ∃ t : State, ∃ k id : Nat, ∃ u : Unexp, t = atTime s now
        ∧ k = qKey hp wq ∧ Starts s now hp wq w d 5 ∧ rcqBlocked t w.ec = false
        ∧ wordsOk d wCommon (mask 38 0) (mask 15 0) allBits 0 allBits 0 = true ∧ lenBad d = false
        ∧ findUnexp t w.ec (dword d 3) (dword d 4) (dword d 6) (bitAt (dword d 2) 38) (dDev d) (dEc d) = some (id, u))
    ∧ (∃ s : State, ∃ now hp wq : Nat, ∃ w : Wq, ∃ d : List Word, ∃ t : State, ∃ k : Nat, t = atTime s now ∧ k = qKey hp wq
        ∧ Starts s now hp wq w d 5 ∧ rcqBlocked t w.ec = false ∧ wordsOk d wCommon (mask 38 0) (mask 15 0) allBits 0 allBits 0 = true
        ∧ lenBad d = false ∧ findUnexp t w.ec (dword d 3) (dword d 4) (dword d 6) (bitAt (dword d 2) 38) (dDev d) (dEc d) = none)
    ∧ (∃ s : State, ∃ now hp wq : Nat, ∃ w : Wq, ∃ d : List Word, ∃ t : State, ∃ k id : Nat, ∃ r : Recv, t = atTime s now
        ∧ k = qKey hp wq ∧ Starts s now hp wq w d 6 ∧ wordsOk d wCommon allBits 0 0 0 0 0 = true ∧ lenBad d = false
        ∧ ((unmatched t).find? fun e => e.2.ec == w.ec && tagged e.2 (dword d 2)) = some (id, r))
    ∧ (∃ s : State, ∃ now hp wq : Nat, ∃ w : Wq, ∃ d : List Word, ∃ t : State, ∃ k : Nat, t = atTime s now ∧ k = qKey hp wq
        ∧ Starts s now hp wq w d 6 ∧ wordsOk d wCommon allBits 0 0 0 0 0 = true ∧ lenBad d = false
        ∧ ((unmatched t).find? fun e => e.2.ec == w.ec && tagged e.2 (dword d 2)) = none) :=
  ⟨⟨arrived (ready (desc 4 0 8 (2 ^ 38) 0 0 0x100000 0 0)), 0, 0, 0, wqWith (desc 4 0 8 (2 ^ 38) 0 0 0x100000 0 0),
      (desc 4 0 8 (2 ^ 38) 0 0 0x100000 0 0), _, _, 4, oldUnexp, rfl, rfl, ⟨by decide +kernel, by decide +kernel, by decide +kernel⟩,
      by decide +kernel⟩,
   ⟨ready (desc 4 0 8 (2 ^ 38) 0 0 0x100000 0 0), 0, 0, 0, wqWith (desc 4 0 8 (2 ^ 38) 0 0 0x100000 0 0),
       (desc 4 0 8 (2 ^ 38) 0 0 0x100000 0 0), _, _, rfl, rfl, ⟨by decide +kernel, by decide +kernel, by decide +kernel⟩,
       by decide +kernel⟩,
   ⟨overflowing (ready (desc 4 0 8 (2 ^ 38) 0 0 0x100000 0 0)), 0, 0, 0, wqWith (desc 4 0 8 (2 ^ 38) 0 0 0x100000 0 0),
       (desc 4 0 8 (2 ^ 38) 0 0 0x100000 0 0), _, _, rfl, rfl, ⟨by decide +kernel, by decide +kernel, by decide +kernel⟩,
       by decide +kernel⟩,
   ⟨brimming 33554432 (ready (desc 4 0 8 (2 ^ 38) 0 0 0x100000 0 0)), 0, 0, 0, wqWith (desc 4 0 8 (2 ^ 38) 0 0 0x100000 0 0),
       (desc 4 0 8 (2 ^ 38) 0 0 0x100000 0 0), _, _, rfl, rfl, ⟨by decide +kernel, by decide +kernel, by decide +kernel⟩,
       by decide +kernel, by decide +kernel, by decide +kernel, Or.inl (brims (by decide) _).1,
       Nat.le_of_eq (brims (by decide) _).2.symm⟩,
   ⟨ready (desc 4 0 8 (2 ^ 38) 0 0 0x100000 0 1), 0, 0, 0, wqWith (desc 4 0 8 (2 ^ 38) 0 0 0x100000 0 1),
       (desc 4 0 8 (2 ^ 38) 0 0 0x100000 0 1), _, _, rfl, rfl, ⟨by decide +kernel, by decide +kernel, by decide +kernel⟩,
       by decide +kernel⟩,
   ⟨fullCq (withWq { wqWith (desc 5 0 0 (2 ^ 38) 0 0 0 0 0) with cq := 1 }), 0, 0, 0,
       { wqWith (desc 5 0 0 (2 ^ 38) 0 0 0 0 0) with cq := 1 }, (desc 5 0 0 (2 ^ 38) 0 0 0 0 0), ⟨by decide +kernel, by decide +kernel,
       by decide +kernel⟩, by decide +kernel⟩,
   ⟨ready (desc 5 0 0 (2 ^ 38) 0 0 0 0 1), 0, 0, 0, wqWith (desc 5 0 0 (2 ^ 38) 0 0 0 0 1), (desc 5 0 0 (2 ^ 38) 0 0 0 0 1), _, _, rfl,
       rfl, ⟨by decide +kernel, by decide +kernel, by decide +kernel⟩, by decide +kernel⟩,
   ⟨ready (desc 6 0 0 9 1 0 0 0 0), 0, 0, 0, wqWith (desc 6 0 0 9 1 0 0 0 0), (desc 6 0 0 9 1 0 0 0 0), _, _, rfl, rfl,
       ⟨by decide +kernel, by decide +kernel, by decide +kernel⟩, by decide +kernel⟩,
   ⟨arrived (ready (desc 5 0 0 (2 ^ 38) 0 0 0 0 0)), 0, 0, 0, wqWith (desc 5 0 0 (2 ^ 38) 0 0 0 0 0), (desc 5 0 0 (2 ^ 38) 0 0 0 0 0), _,
       _, 4, oldUnexp, rfl, rfl, ⟨by decide +kernel, by decide +kernel, by decide +kernel⟩, by decide +kernel⟩,
   ⟨ready (desc 5 0 0 (2 ^ 38) 0 0 0 0 0), 0, 0, 0, wqWith (desc 5 0 0 (2 ^ 38) 0 0 0 0 0), (desc 5 0 0 (2 ^ 38) 0 0 0 0 0), _, _, rfl,
       rfl, ⟨by decide +kernel, by decide +kernel, by decide +kernel⟩, by decide +kernel⟩,
   ⟨waits (ready (desc 6 0 0 9 0 0 0 0 0)), 0, 0, 0, wqWith (desc 6 0 0 9 0 0 0 0 0), (desc 6 0 0 9 0 0 0 0 0), _, _, 0, oldRecv, rfl,
       rfl, ⟨by decide +kernel, by decide +kernel, by decide +kernel⟩, by decide +kernel⟩,
   ⟨ready (desc 6 0 0 9 0 0 0 0 0), 0, 0, 0, wqWith (desc 6 0 0 9 0 0 0 0 0), (desc 6 0 0 9 0 0 0 0 0), _, _, rfl, rfl,
       ⟨by decide +kernel, by decide +kernel, by decide +kernel⟩, by decide +kernel⟩⟩

theorem witness_RegionDescriptorsComplete :
    (∃ s : State, ∃ now hp wq : Nat, ∃ w : Wq, ∃ d : List Word, ∃ t : State, ∃ k i : Nat, t = atTime s now ∧ k = qKey hp wq
        ∧ Starts s now hp wq w d 0x10 ∧ regBad t k w d = none ∧ freeRegion t = some i)
    ∧ (∃ s : State, ∃ now hp wq : Nat, ∃ w : Wq, ∃ d : List Word, ∃ t : State, ∃ k kind : Nat, t = atTime s now ∧ k = qKey hp wq
        ∧ Starts s now hp wq w d 0x10 ∧ regBad t k w d = some kind)
    ∧ (∃ s : State, ∃ now hp wq : Nat, ∃ w : Wq, ∃ d : List Word, ∃ t : State, ∃ k i : Nat, t = atTime s now ∧ k = qKey hp wq
        ∧ Starts s now hp wq w d 0x11 ∧ wordsOk d wCommon wKey 0 0 0 0 0 = true ∧ lenBad d = false ∧ regionOf t (dword d 2) = some i
        ∧ rd t F.mrEntryHp i = qPort k ∧ rd t F.mrEntryFunc i = w.fn)
    ∧ (∃ s : State, ∃ now hp wq : Nat, ∃ w : Wq, ∃ d : List Word, ∃ t : State, ∃ k : Nat, t = atTime s now ∧ k = qKey hp wq
        ∧ Starts s now hp wq w d 0x11 ∧ wordsOk d wCommon wKey 0 0 0 0 0 = true ∧ lenBad d = false ∧ (∀ i,
        regionOf t (dword d 2) = some i → rd t F.mrEntryHp i ≠ qPort k ∨ rd t F.mrEntryFunc i ≠ w.fn))
    ∧ (∃ s : State, ∃ now hp wq : Nat, ∃ w : Wq, ∃ d : List Word, ∃ t : State, ∃ k : Nat, t = atTime s now ∧ k = qKey hp wq
        ∧ Starts s now hp wq w d 0x11 ∧ (wordsOk d wCommon wKey 0 0 0 0 0 = false ∨ lenBad d = true))
    ∧ (∃ s : State, ∃ now hp wq : Nat, ∃ w : Wq, ∃ d : List Word, ∃ t : State, ∃ k : Nat, ∃ f : FaultEnt, t = atTime s now
        ∧ k = qKey hp wq ∧ Starts s now hp wq w d 0x12 ∧ wordsOk d (wCommon + wSub 2) (mask 11 0) 0 0 0 0 0 = true ∧ lenBad d = false
        ∧ dSub d % 4 = 1 ∧ mget t.mr.faults (dword d 2) = some f ∧ ownsDom t k w f.dom = true)
    ∧ (∃ s : State, ∃ now hp wq : Nat, ∃ w : Wq, ∃ d : List Word, ∃ t : State, ∃ k : Nat, ∃ f : FaultEnt, t = atTime s now
        ∧ k = qKey hp wq ∧ Starts s now hp wq w d 0x12 ∧ wordsOk d (wCommon + wSub 2) (mask 11 0) 0 0 0 0 0 = true ∧ lenBad d = false
        ∧ dSub d % 4 = 2 ∧ mget t.mr.faults (dword d 2) = some f ∧ ownsDom t k w f.dom = true)
    ∧ (∃ s : State, ∃ now hp wq : Nat, ∃ w : Wq, ∃ d : List Word, ∃ t : State, ∃ k : Nat, t = atTime s now ∧ k = qKey hp wq
        ∧ Starts s now hp wq w d 0x12 ∧ wordsOk d (wCommon + wSub 2) (mask 11 0) 0 0 0 0 0 = true ∧ lenBad d = false
        ∧ (dSub d % 4 = 1 ∨ dSub d % 4 = 2) ∧ (∀ f, mget t.mr.faults (dword d 2) = some f → ownsDom t k w f.dom = false))
    ∧ (∃ s : State, ∃ now hp wq : Nat, ∃ w : Wq, ∃ d : List Word, ∃ t : State, ∃ k : Nat, t = atTime s now ∧ k = qKey hp wq
        ∧ Starts s now hp wq w d 0x12
        ∧ (wordsOk d (wCommon + wSub 2) (mask 11 0) 0 0 0 0 0 = false ∨ lenBad d = true ∨ dSub d % 4 = 0 ∨ dSub d % 4 = 3))
    ∧ (∃ s : State, ∃ now hp wq : Nat, ∃ w : Wq, ∃ d : List Word, ∃ t : State, ∃ k : Nat, t = atTime s now ∧ k = qKey hp wq
        ∧ nextDesc t k = some (w, d) ∧ wqOpen t k w = true ∧ dOp d = 0x13
        ∧ wordsOk d (wCommon + wSub 2) (mask 11 0 + mask 46 30) allBits 0 0 0 0 = true ∧ lenBad d = false ∧ ((dSub d % 4 = 1
        ∧ 1 ≤ bits (dword d 2) 30 17 ∧ bits (dword d 2) 30 17 ≤ 65536) ∨ dSub d % 4 = 2) ∧ ownsDom t k w (dword d 2 % 2 ^ 12) = true)
    ∧ (∃ s : State, ∃ now hp wq : Nat, ∃ w : Wq, ∃ d : List Word, ∃ t : State, ∃ k : Nat, t = atTime s now ∧ k = qKey hp wq
        ∧ nextDesc t k = some (w, d) ∧ wqOpen t k w = true ∧ dOp d = 0x13
        ∧ wordsOk d (wCommon + wSub 2) (mask 11 0 + mask 46 30) allBits 0 0 0 0 = true ∧ lenBad d = false ∧ ((dSub d % 4 = 1
        ∧ 1 ≤ bits (dword d 2) 30 17 ∧ bits (dword d 2) 30 17 ≤ 65536) ∨ dSub d % 4 = 2) ∧ ownsDom t k w (dword d 2 % 2 ^ 12) = false)
    ∧ (∃ s : State, ∃ now hp wq : Nat, ∃ w : Wq, ∃ d : List Word, ∃ t : State, ∃ k : Nat, t = atTime s now ∧ k = qKey hp wq
        ∧ nextDesc t k = some (w, d) ∧ wqOpen t k w = true ∧ dOp d = 0x13
        ∧ (wordsOk d (wCommon + wSub 2) (mask 11 0 + mask 46 30) allBits 0 0 0 0 = false ∨ lenBad d = true ∨ dSub d % 4 = 0 ∨ dSub d % 4 = 3 ∨ (dSub d % 4 = 1 ∧ (bits (dword d 2) 30 17 = 0 ∨ 65536 < bits (dword d 2) 30 17)))) :=
  ⟨⟨few (ready (desc 0x10 1 0 1 0 0 0x200000 0x1000 0)), 0, 0, 0, wqWith (desc 0x10 1 0 1 0 0 0x200000 0x1000 0),
      (desc 0x10 1 0 1 0 0 0x200000 0x1000 0), _, _, 1, rfl, rfl, ⟨by decide +kernel, by decide +kernel, by decide +kernel⟩,
      by decide +kernel⟩,
   ⟨few (ready (desc 0x10 1 0 2 0 0 0x200000 0x1000 0)), 0, 0, 0, wqWith (desc 0x10 1 0 2 0 0 0x200000 0x1000 0),
       (desc 0x10 1 0 2 0 0 0x200000 0x1000 0), _, _, 2, rfl, rfl, ⟨by decide +kernel, by decide +kernel, by decide +kernel⟩,
       by decide +kernel⟩,
   ⟨few (ready (desc 0x11 0 0 0x20000 0 0 0 0 0)), 0, 0, 0, wqWith (desc 0x11 0 0 0x20000 0 0 0 0 0), (desc 0x11 0 0 0x20000 0 0 0 0 0),
       _, _, 0, rfl, rfl, ⟨by decide +kernel, by decide +kernel, by decide +kernel⟩, by decide +kernel⟩,
   ⟨few (ready (desc 0x11 0 0 0x60000 0 0 0 0 0)), 0, 0, 0, wqWith (desc 0x11 0 0 0x60000 0 0 0 0 0), (desc 0x11 0 0 0x60000 0 0 0 0 0),
       _, _, rfl, rfl, ⟨by decide +kernel, by decide +kernel, by decide +kernel⟩, by decide +kernel, by decide +kernel,
       noneOf (by decide +kernel)⟩,
   ⟨ready (desc 0x11 0 0 0x20000 1 0 0 0 0), 0, 0, 0, wqWith (desc 0x11 0 0 0x20000 1 0 0 0 0), (desc 0x11 0 0 0x20000 1 0 0 0 0), _, _,
       rfl, rfl, ⟨by decide +kernel, by decide +kernel, by decide +kernel⟩, by decide +kernel⟩,
   ⟨faulted (ready (desc 0x12 1 0 3 0 0 0 0 0)), 0, 0, 0, wqWith (desc 0x12 1 0 3 0 0 0 0 0), (desc 0x12 1 0 3 0 0 0 0 0), _, _, ⟨1,
       0x200, 6, 0, false, 0⟩, rfl, rfl, ⟨by decide +kernel, by decide +kernel, by decide +kernel⟩, by decide +kernel⟩,
   ⟨faulted (ready (desc 0x12 2 0 3 0 0 0 0 0)), 0, 0, 0, wqWith (desc 0x12 2 0 3 0 0 0 0 0), (desc 0x12 2 0 3 0 0 0 0 0), _, _, ⟨1,
       0x200, 6, 0, false, 0⟩, rfl, rfl, ⟨by decide +kernel, by decide +kernel, by decide +kernel⟩, by decide +kernel⟩,
   ⟨ready (desc 0x12 2 0 3 0 0 0 0 0), 0, 0, 0, wqWith (desc 0x12 2 0 3 0 0 0 0 0), (desc 0x12 2 0 3 0 0 0 0 0), _, _, rfl, rfl,
       ⟨by decide +kernel, by decide +kernel, by decide +kernel⟩, by decide +kernel, by decide +kernel, by decide +kernel,
       noneOf (by decide +kernel)⟩,
   ⟨ready (desc 0x12 0 0 3 0 0 0 0 0), 0, 0, 0, wqWith (desc 0x12 0 0 3 0 0 0 0 0), (desc 0x12 0 0 3 0 0 0 0 0), _, _, rfl, rfl,
       ⟨by decide +kernel, by decide +kernel, by decide +kernel⟩, by decide +kernel⟩,
   ⟨ready (desc 0x13 2 0 1 0 0 0 0 0), 0, 0, 0, wqWith (desc 0x13 2 0 1 0 0 0 0 0), (desc 0x13 2 0 1 0 0 0 0 0), _, _, rfl, rfl,
       by decide +kernel⟩,
   ⟨ready (desc 0x13 2 0 2 0 0 0 0 0), 0, 0, 0, wqWith (desc 0x13 2 0 2 0 0 0 0 0), (desc 0x13 2 0 2 0 0 0 0 0), _, _, rfl, rfl,
       by decide +kernel⟩,
   ⟨ready (desc 0x13 0 0 1 0 0 0 0 0), 0, 0, 0, wqWith (desc 0x13 0 0 1 0 0 0 0 0), (desc 0x13 0 0 1 0 0 0 0 0), _, _, rfl, rfl,
       by decide +kernel⟩⟩

theorem witness_CollectiveAndExchangeDescriptorsComplete :
    (∃ s : State, ∃ now hp wq : Nat, ∃ w : Wq, ∃ d : List Word, ∃ t : State, ∃ k : Nat, ∃ data : List Byte, ∃ c : EcCtx, ∃ v : State,
        ∃ l : List (Nat × Nat), ∃ a : Adm, t = atTime s now ∧ k = qKey hp wq ∧ Starts s now hp wq w d 0x18 ∧ collBad t k w d = none
        ∧ rd t F.clGroupState (dword d 2) ≠ 2 ∧ data.length = collBytes t d ∧ data ≠ [] ∧ ctxOf t w.ec = some c
        ∧ a = { mr := none, dom := c.dom, hp := c.hp, fn := c.fn, pkrr := dword d 8, cls := 0, spans := [(dword d 4, data.length)], recv := none } ∧ translateAdm t a = (v, .ok l))
    ∧ (∃ s : State, ∃ now hp wq : Nat, ∃ w : Wq, ∃ d : List Word, ∃ t : State, ∃ k : Nat, ∃ c : EcCtx, t = atTime s now ∧ k = qKey hp wq
        ∧ Starts s now hp wq w d 0x18 ∧ collBad t k w d = none ∧ rd t F.clGroupState (dword d 2) ≠ 2 ∧ collBytes t d = 0
        ∧ ctxOf t w.ec = some c)
    ∧ (∃ s : State, ∃ now hp wq : Nat, ∃ w : Wq, ∃ d : List Word, ∃ t : State, ∃ k : Nat, ∃ data : List Byte, ∃ c : EcCtx, ∃ v : State,
        ∃ x : Nat, ∃ a : Adm, t = atTime s now ∧ k = qKey hp wq ∧ Starts s now hp wq w d 0x18 ∧ collBad t k w d = none
        ∧ rd t F.clGroupState (dword d 2) ≠ 2 ∧ data.length = collBytes t d ∧ data ≠ [] ∧ ctxOf t w.ec = some c
        ∧ a = { mr := none, dom := c.dom, hp := c.hp, fn := c.fn, pkrr := dword d 8, cls := 0, spans := [(dword d 4, data.length)], recv := none } ∧ translateAdm t a = (v, .miss x))
    ∧ (∃ s : State, ∃ now hp wq : Nat, ∃ w : Wq, ∃ d : List Word, ∃ t : State, ∃ k : Nat, ∃ data : List Byte, ∃ c : EcCtx, ∃ v : State,
        ∃ kind x : Nat, ∃ a : Adm, t = atTime s now ∧ k = qKey hp wq ∧ Starts s now hp wq w d 0x18 ∧ collBad t k w d = none
        ∧ rd t F.clGroupState (dword d 2) ≠ 2 ∧ data.length = collBytes t d ∧ data ≠ [] ∧ ctxOf t w.ec = some c
        ∧ a = { mr := none, dom := c.dom, hp := c.hp, fn := c.fn, pkrr := dword d 8, cls := 0, spans := [(dword d 4, data.length)], recv := none } ∧ translateAdm t a = (v, .hard kind x))
    ∧ (∃ s : State, ∃ now hp wq : Nat, ∃ w : Wq, ∃ d : List Word, ∃ t : State, ∃ k : Nat, t = atTime s now ∧ k = qKey hp wq
        ∧ Starts s now hp wq w d 0x18 ∧ collBad t k w d = none ∧ rd t F.clGroupState (dword d 2) = 2)
    ∧ (∃ s : State, ∃ now hp wq : Nat, ∃ w : Wq, ∃ d : List Word, ∃ t : State, ∃ k kind : Nat, t = atTime s now ∧ k = qKey hp wq
        ∧ Starts s now hp wq w d 0x18 ∧ collBad t k w d = some kind)
    ∧ (∃ s : State, ∃ now hp wq : Nat, ∃ w : Wq, ∃ d : List Word, ∃ t : State, ∃ k : Nat, ∃ v : State, t = atTime s now ∧ k = qKey hp wq
        ∧ Starts s now hp wq w d 0x19 ∧ wordsOk d wCommon (mask 11 0) 0 0 0 0 0 = true ∧ lenBad d = false
        ∧ ownsGroup t k w (dword d 2) = true ∧ v = descDone (takeDesc t k w) (originOf k w d) 0 0 0 0 0 0)
    ∧ (∃ s : State, ∃ now hp wq : Nat, ∃ w : Wq, ∃ d : List Word, ∃ t : State, ∃ k : Nat, t = atTime s now ∧ k = qKey hp wq
        ∧ Starts s now hp wq w d 0x19 ∧ wordsOk d wCommon (mask 11 0) 0 0 0 0 0 = true ∧ lenBad d = false
        ∧ ownsGroup t k w (dword d 2) = false)
    ∧ (∃ s : State, ∃ now hp wq : Nat, ∃ w : Wq, ∃ d : List Word, ∃ t : State, ∃ k : Nat, t = atTime s now ∧ k = qKey hp wq
        ∧ Starts s now hp wq w d 0x19 ∧ (wordsOk d wCommon (mask 11 0) 0 0 0 0 0 = false ∨ lenBad d = true))
    ∧ (∃ s : State, ∃ now hp wq : Nat, ∃ w : Wq, ∃ d : List Word, ∃ t : State, ∃ k : Nat, ∃ c : EcCtx, t = atTime s now ∧ k = qKey hp wq
        ∧ Starts s now hp wq w d 0x1C ∧ wordsOk d wCommon (mask 5 0) allBits 0 0 0 0 = true ∧ rd t F.exJobState (dword d 2) = 1
        ∧ dLen d = 0 ∧ ctxOf t w.ec = some c)
    ∧ (∃ s : State, ∃ now hp wq : Nat, ∃ w : Wq, ∃ d : List Word, ∃ t : State, ∃ k : Nat, ∃ data : List Byte, ∃ c : EcCtx, ∃ u : State,
        ∃ l : List (Nat × Nat), ∃ a : Adm, t = atTime s now ∧ k = qKey hp wq ∧ Starts s now hp wq w d 0x1C
        ∧ wordsOk d wCommon (mask 5 0) allBits 0 0 0 0 = true ∧ lenBad d = false ∧ rd t F.exJobState (dword d 2) = 1
        ∧ data.length = dLen d ∧ data ≠ [] ∧ ctxOf t w.ec = some c
        ∧ a = { mr := none, dom := c.dom, hp := c.hp, fn := c.fn, pkrr := dword d 8, cls := 0, spans := [(dword d 3, data.length)], recv := none } ∧ translateAdm t a = (u, .ok l) ∧ rd (readPieces u c.hp l) F.exJobState (dword d 2) = 1)
    ∧ (∃ s : State, ∃ now hp wq : Nat, ∃ w : Wq, ∃ d : List Word, ∃ t : State, ∃ k : Nat, ∃ data : List Byte, ∃ c : EcCtx, ∃ v : State,
        ∃ x : Nat, ∃ a : Adm, t = atTime s now ∧ k = qKey hp wq ∧ Starts s now hp wq w d 0x1C
        ∧ wordsOk d wCommon (mask 5 0) allBits 0 0 0 0 = true ∧ lenBad d = false ∧ rd t F.exJobState (dword d 2) = 1
        ∧ data.length = dLen d ∧ data ≠ [] ∧ ctxOf t w.ec = some c
        ∧ a = { mr := none, dom := c.dom, hp := c.hp, fn := c.fn, pkrr := dword d 8, cls := 0, spans := [(dword d 3, data.length)], recv := none } ∧ translateAdm t a = (v, .miss x))
    ∧ (∃ s : State, ∃ now hp wq : Nat, ∃ w : Wq, ∃ d : List Word, ∃ t : State, ∃ k : Nat, ∃ data : List Byte, ∃ c : EcCtx, ∃ v : State,
        ∃ kind x : Nat, ∃ a : Adm, t = atTime s now ∧ k = qKey hp wq ∧ Starts s now hp wq w d 0x1C
        ∧ wordsOk d wCommon (mask 5 0) allBits 0 0 0 0 = true ∧ lenBad d = false ∧ rd t F.exJobState (dword d 2) = 1
        ∧ data.length = dLen d ∧ data ≠ [] ∧ ctxOf t w.ec = some c
        ∧ a = { mr := none, dom := c.dom, hp := c.hp, fn := c.fn, pkrr := dword d 8, cls := 0, spans := [(dword d 3, data.length)], recv := none } ∧ translateAdm t a = (v, .hard kind x))
    ∧ (∃ s : State, ∃ now hp wq : Nat, ∃ w : Wq, ∃ d : List Word, ∃ t : State, ∃ k : Nat, t = atTime s now ∧ k = qKey hp wq
        ∧ Starts s now hp wq w d 0x1C ∧ wordsOk d wCommon (mask 5 0) allBits 0 0 0 0 = true ∧ lenBad d = false
        ∧ rd t F.exJobState (dword d 2) ≠ 1)
    ∧ (∃ s : State, ∃ now hp wq : Nat, ∃ w : Wq, ∃ d : List Word, ∃ t : State, ∃ k : Nat, t = atTime s now ∧ k = qKey hp wq
        ∧ Starts s now hp wq w d 0x1C ∧ (wordsOk d wCommon (mask 5 0) allBits 0 0 0 0 = false ∨ lenBad d = true))
    ∧ (∃ s : State, ∃ now hp wq : Nat, ∃ w : Wq, ∃ d : List Word, ∃ t : State, ∃ k : Nat, t = atTime s now ∧ k = qKey hp wq
        ∧ Starts s now hp wq w d 0x1D ∧ wordsOk d wCommon (mask 5 0) 0 0 0 0 0 = true ∧ lenBad d = false
        ∧ rd t F.exJobState (dword d 2) = 1)
    ∧ (∃ s : State, ∃ now hp wq : Nat, ∃ w : Wq, ∃ d : List Word, ∃ t : State, ∃ k : Nat, t = atTime s now ∧ k = qKey hp wq
        ∧ Starts s now hp wq w d 0x1D ∧ wordsOk d wCommon (mask 5 0) 0 0 0 0 0 = true ∧ lenBad d = false
        ∧ rd t F.exJobState (dword d 2) ≠ 1)
    ∧ (∃ s : State, ∃ now hp wq : Nat, ∃ w : Wq, ∃ d : List Word, ∃ t : State, ∃ k : Nat, t = atTime s now ∧ k = qKey hp wq
        ∧ Starts s now hp wq w d 0x1D ∧ (wordsOk d wCommon (mask 5 0) 0 0 0 0 0 = false ∨ lenBad d = true))
    ∧ (∃ s : State, ∃ now hp wq : Nat, ∃ w : Wq, ∃ d : List Word, ∃ t : State, ∃ k : Nat, t = atTime s now ∧ k = qKey hp wq
        ∧ Starts s now hp wq w d 0x1E ∧ wordsOk d wCommon (mask 5 0) allBits 0 0 0 0 = true ∧ lenBad d = false
        ∧ dword d 3 ≤ rd t F.exRingPi (dword d 2))
    ∧ (∃ s : State, ∃ now hp wq : Nat, ∃ w : Wq, ∃ d : List Word, ∃ t : State, ∃ k : Nat, t = atTime s now ∧ k = qKey hp wq
        ∧ Starts s now hp wq w d 0x1E
        ∧ (wordsOk d wCommon (mask 5 0) allBits 0 0 0 0 = false ∨ lenBad d = true ∨ rd t F.exRingPi (dword d 2) < dword d 3)) :=
  ⟨⟨armed 1 (ready (desc 0x18 (2 * 128) 0 5 1 0x100000 0x100000 0 0)), 0, 0, 0, wqWith (desc 0x18 (2 * 128) 0 5 1 0x100000 0x100000 0 0),
      (desc 0x18 (2 * 128) 0 5 1 0x100000 0x100000 0 0), _, _, zeros 8, ctx, _, [(0x5000, 8)], _, rfl, rfl, ⟨by decide +kernel,
      by decide +kernel, by decide +kernel⟩, by decide +kernel, by decide +kernel, by decide +kernel, by decide +kernel,
      by decide +kernel, rfl, okOf (by decide +kernel)⟩,
   ⟨armed 1 (ready (desc 0x18 4 0 5 0 0 0 0 0)), 0, 0, 0, wqWith (desc 0x18 4 0 5 0 0 0 0 0), (desc 0x18 4 0 5 0 0 0 0 0), _, _, ctx, rfl,
       rfl, ⟨by decide +kernel, by decide +kernel, by decide +kernel⟩, by decide +kernel⟩,
   ⟨armed 1 (ready (desc 0x18 (2 * 128) 0 5 1 0x300000 0x100000 0 0)), 0, 0, 0, wqWith (desc 0x18 (2 * 128) 0 5 1 0x300000 0x100000 0 0),
       (desc 0x18 (2 * 128) 0 5 1 0x300000 0x100000 0 0), _, _, zeros 8, ctx, _, 0x300000, _, rfl, rfl, ⟨by decide +kernel,
       by decide +kernel, by decide +kernel⟩, by decide +kernel, by decide +kernel, by decide +kernel, by decide +kernel,
       by decide +kernel, rfl, endOf (by decide +kernel)⟩,
   ⟨denied (armed 1 (ready (desc 0x18 (2 * 128) 0 5 1 0x300000 0x100000 0 0))), 0, 0, 0,
       wqWith (desc 0x18 (2 * 128) 0 5 1 0x300000 0x100000 0 0), (desc 0x18 (2 * 128) 0 5 1 0x300000 0x100000 0 0), _, _, zeros 8, ctx, _,
       7, 0x300000, _, rfl, rfl, ⟨by decide +kernel, by decide +kernel, by decide +kernel⟩, by decide +kernel, by decide +kernel,
       by decide +kernel, by decide +kernel, by decide +kernel, rfl, endOf (by decide +kernel)⟩,
   ⟨armed 2 (ready (desc 0x18 (2 * 128) 0 5 1 0x100000 0x100000 0 0)), 0, 0, 0, wqWith (desc 0x18 (2 * 128) 0 5 1 0x100000 0x100000 0 0),
       (desc 0x18 (2 * 128) 0 5 1 0x100000 0x100000 0 0), _, _, rfl, rfl, ⟨by decide +kernel, by decide +kernel, by decide +kernel⟩,
       by decide +kernel⟩,
   ⟨armed 1 (ready (desc 0x18 (2 * 128) 0 5 1 0x100000 0x100000 0 1)), 0, 0, 0, wqWith (desc 0x18 (2 * 128) 0 5 1 0x100000 0x100000 0 1),
       (desc 0x18 (2 * 128) 0 5 1 0x100000 0x100000 0 1), _, _, 22, rfl, rfl, ⟨by decide +kernel, by decide +kernel, by decide +kernel⟩,
       by decide +kernel⟩,
   ⟨armed 1 (ready (desc 0x19 0 0 5 0 0 0 0 0)), 0, 0, 0, wqWith (desc 0x19 0 0 5 0 0 0 0 0), (desc 0x19 0 0 5 0 0 0 0 0), _, _, _, rfl,
       rfl, ⟨by decide +kernel, by decide +kernel, by decide +kernel⟩, by decide +kernel, by decide +kernel, by decide +kernel, rfl⟩,
   ⟨armed 1 (ready (desc 0x19 0 0 6 0 0 0 0 0)), 0, 0, 0, wqWith (desc 0x19 0 0 6 0 0 0 0 0), (desc 0x19 0 0 6 0 0 0 0 0), _, _, rfl, rfl,
       ⟨by decide +kernel, by decide +kernel, by decide +kernel⟩, by decide +kernel⟩,
   ⟨armed 1 (ready (desc 0x19 0 0 5 1 0 0 0 0)), 0, 0, 0, wqWith (desc 0x19 0 0 5 1 0 0 0 0), (desc 0x19 0 0 5 1 0 0 0 0), _, _, rfl, rfl,
       ⟨by decide +kernel, by decide +kernel, by decide +kernel⟩, by decide +kernel⟩,
   ⟨jobIn 1 (ready (desc 0x1C 0 0 2 0x100000 0 0 0 0)), 0, 0, 0, wqWith (desc 0x1C 0 0 2 0x100000 0 0 0 0),
       (desc 0x1C 0 0 2 0x100000 0 0 0 0), _, _, ctx, rfl, rfl, ⟨by decide +kernel, by decide +kernel, by decide +kernel⟩,
       by decide +kernel⟩,
   ⟨jobIn 1 (ready (desc 0x1C 0 8 2 0x100000 0 0 0 0)), 0, 0, 0, wqWith (desc 0x1C 0 8 2 0x100000 0 0 0 0),
       (desc 0x1C 0 8 2 0x100000 0 0 0 0), _, _, zeros 8, ctx, _, [(0x5000, 8)], _, rfl, rfl, ⟨by decide +kernel, by decide +kernel,
       by decide +kernel⟩, by decide +kernel, by decide +kernel, by decide +kernel, by decide +kernel, by decide +kernel,
       by decide +kernel, rfl, okOf (by decide +kernel), by decide +kernel⟩,
   ⟨jobIn 1 (ready (desc 0x1C 0 8 2 0x300000 0 0 0 0)), 0, 0, 0, wqWith (desc 0x1C 0 8 2 0x300000 0 0 0 0),
       (desc 0x1C 0 8 2 0x300000 0 0 0 0), _, _, zeros 8, ctx, _, 0x300000, _, rfl, rfl, ⟨by decide +kernel, by decide +kernel,
       by decide +kernel⟩, by decide +kernel, by decide +kernel, by decide +kernel, by decide +kernel, by decide +kernel,
       by decide +kernel, rfl, endOf (by decide +kernel)⟩,
   ⟨denied (jobIn 1 (ready (desc 0x1C 0 8 2 0x300000 0 0 0 0))), 0, 0, 0, wqWith (desc 0x1C 0 8 2 0x300000 0 0 0 0),
       (desc 0x1C 0 8 2 0x300000 0 0 0 0), _, _, zeros 8, ctx, _, 7, 0x300000, _, rfl, rfl, ⟨by decide +kernel, by decide +kernel,
       by decide +kernel⟩, by decide +kernel, by decide +kernel, by decide +kernel, by decide +kernel, by decide +kernel,
       by decide +kernel, rfl, endOf (by decide +kernel)⟩,
   ⟨jobIn 2 (ready (desc 0x1C 0 0 2 0x100000 0 0 0 0)), 0, 0, 0, wqWith (desc 0x1C 0 0 2 0x100000 0 0 0 0),
       (desc 0x1C 0 0 2 0x100000 0 0 0 0), _, _, rfl, rfl, ⟨by decide +kernel, by decide +kernel, by decide +kernel⟩, by decide +kernel⟩,
   ⟨jobIn 1 (ready (desc 0x1C 0 8 2 0x100000 0 0 0 1)), 0, 0, 0, wqWith (desc 0x1C 0 8 2 0x100000 0 0 0 1),
       (desc 0x1C 0 8 2 0x100000 0 0 0 1), _, _, rfl, rfl, ⟨by decide +kernel, by decide +kernel, by decide +kernel⟩, by decide +kernel⟩,
   ⟨jobIn 1 (ready (desc 0x1D 0 0 2 0 0 0 0 0)), 0, 0, 0, wqWith (desc 0x1D 0 0 2 0 0 0 0 0), (desc 0x1D 0 0 2 0 0 0 0 0), _, _, rfl, rfl,
       ⟨by decide +kernel, by decide +kernel, by decide +kernel⟩, by decide +kernel⟩,
   ⟨jobIn 2 (ready (desc 0x1D 0 0 2 0 0 0 0 0)), 0, 0, 0, wqWith (desc 0x1D 0 0 2 0 0 0 0 0), (desc 0x1D 0 0 2 0 0 0 0 0), _, _, rfl, rfl,
       ⟨by decide +kernel, by decide +kernel, by decide +kernel⟩, by decide +kernel⟩,
   ⟨jobIn 1 (ready (desc 0x1D 0 0 2 1 0 0 0 0)), 0, 0, 0, wqWith (desc 0x1D 0 0 2 1 0 0 0 0), (desc 0x1D 0 0 2 1 0 0 0 0), _, _, rfl, rfl,
       ⟨by decide +kernel, by decide +kernel, by decide +kernel⟩, by decide +kernel⟩,
   ⟨jobIn 1 (ready (desc 0x1E 0 0 2 5 0 0 0 0)), 0, 0, 0, wqWith (desc 0x1E 0 0 2 5 0 0 0 0), (desc 0x1E 0 0 2 5 0 0 0 0), _, _, rfl, rfl,
       ⟨by decide +kernel, by decide +kernel, by decide +kernel⟩, by decide +kernel⟩,
   ⟨jobIn 1 (ready (desc 0x1E 0 0 2 9 0 0 0 0)), 0, 0, 0, wqWith (desc 0x1E 0 0 2 9 0 0 0 0), (desc 0x1E 0 0 2 9 0 0 0 0), _, _, rfl, rfl,
       ⟨by decide +kernel, by decide +kernel, by decide +kernel⟩, by decide +kernel⟩⟩

theorem witness_QueueCommandsComplete :
    (∃ s : State, ∃ who : Who, ∃ hp fn width i : Nat, i = fnIdx hp fn ∧ Served s who ∧ 64 ≤ width ∧ fn < 256 ∧ hp < 2
        ∧ (who = .fn hp fn ∨ who = .fn hp 0 ∨ (who = .mgmt ∧ hp = 0)) ∧ rd s F.qmCmdStatSt i ≠ 1 ∧ serving s hp = true)
    ∧ (∃ s : State, ∃ who : Who, ∃ hp fn width : Nat, Served s who ∧ 64 ≤ width ∧ fn < 256 ∧ hp < 2
        ∧ (who = .fn hp fn ∨ who = .fn hp 0 ∨ (who = .mgmt ∧ hp = 0)) ∧ rd s F.qmCmdStatSt (fnIdx hp fn) = 1)
    ∧ (∃ s : State, ∃ who : Who, ∃ hp fn width : Nat, Served s who ∧ 64 ≤ width ∧ fn < 256 ∧ hp < 2
        ∧ (who = .fn hp fn ∨ who = .fn hp 0 ∨ (who = .mgmt ∧ hp = 0)) ∧ rd s F.qmCmdStatSt (fnIdx hp fn) ≠ 1 ∧ serving s hp = false)
    ∧ (∃ s : State, ∃ who : Who, ∃ hp fn width i : Nat, i = fnIdx hp fn ∧ Served s who ∧ 64 ≤ width ∧ fn < 256 ∧ hp < 2
        ∧ (who = .fn hp fn ∨ who = .fn hp 0 ∨ (who = .mgmt ∧ hp = 0)) ∧ rd s F.qmCmdStatSt i ≠ 1 ∧ serving s hp = true)
    ∧ (∃ s : State, ∃ who : Who, ∃ hp fn width : Nat, Served s who ∧ 64 ≤ width ∧ fn < 256 ∧ hp < 2
        ∧ (who = .fn hp fn ∨ who = .fn hp 0 ∨ (who = .mgmt ∧ hp = 0)) ∧ rd s F.qmCmdStatSt (fnIdx hp fn) = 1)
    ∧ (∃ s : State, ∃ who : Who, ∃ hp fn width : Nat, Served s who ∧ 64 ≤ width ∧ fn < 256 ∧ hp < 2
        ∧ (who = .fn hp fn ∨ who = .fn hp 0 ∨ (who = .mgmt ∧ hp = 0)) ∧ rd s F.qmCmdStatSt (fnIdx hp fn) ≠ 1 ∧ serving s hp = false)
    ∧ (∃ s : State, ∃ who : Who, ∃ hp fn width i : Nat, i = fnIdx hp fn ∧ Served s who ∧ 64 ≤ width ∧ fn < 256 ∧ hp < 2
        ∧ (who = .fn hp fn ∨ who = .fn hp 0 ∨ (who = .mgmt ∧ hp = 0)) ∧ rd s F.qmCmdStatSt i ≠ 1 ∧ serving s hp = true)
    ∧ (∃ s : State, ∃ who : Who, ∃ hp fn width : Nat, Served s who ∧ 64 ≤ width ∧ fn < 256 ∧ hp < 2
        ∧ (who = .fn hp fn ∨ who = .fn hp 0 ∨ (who = .mgmt ∧ hp = 0)) ∧ rd s F.qmCmdStatSt (fnIdx hp fn) = 1)
    ∧ (∃ s : State, ∃ who : Who, ∃ hp fn width : Nat, Served s who ∧ 64 ≤ width ∧ fn < 256 ∧ hp < 2
        ∧ (who = .fn hp fn ∨ who = .fn hp 0 ∨ (who = .mgmt ∧ hp = 0)) ∧ rd s F.qmCmdStatSt (fnIdx hp fn) ≠ 1 ∧ serving s hp = false)
    ∧ (∃ s : State, ∃ who : Who, ∃ hp fn width i : Nat, i = fnIdx hp fn ∧ Served s who ∧ 64 ≤ width ∧ fn < 256 ∧ hp < 2
        ∧ (who = .fn hp fn ∨ who = .fn hp 0 ∨ (who = .mgmt ∧ hp = 0)) ∧ rd s F.qmCmdStatSt i ≠ 1 ∧ serving s hp = true)
    ∧ (∃ s : State, ∃ who : Who, ∃ hp fn width : Nat, Served s who ∧ 64 ≤ width ∧ fn < 256 ∧ hp < 2
        ∧ (who = .fn hp fn ∨ who = .fn hp 0 ∨ (who = .mgmt ∧ hp = 0)) ∧ rd s F.qmCmdStatSt (fnIdx hp fn) = 1)
    ∧ (∃ s : State, ∃ who : Who, ∃ hp fn width : Nat, Served s who ∧ 64 ≤ width ∧ fn < 256 ∧ hp < 2
        ∧ (who = .fn hp fn ∨ who = .fn hp 0 ∨ (who = .mgmt ∧ hp = 0)) ∧ rd s F.qmCmdStatSt (fnIdx hp fn) ≠ 1 ∧ serving s hp = false)
    ∧ (∃ s : State, ∃ who : Who, ∃ hp fn width i : Nat, i = fnIdx hp fn ∧ Served s who ∧ 64 ≤ width ∧ fn < 256 ∧ hp < 2
        ∧ (who = .fn hp fn ∨ who = .fn hp 0 ∨ (who = .mgmt ∧ hp = 0)) ∧ rd s F.qmCmdStatSt i ≠ 1 ∧ serving s hp = true)
    ∧ (∃ s : State, ∃ who : Who, ∃ hp fn width : Nat, Served s who ∧ 64 ≤ width ∧ fn < 256 ∧ hp < 2
        ∧ (who = .fn hp fn ∨ who = .fn hp 0 ∨ (who = .mgmt ∧ hp = 0)) ∧ rd s F.qmCmdStatSt (fnIdx hp fn) = 1)
    ∧ (∃ s : State, ∃ who : Who, ∃ hp fn width : Nat, Served s who ∧ 64 ≤ width ∧ fn < 256 ∧ hp < 2
        ∧ (who = .fn hp fn ∨ who = .fn hp 0 ∨ (who = .mgmt ∧ hp = 0)) ∧ rd s F.qmCmdStatSt (fnIdx hp fn) ≠ 1 ∧ serving s hp = false)
    ∧ (∃ s : State, ∃ who : Who, ∃ hp fn width i : Nat, i = fnIdx hp fn ∧ Served s who ∧ 64 ≤ width ∧ fn < 256 ∧ hp < 2
        ∧ (who = .fn hp fn ∨ who = .fn hp 0 ∨ (who = .mgmt ∧ hp = 0)) ∧ rd s F.qmCmdStatSt i ≠ 1 ∧ serving s hp = true)
    ∧ (∃ s : State, ∃ who : Who, ∃ hp fn width : Nat, Served s who ∧ 64 ≤ width ∧ fn < 256 ∧ hp < 2
        ∧ (who = .fn hp fn ∨ who = .fn hp 0 ∨ (who = .mgmt ∧ hp = 0)) ∧ rd s F.qmCmdStatSt (fnIdx hp fn) = 1)
    ∧ (∃ s : State, ∃ who : Who, ∃ hp fn width : Nat, Served s who ∧ 64 ≤ width ∧ fn < 256 ∧ hp < 2
        ∧ (who = .fn hp fn ∨ who = .fn hp 0 ∨ (who = .mgmt ∧ hp = 0)) ∧ rd s F.qmCmdStatSt (fnIdx hp fn) ≠ 1 ∧ serving s hp = false)
    ∧ (∃ s : State, ∃ who : Who, ∃ hp fn width i : Nat, i = fnIdx hp fn ∧ Served s who ∧ 64 ≤ width ∧ fn < 256 ∧ hp < 2
        ∧ (who = .fn hp fn ∨ who = .fn hp 0 ∨ (who = .mgmt ∧ hp = 0)) ∧ rd s F.qmCmdStatSt i ≠ 1 ∧ serving s hp = true)
    ∧ (∃ s : State, ∃ who : Who, ∃ hp fn width : Nat, Served s who ∧ 64 ≤ width ∧ fn < 256 ∧ hp < 2
        ∧ (who = .fn hp fn ∨ who = .fn hp 0 ∨ (who = .mgmt ∧ hp = 0)) ∧ rd s F.qmCmdStatSt (fnIdx hp fn) = 1)
    ∧ (∃ s : State, ∃ who : Who, ∃ hp fn width : Nat, Served s who ∧ 64 ≤ width ∧ fn < 256 ∧ hp < 2
        ∧ (who = .fn hp fn ∨ who = .fn hp 0 ∨ (who = .mgmt ∧ hp = 0)) ∧ rd s F.qmCmdStatSt (fnIdx hp fn) ≠ 1 ∧ serving s hp = false)
    ∧ (∃ s : State, ∃ who : Who, ∃ hp fn width i : Nat, i = fnIdx hp fn ∧ Served s who ∧ 64 ≤ width ∧ fn < 256 ∧ hp < 2
        ∧ (who = .fn hp fn ∨ who = .fn hp 0 ∨ (who = .mgmt ∧ hp = 0)) ∧ rd s F.qmCmdStatSt i ≠ 1 ∧ serving s hp = true)
    ∧ (∃ s : State, ∃ who : Who, ∃ hp fn width : Nat, Served s who ∧ 64 ≤ width ∧ fn < 256 ∧ hp < 2
        ∧ (who = .fn hp fn ∨ who = .fn hp 0 ∨ (who = .mgmt ∧ hp = 0)) ∧ rd s F.qmCmdStatSt (fnIdx hp fn) = 1)
    ∧ (∃ s : State, ∃ who : Who, ∃ hp fn width : Nat, Served s who ∧ 64 ≤ width ∧ fn < 256 ∧ hp < 2
        ∧ (who = .fn hp fn ∨ who = .fn hp 0 ∨ (who = .mgmt ∧ hp = 0)) ∧ rd s F.qmCmdStatSt (fnIdx hp fn) ≠ 1 ∧ serving s hp = false)
    ∧ (∃ s : State, ∃ hp fn a0 : Nat, ∃ e : Evq, bits a0 0 2 = 0 ∧ bits a0 16 16 < 4096
        ∧ mget s.hi.eqs (eqKey hp (bits a0 16 16)) = some e ∧ e.fn = fn)
    ∧ (∃ s : State, ∃ hp fn a0 : Nat, ∃ q : Cq, bits a0 0 2 = 1 ∧ bits a0 16 16 < 16384
        ∧ mget s.hi.cqs (qKey hp (bits a0 16 16)) = some q ∧ q.fn = fn)
    ∧ (∃ s : State, ∃ hp fn a0 k : Nat, ∃ w : Wq, bits a0 0 2 = 2 ∧ bits a0 16 16 < 16384 ∧ k = qKey hp (bits a0 16 16)
        ∧ mget s.hi.wqs k = some w ∧ w.fn = fn)
    ∧ (∃ a0 : Nat, (bits a0 0 2 = 3 ∨ (bits a0 0 2 = 0 ∧ 4096 ≤ bits a0 16 16) ∨ ((bits a0 0 2 = 1 ∨ bits a0 0 2 = 2)
        ∧ 16384 ≤ bits a0 16 16)))
    ∧ (∃ s : State, ∃ hp a0 : Nat, ((bits a0 0 2 = 0 ∧ bits a0 16 16 < 4096
        ∧ mget s.hi.eqs (eqKey hp (bits a0 16 16)) = none) ∨ (bits a0 0 2 = 1 ∧ bits a0 16 16 < 16384
        ∧ mget s.hi.cqs (qKey hp (bits a0 16 16)) = none) ∨ (bits a0 0 2 = 2 ∧ bits a0 16 16 < 16384
        ∧ mget s.hi.wqs (qKey hp (bits a0 16 16)) = none)))
    ∧ (∃ s : State, ∃ hp fn a0 : Nat, ((∃ e, bits a0 0 2 = 0 ∧ bits a0 16 16 < 4096 ∧ mget s.hi.eqs (eqKey hp (bits a0 16 16)) = some e
        ∧ e.fn ≠ fn) ∨ (∃ q, bits a0 0 2 = 1 ∧ bits a0 16 16 < 16384 ∧ mget s.hi.cqs (qKey hp (bits a0 16 16)) = some q
        ∧ q.fn ≠ fn) ∨ (∃ w, bits a0 0 2 = 2 ∧ bits a0 16 16 < 16384 ∧ mget s.hi.wqs (qKey hp (bits a0 16 16)) = some w ∧ w.fn ≠ fn))) :=
  ⟨⟨run, .fn 0 1, 0, 1, 64, _, rfl, servedOf (by decide +kernel), by decide +kernel⟩,
   ⟨wr run F.qmCmdStatSt 1 1, .fn 0 0, 0, 1, 64, servedOf (by decide +kernel), by decide +kernel⟩,
   ⟨wrb run F.modeStatHp0Serving false, .mgmt, 0, 1, 64, servedOf (by decide +kernel), by decide +kernel⟩,
   ⟨run, .fn 0 1, 0, 1, 64, _, rfl, servedOf (by decide +kernel), by decide +kernel⟩,
   ⟨wr run F.qmCmdStatSt 1 1, .fn 0 0, 0, 1, 64, servedOf (by decide +kernel), by decide +kernel⟩,
   ⟨wrb run F.modeStatHp0Serving false, .mgmt, 0, 1, 64, servedOf (by decide +kernel), by decide +kernel⟩,
   ⟨run, .fn 0 1, 0, 1, 64, _, rfl, servedOf (by decide +kernel), by decide +kernel⟩,
   ⟨wr run F.qmCmdStatSt 1 1, .fn 0 0, 0, 1, 64, servedOf (by decide +kernel), by decide +kernel⟩,
   ⟨wrb run F.modeStatHp0Serving false, .mgmt, 0, 1, 64, servedOf (by decide +kernel), by decide +kernel⟩,
   ⟨run, .fn 0 1, 0, 1, 64, _, rfl, servedOf (by decide +kernel), by decide +kernel⟩,
   ⟨wr run F.qmCmdStatSt 1 1, .fn 0 0, 0, 1, 64, servedOf (by decide +kernel), by decide +kernel⟩,
   ⟨wrb run F.modeStatHp0Serving false, .mgmt, 0, 1, 64, servedOf (by decide +kernel), by decide +kernel⟩,
   ⟨run, .fn 0 1, 0, 1, 64, _, rfl, servedOf (by decide +kernel), by decide +kernel⟩,
   ⟨wr run F.qmCmdStatSt 1 1, .fn 0 0, 0, 1, 64, servedOf (by decide +kernel), by decide +kernel⟩,
   ⟨wrb run F.modeStatHp0Serving false, .mgmt, 0, 1, 64, servedOf (by decide +kernel), by decide +kernel⟩,
   ⟨run, .fn 0 1, 0, 1, 64, _, rfl, servedOf (by decide +kernel), by decide +kernel⟩,
   ⟨wr run F.qmCmdStatSt 1 1, .fn 0 0, 0, 1, 64, servedOf (by decide +kernel), by decide +kernel⟩,
   ⟨wrb run F.modeStatHp0Serving false, .mgmt, 0, 1, 64, servedOf (by decide +kernel), by decide +kernel⟩,
   ⟨run, .fn 0 1, 0, 1, 64, _, rfl, servedOf (by decide +kernel), by decide +kernel⟩,
   ⟨wr run F.qmCmdStatSt 1 1, .fn 0 0, 0, 1, 64, servedOf (by decide +kernel), by decide +kernel⟩,
   ⟨wrb run F.modeStatHp0Serving false, .mgmt, 0, 1, 64, servedOf (by decide +kernel), by decide +kernel⟩,
   ⟨run, .fn 0 1, 0, 1, 64, _, rfl, servedOf (by decide +kernel), by decide +kernel⟩,
   ⟨wr run F.qmCmdStatSt 1 1, .fn 0 0, 0, 1, 64, servedOf (by decide +kernel), by decide +kernel⟩,
   ⟨wrb run F.modeStatHp0Serving false, .mgmt, 0, 1, 64, servedOf (by decide +kernel), by decide +kernel⟩,
   ⟨{ mem with hi := { mem.hi with eqs := [(0, evq)] } }, 0, 0, 0, evq, by decide +kernel⟩,
   ⟨mem, 0, 0, 1, cq, by decide +kernel⟩,
   ⟨withWq wq, 0, 0, 2, _, wq, by decide +kernel, by decide +kernel, rfl, by decide +kernel⟩,
   ⟨3, by decide +kernel⟩,
   ⟨mem, 0, 1 + 2 ^ 16, by decide +kernel⟩,
   ⟨mem, 0, 1, 1, Or.inr (Or.inl ⟨cq, by decide +kernel⟩)⟩⟩

theorem witness_CreatedQueuesStartEmpty :
    (∃ fn a0 a1 : Nat, ringArgsOk fn a0 a1 = false)
    ∧ (∃ s : State, ∃ hp fn a0 a1 : Nat, ringArgsOk fn a0 a1 = true ∧ freeEq s hp fn = none)
    ∧ (∃ s : State, ∃ hp fn a0 a1 n : Nat, ringArgsOk fn a0 a1 = true ∧ freeEq s hp fn = some n)
    ∧ (∃ s : State, ∃ hp fn a0 a1 n : Nat, ringArgsOk fn a0 a1 = true ∧ freeCq s hp fn = some n)
    ∧ (∃ s : State, ∃ hp fn a0 a1 a2 : Nat, ∃ q : Cq, ∃ c : EcCtx, ∃ n : Nat, 6 ≤ bits a1 0 5 ∧ bits a1 0 5 ≤ 16 ∧ a0 % 4096 = 0
        ∧ a2 % 8 = 0 ∧ mget s.hi.cqs (qKey hp (bits a1 16 14)) = some q ∧ q.fn = fn ∧ ctxOf s (bits a1 32 20) = some c ∧ c.hp = hp
        ∧ c.fn = fn ∧ c.closing = false ∧ c.state = 1 ∧ freeWq s hp fn = some n)
    ∧ (∃ s : State, ∃ hp fn a0 a1 : Nat, ∃ q : Cq, bits a1 17 3 = 0 ∧ domServes s (bits a1 0 12) hp fn = true
        ∧ mget s.hi.cqs (qKey hp (bits a1 32 14)) = some q ∧ q.fn = fn
        ∧ vfGrants s hp fn F.hiVfMapEcMax (mcount s.tp.ecs fun _ c => c.hp == hp && c.fn == fn) = true ∧ bitAt a0 20 = false
        ∧ ctxOf s (bits a0 0 20) = none ∧ ecAllowed s hp (bits a0 0 20) = true) :=
  ⟨⟨0, 0, 0, by decide +kernel⟩,
   ⟨run, 0, 1, 0, 6 + 2 ^ 32, by decide +kernel⟩,
   ⟨run, 0, 0, 0, 6 + 2 ^ 32, 0, by decide +kernel⟩,
   ⟨run, 0, 0, 0, 6 + 2 ^ 32, 0, by decide +kernel⟩,
   ⟨mem, 0, 0, 0x20000, 6 + 2 ^ 32, 0, cq, ctx, 0, by decide +kernel⟩,
   ⟨mem, 0, 0, 5, 1, cq, by decide +kernel⟩⟩

theorem witness_CompletionQueueCommandsComplete :
    (∃ s : State, ∃ who : Who, ∃ hp fn width : Nat, ∃ val : Word, Served s who ∧ 64 ≤ width ∧ fn < 256 ∧ hp < 2
        ∧ (who = .fn hp fn ∨ who = .fn hp 0 ∨ (who = .mgmt ∧ hp = 0)) ∧ wordLegal (fieldsAt (fnPageKey hp fn 0x1000)) val = true)
    ∧ (∃ s : State, ∃ who : Who, ∃ hp fn width : Nat, ∃ val : Word, Served s who ∧ 64 ≤ width ∧ fn < 256 ∧ hp < 2
        ∧ (who = .fn hp fn ∨ who = .fn hp 0 ∨ (who = .mgmt ∧ hp = 0)) ∧ wordLegal (fieldsAt (fnPageKey hp fn 0x1008)) val = true)
    ∧ (∃ s : State, ∃ hp fn : Nat, ∃ w : Word, (∀ q,
        mget s.hi.cqs (qKey hp (wordGet w 32 14)) = some q → q.fn ≠ fn ∨ ciOk q.log2 q.pi q.ci (wordGet w 0 17) = false))
    ∧ (∃ s : State, ∃ hp fn : Nat, ∃ w : Word, (∀ e,
        mget s.hi.eqs (eqKey hp (wordGet w 32 12)) = some e → e.fn ≠ fn ∨ ciOk e.log2 e.pi e.ci (wordGet w 0 17) = false))
    ∧ (∃ s : State, ∃ hp fn : Nat, ∃ w : Word, ∃ q : Cq, mget s.hi.cqs (qKey hp (wordGet w 32 14)) = some q ∧ q.fn = fn
        ∧ ciOk q.log2 q.pi q.ci (wordGet w 0 17) = true ∧ q.held = [])
    ∧ (∃ s : State, ∃ hp fn : Nat, ∃ w : Word, ∃ e : Evq, mget s.hi.eqs (eqKey hp (wordGet w 32 12)) = some e ∧ e.fn = fn
        ∧ ciOk e.log2 e.pi e.ci (wordGet w 0 17) = true ∧ e.lost = 0)
    ∧ (∃ s : State, ∃ hp fn : Nat, ∃ w : Word, ∃ e : Evq, mget s.hi.eqs (eqKey hp (wordGet w 32 12)) = some e ∧ e.fn = fn
        ∧ ciOk e.log2 e.pi e.ci (wordGet w 0 17) = true ∧ e.lost ≠ 0 ∧ ringFull e.log2 e.pi (wordGet w 0 17) = false ∧ wordGet w 17 1 = 0)
    ∧ (∃ s : State, ∃ now hp n : Nat, ∃ q : Cq, mget s.hi.cqs (qKey hp n) = some q ∧ q.armed = true ∧ q.pi ≠ q.ci ∧ q.firstAt ≠ none
        ∧ modOver (atTime s now) q.firstAt q.modUs = true)
    ∧ (∃ s : State, ∃ now hp n : Nat, ∃ q : Cq, mget s.hi.cqs (qKey hp n) = some q
        ∧ (q.armed = false ∨ q.pi = q.ci ∨ q.firstAt = none ∨ modOver (atTime s now) q.firstAt q.modUs = false))
    ∧ (∃ s : State, ∃ now hp n : Nat, ∃ e : Evq, mget s.hi.eqs (eqKey hp n) = some e ∧ e.armed = true ∧ e.pi ≠ e.ci ∧ e.firstAt ≠ none
        ∧ modOver (atTime s now) e.firstAt e.modUs = true)
    ∧ (∃ s : State, ∃ now hp n : Nat, ∃ e : Evq, mget s.hi.eqs (eqKey hp n) = some e
        ∧ (e.armed = false ∨ e.pi = e.ci ∨ e.firstAt = none ∨ modOver (atTime s now) e.firstAt e.modUs = false))
    ∧ (∃ s : State, ∃ now hp n : Nat, ∃ q : Cq, ∃ full : Nat, mget s.hi.cqs (qKey hp n) = some q ∧ q.fullSince = some full
        ∧ q.state = .ready ∧ ringFull q.log2 q.pi q.ci = true ∧ full + rd s F.qmCqStallLimitMs hp * 1000000 ≤ (atTime s now).timeNs)
    ∧ (∃ s : State, ∃ hp n : Nat, ∃ q : Cq, mget s.hi.cqs (qKey hp n) = some q
        ∧ (q.fullSince = none ∨ q.state = .error ∨ ringFull q.log2 q.pi q.ci = false)) :=
  ⟨⟨mem, .fn 0 1, 0, 1, 64, 0, servedOf (by decide +kernel), by decide +kernel⟩,
   ⟨mem, .fn 0 1, 0, 1, 64, 0, servedOf (by decide +kernel), by decide +kernel⟩,
   ⟨run, 0, 0, 0, noneOf (by decide +kernel)⟩,
   ⟨run, 0, 0, 0, noneOf (by decide +kernel)⟩,
   ⟨mem, 0, 0, 0, cq, by decide +kernel⟩,
   ⟨{ mem with hi := { mem.hi with eqs := [(0, evq)] } }, 0, 0, 0, evq, by decide +kernel⟩,
   ⟨{ mem with hi := { mem.hi with eqs := [(0, { evq with lost := 1 })] } }, 0, 0, 0, { evq with lost := 1 }, by decide +kernel⟩,
   ⟨{ mem with hi := { mem.hi with cqs := [(0, { cq with armed := true, pi := 1, firstAt := some 0 })] } }, 0, 0, 0,
       { cq with armed := true, pi := 1, firstAt := some 0 }, by decide +kernel⟩,
   ⟨mem, 0, 0, 0, cq, by decide +kernel⟩,
   ⟨{ mem with hi := { mem.hi with eqs := [(0, { evq with armed := true, pi := 1, firstAt := some 0 })] } }, 0, 0, 0,
       { evq with armed := true, pi := 1, firstAt := some 0 }, by decide +kernel⟩,
   ⟨{ mem with hi := { mem.hi with eqs := [(0, evq)] } }, 0, 0, 0, evq, by decide +kernel⟩,
   ⟨{ mem with hi := { mem.hi with cqs := [(0, { cq with pi := 64, fullSince := some 0 })] } }, 10 ^ 15, 0, 0,
       { cq with pi := 64, fullSince := some 0 }, 0, by decide +kernel⟩,
   ⟨mem, 0, 0, cq, by decide +kernel⟩⟩

theorem witness_PortCommandsComplete :
    (∃ s : State, ∃ hp : Nat, hp < 2 ∧ (portOf s hp).perstLow = false)
    ∧ (∃ s : State, ∃ hp : Nat, (portOf s hp).perstLow = true)
    ∧ (∃ s : State, ∃ hp : Nat, rdb s F.hiPortStatLinkUp hp = false)
    ∧ (∃ s : State, ∃ hp : Nat, hp < 2 ∧ rdb s F.hiPortStatLinkUp hp = true)
    ∧ (∃ s : State, ∃ hp : Nat, hp < 2 ∧ rdb s F.hiPortStatLinkUp hp = true)
    ∧ (∃ s : State, ∃ hp : Nat, hp < 2 ∧ (portOf s hp).resetting = true ∧ portAccs s hp = false ∧ fnsFree s hp none = true
        ∧ (portOf s hp).perstLow = false)
    ∧ (∃ s : State, ∃ hp : Nat,
        ((portOf s hp).resetting = false ∨ portAccs s hp = true ∨ fnsFree s hp none = false ∨ (portOf s hp).perstLow = true))
    ∧ (∃ s : State, ∃ hp : Nat, ∃ flit : Bool, ∃ speed width : Nat,
        (flit = false ∨ (portOf s hp).perstLow = true ∨ rdb s F.hiPortStatLinkUp hp = true ∨ speed = 0 ∨ 3 < speed ∨ width ∉ [4, 8,
        16] ∨ s.pw.tripped = true))
    ∧ (∃ s : State, ∃ hp : Nat, configAnswers s hp 0 = false)
    ∧ (∃ s : State, ∃ hp speed width : Nat, hp < 2 ∧ (portOf s hp).perstLow = false ∧ rdb s F.hiPortStatLinkUp hp = false ∧ 1 ≤ speed
        ∧ speed ≤ 3 ∧ width ∈ [4, 8, 16] ∧ s.pw.tripped = false)
    ∧ (∃ s : State, ∃ now hp : Nat, ∃ t : State, configAnswers s hp 0 = true ∧ t = wakePort (atTime s now) hp) :=
  ⟨⟨run, 0, by decide +kernel⟩,
   ⟨setPort run 0 { perstLow := true }, 0, by decide +kernel⟩,
   ⟨run, 1, by decide +kernel⟩,
   ⟨run, 0, by decide +kernel⟩,
   ⟨run, 0, by decide +kernel⟩,
   ⟨setPort run 0 { cfg := (portOf run 0).cfg, resetting := true }, 0, by decide +kernel⟩,
   ⟨run, 0, by decide +kernel⟩,
   ⟨State.reset, 0, false, 3, 16, by decide +kernel⟩,
   ⟨run, 1, by decide +kernel⟩,
   ⟨State.reset, 0, 3, 16, by decide +kernel⟩,
   ⟨run, 0, 0, _, by decide +kernel, rfl⟩⟩

theorem witness_FunctionAndPowerStateCommandsComplete :
    (∃ s : State, ∃ hp fn : Nat, configAnswers s hp fn = true ∧ (portOf s hp).resetting = false)
    ∧ (∃ s : State, ∃ hp fn : Nat, (configAnswers s hp fn = false ∨ (portOf s hp).resetting = true))
    ∧ (∃ s : State, ∃ hp fn : Nat, mhas (portOf s hp).flr fn = true ∧ fnsFree s hp (if fn = 0 then none else some fn) = true)
    ∧ (∃ s : State, ∃ hp fn : Nat, (mhas (portOf s hp).flr fn = false ∨ fnsFree s hp (if fn = 0 then none else some fn) = false))
    ∧ (∃ s : State, ∃ now hp fn at' : Nat, mget (portOf s hp).flr fn = some at' ∧ at' + 100000000 ≤ (atTime s now).timeNs)
    ∧ (∃ s : State, ∃ hp : Nat, configAnswers s hp 0 = true ∧ (portOf s hp).cfg.vfEnable = true ∧ (portOf s hp).resetting = false)
    ∧ (∃ s : State, ∃ hp fn : Nat, configAnswers s hp fn = true ∧ (portOf s hp).d3hot.contains fn = false)
    ∧ (∃ s : State, ∃ hp fn : Nat, configAnswers s hp fn = true ∧ (portOf s hp).d3hot.contains fn = true)
    ∧ (∃ s : State, ∃ hp lowNs : Nat, rdb s F.hiPortStatLinkUp hp = true ∧ rdb s F.hiPmL0pEn hp = true ∧ rd s F.hiPortStatPm hp = 0
        ∧ 4 < rd s F.hiPortStatL0pWidth hp ∧ rd s F.hiPmL0pIdleUs hp * 1000 ≤ lowNs)
    ∧ (∃ s : State, ∃ hp queued : Nat, rdb s F.hiPortStatLinkUp hp = true ∧ 4096 < queued)
    ∧ (∃ s : State, ∃ hp idleNs : Nat, rdb s F.hiPortStatLinkUp hp = true ∧ (portOf s hp).cfg.aspmL1 = true ∧ rd s F.hiPortStatPm hp = 0
        ∧ (∀ id a, (id, a) ∈ s.gw.accs → a.hp ≠ hp) ∧ (wbPort s ≠ some hp ∨ (∀ i l, (i, l) ∈ s.gw.lines → l.wants = false))
        ∧ rd s F.hiPmL1IdleUs hp * 1000 ≤ idleNs)
    ∧ (∃ s : State, ∃ hp : Nat, rdb s F.hiPortStatLinkUp hp = false) :=
  ⟨⟨run, 0, 1, by decide +kernel⟩,
   ⟨run, 1, 1, by decide +kernel⟩,
   ⟨setPort run 0 { portOf run 0 with flr := [(1, 0)] }, 0, 1, by decide +kernel⟩,
   ⟨run, 0, 1, by decide +kernel⟩,
   ⟨setPort run 0 { portOf run 0 with flr := [(1, 0)] }, 10 ^ 9, 0, 1, 0, by decide +kernel⟩,
   ⟨run, 0, by decide +kernel⟩,
   ⟨run, 0, 1, by decide +kernel⟩,
   ⟨setPort run 0 { portOf run 0 with d3hot := [0] }, 0, 0, by decide +kernel⟩,
   ⟨wr (wrb run F.hiPmL0pEn true 0) F.hiPortStatL0pWidth 16 0, 0, 10 ^ 9, by decide +kernel⟩,
   ⟨run, 0, 4097, by decide +kernel⟩,
   ⟨setPort run 0 { portOf run 0 with cfg := { (portOf run 0).cfg with aspmL1 := true } }, 0, 10 ^ 9, by decide +kernel,
       by decide +kernel, by decide +kernel, noMember (by decide +kernel), Or.inl (by decide +kernel), by decide +kernel⟩,
   ⟨run, 1, by decide +kernel⟩⟩

theorem witness_GroupCommandsComplete :
    (∃ s : State, ∃ who : Who, ∃ width g : Nat, Served s who ∧ 64 ≤ width ∧ isPf0 who = true ∧ g < 4096 ∧ rdb s F.clGroupValid g = true)
    ∧ (∃ s : State, ∃ who : Who, ∃ width g : Nat, Served s who ∧ 64 ≤ width ∧ isPf0 who = true ∧ g < 4096
        ∧ rdb s F.clGroupValid g = false)
    ∧ (∃ s : State, ∃ who : Who, ∃ width g : Nat, Served s who ∧ 64 ≤ width ∧ isPf0 who = true ∧ g < 4096 ∧ rd s F.clGroupState g = 2)
    ∧ (∃ s : State, ∃ who : Who, ∃ width g : Nat, Served s who ∧ 64 ≤ width ∧ isPf0 who = true ∧ g < 4096 ∧ rd s F.clGroupState g ≠ 2)
    ∧ (∃ s : State, ∃ who : Who, ∃ width g : Nat, Served s who ∧ 64 ≤ width ∧ isPf0 who = false ∧ g < 4096)
    ∧ (∃ s : State, ∃ now g dev seq psn : Nat, ∃ abort : Bool, ∃ id : Nat, ∃ p : CollPkt, collWaits s g dev seq psn abort = some (id, p)
        ∧ holdOn s = false ∧ p.at' + hopWait s p ≤ (atTime s now).timeNs ∧ (p.busy = true ∨ p.retries < rd s F.clCfgHopRetries))
    ∧ (∃ s : State, ∃ now g dev seq psn : Nat, ∃ abort : Bool, ∃ id : Nat, ∃ p : CollPkt, collWaits s g dev seq psn abort = some (id, p)
        ∧ holdOn s = false ∧ p.at' + hopWait s p ≤ (atTime s now).timeNs ∧ p.busy = false ∧ rd s F.clCfgHopRetries ≤ p.retries)
    ∧ (∃ s : State, ∃ now g dev seq psn : Nat, ∃ abort : Bool, ∃ id : Nat, ∃ p : CollPkt, collWaits s g dev seq psn abort = some (id, p)
        ∧ (holdOn s = true ∨ (atTime s now).timeNs < p.at' + hopWait s p))
    ∧ (∃ s : State, ∃ now g seq : Nat, ∃ o : CollOp, mget (grp s g).ops seq = some o ∧ holdOn s = false ∧ o.done = false
        ∧ rd s F.clCfgOpLimitMs ≠ 0 ∧ o.since + rd s F.clCfgOpLimitMs * 1000000 ≤ (atTime s now).timeNs)
    ∧ (∃ s : State, ∃ now g seq : Nat, ∃ o : CollOp, mget (grp s g).ops seq = some o
        ∧ (holdOn s = true ∨ o.done = true ∨ rd s F.clCfgOpLimitMs = 0 ∨ (atTime s now).timeNs < o.since + rd s F.clCfgOpLimitMs * 1000000))
    ∧ (∃ s : State, ∃ now g seq at' : Nat, ∃ p : Pkt, mget (grp s g).ops seq = none ∧ (at', p) ∈ (grp s g).early ∧ p.msgid = seq
        ∧ holdOn s = false ∧ rd s F.clCfgOpLimitMs ≠ 0 ∧ at' + rd s F.clCfgOpLimitMs * 1000000 ≤ (atTime s now).timeNs) :=
  ⟨⟨wrb run F.clGroupValid true 5, .fn 0 0, 64, 5, servedOf (by decide +kernel), by decide +kernel⟩,
   ⟨run, .fn 0 0, 64, 5, servedOf (by decide +kernel), by decide +kernel⟩,
   ⟨armed 2 run, .fn 0 0, 64, 5, servedOf (by decide +kernel), by decide +kernel⟩,
   ⟨armed 1 run, .fn 0 0, 64, 5, servedOf (by decide +kernel), by decide +kernel⟩,
   ⟨run, .fn 0 1, 64, 5, servedOf (by decide +kernel), by decide +kernel⟩,
   ⟨hopping hopPkt, 10 ^ 12, 5, 130, 9, 0, false, 0, hopPkt, by decide +kernel⟩,
   ⟨hopping { hopPkt with retries := 99 }, 10 ^ 12, 5, 130, 9, 0, false, 0, { hopPkt with retries := 99 }, by decide +kernel⟩,
   ⟨hopping hopPkt, 0, 5, 130, 9, 0, false, 0, hopPkt, by decide +kernel⟩,
   ⟨wr (hopping hopPkt) F.clCfgOpLimitMs 1, 10 ^ 12, 5, 9, collOp, by decide +kernel⟩,
   ⟨wr (hopping hopPkt) F.clCfgOpLimitMs 0, 10 ^ 12, 5, 9, collOp, by decide +kernel⟩,
   ⟨wr { group false with cl := { groups := [(5, { early := [(0, (pkt opClUp 0 0 9 1 []))] })] } } F.clCfgOpLimitMs 1, 10 ^ 12, 5, 9, 0,
       (pkt opClUp 0 0 9 1 []), by decide +kernel, List.mem_singleton.mpr rfl, by decide +kernel⟩⟩

theorem witness_ExchangeCommandsComplete :
    (∃ s : State, ∃ width j : Nat, ∃ val : Word, Served s (.fn (rd s F.exJobHp j) 0) ∧ 64 ≤ width ∧ j < 64
        ∧ wordLegal (fieldsAt (F.exRingCi.key j)) val = true ∧ val.toNat ≤ rd s F.exRingPi j)
    ∧ (∃ s : State, ∃ who : Who, ∃ width j : Nat, ∃ val : Word, Served s who ∧ 64 ≤ width ∧ j < 64
        ∧ wordLegal (fieldsAt (F.exRingCi.key j)) val = true ∧ (who ≠ .fn (rd s F.exJobHp j) 0 ∨ rd s F.exRingPi j < val.toNat))
    ∧ (∃ s : State, ∃ now j dev ec id : Nat, ∃ b : ExBatch, openBatch s j dev ec = some (id, b) ∧ holdOn s = false
        ∧ b.since + rd s F.exCfgBatchUs * 1000 ≤ (atTime s now).timeNs)
    ∧ (∃ s : State, ∃ now j dev ec id : Nat, ∃ b : ExBatch, openBatch s j dev ec = some (id, b)
        ∧ (holdOn s = true ∨ (atTime s now).timeNs < b.since + rd s F.exCfgBatchUs * 1000))
    ∧ (∃ s : State, ∃ now j dev q id : Nat, ∃ b : ExBatch,
        ((job s j).batches.find? fun e => e.2.dev == dev && e.2.bseq == some q && e.2.sent) = some (id, b) ∧ holdOn s = false
        ∧ b.sentAt + batchWait s b ≤ (atTime s now).timeNs ∧ (b.noroom = true ∨ b.retries < rd s F.exCfgRetries))
    ∧ (∃ s : State, ∃ now j dev q id : Nat, ∃ b : ExBatch,
        ((job s j).batches.find? fun e => e.2.dev == dev && e.2.bseq == some q && e.2.sent) = some (id, b) ∧ holdOn s = false
        ∧ b.sentAt + batchWait s b ≤ (atTime s now).timeNs ∧ b.noroom = false ∧ rd s F.exCfgRetries ≤ b.retries)
    ∧ (∃ s : State, ∃ now j dev q id : Nat, ∃ b : ExBatch,
        ((job s j).batches.find? fun e => e.2.dev == dev && e.2.bseq == some q && e.2.sent) = some (id, b)
        ∧ (holdOn s = true ∨ (atTime s now).timeNs < b.sentAt + batchWait s b))
    ∧ (∃ s : State, ∃ now j dev : Nat, ∃ x : ExStream, mget (job s j).streams dev = some x ∧ holdOn s = false
        ∧ streamShut (job s j) dev x = true ∧ x.probeAt + rd s F.exCfgBackoffUs * 1000 ≤ (atTime s now).timeNs)
    ∧ (∃ s : State, ∃ now j dev : Nat, ∃ x : ExStream, mget (job s j).streams dev = some x
        ∧ (holdOn s = true ∨ streamShut (job s j) dev x = false ∨ (atTime s now).timeNs < x.probeAt + rd s F.exCfgBackoffUs * 1000))
    ∧ (∃ s : State, ∃ j : Nat, (job s j).arrival = [])
    ∧ (∃ s : State, ∃ j dev q : Nat, ∃ rest : List (Nat × Nat), (job s j).arrival = (dev, q) :: rest
        ∧ 2 ^ rd s F.exRingLog2 j < rd s F.exRingPi j - rd s F.exRingCi j + ((mget (mgetD (job s j).recvs dev {}).staged q).getD []).length)
    ∧ (∃ s : State, ∃ now j dev q : Nat, ∃ rest : List (Nat × Nat), ∃ t : State, ∃ r : ExRecv, ∃ bs : List Byte, ∃ pi : Nat, ∃ u : State,
        ∃ l : List (Nat × Nat), ∃ v : State, ∃ l' : List (Nat × Nat), t = atTime s now ∧ (job s j).arrival = (dev, q) :: rest
        ∧ rd s F.exJobState j ≠ 0 ∧ r = mgetD (job s j).recvs dev {} ∧ bs = (mget r.staged q).getD [] ∧ pi = rd s F.exRingPi j
        ∧ pi - rd s F.exRingCi j + bs.length ≤ 2 ^ rd s F.exRingLog2 j ∧ translateAdm t (ringAdm t j 1 (ringSpans t j pi bs.length)) = (u,
        .ok l) ∧ translateAdm u (ringAdm t j 1 [(rd t F.exRingPiDva j * 8, 8)]) = (v, .ok l'))
    ∧ (∃ s : State, ∃ now j full : Nat, (job s j).fullSince = some full ∧ (job s j).stallTold = false ∧ rd s F.exJobState j ≠ 0
        ∧ full + 100000000 ≤ (atTime s now).timeNs)
    ∧ (∃ s : State, ∃ j : Nat, ((job s j).fullSince = none ∨ (job s j).stallTold = true)) :=
  ⟨⟨jobIn 1 run, 64, 2, 5, servedOf (by decide +kernel), by decide +kernel⟩,
   ⟨jobIn 1 run, .fn 0 1, 64, 2, 5, servedOf (by decide +kernel), by decide +kernel⟩,
   ⟨jobWith { batches := [(0, (batch none false))] }, 10 ^ 12, 2, 130, 1, 0, batch none false, by decide +kernel⟩,
   ⟨jobWith { batches := [(0, (batch none false))] }, 0, 2, 130, 1, 0, batch none false, by decide +kernel⟩,
   ⟨jobWith { batches := [(0, (batch (some 4) true))] }, 10 ^ 12, 2, 130, 4, 0, batch (some 4) true, by decide +kernel⟩,
   ⟨jobWith { batches := [(0, { batch (some 4) true with retries := 99 })] }, 10 ^ 12, 2, 130, 4, 0,
       { batch (some 4) true with retries := 99 }, by decide +kernel⟩,
   ⟨jobWith { batches := [(0, (batch (some 4) true))] }, 0, 2, 130, 4, 0, batch (some 4) true, by decide +kernel⟩,
   ⟨jobWith { batches := [(0, (batch (some 4) false))], streams := [(130, { win := 0 })] }, 10 ^ 12, 2, 130, { win := 0 },
       by decide +kernel⟩,
   ⟨jobWith { batches := [(0, (batch (some 4) false))], streams := [(130, { win := 0 })] }, 0, 2, 130, { win := 0 }, by decide +kernel⟩,
   ⟨jobWith {}, 2, by decide +kernel⟩,
   ⟨jobWith { arrival := [(130, 4)], recvs := [(130, { staged := [(4, zeros 64)] })] }, 2, 130, 4, [], by decide +kernel⟩,
   ⟨wr (wr (wr (wr (jobWith { arrival := [(130, 4)], recvs := [(130, { staged := [(4, zeros 64)] })] }) F.exRingBase 0x100 2) F.exRingPiDva 0x20000 2) F.exRingLog2 12 2) F.exJobRxEc 1 2, 0, 2, 130, 4, [], _, _, _, _, _, [(0x5000, 64)], _, [(0x5000, 8)], rfl, by decide +kernel, by decide +kernel, rfl, rfl, rfl, by decide +kernel, endOf (by decide +kernel), endOf (by decide +kernel)⟩,
   ⟨jobWith { fullSince := some 0 }, 10 ^ 9, 2, 0, by decide +kernel⟩,
   ⟨jobWith {}, 2, by decide +kernel⟩⟩

theorem witness_AliasAndLockTimersComplete :
    (∃ s : State, ∃ now hp i : Nat, ∃ t : State, t = wakePort (atTime s now) hp ∧ i < 65536 ∧ holdOn t = false)
    ∧ (∃ s : State, ∃ now hp i : Nat, ∃ t : State, t = wakePort (atTime s now) hp ∧ i < 65536 ∧ holdOn t = false)
    ∧ (∃ s : State, ∃ now hp i : Nat, ∃ t : State, t = wakePort (atTime s now) hp ∧ i < 65536 ∧ holdOn t = false)
    ∧ (∃ s : State, ∃ now hp i : Nat, ∃ t : State, t = wakePort (atTime s now) hp ∧ i < 65536 ∧ holdOn t = false)
    ∧ (∃ s : State, ∃ now hp fn i : Nat, ∃ t : State, t = wakePort (atTime s now) hp ∧ i < 65536 ∧ holdOn t = true
        ∧ fnSilent t hp fn = false ∧ fnEnabled t hp fn = true)
    ∧ (∃ s : State, ∃ hp fn : Nat, (fnSilent s hp fn = true ∨ fnEnabled s hp fn = false))
    ∧ (∃ s : State, ∃ hp fn i : Nat, fnSilent s hp fn = false ∧ fnEnabled s hp fn = true ∧ aliasBound s hp fn i = false)
    ∧ (∃ s : State, ∃ hp fn i off : Nat, ∃ r : AliasRead, ∃ t : State, fnSilent s hp fn = false ∧ fnEnabled s hp fn = true
        ∧ aliasBound s hp fn i = true
        ∧ r = ({ id := s.at'.nextRead, hp := hp, fn := fn, off := off, since := s.timeNs, dueAt := s.timeNs + 1000 * (waitLimit s (rd s F.atAliasWaitUs i) + rd s F.atCfgAliasMarginUs) } : AliasRead) ∧ t = setAt s (fun a => { a with reads := mset a.reads i (mgetD s.at'.reads i [] ++ [r]), nextRead := a.nextRead + 1 }))
    ∧ (∃ s : State, ∃ now i : Nat, ∃ r : AliasRead, ∃ l : List AliasRead, ∃ t : State, mget s.at'.reads i = some (r :: l)
        ∧ holdOn s = false ∧ t = atTime s now ∧ r.dueAt ≤ t.timeNs)
    ∧ (∃ s : State, ∃ now i : Nat, ∃ r : AliasRead, ∃ l : List AliasRead, mget s.at'.reads i = some (r :: l)
        ∧ (holdOn s = true ∨ (atTime s now).timeNs < r.dueAt))
    ∧ (∃ s : State, ∃ now dom dva src id : Nat, ∃ l : LockSt, ∃ w : LockWait, ∃ t : State, t = atTime s now
        ∧ mget s.at'.locks (wordKey dom dva) = some l ∧ (l.waiters.find? fun w => w.src == src && w.msgid == id) = some w
        ∧ holdOn s = false ∧ w.since + w.waitUs * 1000 ≤ t.timeNs)
    ∧ (∃ s : State, ∃ now dom dva src id : Nat, ∃ l : LockSt, ∃ w : LockWait, mget s.at'.locks (wordKey dom dva) = some l
        ∧ (l.waiters.find? fun w => w.src == src && w.msgid == id) = some w
        ∧ (holdOn s = true ∨ (atTime s now).timeNs < w.since + w.waitUs * 1000))
    ∧ (∃ s : State, ∃ now id : Nat, ∃ h : Hold, mget s.at'.holds id = some h ∧ h.marked = true ∧ (∀ k m, (k,
        m) ∈ s.tp.slots → m.origin ≠ .abandon id) ∧ (∀ m n, (m, n) ∈ s.tp.wait → m.origin ≠ .abandon id)
        ∧ h.sentAt + 10000000 ≤ (atTime s now).timeNs)
    ∧ (∃ s : State, ∃ now id : Nat, ∃ h : Hold, mget s.at'.holds id = some h ∧ (h.marked = false ∨ (∃ k m, (k, m) ∈ s.tp.slots
        ∧ m.origin = .abandon id) ∨ (atTime s now).timeNs < h.sentAt + 10000000)) :=
  ⟨⟨bound, 0, 0, 5, _, rfl, by decide +kernel⟩,
   ⟨bound, 0, 0, 5, _, rfl, by decide +kernel⟩,
   ⟨bound, 0, 0, 5, _, rfl, by decide +kernel⟩,
   ⟨bound, 0, 0, 5, _, rfl, by decide +kernel⟩,
   ⟨wrb bound F.modeStatHoldAct true, 0, 0, 0, 5, _, rfl, by decide +kernel⟩,
   ⟨run, 1, 0, by decide +kernel⟩,
   ⟨run, 0, 0, 0, by decide +kernel⟩,
   ⟨bound, 0, 0, 0, 0, _, _, by decide +kernel, by decide +kernel, by decide +kernel, rfl, rfl⟩,
   ⟨{ bound with at' := { bound.at' with reads := [(0, [lateRead])] } }, 10 ^ 9, 0, lateRead, [], _, by decide +kernel, by decide +kernel,
       rfl, by decide +kernel⟩,
   ⟨{ bound with at' := { bound.at' with reads := [(0, [{ lateRead with dueAt := 1 }])] } }, 0, 0, { lateRead with dueAt := 1 }, [],
       by decide +kernel⟩,
   ⟨locking, 10 ^ 9, 1, 0x100000, 131, 3, lock, waiter 131, _, rfl, by decide +kernel⟩,
   ⟨locking, 0, 1, 0x100000, 131, 3, lock, waiter 131, by decide +kernel⟩,
   ⟨{ run with at' := { run.at' with holds := [(0, oldHold)] } }, 10 ^ 9, 0, oldHold, by decide +kernel, by decide +kernel,
       noMember (by decide +kernel), noMember (by decide +kernel), by decide +kernel⟩,
   ⟨{ run with at' := { run.at' with holds := [(0, { oldHold with marked := false })] } }, 0, 0, { oldHold with marked := false },
       by decide +kernel, Or.inl rfl⟩⟩

theorem witness_SchedulerCommandsComplete :
    (∃ s : State, ∃ now id : Nat, ∃ m : Slot, ∃ t : State, t = atTime s now ∧ slotOf s id = some m ∧ isBulk t m = true ∧ 0 < nextCount m
        ∧ m.gate = false ∧ holdOn s = false ∧ gateOpen t 1 = true)
    ∧ (∃ s : State, ∃ now id : Nat, ∃ m : Slot, ∃ t : State, t = atTime s now ∧ slotOf s id = some m ∧ isBulk t m = true
        ∧ 0 < nextCount m ∧ m.gate = false ∧ holdOn s = false ∧ gateOpen t 1 = false)
    ∧ (∃ s : State, ∃ now g k : Nat, ∃ p : CollPkt, ∃ t : State, t = atTime s now ∧ mget (grp s g).sends k = some p ∧ p.bulk = true
        ∧ p.gated = false ∧ holdOn s = false ∧ gateOpen t 2 = true)
    ∧ (∃ s : State, ∃ now g k : Nat, ∃ p : CollPkt, mget (grp s g).sends k = some p ∧ p.bulk = true ∧ p.gated = false ∧ holdOn s = false
        ∧ gateOpen (atTime s now) 2 = false)
    ∧ (∃ s : State, ∃ now j id : Nat, ∃ b : ExBatch, ∃ t : State, t = atTime s now ∧ mget (job s j).batches id = some b ∧ b.bseq ≠ none
        ∧ b.gated = false ∧ b.sent = false ∧ holdOn s = false ∧ gateOpen t 3 = true)
    ∧ (∃ s : State, ∃ now j id : Nat, ∃ b : ExBatch, mget (job s j).batches id = some b ∧ b.bseq ≠ none ∧ b.gated = false
        ∧ b.sent = false ∧ holdOn s = false ∧ gateOpen (atTime s now) 3 = false)
    ∧ (∃ s : State, ∃ now j : Nat, ∃ d : ExSend, ∃ t : State, t = atTime s now
        ∧ ((job s j).sends.find? fun e => !(e.flush && e.mark.isSome)) = some d ∧ d.flush = false ∧ d.unread ≠ [] ∧ holdOn s = false
        ∧ cutRecord t j d = .more ∧ gateOpen t 3 = true)
    ∧ (∃ s : State, ∃ now j : Nat, ∃ d : ExSend, ∃ t : State, t = atTime s now
        ∧ ((job s j).sends.find? fun e => !(e.flush && e.mark.isSome)) = some d ∧ d.flush = false ∧ d.unread ≠ [] ∧ holdOn s = false
        ∧ cutRecord t j d = .more ∧ gateOpen t 3 = false)
    ∧ (∃ s : State, ∃ id : Nat, ∃ m : Slot, slotOf s id = some m ∧ m.held = true ∧ holdOn s = false ∧ policerOf s m.ec = none)
    ∧ (∃ s : State, ∃ now id : Nat, ∃ m : Slot, ∃ i n : Nat, ∃ u : State, ∃ c : Nat, ∃ t : State, t = atTime s now ∧ slotOf s id = some m
        ∧ m.held = true ∧ m.polPassed = false ∧ holdOn s = false ∧ policerOf s m.ec = some i
        ∧ n = (if m.op = opGetReq then requestBytes m (m.chunkEnd - m.next) else 128 * flitsOf (requestBytes m (m.chunkEnd - m.next)))
        ∧ police t i n false = (u, c))
    ∧ (∃ s : State, ∃ now k : Nat, ∃ u : State, ∃ t f id : Nat, ∃ it : InjItem, injectStopped s = false ∧ holdOn s = false ∧ k < 8
        ∧ u = fixHeads (dropDead (atTime s now) k) k ∧ chooseTc u k = some t ∧ tcHead u k t = some (f, id, it))
    ∧ (∃ s : State, ∃ now k : Nat, ∃ u : State, injectStopped s = false ∧ holdOn s = false ∧ k < 8
        ∧ u = fixHeads (dropDead (atTime s now) k) k ∧ chooseTc u k = none)
    ∧ (∃ s : State, (injectStopped s = true ∨ holdOn s = true))
    ∧ (∃ s : State, ∃ now t id : Nat, ∃ x : Machine.Stream, ∃ u : State, pick (atTime s now) (leastAskers (atTime s now) t) = some (id,
        x) ∧ x.slices ≤ 1 ∧ u = pmSample (drawn (atTime s now)) 1 x.role x.key [])
    ∧ (∃ s : State, ∃ now t id : Nat, ∃ x : Machine.Stream, ∃ u : State, pick (atTime s now) (leastAskers (atTime s now) t) = some (id,
        x) ∧ 1 < x.slices ∧ u = pmSample (drawn (atTime s now)) 1 x.role x.key [])
    ∧ (∃ s : State, ∃ now t : Nat, leastAskers (atTime s now) t = [])
    ∧ (∃ s : State, ∃ now : Nat, rdb s F.scCfgCal = true ∧ s.sc.calAt + rd s F.scCalCfgSlotNs ≤ (atTime s now).timeNs)
    ∧ (∃ s : State, ∃ now : Nat, (rdb s F.scCfgCal = false ∨ (atTime s now).timeNs < s.sc.calAt + rd s F.scCalCfgSlotNs))
    ∧ (∃ s : State, ∃ now i : Nat, ∃ w : Nat × Option Nat, ∃ wait d : Nat, ∃ t u : State, rdb s F.scQsmpSelEn i = true ∧ i < 64
        ∧ t = atTime s now ∧ (∀ x, mget s.sc.monAt i = some x → x + rd s F.scCfgSampleUs * 1000 ≤ t.timeNs) ∧ w = watched t i
        ∧ wait = (match w.2 with | some x => t.timeNs - x | none => 0) ∧ d = min 65535 (wait / 10)
        ∧ u = wr (wr (wr (setSc t fun x => { x with monAt := mset x.monAt i t.timeNs }) F.scQsmpValDepthLast (min 65535 w.1) i) F.scQsmpValDepthMax (max (min 65535 w.1) (rd s F.scQsmpValDepthMax i)) i) F.scQsmpValDelayMax (max d (rd s F.scQsmpValDelayMax i)) i)
    ∧ (∃ s : State, ∃ i : Nat, rdb s F.scQsmpSelEn i = false) :=
  ⟨⟨wr (sending ({ msg opPut 8 1 with bulk := true })) F.knCreditPoolNj 1000, 0, 7, { msg opPut 8 1 with bulk := true }, _, rfl,
      by decide +kernel⟩,
   ⟨wr (sending ({ msg opPut 8 1 with bulk := true })) F.knCreditPoolNj 0, 0, 7, { msg opPut 8 1 with bulk := true }, _, rfl,
       by decide +kernel⟩,
   ⟨wr (hopping { hopPkt with bulk := true, gated := false }) F.knCreditPoolNj 1000, 0, 5, 0,
       { hopPkt with bulk := true, gated := false }, _, rfl, by decide +kernel⟩,
   ⟨wr (hopping { hopPkt with bulk := true, gated := false }) F.knCreditPoolNj 0, 0, 5, 0, { hopPkt with bulk := true, gated := false },
       by decide +kernel⟩,
   ⟨wr (jobWith { batches := [(0, { batch (some 4) false with gated := false })] }) F.knCreditPoolNj 1000, 0, 2, 0,
       { batch (some 4) false with gated := false }, _, rfl, by decide +kernel⟩,
   ⟨wr (jobWith { batches := [(0, { batch (some 4) false with gated := false })] }) F.knCreditPoolNj 0, 0, 2, 0,
       { batch (some 4) false with gated := false }, by decide +kernel⟩,
   ⟨wr (wr (jobWith { sends := [⟨.fin, false, zeros 8, [], 0, 0, none⟩] }) F.exJobRlen 8 2) F.knCreditPoolNj 1000, 0, 2, ⟨.fin, false,
       zeros 8, [], 0, 0, none⟩, _, rfl, by decide +kernel⟩,
   ⟨wr (wr (jobWith { sends := [⟨.fin, false, zeros 8, [], 0, 0, none⟩] }) F.exJobRlen 8 2) F.knCreditPoolNj 0, 0, 2, ⟨.fin, false,
       zeros 8, [], 0, 0, none⟩, _, rfl, by decide +kernel⟩,
   ⟨sending { msg opPut 8 1 with held := true }, 7, { msg opPut 8 1 with held := true }, by decide +kernel⟩,
   ⟨wrb (sending { msg opPut 8 1 with held := true, chunkEnd := 1 }) F.scFnPolEn true 0, 0, 7,
       { msg opPut 8 1 with held := true, chunkEnd := 1 }, 0, 128,
       (police (atTime (wrb (sending { msg opPut 8 1 with held := true, chunkEnd := 1 }) F.scFnPolEn true 0) 0) 0 128 false).1, 0, _, rfl,
       by decide +kernel, by decide +kernel, by decide +kernel, by decide +kernel, by decide +kernel, by decide +kernel,
       pairOf (by decide +kernel)⟩,
   ⟨injecting, 0, 0, _, 0, 4096, 0, { item with fnTag := some 2048 }, by decide +kernel, by decide +kernel, by decide +kernel, rfl,
       by decide +kernel⟩,
   ⟨run, 0, 0, _, by decide +kernel, by decide +kernel, by decide +kernel, rfl, by decide +kernel⟩,
   ⟨wrb run F.modeStatHoldAct true, by decide +kernel⟩,
   ⟨{ run with eng := { run.eng with streams := [(0, slicing)] } }, 0, 0, 0, slicing, _, by
    unfold pick
    rw [show leastAskers (atTime { run with eng := { run.eng with streams := [(0, slicing)] } } 0) 0 = [(0,
        slicing)] from by decide +kernel]
    simp [Nat.mod_one], by decide +kernel, rfl⟩,
   ⟨{ run with eng := { run.eng with streams := [(0, { slicing with slices := 2 })] } }, 0, 0, 0, { slicing with slices := 2 }, _, by
    unfold pick
    rw [show leastAskers (atTime { run with eng := { run.eng with streams := [(0, { slicing with slices := 2 })] } } 0) 0
      = [(0, { slicing with slices := 2 })] from by decide +kernel]
    simp [Nat.mod_one], by decide +kernel, rfl⟩,
   ⟨run, 0, 0, by decide +kernel⟩,
   ⟨wrb run F.scCfgCal true, 10 ^ 12, by decide +kernel⟩,
   ⟨run, 0, by decide +kernel⟩,
   ⟨wrb run F.scQsmpSelEn true 0, 0, 0, _, _, _, _, _, by decide +kernel, by decide +kernel, rfl, noneOf (by decide +kernel), rfl, rfl,
       rfl, rfl⟩,
   ⟨run, 0, by decide +kernel⟩⟩

theorem witness_KilnCommandsComplete :
    (∃ s : State, ∃ now p : Nat, ∃ temps speeds : List Nat, ∃ rails : List (Nat × Nat), ∃ t u v w : State,
        t = showReadings (atTime s now) temps speeds rails
        ∧ u = wr (wr (wr t F.knStatPW p) F.knStatTjMax (hottest temps)) F.knStatSpeed (slowest speeds)
        ∧ v = wrb u F.knStatThermSoft (decide ((rd u F.knThermTjSoft : Int) < degrees (hottest temps)))
        ∧ w = refreshBrown (kilnSources (thermRises (deferShown (credits v p)) temps) p))
    ∧ (∃ s : State, s.kn.applied = false ∧ rdb s F.knStatAvsFault = false ∧ rd s F.knStatVcoreMv ≠ 0 ∧ rd s F.knVcorePolicy = 0
        ∧ rdb s F.knStatThermSoft = false ∧ rd s F.knStatVcoreMv < rd s F.knVcoreSetMv)
    ∧ (∃ s : State, s.kn.applied = false ∧ rdb s F.knStatAvsFault = false ∧ rd s F.knVcorePolicy = 0
        ∧ (holdOn s = false ∨ brownOn s = false) ∧ rd s F.knVcoreSetMv < rd s F.knStatVcoreMv)
    ∧ (∃ s : State, s.kn.applied = false ∧ rdb s F.knStatAvsFault = false ∧ rd s F.knStatVcoreMv ≠ 0 ∧ rd s F.knVcorePolicy ≠ 0
        ∧ rdb s F.knStatThermSoft = false ∧ rd s F.knStatSpeed + 10 < rd s F.knVcoreSpeedTgt * 10
        ∧ rd s F.knStatVcoreMv + 5 ≤ rd s F.knVcoreMaxMv)
    ∧ (∃ s : State, s.kn.applied = false ∧ rdb s F.knStatAvsFault = false ∧ rd s F.knStatVcoreMv ≠ 0 ∧ rd s F.knVcorePolicy ≠ 0
        ∧ (holdOn s = false ∨ brownOn s = false) ∧ rd s F.knVcoreSpeedTgt * 10 + 10 < rd s F.knStatSpeed
        ∧ rd s F.knVcoreMinMv + 5 ≤ rd s F.knStatVcoreMv)
    ∧ (∃ s : State, (s.kn.applied = true ∨ rdb s F.knStatAvsFault = true ∨ rd s F.knStatVcoreMv = 0 ∨ (rd s F.knVcorePolicy = 0
        ∧ rd s F.knStatVcoreMv = rd s F.knVcoreSetMv) ∨ (rd s F.knVcorePolicy = 0 ∧ rd s F.knStatVcoreMv < rd s F.knVcoreSetMv
        ∧ rdb s F.knStatThermSoft = true) ∨ (rd s F.knVcorePolicy = 0 ∧ rd s F.knVcoreSetMv < rd s F.knStatVcoreMv ∧ holdOn s = true
        ∧ brownOn s = true)))
    ∧ (∃ s : State, rdb s F.knStatThermSoft = true ∧ rdb s F.knStatAvsFault = false ∧ (holdOn s = false ∨ brownOn s = false)
        ∧ rd s F.knVcoreMinMv < rd s F.knStatVcoreMv)
    ∧ (∃ s : State, (rdb s F.knStatThermSoft = false ∨ rdb s F.knStatAvsFault = true ∨ (holdOn s = true
        ∧ brownOn s = true) ∨ rd s F.knStatVcoreMv ≤ rd s F.knVcoreMinMv))
    ∧ (∃ s : State, rdb s F.knStatAvsFault = false)
    ∧ (∃ s : State, rdb s F.knStatAvsFault = false ∧ s.kn.avsFails ≠ 2)
    ∧ (∃ s : State, rdb s F.knStatAvsFault = false ∧ s.kn.avsFails = 2)
    ∧ (∃ s : State, rdb s F.knStatAvsFault = true)
    ∧ (∃ s : State, ∃ now mv : Nat, ∃ u : State, rdb s F.knStatAvsFault = true
        ∧ u = avsResult (wr (atTime s now) F.knStatVcoreMv mv) true ∧ brownOn u = false)
    ∧ (∃ s : State, ∃ now mv : Nat, ∃ u : State, rdb s F.knStatAvsFault = true
        ∧ u = avsResult (wr (atTime s now) F.knStatVcoreMv mv) true ∧ brownOn u = true)
    ∧ (∃ s : State, ∃ ok : Bool, (rdb s F.knStatAvsFault = false ∨ ok = false))
    ∧ (∃ s : State, ∃ who : Who, ∃ width : Nat, ∃ val : Word, Served s who ∧ 64 ≤ width ∧ wordLegal (fieldsAt 0x00400000) val = true
        ∧ isPf0 who = true ∧ 100 ≤ wordGet val 16 10 ∧ wordGet val 16 10 ≤ 560 ∧ 100 ≤ wordGet val 0 10
        ∧ wordGet val 0 10 ≤ wordGet val 16 10)
    ∧ (∃ s : State, ∃ who : Who, ∃ width : Nat, ∃ val : Word, Served s who ∧ 64 ≤ width ∧ wordLegal (fieldsAt 0x00400000) val = true
        ∧ (isPf0 who = false ∨ wordGet val 16 10 < 100 ∨ 560 < wordGet val 16 10 ∨ wordGet val 0 10 < 100 ∨ wordGet val 16 10 < wordGet val 0 10)) :=
  ⟨⟨run, 0, 100, [50], [1000], [], _, _, _, _, rfl, rfl, rfl, rfl⟩,
   ⟨wr (wr run F.knVcorePolicy 0) F.knStatVcoreMv 100, by decide +kernel⟩,
   ⟨wr (wr run F.knVcorePolicy 0) F.knStatVcoreMv 2000, by decide +kernel⟩,
   ⟨wr (wr (wr (wr (wr (wr run F.knVcorePolicy 1) F.knStatVcoreMv 800) F.knVcoreMaxMv 900) F.knVcoreMinMv 700) F.knVcoreSpeedTgt 100) F.knStatSpeed 0, by decide +kernel⟩,
   ⟨wr (wr (wr (wr (wr (wr run F.knVcorePolicy 1) F.knStatVcoreMv 800) F.knVcoreMaxMv 900) F.knVcoreMinMv 700) F.knVcoreSpeedTgt 10) F.knStatSpeed 200, by decide +kernel⟩,
   ⟨{ run with kn := { run.kn with applied := true } }, by decide +kernel⟩,
   ⟨wrb (wr run F.knStatVcoreMv 2000) F.knStatThermSoft true, by decide +kernel⟩,
   ⟨run, by decide +kernel⟩,
   ⟨run, by decide +kernel⟩,
   ⟨run, by decide +kernel⟩,
   ⟨{ run with kn := { run.kn with avsFails := 2 } }, by decide +kernel⟩,
   ⟨wrb run F.knStatAvsFault true, by decide +kernel⟩,
   ⟨wrb run F.knStatAvsFault true, 0, 800, _, by decide +kernel, rfl, by decide +kernel⟩,
   ⟨wrb (wrb run F.knStatAvsFault true) F.modeStatBrownoutAct true, 0, 800, _, by decide +kernel, rfl, by decide +kernel⟩,
   ⟨run, true, by decide +kernel⟩,
   ⟨run, .fn 0 0, 64, 300 * 2 ^ 16 + 200, servedOf (by decide +kernel), by decide +kernel⟩,
   ⟨run, .fn 0 1, 64, 300 * 2 ^ 16 + 200, servedOf (by decide +kernel), by decide +kernel⟩⟩

theorem witness_CollectorCommandsComplete :
    (∃ s : State, ∃ src : Nat, src < 23 ∧ rdb s F.fcSrcWireBroken src = false)
    ∧ (∃ s : State, ∃ src : Nat, src < 23 ∧ rdb s F.fcSrcWireBroken src = true)
    ∧ (∃ s : State, ∃ src : Nat, src < 23 ∧ rdb s F.fcSrcWireBroken src = false)
    ∧ (∃ s : State, ∃ src : Nat, (rdb s F.fcSrcWireBroken src = true ∨ 23 ≤ src))
    ∧ (∃ s : State, ∃ who : Who, ∃ width src inst : Nat, Served s who ∧ 64 ≤ width ∧ isPf0 who = true ∧ src < 64 ∧ inst < 65536)
    ∧ (∃ src inst : Nat, ∃ held : List (Nat × Nat), held.contains (src, inst) = true)
    ∧ (∃ s : State, ∃ held : List (Nat × Nat), (∃ x ∈ held, fenceNamed s x.1 x.2 = true))
    ∧ (∃ s : State, ∃ src inst : Nat, ∃ held : List (Nat × Nat), held.contains (src, inst) = false ∧ s.fc.fences.contains (src,
        inst) = true ∧ rdb s F.fcFenceFull = false ∧ baseOf (releaseFence s src inst) = 2)
    ∧ (∃ s : State, ∃ src inst : Nat, ∃ held : List (Nat × Nat), held.contains (src, inst) = false ∧ s.fc.fences.contains (src,
        inst) = false ∧ rdb s F.fcFenceFull = true ∧ rd s F.fcFenceFullSrc = src ∧ rd s F.fcFenceFullInst = inst)
    ∧ (∃ s : State, ∃ held : List (Nat × Nat), (∀ x ∈ held, fenceNamed s x.1 x.2 = false))
    ∧ (∃ s : State, ∃ width : Nat, Served s .mgmt ∧ 64 ≤ width)
    ∧ (∃ s : State, ∃ who : Who, ∃ width confirm : Nat, Served s who ∧ 64 ≤ width ∧ confirm < 65536 ∧ (who ≠ .mgmt ∨ confirm ≠ 0x0C17))
    ∧ (∃ s : State, ∃ who : Who, ∃ width : Nat, Served s who ∧ 64 ≤ width ∧ isPf0 who = true ∧ baseOf s = 3 ∧ rd s F.fcSelftestSt ≠ 1)
    ∧ (∃ s : State, ∃ who : Who, ∃ width : Nat, Served s who ∧ 64 ≤ width ∧ isPf0 who = true ∧ (baseOf s ≠ 3 ∨ rd s F.fcSelftestSt = 1))
    ∧ (∃ s : State, rd s F.fcSelftestSt = 1)
    ∧ (∃ s : State, rd s F.fcSelftestSt = 1)
    ∧ (∃ s : State, rd s F.fcSelftestSt ≠ 1)
    ∧ (∃ s : State, ∃ who : Who, ∃ width : Nat, ∃ val : Word, Served s who ∧ 64 ≤ width ∧ isPf0 who = true
        ∧ wordLegal (fieldsAt 0x00200000) val = true)
    ∧ (∃ s : State, ∃ who : Who, ∃ width src inst : Nat, ∃ val : Word, Served s who ∧ 64 ≤ width ∧ isPf0 who = false ∧ src < 64
        ∧ inst < 65536 ∧ wordLegal (fieldsAt 0x00200000) val = true) :=
  ⟨⟨run, 5, by decide +kernel⟩,
   ⟨wrb run F.fcSrcWireBroken true 5, 5, by decide +kernel⟩,
   ⟨run, 5, by decide +kernel⟩,
   ⟨wrb run F.fcSrcWireBroken true 5, 5, by decide +kernel⟩,
   ⟨run, .fn 0 0, 64, 5, 0, servedOf (by decide +kernel), by decide +kernel⟩,
   ⟨5, 0, [(5, 0)], by decide +kernel⟩,
   ⟨{ run with fc := { run.fc with fences := [(5, 0)] } }, [(5, 0)], by decide +kernel⟩,
   ⟨{ run with fc := { run.fc with fences := [(5, 0)] } }, 5, 0, [], by decide +kernel⟩,
   ⟨wr (wr (wrb run F.fcFenceFull true) F.fcFenceFullSrc 5) F.fcFenceFullInst 0, 5, 0, [], by decide +kernel⟩,
   ⟨run, [], by decide +kernel⟩,
   ⟨run, 64, servedOf (by decide +kernel), by decide +kernel⟩,
   ⟨run, .fn 0 0, 64, 0x0C17, servedOf (by decide +kernel), by decide +kernel⟩,
   ⟨test, .fn 0 0, 64, servedOf (by decide +kernel), by decide +kernel⟩,
   ⟨run, .fn 0 0, 64, servedOf (by decide +kernel), by decide +kernel⟩,
   ⟨wr run F.fcSelftestSt 1, by decide +kernel⟩,
   ⟨wr run F.fcSelftestSt 1, by decide +kernel⟩,
   ⟨run, by decide +kernel⟩,
   ⟨run, .fn 0 0, 64, 0, servedOf (by decide +kernel), by decide +kernel⟩,
   ⟨run, .fn 0 1, 64, 5, 0, 0, servedOf (by decide +kernel), by decide +kernel⟩⟩

theorem witness_RepairAndPortCommandsComplete :
    (∃ s : State, ∃ p : Nat, p < 52 ∧ s.eng.failed.contains p = false)
    ∧ (∃ s : State, ∃ p : Nat, (52 ≤ p ∨ s.eng.failed.contains p = true))
    ∧ (∃ s : State, ∃ k : Nat, s.fc.active = some k)
    ∧ (∃ s : State, ∃ now k : Nat, k < 2 ∧ s.fc.active ≠ some k ∧ s.fc.standby = none ∧ s.fc.retired.contains k = false
        ∧ pairCount (atTime s now) k < 3)
    ∧ (∃ s : State, ∃ now k : Nat, ∃ u : State, k < 2 ∧ s.fc.active ≠ some k ∧ s.fc.standby ≠ some k ∧ s.fc.retired.contains k = false
        ∧ u = tell (tell (setFc (atTime s now) fun f => { f with pairFails := f.pairFails ++ [(k, (atTime s now).timeNs)] }) (.patina 10 k)) (.fault 8 k))
    ∧ (∃ s : State, ∃ k : Nat, (2 ≤ k ∨ s.fc.active = some k ∨ s.fc.standby = some k ∨ s.fc.retired.contains k = true))
    ∧ (∃ s : State, firmwareRuns s = true)
    ∧ (∃ s : State, firmwareRuns s = false)
    ∧ (∃ s : State, ∃ now : Nat, rd s F.fcWdogPeriodMs ≠ 0 ∧ inRecovery s = false ∧ s.fw.booting = false
        ∧ s.fc.wdogAt + rd s F.fcWdogPeriodMs * 1000000 ≤ (atTime s now).timeNs ∧ s.fc.standby = none)
    ∧ (∃ s : State, ∃ now k : Nat, rd s F.fcWdogPeriodMs ≠ 0 ∧ inRecovery s = false ∧ s.fw.booting = false
        ∧ s.fc.wdogAt + rd s F.fcWdogPeriodMs * 1000000 ≤ (atTime s now).timeNs ∧ s.fc.standby = some k ∧ s.fc.active ≠ none)
    ∧ (∃ s : State, ∃ now : Nat,
        (rd s F.fcWdogPeriodMs = 0 ∨ inRecovery s = true ∨ s.fw.booting = true ∨ (atTime s now).timeNs < s.fc.wdogAt + rd s F.fcWdogPeriodMs * 1000000))
    ∧ (∃ s : State, ∃ h : Nat, (liveStacks s.fc.deadStacks s.txn.arm).contains h = true)
    ∧ (∃ s : State, ∃ h : Nat, (liveStacks s.fc.deadStacks s.txn.arm).contains h = false)
    ∧ (∃ s : State, ∃ now code unit : Nat, ∃ u v : State, s.fc.inReset.contains (code, unit) = true
        ∧ u = setFc (atTime s now) (fun f => { f with inReset := f.inReset.erase (code, unit) }) ∧ blockFenced u code unit = false
        ∧ v = holdLinks u code unit false)
    ∧ (∃ s : State, ∃ now code unit : Nat, ∃ u : State, s.fc.inReset.contains (code, unit) = true
        ∧ u = setFc (atTime s now) (fun f => { f with inReset := f.inReset.erase (code, unit) }) ∧ blockFenced u code unit = true)
    ∧ (∃ s : State, ∃ code unit : Nat, s.fc.inReset.contains (code, unit) = false)
    ∧ (∃ s : State, ∃ hp : Nat, ∃ bme mse : Bool, configAnswers s hp 0 = true ∧ (bme = false ∨ mse = false))
    ∧ (∃ s : State, ∃ hp : Nat, configAnswers s hp 0 = false)
    ∧ (∃ s : State, ∃ hp : Nat, hp < 2 ∧ (portOf s hp).perstLow = true)
    ∧ (∃ s : State, ∃ hp : Nat, (portOf s hp).perstLow = false) :=
  ⟨⟨run, 3, by decide +kernel⟩,
   ⟨run, 52, by decide +kernel⟩,
   ⟨run, 0, by decide +kernel⟩,
   ⟨{ run with fc := { run.fc with standby := none } }, 0, 1, by decide +kernel⟩,
   ⟨{ run with fc := { run.fc with standby := none } }, 0, 1, _, by decide +kernel, by decide +kernel, by decide +kernel,
       by decide +kernel, rfl⟩,
   ⟨run, 0, by decide +kernel⟩,
   ⟨run, by decide +kernel⟩,
   ⟨{ run with fc := { run.fc with active := none } }, by decide +kernel⟩,
   ⟨{ wr run F.fcWdogPeriodMs 10 with fc := { run.fc with standby := none } }, 10 ^ 9, by decide +kernel⟩,
   ⟨wr run F.fcWdogPeriodMs 10, 10 ^ 9, 1, by decide +kernel⟩,
   ⟨wr run F.fcWdogPeriodMs 0, 0, by decide +kernel⟩,
   ⟨run, 2, by decide +kernel⟩,
   ⟨run, 4, by decide +kernel⟩,
   ⟨{ run with fc := { run.fc with inReset := [(0x20, 3)] } }, 0, 0x20, 3, _, _, by decide +kernel, rfl, by decide +kernel, rfl⟩,
   ⟨{ run with fc := { run.fc with inReset := [(0x20, 3)], fences := [(3, 3)] } }, 0, 0x20, 3, _, by decide +kernel, rfl,
       by decide +kernel⟩,
   ⟨run, 0x20, 3, by decide +kernel⟩,
   ⟨run, 0, false, true, by decide +kernel⟩,
   ⟨run, 1, by decide +kernel⟩,
   ⟨setPort run 0 { portOf run 0 with perstLow := true }, 0, by decide +kernel⟩,
   ⟨run, 0, by decide +kernel⟩⟩

theorem witness_DownloadAndActivationComplete :
    (∃ s : State, ∃ hp fn width : Nat, ∃ val : Word, Served s (.fn hp fn) ∧ 64 ≤ width ∧ bitAt val.toNat 0 = true)
    ∧ (∃ s : State, ∃ hp fn width : Nat, ∃ val : Word, Served s (.fn hp fn) ∧ 64 ≤ width ∧ bitAt val.toNat 0 = false)
    ∧ (∃ s : State, ∃ who : Who, ∃ slot off len : Nat, fwRefusal s who false slot (blockOk off len) = 0)
    ∧ (∃ s : State, ∃ who : Who, ∃ slot off len : Nat, fwRefusal s who false slot (blockOk off len) ≠ 0)
    ∧ (∃ s : State, ∃ slot off : Nat, ∃ data : List Byte, ∃ t : State, ∃ via : Option Nat, firmwareRuns s = true ∧ s.fw.waiting = []
        ∧ (∀ hp, via = some hp → serving s hp = true) ∧ fwRefusal s .mgmt false slot (blockOk off data.length) = 0
        ∧ t = wr (wr (setFw s fun w => { w with block := some ⟨slot, off, data.length, none, data⟩ }) F.fwDlStatSt 1) F.fwDlStatCause 0)
    ∧ (∃ s : State, ∃ slot off : Nat, ∃ data : List Byte, ∃ c : Nat, ∃ t : State, ∃ via : Option Nat, firmwareRuns s = true
        ∧ s.fw.waiting = [] ∧ (∀ hp, via = some hp → serving s hp = true) ∧ fwRefusal s .mgmt false slot (blockOk off data.length) = c
        ∧ c ≠ 0 ∧ t = wr s F.fwDlStatCause c)
    ∧ (∃ s : State, ∃ now : Nat, ∃ b : Block, ∃ u : State, ∃ data bs : List Byte, s.fw.block = some b ∧ firmwareRuns s = true
        ∧ ((b.hp = none ∧ bs = b.data) ∨ (b.hp ≠ none ∧ data.length = b.len ∧ bs = data))
        ∧ u = emit (wr (setFw (atTime s now) fun w => { w with block := none, flash := programFlash (b.len / 4096) ((b.slot * 0x4000000 + b.off) / 4096) bs w.flash }) F.fwSlotState 1 b.slot) (.flash (b.slot * 0x4000000 + b.off) b.len))
    ∧ (∃ s : State, (s.fw.block = none ∨ firmwareRuns s = false))
    ∧ (∃ s : State, ∃ who : Who, ∃ width slot : Nat, Served s who ∧ 64 ≤ width ∧ slot < 2)
    ∧ (∃ s : State, ∃ who : Who, ∃ slot : Nat, fwRefusal s who true slot true = 0)
    ∧ (∃ s : State, ∃ via : Option Nat, firmwareRuns s = true ∧ s.fw.waiting = [] ∧ (∀ hp, via = some hp → serving s hp = true))
    ∧ (∃ s : State, ∃ who : Who, ∃ slot : Nat, fwRefusal s who true slot true ≠ 0)
    ∧ (∃ s : State, ∃ now : Nat, ∃ img : Image, s.fw.booting = true ∧ (s.fw.bootKind = 1 ∨ s.fw.bootKind = 2) ∧ actSt s < 2
        ∧ inRecovery s = false ∧ verifySlot (atTime s now) (rd s F.armSignerEnable) img = 0)
    ∧ (∃ s : State, ∃ now : Nat, ∃ img : Image, ∃ cause : Nat, s.fw.booting = true ∧ (s.fw.bootKind = 1 ∨ s.fw.bootKind = 2)
        ∧ actSt s < 2 ∧ inRecovery s = false ∧ verifySlot (atTime s now) (rd s F.armSignerEnable) img = cause ∧ cause ≠ 0)
    ∧ (∃ s : State, s.fw.booting = true ∧ s.fw.bootKind = 3 ∧ actSt s < 2 ∧ inRecovery s = false)
    ∧ (∃ s : State, ∃ now : Nat, ∃ img : Image, ∃ c : Nat, ∃ u : State, s.fw.booting = true ∧ s.fw.bootKind ≠ 4 ∧ actSt s < 2
        ∧ inRecovery s = true ∧ verifySlot (atTime s now) (rd s F.fwFuseArmMask) img = c
        ∧ u = endWarm (showSlot (atTime s now) s.fw.bootSlot img c))
    ∧ (∃ s : State, actSt s = 2 ∧ baseOf s = 2 ∧ holdOn s = false ∧ s.fw.newImage ≠ none)
    ∧ (∃ s : State, (actSt s ≠ 2 ∨ baseOf s ≠ 2 ∨ holdOn s = true ∨ s.fw.newImage = none)) :=
  ⟨⟨run, 0, 0, 64, 1, servedOf (by decide +kernel), by decide +kernel⟩,
   ⟨run, 0, 0, 64, 0, servedOf (by decide +kernel), by decide +kernel⟩,
   ⟨run, .fn 0 0, 1, 0, 4096, by decide +kernel⟩,
   ⟨run, .fn 0 1, 0, 0, 0, by decide +kernel⟩,
   ⟨run, 1, 0, zeros 4096, _, none, by decide +kernel, by decide +kernel, noneOf rfl, by decide +kernel, rfl⟩,
   ⟨run, 0, 0, zeros 4096, 6, _, none, by decide +kernel, by decide +kernel, noneOf rfl, by decide +kernel, by decide +kernel, rfl⟩,
   ⟨{ run with fw := { run.fw with block := some blockOne } }, 0, blockOne, _, [], [], by decide +kernel, by decide +kernel,
       Or.inl (by decide +kernel), rfl⟩,
   ⟨run, by decide +kernel⟩,
   ⟨run, .fn 0 0, 64, 1, servedOf (by decide +kernel), by decide +kernel⟩,
   ⟨wr run F.fwSlotState 2 1, .fn 0 0, 1, by decide +kernel⟩,
   ⟨run, none, by decide +kernel, by decide +kernel, noneOf rfl⟩,
   ⟨run, .fn 0 0, 0, by decide +kernel⟩,
   ⟨booting, 0, goodImage, by decide +kernel⟩,
   ⟨booting, 0, { goodImage with readError := true }, 7, by decide +kernel⟩,
   ⟨{ run with fw := { run.fw with booting := true, bootKind := 3 } }, by decide +kernel⟩,
   ⟨wr booting F.modeStatBase 0, 0, { goodImage with readError := true }, 7, _, by decide +kernel, by decide +kernel, by decide +kernel,
       by decide +kernel, by decide +kernel, rfl⟩,
   ⟨{ wr run F.fwStatActSt 2 with fw := { run.fw with newImage := some ({}, armDefault) } }, by decide +kernel⟩,
   ⟨run, by decide +kernel⟩⟩

theorem witness_HealthAndKeyCommandsComplete :
    (∃ s : State, firmwareRuns s = true ∧ actSt s = 4 ∧ rdb s F.fwCtlHostConfirm = false)
    ∧ (∃ s : State, firmwareRuns s = true ∧ actSt s = 4 ∧ rdb s F.fwCtlHostConfirm = true)
    ∧ (∃ s : State, (firmwareRuns s = false ∨ actSt s ≠ 4))
    ∧ (∃ s : State, ∃ who : Who, ∃ width : Nat, Served s who ∧ 64 ≤ width ∧ actSt s = 4 ∧ rdb s F.fwHealthOk = true
        ∧ rdb s F.fwCtlHostConfirm = true)
    ∧ (∃ s : State, ∃ who : Who, ∃ width : Nat, Served s who ∧ 64 ≤ width
        ∧ (actSt s ≠ 4 ∨ rdb s F.fwHealthOk = false ∨ rdb s F.fwCtlHostConfirm = false))
    ∧ (∃ s : State, ∃ via : Option Nat, firmwareRuns s = true ∧ s.fw.waiting = [] ∧ (∀ hp, via = some hp → serving s hp = true)
        ∧ inRecovery s = false)
    ∧ (∃ s : State, ∃ now at' : Nat, s.fw.windowAt = some at' ∧ at' + 30000000000 ≤ (atTime s now).timeNs ∧ actSt s = 4
        ∧ brownOn s = false ∧ fenceOn s = false)
    ∧ (∃ s : State, ∃ now at' : Nat, s.fw.windowAt = some at' ∧ at' + 30000000000 ≤ (atTime s now).timeNs ∧ actSt s = 4
        ∧ (brownOn s = true ∨ fenceOn s = true))
    ∧ (∃ s : State, ∃ now : Nat, ((∀ at', s.fw.windowAt = some at' → (atTime s now).timeNs < at' + 30000000000) ∨ actSt s ≠ 4))
    ∧ (∃ s : State, ∃ width : Nat, Served s .mgmt ∧ 64 ≤ width ∧ ownerLocked s = false)
    ∧ (∃ s : State, ∃ who : Who, ∃ width confirm : Nat, Served s who ∧ 64 ≤ width ∧ confirm < 65536
        ∧ (ownerLocked s = true ∨ who ≠ .mgmt))
    ∧ (∃ s : State, ∃ who : Who, ∃ width : Nat, Served s who ∧ 64 ≤ width ∧ isPf0 who = true ∧ ownerLocked s = false ∧ actSt s = 5)
    ∧ (∃ s : State, ∃ who : Who, ∃ width : Nat, Served s who ∧ 64 ≤ width ∧ (ownerLocked s = true ∨ isPf0 who = false))
    ∧ (∃ s : State, ∃ who : Who, ∃ width : Nat, Served s who ∧ 64 ≤ width ∧ isPf0 who = true ∧ ownerLocked s = false ∧ actSt s ≠ 5)
    ∧ (∃ s : State, ∃ width k j : Nat, Served s .mgmt ∧ 64 ≤ width ∧ k < 4 ∧ s.fw.run.signer ≠ k ∧ j < 4 ∧ j ≠ k
        ∧ bitAt (rd s F.fwFuseFwProg) j = true ∧ bitAt (rd s F.fwFuseFwRevoked) j = false)
    ∧ (∃ s : State, ∃ who : Who, ∃ width k confirm : Nat, Served s who ∧ 64 ≤ width ∧ k < 4 ∧ confirm < 65536 ∧ who ≠ .mgmt)
    ∧ (∃ s : State, ∃ width k confirm : Nat, Served s .mgmt ∧ 64 ≤ width ∧ k < 4 ∧ confirm < 65536
        ∧ (confirm ≠ 0x0E5C ∨ s.fw.run.signer = k ∨ (∀ j,
        j < 4 → j ≠ k → bitAt (rd s F.fwFuseFwProg) j = false ∨ bitAt (rd s F.fwFuseFwRevoked) j = true))) :=
  ⟨⟨trial, by decide +kernel⟩,
   ⟨wrb trial F.fwCtlHostConfirm true, by decide +kernel⟩,
   ⟨run, by decide +kernel⟩,
   ⟨wrb (wrb trial F.fwHealthOk true) F.fwCtlHostConfirm true, .fn 0 0, 64, servedOf (by decide +kernel), by decide +kernel⟩,
   ⟨trial, .fn 0 0, 64, servedOf (by decide +kernel), by decide +kernel⟩,
   ⟨trial, none, by decide +kernel, by decide +kernel, noneOf rfl, by decide +kernel⟩,
   ⟨{ trial with fw := { trial.fw with windowAt := some 0 } }, 10 ^ 12, 0, by decide +kernel⟩,
   ⟨{ wrb trial F.modeStatBrownoutAct true with fw := { trial.fw with windowAt := some 0 } }, 10 ^ 12, 0, by decide +kernel⟩,
   ⟨trial, 0, Or.inl (noneOf rfl)⟩,
   ⟨run, 64, servedOf (by decide +kernel), by decide +kernel⟩,
   ⟨run, .fn 0 0, 64, 0, servedOf (by decide +kernel), by decide +kernel⟩,
   ⟨wr run F.fwStatActSt 5, .fn 0 0, 64, servedOf (by decide +kernel), by decide +kernel⟩,
   ⟨run, .fn 0 1, 64, servedOf (by decide +kernel), by decide +kernel⟩,
   ⟨run, .fn 0 0, 64, servedOf (by decide +kernel), by decide +kernel⟩,
   ⟨wr run F.fwFuseFwProg 3, 64, 1, 0, servedOf (by decide +kernel), by decide +kernel⟩,
   ⟨run, .fn 0 0, 64, 1, 0x0E5C, servedOf (by decide +kernel), by decide +kernel⟩,
   ⟨run, 64, 1, 0, servedOf (by decide +kernel), by decide +kernel⟩⟩

theorem witness_ManagementMessagesComplete :
    (∃ s : State, ∃ via : Option Nat, firmwareRuns s = true ∧ s.fw.waiting = [] ∧ (∀ hp, via = some hp → serving s hp = true))
    ∧ (∃ s : State, ∃ via : Option Nat, firmwareRuns s = true ∧ s.fw.waiting = [] ∧ (∀ hp, via = some hp → serving s hp = true))
    ∧ (∃ s : State, ∃ nonce : List Byte, ∃ via : Option Nat, firmwareRuns s = true ∧ s.fw.waiting = [] ∧ (∀ hp,
        via = some hp → serving s hp = true) ∧ inRecovery s = false
        ∧ rdb s (if via = none then F.fwIdPolicyAttestI3c else F.fwIdPolicyAttestVdm) = true ∧ nonce.length = 32)
    ∧ (∃ s : State, ∃ nonce : List Byte, ∃ via : Option Nat, firmwareRuns s = true ∧ s.fw.waiting = [] ∧ (∀ hp,
        via = some hp → serving s hp = true) ∧ nonce.length = 32
        ∧ (inRecovery s = true ∨ rdb s (if via = none then F.fwIdPolicyAttestI3c else F.fwIdPolicyAttestVdm) = false))
    ∧ (∃ s : State, ∃ off : Nat, ∃ via : Option Nat, firmwareRuns s = true ∧ s.fw.waiting = [] ∧ (∀ hp,
        via = some hp → serving s hp = true) ∧ inRecovery s = false ∧ mctpOffOk off = true)
    ∧ (∃ s : State, ∃ off : Nat, ∃ via : Option Nat, firmwareRuns s = true ∧ s.fw.waiting = [] ∧ (∀ hp,
        via = some hp → serving s hp = true) ∧ inRecovery s = false ∧ holdOn s = false ∧ mctpOffOk off = true)
    ∧ (∃ s : State, ∃ off : Nat, ∃ via : Option Nat, firmwareRuns s = true ∧ s.fw.waiting = [] ∧ (∀ hp,
        via = some hp → serving s hp = true) ∧ holdOn s = false ∧ (mctpOffOk off = false ∨ inRecovery s = true))
    ∧ (∃ s : State, ∃ off : Nat, ∃ via : Option Nat, firmwareRuns s = true ∧ s.fw.waiting = [] ∧ (∀ hp,
        via = some hp → serving s hp = true) ∧ mctpOffOk off = false)
    ∧ (∃ s : State, ∃ hp : Nat, firmwareRuns s = false ∧ s.fw.waiting = [] ∧ serving s hp = true)
    ∧ (∃ s : State, ∃ key : Nat, key < 4 ∧ rdb s F.fwFuseDebugEn = true ∧ rdb s F.lckBitsDebugDis = false ∧ (baseOf s = 3 ∨ baseOf s = 0)
        ∧ bitAt (rd s F.fwFuseFwProg) key = true ∧ bitAt (rd s F.fwFuseFwRevoked) key = false)
    ∧ (∃ s : State, ∃ key : Nat, ∃ valid : Bool,
        (valid = false ∨ 4 ≤ key ∨ rdb s F.fwFuseDebugEn = false ∨ rdb s F.lckBitsDebugDis = true ∨ (baseOf s ≠ 3
        ∧ baseOf s ≠ 0) ∨ bitAt (rd s F.fwFuseFwProg) key = false ∨ bitAt (rd s F.fwFuseFwRevoked) key = true))
    ∧ (∃ lowNs : Nat, 10000000 < lowNs)
    ∧ (∃ lowNs : Nat, lowNs ≤ 10000000)
    ∧ (∃ drivenNs : Nat, 100000 ≤ drivenNs)
    ∧ (∃ drivenNs : Nat, drivenNs < 100000) :=
  ⟨⟨run, none, by decide +kernel, by decide +kernel, noneOf rfl⟩,
   ⟨run, none, by decide +kernel, by decide +kernel, noneOf rfl⟩,
   ⟨wrb run F.fwIdPolicyAttestI3c true, zeros 32, none, by decide +kernel, by decide +kernel, noneOf rfl, by decide +kernel⟩,
   ⟨wrb run F.fwIdPolicyAttestI3c false, zeros 32, none, by decide +kernel, by decide +kernel, noneOf rfl, by decide +kernel⟩,
   ⟨run, 0, none, by decide +kernel, by decide +kernel, noneOf rfl, by decide +kernel⟩,
   ⟨run, 0x108, none, by decide +kernel, by decide +kernel, noneOf rfl, by decide +kernel⟩,
   ⟨run, 0x0C000000, none, by decide +kernel, by decide +kernel, noneOf rfl, by decide +kernel⟩,
   ⟨run, 4, none, by decide +kernel, by decide +kernel, noneOf rfl, by decide +kernel⟩,
   ⟨{ run with fc := { run.fc with active := none } }, 0, by decide +kernel⟩,
   ⟨wr (wrb test F.fwFuseDebugEn true) F.fwFuseFwProg 1, 0, by decide +kernel⟩,
   ⟨run, 0, false, by decide +kernel⟩,
   ⟨10000001, by decide +kernel⟩,
   ⟨10000000, by decide +kernel⟩,
   ⟨100000, by decide +kernel⟩,
   ⟨99999, by decide +kernel⟩⟩

theorem witness_SupplyCommandsComplete :
    (∃ rail : Nat, (rail = 1 ∨ rail = 2))
    ∧ (∃ s : State, rdb s F.pwStatVmonOpen = false)
    ∧ (∃ s : State, ∃ rail : Nat, (3 ≤ rail ∨ (rail = 0 ∧ rdb s F.pwStatVmonOpen = true)))
    ∧ (∃ s : State, ∃ rail : Nat, (railWarns s rail = true ∨ mhas s.pw.recoverAt rail = true))
    ∧ (∃ s : State, ∃ rail : Nat, railWarns s rail = false ∧ mhas s.pw.recoverAt rail = false)
    ∧ (∃ s : State, ∃ now rail at' : Nat, ∃ u : State, mget s.pw.recoverAt rail = some at' ∧ at' + 2000000 ≤ (atTime s now).timeNs
        ∧ u = refreshRecovering (setPw (atTime s now) fun w => { w with recoverAt := mdel w.recoverAt rail }))
    ∧ (∃ s : State, ∃ now rail : Nat, (∀ at', mget s.pw.recoverAt rail = some at' → (atTime s now).timeNs < at' + 2000000))
    ∧ (∃ s : State, ∃ now rail : Nat, ∃ u : State, rail < 9 ∧ (rail = 0 → rdb s F.pwStatVmonOpen = false)
        ∧ u = setPw (wrb (atTime s now) F.pwEvtSupplyReset true) (fun w => { w with low := rail :: w.low.erase rail }))
    ∧ (∃ s : State, ∃ rail : Nat, (9 ≤ rail ∨ (rail = 0 ∧ rdb s F.pwStatVmonOpen = true)))
    ∧ (∃ s : State, ∃ rise : Nat, 300 < rise ∧ rdb s F.pwStatVmonOpen = false)
    ∧ (∃ s : State, ∃ rise : Nat, 300 < rise ∧ rdb s F.pwStatVmonOpen = true)
    ∧ (∃ rise : Nat, rise ≤ 300)
    ∧ (∃ s : State, ∃ now : Nat, ∃ t : State, s.pw.tripped = false
        ∧ t = (List.range 64).foldl (fun x c => if cageState x c = 0 then x else cageOff x c) (setPw (atTime s now) fun w => { w with tripped := true }))
    ∧ (∃ s : State, s.pw.tripped = true)
    ∧ (∃ clock : Nat, clock < 6)
    ∧ (∃ clock : Nat, 6 ≤ clock) :=
  ⟨⟨1, by decide +kernel⟩,
   ⟨wrb run F.pwStatVmonOpen false, by decide +kernel⟩,
   ⟨run, 3, by decide +kernel⟩,
   ⟨wrb run F.pwStatVsramWarn true, 1, by decide +kernel⟩,
   ⟨run, 1, by decide +kernel⟩,
   ⟨{ run with pw := { run.pw with recoverAt := [(1, 0)] } }, 10 ^ 9, 1, 0, _, by decide +kernel, by decide +kernel, rfl⟩,
   ⟨run, 0, 1, noneOf (by decide +kernel)⟩,
   ⟨run, 0, 1, _, by decide +kernel, by decide +kernel, rfl⟩,
   ⟨run, 9, by decide +kernel⟩,
   ⟨wrb run F.pwStatVmonOpen false, 301, by decide +kernel⟩,
   ⟨wrb run F.pwStatVmonOpen true, 301, by decide +kernel⟩,
   ⟨300, by decide +kernel⟩,
   ⟨run, 0, _, by decide +kernel, rfl⟩,
   ⟨{ run with pw := { run.pw with tripped := true } }, by decide +kernel⟩,
   ⟨0, by decide +kernel⟩,
   ⟨6, by decide +kernel⟩⟩

theorem witness_CageCommandsComplete :
    (∃ s : State, ∃ who : Who, ∃ c width ramp : Nat, Served s who ∧ 64 ≤ width ∧ c < 64 ∧ ramp < 256
        ∧ wordLegal (fieldsAt (0x00420000 + 64 * c)) (BitVec.ofNat 64 (1 + 0 * 2 + ramp * 2 ^ 8)) = true)
    ∧ (∃ s : State, ∃ who : Who, ∃ c width ramp : Nat, Served s who ∧ 64 ≤ width ∧ c < 64 ∧ ramp < 256
        ∧ wordLegal (fieldsAt (0x00420000 + 64 * c)) (BitVec.ofNat 64 (0 + 0 * 2 + ramp * 2 ^ 8)) = true)
    ∧ (∃ s : State, ∃ who : Who, ∃ c width ramp : Nat, Served s who ∧ 64 ≤ width ∧ c < 64 ∧ ramp < 256
        ∧ wordLegal (fieldsAt (0x00420000 + 64 * c)) (BitVec.ofNat 64 (1 + 1 * 2 + ramp * 2 ^ 8)) = true
        ∧ (cageState s c = 6 ∨ cageState s c = 7))
    ∧ (∃ s : State, ∃ who : Who, ∃ c width ramp : Nat, Served s who ∧ 64 ≤ width ∧ c < 64 ∧ ramp < 256
        ∧ wordLegal (fieldsAt (0x00420000 + 64 * c)) (BitVec.ofNat 64 (0 + 1 * 2 + ramp * 2 ^ 8)) = true ∧ rdb s F.cgCtlEn c = false
        ∧ (cageState s c = 6 ∨ cageState s c = 7))
    ∧ (∃ s : State, ∃ now c : Nat, ∃ reads : CageReads, c < 64 ∧ cageState s c = 1 ∧ ((cageOf s c).waits && warningStands s) = false
        ∧ cageCause (atTime s now) c reads = 0)
    ∧ (∃ s : State, ∃ now c : Nat, ∃ reads : CageReads, ∃ cause : Nat, c < 64 ∧ cageState s c = 1
        ∧ ((cageOf s c).waits && warningStands s) = false ∧ cageCause (atTime s now) c reads = cause ∧ cause ≠ 0)
    ∧ (∃ s : State, ∃ c : Nat, (cageState s c ≠ 1 ∨ ((cageOf s c).waits = true ∧ warningStands s = true)))
    ∧ (∃ s : State, ∃ c : Nat, c < 64 ∧ cageState s c = 2 ∧ rdb s F.cgStatLimit c = false)
    ∧ (∃ s : State, ∃ c : Nat, (cageState s c ≠ 2 ∨ rdb s F.cgStatLimit c = true))
    ∧ (∃ s : State, ∃ now c : Nat, ∃ u v : State, c < 64 ∧ cageDrives s c = true ∧ rdb s F.cgStatLimit c = false
        ∧ u = setLimit (wrb (atTime s now) F.cgStatPg false c) c true
        ∧ v = (if rdb s F.cgStatPg c = true then wrb u F.cgStatCwarn true c else u))
    ∧ (∃ s : State, ∃ now c : Nat, ∃ u : State, c < 64 ∧ cageDrives s c = true ∧ rdb s F.cgStatLimit c = true
        ∧ u = wrb (setLimit (atTime s now) c false) F.cgStatCwarn false c)
    ∧ (∃ s : State, ∃ c : Nat, cageDrives s c = false)
    ∧ (∃ s : State, ∃ now c : Nat, c < 64 ∧ cageDrives s c = true ∧ rd s F.cgPlimTimerUs c * 8000 ≤ cageTimer (atTime s now) c)
    ∧ (∃ s : State, ∃ now c : Nat, (cageDrives s c = false ∨ cageTimer (atTime s now) c < rd s F.cgPlimTimerUs c * 8000))
    ∧ (∃ s : State, ∃ c : Nat, c < 64 ∧ 1 ≤ cageState s c ∧ cageState s c ≤ 5)
    ∧ (∃ s : State, ∃ c : Nat, c < 64 ∧ (cageState s c = 0 ∨ 6 ≤ cageState s c))
    ∧ (∃ s : State, ∃ now c : Nat, c < 64 ∧ cageState s c = 5 ∧ (cageOf s c).backoffAt + 1000000000 ≤ (atTime s now).timeNs)
    ∧ (∃ s : State, ∃ now c : Nat, (cageState s c ≠ 5 ∨ (atTime s now).timeNs < (cageOf s c).backoffAt + 1000000000))
    ∧ (∃ s : State, ∃ now c : Nat, c < 64 ∧ cageState s c = 3 ∧ rdb s F.cgStatLimit c = false
        ∧ (cageOf s c).qualAt + 1000000 ≤ (atTime s now).timeNs)
    ∧ (∃ s : State, ∃ now c : Nat,
        (cageState s c ≠ 3 ∨ rdb s F.cgStatLimit c = true ∨ (atTime s now).timeNs < (cageOf s c).qualAt + 1000000))
    ∧ (∃ s : State, ∃ now c : Nat, c < 64 ∧ cageState s c = 0 ∧ (cageOf s c).zeroAt + 100000000 ≤ (atTime s now).timeNs)
    ∧ (∃ s : State, ∃ now c vin vout iout : Nat, ∃ u : State, c < 64
        ∧ u = wr (wr (wr (wr (atTime s now) F.cgMeasVinMv vin c) F.cgMeasVoutMv vout c) F.cgMeasIoutMa iout c) F.cgMeasP (min 65535 (vout * iout / 10000)) c) :=
  ⟨⟨run, .fn 0 0, 3, 64, 10, servedOf (by decide +kernel), by decide +kernel⟩,
   ⟨run, .fn 0 0, 3, 64, 10, servedOf (by decide +kernel), by decide +kernel⟩,
   ⟨cageAs 6, .fn 0 0, 3, 64, 10, servedOf (by decide +kernel), by decide +kernel⟩,
   ⟨cageAs 6, .fn 0 0, 3, 64, 10, servedOf (by decide +kernel), by decide +kernel⟩,
   ⟨cageAs 1, 0, 3, healthyCage, by decide +kernel⟩,
   ⟨cageAs 1, 0, 3, { healthyCage with csnsp := 0 }, 7, by decide +kernel⟩,
   ⟨cageAs 2, 3, by decide +kernel⟩,
   ⟨cageAs 2, 3, by decide +kernel⟩,
   ⟨cageAs 1, 3, by decide +kernel⟩,
   ⟨cageAs 4, 0, 3, _, _, by decide +kernel, by decide +kernel, by decide +kernel, rfl, rfl⟩,
   ⟨wrb (cageAs 4) F.cgStatLimit true 3, 0, 3, _, by decide +kernel, by decide +kernel, by decide +kernel, rfl⟩,
   ⟨cageAs 1, 3, by decide +kernel⟩,
   ⟨wrb (cageAs 2) F.cgStatLimit true 3, 10 ^ 12, 3, by decide +kernel⟩,
   ⟨cageAs 1, 0, 3, by decide +kernel⟩,
   ⟨cageAs 2, 3, by decide +kernel⟩,
   ⟨cageAs 0, 3, by decide +kernel⟩,
   ⟨cageAs 5, 10 ^ 12, 3, by decide +kernel⟩,
   ⟨cageAs 1, 0, 3, by decide +kernel⟩,
   ⟨cageAs 3, 10 ^ 12, 3, by decide +kernel⟩,
   ⟨cageAs 1, 0, 3, by decide +kernel⟩,
   ⟨cageAs 0, 10 ^ 12, 3, by decide +kernel⟩,
   ⟨run, 0, 3, 12000, 5000, 1000, _, by decide +kernel, rfl⟩⟩

theorem witness_MonitoringCommandsComplete :
    (∃ s : State, ∃ now : Nat, ∃ t : State, t = atTime s now)
    ∧ (∃ s : State, ∃ who : Who, ∃ width : Nat, ∃ val : Word, Served s who ∧ 64 ≤ width
        ∧ wordLegal (fieldsAt 0x00500000) (wordSet val 2 1 0) = true)
    ∧ (∃ s : State, ∃ who : Who, ∃ width : Nat, ∃ val : Word, Served s who ∧ 64 ≤ width
        ∧ wordLegal (fieldsAt 0x00500000) (wordSet val 2 1 1) = true)
    ∧ (∃ s : State, ∃ w : Word, ∃ u v x : State, (wordGet w 16 16 = 0 ∨ 10 ≤ wordGet w 16 16) ∧ u = csrPlain s 0x500000 (wordSet w 2 1 0)
        ∧ v = (if rd s F.pmCtlPeriodUs = wordGet w 16 16 then u else setPm u fun p => { p with snapAt := u.timeNs })
        ∧ x = (if bitAt w.toNat 1 = true then freezePm v 1 else wr (setPm v fun p => { p with frozen := false }) F.pmStatFrzCause 0))
    ∧ (∃ w : Word, 1 ≤ wordGet w 16 16 ∧ wordGet w 16 16 ≤ 9)
    ∧ (∃ s : State, ∃ now : Nat, rd s F.pmCtlPeriodUs ≠ 0 ∧ s.pm.snapAt + rd s F.pmCtlPeriodUs * 1000 ≤ (atTime s now).timeNs)
    ∧ (∃ s : State, ∃ now : Nat, (rd s F.pmCtlPeriodUs = 0 ∨ (atTime s now).timeNs < s.pm.snapAt + rd s F.pmCtlPeriodUs * 1000))
    ∧ (∃ s : State, ∃ hp fn width : Nat, ∃ val : Word, Served s (.fn hp fn) ∧ 64 ≤ width ∧ wordLegal (fieldsAt 0x00500118) val = true
        ∧ rd s F.pmDrainStatSt ≠ 1 ∧ wordGet val 16 16 ≠ 0 ∧ bitAt val.toNat 0 = true)
    ∧ (∃ s : State, ∃ who : Who, ∃ width : Nat, ∃ val : Word, Served s who ∧ 64 ≤ width ∧ wordLegal (fieldsAt 0x00500118) val = true
        ∧ rd s F.pmDrainStatSt ≠ 1 ∧ wordGet val 16 16 ≠ 0 ∧ bitAt val.toNat 0 = false)
    ∧ (∃ s : State, ∃ who : Who, ∃ width : Nat, ∃ val : Word, Served s who ∧ 64 ≤ width ∧ wordLegal (fieldsAt 0x00500118) val = true
        ∧ (rd s F.pmDrainStatSt = 1 ∨ wordGet val 16 16 = 0 ∨ (bitAt val.toNat 0 = true ∧ who = .mgmt)))
    ∧ (∃ s : State, ∃ ring count hp : Nat, ∃ l : List (List Word), ∃ n : Nat, s.pm.drain = some (ring, count, hp)
        ∧ l = (if ring = 0 then s.pm.snaps else s.pm.samples) ∧ n = min count l.length)
    ∧ (∃ s : State, s.pm.drain = none)
    ∧ (∃ s : State, ∃ who : Who, ∃ width i : Nat, ∃ val : Word, Served s who ∧ 64 ≤ width ∧ i < 256
        ∧ wordLegal (fieldsAt (0x00501800 + 8 * i)) val = true)
    ∧ (∃ s : State, firmwareRuns s = true)
    ∧ (∃ s : State, firmwareRuns s = false) :=
  ⟨⟨run, 0, _, rfl⟩,
   ⟨run, .fn 0 0, 64, 0, servedOf (by decide +kernel), by decide +kernel⟩,
   ⟨run, .fn 0 0, 64, 0, servedOf (by decide +kernel), by decide +kernel⟩,
   ⟨run, 6, _, _, _, by decide +kernel, rfl, rfl, rfl⟩,
   ⟨2 ^ 16, by decide +kernel⟩,
   ⟨wr run F.pmCtlPeriodUs 10, 10 ^ 9, by decide +kernel⟩,
   ⟨run, 0, by decide +kernel⟩,
   ⟨run, 0, 0, 64, 2 ^ 16 + 1, servedOf (by decide +kernel), by decide +kernel⟩,
   ⟨run, .fn 0 0, 64, 2 ^ 16, servedOf (by decide +kernel), by decide +kernel⟩,
   ⟨run, .mgmt, 64, 2 ^ 16 + 1, servedOf (by decide +kernel), by decide +kernel⟩,
   ⟨{ run with pm := { run.pm with drain := some (1, 3, 0), samples := [[0]] } }, 1, 3, 0, _, _, by decide +kernel, rfl, rfl⟩,
   ⟨run, by decide +kernel⟩,
   ⟨run, .fn 0 0, 64, 5, 7, servedOf (by decide +kernel), by decide +kernel⟩,
   ⟨run, by decide +kernel⟩,
   ⟨{ run with fc := { run.fc with active := none } }, by decide +kernel⟩⟩

theorem witness_ModeControlTakesPf0AndManagement :
    (∃ s : State, Served s .mgmt ∧ Served s (.fn 1 0))
    ∧ (∃ s : State, ∃ hp fn width : Nat, Served s (.fn hp fn) ∧ 64 ≤ width ∧ fn ≠ 0) :=
  ⟨⟨setPort (wrb (wrb run F.hiPortStatLinkUp true 1) F.modeStatHp1Serving true) 1 { cfg := { mse := true } },
      servedOf (by decide +kernel), servedOf (by decide +kernel)⟩,
   ⟨run, 0, 7, 64, servedOf (by decide +kernel), by decide +kernel⟩⟩

theorem witness_PacketFlitsSpellThePacket :
    (∃ j i : Nat, j < 4 ∧ i < 8)
    ∧ (∃ p : Pkt, p.payload.length = p.len ∧ p.len ≤ 4096)
    ∧ (∃ p : Pkt, p.wf = true ∧ p.payload.length = p.len ∧ p.stomp < 256) :=
  ⟨⟨3, 7, by decide +kernel⟩,
   ⟨pkt opPut 0x20000 0 9 1 (zeros 8), by decide +kernel⟩,
   ⟨pkt opPut 0x20000 0 9 1 (zeros 8), by decide +kernel⟩⟩

theorem witness_PacketOverBothLimitsCountsInAge :
    ∃ s : State, ∃ inp vc id : Nat, ∃ p : SwPkt, waitsLookup s inp vc = some (id, p) ∧ p.hdr.hcrc = hcrcOf p.hdr
        ∧ (p.hdr.dst ≠ selfId s ∨ p.hdr.op = opMcPut) ∧ 1000 ≤ p.hdr.age ∧ 12 ≤ p.hdr.hop :=
  ⟨holding (stored (sealPkt { pkt opPut 0x20000 0 9 1 (zeros 8) with dst := 200, age := 1000, hop := 12 }) []), 8, 0, 0,
      stored (sealPkt { pkt opPut 0x20000 0 9 1 (zeros 8) with dst := 200, age := 1000, hop := 12 }) [], by decide +kernel⟩

theorem witness_CounterWriteReplacesValueAtOnce :
    ∃ i : Nat, i < 256 :=
  ⟨5, by decide +kernel⟩

theorem witness_ShortTurnsGateOffAndDisableEndsRetries :
    ((∃ s : State, cageState s 0 = 0) ∧ ∃ s : State, 1 ≤ cageState s 63 ∧ cageState s 63 ≤ 5)
    ∧ (∃ s : State, ∃ who : Who, ∃ c width ramp : Nat, Served s who ∧ 64 ≤ width ∧ c < 64 ∧ ramp < 256
        ∧ wordLegal (fieldsAt (0x00420000 + 64 * c)) (BitVec.ofNat 64 (0 + 0 * 2 + ramp * 2 ^ 8)) = true ∧ rdb s F.cgCtlEn c = true)
    ∧ (∃ t : State, ∃ c : Nat, c < 64 ∧ cageState t c = 5)
    ∧ (∃ t : State, ∃ c : Nat, c < 64 ∧ rdb t F.cgCtlEn c = false) :=
  ⟨⟨⟨run, by decide +kernel⟩, wr run F.cgStatState 5 63, by decide +kernel, by decide +kernel⟩,
   ⟨wrb run F.cgCtlEn true 3, .fn 0 0, 3, 64, 10, servedOf (by decide +kernel), by decide +kernel⟩,
   ⟨cageAs 5, 3, by decide +kernel⟩,
   ⟨run, 3, by decide +kernel⟩⟩

/-! ### Ill-formed commands are refused -/

theorem test_wf_refuses_who :
    Who.wf (.fn 2 0) = false ∧ Who.wf (.fn 0 256) = false ∧ viaOk (some 2) = false ∧ widthOk 24 = false
      ∧ PortCfg.wf { numVfs := 256 } = false := by decide +kernel

theorem test_wf_refuses_packet :
    ∀ p ∈ [{ pkt opPut 0 0 0 0 [] with dst := 2 ^ 18 }, { pkt opPut 0 0 0 0 [] with src := 2 ^ 18 }, { pkt opPut 0 0 0 0 [] with tc := 8 },
      { pkt opPut 0 0 0 0 [] with vc := 8 }, { pkt opPut 0 0 0 0 [] with hop := 16 }, { pkt opPut 0 0 0 0 [] with age := 1024 },
      { pkt opPut 0 0 0 0 [] with flags := 64 }, { pkt opPut 0 0 0 0 [] with op := 256 }, { pkt opPut 0 0 0 0 [] with len := 8192 },
      { pkt opPut 0 0 0 0 [] with ec := 2 ^ 20 }, { pkt opPut 0 0 0 0 [] with hcrc := 2 ^ 16 }, { pkt opPut 0 0 0 0 [] with off := 2 ^ 46 },
      { pkt opPut 0 0 0 0 [] with psn := 2 ^ 18 }, { pkt opPut 0 0 0 0 [] with key := 2 ^ 32 }, { pkt opPut 0 0 0 0 [] with msgid := 2 ^ 24 }, { pkt opPut 0 0 0 0 [] with rsv := 2 ^ 17 },
      { pkt opPut 0 0 0 0 [] with e2e := 2 ^ 32 }, { pkt opPut 0 0 0 0 [] with payload := zeros 4097 }],
      p.wf = false ∧ Instr.wf (.putArrived 0 5 p none) = false := by decide +kernel

theorem test_wf_refuses_levels_and_images :
    (∀ c ∈ [Instr.codewordPairReceived 0 272 ⟨0, 0⟩, .codewordPairReceived 0 0 ⟨4 ^ 5440, 0⟩, .frameReceived 0 128 [0],
      .frameReceived 0 0 [256], .trainingFrameReceived 0 0 (4 ^ 4096) false 0, .trainingFrameReceived 0 0 0 false 4096], c.wf = false)
      ∧ ArmStream.wf { goodArm with head := zeros 447 } = false ∧ ArmStream.wf { goodArm with bodies := [7] } = false
      ∧ Image.wf { goodImage with head := zeros 449 } = false ∧ Image.wf { goodImage with bodies := [] } = false
      ∧ Image.wf { goodImage with armature := some { goodArm with bodies := [] } } = false := by decide +kernel

theorem test_wf_refuses_numbers :
    ∀ c ∈ [Instr.tileDrained 52, .packetHeadLookup 0 136 0, .packetHeadLookup 0 0 8, .bankSwapCopyDone 16, .bankFail 0 0 25 [],
      .laneSignalDetected 0 272, .frameTransmit 0 128 [], .packetInject 0 16777216 [], .contextFetchDone 0 1048576 none,
      .nackBackoffExpired 0 0 262144, .domainSweepDone 4096, .xlPkrrWrite 0 0 16384 64 0, .csrReadClear .mgmt 3 32,
      .cxlMemWrite 0 0 0 (zeros 63) false, .cxlMemWritePartial 0 0 0 (zeros 64) (List.replicate 63 true) false,
      .descriptorFetchDone 0 0 0 [[0]] true, .hostLinkUp 0 0 true 3 2, .exRingCiWrite .mgmt 64 64 0, .aliasAcquireRead 0 0 0 65536,
      .abandonWaitExpired 0 0 (some 256), .faultRaised 0 23 0, .hbmStackFail 0 4, .mctpGetStatus (some 2), .mctpAttest none (zeros 31),
      .refclkLoss 0 6, .modeCtlEnterTest (.fn 2 0) 64, .modeCtlEnterTest .mgmt 24, .flrStart 0 0 256],
      c.wf = false := by decide +kernel

/-! ### Values worked by hand or in the spec's own examples -/

/-- The PUT of the worked example of 03, "the header of an 8-byte PUT". -/
def example03 : Pkt :=
  { dst := 0xEC85, src := 0xA9D1, tc := 4, vc := 0, hop := 0, age := 0, flags := flLast, op := opPut, len := 8, ec := 0x4A3C, hcrc := 0,
    off := 0xA001F48, psn := 0, key := 0x6B210E04, msgid := 0x3A17, payload := zeros 8, e2e := 0, stomp := 0 }

/-- The four header words of that example, and word 0 after its three links. -/
theorem test_header_of_worked_example :
    [hdr0 example03, hdr1 example03, hdr2 example03, hdr3 example03]
        = [0x01000042A744EC85, 0x0000000947800801, 0xA001F48, 0x00003A176B210E04]
      ∧ hdr0 { example03 with vc := 1, hop := 3, age := 6 } = 0x01018CC2A744EC85 := by decide +kernel

/-- R72's example: with 64 members, P5 of member 0x11 reaches member 0x17 and arrives on its P57, whose partner is 0x11. -/
theorem test_local_wiring_example : unitTo 64 0x11 0x17 = 5 ∧ unitTo 64 0x17 0x11 = 57 ∧ 64 - 2 - 5 = 57 := by decide +kernel

/-- MODE_STAT in the worked example of 15: RELAY with no port serving, then SERVICE with HP0 serving. -/
theorem test_mode_stat_example :
    csrView (settled run (wrb (wrb run F.modeStatHp0Serving false) F.modeStatRelayAct true)) 0x100 = 0x1023
      ∧ csrView run 0x100 = 0x4022 := by decide +kernel

/-- The sums of the worked example of 13: without EXACT the order matters, with it the integer sum is 2^149 units, which is 1.0. -/
theorem test_sums_of_worked_example :
    (combine 0 4 0x3F800000 0x4B800000).bind (combine 0 4 · 0xCB800000) = some 0
      ∧ (combine 0 4 0x3F800000 0xCB800000).bind (combine 0 4 · 0x4B800000) = some 0x3F800000
      ∧ toWide 4 0xCB800000 / 2 ^ 128 % 2 ^ 64 = 0xFFFFE00000000000
      ∧ roundWide 4 (addWide (addWide (toWide 4 0x3F800000) (toWide 4 0x4B800000)) (toWide 4 0xCB800000)) = 0x3F800000
      ∧ collKey 0 0 0 4 true = 0x5000 := by decide +kernel

/-- The lock words of the worked example of 14, and the word that its alias read returns. -/
theorem test_lock_words_of_worked_example :
    lockWord 0xA9D1 0x60 true false false 0x41 = 0x000041010180A9D1 ∧ lockWord 0xA9D1 0x60 true false true 0x41 = 0x000041050180A9D1
      ∧ lockWord 0xA9EA (reqId 1 0 2) true true false 0x42 = 0x000042038008A9EA
      ∧ aliasWord 0 0x000042038008A9EA = 0x0000420000000030 := by decide +kernel

/-- The window of the worked example of 12: its span, the address of its entry, and the fields that its words spell. -/
theorem test_span_of_worked_example :
    let s := csrPut (csrPut run 0x0710D000 0x2A08400740000409) 0x0710D008 0x000008005A3E0091
    spanOf 0x034000000000 = 0xD00 ∧ F.gwSpanMode.key 0xD00 = 0x0710D000 ∧ rd s F.gwSpanHomeDev 0xD00 = 0xA821
      ∧ rd s F.gwSpanTc 0xD00 = 4 ∧ rd s F.gwSpanMode 0xD00 = 1 := by decide +kernel

/-- The budget cut of the worked example of 16: A after the first three periods. -/
theorem test_kiln_credits_of_worked_example :
    let s := wr (wr (wr run F.knBudgetSoftW 400) F.knCreditAllowNj 300000) F.knAllowMaxNj 300000
    rd (credits s 450) F.knCreditAllowNj = 175000 ∧ rd (credits (credits s 450) 446) F.knCreditAllowNj = 60000
      ∧ rd (credits (credits (credits s 450) 446) 438) F.knCreditAllowNj = 0 := by decide +kernel

/-- The PUT descriptor of the worked example of 15: its OP, TC, LEN, and its destination. -/
theorem test_descriptor_of_worked_example :
    let d : List Word := [0x0000000800040501, 1, 0x0000000128F0EC85, 0x6B210E04, 0xA001F48, 0, 0x2A, 0]
    dOp d = 1 ∧ dSignal d = true ∧ dInline d = true ∧ dTc d = 4 ∧ dLen d = 8 ∧ dDev d = 0xEC85 ∧ dEc d = 0x4A3C ∧ putBad d = false := by
  decide +kernel

/-- R106: the pairs 00, 01, 11, 10, first bit first, are the levels 0 to 3, and a lane sends what its partner reads. -/
theorem test_gray_code : pamLevels 4 0b01111000 = 0b11100100 ∧ pamBits 4 0b11100100 = 0b01111000 := by decide +kernel


/-- The recalibration record of the worked example of 04. -/
theorem test_lane_record_of_worked_example :
    csrView (stampLane run 37 2 63 898) 0x01025010 = 0x03823F20 := by decide +kernel

/-- The CRCs' published check values over the digits 1 to 9: the header CRC and the 32-bit CRC. -/
theorem test_crc_check_values :
    crc16 ((List.range 9).map fun i => BitVec.ofNat 8 (49 + i)) = 0x29B1
      ∧ crc32c ((List.range 9).map fun i => BitVec.ofNat 8 (49 + i)) = 0xE3069283 := by decide +kernel

end Sys2Proof.Tests
end

section
/-!
SUPPORT. The register file's canonical form (R5): tables with keys strictly rising, what a write and a removal keep of them, and that
a register file in its canonical form is told by what it reads.
-/

namespace Sys2Proof.Machine

/-! ### Sparse tables in rising order -/

theorem sortedKeys_cons {α : Type} (a : Nat × α) (t : Map α) :
    sortedKeys (a :: t) = true ↔ (∀ e ∈ t, a.1 < e.1) ∧ sortedKeys t = true := by
  induction t generalizing a with
  | nil => simp [sortedKeys]
  | cons b t ih =>
    simp only [sortedKeys, Bool.and_eq_true, decide_eq_true_eq, List.forall_mem_cons]
    refine ⟨fun ⟨hab, hs⟩ => ⟨⟨hab, fun e he => ?_⟩, hs⟩, fun ⟨⟨hab, _⟩, hs⟩ => ⟨hab, hs⟩⟩
    exact Nat.lt_trans hab (((ih b).mp hs).1 e he)

theorem mem_mset {α : Type} {m : Map α} {k : Nat} {v : α} {e : Nat × α} (h : e ∈ mset m k v) : e = (k, v) ∨ e ∈ m := by
  induction m with
  | nil => simpa [mset] using h
  | cons a t ih =>
    simp only [mset] at h
    split at h
    · simpa using h
    · split at h
      · rcases List.mem_cons.mp h with h | h <;> simp [h]
      · rcases List.mem_cons.mp h with h | h
        · simp [h]
        · rcases ih h with h | h <;> simp [h]

theorem mdel_eq_filter {α : Type} (m : Map α) (k : Nat) : mdel m k = m.filter fun e => decide (k ≠ e.1) := by
  induction m with
  | nil => rfl
  | cons a t ih =>
    simp only [mdel, ih, List.filter_cons]
    by_cases h : k = a.1 <;> simp [h]

theorem mem_of_mem_mdel {α : Type} {m : Map α} {k : Nat} {e : Nat × α} (h : e ∈ mdel m k) : e ∈ m := by
  rw [mdel_eq_filter] at h
  exact (List.mem_filter.mp h).1

theorem sortedKeys_mset {α : Type} (m : Map α) (k : Nat) (v : α) (h : sortedKeys m = true) : sortedKeys (mset m k v) = true := by
  induction m with
  | nil => rfl
  | cons a t ih =>
    obtain ⟨ha, ht⟩ := (sortedKeys_cons a t).mp h
    simp only [mset]
    split
    · next hk =>
      exact (sortedKeys_cons _ _).mpr ⟨List.forall_mem_cons.mpr ⟨hk, fun e he => Nat.lt_trans hk (ha e he)⟩, h⟩
    · split
      · next hk => exact (sortedKeys_cons _ _).mpr ⟨by simpa [hk] using ha, ht⟩
      · next hlt hne =>
        refine (sortedKeys_cons _ _).mpr ⟨fun e he => ?_, ih ht⟩
        rcases mem_mset he with rfl | he
        · show a.1 < k; omega
        · exact ha e he

theorem sortedKeys_mdel {α : Type} (m : Map α) (k : Nat) (h : sortedKeys m = true) : sortedKeys (mdel m k) = true := by
  induction m with
  | nil => rfl
  | cons a t ih =>
    obtain ⟨ha, ht⟩ := (sortedKeys_cons a t).mp h
    simp only [mdel]
    split
    · exact ih ht
    · exact (sortedKeys_cons _ _).mpr ⟨fun e he => ha e (mem_of_mem_mdel he), ih ht⟩

/-- A key below every listed one is not listed. -/
theorem mget_of_below {α : Type} (m : Map α) (k : Nat) (h : ∀ e ∈ m, k < e.1) : mget m k = none := by
  induction m with
  | nil => rfl
  | cons a t ih =>
    obtain ⟨ha, ht⟩ := List.forall_mem_cons.mp h
    simp [mget, Nat.ne_of_lt ha, ih ht]

/-! ### The canonical register file -/

theorem csrCanonical_nil : CsrCanonical [] := ⟨rfl, by simp⟩

theorem csrCanonical_cons (k : Nat) (w : Word) (t : Map Word) :
    CsrCanonical ((k, w) :: t) ↔ w ≠ csrDefault k ∧ (∀ e ∈ t, k < e.1) ∧ CsrCanonical t := by
  unfold CsrCanonical
  rw [sortedKeys_cons, List.forall_mem_cons]
  exact ⟨fun ⟨⟨hb, hs⟩, hw, hd⟩ => ⟨hw, hb, hs, hd⟩, fun ⟨hw, hb, hs, hd⟩ => ⟨⟨hb, hs⟩, hw, hd⟩⟩

theorem csrCanonical_csrStore (m : Map Word) (key : Nat) (w : Word) (h : CsrCanonical m) : CsrCanonical (csrStore m key w) := by
  obtain ⟨hs, hd⟩ := h
  unfold csrStore
  split
  · exact ⟨sortedKeys_mdel m key hs, fun e he => hd e (mem_of_mem_mdel he)⟩
  · next hw =>
    refine ⟨sortedKeys_mset m key w hs, fun e he => ?_⟩
    rcases mem_mset he with rfl | he
    · exact hw
    · exact hd e he

theorem csrCanonical_csrReset (k : ResetKind) (p : Nat → Bool) (m : Map Word) : CsrCanonical (csrReset k p m) := by
  induction m with
  | nil => exact csrCanonical_nil
  | cons a t ih => exact csrCanonical_csrStore _ _ _ ih

/-- What a key below every listed one reads. -/
theorem mgetD_of_below (m : Map Word) (k : Nat) (d : Word) (h : ∀ e ∈ m, k < e.1) : mgetD m k d = d := by
  simp [mgetD, mget_of_below m k h]

theorem mgetD_cons_same {α : Type} (k : Nat) (v : α) (t : Map α) (d : α) : mgetD ((k, v) :: t) k d = v := by simp [mgetD, mget]

theorem mgetD_cons_ne {α : Type} (k k' : Nat) (v : α) (t : Map α) (d : α) (h : k' ≠ k) : mgetD ((k, v) :: t) k' d = mgetD t k' d := by
  simp [mgetD, mget, h]

/-- Of two canonical register files that read alike at the first offset of one, the other begins no higher. -/
theorem csrCanonical_first_le {k1 k2 : Nat} {v1 v2 : Word} {t1 t2 : Map Word} (h1 : CsrCanonical ((k1, v1) :: t1))
    (h2 : CsrCanonical ((k2, v2) :: t2))
    (h : mgetD ((k1, v1) :: t1) k1 (csrDefault k1) = mgetD ((k2, v2) :: t2) k1 (csrDefault k1)) : k2 ≤ k1 := by
  obtain ⟨hv, -, -⟩ := (csrCanonical_cons _ _ _).mp h1
  obtain ⟨-, hb, -⟩ := (csrCanonical_cons _ _ _).mp h2
  refine Nat.le_of_not_lt fun hlt => ?_
  rw [mgetD_cons_same, mgetD_of_below _ _ _ (List.forall_mem_cons.mpr ⟨hlt, fun e he => Nat.lt_trans hlt (hb e he)⟩)] at h
  exact hv h

/-- Canonical register files that read alike at every offset are equal. -/
theorem csrCanonical_ext (m1 m2 : Map Word) (h1 : CsrCanonical m1) (h2 : CsrCanonical m2)
    (h : ∀ key, mgetD m1 key (csrDefault key) = mgetD m2 key (csrDefault key)) : m1 = m2 := by
  induction m1 generalizing m2 with
  | nil =>
    cases m2 with
    | nil => rfl
    | cons b t2 =>
      have hb := h b.1
      rw [mgetD_cons_same] at hb
      exact absurd hb.symm ((csrCanonical_cons _ _ _).mp h2).1
  | cons a t1 ih =>
    cases m2 with
    | nil =>
      have ha := h a.1
      rw [mgetD_cons_same] at ha
      exact absurd ha ((csrCanonical_cons _ _ _).mp h1).1
    | cons b t2 =>
      obtain ⟨k1, v1⟩ := a
      obtain ⟨k2, v2⟩ := b
      obtain rfl : k1 = k2 := Nat.le_antisymm (csrCanonical_first_le h2 h1 (h k2).symm) (csrCanonical_first_le h1 h2 (h k1))
      obtain ⟨-, hb1, ht1⟩ := (csrCanonical_cons _ _ _).mp h1
      obtain ⟨-, hb2, ht2⟩ := (csrCanonical_cons _ _ _).mp h2
      have hv : v1 = v2 := by simpa only [mgetD_cons_same] using h k1
      have ht : t1 = t2 := ih t2 ht1 ht2 fun key => by
        by_cases hk : key = k1
        · rw [hk, mgetD_of_below t1 k1 _ hb1, mgetD_of_below t2 k1 _ hb2]
        · simpa only [mgetD_cons_ne k1 key _ _ _ hk] using h key
      rw [hv, ht]

end Sys2Proof.Machine
end

section
/-!
SUPPORT. The fields of a register lie apart, so an operation that treats a word field by field treats each field on its own: a reset
(R10 to R12), a read that clears RC fields (R6).
-/

namespace Sys2Proof.Machine

/-! ### Fields within a word and apart -/

/-- No two of the fields share a bit, and each lies within its word. -/
abbrev FieldsApart (fs : List Field) : Prop :=
  (∀ f ∈ fs, f.lo + f.width ≤ 64) ∧ fs.Pairwise fun f g => f.lo + f.width ≤ g.lo ∨ g.lo + g.width ≤ f.lo

/-- The blocks that regsAt chooses among. -/
def regBlocks : List (List Reg) :=
  [[], blockTop, blockArm, blockFc, blockFw, blockKn, blockPm, blockLn, blockLl, blockSw, blockRt, blockTp, blockMt, blockXl, blockMr,
    blockGw, blockCl, blockEx, blockAt, blockHi, blockQm, blockSc]

theorem regBlocks_apart : ∀ b ∈ regBlocks, ∀ r ∈ b, FieldsApart r.fields := by decide +kernel

theorem regsAt_mem (key : Nat) : regsAt key ∈ regBlocks := by
  unfold regsAt
  repeat' with_reducible refine iteInduction (motive := (· ∈ regBlocks)) (fun _ => ?_) (fun _ => ?_)
  all_goals simp only [regBlocks, List.mem_cons, true_or, or_true]

theorem regFind_apart {key : Nat} {r : Reg} (h : regFind key = some r) : FieldsApart r.fields :=
  regBlocks_apart _ (regsAt_mem key) r (List.mem_of_find?_eq_some h)

theorem fieldsAt_of_regFind {key : Nat} {r : Reg} (h : regFind key = some r) : fieldsAt key = r.fields := by simp [fieldsAt, h]

theorem fieldsAt_apart (key : Nat) : FieldsApart (fieldsAt key) := by
  unfold fieldsAt
  split
  · next h => exact regFind_apart h
  · exact ⟨by simp, List.Pairwise.nil⟩

/-! ### Words treated field by field -/

/-- A field apart from the one written is left as it was. -/
theorem wordGet_wordSet_apart (w : Word) (v : Nat) {g f : Field} (hg : g.lo + g.width ≤ 64)
    (h : g.lo + g.width ≤ f.lo ∨ f.lo + f.width ≤ g.lo) : wordGet (wordSet w g.lo g.width v) f.lo f.width = wordGet w f.lo f.width := by
  rcases h with h | h
  · exact wordGet_wordSet_above w _ _ _ _ _ hg h
  · exact wordGet_wordSet_below w _ _ _ _ _ hg h

/-- A treatment of one field of a word: it leaves the word, or writes that field. -/
def FieldStep (step : Word → Field → Word) : Prop := ∀ w g, step w g = w ∨ ∃ v, step w g = wordSet w g.lo g.width v

theorem FieldStep.apart {step : Word → Field → Word} (hs : FieldStep step) (w : Word) {g f : Field} (hg : g.lo + g.width ≤ 64)
    (h : g.lo + g.width ≤ f.lo ∨ f.lo + f.width ≤ g.lo) : wordGet (step w g) f.lo f.width = wordGet w f.lo f.width := by
  rcases hs w g with e | ⟨v, e⟩
  · rw [e]
  · rw [e, wordGet_wordSet_apart w v hg h]

theorem FieldStep.foldl_apart {step : Word → Field → Word} (hs : FieldStep step) (f : Field) (fs : List Field) (w : Word)
    (hfs : ∀ g ∈ fs, g.lo + g.width ≤ 64) (h : ∀ g ∈ fs, g.lo + g.width ≤ f.lo ∨ f.lo + f.width ≤ g.lo) :
    wordGet (fs.foldl step w) f.lo f.width = wordGet w f.lo f.width := by
  induction fs generalizing w with
  | nil => rfl
  | cons g fs ih =>
    obtain ⟨hg, hfs⟩ := List.forall_mem_cons.mp hfs
    obtain ⟨ha, h⟩ := List.forall_mem_cons.mp h
    rw [List.foldl_cons, ih _ hfs h, hs.apart w hg ha]

/-- Of a register's fields treated in turn, a field reads what its own treatment gives. -/
theorem FieldStep.foldl_same {step : Word → Field → Word} (hs : FieldStep step) {f : Field} {out : Nat → Nat}
    (hf : ∀ w, wordGet (step w f) f.lo f.width = out (wordGet w f.lo f.width)) (fs : List Field) (w : Word) (h : FieldsApart fs)
    (hm : f ∈ fs) : wordGet (fs.foldl step w) f.lo f.width = out (wordGet w f.lo f.width) := by
  induction fs generalizing w with
  | nil => simp at hm
  | cons g fs ih =>
    obtain ⟨hin, hap⟩ := h
    obtain ⟨hg, hfs⟩ := List.forall_mem_cons.mp hin
    obtain ⟨ha, hap⟩ := List.pairwise_cons.mp hap
    rw [List.foldl_cons]
    rcases List.mem_cons.mp hm with rfl | hm
    · rw [hs.foldl_apart f fs _ hfs fun g' hg' => (ha g' hg').symm, hf]
    · rw [ih _ ⟨hfs, hap⟩ hm, hs.apart w hg (ha f hm)]

/-! ### Resets and clearing reads -/

/-- A field after a reset: its reset value when the reset restores it, else as it was. -/
theorem wordGet_wordReset (k : ResetKind) (key : Nat) (w : Word) {f : Field} (hm : f ∈ fieldsAt key) :
    wordGet (wordReset k key w) f.lo f.width = wordGet (if k.restores f.rst then csrDefault key else w) f.lo f.width := by
  have hs : FieldStep fun w f =>
      if k.restores f.rst then wordSet w f.lo f.width (wordGet (csrDefault key) f.lo f.width) else w := fun w g => by
    dsimp only
    split
    · exact .inr ⟨_, rfl⟩
    · exact .inl rfl
  have hin := (fieldsAt_apart key).1 f hm
  rw [wordReset, hs.foldl_same (out := fun x => if k.restores f.rst then wordGet (csrDefault key) f.lo f.width else x) (fun w => ?_)
    _ _ (fieldsAt_apart key) hm]
  · split <;> rfl
  · split
    · rw [wordGet_wordSet_same _ _ _ _ hin]
      exact Nat.mod_mod _ _
    · rfl

/-- An RC field after a read of a part of its word: zero when the part holds it whole, else as it was (R6). -/
theorem wordGet_clearRc {fs : List Field} (h : FieldsApart fs) (lo width : Nat) (w : Word) {f : Field} (hm : f ∈ fs) (hrc : f.acc = .rc) :
    wordGet (clearRc fs lo width w) f.lo f.width
      = if lo ≤ f.lo ∧ f.lo + f.width ≤ lo + width then 0 else wordGet w f.lo f.width := by
  have hin := h.1 f hm
  refine FieldStep.foldl_same (out := fun x => if lo ≤ f.lo ∧ f.lo + f.width ≤ lo + width then 0 else x) (fun w g => ?_) (fun w => ?_)
    fs w h hm
  · split
    · split
      · exact .inr ⟨0, rfl⟩
      · exact .inl rfl
    · exact .inl rfl
  · simp only [hrc]
    split
    · rw [wordGet_wordSet_same _ _ _ _ hin, Nat.zero_mod]
    · rfl

end Sys2Proof.Machine
end

section
/-!
SUPPORT. Register accesses past the gate (R6, R8, R557): what CSR_WRITE_GENERIC and CSR_READ_CLEAR hand on, and what a read returns.
-/

namespace Sys2Proof.Machine

/-! ### What a read returns -/

theorem csrRead_fst (s : State) (key width : Nat) :
    (csrRead s key width).1 = csrPut s (key / 8 * 8) (clearRc (fieldsAt (key / 8 * 8))
      (if width = 32 ∧ key / 4 % 2 = 1 then 32 else 0) (if width = 32 then 32 else 64) (csrRaw s (key / 8 * 8))) := rfl

theorem wordGet_whole (w : Word) : BitVec.ofNat 64 (wordGet w 0 64) = w := by
  rw [wordGet, Nat.pow_zero, Nat.div_one, Nat.mod_eq_of_lt w.isLt, BitVec.ofNat_toNat, BitVec.setWidth_eq]

theorem csrRead_whole (s : State) (key : Nat) :
    (csrRead s key 64).2 = maskWo (fieldsAt (key / 8 * 8)) (csrView s (key / 8 * 8)) :=
  wordGet_whole _

/-- A 32-bit read returns the half of the word that bit 2 of its offset selects (R6). -/
theorem csrRead_half (s : State) (key : Nat) :
    (csrRead s key 32).2
      = BitVec.ofNat 64 ((csrRead s key 64).2.toNat / 2 ^ (if key / 4 % 2 = 1 then 32 else 0) % 2 ^ 32) := by
  rw [csrRead_whole]
  simp [csrRead, csrValue, wordGet]

/-! ### Writes -/

theorem exec_csrWriteGeneric (who : Who) (off width : Nat) (val : Word) (s : State) :
    exec (.csrWriteGeneric who off width val) s = .next (settled s (csrWriteAt s who off width val noEnv)) := rfl

theorem exec_csrReadClear (who : Who) (off width : Nat) (s : State) :
    exec (.csrReadClear who off width) s = .next (settled s (csrReadBy s who off width)) := rfl

/-- Where the writer sees the register at its own key, a write of an offset is a write of that register. -/
theorem csrWriteAt_eq_csrWriteBy (s : State) {who : Who} {off : Nat} (width : Nat) (w : Word) (env : CsrEnv)
    (h : csrKey who off = some off) : csrWriteAt s who off width w env = csrWriteBy s who off width w env := by
  cases who with
  | fn hp fn => simp only [csrWriteAt, h]; rfl
  | mgmt => rfl

/-- A write narrower than 64 bits by a function that answers is counted, and that is all (R6). -/
theorem csrWriteAt_narrow (s : State) {hp fn : Nat} (off : Nat) {width : Nat} (w : Word) (env : CsrEnv) (hsil : fnSilent s hp fn = false)
    (hen : fnEnabled s hp fn = true) (hhp : hp < 2) (hfn : fn < 256) (hw : width < 64) :
    csrWriteAt s (.fn hp fn) off width w env = refuseWrite (wakePort s hp) := by
  cases hk : csrKey (.fn hp fn) off with
  | none => simp [csrWriteAt, hk, fnSilent_wakePort s hp fn hhp hfn, fnEnabled_wakePort, hsil, hen, hw]
  | some key => simp [csrWriteAt, hk, hostWrite, fnSilent_wakePort s hp fn hhp hfn, fnEnabled_wakePort, hsil, hen, hw]

theorem pageOf_of_lt {key : Nat} (h : key < 0x0A800000) : pageOf key = none := by
  have : key % 0x10000000 = key := Nat.mod_eq_of_lt (by omega)
  simp only [pageOf, this]
  exact if_neg (by omega)

/-- A legal write of a TOP, ARM, MODE or TXN register without effects of its own writes its fields by their access codes (R9). -/
theorem blockWrite_top_plain (s : State) (who : Who) {key : Nat} (w : Word) (env : CsrEnv) (h : key < 0x00200000)
    (hne : key ∉ [0x10, 0x108, 0x100008, 0x100018, 0x100060, 0x101000, 0x101008, 0x101010, 0x101018, 0x102000]) :
    blockWrite s who key w env = csrPlain s key w := by
  have hp : pageOf key = none := pageOf_of_lt (by omega)
  simp only [blockWrite, hp, if_pos h]
  simp only [List.mem_cons, List.not_mem_nil, or_false, not_or] at hne
  unfold topWrite
  split <;> simp_all

theorem csrPlain_legal (s : State) {key : Nat} {w : Word} (hr : (regFind key).isSome = true) (hl : wordLegal (fieldsAt key) w = true) :
    csrPlain s key w = csrPut s key (wordWrite (locked s key) (fieldsAt key) (csrRaw s key) w) := by
  obtain ⟨r, hr⟩ := Option.isSome_iff_exists.mp hr
  rw [fieldsAt_of_regFind hr] at hl ⊢
  simp only [csrPlain, hr, hl, if_true]

theorem takesWrites_of_not_rwt {key : Nat} (hr : (regFind key).isSome = true) (hrwt : isRwt key = false) : takesWrites key = true := by
  simp [takesWrites, hr, hrwt]

/-- A write at an offset with no register is discarded (R8). -/
theorem csrApply_no_register (env : CsrEnv) (s : State) (who : Who) {key : Nat} (w : Word) (h : regFind key = none) :
    csrApply env s who key w = s := by
  simp [csrApply, h]

/-! ### Reads -/

/-- A read by a function that is served: what its part of the word holds is returned, and the RC fields in it are cleared. -/
theorem hostRead_served {s : State} {hp fn off key : Nat} (width : Nat) (h : Served s (.fn hp fn)) (hk : csrKey (.fn hp fn) off = some key) :
    hostRead s hp fn off width
      = emit (csrRead (wakePort s hp) key width).1 (.readData (.fn hp fn) off (csrRead (wakePort s hp) key width).2) := by
  obtain ⟨hhold, hrec, hhp, hfn, hsil, hen⟩ := h
  simp [hostRead, readNow, holdOn_wakePort, hhold, fnSilent_wakePort s hp fn hhp hfn, hsil, fnEnabled_wakePort, hen, hk,
    inRecovery_wakePort, hrec]

/-- A message of the management controller is answered at once while firmware runs, none waits before it, and HOLD is not active. -/
theorem mctpIn_at_once {s : State} (via : Nat) (r : MctpReq) (h : Served s .mgmt) : mctpIn s via r = mctpDo s r := by
  obtain ⟨hhold, -, hruns, hnone⟩ := h
  have hsame : setFw s (fun f => { f with waiting := [] }) = s := by simp only [setFw]; rw [← hnone]
  have hwaits : ∀ l, mctpWaits (setFw s fun f => { f with waiting := l }) r = false := fun l => by
    have e : firmwareRuns (setFw s fun f => { f with waiting := l }) = true := hruns
    have e' : holdOn (setFw s fun f => { f with waiting := l }) = false := hhold
    simp only [mctpWaits, e, e', Bool.not_true, Bool.false_or]
    split <;> rfl
  have hin : setFw s (fun f => { f with waiting := f.waiting ++ [(via, r)] }) = setFw s fun f => { f with waiting := [(via, r)] } := by
    simp only [setFw, hnone, List.nil_append]
  have hback : setFw (setFw s fun f => { f with waiting := [(via, r)] }) (fun f => { f with waiting := [] }) = s := hsame
  simp only [mctpIn, hin, setFw_fw, List.length_singleton, mctpRun, mctpPick, hwaits, List.contains_nil, Bool.or_self, Bool.false_eq_true,
    if_false, hback]

theorem mctpRead_served {s : State} {off : Nat} (h : Served s .mgmt) (h8 : off % 8 = 0) (hb : off < 0x0C000000) :
    mctpRead s off = emit (csrRead s off 64).1 (.mctp 0 [(csrRead s off 64).2]) := by
  obtain ⟨-, hrec, -, -⟩ := h
  simp [mctpRead, mctpOffOk_wr off h8 hb, hrec]

end Sys2Proof.Machine
end

section
/-!
The obligations of the scope chapter: the register file's form, resets, and register accesses.
-/

namespace Sys2Proof.Machine

/-- Settles O7: a write and a reset keep the register file canonical, canonical files that read alike are equal, and the fields of
every register of the map lie apart. -/
theorem registerFileKeepsItsForm : Obligations.RegisterFileKeepsItsForm :=
  ⟨csrCanonical_csrStore, csrCanonical_csrReset, csrCanonical_ext, fun _ _ => regFind_apart⟩

/-- Settles O8: the containments of R11, and what each field of a register reads after a reset. -/
theorem widerResetRestoresMore : Obligations.WiderResetRestoresMore := by
  unfold Obligations.WiderResetRestoresMore
  refine ⟨?chip, ?hfund, ?blk, ?hot, ?flr, fun k p m key r f hr hf hp => ?field⟩
  case chip | hfund | blk | hot | flr => intro k; cases k <;> decide
  case field =>
    have hm : f ∈ fieldsAt key := by rw [fieldsAt_of_regFind hr]; exact hf
    rw [mgetD_csrReset, if_pos hp, wordGet_wordReset k key _ hm]

/-- Settles O14: a narrow write by a function is counted and has no other effect; a read returns and clears the part it asks for. -/
theorem narrowWritesCountedPartialReadsClearNothing : Obligations.NarrowWritesCountedPartialReadsClearNothing := by
  unfold Obligations.NarrowWritesCountedPartialReadsClearNothing
  refine ⟨fun s hp fn off width val hsil hen hhp hfn hw => ?_, fun s key => ⟨csrRead_whole s key, csrRead_half s key⟩,
    fun s key width f hwidth hf hrc => ?_⟩
  · rw [exec_csrWriteGeneric, csrWriteAt_narrow s off val noEnv hsil hen hhp hfn hw]
  · have hn : (if width = 32 then 32 else 64) = width := by rcases hwidth with rfl | rfl <;> rfl
    rw [csrRead_fst, csrRaw_csrPut_same, hn, wordGet_clearRc (fieldsAt_apart _) _ _ _ hf hrc]

/-- Settles O13: a served write passes the gate to csrApply, which writes, refuses or discards; a served read is answered at once. -/
theorem registerAccessesComplete : Obligations.RegisterAccessesComplete := by
  unfold Obligations.RegisterAccessesComplete
  refine ⟨fun s who off width val h hw hk h8 hb hne hr hrwt hl => ?_, fun s who off width val h hw hk h8 hb hr hrwt hj hl => ?_,
    fun s who off width val h hw hk h8 hb hr => ?_, fun s hp fn off key width h hk => ?_, fun s off width h h8 hb => ?_⟩
  · rw [exec_csrWriteGeneric, csrWriteAt_eq_csrWriteBy s width val noEnv hk]
    rw [csrWriteBy_eq s who off width val noEnv _ h hw h8 (by omega) fun t _ hrec => ?_]
    rw [csrApply_block noEnv t who off val hrec (takesWrites_of_not_rwt hr hrwt) (.inr hl), blockWrite_top_plain t who val noEnv hb hne,
      csrPlain_legal t hr hl]
  · rw [exec_csrWriteGeneric, csrWriteAt_eq_csrWriteBy s width val noEnv hk]
    rw [csrWriteBy_eq s who off width val noEnv _ h hw h8 hb fun t _ hrec => ?_]
    exact csrApply_refused noEnv t who off val hrec (takesWrites_of_not_rwt hr hrwt) hj hl
  · rw [exec_csrWriteGeneric, csrWriteAt_eq_csrWriteBy s width val noEnv hk]
    rw [csrWriteBy_eq s who off width val noEnv _ h hw h8 hb fun t _ _ => csrApply_no_register noEnv t who val hr]
    rfl
  · rw [exec_csrReadClear, csrReadBy, hostRead_served width h hk]
  · rw [exec_csrReadClear, csrReadBy, mctpIn_at_once 2 _ h, mctpDo, mctpRead_served h h8 hb]

end Sys2Proof.Machine
end

section
/-!
SUPPORT. The end of every step, the mode that it reports (R27), and what the state holds at power-on reset.
-/

namespace Sys2Proof.Machine

/-! ### The end of a step -/

/-- Every command ends in the follow-up of what its effect leaves. -/
theorem exec_settles (c : Instr) (s : State) : ∃ e, exec c s = .next (settled s e) := by
  cases c <;> exact ⟨_, rfl⟩

/-- Every step leaves MODE_STAT.MODE in step with the base state and the conditions. -/
theorem step_inStep {s t : State} (h : step s = .next t) : ModeInStep t := by
  unfold step at h
  split at h
  · next c rest _ =>
    obtain ⟨e, he⟩ := exec_settles c { s with pending := rest }
    rw [he] at h
    cases h
    exact settled_inStep _ e
  · cases h
    exact settled_inStep _ _

/-- The mode of R27 as a list of conditions, the first that holds. -/
theorem modeCode_eq (b : Nat) (h f w r : Bool) :
    modeCode b h f w r = if b = 0 then 0 else if b = 1 then 1 else if b = 3 then 7 else if h = true then 4 else if f = true then 6
      else if w = true then 5 else if r = true then 3 else 2 := by
  unfold modeCode
  split
  · rfl
  · rfl
  · rfl
  · next h0 h1 h3 => rw [if_neg h0, if_neg h1, if_neg h3]

/-! ### The state at power-on reset -/

/-- Nothing has been written at power-on reset: every field reads its reset value. -/
theorem rd_reset (f : Fld) (i j : Nat) : rd State.reset f i j = wordGet (csrDefault (f.key i)) (f.lo + f.bstep * j) f.width := rfl

theorem baseOf_reset : baseOf State.reset = 1 := by rw [baseOf, rd_reset]; decide +kernel

theorem modeStatMode_reset : rd State.reset F.modeStatMode = 1 := by rw [rd_reset]; decide +kernel

theorem reset_inStep : ModeInStep State.reset := by rw [ModeInStep, modeStatMode_reset, baseOf_reset]; rfl

theorem noCondition_reset : noCondition State.reset = true := by decide +kernel

theorem linkUp_reset {hp : Nat} (h : hp < 2) : rdb State.reset F.hiPortStatLinkUp hp = false := by
  obtain rfl | rfl : hp = 0 ∨ hp = 1 := by omega
  all_goals rw [rdb, rd_reset]; decide +kernel

end Sys2Proof.Machine
end

section
/-!
SUPPORT. The writes of MODE_CTL, TOP_DEVICE_ID and LCK_BITS (R35 to R38, R67, R70): what each does past the gate,
and the end of the entry to TEST.
-/

namespace Sys2Proof.Machine

/-! ### Writers -/

theorem isPf0_fn {hp : Nat} (fn : Nat) (h : hp < 2) : isPf0 (.fn hp fn) = decide (fn = 0) := by
  obtain rfl | rfl : hp = 0 ∨ hp = 1 := by omega
  all_goals cases fn <;> rfl

theorem isPf0_of_served {s : State} {who : Who} (h : Served s who) (hwho : who = .mgmt ∨ ∃ hp, who = .fn hp 0) : isPf0 who = true := by
  rcases hwho with rfl | ⟨hp, rfl⟩
  · rfl
  · obtain ⟨-, -, hhp, -⟩ := h
    exact isPf0_fn 0 hhp

/-- PF0 of a port and the management controller see a register below the function pages at its own offset (R448). -/
theorem csrKey_pf0 {who : Who} {off : Nat} (hwho : who = .mgmt ∨ ∃ hp, who = .fn hp 0) (h : off < 0x0A800000) :
    csrKey who off = some off := by
  rcases hwho with rfl | ⟨hp, rfl⟩
  · exact if_neg (by omega)
  · simp only [csrKey]
    rw [if_neg (by omega), if_neg (by omega)]

/-! ### What a served write finds unchanged -/

theorem Entry.holdOn_eq {t s : State} (h : Entry t s) : holdOn t = holdOn s := h.rdb' _ 0 0 (by decide) (by decide) (by decide)
theorem Entry.fenceOn_eq {t s : State} (h : Entry t s) : fenceOn t = fenceOn s := h.rdb' _ 0 0 (by decide) (by decide) (by decide)
theorem Entry.brownOn_eq {t s : State} (h : Entry t s) : brownOn t = brownOn s := h.rdb' _ 0 0 (by decide) (by decide) (by decide)
theorem Entry.baseOf_eq {t s : State} (h : Entry t s) : baseOf t = baseOf s := h.raw _ 0 0 (by decide) (by decide) (by decide)
theorem Entry.hi_eq {t s : State} (h : Entry t s) : t.hi = s.hi := by
  have hs : t = { s with csr := t.csr } := h.same
  exact (congrArg State.hi hs :)

theorem Entry.enterTestCause_eq {t s : State} (h : Entry t s) : enterTestCause t = enterTestCause s := by
  have hwqs : wqsQuiet t = wqsQuiet s := by simp only [wqsQuiet, h.hi_eq]
  have hown : rd t F.txnOwnerOwner = rd s F.txnOwnerOwner := h.raw _ 0 0 (by decide) (by decide) (by decide)
  simp only [enterTestCause, h.baseOf_eq, h.holdOn_eq, h.brownOn_eq, h.fenceOn_eq, hown, hwqs]

/-! ### MODE_CTL -/

/-- A write below FC's registers is one of the TOP, ARM, MODE, TXN or LCK registers. -/
theorem blockWrite_top (t : State) (who : Who) {key : Nat} (w : Word) (env : CsrEnv) (h : key < 0x00200000) :
    blockWrite t who key w env = topWrite t who key w env := by
  have hp : pageOf key = none := pageOf_of_lt (by omega)
  simp only [blockWrite, hp, if_pos h]

theorem blockWrite_modeCtl (t : State) (who : Who) (w : Word) (env : CsrEnv) :
    blockWrite t who 0x108 w env = modeReq t who (wordGet w 0 2) := by
  rw [blockWrite_top t who w env (by omega), topWrite]

/-- A served write of MODE_CTL reaches modeReq (R35). -/
theorem csrWriteBy_modeCtl {s : State} {who : Who} {width r : Nat} {w : Word} {f : State → State} (h : Served s who) (hw : 64 ≤ width)
    (hl : wordLegal (fieldsAt 0x108) w = true) (hr : wordGet w 0 2 = r) (hf : ∀ t, Entry t s → modeReq t who r = f t) :
    csrWriteBy s who 0x108 width w noEnv = viaGate s who f :=
  csrWriteBy_block s who 0x108 width w noEnv f h hw (by decide +kernel) (.inr hl) fun t ht => by rw [blockWrite_modeCtl, hr, hf t ht]

theorem modeReq_of_pf0 {who : Who} {r : Nat} (s : State) (h : isPf0 who = true) (hr : r ≤ 2) :
    modeReq s who r = if r = 1 then enterTest s else if r = 2 then leaveTest s else s := by
  simp only [modeReq, h, Bool.not_true, Bool.false_eq_true, if_false]
  split
  · rfl
  · split
    · rfl
    · rw [if_pos (by omega)]

theorem modeReq_enter {who : Who} (s : State) (h : isPf0 who = true) : modeReq s who 1 = enterTest s := modeReq_of_pf0 s h (by omega)

theorem modeReq_leave {who : Who} (s : State) (h : isPf0 who = true) : modeReq s who 2 = leaveTest s := modeReq_of_pf0 s h (by omega)

theorem modeReq_of_not_pf0 {who : Who} (s : State) (r : Nat) (h : isPf0 who = false) : modeReq s who r = refuseWrite s := by
  simp only [modeReq, h, Bool.not_false, if_true]

theorem exec_modeCtlEnterTest (who : Who) (width : Nat) (s : State) :
    exec (.modeCtlEnterTest who width) s = .next (settled s (csrWriteBy s who 0x108 width (fieldWord 0 1) noEnv)) := rfl

theorem exec_modeCtlLeaveTest (who : Who) (width : Nat) (s : State) :
    exec (.modeCtlLeaveTest who width) s = .next (settled s (csrWriteBy s who 0x108 width (fieldWord 0 2) noEnv)) := rfl

/-- MODE_CTL_ENTER_TEST of a served writer asks for what REQ = 1 asks for. -/
theorem exec_modeCtlEnterTest_served {s : State} {who : Who} {width : Nat} {f : State → State} (h : Served s who) (hw : 64 ≤ width)
    (hf : ∀ t, Entry t s → modeReq t who 1 = f t) : exec (.modeCtlEnterTest who width) s = .next (settled s (viaGate s who f)) := by
  rw [exec_modeCtlEnterTest, csrWriteBy_modeCtl h hw (by decide +kernel) (by decide) hf]

/-- MODE_CTL_LEAVE_TEST of a served writer asks for what REQ = 2 asks for. -/
theorem exec_modeCtlLeaveTest_served {s : State} {who : Who} {width : Nat} {f : State → State} (h : Served s who) (hw : 64 ≤ width)
    (hf : ∀ t, Entry t s → modeReq t who 2 = f t) : exec (.modeCtlLeaveTest who width) s = .next (settled s (viaGate s who f)) := by
  rw [exec_modeCtlLeaveTest, csrWriteBy_modeCtl h hw (by decide +kernel) (by decide) hf]

/-- REQ lists 0, 1 and 2 only (R7). -/
theorem modeCtlReq_le {w : Word} (h : wordLegal (fieldsAt 0x108) w = true) : wordGet w 0 2 ≤ 2 := by
  have hf : (⟨0, 2, .wo, .none, 0, .range 0 2⟩ : Field) ∈ fieldsAt 0x108 := by decide +kernel
  have hok := List.all_eq_true.mp h _ hf
  simpa [Access.judged, Legal.ok] using hok

theorem enterTest_refused {s : State} (h : enterTestCause s ≠ 0) :
    enterTest s = wr (wr s F.modeCtlReqSt 3) F.modeCtlRefuseCause (enterTestCause s) := by
  simp only [enterTest]
  rw [if_pos h]

theorem enterTest_accepted {s : State} (h : enterTestCause s = 0) :
    enterTest s =
      (let s' := releaseForTest { wr (wr s F.modeCtlReqSt 1) F.modeCtlRefuseCause 0 with testReq := .enter }
       (portUnits s').foldl localDown s') := by
  simp only [enterTest]
  rw [if_neg (not_not_intro h)]

theorem leaveTest_refused {s : State} (h : baseOf s ≠ 3) : leaveTest s = wr (wr s F.modeCtlReqSt 3) F.modeCtlRefuseCause 4 := if_pos h

/-! ### Refused writes -/

theorem rd_refuseWrite (t : State) : rd (refuseWrite t) F.topCsrRefusedCount = min (rd t F.topCsrRefusedCount + 1) (2 ^ 32 - 1) := by
  rw [refuseWrite, inc, rd_wr_same _ _ _ _ _ (by decide)]
  simp only [satAdd, F.topCsrRefusedCount]
  omega

theorem csrRaw_refuseWrite_ne (t : State) {key : Nat} (h : key ≠ F.topCsrRefusedCount.key 0) :
    csrRaw (refuseWrite t) key = csrRaw t key :=
  csrRaw_wr_ne _ _ _ _ _ _ h

/-! ### Leaving TEST, the end of its entry, the device ID and the lock bits -/

theorem leaveTest_accepted {s : State} (h : baseOf s = 3) :
    leaveTest s =
      (let t1 := wr (wr s F.modeCtlReqSt 1) F.modeCtlRefuseCause 0
       let t2 := (portUnits t1).foldl (fun u p => linkDown u p 7) t1
       let t3 := { setBase t2 1 with rt := {}, testReq := .leave }
       let t4 := (List.range 272).foldl (fun u n => if rd u F.lnStatPhase n = 0 then u else retrainLane u n 0) t3
       let t5 := rebuildTables (wr t4 F.rtStatJoin 0)
       (portUnits t5).foldl restartLink (buildWith t5 t5.fw.slotArm [])) :=
  if_neg (not_not_intro h)

theorem exec_testEntryDone (s : State) : exec .testEntryDone s = .next (settled s (testEntered s)) := rfl

theorem testEntered_entering {s : State} (hb : baseOf s = 2) (hq : s.testReq = .enter) :
    testEntered s =
      (let t := (portUnits s).foldl (fun u p => linkDown u p 7) s
       modeEntry { wr (changeConds
         { t with tp := { t.tp with cache := [], parked := [] }, xl := { t.xl with l1 := [] } }
         fun u => noConds (wr u F.modeStatBase 3)) F.modeCtlReqSt 2 with testReq := .none } 32) := by
  have he : enteringTest s = true := by simp [enteringTest, hb, hq]
  simp only [testEntered, he, if_true, setTp, setXl]

theorem exec_deviceIdWrite (who : Who) (width : Nat) (val : Word) (flashOk : Bool) (s : State) :
    exec (.deviceIdWrite who width val flashOk) s
      = .next (settled s (csrWriteBy s who 0x10 width val { held := [], flashOk := flashOk })) := rfl

theorem blockWrite_deviceId (t : State) (who : Who) (w : Word) (env : CsrEnv) :
    blockWrite t who 0x10 w env = deviceIdWrite t w env.flashOk := by
  rw [blockWrite_top t who w env (by omega), topWrite]

/-- An ID with a member below MEMBERS is taken in BUILD before the join begins (R70, R100). -/
theorem deviceIdWrite_taken {s : State} {w : Word} (hb : baseOf s = 1) (hj : rd s F.rtStatJoin = 0)
    (hm : wordGet w 0 18 % 64 < rd s F.rtGeomMembers) :
    deviceIdWrite s w true = writeBoard (wr (wrb s F.topDeviceIdValid true) F.topDeviceIdId (wordGet w 0 18))
      fun b => { b with idValid := true, id := wordGet w 0 18 } := by
  simp only [deviceIdWrite, hb, hj]
  rw [if_neg (by omega), if_pos trivial]

theorem exec_lockBitsSet (who : Who) (width : Nat) (val : Word) (s : State) :
    exec (.lockBitsSet who width val) s = .next (settled s (csrWriteBy s who 0x00102000 width val noEnv)) := rfl

theorem blockWrite_lockBits (t : State) (who : Who) (w : Word) (env : CsrEnv) : blockWrite t who 0x00102000 w env = lockBits t who w := by
  rw [blockWrite_top t who w env (by omega), topWrite]

/-- A legal write of LCK_BITS by one that may write it (R67). -/
theorem lockBits_of_pf0 {t : State} {who : Who} {w : Word} (hpf : isPf0 who = true) (hl : wordLegal (fieldsAt 0x00102000) w = true) :
    lockBits t who w =
      (let t' := csrPut t 0x00102000 (wordWrite (locked t 0x00102000) (fieldsAt 0x00102000) (csrRaw t 0x00102000) w)
       if rdb t' F.lckBitsDebugDis then { t' with fw := { t'.fw with debugOpen := false } } else t') := by
  simp only [lockBits, hpf, Bool.not_true, Bool.false_eq_true, if_false]
  rw [csrPlain_legal t (by decide +kernel) hl]
  rfl

end Sys2Proof.Machine
end

section
/-!
SUPPORT. Repairs and port events (17, R450): the cases of each operation's guard, and what each case leaves.
-/

namespace Sys2Proof.Machine

/-! ### Engine tiles -/

theorem exec_tileFail (now p : Nat) (s : State) : exec (.tileFail now p) s = .next (settled s (tileFailed (atTime s now) p)) := rfl

/-- A tile that has failed, or a number beyond the tiles, changes nothing. -/
theorem tileFailed_ignored {s : State} {p : Nat} (h : 52 ≤ p ∨ s.eng.failed.contains p = true) : tileFailed s p = s := if_pos h

/-- A tile that had not failed fails, is told, and SPARE_OUT is told when its die has no spare left (R21, R22). -/
theorem tileFailed_working {s : State} {p : Nat} (hp : p < 52) (h : s.eng.failed.contains p = false) :
    tileFailed s p =
      (let ecs := (s.eng.streams.filter fun e => logicalOf s p == some e.2.tile && e.2.role == 0 && !e.2.waiting).map (·.2.key)
       let u := refreshFcSpares (restartTimers (tell (tell (failTile s p).1 (.fault 5 p)) (.patina 6 p)) ecs)
       if dieOf p = 0 then if rd u F.fcSparesTilesFree0 = 0 then tell u (.fault 2 16) else u
       else if rd u F.fcSparesTilesFree1 = 0 then tell u (.fault 2 (16 + dieOf p)) else u) := by
  have hn : ¬ (p ≥ 52 ∨ s.eng.failed.contains p = true) := by rw [h]; simp [hp]
  rw [tileFailed, if_neg hn]
  by_cases hd : dieOf p = 0 <;> simp only [hd, if_true, if_false]

/-! ### Management pairs and the watchdog -/

theorem exec_mgmtPairFail (now : Nat) (s : State) :
    exec (.mgmtPairFail now) s = .next (settled s (resumeMctp (pairFailed (atTime s now)))) := rfl

theorem exec_mgmtPairRetestDone (now k : Nat) (ok : Bool) (s : State) :
    exec (.mgmtPairRetestDone now k ok) s = .next (settled s (resumeMctp (pairTested (atTime s now) k ok))) := rfl

theorem exec_watchdogRestart (now : Nat) (s : State) :
    exec (.watchdogRestart now) s
      = .next (settled s (if firmwareRuns s then restartWdog (atTime s now) else atTime s now)) := rfl

theorem exec_watchdogExpired (now : Nat) (s : State) :
    exec (.watchdogExpired now) s = .next (settled s (resumeMctp (wdogDue (atTime s now)))) := rfl

theorem pairFailed_of_active {s : State} {k : Nat} (h : s.fc.active = some k) :
    pairFailed s =
      (let u := setFc s fun f => { f with active := f.standby, standby := none, pairFails := f.pairFails ++ [(k, s.timeNs)] }
       refreshFcSpares (tell (tell u (.patina 10 k)) (.fault 8 k))) := by
  rw [pairFailed, h]

/-- A pair that runs, stands by or is retired, and a number beyond the pairs, is not tested. -/
theorem pairTested_ignored {s : State} {k : Nat} (ok : Bool)
    (h : 2 ≤ k ∨ s.fc.active = some k ∨ s.fc.standby = some k ∨ s.fc.retired.contains k = true) : pairTested s k ok = s := if_pos h

theorem not_pairTested_ignored {s : State} {k : Nat} (hk : k < 2) (ha : s.fc.active ≠ some k) (hs : s.fc.standby ≠ some k)
    (hr : s.fc.retired.contains k = false) :
    ¬ (2 ≤ k ∨ s.fc.active = some k ∨ s.fc.standby = some k ∨ s.fc.retired.contains k = true) := by
  simp only [ha, hs, hr, or_false, Bool.false_eq_true]
  omega

theorem pairTested_pass {s : State} {k : Nat} (hk : k < 2) (ha : s.fc.active ≠ some k) (hs : s.fc.standby = none)
    (hr : s.fc.retired.contains k = false) (hc : pairCount s k < 3) :
    pairTested s k true = refreshFcSpares (setFc s fun f => { f with standby := some k }) := by
  rw [pairTested, if_neg (not_pairTested_ignored hk ha (by simp [hs]) hr)]
  simp only [if_true, if_neg (Nat.not_le.mpr hc), hs, Option.isNone_none, Bool.and_self]

theorem pairTested_fail {s : State} {k : Nat} (hk : k < 2) (ha : s.fc.active ≠ some k) (hs : s.fc.standby ≠ some k)
    (hr : s.fc.retired.contains k = false) :
    pairTested s k false =
      (let u := tell (tell (setFc s fun f => { f with pairFails := f.pairFails ++ [(k, s.timeNs)] }) (.patina 10 k)) (.fault 8 k)
       if 3 ≤ pairCount u k then tell (tell (setFc u fun f => { f with retired := f.retired ++ [k] }) (.patina 11 k)) (.fault 2 0x40)
       else u) := by
  rw [pairTested, if_neg (not_pairTested_ignored hk ha hs hr)]
  simp only [Bool.false_eq_true, if_false, Bool.false_and]

/-- The watchdog does nothing with no period, in RECOVERY, while the complex boots, and before the period has passed (R525). -/
theorem wdogDue_not_due {s : State} (h : rd s F.fcWdogPeriodMs = 0 ∨ inRecovery s = true ∨ s.fw.booting = true
    ∨ s.timeNs < s.fc.wdogAt + rd s F.fcWdogPeriodMs * 1000000) : wdogDue s = s := if_pos h

theorem wdogDue_due {s : State} (hp : rd s F.fcWdogPeriodMs ≠ 0) (hr : inRecovery s = false) (hb : s.fw.booting = false)
    (ht : s.fc.wdogAt + rd s F.fcWdogPeriodMs * 1000000 ≤ s.timeNs) : wdogDue s = wdogExpired s := by
  refine if_neg ?_
  simp only [hp, hr, hb, Bool.false_eq_true, false_or]
  omega

theorem wdogExpired_alone {s : State} (h : s.fc.standby = none) :
    wdogExpired s = tell (setFc (restartWdog s) fun f => { f with active := none }) (.fault 22 0) := by
  have hs : (restartWdog s).fc.standby = none := h
  simp only [wdogExpired, hs]

theorem wdogExpired_standby {s : State} {k : Nat} (h : s.fc.standby = some k) (ha : s.fc.active ≠ none) :
    wdogExpired s = pairFailed (restartWdog s) := by
  have hs : (restartWdog s).fc.standby = some k := h
  have hact : (restartWdog s).fc.active.isSome = true := Option.isSome_iff_ne_none.mpr ha
  simp only [wdogExpired, hs, hact, if_true]

/-! ### HBM stacks -/

theorem exec_hbmStackFail (now h : Nat) (s : State) :
    exec (.hbmStackFail now h) s = .next (settled s (stackFailed (atTime s now) h)) := rfl

theorem exec_hbmRemirrorDone (s : State) : exec .hbmRemirrorDone s = .next (settled s (remirrored s)) := rfl

@[simp] theorem refreshGw_fc (s : State) (sp : Nat) : (refreshGw s sp).fc = s.fc := by simp only [refreshGw, wr_fc, wrb_fc]
@[simp] theorem refreshGw_txn (s : State) (sp : Nat) : (refreshGw s sp).txn = s.txn := by simp only [refreshGw, wr_txn, wrb_txn]

/-- A fold whose steps keep a part of the state keeps it. -/
theorem foldl_keeps {α β γ : Type} (g : β → γ) {f : β → α → β} (h : ∀ b a, g (f b a) = g b) (l : List α) (b : β) :
    g (l.foldl f b) = g b := by
  induction l generalizing b with
  | nil => rfl
  | cons a l ih => rw [List.foldl_cons, ih, h]

@[simp] theorem unmirroredLost_fc (s : State) (h : Nat) : (unmirroredLost s h).fc = s.fc :=
  foldl_keeps State.fc (fun t e => by simp only [refreshGw_fc, setGw_fc, drawn_fc]) _ _

@[simp] theorem unmirroredLost_txn (s : State) (h : Nat) : (unmirroredLost s h).txn = s.txn :=
  foldl_keeps State.txn (fun t e => by simp only [refreshGw_txn, setGw_txn, drawn_txn]) _ _

@[simp] theorem farCacheFails_fc (s : State) (h : Nat) : (farCacheFails s h).fc = s.fc := by
  rw [farCacheFails, foldl_keeps State.fc refreshGw_fc]
  split
  · rw [unmirroredLost_fc, setGw_fc]
  · exact setGw_fc _ _

@[simp] theorem farCacheFails_txn (s : State) (h : Nat) : (farCacheFails s h).txn = s.txn := by
  rw [farCacheFails, foldl_keeps State.txn refreshGw_txn]
  split
  · rw [unmirroredLost_txn, setGw_txn]
  · exact setGw_txn _ _

theorem stackFailed_ignored {s : State} {h : Nat} (hl : (liveStacks s.fc.deadStacks s.txn.arm).contains h = false) :
    stackFailed s h = s := if_pos hl

/-- What the failure of a live stack leaves (R521, R604), after the far cache's part of it. -/
theorem stackFailed_live {s : State} {h : Nat} (hl : (liveStacks s.fc.deadStacks s.txn.arm).contains h = true) :
    stackFailed s h =
      (let dead := s.fc.deadStacks ++ [h]
       let b := setFc (farCacheFails s h) fun f => { f with
         deadStacks := dead, unmirrored := decide (2 ≤ (liveStacks dead s.txn.arm).length) }
       let c := dropStaging (setXl b fun x => { x with l2 := mfilter x.l2 fun k _ => stackOf s.txn.arm k != h }) h
       let lost := fun (l : List (List Word)) => ((l.zipIdx).filter fun e => stackOf c.txn.arm e.2 == h).length
       let keep := fun (l : List (List Word)) => ((l.zipIdx).filter fun e => stackOf c.txn.arm e.2 != h).map fun e => e.1
       let d := inc (inc c F.pmStatSnapLost (lost c.pm.snaps)) F.pmSmpStatSmpLost (lost c.pm.samples)
       let e := { d with pm := { d.pm with snaps := keep d.pm.snaps, samples := keep d.pm.samples, shrunk := d.pm.shrunk + 1 } }
       let u := refreshFcSpares (tell (tell e (.patina 7 h)) (.fault 7 h))
       if (liveStacks u.fc.deadStacks u.txn.arm).length = 1 then tell u (.fault 2 0x30) else u) := by
  rw [stackFailed, if_neg (by rw [hl]; decide)]
  simp only [setFc, farCacheFails_fc, farCacheFails_txn, inc_txn]

/-! ### Block resets -/

theorem exec_blockResetDone (now code unit : Nat) (s : State) :
    exec (.blockResetDone now code unit) s = .next (settled s (resumeMctp (endBlockReset (atTime s now) code unit))) := rfl

theorem endBlockReset_ignored {s : State} {code unit : Nat} (h : s.fc.inReset.contains (code, unit) = false) :
    endBlockReset s code unit = s := by
  rw [endBlockReset, h]
  exact if_neg Bool.false_ne_true

/-- A block whose reset ends under a fence stays held (R515). -/
theorem endBlockReset_fenced {s : State} {code unit : Nat} (h : s.fc.inReset.contains (code, unit) = true)
    (hf : blockFenced (setFc s fun f => { f with inReset := f.inReset.erase (code, unit) }) code unit = true) :
    endBlockReset s code unit = setFc s fun f => { f with inReset := f.inReset.erase (code, unit) } := by
  rw [endBlockReset, if_pos h]
  exact if_pos hf

/-- What resumes with a block whose reset ends and that no fence holds (Table 17-7). -/
theorem endBlockReset_resumes {s : State} {code unit : Nat} (h : s.fc.inReset.contains (code, unit) = true)
    (hf : blockFenced (setFc s fun f => { f with inReset := f.inReset.erase (code, unit) }) code unit = false) :
    endBlockReset s code unit =
      (let v := holdLinks (setFc s fun f => { f with inReset := f.inReset.erase (code, unit) }) code unit false
       if code = 0x20 then restartLink (endLocal v (unitOf v unit)) (unitOf v unit)
       else if code = 0x30 then (tilePorts v unit).foldl restartLink ((tilePorts v unit).foldl endLocal v)
       else if code = 0xA0 then refreshServing (endPortReset v unit) unit
       else if code = 0x08 then if v.fw.bootKind = 4 then managed (endWarm v) else v
       else if code = 0x70 then moveAccs v
       else v) := by
  rw [endBlockReset, if_pos h]
  simp only [hf, Bool.false_eq_true, if_false]
  split
  case h_6 hport htile hhost hmgmt hgw => simp only [if_neg hport, if_neg htile, if_neg hhost, if_neg hmgmt, if_neg hgw]
  all_goals simp only [reduceIte, Nat.reduceEqDiff]

/-! ### Host ports -/

theorem exec_pf0EnablesCleared (now hp : Nat) (bme mse : Bool) (s : State) :
    exec (.pf0EnablesCleared now hp bme mse) s
      = .next (settled s (if bme && mse then atTime s now else enablesCleared (atTime s now) hp bme mse)) := rfl

theorem exec_perstDeassert (now hp : Nat) (s : State) :
    exec (.perstDeassert now hp) s = .next (settled s (perstRises (atTime s now) hp)) := rfl

theorem configAnswers_atTime (s : State) (now hp fn : Nat) : configAnswers (atTime s now) hp fn = configAnswers s hp fn := by
  simp only [configAnswers, portOf, wedged, rdb_atTime, rd_atTime, atTime_hi]
  rfl

theorem enablesCleared_unanswered {s : State} {hp : Nat} (bme mse : Bool) (h : configAnswers s hp 0 = false) :
    enablesCleared s hp bme mse = s := by
  rw [enablesCleared, h]
  exact if_neg Bool.false_ne_true

theorem enablesCleared_answered {s : State} {hp : Nat} (bme mse : Bool) (h : configAnswers s hp 0 = true) :
    enablesCleared s hp bme mse =
      (let u := wakePort s hp
       let p := portOf u hp
       refreshServing (setPort u hp { p with cfg := { p.cfg with bme := bme, mse := mse } }) hp) := if_pos h

theorem perstRises_high {s : State} {hp : Nat} (h : (portOf s hp).perstLow = false) : perstRises s hp = s := by
  rw [perstRises, h, Bool.and_false]
  exact if_neg Bool.false_ne_true

theorem perstRises_low {s : State} {hp : Nat} (hhp : hp < 2) (h : (portOf s hp).perstLow = true) :
    perstRises s hp
      = endPortReset (wrb (setPort s hp { portOf s hp with perstLow := false }) F.hiPortStatPerst false hp) hp := by
  rw [perstRises, h, decide_eq_true hhp]
  exact if_pos rfl

end Sys2Proof.Machine
end

section
/-!
The obligations of the chapter on architecture and modes: the reported mode, reset, MODE_CTL and the lock bits, repairs and ports.
-/

namespace Sys2Proof.Machine

/-- Settles O4: every command ends by bringing the mode into step with the base state and the conditions. -/
theorem modeReportsFirstActiveCondition : Obligations.ModeReportsFirstActiveCondition := by
  intro s t h
  have hin : ModeInStep t := step_inStep h
  rw [ModeInStep, modeCode_eq] at hin
  exact hin

/-- Settles O5: the register file is empty at power-on reset, so every field reads its reset value. -/
theorem resetStateIsBuild : Obligations.ResetStateIsBuild := by
  unfold Obligations.ResetStateIsBuild
  refine ⟨baseOf_reset, modeStatMode_reset, reset_inStep, noCondition_reset, rfl, rfl, rfl, linkUp_reset (by omega),
    linkUp_reset (by omega), ?join, ?idValid, ?owner, ?hbm, ?ident⟩
  all_goals decide +kernel

/-- Settles O56: a served write of MODE_CTL reaches modeReq, which acts for PF0 and the management controller and counts for others. -/
theorem modeControlTakesPf0AndManagement : Obligations.ModeControlTakesPf0AndManagement := by
  unfold Obligations.ModeControlTakesPf0AndManagement
  refine ⟨fun s who width h hw hwho => ?pf0, fun s hp fn width h hw hfn => ?other,
    fun t => ⟨rd_refuseWrite t, fun _ hk => csrRaw_refuseWrite_ne t hk, rfl⟩⟩
  case pf0 =>
    have hpf := isPf0_of_served h hwho
    refine ⟨exec_modeCtlEnterTest_served h hw fun t _ => modeReq_enter t hpf,
      exec_modeCtlLeaveTest_served h hw fun t _ => modeReq_leave t hpf, fun val hl => ?_⟩
    rw [exec_csrWriteGeneric, csrWriteAt_eq_csrWriteBy s width val noEnv (csrKey_pf0 hwho (by omega)),
      csrWriteBy_modeCtl h hw hl rfl fun t _ => modeReq_of_pf0 t hpf (modeCtlReq_le hl)]
  case other =>
    obtain ⟨-, -, hhp, -⟩ := id h
    have hpf : isPf0 (.fn hp fn) = false := by rw [isPf0_fn fn hhp, decide_eq_false hfn]
    exact ⟨exec_modeCtlEnterTest_served h hw fun t _ => modeReq_of_not_pf0 t 1 hpf,
      exec_modeCtlLeaveTest_served h hw fun t _ => modeReq_of_not_pf0 t 2 hpf⟩

/-- Settles O10: each write passes the gate to its own operation, whose accepted and refused forms are told apart by what the gate keeps. -/
theorem modeAndLockCommandsComplete : Obligations.ModeAndLockCommandsComplete := by
  unfold Obligations.ModeAndLockCommandsComplete
  refine ⟨fun s who width h hw hpf hc => ?enter, fun s who width h hw hpf hc => ?enterRefused, fun s hb hq => ?entered,
    fun s who width h hw hpf hb => ?leave, fun s who width h hw hpf hb => ?leaveRefused,
    fun s who width val h hw hl hb hj hm => ?deviceId, fun s who width val h hw hpf hl => ?lock⟩
  case enter =>
    refine exec_modeCtlEnterTest_served h hw fun t ht => ?_
    rw [modeReq_enter t hpf, enterTest_accepted (ht.enterTestCause_eq.trans hc)]
  case enterRefused =>
    refine exec_modeCtlEnterTest_served h hw fun t ht => ?_
    have hct := ht.enterTestCause_eq
    rw [modeReq_enter t hpf, enterTest_refused (hct ▸ hc), hct]
  case entered => rw [exec_testEntryDone, testEntered_entering hb hq]
  case leave =>
    refine exec_modeCtlLeaveTest_served h hw fun t ht => ?_
    rw [modeReq_leave t hpf, leaveTest_accepted (ht.baseOf_eq.trans hb)]
  case leaveRefused =>
    refine exec_modeCtlLeaveTest_served h hw fun t ht => ?_
    rw [modeReq_leave t hpf, leaveTest_refused (ht.baseOf_eq ▸ hb)]
  case deviceId =>
    rw [exec_deviceIdWrite, csrWriteBy_block s who 0x10 width val _ _ h hw (by decide +kernel) (.inr hl) fun t ht => ?_]
    have hjt : rd t F.rtStatJoin = rd s F.rtStatJoin := ht.raw _ 0 0 (by decide) (by decide) (by decide)
    have hmt : rd t F.rtGeomMembers = rd s F.rtGeomMembers := ht.raw _ 0 0 (by decide) (by decide) (by decide)
    rw [blockWrite_deviceId, deviceIdWrite_taken (ht.baseOf_eq.trans hb) (hjt.trans hj) (hmt ▸ hm)]
  case lock =>
    rw [exec_lockBitsSet, csrWriteBy_block s who 0x00102000 width val noEnv _ h hw (by decide +kernel) (.inr hl) fun t _ => ?_]
    rw [blockWrite_lockBits, lockBits_of_pf0 hpf hl]

/-- Settles O49: each command's operation by the cases of its own guard, at the time that the command reports. -/
theorem repairAndPortCommandsComplete : Obligations.RepairAndPortCommandsComplete := by
  unfold Obligations.RepairAndPortCommandsComplete
  refine ⟨fun s now p hp h => ?tile, fun s now p h => ?tileIgnored, fun s now k h => ?pair, fun s now k hk ha hs hr hc => ?pass,
    fun s now k u hk ha hs hr hu => ?fail, fun s now k ok h => ?testIgnored, fun s now h => ?restart, fun s now h => ?restartIdle,
    fun s now hp hr hb ht hs => ?alone, fun s now k hp hr hb ht hs ha => ?standby, fun s now h => ?notDue, fun s now h hl => ?stack,
    fun s now h hl => ?stackIgnored, fun s => ?remirror, fun s now code unit u v h hu hf hv => ?resumes,
    fun s now code unit u h hu hf => ?fenced, fun s now code unit h => ?notReset, fun s now hp bme mse h hclear => ?enables,
    fun s now hp bme mse h => ?unanswered, fun s now hp hhp h => ?perst, fun s now hp h => ?perstHigh⟩
  case tile => rw [exec_tileFail, tileFailed_working (s := atTime s now) hp h]
  case tileIgnored => rw [exec_tileFail, tileFailed_ignored (s := atTime s now) h]
  case pair => rw [exec_mgmtPairFail, pairFailed_of_active (s := atTime s now) h]
  case pass => rw [exec_mgmtPairRetestDone, pairTested_pass (s := atTime s now) hk ha hs hr hc]
  case fail => subst hu; rw [exec_mgmtPairRetestDone, pairTested_fail (s := atTime s now) hk ha hs hr]
  case testIgnored => rw [exec_mgmtPairRetestDone, pairTested_ignored (s := atTime s now) ok h]
  case restart => rw [exec_watchdogRestart, if_pos h]; rfl
  case restartIdle => rw [exec_watchdogRestart, h, if_neg Bool.false_ne_true]
  case alone => rw [exec_watchdogExpired, wdogDue_due (s := atTime s now) hp hr hb ht, wdogExpired_alone (s := atTime s now) hs]
  case standby => rw [exec_watchdogExpired, wdogDue_due (s := atTime s now) hp hr hb ht, wdogExpired_standby (s := atTime s now) hs ha]
  case notDue => rw [exec_watchdogExpired, wdogDue_not_due (s := atTime s now) h]
  case stack => rw [exec_hbmStackFail, stackFailed_live (s := atTime s now) hl]; rfl
  case stackIgnored => rw [exec_hbmStackFail, stackFailed_ignored (s := atTime s now) hl]
  case remirror => rw [exec_hbmRemirrorDone, remirrored]
  case resumes => subst hv hu; rw [exec_blockResetDone, endBlockReset_resumes (s := atTime s now) h hf]
  case fenced => subst hu; rw [exec_blockResetDone, endBlockReset_fenced (s := atTime s now) h hf]
  case notReset => rw [exec_blockResetDone, endBlockReset_ignored (s := atTime s now) h]
  case enables =>
    have hboth : (bme && mse) = false := Bool.and_eq_false_iff.mpr hclear
    rw [exec_pf0EnablesCleared, hboth, if_neg Bool.false_ne_true, enablesCleared_answered bme mse (configAnswers_atTime s now hp 0 ▸ h)]
  case unanswered =>
    rw [exec_pf0EnablesCleared, enablesCleared_unanswered bme mse (configAnswers_atTime s now hp 0 ▸ h), ite_self]
  case perst => rw [exec_perstDeassert, perstRises_low (s := atTime s now) hhp h]; rfl
  case perstHigh => rw [exec_perstDeassert, perstRises_high (s := atTime s now) h]

end Sys2Proof.Machine
end

section
/-!
SUPPORT. What a served write of the TOP, ARM, MODE, TXN and LCK registers meets behind the gate: the parts of the state that the gate
keeps, and the way to the register's own operation.
-/

namespace Sys2Proof.Machine

/-- A writer that is served is served at any later time. -/
theorem served_atTime {s : State} {who : Who} (now : Nat) (h : Served s who) : Served (atTime s now) who := h

theorem Entry.txn_eq {t s : State} (h : Entry t s) : t.txn = s.txn := by
  have hs : t = { s with csr := t.csr } := h.same
  exact (congrArg State.txn hs :)

theorem Entry.locked_eq {t s : State} (h : Entry t s) (key : Nat) : locked t key = locked s key := by
  simp only [locked, h.word 0x00102000 (by decide) (by decide) (by decide)]

theorem Entry.txnSt_eq {t s : State} (h : Entry t s) : txnSt t = txnSt s := h.raw _ 0 0 (by decide) (by decide) (by decide)

theorem Entry.txnOpen_eq {t s : State} (h : Entry t s) : txnOpen t = txnOpen s := by simp only [txnOpen, h.txnSt_eq]

theorem Entry.txnOwner_eq {t s : State} (h : Entry t s) : rd t F.txnOwnerOwner = rd s F.txnOwnerOwner :=
  h.raw _ 0 0 (by decide) (by decide) (by decide)

theorem Entry.owns_eq {t s : State} (h : Entry t s) (who : Who) : owns t who = owns s who := by simp only [owns, h.txnOwner_eq]

theorem Entry.txnFailed_eq {t s : State} (h : Entry t s) : rdb t F.txnStatFailed = rdb s F.txnStatFailed :=
  h.rdb' _ 0 0 (by decide) (by decide) (by decide)

theorem Entry.armStageSt_eq {t s : State} (h : Entry t s) : rd t F.armStageSt = rd s F.armStageSt :=
  h.raw _ 0 0 (by decide) (by decide) (by decide)

theorem Entry.recastMask_eq {t s : State} (h : Entry t s) : recastMask t = recastMask s := by
  have hsec : rd t F.armRecastSections = rd s F.armRecastSections := h.raw _ 0 0 (by decide) (by decide) (by decide)
  simp only [recastMask, h.txn_eq, hsec]

/-- A legal write of a register below FC's that is served reaches the register's operation in topWrite. -/
theorem csrWriteBy_top {s : State} {who : Who} {key width : Nat} {w : Word} {f : State → State} (h : Served s who) (hw : 64 ≤ width)
    (hk : (takesWrites key && key % 8 == 0 && decide (key < 0x00200000)) = true) (hl : wordLegal (fieldsAt key) w = true)
    (hf : ∀ t, Entry t s → topWrite t who key w noEnv = f t) : csrWriteBy s who key width w noEnv = viaGate s who f := by
  simp only [Bool.and_eq_true, beq_iff_eq, decide_eq_true_eq] at hk
  obtain ⟨⟨htakes, h8⟩, hlt⟩ := hk
  refine csrWriteBy_block s who key width w noEnv f h hw ?_ (.inr hl) fun t ht => by rw [blockWrite_top t who w noEnv hlt, hf t ht]
  simp only [Bool.and_eq_true, beq_iff_eq, decide_eq_true_eq]
  exact ⟨⟨htakes, h8⟩, by omega⟩

end Sys2Proof.Machine
end

section
/-!
SUPPORT. Staging an armature (R46, R50, R51, R54, R66): the commands of ARM_STAGE by what the writer may do and whether a fetch would be
BUSY, the end of a fetch, and the writes of ARM_SIGNER and ARM_DRAIN.
-/

namespace Sys2Proof.Machine

/-! ### The word of ARM_STAGE -/

theorem stageWord_len (cmd len : Nat) : wordGet (stageWord cmd len) 0 25 = len % 2 ^ 25 := by
  simp only [stageWord, wordGet, BitVec.toNat_ofNat]
  omega

theorem stageWord_cmd {cmd : Nat} (len : Nat) (h : cmd < 4) : wordGet (stageWord cmd len) 32 2 = cmd := by
  simp only [stageWord, wordGet, BitVec.toNat_ofNat]
  omega

/-! ### ARM_STAGE -/

/-- A fetch is BUSY while a transaction is open or a fetch runs (R51). -/
def fetchBusy (s : State) : Bool := txnOpen s || rd s F.armStageSt == 1

theorem fetchBusy_iff (s : State) : fetchBusy s = true ↔ txnOpen s = true ∨ rd s F.armStageSt = 1 := by simp [fetchBusy]

theorem fetchBusy_eq_false {s : State} (ho : txnOpen s = false) (hs : rd s F.armStageSt ≠ 1) : fetchBusy s = false := by
  simp [fetchBusy, ho, hs]

theorem Entry.fetchBusy_eq {t s : State} (h : Entry t s) : fetchBusy t = fetchBusy s := by
  simp only [fetchBusy, h.txnOpen_eq, h.armStageSt_eq]

theorem txnSt_wr_stageLen (s : State) (len : Nat) : txnSt (wr s F.armStageLen len) = txnSt s :=
  rd_wr_apart _ _ _ _ _ _ _ _ (by decide) (by unfold Apart; decide)

/-- LEN is stored apart from what says that a fetch is BUSY. -/
theorem busy_wr_stageLen (s : State) (len : Nat) :
    (txnOpen (wr s F.armStageLen len) || rd (wr s F.armStageLen len) F.armStageSt == 1) = fetchBusy s := by
  have hst : rd (wr s F.armStageLen len) F.armStageSt = rd s F.armStageSt :=
    rd_wr_apart _ _ _ _ _ _ _ _ (by decide) (by unfold Apart; decide)
  simp only [fetchBusy, txnOpen, txnSt_wr_stageLen, hst]

/-- A staging buffer emptied for a fetch, which knows its length when the host's memory is read (R50). -/
def fetchBegun (s : State) (len : Option Nat) : State :=
  let s1 := wr (wr (wr s F.armStageSt 1) F.armStageCause 0) F.armStageDiff 0
  { s1 with txn := { s1.txn with staged := none, stagedBytesOn := [], fetchLen := len } }

theorem armStage_fetchHost {s : State} (hp fn len : Nat) (h : fetchBusy s = false) :
    armStage s (.fn hp fn) (stageWord 1 len)
      = (let t := fetchBegun (wr s F.armStageLen (len % 2 ^ 25)) (some (len % 2 ^ 25))
         emit t (.hostRead hp (rd t F.armSrcAddr * 4096) (len % 2 ^ 25))) := by
  simp [armStage, stageWord_len, stageWord_cmd, busy_wr_stageLen, h, fetchBegun, setTxn]

theorem armStage_fetchSlot {s : State} (h : fetchBusy s = false) :
    armStage s .mgmt (stageWord 2 0) = fetchBegun (wr s F.armStageLen 0) none := by
  simp [armStage, stageWord_len, stageWord_cmd, busy_wr_stageLen, h, fetchBegun, setTxn]

/-- A fetch by a writer that may issue it, while a transaction is open or a fetch runs, shows BUSY (R51). -/
theorem armStage_busy {s : State} {who : Who} {cmd : Nat} (len : Nat) (hcmd : cmd = 1 ∧ who ≠ .mgmt ∨ cmd = 2 ∧ who = .mgmt)
    (h : fetchBusy s = true) : armStage s who (stageWord cmd len) = wr (wr s F.armStageLen (len % 2 ^ 25)) F.armStageCause 8 := by
  rcases hcmd with ⟨rfl, hwho⟩ | ⟨rfl, hwho⟩ <;> simp [armStage, stageWord_len, stageWord_cmd, busy_wr_stageLen, h, hwho, stageBusy]

/-- DISCARD while no commit prepares or is in HOLD (R51). -/
theorem armStage_discard {s : State} (who : Who) (h3 : txnSt s ≠ 3) (h4 : txnSt s ≠ 4) :
    armStage s who (stageWord 3 0)
      = (let t := wr s F.armStageLen 0
         wr (wr (wr { t with txn := { t.txn with staged := none, stagedBytesOn := [] } } F.armStageSt 0) F.armStageCause 0)
           F.armStageDiff 0) := by
  simp [armStage, stageWord_len, stageWord_cmd, txnSt_wr_stageLen, h3, h4, setTxn]

theorem topWrite_armStage (s : State) (who : Who) (w : Word) (env : CsrEnv) : topWrite s who 0x00100018 w env = armStage s who w := by
  rw [topWrite]

/-- A served write of ARM_STAGE reaches armStage. -/
theorem csrWriteBy_armStage {s : State} {who : Who} {width cmd len : Nat} {f : State → State} (h : Served s who) (hw : 64 ≤ width)
    (hl : wordLegal (fieldsAt 0x00100018) (stageWord cmd len) = true)
    (hf : ∀ t, Entry t s → armStage t who (stageWord cmd len) = f t) :
    csrWriteBy s who 0x00100018 width (stageWord cmd len) noEnv = viaGate s who f :=
  csrWriteBy_top h hw (by decide +kernel) hl fun t ht => (topWrite_armStage t who _ noEnv).trans (hf t ht)

theorem exec_armStageFetchHost (who : Who) (width len : Nat) (s : State) :
    exec (.armStageFetchHost who width len) s
      = .next (settled s (csrWriteBy s who 0x00100018 width (stageWord 1 len) noEnv)) := rfl

theorem exec_armStageFetchSlot (who : Who) (width : Nat) (s : State) :
    exec (.armStageFetchSlot who width) s = .next (settled s (csrWriteBy s who 0x00100018 width (stageWord 2 0) noEnv)) := rfl

theorem exec_armStageDiscard (who : Who) (width : Nat) (s : State) :
    exec (.armStageDiscard who width) s = .next (settled s (csrWriteBy s who 0x00100018 width (stageWord 3 0) noEnv)) := rfl

/-! ### The end of a fetch -/

theorem exec_armatureFetchDone (st : ArmStream) (s : State) :
    exec (.armatureFetchDone st) s = .next (settled s (armatureFetched st s)) := rfl

theorem armatureFetched_accepted {s : State} {st : ArmStream} (h : rd s F.armStageSt = 1)
    (hc : stageCheck s { st with recvLen := s.txn.fetchLen.getD st.recvLen } = 0) :
    armatureFetched st s
      = wr (wr { s with txn := { s.txn with staged := some (armOf st), stagedBytesOn := [0, 1, 2, 3], fetchLen := none } }
          F.armStageSt 2) F.armStageDiff (armDiff (armOf st) s.txn.arm) := by
  simp only [armatureFetched, if_pos h, if_pos hc, setTxn]

theorem armatureFetched_refused {s : State} {st : ArmStream} (h : rd s F.armStageSt = 1)
    (hc : stageCheck s { st with recvLen := s.txn.fetchLen.getD st.recvLen } ≠ 0) :
    armatureFetched st s
      = wr (wr { s with txn := { s.txn with fetchLen := none } } F.armStageSt 3) F.armStageCause
          (stageCheck s { st with recvLen := s.txn.fetchLen.getD st.recvLen }) := by
  simp only [armatureFetched, if_pos h, if_neg hc, setTxn]

/-! ### ARM_SIGNER and ARM_DRAIN -/

theorem exec_armSignerWrite (who : Who) (width : Nat) (val : Word) (s : State) :
    exec (.armSignerWrite who width val) s = .next (settled s (csrWriteBy s who 0x00100008 width val noEnv)) := rfl

theorem signerWrite_unlocked {s : State} (w : Word) (h : locked s 0x00100008 = false) :
    signerWrite s w = wr s F.armSignerEnable (Nat.land (rd s F.armSignerEnable) (wordGet w 0 4)) := by
  rw [signerWrite, h, if_neg Bool.false_ne_true]

theorem exec_armDrainWrite (who : Who) (width : Nat) (val : Word) (s : State) :
    exec (.armDrainWrite who width val) s = .next (settled s (csrWriteBy s who 0x00100060 width val noEnv)) := rfl

theorem fieldsAt_armDrain : fieldsAt 0x00100060 = [⟨0, 48, .rw, .chip, 0, .any⟩] := by decide +kernel

/-- ARM_DRAIN has one field, which takes the written bits whole. -/
theorem csrPlain_armDrain (s : State) {w : Word} (hl : wordLegal (fieldsAt 0x00100060) w = true) :
    csrPlain s 0x00100060 w = wr s F.armDrainTiles (wordGet w 0 48) := by
  rw [csrPlain_legal s (by decide +kernel) hl, fieldsAt_armDrain]
  rfl

theorem exec_tileDrained (tile : Nat) (s : State) : exec (.tileDrained tile) s = .next (settled s (tileDrained s tile)) := rfl

theorem tileDrained_empty {s : State} {tile : Nat} (h : tile < 48) (hd : drains s tile = true) (he : tileEmpty s tile = true) :
    tileDrained s tile = wr s F.armDrainStatDrained (rd s F.armDrainStatDrained ||| 2 ^ tile) :=
  if_pos ⟨h, hd, he⟩

end Sys2Proof.Machine
end

section
/-!
SUPPORT. The configuration transaction (R52, R53, R55 to R61): claims, the owner's commands, the refusal of others, staged writes, and
the ends of a commit, of a HOLD, and of an idle claim.
-/

namespace Sys2Proof.Machine

/-! ### The owner -/

theorem owns_eq_true {s : State} {who : Who} (hwho : ownerOf who ≠ 0) (ho : rd s F.txnOwnerOwner = ownerOf who) : owns s who = true := by
  simp [owns, hwho, ho]

theorem not_owns_iff (s : State) (who : Who) : (ownerOf who = 0 ∨ rd s F.txnOwnerOwner ≠ ownerOf who) ↔ owns s who = false := by
  by_cases hwho : ownerOf who = 0 <;> simp [owns, hwho]

/-! ### Claims -/

theorem exec_txnClaim (now : Nat) (who : Who) (width : Nat) (val : Word) (s : State) :
    exec (.txnClaim now who width val) s = .next (settled s (csrWriteBy (atTime s now) who 0x00101000 width val noEnv)) := rfl

theorem topWrite_txnOwner_claim (s : State) (who : Who) {w : Word} (env : CsrEnv) (hc : bitAt w.toNat 0 = true) :
    topWrite s who 0x00101000 w env = txnClaim s who := by
  rw [topWrite, if_pos hc]

/-- A claim empties the maquette and counts as a use (R56, R61). -/
theorem emptied_and_used (s : State) :
    txnUsed (setTxn s fun t => { t with maquette := [] }) = { s with txn := { s.txn with maquette := [], lastUse := s.timeNs } } := rfl

/-- A claim of a writer that can own, while no owner stands (R56). -/
theorem txnClaim_granted {s : State} {who : Who} (hwho : ownerOf who ≠ 0) (ho : rd s F.txnOwnerOwner = 0) :
    txnClaim s who =
      (let t1 := wr (wr (wr s F.txnOwnerOwner (ownerOf who)) F.txnStatCause 0) F.txnStatStaged 0
       let t2 := wr (wrb t1 F.txnStatFailed false) F.txnStatSt 1
       { t2 with txn := { t2.txn with maquette := [], lastUse := t2.timeNs } }) := by
  rw [txnClaim, if_neg hwho, if_neg (not_not_intro ho)]
  exact emptied_and_used _

/-! ### BEGIN, COMMIT and ABORT -/

theorem exec_txnBegin (now : Nat) (who : Who) (width : Nat) (val : Word) (s : State) :
    exec (.txnBegin now who width val) s = .next (settled s (csrWriteBy (atTime s now) who 0x00101008 width val noEnv)) := rfl

theorem exec_txnCommit (now : Nat) (who : Who) (width : Nat) (val : Word) (s : State) :
    exec (.txnCommit now who width val) s = .next (settled s (csrWriteBy (atTime s now) who 0x00101010 width val noEnv)) := rfl

theorem exec_txnAbort (now : Nat) (who : Who) (width : Nat) (val : Word) (s : State) :
    exec (.txnAbort now who width val) s = .next (settled s (csrWriteBy (atTime s now) who 0x00101018 width val noEnv)) := rfl

theorem topWrite_txnBegin_go (s : State) (who : Who) {w : Word} (env : CsrEnv) (hg : bitAt w.toNat 0 = true) :
    topWrite s who 0x00101008 w env = txnBegin s who := by
  rw [topWrite, if_pos hg]

theorem topWrite_txnCommit_go (s : State) (who : Who) {w : Word} (env : CsrEnv) (hg : bitAt w.toNat 0 = true) :
    topWrite s who 0x00101010 w env = txnCommit s who := by
  rw [topWrite, if_pos hg]

theorem topWrite_txnAbort_go (s : State) (who : Who) {w : Word} (env : CsrEnv) (hg : bitAt w.toNat 0 = true) :
    topWrite s who 0x00101018 w env = txnAbort s who := by
  rw [topWrite, if_pos hg]

theorem noGo_notOwner {s : State} {who : Who} {abort : Bool} (h : owns s who = false) (ha : abort = true → who ≠ .mgmt) :
    noGo s who abort = notOwner s := by
  cases abort with
  | false => simp [noGo, h]
  | true => simp [noGo, h, ha rfl]

/-- BEGIN of one that is not the owner is refused, with GO set or clear (R60). -/
theorem topWrite_txnBegin_notOwner {s : State} {who : Who} (w : Word) (env : CsrEnv) (h : owns s who = false) :
    topWrite s who 0x00101008 w env = notOwner s := by
  have hgo : txnBegin s who = notOwner s := if_pos ((not_owns_iff s who).mpr h)
  rw [topWrite, hgo, noGo_notOwner h (by simp), ite_self]

/-- COMMIT of one that is not the owner is refused, with GO set or clear (R60). -/
theorem topWrite_txnCommit_notOwner {s : State} {who : Who} (w : Word) (env : CsrEnv) (h : owns s who = false) :
    topWrite s who 0x00101010 w env = notOwner s := by
  have hgo : txnCommit s who = notOwner s := if_pos ((not_owns_iff s who).mpr h)
  rw [topWrite, hgo, noGo_notOwner h (by simp), ite_self]

/-- ABORT of one that is neither the owner nor the management controller is refused, with GO set or clear (R60). -/
theorem topWrite_txnAbort_notOwner {s : State} {who : Who} (w : Word) (env : CsrEnv) (h : owns s who = false) (hm : who ≠ .mgmt) :
    topWrite s who 0x00101018 w env = notOwner s := by
  have hgo : txnAbort s who = notOwner s := by
    refine if_neg ?_
    rintro (hwho | ⟨hwho, ho⟩)
    · exact hm hwho
    · rw [owns_eq_true hwho ho] at h
      cases h
  rw [topWrite, hgo, noGo_notOwner h fun _ => hm, ite_self]

theorem txnBegin_claimed {s : State} {who : Who} (hown : owns s who = true) (hst : txnSt s = 1) :
    txnBegin s who = txnUsed (wr s F.txnStatSt 2) := by
  have hn := mt (not_owns_iff s who).mp (by simp [hown])
  rw [txnBegin, if_neg hn, if_pos hst]

theorem txnCommit_open {s : State} {who : Who} (hown : owns s who = true) (hst : txnSt s = 2) :
    txnCommit s who = beginCommit (txnUsed s) := by
  have hn := mt (not_owns_iff s who).mp (by simp [hown])
  rw [txnCommit, if_neg hn, if_pos hst]

/-- The owner's ABORT of a claim or of an open transaction (R60). -/
theorem txnAbort_owner {s : State} {who : Who} (hwho : ownerOf who ≠ 0) (ho : rd s F.txnOwnerOwner = ownerOf who)
    (hst : txnSt s = 1 ∨ txnSt s = 2) : txnAbort s who = abortTxn s 0 := by
  simp only [txnAbort, ho, hwho, hst, ne_eq, not_false_eq_true, and_self, or_true, if_true]

theorem rdb_txnUsed (s : State) (f : Fld) (i j : Nat) : rdb (txnUsed s) f i j = rdb s f i j := rdb_setTxn _ _ _ _ _

theorem recastMask_txnUsed (s : State) : recastMask (txnUsed s) = recastMask s := rfl

/-- A commit of settings only, with nothing failed (R59). -/
theorem beginCommit_settings {s : State} (hf : rdb s F.txnStatFailed = false) (hm : recastMask s = 0) :
    beginCommit s = wr s F.txnStatSt 3 := by
  rw [recastMask] at hm
  simp only [beginCommit, hf, hm, Bool.false_eq_true, if_false, if_true]

/-- A commit that re-casts, with nothing failed: its checks decide (R52). -/
theorem beginCommit_recast {s : State} (hf : rdb s F.txnStatFailed = false) (hm : recastMask s ≠ 0) :
    beginCommit s =
      (let c := recastFails s (recastMask s)
       if c = 0 then wr { s with txn := { s.txn with swap := .recast } } F.txnStatSt 3 else wr s F.txnStatCause c) := by
  rw [beginCommit, hf, if_neg Bool.false_ne_true]
  exact if_neg hm

/-! ### Staged writes -/

theorem exec_txnStageWrite (now : Nat) (who : Who) (off width : Nat) (val : Word) (s : State) :
    exec (.txnStageWrite now who off width val) s = .next (settled s (csrWriteAt (atTime s now) who off width val noEnv)) := rfl

/-- A write of an RWT register, but for the CI of a ring, is staged (R57, R417). -/
theorem csrApply_staged (env : CsrEnv) {s : State} (who : Who) {key : Nat} (w : Word) (h : inRecovery s = false)
    (hr : (regFind key).isSome = true) (hrwt : isRwt key = true)
    (hci : ¬ (0x08820000 ≤ key ∧ key < 0x08820800 ∧ key % 32 = 16)) : csrApply env s who key w = stageWrite s who key w := by
  obtain ⟨r, hr⟩ := Option.isSome_iff_exists.mp hr
  have hring : (decide (0x08820000 ≤ key) && decide (key < 0x08820800) && key % 32 == 16) = false := by
    simpa [← and_assoc] using hci
  simp only [csrApply, h, hr, hrwt, hring, Bool.false_and, Bool.not_false, Bool.and_self, Bool.false_eq_true, if_false, if_true]

/-- The owner's write of a staged register outside the span table joins the maquette while it has room (R57). -/
theorem stageWrite_joins {s : State} {who : Who} {key : Nat} (w : Word) (hown : owns s who = true) (hst : txnSt s = 2)
    (hspan : ¬ (0x07100000 ≤ key ∧ key < 0x07300000)) (hnew : mhas s.txn.maquette key = false)
    (hroom : s.txn.maquette.length < 16384) :
    stageWrite s who key w =
      (let t := { s with txn := { s.txn with lastUse := s.timeNs, maquette := mset s.txn.maquette key w } }
       wr t F.txnStatStaged t.txn.maquette.length) := by
  obtain ⟨hwho, ho⟩ : ownerOf who ≠ 0 ∧ rd s F.txnOwnerOwner = ownerOf who := by simpa [owns] using hown
  have hsec : (decide (0x07100000 ≤ key) && decide (key < 0x07300000)) = false := by simpa using hspan
  simp [stageWrite, hwho, ho, hst, hsec, hnew, Nat.not_le.mpr hroom, txnUsed, setTxn]

/-! ### The ends of a commit, of a HOLD, and of an idle claim -/

theorem exec_txnCommitEpoch (now : Nat) (s : State) :
    exec (.txnCommitEpoch now) s = .next (settled s (epochReached (atTime s now))) := rfl

theorem epochReached_prepared {s : State} (hst : txnSt s = 3) (hs : s.txn.swap = .none) : epochReached s = commitNow s :=
  if_pos ⟨hst, hs⟩

theorem exec_recastPrepDone (now : Nat) (s : State) :
    exec (.recastPrepDone now) s = .next (settled s (recastPrepared (atTime s now))) := rfl

theorem recastPrepared_prepared {s : State} (hst : txnSt s = 3) (hs : s.txn.swap = .recast) (hh : holdOn s = false) :
    recastPrepared s = setHold (wr s F.txnStatSt 4) true := if_pos ⟨hst, hs, hh⟩

theorem exec_holdExit (now : Nat) (s : State) : exec (.holdExit now) s = .next (settled s (endHold (atTime s now))) := rfl

/-- The end of a HOLD that leaves the roles of the tiles as they are. -/
theorem endHold_rolesKept {s : State} (hh : holdOn s = true) (h : s.txn.swap ≠ .recast ∨ bitAt (recastMask s) 2 = false) :
    endHold s = resumeHold (switchSwap s) := by
  have hn : ¬ (s.txn.swap = .recast ∧ bitAt (recastMask s) 2 = true) := fun ⟨hs, hb⟩ => by simp [hs, hb] at h
  simp only [endHold, if_pos hh, if_neg hn]

/-- The end of the HOLD of a re-cast of ROLES: the streams go to the tiles that now serve them (R23, R53). -/
theorem endHold_rolesChanged {s : State} (hh : holdOn s = true) (hs : s.txn.swap = .recast) (hb : bitAt (recastMask s) 2 = true) :
    endHold s = resumeHold (reorderStreams s (switchSwap s)) := by
  simp only [endHold, hh, hs, hb, and_self, if_true]

theorem exec_txnIdleLimit (now : Nat) (s : State) : exec (.txnIdleLimit now) s = .next (settled s (txnIdle (atTime s now))) := rfl

theorem txnIdle_over {s : State} (hst : txnSt s = 1 ∨ txnSt s = 2) (ho : rd s F.txnOwnerOwner ≠ 0)
    (ht : s.txn.lastUse + 1000000 * rd s F.txnIdleLimitMs ≤ s.timeNs) : txnIdle s = abortTxn s 10 := if_pos ⟨hst, ho, ht⟩

end Sys2Proof.Machine
end

section
/-!
The obligations of the chapter on the armature and configuration: staging an armature, and the configuration transaction.
-/

namespace Sys2Proof.Machine

/-- Settles O11: each write passes the gate to its own operation, whose forms are told apart by what the gate keeps. -/
theorem armatureStagingCommandsComplete : Obligations.ArmatureStagingCommandsComplete := by
  unfold Obligations.ArmatureStagingCommandsComplete
  refine ⟨fun s hp fn width len h hw hlen hl ho hs => ?fetchHost, fun s width h hw ho hs => ?fetchSlot,
    fun s hp fn width len h hw hl hb => ?hostBusy, fun s width h hw hb => ?slotBusy, fun s who width h hw h3 h4 => ?discard,
    fun s st h hc => ?accepted, fun s st h hc => ?refused, fun s who width val h hw hl hk => ?signer,
    fun s who width val h hw hl => ?drain, fun s tile h hd he => ?drained⟩
  case fetchHost =>
    have hb := fetchBusy_eq_false ho hs
    rw [exec_armStageFetchHost, csrWriteBy_armStage h hw hl fun t ht => armStage_fetchHost hp fn len (ht.fetchBusy_eq.trans hb),
      Nat.mod_eq_of_lt hlen]
    rfl
  case fetchSlot =>
    have hb := fetchBusy_eq_false ho hs
    rw [exec_armStageFetchSlot, csrWriteBy_armStage h hw (by decide +kernel) fun t ht => armStage_fetchSlot (ht.fetchBusy_eq.trans hb)]
    rfl
  case hostBusy =>
    have hb := (fetchBusy_iff s).mpr hb
    rw [exec_armStageFetchHost,
      csrWriteBy_armStage h hw hl fun t ht => armStage_busy len (.inl ⟨rfl, Who.noConfusion⟩) (ht.fetchBusy_eq.trans hb)]
  case slotBusy =>
    have hb := (fetchBusy_iff s).mpr hb
    rw [exec_armStageFetchSlot,
      csrWriteBy_armStage h hw (by decide +kernel) fun t ht => armStage_busy 0 (.inr ⟨rfl, rfl⟩) (ht.fetchBusy_eq.trans hb),
      Nat.zero_mod]
  case discard =>
    rw [exec_armStageDiscard, csrWriteBy_armStage h hw (by decide +kernel) fun t ht =>
      armStage_discard who (ht.txnSt_eq ▸ h3) (ht.txnSt_eq ▸ h4)]
  case accepted => rw [exec_armatureFetchDone, armatureFetched_accepted h hc]
  case refused => rw [exec_armatureFetchDone, armatureFetched_refused h hc]
  case signer =>
    rw [exec_armSignerWrite, csrWriteBy_top h hw (by decide +kernel) hl fun t ht =>
      signerWrite_unlocked val ((ht.locked_eq _).trans hk)]
  case drain =>
    rw [exec_armDrainWrite, csrWriteBy_top h hw (by decide +kernel) hl fun t _ => congrArg drainChanged (csrPlain_armDrain t hl)]
  case drained => rw [exec_tileDrained, tileDrained_empty h hd he]

/-- Settles O12: each write passes the gate to its own operation; what decides among the operation's cases, the gate and the clock keep. -/
theorem transactionCommandsComplete : Obligations.TransactionCommandsComplete := by
  unfold Obligations.TransactionCommandsComplete
  refine ⟨fun s now who width val h hw hl hg hwho ho => ?claim, fun s now who width val h hw hl hg hwho ho hst => ?begin,
    fun s now who off width val h hw hkey h8 hb hr hrwt hci hspan hwho ho hst hnew hroom => ?stage,
    fun s now who width val h hw hl hg hwho ho hst hf hm => ?commit, fun s now who width val h hw hl hg hwho ho hst hf hm => ?recast,
    fun s now hst hs => ?epoch, fun s now hst hs hh => ?hold, fun s now hh hs => ?exit, fun s now hh hs hb => ?exitRoles,
    fun s now who width val h hw hl hg hwho ho hst => ?abort, fun s now who width val h hw hl hm hn => ?abortRefused,
    fun s now who width val h hw hl hn => ?beginRefused, fun s now who width val h hw hl hn => ?commitRefused,
    fun s now hst ho ht => ?idle⟩
  case claim =>
    rw [exec_txnClaim, csrWriteBy_top (served_atTime now h) hw (by decide +kernel) hl fun t ht =>
      (topWrite_txnOwner_claim t who noEnv hg).trans (txnClaim_granted hwho (ht.txnOwner_eq.trans ho))]
  case begin =>
    rw [exec_txnBegin, csrWriteBy_top (served_atTime now h) hw (by decide +kernel) hl fun t ht =>
      (topWrite_txnBegin_go t who noEnv hg).trans (txnBegin_claimed (owns_eq_true hwho (ht.txnOwner_eq.trans ho)) (ht.txnSt_eq.trans hst))]
  case stage =>
    rw [exec_txnStageWrite, csrWriteAt_eq_csrWriteBy _ width val noEnv hkey,
      csrWriteBy_eq _ who off width val noEnv _ (served_atTime now h) hw h8 hb fun t ht hrec => ?_]
    rw [csrApply_staged noEnv who val hrec hr hrwt hci, stageWrite_joins val (owns_eq_true hwho (ht.txnOwner_eq.trans ho))
      (ht.txnSt_eq.trans hst) hspan (ht.txn_eq ▸ hnew) (ht.txn_eq ▸ hroom)]
  case commit =>
    rw [exec_txnCommit, csrWriteBy_top (served_atTime now h) hw (by decide +kernel) hl fun t ht => ?_]
    rw [topWrite_txnCommit_go t who noEnv hg, txnCommit_open (owns_eq_true hwho (ht.txnOwner_eq.trans ho)) (ht.txnSt_eq.trans hst),
      beginCommit_settings ((rdb_txnUsed ..).trans (ht.txnFailed_eq.trans hf)) (ht.recastMask_eq.trans hm)]
  case recast =>
    rw [exec_txnCommit, csrWriteBy_top (served_atTime now h) hw (by decide +kernel) hl fun t ht => ?_]
    rw [topWrite_txnCommit_go t who noEnv hg, txnCommit_open (owns_eq_true hwho (ht.txnOwner_eq.trans ho)) (ht.txnSt_eq.trans hst),
      beginCommit_recast ((rdb_txnUsed ..).trans (ht.txnFailed_eq.trans hf)) (ht.recastMask_eq ▸ hm)]
  case epoch => rw [exec_txnCommitEpoch, epochReached_prepared (s := atTime s now) hst hs]
  case hold => rw [exec_recastPrepDone, recastPrepared_prepared (s := atTime s now) hst hs hh]
  case exit => rw [exec_holdExit, endHold_rolesKept (s := atTime s now) hh hs]
  case exitRoles => rw [exec_holdExit, endHold_rolesChanged (s := atTime s now) hh hs hb]
  case abort =>
    rw [exec_txnAbort, csrWriteBy_top (served_atTime now h) hw (by decide +kernel) hl fun t ht =>
      (topWrite_txnAbort_go t who noEnv hg).trans (txnAbort_owner hwho (ht.txnOwner_eq.trans ho) (ht.txnSt_eq ▸ hst))]
  case abortRefused =>
    rw [exec_txnAbort, csrWriteBy_top (served_atTime now h) hw (by decide +kernel) hl fun t ht =>
      topWrite_txnAbort_notOwner val noEnv ((ht.owns_eq who).trans ((not_owns_iff _ who).mp hn)) hm]
    rfl
  case beginRefused =>
    rw [exec_txnBegin, csrWriteBy_top (served_atTime now h) hw (by decide +kernel) hl fun t ht =>
      topWrite_txnBegin_notOwner val noEnv ((ht.owns_eq who).trans ((not_owns_iff _ who).mp hn))]
    rfl
  case commitRefused =>
    rw [exec_txnCommit, csrWriteBy_top (served_atTime now h) hw (by decide +kernel) hl fun t ht =>
      topWrite_txnCommit_notOwner val noEnv ((ht.owns_eq who).trans ((not_owns_iff _ who).mp hn))]
    rfl
  case idle =>
    have hdue : (atTime s now).txn.lastUse + 1000000 * rd (atTime s now) F.txnIdleLimitMs ≤ (atTime s now).timeNs :=
      Nat.le_trans ht (Nat.le_max_right _ _)
    rw [exec_txnIdleLimit, txnIdle_over (s := atTime s now) hst ho hdue]

end Sys2Proof.Machine
end

section
/-!
SUPPORT. Numbers as bytes, byte lists as flits, and the header words of a packet (R5, R80, Table 03-2).
-/

namespace Sys2Proof.Machine

/-! ### Bytes of a number -/

@[simp] theorem length_toBytes (n x : Nat) : (toBytes n x).length = n := by
  induction n generalizing x with
  | zero => rfl
  | succ n ih => simp [toBytes, ih]

theorem getElem?_toBytes {n i : Nat} (x : Nat) (h : i < n) : (toBytes n x)[i]? = some (BitVec.ofNat 8 (x / 256 ^ i)) := by
  induction n generalizing x i with
  | zero => omega
  | succ n ih =>
    cases i with
    | zero => simp [toBytes]
    | succ i => rw [toBytes, List.getElem?_cons_succ, ih _ (by omega), Nat.div_div_eq_div_mul, Nat.pow_succ']

theorem ofBytes_toBytes (n x : Nat) : ofBytes (toBytes n x) = x % 256 ^ n := by
  induction n generalizing x with
  | zero => rw [Nat.pow_zero, Nat.mod_one]; rfl
  | succ n ih => rw [toBytes, ofBytes, ih, BitVec.toNat_ofNat, show 256 ^ (n + 1) = 256 * 256 ^ n from Nat.pow_succ', Nat.mod_mul]

theorem ofBytes_toBytes_of_lt {n x : Nat} (h : x < 256 ^ n) : ofBytes (toBytes n x) = x := by
  rw [ofBytes_toBytes, Nat.mod_eq_of_lt h]

theorem take_toBytes_append (n x : Nat) (l : List Byte) : (toBytes n x ++ l).take n = toBytes n x :=
  List.take_left' (length_toBytes n x)

theorem drop_toBytes_append (n x : Nat) (l : List Byte) : (toBytes n x ++ l).drop n = l :=
  List.drop_left' (length_toBytes n x)

/-! ### Flits -/

theorem le_mul_ceilDiv (a : Nat) {b : Nat} (hb : 0 < b) : a ≤ b * ceilDiv a b := by
  have hdiv := Nat.div_add_mod (a + b - 1) b
  have hmod := Nat.mod_lt (a + b - 1) hb
  rw [ceilDiv, if_neg (by omega)]
  omega

/-- Flits put together again are the bytes that they were cut from, as far as the flits reach. -/
theorem flatten_cutFlits (n : Nat) (bs : List Byte) : (cutFlits n bs).flatten = bs.take (n * 128) := by
  induction n generalizing bs with
  | zero => simp [cutFlits]
  | succ n ih => rw [cutFlits, List.flatten_cons, ih, Nat.succ_mul, Nat.add_comm, List.take_add]

/-! ### The bytes of a packet -/

@[simp] theorem length_hdrBytes (p : Pkt) : (hdrBytes p).length = 32 := by simp [hdrBytes]

/-- The header bytes are the bytes of its four words, word 0 first. -/
theorem getElem?_hdrBytes (p : Pkt) {j i : Nat} (hj : j < 4) (hi : i < 8) :
    (hdrBytes p)[8 * j + i]? = (toBytes 8 ([hdr0 p, hdr1 p, hdr2 p, hdr3 p].getD j 0))[i]? := by
  have hskip (x : Nat) (l : List Byte) (k : Nat) : (toBytes 8 x ++ l)[8 + k]? = l[k]? := by
    rw [List.getElem?_append_right (by simp), length_toBytes, Nat.add_sub_cancel_left]
  have hword (x : Nat) (l : List Byte) : (toBytes 8 x ++ l)[i]? = (toBytes 8 x)[i]? :=
    List.getElem?_append_left (by simpa using hi)
  simp only [hdrBytes, List.append_assoc]
  match j, hj with
  | 0, _ => rw [Nat.mul_zero, Nat.zero_add, hword, List.getD_cons_zero]
  | 1, _ => rw [Nat.mul_one, hskip, hword, List.getD_cons_succ, List.getD_cons_zero]
  | 2, _ => rw [show 8 * 2 + i = 8 + (8 + i) by omega, hskip, hskip, hword, List.getD_cons_succ, List.getD_cons_succ, List.getD_cons_zero]
  | 3, _ =>
    rw [show 8 * 3 + i = 8 + (8 + (8 + i)) by omega, hskip, hskip, hskip, List.getD_cons_succ, List.getD_cons_succ, List.getD_cons_succ,
      List.getD_cons_zero]

/-- A packet's bytes: header, payload, zeros up to a whole word, then the trailer with what fills the last flit behind it. -/
theorem pktBytes_eq (p : Pkt) : ∃ rest, pktBytes p = hdrBytes p ++ (p.payload
    ++ (List.replicate (8 * ceilDiv p.len 8 - p.payload.length) 0 ++ (toBytes 4 p.e2e ++ (toBytes 1 p.stomp ++ rest)))) := by
  simp only [pktBytes, List.append_assoc]
  exact ⟨_, rfl⟩

theorem length_pktBytes {p : Pkt} (h : p.payload.length = p.len) : (pktBytes p).length = flitsOf p.len * 128 := by
  have hpad := le_mul_ceilDiv p.len (b := 8) (by decide)
  have hfill := le_mul_ceilDiv (40 + 8 * ceilDiv p.len 8) (b := 128) (by decide)
  simp only [pktBytes, flitsOf, List.length_append, List.length_replicate, length_hdrBytes, length_toBytes, List.length_cons,
    List.length_nil, h]
  omega

theorem flatten_pktFlits {p : Pkt} (h : p.payload.length = p.len) : (pktFlits p).flatten = pktBytes p := by
  rw [pktFlits, flatten_cutFlits, ← length_pktBytes h, List.take_length]

/-! ### The fields of a header -/

theorem hdr0_lt (p : Pkt) : hdr0 p < 256 ^ 8 := by unfold hdr0; omega
theorem hdr1_lt (p : Pkt) : hdr1 p < 256 ^ 8 := by unfold hdr1; omega
theorem hdr2_lt (p : Pkt) : hdr2 p < 256 ^ 8 := by unfold hdr2; omega
theorem hdr3_lt (p : Pkt) : hdr3 p < 256 ^ 8 := by unfold hdr3; omega

theorem bits_hdr0 (p : Pkt) : bits (hdr0 p) 0 18 = p.dst % 2 ^ 18 ∧ bits (hdr0 p) 18 18 = p.src % 2 ^ 18 ∧ bits (hdr0 p) 36 3 = p.tc % 8
    ∧ bits (hdr0 p) 39 3 = p.vc % 8 ∧ bits (hdr0 p) 42 4 = p.hop % 16 ∧ bits (hdr0 p) 46 10 = p.age % 1024
    ∧ bits (hdr0 p) 56 6 = p.flags % 64 ∧ bits (hdr0 p) 62 2 = p.rsv % 4 := by
  unfold bits hdr0
  omega

theorem bits_hdr1 (p : Pkt) : bits (hdr1 p) 0 8 = p.op % 256 ∧ bits (hdr1 p) 8 13 = p.len % 2 ^ 13 ∧ bits (hdr1 p) 21 20 = p.ec % 2 ^ 20
    ∧ bits (hdr1 p) 41 16 = p.hcrc % 2 ^ 16 ∧ bits (hdr1 p) 57 7 = p.rsv / 4 % 128 := by
  unfold bits hdr1
  omega

theorem bits_hdr2 (p : Pkt) : bits (hdr2 p) 0 46 = p.off % 2 ^ 46 ∧ bits (hdr2 p) 46 18 = p.psn % 2 ^ 18 := by
  unfold bits hdr2
  omega

theorem bits_hdr3 (p : Pkt) : bits (hdr3 p) 0 32 = p.key % 2 ^ 32 ∧ bits (hdr3 p) 32 24 = p.msgid % 2 ^ 24
    ∧ bits (hdr3 p) 56 8 = p.rsv / 512 % 256 := by
  unfold bits hdr3
  omega

/-- The four words read from bytes that begin with a header. -/
theorem words_hdrBytes_append (p : Pkt) (l : List Byte) : ofBytes ((hdrBytes p ++ l).take 8) = hdr0 p
    ∧ ofBytes (((hdrBytes p ++ l).drop 8).take 8) = hdr1 p ∧ ofBytes (((hdrBytes p ++ l).drop 16).take 8) = hdr2 p
    ∧ ofBytes (((hdrBytes p ++ l).drop 24).take 8) = hdr3 p := by
  have h16 (bs : List Byte) : bs.drop 16 = (bs.drop 8).drop 8 := by rw [List.drop_drop]
  have h24 (bs : List Byte) : bs.drop 24 = ((bs.drop 8).drop 8).drop 8 := by rw [List.drop_drop, List.drop_drop]
  simp only [hdrBytes, List.append_assoc, h16, h24, drop_toBytes_append, take_toBytes_append]
  exact ⟨ofBytes_toBytes_of_lt (hdr0_lt p), ofBytes_toBytes_of_lt (hdr1_lt p), ofBytes_toBytes_of_lt (hdr2_lt p),
    ofBytes_toBytes_of_lt (hdr3_lt p)⟩

/-- Reading a header finds every field of a packet whose fields fit their widths (Table 03-2). -/
theorem hdrOf_hdrBytes_append {p : Pkt} (h : p.wf = true) (l : List Byte) :
    hdrOf (hdrBytes p ++ l) = { p with payload := [], e2e := 0, stomp := 0 } := by
  obtain ⟨hw0, hw1, hw2, hw3⟩ := words_hdrBytes_append p l
  obtain ⟨hdst, hsrc, htc, hvc, hhop, hage, hflags, hrsv0⟩ := bits_hdr0 p
  obtain ⟨hop, hlen, hec, hhcrc, hrsv1⟩ := bits_hdr1 p
  obtain ⟨hoff, hpsn⟩ := bits_hdr2 p
  obtain ⟨hkey, hmsgid, hrsv3⟩ := bits_hdr3 p
  simp only [Pkt.wf, Bool.and_eq_true, decide_eq_true_eq] at h
  simp only [hdrOf, hw0, hw1, hw2, hw3, Pkt.mk.injEq, true_and]
  omega

/-! ### The packet in its flits -/

theorem take_flatten_pktFlits {p : Pkt} (h : p.payload.length = p.len) :
    (pktFlits p).flatten.take (32 + p.len) = hdrBytes p ++ p.payload := by
  obtain ⟨rest, hbytes⟩ := pktBytes_eq p
  rw [flatten_pktFlits h, hbytes, ← List.append_assoc]
  exact List.take_left' (by simp [h])

/-- Reading a packet's flits finds the packet. -/
theorem pktOf_pktFlits {p : Pkt} (hwf : p.wf = true) (h : p.payload.length = p.len) (hstomp : p.stomp < 256) :
    pktOf (pktFlits p) = p := by
  obtain ⟨rest, hbytes⟩ := pktBytes_eq p
  have he2e : p.e2e < 256 ^ 4 := by
    simp only [Pkt.wf, Bool.and_eq_true, decide_eq_true_eq] at hwf
    omega
  have hpad := le_mul_ceilDiv p.len (b := 8) (by decide)
  have hpayload : ((pktFlits p).flatten.drop 32).take p.len = p.payload := by
    rw [flatten_pktFlits h, hbytes, List.drop_left' (length_hdrBytes p), List.take_left' h]
  have htrailer : (pktFlits p).flatten.drop (32 + 8 * ceilDiv p.len 8) = toBytes 4 p.e2e ++ (toBytes 1 p.stomp ++ rest) := by
    rw [flatten_pktFlits h, hbytes, ← List.append_assoc, ← List.append_assoc]
    exact List.drop_left' (by simp only [List.length_append, length_hdrBytes, List.length_replicate, h]; omega)
  have hhdr : hdrOf (pktFlits p).flatten = { p with payload := [], e2e := 0, stomp := 0 } := by
    rw [flatten_pktFlits h, hbytes, hdrOf_hdrBytes_append hwf]
  have hcrc (l : List Byte) : ((toBytes 4 p.e2e ++ l).take 8).take 4 = toBytes 4 p.e2e := by
    rw [List.take_take, Nat.min_eq_left (by decide), take_toBytes_append]
  have hmark : (((toBytes 4 p.e2e ++ (toBytes 1 p.stomp ++ rest)).take 8).drop 4).take 1 = toBytes 1 p.stomp := by
    rw [List.drop_take, List.take_take, Nat.min_eq_left (by decide), drop_toBytes_append, take_toBytes_append]
  simp only [pktOf, hhdr, hpayload, htrailer, hcrc, hmark, ofBytes_toBytes_of_lt he2e, ofBytes_toBytes_of_lt (x := p.stomp) (n := 1) hstomp]

end Sys2Proof.Machine
end

section
/-!
SUPPORT. The lookup of a head that is dropped (R90, R96, R172): counters raised, and a drop that leaves the register file alone.
-/

namespace Sys2Proof.Machine

/-! ### Counters -/

theorem satAdd_lt (width a b : Nat) : satAdd width a b < 2 ^ width := by
  have := Nat.two_pow_pos width
  unfold satAdd
  omega

theorem rd_inc_same (s : State) (f : Fld) (n i j : Nat) (h : f.lo + f.bstep * j + f.width ≤ 64) :
    rd (inc s f n i j) f i j = satAdd f.width (rd s f i j) n := by
  rw [inc, rd_wr_same _ _ _ _ _ h, Nat.mod_eq_of_lt (satAdd_lt ..)]

theorem rd_inc_apart (s : State) (f : Fld) (n i j : Nat) (g : Fld) (k l : Nat) (hf : f.lo + f.bstep * j + f.width ≤ 64)
    (h : Apart f i j g k l) : rd (inc s f n i j) g k l = rd s g k l :=
  rd_wr_apart _ _ _ _ _ _ _ _ hf h

/-! ### Drops at the lookup -/

theorem rd_returnCredit (s : State) (inp v n : Nat) (f : Fld) (i j : Nat) : rd (returnCredit s inp v n) f i j = rd s f i j := by
  unfold returnCredit
  split
  · rfl
  · exact rd_setLink ..

theorem rd_updatePkt (s : State) (id : Nat) (old new : SwPkt) (f : Fld) (i j : Nat) : rd (updatePkt s id old new) f i j = rd s f i j := by
  unfold updatePkt
  dsimp only
  split
  · rw [rd_delPkt, rd_returnCredit]
  · rw [rd_setPkt, rd_returnCredit]

theorem rd_dropAtLookup (s : State) (id : Nat) (p : SwPkt) (f : Fld) (i j : Nat) : rd (dropAtLookup s id p) f i j = rd s f i j :=
  rd_updatePkt ..

theorem exec_packetHeadLookup (now inp vc : Nat) (s : State) :
    exec (.packetHeadLookup now inp vc) s = .next (settled s (lookupHead (atTime s now) inp vc)) := rfl

theorem lookupHead_drop {s : State} {inp vc id : Nat} {p : SwPkt} {f : Fld} (hw : waitsLookup s inp vc = some (id, p))
    (hd : lookupDrop s inp p.hdr = some f) : lookupHead s inp vc = dropAtLookup (inc s f) id p := by
  simp only [lookupHead, hw, hd]

/-- AGE is judged before HOP and before FORMAT, so of a head that is to leave on a fabric output an AGE of 1,000 or more decides,
whatever its HOP. -/
theorem lookupDrop_age {s : State} {inp : Nat} {h : Pkt} (hcrc : h.hcrc = hcrcOf h) (haway : h.dst ≠ selfId s ∨ h.op = opMcPut)
    (hage : 1000 ≤ h.age) : lookupDrop s inp h = some F.rtPktDrop0Age := by
  have hown : (h.dst == selfId s && h.op != opMcPut) = false := by
    rcases haway with hdst | hop
    · simp [hdst]
    · simp [hop]
  simp only [lookupDrop, hown, Bool.false_and]
  rw [if_neg (not_not_intro hcrc), if_pos (.inl ⟨trivial, hage⟩)]

end Sys2Proof.Machine
end

section
/-!
The obligations of the chapter on fabric addressing and packets: the flits of a packet, and a packet over both limits.
-/

namespace Sys2Proof.Machine

/-- Settles O57: the words of a header are spelled byte by byte; flits put together are the packet's bytes, whose header, payload and
trailer are read back at their places. -/
theorem packetFlitsSpellThePacket : Obligations.PacketFlitsSpellThePacket := by
  unfold Obligations.PacketFlitsSpellThePacket
  refine ⟨fun p j i hj hi => ?words, fun p h _ => take_flatten_pktFlits h, fun p hwf h hstomp => pktOf_pktFlits hwf h hstomp⟩
  case words => rw [getElem?_hdrBytes p hj hi, getElem?_toBytes _ hi]

/-- Settles O58: AGE is judged before HOP, so the one drop counts in AGE, and the counter of HOP is in another word. -/
theorem packetOverBothLimitsCountsInAge : Obligations.PacketOverBothLimitsCountsInAge := by
  unfold Obligations.PacketOverBothLimitsCountsInAge
  intro s now inp vc id p hw hcrc haway hage _ e
  have hdrop : lookupDrop (atTime s now) inp p.hdr = some F.rtPktDrop0Age := lookupDrop_age hcrc haway hage
  refine ⟨?dropped, ?age, ?hop⟩
  case dropped => rw [exec_packetHeadLookup, lookupHead_drop (s := atTime s now) hw hdrop]
  case age => rw [rd_dropAtLookup, rd_inc_same _ _ _ _ _ (by decide), rd_atTime]
  case hop => rw [rd_dropAtLookup, rd_inc_apart _ _ _ _ _ _ _ _ (by decide) (.inl (by decide)), rd_atTime]

end Sys2Proof.Machine
end

section
/-!
SUPPORT. Lane training (Table 04-3, R113 to R122): each operation by the phase that the lane is in, and what decides among its cases there.
-/

namespace Sys2Proof.Machine

/-! ### A lane at the time that a command reports -/

/-- What is due at the time that a command reports is due once the clock has taken that time. -/
theorem le_atTime_timeNs {t now : Nat} (s : State) (h : t ≤ now) : t ≤ (atTime s now).timeNs := Nat.le_trans h (Nat.le_max_right _ _)

section
variable {s : State} {n : Nat} (now : Nat) (h : isLane s n = true)
include h

theorem exec_codewordPairReceived (c : LanePair) :
    exec (.codewordPairReceived now n c) s = .next (settled s (takePair (atTime s now) n c.levels c.skewNs)) :=
  congrArg (done s) (if_pos h)

theorem exec_laneDetectDone (wire : Nat) : exec (.laneDetectDone now n wire) s = .next (settled s (detectDone (atTime s now) n wire)) :=
  congrArg (done s) (if_pos h)

theorem exec_laneSignalDetected : exec (.laneSignalDetected now n) s = .next (settled s (signalSeen (atTime s now) n)) :=
  congrArg (done s) (if_pos h)

theorem exec_trainingFrameReceived (levels : Nat) (set : Bool) (ask : Nat) :
    exec (.trainingFrameReceived now n levels set ask) s = .next (settled s (trainFrame (atTime s now) n levels set ask)) :=
  congrArg (done s) (if_pos h)

theorem exec_laneQualifyDone (tj mv : Nat) (ok : Bool) :
    exec (.laneQualifyDone now n tj mv ok) s = .next (settled s (qualifyDone (atTime s now) n tj mv ok)) :=
  congrArg (done s) (if_pos h)

theorem exec_lanePhaseLimitExpired : exec (.lanePhaseLimitExpired now n) s = .next (settled s (phaseOver (atTime s now) n)) :=
  congrArg (done s) (if_pos h)

theorem exec_laneFailedRetryTimer : exec (.laneFailedRetryTimer now n) s = .next (settled s (failedRetry (atTime s now) n)) :=
  congrArg (done s) (if_pos h)

theorem exec_laneLockHuntExpired : exec (.laneLockHuntExpired now n) s = .next (settled s (huntOver (atTime s now) n)) :=
  congrArg (done s) (if_pos h)

end

theorem exec_noSignalTimeout (now n : Nat) (s : State) :
    exec (.noSignalTimeout now n) s = .next (settled s (noSignal (atTime s now) n)) := rfl

/-! ### Codeword pairs -/

theorem takePair_test {s : State} {n : Nat} (levels skew : Nat) (h : rd s F.lnStatPhase n = 9) :
    takePair s n levels skew = testPeriod s n levels := if_pos h

/-- Before ALIGN and in FAILED a lane takes no pairs (R115). -/
theorem takePair_ignored {s : State} {n : Nat} (levels skew : Nat) (h : rd s F.lnStatPhase n < 4 ∨ rd s F.lnStatPhase n = 8) :
    takePair s n levels skew = s := by
  rw [takePair, if_neg (by omega), if_pos h]

/-- The bits of a pair's symbols, at the polarity that CDR found (R119). -/
def pairBits (s : State) (n levels : Nat) : Nat :=
  pamBits 5440 (if rdb s F.lnStatRxInv n then invLevels 5440 (lineIn s n levels) else lineIn s n levels)

/-- A pair's sync headers taken at the lane's offset, and the hunt gone on (R113). -/
def headersTaken (s : State) (n levels : Nat) : State :=
  let oks := (headersOf (pairWindow s n (pairBits s n levels))).map fun h => h == hdrData || h == hdrControl
  huntOn (oks.foldl (fun t ok => takeHeader t n ok) (setLane s n { laneSt s n with rxPrev := pairBits s n levels, pair := none })) n
    (oks.all id)

/-- From ALIGN on a pair's headers are taken first, and its codewords only with block lock (R113, R114). -/
theorem takePair_headers {s : State} {n : Nat} (levels skew : Nat) (h4 : 4 ≤ rd s F.lnStatPhase n) (h8 : rd s F.lnStatPhase n < 8) :
    takePair s n levels skew =
      if rdb (headersTaken s n levels) F.lnStatBlkLock n then
        readGroups (headersTaken s n levels) n (pairWindow s n (pairBits s n levels)) skew
      else lanesChanged (setLane (headersTaken s n levels) n { laneSt (headersTaken s n levels) n with data := false }) n := by
  rw [takePair, if_neg (by omega), if_neg (by omega)]
  rfl

/-! ### DETECT and SIGNAL -/

/-- An OK of DETECT leads to SIGNAL (R115). -/
theorem detectDone_ok {s : State} {n : Nat} (h : rd s F.lnStatPhase n = 0) :
    detectDone s n 1 = setLane (wr (wr s F.lnStatWire 1 n) F.lnStatPhase 1 n) n
      { laneSt s n with phaseSince := s.timeNs, terminated := true } := if_pos ⟨h, by decide⟩

theorem detectDone_fault {s : State} {n wire : Nat} (h : rd s F.lnStatPhase n = 0) (hlo : 2 ≤ wire) (hhi : wire ≤ 4) :
    detectDone s n wire = failAttempt (setLane (wr s F.lnStatWire wire n) n
      { laneSt s n with wireFaults := (laneSt s n).wireFaults + 1, terminated := wire != 2 }) n := by
  rw [detectDone, if_pos ⟨h, by omega, hhi⟩]
  exact if_neg (by omega)

theorem detectDone_ignored {s : State} {n : Nat} (wire : Nat) (h : rd s F.lnStatPhase n ≠ 0) : detectDone s n wire = s :=
  if_neg fun ⟨h0, _⟩ => h h0

theorem signalSeen_signal {s : State} {n : Nat} (h : rd s F.lnStatPhase n = 1) :
    signalSeen s n = setLane (wr s F.lnStatPhase 2 n) n { laneSt s n with phaseSince := s.timeNs, signal := true, markerRun := 0 } :=
  if_pos h

/-- A lane that waits in SIGNAL with termination, while another lane of its unit has signal, reads NO_SIGNAL after 10 ms (R121). -/
theorem noSignal_due {s : State} {n k : Nat} (hn : n < 256) (hp : rd s F.lnStatPhase n = 1) (ht : (laneSt s n).terminated = true)
    (hk : k ∈ unitLanes s (laneUnit s n)) (hkn : k ≠ n)
    (hsig : (laneSt s k).signal = true ∨ (2 ≤ rd s F.lnStatPhase k ∧ rd s F.lnStatPhase k ≤ 7))
    (hdue : (laneSt s n).phaseSince + 10000000 ≤ s.timeNs) : noSignal s n = wr s F.lnStatWire 5 n := by
  have hothers : ((unitLanes s (laneUnit s n)).any fun k =>
      k != n && ((laneSt s k).signal || decide (2 ≤ rd s F.lnStatPhase k ∧ rd s F.lnStatPhase k ≤ 7))) = true :=
    List.any_eq_true.mpr ⟨k, hk, by simpa [hkn] using hsig⟩
  exact if_pos ⟨hn, hp, ht, hothers, hdue⟩

/-! ### Training frames -/

theorem trainFrame_noMarker {s : State} {n levels : Nat} (set : Bool) (ask : Nat) (hp : rd s F.lnStatPhase n = 2)
    (hm : markerIn (lineIn s n levels) = none) :
    trainFrame s n levels set ask = setLane s n { laneSt s n with ask := ask % 2 ^ 12, markerRun := 0 } := by
  simp only [trainFrame, if_pos hp, hm]

/-- A frame that shows the marker extends the run below 8 frames (R116, R119). -/
theorem trainFrame_marker {s : State} {n levels : Nat} {inv : Bool} (set : Bool) (ask : Nat) (hp : rd s F.lnStatPhase n = 2)
    (hm : markerIn (lineIn s n levels) = some inv) (hrun : (laneSt s n).markerRun < 7) :
    trainFrame s n levels set ask = setLane (wrb s F.lnStatRxInv inv n) n
      { laneSt s n with ask := ask % 2 ^ 12, markerRun := (laneSt s n).markerRun + 1 } := by
  simp only [trainFrame, if_pos hp, hm]
  exact if_neg (by omega)

/-- The eighth frame in a row that shows the marker leads to COEFF (R116). -/
theorem trainFrame_locked {s : State} {n levels : Nat} {inv : Bool} (set : Bool) (ask : Nat) (hp : rd s F.lnStatPhase n = 2)
    (hm : markerIn (lineIn s n levels) = some inv) (hrun : 7 ≤ (laneSt s n).markerRun) :
    trainFrame s n levels set ask = setLane (wr (wrb s F.lnStatRxInv inv n) F.lnStatPhase 3 n) n
      { laneSt s n with ask := ask % 2 ^ 12, markerRun := 0, phaseSince := s.timeNs } := by
  simp only [trainFrame, if_pos hp, hm]
  exact if_pos (by omega)

/-- The control word of a frame, at the polarity that CDR found (R116, R119). -/
def frameWord (s : State) (n levels : Nat) : Nat :=
  controlIn (if rdb s F.lnStatRxInv n then invLevels 4096 (lineIn s n levels) else lineIn s n levels)

/-- ORDER_CHECK by a control word: a spare has no order to keep (R120). -/
def wordOrder (s : State) (n w : Nat) : Nat := if n < 256 then orderCheck s n w else 1

/-- What a good control word says of the partner, recorded (R120, R122). -/
def wordTaken (s : State) (n w : Nat) (set : Bool) (ask : Nat) : State :=
  setLane (wr (wr s F.lnStatOrderCheck (wordOrder s n w) n) F.lnStatLlane (bits w 0 2) n) n
    { laneSt s n with ask := ask % 2 ^ 12, partnerLane := some (bits w 0 2), partnerPort := some (bits w 2 7), settled := set,
                      readyRun := if bitAt w 32 then (laneSt s n).readyRun + 1 else 0 }

/-- In COEFF a good control word acts: the lane-order check decides first, then RX_READY and this side's receiver (R120, R122). -/
theorem trainFrame_goodWord {s : State} {n levels : Nat} (set : Bool) (ask : Nat) (hp : rd s F.lnStatPhase n = 3)
    (hw : ccrcOk (frameWord s n levels) = true) :
    trainFrame s n levels set ask =
      (let w := frameWord s n levels
       let u := wordTaken s n w set ask
       let v := moveTaps u n w
       if wordOrder s n w ≠ 1 then wr (failAttempt u n) F.lnStatOrderCheck (wordOrder s n w) n
       else if (laneSt v n).settled = true ∧ 16 ≤ (laneSt v n).readyRun then
         setLane (wr v F.lnStatPhase 4 n) n
           { laneSt v n with phaseSince := v.timeNs, hdrRun := 0, hdrWin := [], deskew := false, partnerReady := false }
       else v) := by
  rw [trainFrame, if_neg (by omega)]
  refine (if_pos ⟨hp, hw⟩).trans ?_
  simp only [Bool.and_eq_true, decide_eq_true_eq]
  rfl

theorem trainFrame_badWord {s : State} {n levels : Nat} (set : Bool) (ask : Nat) (hp : rd s F.lnStatPhase n = 3)
    (hw : ccrcOk (frameWord s n levels) = false) : trainFrame s n levels set ask = s := by
  rw [trainFrame, if_neg (by omega)]
  refine if_neg fun ⟨_, hgood⟩ => ?_
  exact Bool.false_ne_true (hw.symm.trans hgood)

/-! ### The ends of QUALIFY, of a phase, and of the wait in FAILED -/

theorem qualifyDone_due {s : State} {n : Nat} (tj mv : Nat) (ok : Bool) (hp : rd s F.lnStatPhase n = 5)
    (hdue : (laneSt s n).phaseSince + 10000000 ≤ s.timeNs) :
    qualifyDone s n tj mv ok = if ok && !(laneSt s n).qualBad then laneReadyNow s n tj mv else failAttempt s n := if_pos ⟨hp, hdue⟩

theorem qualifyDone_passed {s : State} {n : Nat} (tj mv : Nat) (hp : rd s F.lnStatPhase n = 5)
    (hdue : (laneSt s n).phaseSince + 10000000 ≤ s.timeNs) (hbad : (laneSt s n).qualBad = false) :
    qualifyDone s n tj mv true = laneReadyNow s n tj mv := by
  rw [qualifyDone_due tj mv true hp hdue, hbad]
  rfl

theorem qualifyDone_failed {s : State} {n : Nat} (tj mv : Nat) {ok : Bool} (hp : rd s F.lnStatPhase n = 5)
    (hdue : (laneSt s n).phaseSince + 10000000 ≤ s.timeNs) (hbad : ok = false ∨ (laneSt s n).qualBad = true) :
    qualifyDone s n tj mv ok = failAttempt s n := by
  rw [qualifyDone_due tj mv ok hp hdue]
  refine if_neg ?_
  rcases hbad with hok | hbad
  · simp [hok]
  · simp [hbad]

theorem phaseOver_due {s : State} {n limit : Nat} (hl : phaseLimit (rd s F.lnStatPhase n) = some limit)
    (hdue : (laneSt s n).phaseSince + limit ≤ s.timeNs) : phaseOver s n = failAttempt s n := by
  simp only [phaseOver, hl, if_pos hdue]

/-- The limits of Table 04-3. -/
theorem phaseLimit_of_mem {ph limit : Nat}
    (h : (ph, limit) ∈ [(0, 1000000), (2, 2000000), (3, 50000000), (4, 2000000), (5, 10000000)]) : phaseLimit ph = some limit := by
  simp only [List.mem_cons, Prod.mk.injEq, List.not_mem_nil, or_false] at h
  rcases h with ⟨rfl, rfl⟩ | ⟨rfl, rfl⟩ | ⟨rfl, rfl⟩ | ⟨rfl, rfl⟩ | ⟨rfl, rfl⟩ <;> rfl

theorem failedRetry_due {s : State} {n : Nat} (hp : rd s F.lnStatPhase n = 8) (hc : rd s F.lnStatFailCause n ≠ 6 ∨ onAttempt s n = true)
    (hdue : (laneSt s n).phaseSince + 10000000000 ≤ s.timeNs) : failedRetry s n = retrainLane s n 5 := if_pos ⟨hp, hc, hdue⟩

end Sys2Proof.Machine
end

section
/-!
SUPPORT. LN_CTL, recalibration and failures of lanes (R117, R125 to R130, R134): the forms of a served write of LN_CTL, the lanes of a
10 ms check, and a tile's spare by the stage that it is in.
-/

namespace Sys2Proof.Machine

/-! ### LN_CTL -/

theorem exec_lnCtlRetrain {n : Nat} (now : Nat) (who : Who) (width : Nat) (val : Word) (s : State) (h : n < 272) :
    exec (.lnCtlRetrain now who width n val) s = .next (settled s (csrWriteBy (atTime s now) who (lnCtlKey n) width val noEnv)) :=
  congrArg (done s) (if_pos (decide_eq_true h))

theorem exec_lnCtlRecal {n : Nat} (now : Nat) (who : Who) (width : Nat) (val : Word) (s : State) (h : n < 272) :
    exec (.lnCtlRecal now who width n val) s = .next (settled s (csrWriteBy (atTime s now) who (lnCtlKey n) width val noEnv)) :=
  congrArg (done s) (if_pos (decide_eq_true h))

theorem lnCtlKey_eq (n : Nat) : lnCtlKey n = 0x01000000 + 0x1000 * n := rfl

theorem regFind_lnCtlKey : ∀ n < 272, regFind (lnCtlKey n) = some R.lnCtl := by decide +kernel

theorem takesWrites_lnCtlKey {n : Nat} (h : n < 272) : takesWrites (lnCtlKey n) = true := by
  have hr := regFind_lnCtlKey n h
  refine takesWrites_of_not_rwt (by rw [hr]; rfl) ?_
  rw [isRwt, fieldsAt_of_regFind hr]
  decide

theorem blockWrite_lnCtl (t : State) (who : Who) {n : Nat} (w : Word) (env : CsrEnv) (h : n < 272) :
    blockWrite t who (lnCtlKey n) w env = lnCtlWrite t n w := by
  have hkey := lnCtlKey_eq n
  have hpage : pageOf (lnCtlKey n) = none := pageOf_of_lt (by omega)
  have hlane : (lnCtlKey n - 0x01000000) / 0x1000 = n := by omega
  simp only [blockWrite, hpage]
  rw [if_neg (by omega), if_neg (by omega), if_neg (by omega), if_neg (by omega), if_neg (by omega), if_neg (by omega),
    if_pos (by omega), hlane]

/-- A served write of LN_CTL reaches lnCtlWrite. -/
theorem csrWriteBy_lnCtl {s : State} {who : Who} {width n : Nat} {w : Word} {f : State → State} (h : Served s who) (hw : 64 ≤ width)
    (hn : n < 272) (hl : wordLegal (fieldsAt (lnCtlKey n)) w = true) (hf : ∀ t, Entry t s → lnCtlWrite t n w = f t) :
    csrWriteBy s who (lnCtlKey n) width w noEnv = viaGate s who f := by
  have hkey := lnCtlKey_eq n
  refine csrWriteBy_block s who (lnCtlKey n) width w noEnv f h hw ?place (.inr hl) fun t ht => ?effect
  case place =>
    simp only [takesWrites_lnCtlKey hn, Bool.true_and, Bool.and_eq_true, beq_iff_eq, decide_eq_true_eq]
    omega
  case effect => rw [blockWrite_lnCtl t who w noEnv hn, hf t ht]

/-- What LN_CTL does with a word that it takes: TEST by the loops and patterns, then RECAL, then RETRAIN (R117, R125, R134). -/
def lnCtlTaken (t : State) (n : Nat) (w : Word) : State :=
  let u := csrPut t (lnCtlKey n) (wordWrite (locked t (lnCtlKey n)) (fieldsAt (lnCtlKey n)) (csrRaw t (lnCtlKey n)) w)
  let u := lanePhaseTest (startPatterns u n (rd t F.lnCtlPrbsGen n) (rd t F.lnCtlPrbsChk n)) n
  let u := if bitAt w.toNat 1 then requestRecal u n 4 else u
  if bitAt w.toNat 0 then wrb (retrainLane u n 1) F.lnCtlRetrain false n else u

/-- A word sets a loop, a pattern or RATE outside TEST (R134). -/
def TestOnly (s : State) (w : Word) : Prop := wordGet w 5 11 ≠ 0 ∧ baseOf s ≠ 3

/-- A word sets a PAM4 pattern with RATE 2 (Table 04-8). -/
def PatternNeedsPam4 (w : Word) : Prop := wordGet w 5 2 = 2 ∧ (3 ≤ wordGet w 10 3 ∨ 3 ≤ wordGet w 7 3)

/-- The check of Table 04-8 as lnCtlWrite makes it. -/
theorem patternNeedsPam4_iff (w : Word) :
    PatternNeedsPam4 w ↔ (wordGet w 5 2 = 2 && (decide (3 ≤ wordGet w 10 3) || decide (3 ≤ wordGet w 7 3))) = true := by
  simp [PatternNeedsPam4]

theorem lnCtlWrite_taken {t : State} {n : Nat} {w : Word} (hn : n < 272) (hl : wordLegal (fieldsAt (lnCtlKey n)) w = true)
    (htest : ¬ TestOnly t w) (hpam : ¬ PatternNeedsPam4 w) : lnCtlWrite t n w = lnCtlTaken t n w := by
  have hstored := csrPlain_legal t (by rw [regFind_lnCtlKey n hn]; rfl) hl
  rw [lnCtlTaken, ← hstored]
  exact (if_neg htest).trans (if_neg (mt (patternNeedsPam4_iff w).mpr hpam))

theorem lnCtlWrite_refused {t : State} (n : Nat) {w : Word} (h : TestOnly t w ∨ PatternNeedsPam4 w) :
    lnCtlWrite t n w = refuseWrite t := by
  by_cases htest : TestOnly t w
  · exact if_pos htest
  · have hpam : PatternNeedsPam4 w := h.resolve_left htest
    exact (if_neg htest).trans (if_pos ((patternNeedsPam4_iff w).mp hpam))

theorem Entry.testOnly_iff {t s : State} (h : Entry t s) (w : Word) : TestOnly t w ↔ TestOnly s w := by
  rw [TestOnly, TestOnly, h.baseOf_eq]

section
variable {s : State} {who : Who} {width n : Nat} {w : Word} (h : Served s who) (hw : 64 ≤ width) (hn : n < 272)
  (hl : wordLegal (fieldsAt (lnCtlKey n)) w = true)
include h hw hn hl

theorem csrWriteBy_lnCtl_taken (htest : wordGet w 5 11 = 0 ∨ baseOf s = 3) (hpam : ¬ PatternNeedsPam4 w) :
    csrWriteBy s who (lnCtlKey n) width w noEnv = viaGate s who fun t => lnCtlTaken t n w := by
  have hs : ¬ TestOnly s w := fun ⟨hset, hbase⟩ => htest.elim hset hbase
  exact csrWriteBy_lnCtl h hw hn hl fun _ ht => lnCtlWrite_taken hn hl (mt (ht.testOnly_iff w).mp hs) hpam

theorem csrWriteBy_lnCtl_refused (hbad : TestOnly s w ∨ PatternNeedsPam4 w) :
    csrWriteBy s who (lnCtlKey n) width w noEnv = viaGate s who refuseWrite :=
  csrWriteBy_lnCtl h hw hn hl fun _ ht => lnCtlWrite_refused n (hbad.imp_left (ht.testOnly_iff w).mpr)

end

/-! ### The 10 ms check -/

theorem exec_laneRecalCheck (now : Nat) (lanes : List (Nat × Nat × Nat × Bool)) (s : State) :
    exec (.laneRecalCheck now lanes) s = .next (settled s ((inLaneOrder lanes).foldl checkLane (atTime s now))) := rfl

/-- A lane has drifted from its record by more than 8 °C, or by more than 2 % of VSERDES (R125). -/
abbrev Drifted (s : State) (n tj mv : Nat) : Prop :=
  8 < (toSigned 8 tj - toSigned 8 (rd s F.lnRecTj n)).natAbs
    ∨ rd s F.lnRecVserdesMv n * 2 < ((mv : Int) - rd s F.lnRecVserdesMv n).natAbs * 100

/-- The distance of two numbers, taken without a sign. -/
theorem natAbs_sub_natCast (a b : Nat) : ((a : Int) - b).natAbs = if a < b then b - a else a - b := by
  split <;> omega

theorem checkLane_ignored {s : State} {n : Nat} (tj mv : Nat) (ber : Bool) (h : 256 ≤ n ∨ rd s F.lnStatPhase n ≠ 6) :
    checkLane s (n, tj, mv, ber) = s := by
  by_cases hn : 256 ≤ n
  · exact if_pos hn
  · rw [checkLane, if_neg hn, if_pos (h.resolve_left hn)]

theorem checkLane_ready {s : State} {n : Nat} (tj mv : Nat) (ber : Bool) (hn : n < 256) (hp : rd s F.lnStatPhase n = 6) :
    checkLane s (n, tj, mv, ber) =
      if Drifted s n tj mv then requestRecal s n 2 else if ber then requestRecal s n 3 else s := by
  rw [checkLane, if_neg (Nat.not_le.mpr hn), if_neg (not_not_intro hp)]
  simp only [Drifted, natAbs_sub_natCast]

theorem checkLane_drifted {s : State} {n tj mv : Nat} (ber : Bool) (hn : n < 256) (hp : rd s F.lnStatPhase n = 6)
    (hd : Drifted s n tj mv) : checkLane s (n, tj, mv, ber) = requestRecal s n 2 :=
  (checkLane_ready tj mv ber hn hp).trans (if_pos hd)

theorem checkLane_steady {s : State} {n tj mv : Nat} (ber : Bool) (hn : n < 256) (hp : rd s F.lnStatPhase n = 6)
    (hd : ¬ Drifted s n tj mv) : checkLane s (n, tj, mv, ber) = if ber then requestRecal s n 3 else s :=
  (checkLane_ready tj mv ber hn hp).trans (if_neg hd)

/-! ### Spares -/

theorem exec_recalSpareLocked (now t : Nat) (s : State) :
    exec (.recalSpareLocked now t) s = .next (settled s (recalLocked (atTime s now) t)) := rfl

theorem exec_recalSliceQualified (now t tj mv : Nat) (s : State) :
    exec (.recalSliceQualified now t tj mv) s = .next (settled s (sliceQualified (atTime s now) t tj mv)) := rfl

theorem exec_spareSwapResume (now t : Nat) (s : State) :
    exec (.spareSwapResume now t) s = .next (settled s (swapResumes (atTime s now) t)) := rfl

theorem exec_failedSliceRetestDone (now t : Nat) (pass : Bool) (s : State) :
    exec (.failedSliceRetestDone now t pass) s = .next (settled s (sliceRetested (atTime s now) t pass)) := rfl

/-- The clock is no part of what says which lane a spare serves. -/
theorem servedBy_atTime (s : State) (now t : Nat) : servedBy (atTime s now) t = servedBy s t := by
  simp only [servedBy, rdb_atTime, rd_atTime]

section
variable {s : State} {t n : Nat} (h : servedBy s t = some n)
include h

theorem recalLocked_ready (hst : (spareSt s t).stage = .recalLock) (hp : rd s F.lnStatPhase n = 6) :
    recalLocked s t = lanesChanged (wr (wrb (setSpare s t { spareSt s t with stage := .recalCarry }) F.lnStatOnSpare true n)
      F.lnStatPhase 7 n) n := by
  simp only [recalLocked, h, if_pos (And.intro hst hp)]

theorem sliceQualified_carried (tj mv : Nat) (hst : (spareSt s t).stage = .recalCarry ∨ (spareSt s t).stage = .retrain) :
    sliceQualified s t tj mv = takeBack s t n tj mv := by
  simp only [sliceQualified, h, if_pos hst]

theorem swapResumes_locked (hst : (spareSt s t).stage = .swapLock) (hrx : laneRx s n = true) (hr : (laneSt s n).partnerReady = true) :
    swapResumes s t =
      (let u := wrb (setSpare s t { spareSt s t with stage := .swapped }) F.lnStatOnSpare true n
       lanesChanged (setLink u (laneUnit u n) { linkOf u (laneUnit u n) with swapUntil := none }) n) := by
  simp only [swapResumes, h, if_pos (And.intro hst (And.intro hrx hr))]

/-- The self-test of a failed slice that is not retired: its failures within 24 h decide (R130). -/
theorem sliceRetested_swapped (pass : Bool) (hst : (spareSt s t).stage = .swapped) (hc : rd s F.lnStatFailCause n ≠ 6) :
    sliceRetested s t pass =
      (let times := (if pass then (laneSt s n).failTimes else s.timeNs :: (laneSt s n).failTimes).filter fun x =>
         decide (s.timeNs < x + 86400000000000)
       let u := setLane s n { laneSt s n with failTimes := times }
       if 3 ≤ times.length then tell (wr u F.lnStatFailCause 6 n) (.patina 0 n)
       else if pass then setSpare u t { spareSt u t with stage := .retrain } else u) := by
  simp only [sliceRetested, h, if_pos (And.intro hst hc)]

end

/-! ### Failures -/

theorem exec_laneSelfCheckFail {n : Nat} (now : Nat) (s : State) (h : n < 272) :
    exec (.laneSelfCheckFail now n) s = .next (settled s (sliceFails (atTime s now) n)) :=
  congrArg (done s) (if_pos (decide_eq_true h))

theorem sliceFails_working {s : State} {n : Nat} (h : rd s F.lnStatPhase n ≠ 8) : sliceFails s n = failLane s n 1 := if_neg h

theorem huntOver_due {s : State} {n t : Nat} (hlost : (laneSt s n).lockLostAt = some t)
    (hp : rd s F.lnStatPhase n = 6 ∨ rd s F.lnStatPhase n = 7) (hblk : rdb s F.lnStatBlkLock n = false) (hdue : t + 10000 ≤ s.timeNs) :
    huntOver s n = failLane (setLane s n { laneSt s n with lockLostAt := none }) n 2 := by
  simp only [huntOver, hlost, if_pos (And.intro hp (And.intro hblk hdue))]

end Sys2Proof.Machine
end

section
/-!
The obligations of the chapter on lanes: training, recalibration, and failures.
-/

namespace Sys2Proof.Machine

/-- Settles O18: each command's operation by the lane's phase, at the time that the command reports. -/
theorem laneTrainingCommandsComplete : Obligations.LaneTrainingCommandsComplete := by
  unfold Obligations.LaneTrainingCommandsComplete
  refine ⟨fun s now n c h hp => ?test, fun s now n c h hp => ?pairIgnored, fun s now n c h h4 h8 => ?pair, fun s now n h hp => ?wireOk,
    fun s now n wire h hp hlo hhi => ?wireFault, fun s now n wire h hp => ?notDetect, fun s now n h hp => ?signal,
    fun s now n levels set ask h hp hm => ?noMarker, fun s now n levels set ask inv h hp hm hrun => ?marker,
    fun s now n levels set ask inv h hp hm hrun => ?locked, fun s now n levels set ask h hp => ?goodWord,
    fun s now n levels set ask h hp => ?badWord, fun s now n tj mv h hp hdue hbad => ?qualified,
    fun s now n tj mv ok h hp hdue hbad => ?notQualified, fun s now n limit h hl hdue => ?limit, fun s now n h hp hc hdue => ?retry,
    fun s now n k hn hp ht hk hkn hsig hdue => ?noSignal⟩
  case test => rw [exec_codewordPairReceived now h, takePair_test (s := atTime s now) _ _ hp]
  case pairIgnored => rw [exec_codewordPairReceived now h, takePair_ignored (s := atTime s now) _ _ hp]
  case pair => rw [exec_codewordPairReceived now h, takePair_headers (s := atTime s now) _ _ h4 h8]; rfl
  case wireOk => rw [exec_laneDetectDone now h, detectDone_ok (s := atTime s now) hp]; rfl
  case wireFault => rw [exec_laneDetectDone now h, detectDone_fault (s := atTime s now) hp hlo hhi]; rfl
  case notDetect => rw [exec_laneDetectDone now h, detectDone_ignored (s := atTime s now) wire hp]
  case signal => rw [exec_laneSignalDetected now h, signalSeen_signal (s := atTime s now) hp]; rfl
  case noMarker => rw [exec_trainingFrameReceived now h, trainFrame_noMarker (s := atTime s now) set ask hp hm]; rfl
  case marker => rw [exec_trainingFrameReceived now h, trainFrame_marker (s := atTime s now) set ask hp hm hrun]; rfl
  case locked => rw [exec_trainingFrameReceived now h, trainFrame_locked (s := atTime s now) set ask hp hm hrun]; rfl
  case goodWord =>
    intro _ _ _ _ _ hw
    rw [exec_trainingFrameReceived now h, trainFrame_goodWord (s := atTime s now) set ask hp hw]
    rfl
  case badWord =>
    intro _ hw
    rw [exec_trainingFrameReceived now h, trainFrame_badWord (s := atTime s now) set ask hp hw]
  case qualified =>
    rw [exec_laneQualifyDone now h, qualifyDone_passed (s := atTime s now) tj mv hp (le_atTime_timeNs s hdue) hbad]
  case notQualified =>
    rw [exec_laneQualifyDone now h, qualifyDone_failed (s := atTime s now) tj mv hp (le_atTime_timeNs s hdue) hbad]
  case limit =>
    rw [exec_lanePhaseLimitExpired now h, phaseOver_due (s := atTime s now) (phaseLimit_of_mem hl) (le_atTime_timeNs s hdue)]
  case retry => rw [exec_laneFailedRetryTimer now h, failedRetry_due (s := atTime s now) hp hc (le_atTime_timeNs s hdue)]
  case noSignal =>
    rw [exec_noSignalTimeout, noSignal_due (s := atTime s now) hn hp ht hk hkn hsig (le_atTime_timeNs s hdue)]

/-- Settles O19: LN_CTL passes the gate to lnCtlWrite whichever command writes it; a measured lane is judged against its record; and a
spare goes on from its stage. -/
theorem recalibrationCommandsComplete : Obligations.RecalibrationCommandsComplete := by
  unfold Obligations.RecalibrationCommandsComplete
  refine ⟨fun s now who width n val h hw hn hl htest hpam => ?retrain, fun s now who width n val h hw hn hl hbad => ?retrainRefused,
    fun s now who width n val h hw hn hl htest hpam => ?recal, fun s now who width n val h hw hn hl hbad => ?recalRefused,
    fun s now lanes => exec_laneRecalCheck now lanes s, fun s n tj mv ber hn hp hd => checkLane_drifted ber hn hp hd,
    fun s n tj mv ber hn hp htj hmv => ?steady, fun s n tj mv ber h => checkLane_ignored tj mv ber h,
    fun s now t n h hst hp => ?locked, fun s now t n tj mv h hst => ?qualified⟩
  case retrain =>
    rw [exec_lnCtlRetrain now who width val s hn, csrWriteBy_lnCtl_taken (served_atTime now h) hw hn hl htest hpam]
    rfl
  case retrainRefused =>
    rw [exec_lnCtlRetrain now who width val s hn, csrWriteBy_lnCtl_refused (served_atTime now h) hw hn hl hbad]
  case recal =>
    rw [exec_lnCtlRecal now who width val s hn, csrWriteBy_lnCtl_taken (served_atTime now h) hw hn hl htest hpam]
    rfl
  case recalRefused =>
    rw [exec_lnCtlRecal now who width val s hn, csrWriteBy_lnCtl_refused (served_atTime now h) hw hn hl hbad]
  case steady => exact checkLane_steady ber hn hp fun hd => hd.elim (Nat.not_lt.mpr htj) (Nat.not_lt.mpr hmv)
  case locked =>
    rw [exec_recalSpareLocked, recalLocked_ready (s := atTime s now) h hst hp]
    rfl
  case qualified => rw [exec_recalSliceQualified, sliceQualified_carried (s := atTime s now) h tj mv hst]

/-- Settles O20: a failure by the lane's phase, and a spare by its stage, at the time that the command reports. -/
theorem laneFailureCommandsComplete : Obligations.LaneFailureCommandsComplete := by
  unfold Obligations.LaneFailureCommandsComplete
  refine ⟨fun s now n hn hp => ?selfCheck, fun s now n t h hlost hp hblk hdue => ?lockLost,
    fun s now t n h hst hblk hfec hdeskew hr => ?resume, fun s now t n pass h hst hc => ?retest⟩
  case selfCheck => rw [exec_laneSelfCheckFail now s hn, sliceFails_working (s := atTime s now) hp]
  case lockLost =>
    rw [exec_laneLockHuntExpired now h, huntOver_due (s := atTime s now) hlost hp hblk (le_atTime_timeNs s hdue)]
    rfl
  case resume =>
    have hrx : laneRx s n = true := by rw [laneRx, hblk, hfec, hdeskew]; rfl
    rw [exec_spareSwapResume, swapResumes_locked (s := atTime s now) h hst hrx hr]
    rfl
  case retest =>
    rw [exec_failedSliceRetestDone, sliceRetested_swapped (s := atTime s now) h pass hst hc]
    rfl

end Sys2Proof.Machine
end

section
/-!
SUPPORT. The supply's state (R585) under what a link does: routing, joining, a link-down, and the forming of a frame leave it as it is, so a
device without THERMTRIP still has none when the lanes send what was formed.
-/

namespace Sys2Proof.Machine

/-! ### Counters and the switch -/

@[simp] theorem pmCount_pw (s : State) (block inst ev value : Nat) : (pmCount s block inst ev value).pw = s.pw := by
  unfold pmCount
  split <;> rfl

@[simp] theorem settle_pw (s : State) : (settle s).pw = s.pw := by simp only [settle, wrb_pw]

@[simp] theorem returnCredit_pw (s : State) (inp v n : Nat) : (returnCredit s inp v n).pw = s.pw := by
  simp only [returnCredit, apply_ite State.pw, setLink_pw, ite_self]

@[simp] theorem updatePkt_pw (s : State) (id : Nat) (old new : SwPkt) : (updatePkt s id old new).pw = s.pw := by
  simp only [updatePkt, apply_ite State.pw, delPkt_pw, setPkt_pw, returnCredit_pw, ite_self]

@[simp] theorem dropCopy_pw (s : State) (id : Nat) (p : SwPkt) (o : Nat) : (dropCopy s id p o).pw = s.pw := by
  simp only [dropCopy, updatePkt_pw, apply_ite State.pw, ite_self]

@[simp] theorem enqueue_pw (s : State) (id : Nat) (p : SwPkt) (outs : List (Nat × Nat)) : (enqueue s id p outs).pw = s.pw := by
  simp only [enqueue, setPkt_pw, apply_ite State.pw, inc_pw, pmCount_pw, ite_self]

/-! ### Routing -/

@[simp] theorem drawUnit_pw (s : State) (l : List Nat) : (drawUnit s l).1.pw = s.pw := by
  unfold drawUnit
  split <;> rfl

/-- The state of a pair that an operation gives, when the operation is known to keep the supply's state. -/
theorem pw_of_fst {α : Type} {s t : State} {x : State × α} {a : α} (hx : x.1.pw = s.pw) (h : x = (t, a)) : t.pw = s.pw := by
  rw [← hx, h]

@[simp] theorem chooseMinimal_pw (s : State) (h : Pkt) (inp : Nat) (mins : List Nat) : (chooseMinimal s h inp mins).1.pw = s.pw := by
  unfold chooseMinimal
  extract_lets
  split
  · rfl
  split
  · rfl
  split
  next t best hbest =>
    -- `t` is what the comparison with a non-minimal unit leaves
    have ht : t.pw = s.pw := by
      refine pw_of_fst ?_ hbest
      split
      · split
        · next hd => simp only [apply_ite Prod.fst, apply_ite State.pw, inc_pw, pmCount_pw, ite_self, pw_of_fst (drawUnit_pw _ _) hd]
        · next hd => exact pw_of_fst (drawUnit_pw _ _) hd
      · rfl
    split
    · split
      · simp only [apply_ite Prod.fst, apply_ite State.pw, inc_pw, pmCount_pw, ite_self, ht]
      · exact ht
    · exact ht

@[simp] theorem chooseAround_pw (s : State) (h : Pkt) (inp : Nat) : (chooseAround s h inp).1.pw = s.pw := by
  unfold chooseAround
  extract_lets
  split
  · simp only [inc_pw, pmCount_pw]
  split
  · next hd => simp only [inc_pw, pmCount_pw, pw_of_fst (drawUnit_pw _ _) hd]
  next hd =>
    have ht := pw_of_fst (drawUnit_pw _ _) hd
    extract_lets
    split
    · next hd' => simp only [inc_pw, pmCount_pw, pw_of_fst (drawUnit_pw _ _) hd', ht]
    · next hd' => exact (pw_of_fst (drawUnit_pw _ _) hd').trans ht

@[simp] theorem routeChoice_pw (s : State) (h : Pkt) (inp : Nat) : (routeChoice s h inp).1.pw = s.pw := by
  simp only [routeChoice, apply_ite Prod.fst, apply_ite State.pw, chooseAround_pw, chooseMinimal_pw, ite_self]

@[simp] theorem routePkt_pw (s : State) (id : Nat) (p : SwPkt) : (routePkt s id p).pw = s.pw := by
  unfold routePkt
  split
  · next hc => rw [enqueue_pw, pw_of_fst (routeChoice_pw _ _ _) hc]
  · next hc => simp only [updatePkt_pw, apply_ite State.pw, inc_pw, pw_of_fst (routeChoice_pw _ _ _) hc, ite_self]

@[simp] theorem rerouteOutputs_pw (s : State) (hit : Nat → Bool) (maskedOnly : Bool) : (rerouteOutputs s hit maskedOnly).pw = s.pw := by
  unfold rerouteOutputs
  refine foldl_keeps State.pw (fun t e => ?_) _ _
  split
  · rfl
  dsimp only
  split
  · rfl
  split
  · split
    · rfl
    · -- a unit-bound packet drops its waiting copies
      exact foldl_keeps State.pw (fun u c => by split <;> simp only [dropCopy_pw]) _ _
  split
  · -- an MC_PUT drops the copies whose port may not be chosen
    rw [foldl_keeps State.pw fun u c => ?_, inc_pw]
    split
    · rfl
    · split <;> simp only [dropCopy_pw, inc_pw]
  · -- any other packet is routed again
    simp only [routePkt_pw, setPkt_pw, inc_pw]

@[simp] theorem rerouteOutput_pw (s : State) (o : Nat) (maskedOnly : Bool) : (rerouteOutput s o maskedOnly).pw = s.pw :=
  rerouteOutputs_pw ..

/-! ### Notices and joining -/

@[simp] theorem tagFns_pw (s : State) (k t : Nat) : (tagFns s k t).pw = s.pw := by
  refine foldl_keeps State.pw (fun u fn => ?_) _ _
  split
  · rfl
  · split
    · rfl
    · exact setTp_pw ..

@[simp] theorem fixHead_pw (s : State) (k t : Nat) : (fixHead s k t).pw = s.pw := by
  unfold fixHead
  extract_lets
  split
  · exact tagFns_pw ..
  · split <;> exact tagFns_pw ..

@[simp] theorem sendUnit_pw (s : State) (p op dst : Nat) (payload : List Byte) : (sendUnit s p op dst payload).pw = s.pw := by
  simp only [sendUnit, queueItem, fixHead_pw, setTp_pw]

@[simp] theorem noticeAll_pw (s : State) (p : Nat) (live : Bool) : (noticeAll s p live).pw = s.pw := by
  unfold noticeAll
  split
  · rfl
  · exact foldl_keeps State.pw (fun u q => sendUnit_pw ..) _ _

@[simp] theorem rebuildTables_pw (s : State) : (rebuildTables s).pw = s.pw := by
  simp only [rebuildTables]
  rw [foldl_keeps State.pw fun u g => csrPut_pw .., foldl_keeps State.pw fun u m => csrPut_pw ..]

@[simp] theorem setJoined_pw (s : State) (p : Nat) (live : Bool) : (setJoined s p live).pw = s.pw := by
  simp only [setJoined, apply_ite State.pw, settle_pw, noticeAll_pw, rebuildTables_pw, ite_self]

@[simp] theorem sendJoin_pw (s : State) (p : Nat) : (sendJoin s p).pw = s.pw := by
  simp only [sendJoin, apply_ite State.pw, sendUnit_pw, ite_self]

@[simp] theorem announce_pw (s : State) (rep : Nat) : (announce s rep).pw = s.pw := by
  simp only [announce]
  rw [foldl_keeps State.pw fun u p => sendUnit_pw .., foldl_keeps State.pw fun u p => sendUnit_pw ..]
  rfl

@[simp] theorem joinComplete_pw (s : State) : (joinComplete s).pw = s.pw := by
  simp only [joinComplete, announce_pw, settle_pw, wrb_pw, wr_pw]

@[simp] theorem joinCheck_pw (s : State) (windowOver : Bool) : (joinCheck s windowOver).pw = s.pw := by
  simp only [joinCheck, apply_ite State.pw, joinComplete_pw, wr_pw, ite_self]

/-! ### Link states -/

@[simp] theorem setState_pw (s : State) (p st : Nat) : (setState s p st).pw = s.pw := wr_pw ..

@[simp] theorem refreshLink_pw (s : State) (p : Nat) : (refreshLink s p).pw = s.pw := by
  simp only [refreshLink]
  rw [foldl_keeps State.pw fun u v => by simp only [apply_ite State.pw, wr_pw, ite_self]]
  simp only [wr_pw]

@[simp] theorem dropLink_pw (s : State) (p : Nat) : (dropLink s p).pw = s.pw := by
  simp only [dropLink]
  rw [foldl_keeps State.pw fun u e => ?_, setLink_pw]
  split <;> simp only [dropCopy_pw, apply_ite State.pw, tell_pw, inc_pw, ite_self]

@[simp] theorem cutInput_pw (s : State) (p : Nat) : (cutInput s p).pw = s.pw := by
  simp only [cutInput, setLink_pw]
  exact foldl_keeps State.pw (fun u e => by simp only [apply_ite State.pw, setPkt_pw, ite_self]) _ _

@[simp] theorem linkDown_pw (s : State) (p cause : Nat) : (linkDown s p cause).pw = s.pw := by
  simp only [linkDown, apply_ite State.pw, joinCheck_pw, refreshLink_pw, setLink_pw, rerouteOutput_pw, cutInput_pw, dropLink_pw, tell_pw,
    wrb_pw, wr_pw, setState_pw, inc_pw, setJoined_pw, settle_pw, ite_self]

@[simp] theorem enterInit_pw (s : State) (p : Nat) : (enterInit s p).pw = s.pw := by
  simp only [enterInit, apply_ite State.pw, refreshLink_pw, wr_pw, setState_pw, setLink_pw, ite_self]

@[simp] theorem enterUp_pw (s : State) (p : Nat) : (enterUp s p).pw = s.pw := by
  simp only [enterUp, refreshLink_pw, apply_ite State.pw, settle_pw, sendJoin_pw, setState_pw, setLink_pw, ite_self]

@[simp] theorem initCheck_pw (s : State) (p : Nat) (past : Bool) : (initCheck s p past).pw = s.pw := by
  simp only [initCheck, apply_ite State.pw, enterUp_pw, ite_self]

@[simp] theorem enterRecover_pw (s : State) (p : Nat) : (enterRecover s p).pw = s.pw := by
  simp only [enterRecover, apply_ite State.pw, refreshLink_pw, setLink_pw, setState_pw, inc_pw, ite_self]

@[simp] theorem nackedOut_pw (s : State) (p : Nat) : (nackedOut s p).pw = s.pw := by
  simp only [nackedOut, apply_ite State.pw, enterRecover_pw, ite_self]

@[simp] theorem drainCheck_pw (s : State) (p : Nat) : (drainCheck s p).pw = s.pw := by
  simp only [drainCheck, apply_ite State.pw, linkDown_pw, ite_self]

/-! ### The frame of a link that passes data -/

@[simp] theorem returnWords_pw (s : State) (p : Nat) : (returnWords s p).1.pw = s.pw := by
  simp only [returnWords, setLink_pw, apply_ite State.pw, inc_pw, ite_self]

@[simp] theorem voidPacket_pw (s : State) (p : Nat) (e : RplEnt) : (voidPacket s p e).pw = s.pw := by
  simp only [voidPacket, wr_pw, setLink_pw, inc_pw]

@[simp] theorem replaySlots_pw (s : State) (p room : Nat) : (replaySlots s p room).1.pw = s.pw := by
  unfold replaySlots
  dsimp only
  split
  · rfl
  · exact setLink_pw ..
  split
  · exact setLink_pw ..
  split
  · simp only [setLink_pw, apply_ite State.pw, voidPacket_pw, ite_self]
  split
  · exact linkDown_pw ..
  · simp only [setLink_pw, inc_pw, pmCount_pw]

@[simp] theorem dropAged_pw (s : State) (p n : Nat) : (dropAged s p n).pw = s.pw :=
  foldl_keeps State.pw (fun u t => by simp only [apply_ite State.pw, setLink_pw, inc_pw, ite_self]) _ _

@[simp] theorem newSlots_pw (s : State) (p room : Nat) : (newSlots s p room).1.pw = s.pw := by
  simp only [newSlots, apply_ite Prod.fst, apply_ite State.pw, wr_pw, setLink_pw, dropAged_pw, ite_self]

@[simp] theorem testPacket_pw (s : State) (p : Nat) : (testPacket s p).1.pw = s.pw := by
  unfold testPacket
  extract_lets
  split
  exact (drawn_pw _).trans (setLink_pw ..)

@[simp] theorem fillTest_pw (s : State) (p : Nat) : (fillTest s p).pw = s.pw := by
  have hadd : ∀ u, (addTest u p).pw = u.pw := fun u => by
    simp only [addTest, apply_ite State.pw, setLink_pw, testPacket_pw, ite_self]
  simp only [fillTest, hadd]

@[simp] theorem dataFrame_pw (s : State) (p slots : Nat) : (dataFrame s p slots).1.pw = s.pw := by
  simp only [dataFrame]
  split
  · simp only [replaySlots_pw, fillTest_pw]
  · simp only [refreshLink_pw, drainCheck_pw, pmCount_pw]
    split <;> simp only [nackedOut_pw, returnWords_pw, setLink_pw, newSlots_pw, replaySlots_pw, fillTest_pw]

end Sys2Proof.Machine
end

section
/-!
SUPPORT. Frames of a link (R136 to R139, R149, R156 to R158): what decides among the cases of a frame received and of a frame sent.
-/

namespace Sys2Proof.Machine

/-! ### Frames received -/

theorem exec_frameReceived {s : State} {p : Nat} (now : Nat) (on : List Nat) (h : isUnit s p = true) :
    exec (.frameReceived now p on) s = .next (settled s (takeFrame (atTime s now) p on)) :=
  congrArg (done s) (if_pos h)

/-- A frame of some lanes that counts in LOST_FRAMES: a bad block, lane-control groups, a wrong FCRC, or a BODY that Table 05-1 does not
list (R112, R139). -/
def frameLost (lanes : List RxPair) (c : Flit) : Bool :=
  lanes.any (fun x => x.bad || x.ctrl) || frameCrc (gatherSlots (lanes.map (·.blocks))) != fcfWord c 15 % 2 ^ 32
    || decide (2 ≤ bits (fcfWord c 0) 40 2)

theorem frameLost_iff (lanes : List RxPair) (c : Flit) :
    frameLost lanes c = true ↔ lanes.any (fun x => x.bad || x.ctrl) = true
      ∨ frameCrc (gatherSlots (lanes.map (·.blocks))) ≠ fcfWord c 15 % 2 ^ 32 ∨ 2 ≤ bits (fcfWord c 0) 40 2 := by
  simp only [frameLost, Bool.or_eq_true, bne_iff_ne, decide_eq_true_eq, or_assoc]

theorem frameLost_eq_false {lanes : List RxPair} {c : Flit} (hlanes : lanes.any (fun x => x.bad || x.ctrl) = false)
    (hcrc : frameCrc (gatherSlots (lanes.map (·.blocks))) = fcfWord c 15 % 2 ^ 32) (hbody : bits (fcfWord c 0) 40 2 < 2) :
    ¬ frameLost lanes c = true := by
  rw [frameLost_iff, hlanes]
  rintro (hl | hc | hb)
  · exact Bool.false_ne_true hl
  · exact hc hcrc
  · omega

/-- A good frame noted: its time, and the lanes that the partner reports, which S follows (R139, R161). -/
def frameNoted (s : State) (p : Nat) (c : Flit) : State :=
  let t := clearPairs s p
  followLanes (setLink t p { linkOf t p with lastGood := t.timeNs, peerLanes := bits (fcfWord c 0) 42 4 }) p

section
variable {s : State} {p : Nat} {on : List Nat}

theorem takeFrame_noData (h : (gatherSlots ((frameLanes s p on).map (·.blocks))).getLast? = none) :
    takeFrame s p on = clearPairs s p := by
  simp only [takeFrame, h]

theorem takeFrame_down (h : linkState s p = lsDown) : takeFrame s p on = clearPairs s p := by
  unfold takeFrame
  extract_lets
  split
  · rfl
  · exact if_pos h

variable {c : Flit} (hst : linkState s p ≠ lsDown)
  (hc : (gatherSlots ((frameLanes s p on).map (·.blocks))).getLast? = some c)
include hst hc

theorem takeFrame_lost (hlost : frameLost (frameLanes s p on) c = true) :
    takeFrame s p on = inc (clearPairs s p) F.llCnt0LostFrames 1 p := by
  simp only [takeFrame, hc]
  exact (if_neg hst).trans (if_pos hlost)

variable (hgood : ¬ frameLost (frameLanes s p on) c = true)
include hgood

/-- A good RETURN frame outside INIT and DOWN (R148). -/
theorem takeFrame_return (hni : linkState s p ≠ lsInit) (hbody : bits (fcfWord c 0) 40 2 = 0) :
    takeFrame s p on =
      (let t2 := if linkState s p = lsHeld then frameNoted s p c
         else takeReturn (frameNoted s p c) p (fcfWord c 2) (fcfWord c 3) (fcfWord c 4)
       if linkState t2 p = lsDown ∨ linkState t2 p = lsHeld then t2
       else
         refreshLink (drainCheck
           (takeData t2 p (gatherSlots ((frameLanes s p on).map (·.blocks))) (fcfWord c 0) (fcfWord c 1)) p) p) := by
  simp only [takeFrame, hc]
  refine ((if_neg hst).trans (if_neg hgood)).trans ((if_neg hni).trans ?_)
  simp only [hbody, Nat.reduceBEq, Nat.reduceEqDiff, Bool.false_and, Bool.false_eq_true, or_false, if_false]
  rfl

/-- A good MGMT frame outside INIT and DOWN (Table 05-3). -/
theorem takeFrame_mgmt (hni : linkState s p ≠ lsInit) (hbody : bits (fcfWord c 0) 40 2 = 1) :
    takeFrame s p on =
      (let t2 := takeMgmt (frameNoted s p c) p (fcfWord c 2) (fcfWord c 3)
       if linkState t2 p = lsDown ∨ linkState t2 p = lsHeld ∨ bits (fcfWord c 2) 0 8 = 1 then t2
       else
         refreshLink (drainCheck
           (takeData t2 p (gatherSlots ((frameLanes s p on).map (·.blocks))) (fcfWord c 0) (fcfWord c 1)) p) p) := by
  simp only [takeFrame, hc]
  refine ((if_neg hst).trans (if_neg hgood)).trans ((if_neg hni).trans ?_)
  simp only [hbody, beq_self_eq_true, Bool.true_and, beq_iff_eq, if_true]
  rfl

/-- A good frame in INIT: an INIT record, a HELD or ABRUPT record, or a frame that lets the link come up (R156, R157). -/
theorem takeFrame_init (hi : linkState s p = lsInit) :
    takeFrame s p on =
      (let t1 := frameNoted s p c
       if bits (fcfWord c 0) 40 2 = 1 ∧ bits (fcfWord c 2) 0 8 = 1 then
         takeInit t1 p (fcfWord c 2) (fcfWord c 3) (fcfWord c 4) (fcfWord c 5)
       else if bits (fcfWord c 0) 40 2 = 1 ∧ bits (fcfWord c 2) 0 8 = 3 ∧ 3 ≤ bits (fcfWord c 2) 8 8 then
         takeMgmt t1 p (fcfWord c 2) (fcfWord c 3)
       else
         let t2 := initCheck t1 p true
         if linkState t2 p = lsInit then t2
         else
           let t3 := if bits (fcfWord c 0) 40 2 = 1 then takeMgmt t2 p (fcfWord c 2) (fcfWord c 3)
             else takeReturn t2 p (fcfWord c 2) (fcfWord c 3) (fcfWord c 4)
           if linkState t3 p = lsDown then t3
           else refreshLink (takeData t3 p (gatherSlots ((frameLanes s p on).map (·.blocks))) (fcfWord c 0) (fcfWord c 1)) p) := by
  simp only [takeFrame, hc]
  refine ((if_neg hst).trans (if_neg hgood)).trans ((if_pos hi).trans ?_)
  simp only [Bool.and_eq_true, beq_iff_eq]
  rfl

end

/-! ### Frames sent -/

theorem exec_frameTransmit {s : State} {p : Nat} (now : Nat) (lost : List Nat) (h : isUnit s p = true) :
    exec (.frameTransmit now p lost) s = .next (settled s (sendPeriod (loseSpill (atTime s now) p lost) p)) :=
  congrArg (done s) (if_pos h)

@[simp] theorem loseSpill_pw (s : State) (p : Nat) (lost : List Nat) : (loseSpill s p lost).pw = s.pw := by
  simp only [loseSpill, apply_ite State.pw, setLink_pw, ite_self]

theorem loseSpill_atTime_tripped (s : State) (now p : Nat) (lost : List Nat) :
    (loseSpill (atTime s now) p lost).pw.tripped = s.pw.tripped := by
  rw [loseSpill_pw, atTime_pw]

@[simp] theorem wakeLink_pw (s : State) (p : Nat) : (wakeLink s p).pw = s.pw := by
  simp only [wakeLink, apply_ite State.pw, enterInit_pw, ite_self]

@[simp] theorem nextFrame_pw (s : State) (p : Nat) : (nextFrame s p).1.pw = s.pw := by
  simp only [nextFrame, apply_ite Prod.fst, apply_ite State.pw, linkDown_pw, setLink_pw, initCheck_pw, dataFrame_pw, ite_self]

section
variable {s : State} {p : Nat}

theorem wakeLink_awake (h : linkState s p ≠ lsDown) : wakeLink s p = s := if_neg fun ⟨hd, _⟩ => h hd

theorem wakeLink_noLane (h : (unitLanes s p).any (laneReady s) = false) : wakeLink s p = s :=
  if_neg fun ⟨_, hl, _⟩ => Bool.false_ne_true (h.symm.trans hl)

theorem wakeLink_ready (hd : linkState s p = lsDown) (hl : (unitLanes s p).any (laneReady s) = true) (ht : s.pw.tripped = false) :
    wakeLink s p = enterInit s p := if_pos ⟨hd, hl, ht⟩

theorem nextFrame_none (h : txCount s p = 0 ∨ s.pw.tripped = true ∨ linkState s p = lsDown) : nextFrame s p = (s, []) :=
  if_pos (h.imp_left fun h0 => by rw [h0])

/-- After THERMTRIP nothing goes (R585). -/
theorem sendPeriod_tripped (h : s.pw.tripped = true) : sendPeriod s p = s := by
  have hw : wakeLink s p = s := if_neg fun ⟨_, _, ht⟩ => Bool.false_ne_true (ht.symm.trans h)
  simp only [sendPeriod, hw, nextFrame_none (.inr (.inl h)), List.isEmpty_nil, h, if_true]

variable (ht : s.pw.tripped = false)
include ht

section
variable {v : State} {r : State × List Flit} (hw : wakeLink s p = v) (hn : nextFrame v p = r)
include hw hn

/-- A period of a unit without THERMTRIP: the frame, if one goes, and what the lanes send of it. -/
theorem sendPeriod_running :
    sendPeriod s p = sendLanes (if r.2.isEmpty then r.1 else emit r.1 (.frame p r.2)) p (txLanes v p) r.2 := by
  subst hw hn
  have htrip : (if (nextFrame (wakeLink s p) p).2.isEmpty then (nextFrame (wakeLink s p) p).1
      else emit (nextFrame (wakeLink s p) p).1 (.frame p (nextFrame (wakeLink s p) p).2)).pw.tripped = false := by
    rw [apply_ite State.pw, emit_pw, ite_self, nextFrame_pw, wakeLink_pw, ht]
  rw [sendPeriod]
  exact if_neg (ne_true_of_eq_false htrip)

/-- A period in which a frame goes. -/
theorem sendPeriod_frame (hfr : r.2.isEmpty = false) : sendPeriod s p = sendLanes (emit r.1 (.frame p r.2)) p (txLanes v p) r.2 := by
  rw [sendPeriod_running ht hw hn, hfr, if_neg Bool.false_ne_true]

end

variable (hd : linkState s p ≠ lsDown) (hn : txCount s p ≠ 0)
include hd hn

/-- A link outside DOWN with a lane in S, on a device without THERMTRIP, forms a frame. -/
theorem not_noFrame : ¬ (10 * txCount s p = 0 ∨ s.pw.tripped = true ∨ linkState s p = lsDown) := by
  rintro (h0 | ht' | hd')
  · omega
  · exact Bool.false_ne_true (ht.symm.trans ht')
  · exact hd hd'

theorem nextFrame_abrupt (ha : (linkOf s p).abruptLeft ≠ 0) :
    nextFrame s p =
      (let v := setLink s p { linkOf s p with abruptLeft := (linkOf s p).abruptLeft - 1 }
       (if (linkOf s p).abruptLeft = 1 then linkDown v p 7 else v, mgmtFrame s p (3 + 4 * 2 ^ 8) [])) :=
  (if_neg (not_noFrame ht hd hn)).trans (if_pos (Nat.pos_of_ne_zero ha))

variable (ha : (linkOf s p).abruptLeft = 0)
include ha

theorem nextFrame_held (hh : linkState s p = lsHeld) : nextFrame s p = (s, mgmtFrame s p (3 + 3 * 2 ^ 8) []) :=
  (if_neg (not_noFrame ht hd hn)).trans ((if_neg (by omega)).trans (if_pos hh))

theorem nextFrame_init (hi : linkState s p = lsInit) :
    nextFrame s p =
      (initCheck (setLink s p { linkOf s p with
        sentSeen := (linkOf s p).sentSeen || (linkOf s p).peerSeen, probeSent := (linkOf s p).probeSent.or (some s.timeNs) }) p false,
       initFrame s p) := by
  have hh : linkState s p ≠ lsHeld := by rw [hi]; decide
  exact (if_neg (not_noFrame ht hd hn)).trans ((if_neg (by omega)).trans ((if_neg hh).trans (if_pos hi)))

theorem nextFrame_data (hh : linkState s p ≠ lsHeld) (hi : linkState s p ≠ lsInit) :
    nextFrame s p = dataFrame s p (10 * txCount s p) :=
  (if_neg (not_noFrame ht hd hn)).trans ((if_neg (by omega)).trans ((if_neg hh).trans (if_neg hi)))

end

/-- A frame is at least its control flit (R136). -/
theorem sealFrame_isEmpty (data : List Flit) (ws : List Nat) : (sealFrame data ws).isEmpty = false :=
  List.isEmpty_eq_false_iff.mpr (List.append_ne_nil_of_right_ne_nil _ (List.cons_ne_nil _ _))

theorem mgmtFrame_isEmpty (s : State) (p w2 : Nat) (rest : List Nat) : (mgmtFrame s p w2 rest).isEmpty = false := sealFrame_isEmpty ..

theorem initFrame_isEmpty (s : State) (p : Nat) : (initFrame s p).isEmpty = false := mgmtFrame_isEmpty ..

end Sys2Proof.Machine
end

section
/-!
SUPPORT. The timers of a link and LL_CTL (R150, R152, R155, R156, R158, R159, R164): what each timer does once its time has passed, and
the forms of a served write of LL_CTL.
-/

namespace Sys2Proof.Machine

/-! ### Timers -/

section
variable (now p : Nat) (s : State)

theorem exec_nackWaitExpired (base : Nat) :
    exec (.nackWaitExpired now p base) s = .next (settled s (nackAgain (atTime s now) p base)) := rfl

theorem exec_recoverNoFrameTimeout : exec (.recoverNoFrameTimeout now p) s = .next (settled s (noFrame (atTime s now) p)) := rfl

theorem exec_recoverLimitExpired : exec (.recoverLimitExpired now p) s = .next (settled s (recoverOver (atTime s now) p)) := rfl

theorem exec_noLaneTimeout : exec (.noLaneTimeout now p) s = .next (settled s (noLane (atTime s now) p)) := rfl

theorem exec_returnForceTimeout : exec (.returnForceTimeout now p) s = .next (settled s (forceReturn (atTime s now) p)) := rfl

theorem exec_probeTimer : exec (.probeTimer now p) s = .next (settled s (nextProbe (atTime s now) p)) := rfl

theorem exec_drainLimitExpired : exec (.drainLimitExpired now p) s = .next (settled s (drainOver (atTime s now) p)) := rfl

end

section
variable {s : State} {p : Nat}

/-- The states in which a link passes data and asks for what it misses. -/
abbrev PassesData (s : State) (p : Nat) : Prop := linkState s p = lsUp ∨ linkState s p = lsDrain ∨ linkState s p = lsTest

theorem nackAgain_due {base : Nat} {g : Gap} (hg : (linkOf s p).gaps.find? (fun g => g.base == base) = some g) (hst : PassesData s p)
    (hdue : g.due = false) (ht : g.lastAt + nackWait s p ≤ s.timeNs) :
    nackAgain s p base
      = setLink s p { linkOf s p with gaps := (linkOf s p).gaps.map fun x => if x = g then { x with due := true } else x } := by
  simp only [nackAgain, hg]
  refine (if_neg ?_).trans (if_neg ?_)
  · rintro ⟨hu, hd, ht⟩
    exact hst.elim hu (Or.elim · hd ht)
  · rintro (h | h)
    · exact Bool.false_ne_true (hdue.symm.trans h)
    · omega

/-- A gap that has been NACKed 8 times recovers (R155). -/
theorem nackedOut_eight {g : Gap} (hg : g ∈ (linkOf s p).gaps) (hn : 8 ≤ g.nacks) : nackedOut s p = enterRecover s p :=
  if_pos (List.any_eq_true.mpr ⟨g, hg, decide_eq_true hn⟩)

theorem noFrame_due (hst : PassesData s p) (hlock : ((unitLanes s p).any fun k => rdb s F.lnStatBlkLock k) = true)
    (ht : (linkOf s p).lastGood + 1000 ≤ s.timeNs) : noFrame s p = enterRecover s p := if_pos ⟨hst, hlock, ht⟩

theorem recoverOver_due (hst : linkState s p = lsRecover) (ht : (linkOf s p).recoverAt + 20000 ≤ s.timeNs) :
    recoverOver s p = linkDown s p 2 := if_pos ⟨hst, ht⟩

theorem noLane_due (h : 4000 ≤ noLaneFor s p) : noLane s p = linkDown s p 1 := if_pos h

theorem noLaneFor_noSwap {t : Nat} (hl : (linkOf s p).noLaneAt = some t) (hs : (linkOf s p).swapUntil = none) :
    noLaneFor s p = s.timeNs - t := by
  simp only [noLaneFor, hl, hs]

/-- The 20 µs of a swap are not counted (Table 05-5). -/
theorem noLaneFor_swap {t u : Nat} (hl : (linkOf s p).noLaneAt = some t) (hs : (linkOf s p).swapUntil = some u) :
    noLaneFor s p = (u - 20000 - t) + (s.timeNs - max u t) := by
  simp only [noLaneFor, hl, hs]

theorem forceReturn_due (hn : (linkOf s p).news = true) (ht : (linkOf s p).lastReturn + rd s F.llCtlForceNs p ≤ s.timeNs) :
    forceReturn s p = setLink s p { linkOf s p with retDue := true } := if_pos ⟨hn, ht⟩

theorem nextProbe_due (hst : linkState s p = lsInit) (ht : (linkOf s p).probeAt + 1000 ≤ s.timeNs) :
    nextProbe s p = setLink s p { linkOf s p with
      probe := ((linkOf s p).probe + 1) % 256, probeAt := s.timeNs, probeSent := none, probeDone := false } := if_pos ⟨hst, ht⟩

theorem drainOver_due (hst : linkState s p = lsDrain) (ht : (linkOf s p).drainAt + 1000000 ≤ s.timeNs) :
    drainOver s p = linkDown s p 8 := if_pos ⟨hst, ht⟩

end

/-! ### LL_CTL -/

/-- The offset of a unit's LL_CTL. -/
def llCtlKey (p : Nat) : Nat := F.llCtlCount.key p

theorem llCtlKey_eq (p : Nat) : llCtlKey p = 0x02000000 + 0x2000 * p := rfl

theorem exec_llDrainWrite {p : Nat} (now : Nat) (who : Who) (width : Nat) (val : Word) (s : State) (h : p < 128) :
    exec (.llDrainWrite now who width p val) s = .next (settled s (csrWriteBy (atTime s now) who (llCtlKey p) width val noEnv)) :=
  congrArg (done s) (if_pos h)

theorem regFind_llCtlKey : ∀ p < 128, regFind (llCtlKey p) = some R.llCtl := by decide +kernel

theorem takesWrites_llCtlKey {p : Nat} (h : p < 128) : takesWrites (llCtlKey p) = true := by
  have hr := regFind_llCtlKey p h
  refine takesWrites_of_not_rwt (by rw [hr]; rfl) ?_
  rw [isRwt, fieldsAt_of_regFind hr]
  decide

theorem blockWrite_llCtl (t : State) (who : Who) {p : Nat} (w : Word) (env : CsrEnv) (h : p < 128) :
    blockWrite t who (llCtlKey p) w env = llCtlWrite t p w := by
  have hkey := llCtlKey_eq p
  have hpage : pageOf (llCtlKey p) = none := pageOf_of_lt (by omega)
  have hunit : (llCtlKey p - 0x02000000) / 0x2000 = p := by omega
  simp only [blockWrite, hpage]
  rw [if_neg (by omega), if_neg (by omega), if_neg (by omega), if_neg (by omega), if_neg (by omega), if_neg (by omega),
    if_neg (by omega), if_pos (by omega), hunit]

/-- What LL_CTL stores of a word (R9). -/
def llCtlStored (t : State) (p : Nat) (w : Word) : State :=
  csrPut t (llCtlKey p) (wordWrite (locked t (llCtlKey p)) (fieldsAt (llCtlKey p)) (csrRaw t (llCtlKey p)) w)

/-- A word that sets SELFLINK or TGEN is refused outside TEST (R164). -/
theorem llCtlWrite_refused {t : State} (p : Nat) {w : Word} (h : wordGet w 2 2 ≠ 0) (hb : baseOf t ≠ 3) :
    llCtlWrite t p w = refuseWrite t := if_pos ⟨h, hb⟩

/-- Any other legal word is stored, and starts a drain when it sets DRAIN (R159). -/
theorem llCtlWrite_stored {t : State} {p : Nat} {w : Word} (hp : p < 128) (hl : wordLegal (fieldsAt (llCtlKey p)) w = true)
    (h : wordGet w 2 2 = 0 ∨ baseOf t = 3) :
    llCtlWrite t p w = if bitAt w.toNat 1 then enterDrain (llCtlStored t p w) p true else llCtlStored t p w := by
  have hstored := csrPlain_legal t (by rw [regFind_llCtlKey p hp]; rfl) hl
  rw [llCtlStored, ← hstored]
  exact if_neg fun ⟨hset, hb⟩ => h.elim hset hb

section
variable {s : State} {who : Who} {width p : Nat} {w : Word} (h : Served s who) (hw : 64 ≤ width) (hp : p < 128)
  (hl : wordLegal (fieldsAt (llCtlKey p)) w = true)
include h hw hp hl

/-- A served write of LL_CTL reaches llCtlWrite. -/
theorem csrWriteBy_llCtl {f : State → State} (hf : ∀ t, Entry t s → llCtlWrite t p w = f t) :
    csrWriteBy s who (llCtlKey p) width w noEnv = viaGate s who f := by
  have hkey := llCtlKey_eq p
  refine csrWriteBy_block s who (llCtlKey p) width w noEnv f h hw ?place (.inr hl) fun t ht => ?effect
  case place =>
    simp only [takesWrites_llCtlKey hp, Bool.true_and, Bool.and_eq_true, beq_iff_eq, decide_eq_true_eq]
    omega
  case effect => rw [blockWrite_llCtl t who w noEnv hp, hf t ht]

theorem csrWriteBy_llCtl_refused (hset : wordGet w 2 2 ≠ 0) (hb : baseOf s ≠ 3) :
    csrWriteBy s who (llCtlKey p) width w noEnv = viaGate s who refuseWrite :=
  csrWriteBy_llCtl h hw hp hl fun _ ht => llCtlWrite_refused p hset (ht.baseOf_eq ▸ hb)

variable (hok : wordGet w 2 2 = 0 ∨ baseOf s = 3)
include hok

theorem csrWriteBy_llCtl_drain (hd : bitAt w.toNat 1 = true) :
    csrWriteBy s who (llCtlKey p) width w noEnv = viaGate s who fun t => enterDrain (llCtlStored t p w) p true :=
  csrWriteBy_llCtl h hw hp hl fun _ ht => (llCtlWrite_stored hp hl (hok.imp_right ht.baseOf_eq.trans)).trans (if_pos hd)

theorem csrWriteBy_llCtl_noDrain (hd : bitAt w.toNat 1 = false) :
    csrWriteBy s who (llCtlKey p) width w noEnv = viaGate s who fun t => llCtlStored t p w :=
  csrWriteBy_llCtl h hw hp hl fun _ ht =>
    (llCtlWrite_stored hp hl (hok.imp_right ht.baseOf_eq.trans)).trans (if_neg (ne_true_of_eq_false hd))

end

end Sys2Proof.Machine
end

section
/-!
The obligations of the chapter on the link layer: frames, timers, and drains.
-/

namespace Sys2Proof.Machine

/-- Settles O16: a frame received by what it carries and the link's state, and a period of a unit by the frame that it forms. -/
theorem frameCommandsComplete : Obligations.FrameCommandsComplete := by
  unfold Obligations.FrameCommandsComplete
  refine ⟨fun s now p on hu h => ?none, fun s now p on c hu hst hc hlost => ?lost,
    fun s now p on c hu hst hni hc hlanes hcrc hbody => ?returned, fun s now p on c hu hst hni hc hlanes hcrc hbody => ?managed,
    fun s now p on c hu hi hc hlanes hcrc hbody => ?init, fun s now p lost hu ht => ?tripped, fun s now p lost hu ht h => ?noFrame,
    fun s now p lost hu ht hd hl hm hn hi ha => ?wakes, fun s now p lost hu ht hd hn ha => ?abrupt,
    fun s now p lost hu ht hh hn ha => ?held, fun s now p lost hu ht hi hn ha => ?initSent,
    fun s now p lost hu ht hd hh hi hn ha => ?data⟩
  case none =>
    rw [exec_frameReceived now on hu]
    rcases h with hd | hnone
    · rw [takeFrame_down (s := atTime s now) hd]
    · rw [takeFrame_noData hnone]
  case lost => rw [exec_frameReceived now on hu, takeFrame_lost (s := atTime s now) hst hc ((frameLost_iff ..).mpr hlost)]
  case returned =>
    rw [exec_frameReceived now on hu,
      takeFrame_return (s := atTime s now) hst hc (frameLost_eq_false hlanes hcrc (by omega)) hni hbody]
    rfl
  case managed =>
    rw [exec_frameReceived now on hu,
      takeFrame_mgmt (s := atTime s now) hst hc (frameLost_eq_false hlanes hcrc (by omega)) hni hbody]
    rfl
  case init =>
    have hst : linkState s p ≠ lsDown := by rw [hi]; decide
    rw [exec_frameReceived now on hu, takeFrame_init (s := atTime s now) hst hc (frameLost_eq_false hlanes hcrc hbody) hi]
    rfl
  all_goals
    rw [exec_frameTransmit now lost hu]
    rw [← loseSpill_atTime_tripped s now p lost] at ht
  case tripped => rw [sendPeriod_tripped ht]
  case noFrame =>
    have hw := h.elim (fun ⟨_, hl⟩ => wakeLink_noLane hl) fun ⟨hd, _⟩ => wakeLink_awake hd
    have hframe := nextFrame_none (h.elim (fun ⟨hd, _⟩ => .inr (.inr hd)) fun ⟨_, h0⟩ => .inl h0)
    rw [sendPeriod_running ht hw hframe]
    rfl
  case wakes =>
    have hd' : linkState (enterInit (loseSpill (atTime s now) p lost) p) p ≠ lsDown := by rw [hi]; decide
    have hframe := nextFrame_init (by rw [enterInit_pw, ht]) hd' hn ha hi
    rw [sendPeriod_frame ht (wakeLink_ready hd hl ht) hframe (initFrame_isEmpty ..)]
  case abrupt => rw [sendPeriod_frame ht (wakeLink_awake hd) (nextFrame_abrupt ht hd hn ha) (mgmtFrame_isEmpty ..)]
  case held =>
    have hd : linkState (loseSpill (atTime s now) p lost) p ≠ lsDown := by rw [hh]; decide
    rw [sendPeriod_frame ht (wakeLink_awake hd) (nextFrame_held ht hd hn ha hh) (mgmtFrame_isEmpty ..)]
  case initSent =>
    have hd : linkState (loseSpill (atTime s now) p lost) p ≠ lsDown := by rw [hi]; decide
    rw [sendPeriod_frame ht (wakeLink_awake hd) (nextFrame_init ht hd hn ha hi) (initFrame_isEmpty ..)]
  case data => rw [sendPeriod_running ht (wakeLink_awake hd) (nextFrame_data ht hd hn ha hh hi)]

/-- Settles O17: each timer at the time that the command reports, and LL_CTL past the gate by the bits that its word sets. -/
theorem linkTimersAndDrainComplete : Obligations.LinkTimersAndDrainComplete := by
  unfold Obligations.LinkTimersAndDrainComplete
  refine ⟨fun s now p base g hg hst hdue ht => ?nack, fun s p g hg hn => nackedOut_eight hg hn, fun s now p hst hlock ht => ?noFrame,
    fun s now p hst ht => ?recover, fun s now p t hl hs ht => ?noLane, fun s now p t u hl hs ht => ?noLaneSwap,
    fun s now p hn ht => ?ret, fun s now p hst ht => ?probe, fun s now who width p val h hw hp hl hok hd => ?drain,
    fun s now who width p val h hw hp hl hok hd => ?stored, fun s now who width p val h hw hp hl hset hb => ?refused,
    fun s now p hst ht => ?drainLimit⟩
  case nack => rw [exec_nackWaitExpired, nackAgain_due (s := atTime s now) hg hst hdue (le_atTime_timeNs s ht)]; rfl
  case noFrame => rw [exec_recoverNoFrameTimeout, noFrame_due (s := atTime s now) hst hlock (le_atTime_timeNs s ht)]
  case recover => rw [exec_recoverLimitExpired, recoverOver_due (s := atTime s now) hst (le_atTime_timeNs s ht)]
  case noLane =>
    have hnow := Nat.le_max_right s.timeNs now
    rw [exec_noLaneTimeout, noLane_due]
    rw [noLaneFor_noSwap (s := atTime s now) hl hs, atTime_timeNs]
    omega
  case noLaneSwap =>
    have hnow := Nat.le_max_right s.timeNs now
    rw [exec_noLaneTimeout, noLane_due]
    rw [noLaneFor_swap (s := atTime s now) hl hs, atTime_timeNs]
    omega
  case ret => rw [exec_returnForceTimeout, forceReturn_due (s := atTime s now) hn (le_atTime_timeNs s ht)]; rfl
  case probe => rw [exec_probeTimer, nextProbe_due (s := atTime s now) hst (le_atTime_timeNs s ht)]; rfl
  case drain => rw [exec_llDrainWrite now who width val s hp, csrWriteBy_llCtl_drain (served_atTime now h) hw hp hl hok hd]; rfl
  case stored => rw [exec_llDrainWrite now who width val s hp, csrWriteBy_llCtl_noDrain (served_atTime now h) hw hp hl hok hd]; rfl
  case refused => rw [exec_llDrainWrite now who width val s hp, csrWriteBy_llCtl_refused (served_atTime now h) hw hp hl hset hb]
  case drainLimit => rw [exec_drainLimitExpired, drainOver_due (s := atTime s now) hst (le_atTime_timeNs s ht)]

end Sys2Proof.Machine
end

section
/-!
SUPPORT. The switch core (R172, R187, R189 to R191, Table 06-2): what the lookup of a head that passes does with it, a stalled output, and
the banks of a tile by what B24 is doing.
-/

namespace Sys2Proof.Machine

/-! ### The lookup of a head that passes -/

/-- The checks of R96 read no clock. -/
theorem lookupDrop_atTime (s : State) (now inp : Nat) (h : Pkt) : lookupDrop (atTime s now) inp h = lookupDrop s inp h := rfl

section
variable {s : State} {inp vc id : Nat} {p : SwPkt} (hw : waitsLookup s inp vc = some (id, p)) (hd : lookupDrop s inp p.hdr = none)
include hw hd

theorem lookupHead_multicast (hm : p.hdr.op = opMcPut) : lookupHead s inp vc = routeMulticast s id p := by
  simp only [lookupHead, hw, hd, if_pos hm]

theorem lookupHead_unitBound (hm : p.hdr.op ≠ opMcPut) (hu : opUnitBound p.hdr.op = true) :
    lookupHead s inp vc = enqueue s id p [(128, p.hdr.vc)] := by
  simp only [lookupHead, hw, hd, if_neg hm, if_pos hu]

theorem lookupHead_routed (hm : p.hdr.op ≠ opMcPut) (hu : opUnitBound p.hdr.op = false) : lookupHead s inp vc = routePkt s id p := by
  simp only [lookupHead, hw, hd, if_neg hm, hu, Bool.false_eq_true, if_false]

end

/-! ### The cell epoch and a stalled output -/

theorem exec_cellEpochMatch (s : State) (now : Nat) (corr : List (Nat × Nat)) (uncorr : List BadRead) :
    exec (.cellEpochMatch now corr uncorr) s = .next (settled s (cellEpoch (atTime s now) corr uncorr)) := rfl

theorem exec_cellStallLimit (s : State) (now o : Nat) :
    exec (.cellStallLimit now o) s = .next (settled s (cellStalled (atTime s now) o)) := rfl

theorem cellStalled_due {s : State} {o id : Nat} {p : SwPkt} {c : Copy} (hc : crossing s o = some (id, p, c))
    (hwait : p.cells.length ≤ c.sent) (hdue : c.cellAt + 30000 ≤ s.timeNs) : cellStalled s o = stompNow s id o := by
  simp only [cellStalled, hc, hwait, hdue, and_self, if_true]

/-! ### A bank that fails -/

theorem exec_bankFail (s : State) (now tile bank : Nat) (lost : List (Nat × Nat)) :
    exec (.bankFail now tile bank lost) s = .next (settled s (bankFails (atTime s now) tile bank lost)) := rfl

/-- A bank marked out of service and reported, with the cells of the tile's packets that it held lost and freed (Table 06-2). -/
def bankLeft (s : State) (t b : Nat) (lost : List (Nat × Nat)) : State :=
  let u := tell (tell (markBank s t b) (.patina 3 (t * 32 + b))) (.fault 4 (t * 32 + b))
  (lost.filter fun e => match mget u.sw.pkts e.1 with | some p => tileOf p.inp == t | none => false).foldl
    (fun u e => cellFreed (cellLost u e.1 e.2) e.1 e.2) u

section
variable {s : State} {t b : Nat} (ht : t < 16) (hb : b < 24) (hfail : bitAt (rd s F.swBankFailed t) b = false)
include ht hb hfail

/-- A bank of B0 to B23 that serves fails: B24 is tested when it is free or is being filled from this bank, else the pool shrinks. -/
theorem bankFails_serving (lost : List (Nat × Nat)) :
    bankFails s t b lost =
      if (spareBankFree s t || ((tileSt s t).repair == some b && rdb s F.swBankSwapping t)) = true then
        setTile (wrb (bankLeft s t b lost) F.swBankSwapping false t) t { tileSt s t with repair := some b, pausedMatch := true }
      else refreshFcSpares (poolCheck (bankLeft s t b lost) t) := by
  have hserves : ¬(16 ≤ t ∨ 25 ≤ b ∨ bitAt (rd s F.swBankFailed t) b = true) := by
    rw [hfail, Bool.false_eq_true, or_false]
    omega
  have hb24 : b ≠ 24 := Nat.ne_of_lt hb
  unfold bankFails
  simp only [if_neg hserves, if_neg hb24, bne_iff_ne.mpr hb24, Bool.true_and]
  rfl

theorem bankFails_spareFree (lost : List (Nat × Nat)) (hfree : spareBankFree s t = true) :
    bankFails s t b lost = setTile (wrb (bankLeft s t b lost) F.swBankSwapping false t) t
      { tileSt s t with repair := some b, pausedMatch := true } := by
  rw [bankFails_serving ht hb hfail, hfree, Bool.true_or, if_pos rfl]

theorem bankFails_noSpare (lost : List (Nat × Nat)) (hfree : spareBankFree s t = false) (hrep : (tileSt s t).repair ≠ some b) :
    bankFails s t b lost = refreshFcSpares (poolCheck (bankLeft s t b lost) t) := by
  rw [bankFails_serving ht hb hfail, hfree, beq_eq_false_iff_ne.mpr hrep, Bool.false_and, Bool.or_self, if_neg Bool.false_ne_true]

end

/-! ### B24 in service for a bank -/

theorem exec_bankSwapCopyDone (s : State) (tile : Nat) : exec (.bankSwapCopyDone tile) s = .next (settled s (bankSwapped s tile)) := rfl

theorem exec_bankRepairDone (s : State) (tile : Nat) : exec (.bankRepairDone tile) s = .next (settled s (bankRepaired s tile)) := rfl

theorem bankSwapped_swapping {s : State} {t b : Nat} (hr : (tileSt s t).repair = some b) (hs : rdb s F.swBankSwapping t = true) :
    bankSwapped s t = spareBankServes (markBank (setTile (wrb s F.swBankSwapping false t) t { tileSt s t with repair := none }) t b) t b := by
  simp only [bankSwapped, hr, hs, if_true]

theorem bankRepaired_paused {s : State} {t b : Nat} (hr : (tileSt s t).repair = some b) (hp : (tileSt s t).pausedMatch = true) :
    bankRepaired s t = spareBankServes (setTile s t { tileSt s t with repair := none, pausedMatch := false }) t b := by
  simp only [bankRepaired, hr, hp, if_true]

end Sys2Proof.Machine
end

section
/-!
The obligation of the chapter on the switch core.
-/

namespace Sys2Proof.Machine

/-- Settles O15: a head by the first check that it fails, else by its operation; the epoch as its parts; a stall at the time that the
command reports; a bank by whether B24 is free, being filled, or under test. -/
theorem switchCommandsComplete : Obligations.SwitchCommandsComplete := by
  unfold Obligations.SwitchCommandsComplete
  refine ⟨fun s now inp vc id p hw hd hm hu => ?routed, fun s now inp vc id p hw hd hm => ?multicast,
    fun s now inp vc id p hw hd hm hu => ?unitBound, fun s now inp vc id p f hw hd => ?dropped, fun s now corr uncorr => ?epoch,
    fun s tile b hr hs => ?swapped, fun s now o id p c hc hwait hdue => ?stalled,
    fun s now tile bank lost ht hb hfail hfree => ?spareFree, fun s now tile bank lost ht hb hfail hfree hrep => ?noSpare,
    fun s tile b hr hp => ?repaired⟩
  case routed => rw [exec_packetHeadLookup, lookupHead_routed hw (by rw [lookupDrop_atTime, hd]) hm hu]
  case multicast => rw [exec_packetHeadLookup, lookupHead_multicast hw (by rw [lookupDrop_atTime, hd]) hm]
  case unitBound => rw [exec_packetHeadLookup, lookupHead_unitBound hw (by rw [lookupDrop_atTime, hd]) hm hu]
  case dropped => rw [exec_packetHeadLookup, lookupHead_drop hw (by rw [lookupDrop_atTime, hd])]
  case epoch => rw [exec_cellEpochMatch]; rfl
  case swapped => rw [exec_bankSwapCopyDone, bankSwapped_swapping hr hs]
  case stalled => rw [exec_cellStallLimit, cellStalled_due (s := atTime s now) hc hwait (le_atTime_timeNs s hdue)]
  case spareFree => rw [exec_bankFail, bankFails_spareFree (s := atTime s now) ht hb hfail lost hfree]; rfl
  case noSpare => rw [exec_bankFail, bankFails_noSpare (s := atTime s now) ht hb hfail lost hfree hrep]; rfl
  case repaired => rw [exec_bankRepairDone, bankRepaired_paused hr hp]; rfl

end Sys2Proof.Machine
end

section
/-!
SUPPORT. Routing (R201, R216, R219 to R221): a control packet that passes the checks of an arrival reaches the operation of its opcode,
what decides among the cases of a JOIN, a JOIN_ACK and an announcement, and the timers of settling, joining and the announcement.
-/

namespace Sys2Proof.Machine

/-! ### A packet that is handed over outside HOLD -/

theorem handPacket_outside_hold {s : State} (inp : Nat) (p : Pkt) (h : holdOn s = false) : handPacket s inp p = takePacket s inp p := by
  rw [handPacket, h, if_neg Bool.false_ne_true]

theorem handPacket_control {s : State} (inp : Nat) {p : Pkt} (h : holdOn s = false) (hop : opUnitBound p.op = true) :
    handPacket s inp p = controlArrival s inp p := by
  rw [handPacket_outside_hold inp p h, takePacket, if_pos hop]

/-! ### The four control packets, taken in -/

section
variable {s t : State} {now u : Nat} {p : Pkt} (ht : t = takeIn (atTime s now) p) (hh : holdOn s = false) (hd : arrivalDrop t p = none)
include ht hh hd

/-- A control packet that passes the checks of an arrival goes to the operation that its opcode names (R608). -/
theorem handPacket_controlTaken (hop : opUnitBound p.op = true) :
    handPacket (atTime s now) u p =
      if p.op = opJoin then joinArrival t u p
      else if p.op = opJoinAck then joinAckArrival t u p
      else if baseOf t ≠ 1 ∧ baseOf t ≠ 2 then t
      else if p.op = opRouteNotice then routeNotice t p
      else epochNotice t u p := by
  rw [handPacket_control (s := atTime s now) u hh hop, controlArrival, ← ht]
  simp only [hd]

theorem exec_joinReceived (hop : p.op = opJoin) : exec (.joinReceived now u p) s = .next (settled s (joinArrival t u p)) := by
  refine congrArg (done s) ((if_pos hop).trans ?_)
  rw [handPacket_controlTaken ht hh hd (by rw [hop]; rfl), if_pos hop]

theorem exec_joinAckReceived (hop : p.op = opJoinAck) :
    exec (.joinAckReceived now u p) s = .next (settled s (joinAckArrival t u p)) := by
  refine congrArg (done s) ((if_pos hop).trans ?_)
  rw [handPacket_controlTaken ht hh hd (by rw [hop]; rfl), if_neg (by rw [hop]; decide), if_pos hop]

variable (hb : baseOf t = 1 ∨ baseOf t = 2)
include hb

theorem exec_routeNoticeReceived (hop : p.op = opRouteNotice) :
    exec (.routeNoticeReceived now u p) s = .next (settled s (routeNotice t p)) := by
  refine congrArg (done s) ((if_pos hop).trans ?_)
  rw [handPacket_controlTaken ht hh hd (by rw [hop]; rfl), if_neg (by rw [hop]; decide), if_neg (by rw [hop]; decide), if_neg (by omega),
    if_pos hop]

theorem exec_epochNoticeReceived (hop : p.op = opEpochNotice) :
    exec (.epochNoticeReceived now u p) s = .next (settled s (epochNotice t u p)) := by
  refine congrArg (done s) ((if_pos hop).trans ?_)
  rw [handPacket_controlTaken ht hh hd (by rw [hop]; rfl), if_neg (by rw [hop]; decide), if_neg (by rw [hop]; decide), if_neg (by omega),
    if_neg (by rw [hop]; decide)]

end

/-! ### ROUTE_NOTICE -/

theorem routeNotice_otherGroup {s : State} {p : Pkt} (h : p.src / 64 ≠ selfGroup s) : routeNotice s p = s := if_pos h

theorem routeNotice_ownGroup {s : State} {p : Pkt} (h : p.src / 64 = selfGroup s) :
    routeNotice s p =
      let v := (noticeRecs p).foldl (fun x r => takeRec x (p.src % 64) r) s
      if v.rt.otherLocal = s.rt.otherLocal ∧ v.rt.otherGlobal = s.rt.otherGlobal then s else settle (rebuildTables v) :=
  if_neg (not_not_intro h)

/-! ### JOIN and JOIN_ACK -/

section
variable {s : State} {u : Nat} (hb : baseOf s = 1 ∨ baseOf s = 2) (hr : roleOf s u ≠ 1 ∨ peerUse s = true) (hup : linkUp s u = true)
include hb hr hup

/-- A unit that is UP and takes part in joining answers (R219). -/
theorem not_joinSilent :
    ¬((baseOf s ≠ 1 ∧ baseOf s ≠ 2) ∨ (roleOf s u = 1 ∧ peerUse s = false) ∨ linkUp s u = false) := by
  rintro (hbase | ⟨hrole, hpeer⟩ | hdown)
  · omega
  · exact hr.elim (· hrole) fun hp => Bool.false_ne_true (hpeer.symm.trans hp)
  · exact Bool.false_ne_true (hdown.symm.trans hup)

theorem joinArrival_up (p : Pkt) :
    joinArrival s u p =
      if bits (payloadWord p 0) 18 7 = members s ∧ bits (payloadWord p 0) 25 13 = groupsNo s
          ∧ bitAt (payloadWord p 0) 38 = s.txn.arm.trunked then
        unitJoined (sendUnit s u opJoinAck p.src (joinPayload s 0)) u
      else sendUnit s u opJoinAck p.src (joinPayload s 1) := by
  rw [joinArrival, if_neg (not_joinSilent hb hr hup)]
  simp only [Bool.and_eq_true, beq_iff_eq, and_assoc]

theorem joinAckArrival_refused {p : Pkt} (hst : bits (payloadWord p 1) 32 8 ≠ 0) :
    joinAckArrival s u p =
      let v := setJoined { s with rt := { s.rt with
        geomRefused := u :: s.rt.geomRefused.erase u, answered := s.rt.answered.erase u } } u false
      joinCheck (wrb v F.rtStatGeomRefused true) (windowPast v) :=
  (if_neg (not_joinSilent hb hr hup)).trans (if_neg hst)

theorem joinAckArrival_accepted {p : Pkt} (hst : bits (payloadWord p 1) 32 8 = 0) :
    joinAckArrival s u p =
      let v := unitJoined { s with rt := { s.rt with answered := u :: s.rt.answered.erase u, gotAccept := true } } u
      joinCheck (if rd v F.rtStatJoin = 3 then wr v F.rtStatJoin 1 else v) (windowPast v) :=
  (if_neg (not_joinSilent hb hr hup)).trans (if_pos hst)

end

/-! ### EPOCH_NOTICE -/

theorem any_freshKeys_iff (s : State) (key : Nat) :
    ((freshKeys s).any fun e => e.1 == key) = true ↔ ∃ e ∈ s.rt.epochKeys, e.1 = key ∧ s.timeNs < e.2 + 1000000000 := by
  simp only [freshKeys, List.any_filter, List.any_eq_true, Bool.and_eq_true, decide_eq_true_eq, beq_iff_eq, and_comm]

theorem epochNotice_remembered {s : State} {p : Pkt} (u : Nat)
    (h : ∃ e ∈ s.rt.epochKeys, e.1 = epochKey (bits (payloadWord p 0) 0 18) (bits (payloadWord p 0) 32 32) (bits (payloadWord p 1) 2 2)
      ∧ s.timeNs < e.2 + 1000000000) :
    epochNotice s u p = s := if_pos ((any_freshKeys_iff s _).mpr h)

/-- An announcement that came in on unit u remembered and forwarded: over the live global units but u and, when u is a global unit,
within the group (R220, R221). -/
def epochForwarded (s : State) (u dev epoch rep : Nat) : State :=
  let v := rememberKey s (epochKey dev epoch rep)
  let w := ((liveGlobals v).filter (· != u)).foldl
    (fun x q => sendUnit x q opEpochNotice (partnerId x q) (epochPayload dev epoch 1 rep)) v
  if roleOf w u = 2 then
    (noticePorts w).foldl (fun x q => sendUnit x q opEpochNotice (partnerId x q) (epochPayload dev epoch 2 rep)) w
  else w

theorem epochNotice_new {s : State} {p : Pkt} {dev epoch rep : Nat} (u : Nat) (hdev : dev = bits (payloadWord p 0) 0 18)
    (hepoch : epoch = bits (payloadWord p 0) 32 32) (hrep : rep = bits (payloadWord p 1) 2 2)
    (h : ∀ e ∈ s.rt.epochKeys, e.1 = epochKey dev epoch rep → e.2 + 1000000000 ≤ s.timeNs) :
    epochNotice s u p =
      let w := epochForwarded s u dev epoch rep
      if epochKnown s dev epoch = true ∨ dev = selfId w then w else rebooted w dev := by
  have hnew : ¬((freshKeys s).any fun e => e.1 == epochKey dev epoch rep) = true := by
    rw [any_freshKeys_iff]
    rintro ⟨e, he, hkey, hfresh⟩
    exact absurd (h e he hkey) (by omega)
  have hacts (w : State) : (if (epochKnown s dev epoch || dev == selfId w) = true then w else rebooted w dev)
      = if epochKnown s dev epoch = true ∨ dev = selfId w then w else rebooted w dev := by
    simp only [Bool.or_eq_true, beq_iff_eq]
  subst hdev hepoch hrep
  exact (if_neg hnew).trans (hacts _)

/-! ### The timers of settling, joining and the announcement -/

section
variable (s : State) (now : Nat)

theorem exec_settleTimerExpired : exec (.settleTimerExpired now) s = .next (settled s (settleOver (atTime s now))) := rfl

theorem exec_joinRepeatTimer : exec (.joinRepeatTimer now) s = .next (settled s (joinAgain (atTime s now))) := rfl

theorem exec_joinWindowExpired :
    exec (.joinWindowExpired now) s = .next (settled s (joinCheck (atTime s now) (windowPast (atTime s now)))) := rfl

theorem exec_epochRepeatTimer : exec (.epochRepeatTimer now) s = .next (settled s (epochAgain (atTime s now))) := rfl

end

section
variable {s : State}

theorem settleOver_due (hs : rdb s F.rtStatSettling = true) (ht : s.rt.settleAt + rd s F.rtSettleMs * 1000000 ≤ s.timeNs) :
    settleOver s = wrb s F.rtStatSettling false := if_pos ⟨hs, ht⟩

theorem joinAgain_begins (hb : baseOf s = 1) (hj : rd s F.rtStatJoin = 0) (hboot : booted s = true) : joinAgain s = beginJoin s :=
  (if_pos ⟨hb, hj⟩).trans (if_pos hboot)

theorem joinAgain_repeats (h : baseOf s = 2 ∨ (baseOf s = 1 ∧ rd s F.rtStatJoin ≠ 0)) :
    joinAgain s = ((joinUnits s).filter (joinDue s)).foldl sendJoin s := by
  have hbegun : ¬(baseOf s = 1 ∧ rd s F.rtStatJoin = 0) := by omega
  have hbase : baseOf s = 1 ∨ baseOf s = 2 := by omega
  exact (if_neg hbegun).trans (if_pos hbase)

theorem windowPast_due {j : Nat} (hj : s.rt.joinAt = some j) (ht : j + 10000000 ≤ s.timeNs) : windowPast s = true := by
  simp only [windowPast, hj, decide_eq_true ht]

/-- Once the window is over, one ACCEPT and a unit that is UP complete the join, whatever the units have answered. -/
theorem joinCheck_windowOver (hb : baseOf s = 1) (hj : rd s F.rtStatJoin = 1) (hacc : s.rt.gotAccept = true) (hup : joinUnits s ≠ []) :
    joinCheck s true = joinComplete s := by
  simp [joinCheck, hb, hj, hacc, hup]

theorem epochAgain_second {j : Nat} (hj : s.rt.joinedAt = some j) (hn : s.rt.announced = 1) (ht : j + 10000000 ≤ s.timeNs) :
    epochAgain s = announce { s with rt := { s.rt with announced := 2 } } 1 := by
  simp only [epochAgain, hj]
  exact if_pos ⟨hn, ht⟩

theorem epochAgain_third {j : Nat} (hj : s.rt.joinedAt = some j) (hn : s.rt.announced = 2) (ht : j + 100000000 ≤ s.timeNs) :
    epochAgain s = announce { s with rt := { s.rt with announced := 3 } } 2 := by
  simp only [epochAgain, hj]
  exact (if_neg (by omega)).trans (if_pos ⟨hn, ht⟩)

end

end Sys2Proof.Machine
end

section
/-!
SUPPORT. Injection and context fetches (R218, R234, R272, R481): what decides among the cases of a message's next request packet, and of a
fetched context.
-/

namespace Sys2Proof.Machine

/-! ### PACKET_INJECT -/

theorem exec_packetInject (s : State) (now id : Nat) (read : List Byte) :
    exec (.packetInject now id read) s = .next (settled s (injectNext (atTime s now) id read)) := rfl

theorem msgGate_passed (s : State) {m : Slot} (hg : m.gate = true) : msgGate s m = (s, m) := if_pos hg

theorem msgPolice_passed (s : State) {m : Slot} (hp : m.polPassed = true) : msgPolice s m = (s, m) := by
  rw [msgPolice]
  split
  · rw [← hp]
  · rw [if_pos hp]

section
variable {s : State} {id : Nat} {read : List Byte} {m : Slot}

section
variable (hm : slotOf s id = some m) (hs : maySend s m = true) (hr : readFits m read = true)
include hm hs hr

theorem injectNext_uncached (hctx : (ctxOf s m.ec).isSome = true) (hc : cached s m.ec = false) :
    injectNext s id read = if rangeServes s m.ec then fetchCtx s m.ec else s := by
  simp only [injectNext, hm, hs, hr, hctx, hc, Bool.not_true, Bool.not_false, Bool.or_self, Bool.and_self, Bool.false_eq_true, if_false,
    if_true]

/-- A message that has passed the kiln gate and its policer meets the windows (R481). -/
theorem injectNext_gatesPassed (hc : cached s m.ec = true) (hg : m.gate = true) (hp : m.polPassed = true) :
    injectNext s id read = windowsPass s m read := by
  simp only [injectNext, hm, hs, hr, hc, msgGate_passed s hg, msgPolice_passed s hp, hg, hp, Bool.not_true, Bool.or_self, Bool.and_false,
    Bool.false_eq_true, if_false, if_true]

end

theorem windowsPass_noFlowRoom (h : flowCount s m = 0) : windowsPass s m read = setSlot s m := if_pos h

section
variable (hn : flowCount s m ≠ 0)
include hn

theorem windowsPass_noE2eRoom (hw : windowed m = true)
    (hroom : e2eRoom s m.dst (flitsOf (packetPayload m m.next (flowCount s m) (nextData m read)).length) = false) :
    windowsPass s m read = setSlot (if m.stalledE2e then s else inc s F.rtCnt1E2eStall) { m with stalledE2e := true } := by
  simp only [windowsPass, if_neg hn, hw, hroom, Bool.not_false, Bool.and_self, if_true]

theorem windowsPass_room (hroom : windowed m = false
      ∨ e2eRoom s m.dst (flitsOf (packetPayload m m.next (flowCount s m) (nextData m read)).length) = true) :
    windowsPass s m read = buildRequest s m (flowCount s m) read := by
  refine (if_neg hn).trans (if_neg ?_)
  rcases hroom with h | h <;> simp [h]

end

theorem buildRequest_noSpan {count : Nat} (h : localSpan m count = none) :
    buildRequest s m count read = queueRequest s m count (nextData m read) := by
  simp only [buildRequest, h]

theorem buildRequest_translated {count dva n cls : Nat} {u : State} {l : List (Nat × Nat)} (h : localSpan m count = some (dva, n, cls))
    (hx : translateAdm s (msgAdm s m dva n cls) = (u, .ok l)) :
    buildRequest s m count read =
      queueRequest (if cls = 0 then readPieces u (msgAdm s m dva n cls).hp l else u) m count (nextData m read) := by
  simp only [buildRequest, h, hx]

end

/-! ### CONTEXT_FETCH_DONE -/

/-- The loss of the stack whose first copy of a context could not be corrected, noted when the context is held for (R513). -/
def fetchLossNoted (s : State) (ec : Nat) : Option Nat → State
  | some h => if mhas s.tp.cache ec then hbmLost s h else s
  | none => s

theorem exec_contextFetchDone (s : State) (now ec : Nat) (ue : Option Nat) :
    exec (.contextFetchDone now ec ue) s = .next (settled s (contextFetched (fetchLossNoted (atTime s now) ec ue) ec)) := by
  cases ue <;> rfl

section
variable {s : State} {ec : Nat} {e : CacheEnt} (he : mget s.tp.cache ec = some e) (hf : e.fetching = true)
include he hf

theorem contextFetched_serving (hs : rangeServes s ec = true) :
    contextFetched s ec =
      (mgetD s.tp.parked ec []).foldl (fun x y => deliverPkt x y.2 y.1)
        (setTp s fun v => { v with cache := mset v.cache ec { e with fetching := false }, parked := mdel v.parked ec }) := by
  simp only [contextFetched, he, hf, hs, Bool.not_true, Bool.false_eq_true, if_false]

theorem contextFetched_unreachable (hs : rangeServes s ec = false) : contextFetched s ec = dropParked s := by
  simp only [contextFetched, he, hf, hs, Bool.not_true, Bool.not_false, Bool.false_eq_true, if_false, if_true]

end

end Sys2Proof.Machine
end

section
/-!
The obligations of the chapter on routing and flow control.
-/

namespace Sys2Proof.Machine

/-- Settles O21: each control packet by the operation of its opcode and what decides among that operation's cases, each timer at the time
that the command reports. -/
theorem routingCommandsComplete : Obligations.RoutingCommandsComplete := by
  unfold Obligations.RoutingCommandsComplete
  refine ⟨fun s now u p t ht hh hd hb hop hg => ?ownGroup, fun s now u p t ht hh hd hb hop hg => ?otherGroup,
    fun s now hs hdue => ?settles, fun s now u p t ht hh hd hb hop hr hup => ?join, fun s now u p t ht hh hd hb hop hr hup hst => ?refused,
    fun s now u p t ht hh hd hb hop hr hup hst => ?accepted, fun s now h => ?repeats, fun s now hb hj hboot => ?begins,
    fun s now j hb hj hat hdue hacc hup => ?window, fun s now j hj hn hdue => ?second, fun s now j hj hn hdue => ?third,
    fun s now u p t key ht hh hd hb hop hkey h => ?remembered,
    fun s now u p t dev epoch rep ht hh hd hb hop hdev hepoch hrep h => ?new⟩
  case ownGroup => rw [exec_routeNoticeReceived ht hh hd hb hop, routeNotice_ownGroup hg]
  case otherGroup => rw [exec_routeNoticeReceived ht hh hd hb hop, routeNotice_otherGroup hg]
  case settles => rw [exec_settleTimerExpired, settleOver_due (s := atTime s now) hs (le_atTime_timeNs s hdue)]
  case join => rw [exec_joinReceived ht hh hd hop, joinArrival_up hb hr hup]
  case refused => rw [exec_joinAckReceived ht hh hd hop, joinAckArrival_refused hb hr hup hst]
  case accepted => rw [exec_joinAckReceived ht hh hd hop, joinAckArrival_accepted hb hr hup hst]
  case repeats => rw [exec_joinRepeatTimer, joinAgain_repeats (s := atTime s now) h]
  case begins => rw [exec_joinRepeatTimer, joinAgain_begins (s := atTime s now) hb hj hboot]
  case window =>
    rw [exec_joinWindowExpired, windowPast_due (s := atTime s now) hat (le_atTime_timeNs s hdue),
      joinCheck_windowOver (s := atTime s now) hb hj hacc hup]
  case second => rw [exec_epochRepeatTimer, epochAgain_second (s := atTime s now) hj hn (le_atTime_timeNs s hdue)]; rfl
  case third => rw [exec_epochRepeatTimer, epochAgain_third (s := atTime s now) hj hn (le_atTime_timeNs s hdue)]; rfl
  case remembered => rw [exec_epochNoticeReceived ht hh hd hb hop, epochNotice_remembered u (hkey ▸ h)]
  case new => rw [exec_epochNoticeReceived ht hh hd hb hop, epochNotice_new u hdev hepoch hrep h]; rfl

/-- Settles O27: a message's next packet by the windows, once its context is cached and its gates are passed, and by what its span
translates to; a fetched context by whether its range serves. -/
theorem injectionAndContextFetchComplete : Obligations.InjectionAndContextFetchComplete := by
  unfold Obligations.InjectionAndContextFetchComplete
  refine ⟨fun s now id read m t ht hm hs hr hc hg hp hn hroom hspan => ?noSpan,
    fun s now id read m t dva n cls u l ht hm hs hr hc hg hp hn hroom hspan hx => ?translated,
    fun s now id read m t ht hm hs hr hc hg hp hn hw hroom => ?noE2eRoom,
    fun s now id read m t ht hm hs hr hc hg hp hn => ?noFlowRoom, fun s now id read m t ht hm hs hr hctx hc => ?uncached,
    fun s now ec ue e he hf hs => ?serving, fun s now ec e he hf hs => ?unreachable⟩
  case serving => rw [exec_contextFetchDone, contextFetched_serving (s := fetchLossNoted (atTime s now) ec ue) he hf hs]; rfl
  case unreachable => rw [exec_contextFetchDone, fetchLossNoted, contextFetched_unreachable (s := atTime s now) he hf hs]
  all_goals
    subst ht
    rw [exec_packetInject]
  case uncached => rw [injectNext_uncached (s := atTime s now) hm hs hr hctx hc]
  all_goals rw [injectNext_gatesPassed (s := atTime s now) hm hs hr hc hg hp]
  case noSpan => rw [windowsPass_room hn hroom, buildRequest_noSpan hspan]
  case translated => rw [windowsPass_room hn hroom, buildRequest_translated hspan hx]
  case noE2eRoom => rw [windowsPass_noE2eRoom hn hw hroom]
  case noFlowRoom => rw [windowsPass_noFlowRoom hn]

end Sys2Proof.Machine
end

section
/-!
SUPPORT. Responses at the requester (R236, R247, R249, R263, R341): the way of a response to the message that its MSGID names, and what
decides among the cases of a GET_RSP and of a result.
-/

namespace Sys2Proof.Machine

/-! ### The way of a response -/

/-- The opcodes of what the transport takes in by MSGID: responses of requests, ACK and NACK. -/
def TpResponse (op : Nat) : Prop := op = opGetRsp ∨ op = opAtomicRsp ∨ op = opLockRsp ∨ op = opAck ∨ op = opNack

theorem opResponse_of_tpResponse {op : Nat} (h : TpResponse op) : opResponse op = true := by
  rcases h with rfl | rfl | rfl | rfl | rfl <;> rfl

/-- None of them is another unit's packet. -/
theorem takePacket_tpResponse (s : State) (u : Nat) {p : Pkt} (h : TpResponse p.op) : takePacket s u p = arrive s p := by
  unfold takePacket
  rcases h with h | h | h | h | h <;> rw [h] <;> rfl

/-- An arrival that passed its checks as precise sampling notes it (R601). -/
def arrivalSampled (s : State) (p : Pkt) : State := pmSample s 0 1 (arrivalId p) [p.ec, p.op, p.off, p.src, p.dst, p.tc, p.len]

section
variable {s t : State} {now : Nat} {p : Pkt} (u : Nat) (hop : TpResponse p.op)
include hop

theorem handPacket_noMessage (ht : TakenIn s now p t) (hm : slotOf (arrivalSampled t p) p.msgid = none) :
    handPacket (atTime s now) u p = lateResponse (arrivalSampled t p) p.msgid := by
  obtain ⟨hh, rfl, hd⟩ := ht
  rw [arrivalSampled] at hm
  rw [handPacket_outside_hold (s := atTime s now) u p hh, takePacket_tpResponse _ u hop]
  simp only [arrive, hd, opResponse_of_tpResponse hop, hm, if_true, arrivalSampled]

theorem handPacket_reachesMessage {m : Slot} (hr : ReachesMessage s now p m t) :
    handPacket (atTime s now) u p = deliverResponse t p t.timeNs := by
  obtain ⟨v, ⟨hh, rfl, hd⟩, -, hv, rfl, hc, hpark, -⟩ := hr
  rw [handPacket_outside_hold (s := atTime s now) u p hh, takePacket_tpResponse _ u hop]
  simp only [arrive, hd, opResponse_of_tpResponse hop, hv, hc, hpark, Bool.not_false, Bool.and_self, if_true]

end

section
variable {s t : State} {now : Nat} {p : Pkt} {m : Slot} (hr : ReachesMessage s now p m t)
include hr

theorem ReachesMessage.finish_eq : m.finish = none := by
  obtain ⟨_, -, -, -, -, -, -, -, -, hf⟩ := hr
  exact hf

/-- At the message that it names a response goes to the operation of its opcode, where the message's own opcode agrees. -/
theorem ReachesMessage.deliverResponse_eq (at' : Nat) :
    deliverResponse t p at' =
      if p.op = opAck then ackMsg t m p at'
      else if p.op = opNack then nackMsg t m p
      else if p.op = opGetRsp then (if m.op = opGetReq then getRspArrival t m p at' else t)
      else if (p.op = opAtomicRsp ∧ m.op = opAtomic) ∨ (p.op = opLockRsp ∧ m.op = opLock) then resultArrival t m p at'
      else t := by
  obtain ⟨_, -, -, -, -, -, -, hm, hdst, hf⟩ := hr
  simp only [deliverResponse, hm, hdst, hf, Option.isSome_none, Bool.false_eq_true, ne_eq, not_true_eq_false, if_false]

end

/-! ### The five commands -/

section
variable (s : State) (now u : Nat) {p : Pkt}

theorem exec_getRspArrived (hop : p.op = opGetRsp) :
    exec (.getRspArrived now u p) s = .next (settled s (handPacket (atTime s now) u p)) := congrArg (done s) (if_pos hop)

theorem exec_atomicRspArrived (hop : p.op = opAtomicRsp) :
    exec (.atomicRspArrived now u p) s = .next (settled s (handPacket (atTime s now) u p)) := congrArg (done s) (if_pos hop)

theorem exec_lockRspArrived (hop : p.op = opLockRsp) :
    exec (.lockRspArrived now u p) s = .next (settled s (handPacket (atTime s now) u p)) := congrArg (done s) (if_pos hop)

theorem exec_ackArrived (hop : p.op = opAck) :
    exec (.ackArrived now u p) s = .next (settled s (handPacket (atTime s now) u p)) := congrArg (done s) (if_pos hop)

theorem exec_nackArrived (hop : p.op = opNack) :
    exec (.nackArrived now u p) s = .next (settled s (handPacket (atTime s now) u p)) := congrArg (done s) (if_pos hop)

end

section
variable {s t : State} {now : Nat} {p : Pkt} {m : Slot} (u : Nat) (hr : ReachesMessage s now p m t)
include hr

theorem handPacket_ack (hop : p.op = opAck) : handPacket (atTime s now) u p = ackMsg t m p t.timeNs := by
  rw [handPacket_reachesMessage u (by simp [TpResponse, hop]) hr, hr.deliverResponse_eq, if_pos hop]

theorem handPacket_nack (hop : p.op = opNack) : handPacket (atTime s now) u p = nackMsg t m p := by
  rw [handPacket_reachesMessage u (by simp [TpResponse, hop]) hr, hr.deliverResponse_eq, if_neg (by rw [hop]; decide), if_pos hop]

theorem handPacket_getRsp (hop : p.op = opGetRsp) (hm : m.op = opGetReq) :
    handPacket (atTime s now) u p = placeGetRsp (sampleGetRsp t m p t.timeNs) m p := by
  rw [handPacket_reachesMessage u (by simp [TpResponse, hop]) hr, hr.deliverResponse_eq, if_neg (by rw [hop]; decide),
    if_neg (by rw [hop]; decide), if_pos hop, if_pos hm, getRspArrival]

theorem handPacket_result (hop : (p.op = opAtomicRsp ∧ m.op = opAtomic) ∨ (p.op = opLockRsp ∧ m.op = opLock)) :
    handPacket (atTime s now) u p = resultArrival t m p t.timeNs := by
  have hkind : TpResponse p.op ∧ p.op ≠ opAck ∧ p.op ≠ opNack ∧ p.op ≠ opGetRsp := by
    rcases hop with ⟨h, -⟩ | ⟨h, -⟩ <;> rw [h, TpResponse] <;> decide
  obtain ⟨hrsp, hack, hnack, hget⟩ := hkind
  rw [handPacket_reachesMessage u hrsp hr, hr.deliverResponse_eq, if_neg hack, if_neg hnack, if_neg hget, if_pos hop]

end

/-! ### GET_RSP -/

section
variable {s : State} {m : Slot} {p : Pkt}

/-- A packet received before, or not asked for, gives no sample of the round trip (R252). -/
theorem sampleGetRsp_dup (at' : Nat) (h : isAcked m p.psn = true ∨ mhas m.copies p.psn = false) : sampleGetRsp s m p at' = s := by
  rw [sampleGetRsp]
  split
  next c hc =>
    rcases h with hack | hno
    · exact if_neg fun hs => Bool.false_ne_true (hs.2.symm.trans hack)
    · simp [mhas, hc] at hno
  next => rfl

theorem placeGetRsp_dup (hf : m.finish = none) (h : isAcked m p.psn = true ∨ mhas m.copies p.psn = false) :
    placeGetRsp s m p = inc s F.tpCnt2Dup := by
  have hdup : (isAcked m p.psn || !mhas m.copies p.psn) = true := by rcases h with h | h <;> simp [h]
  simp only [placeGetRsp, hf, hdup, Option.isSome_none, Bool.false_eq_true, if_false, if_true]

theorem placeGetRsp_translated {a : Nat} {u : State} {l : List (Nat × Nat)} (hf : m.finish = none) (hack : isAcked m p.psn = false)
    (hc : mhas m.copies p.psn = true) (hres : m.result = .dva a)
    (hx : translateAdm s (msgAdm s m (a + p.psn * 4096) p.payload.length 1) = (u, .ok l)) :
    placeGetRsp s m p =
      let adm := msgAdm s m (a + p.psn * 4096) p.payload.length 1
      getPlaced (beginAcc (writePieces u adm.hp l p.payload) { what := .write, mr := none, hp := adm.hp, pages := pagesOf adm }) m p := by
  simp only [placeGetRsp, hf, hack, hc, hres, hx, Option.isSome_none, Bool.not_true, Bool.or_self, Bool.false_eq_true, if_false]

end

/-! ### ATOMIC_RSP and LOCK_RSP -/

/-- The first result of an ATOMIC or LOCK acknowledges its request, ends its timer, and is kept and placed. -/
theorem resultArrival_first {s : State} {m : Slot} (p : Pkt) (at' : Nat) (hk : m.kept = none) (hf : m.finish = none) :
    resultArrival s m p at' =
      let v := updateW (if opAcked m then s else sampleFrom s m 0 0 at') m (hasFlag p flEce) (unackedBytes m)
      let w := ackPsns v m [0]
      let n := { w.2 with kept := some p.payload, timerAt := none }
      placeKept (setSlot w.1 n) n := by
  simp only [resultArrival, hk, hf, Option.isSome_none, Bool.or_self, Bool.false_eq_true, if_false]

end Sys2Proof.Machine
end

section
/-!
SUPPORT. The timers of messages, records, MSGIDs, flows and rendezvous (R240, R243, R246, R250, R251, R253, R265, R292, R302): what each
does once its time has passed.
-/

namespace Sys2Proof.Machine

section
variable (s : State) (now : Nat)

theorem exec_retransmitTimerExpired (id : Nat) :
    exec (.retransmitTimerExpired now id) s = .next (settled s (retransmitDue (atTime s now) id)) := rfl

theorem exec_nackBackoffExpired (id psn : Nat) :
    exec (.nackBackoffExpired now id psn) s = .next (settled s (backoffOver (atTime s now) id psn)) := rfl

theorem exec_nackWaitLimitExpired (id psn : Nat) :
    exec (.nackWaitLimitExpired now id psn) s = .next (settled s (nackWaitOver (atTime s now) id psn)) := rfl

theorem exec_ackTimeExpired (src id : Nat) :
    exec (.ackTimeExpired now src id) s = .next (settled s (ackDue (atTime s now) (recKey src id))) := rfl

theorem exec_receiverRecordExpired (src id : Nat) :
    exec (.receiverRecordExpired now src id) s = .next (settled s (recordExpired (atTime s now) (recKey src id))) := rfl

theorem exec_msgidQuarantineEnd (id : Nat) :
    exec (.msgidQuarantineEnd now id) s = .next (settled s (quarantineOver (atTime s now) id)) := rfl

theorem exec_flowEntryIdle (ec dst tc : Nat) :
    exec (.flowEntryIdle now ec dst tc) s = .next (settled s (flowIdle (atTime s now) (flowKey ec dst tc))) := rfl

theorem exec_rdvLimitExpired (i : Nat) : exec (.rdvLimitExpired now i) s = .next (settled s (rdvLimit (atTime s now) i)) := rfl

theorem exec_rdvCloseExpired (ec : Nat) : exec (.rdvCloseExpired now ec) s = .next (settled s (rdvClose (atTime s now) ec)) := rfl

end

/-! ### Copies of a message's packets -/

/-- Whether a packet has copies and waits for no BACKOFF_US (R250). -/
def backoffFree (m : Slot) (k : Nat) : Bool :=
  match mget m.copies k with
  | some c => !c.waiting
  | none => false

/-- Whether a packet has copies and may have no further one (R244). -/
def copiesSpent (s : State) (m : Slot) (k : Nat) : Bool :=
  match mget m.copies k with
  | some c => !copyAllowed s c
  | none => false

/-- Whether a packet waits for a BACKOFF_US that has passed (R251). -/
def backoffPast (s : State) (m : Slot) (k : Nat) : Bool :=
  match mget m.copies k with
  | some c => c.waiting && decide (c.waitUntil ≤ s.timeNs)
  | none => false

/-- The packets that a backoff's end resends: of a GET every one that is due, else the one itself, unless it is acknowledged. -/
def backoffDue (s : State) (m : Slot) (psn : Nat) : List Nat :=
  (if m.op = opGetReq then pendingPsns m else [psn]).filter fun k => backoffPast s m k && !isAcked m k

theorem backoffPast_waiting {s : State} {m : Slot} {k : Nat} {c : CopySt} (hc : mget m.copies k = some c) (hw : c.waiting = true)
    (ht : c.waitUntil ≤ s.timeNs) : backoffPast s m k = true := by
  simp only [backoffPast, hc, hw, decide_eq_true ht, Bool.and_self]

/-- What a retransmission timer asks of each packet: that no copy of it could be queued now (R250). -/
def leftToBackoff (m : Slot) (k : Nat) : Bool :=
  match mget m.copies k with
  | some c => c.waiting
  | none => true

theorem leftToBackoff_eq_not (m : Slot) (k : Nat) : leftToBackoff m k = !backoffFree m k := by
  rw [leftToBackoff, backoffFree]
  cases mget m.copies k <;> simp

theorem all_leftToBackoff_iff (m : Slot) (l : List Nat) : l.all (leftToBackoff m) = true ↔ l.filter (backoffFree m) = [] := by
  simp only [List.all_eq_true, List.filter_eq_nil_iff, leftToBackoff_eq_not, Bool.not_eq_true', Bool.not_eq_true]

theorem retryMsg_eq (s : State) (m : Slot) (l : List Nat) :
    retryMsg s m l =
      let free := l.filter (backoffFree m)
      if rd s F.tpRetryRetries < m.retries + 1 ∨ free.any (copiesSpent s m) = true then failMsg s m 1 0
      else
        let r := resendAll s m free
        setSlot r.1 (armTimer r.1 { r.2 with retries := r.2.retries + 1 }) := rfl

/-! ### Messages -/

section
variable {s : State} {id psn : Nat} {m : Slot} (hm : slotOf s id = some m) (hf : m.finish = none)
include hm hf

/-- A timer that has run out outside HOLD starts again when every packet waits for a backoff, else it is a retry (R250, R253). -/
theorem retransmitDue_due {at' : Nat} (ht : m.timerAt = some at') (hh : holdOn s = false) (hk : m.kept = none ∨ m.op = opGetReq)
    (hst : m.op ≠ opGetReq ∨ m.stall = none) (hdue : at' + m.timerLen ≤ s.timeNs) (hq : m.quietUntil ≤ s.timeNs) :
    retransmitDue s id =
      if (pendingPsns m).filter (backoffFree m) = [] then setSlot s (armTimer s m) else retryMsg s m (pendingPsns m) := by
  have hkept : (m.kept.isSome && m.op != opGetReq) = false := by rcases hk with h | h <;> simp [h]
  have hstall : (m.op == opGetReq && m.stall.isSome) = false := by rcases hst with h | h <;> simp [h]
  simp only [retransmitDue, hm, ht, hh, hf, hkept, hstall, decide_eq_false (Nat.not_lt.mpr hdue), decide_eq_false (Nat.not_lt.mpr hq),
    Option.isSome_none, Bool.or_self, Bool.false_eq_true, if_false]
  exact ite_congr (propext (all_leftToBackoff_iff m _)) (fun _ => rfl) fun _ => rfl

theorem backoffOver_due (hp : backoffPast s m psn = true) (hl : backoffDue s m psn ≠ []) :
    backoffOver s id psn =
      if (backoffDue s m psn).any (copiesSpent s m) = true then failMsg s m 1 0
      else setSlot (resendAll s m (backoffDue s m psn)).1 (resendAll s m (backoffDue s m psn)).2 := by
  have hgoes : ¬((backoffDue s m psn).isEmpty || m.finish.isSome || !backoffPast s m psn) = true := by
    simp [hp, hf, hl]
  simp only [backoffOver, hm]
  exact if_neg hgoes

theorem nackWaitOver_due {c : CopySt} (hc : mget m.copies psn = some c) (hw : c.waiting = true) (hack : isAcked m psn = false)
    (hdue : c.firstEver + ms (rd s F.tpRetryNackWaitMs) ≤ s.timeNs) : nackWaitOver s id psn = failMsg s m 3 c.nackKind := by
  simp only [nackWaitOver, hm, hc, hw, hack, hf, decide_eq_true hdue, Option.isNone_none, Bool.not_false, Bool.and_self, if_true]

end

/-! ### Records -/

/-- What a record leaves behind as it goes (R243, R261): an incomplete one is counted, and a held flag leaves its region. -/
def recordLeft (s : State) (r : Rec) : State :=
  let t := if r.done then s else inc s F.tpCnt5RecExpire
  match r.flag with
  | some f => leave t f.mr
  | none => t

section
variable {s : State} {k : Nat} {r : Rec} (hr : mget s.tp.recs k = some r)
include hr

theorem ackDue_due {at' psn : Nat} (hf : r.firstAt = some (at', psn)) (hdue : at' + rd s F.tpAckTimeNs ≤ s.timeNs) :
    ackDue s k = sendAck s k r psn (s.timeNs - at') false := by
  simp only [ackDue, hr, hf, if_pos hdue]

theorem recordExpired_due (hdue : r.stamp + 2000000 ≤ (s.timeNs : Int)) :
    recordExpired s k =
      refreshMt (setMt (setTp (recordLeft s r) fun x => { x with recs := mdel x.recs k })
        fun m => { m with early := mdel m.early k }) := by
  simp only [recordExpired, hr]
  exact if_neg (Int.not_lt.mpr hdue)

end

/-! ### MSGIDs, flows and rendezvous -/

section
variable {s : State}

theorem quarantineOver_due {id at' : Nat} (h : mget s.tp.quarantine id = some at') (hdue : at' + ms 2 ≤ s.timeNs) :
    quarantineOver s id = setTp s fun t => { t with quarantine := mdel t.quarantine id } := by
  simp only [quarantineOver, h, if_pos hdue]

theorem flowIdle_due {k : Nat} {f : Flow} (h : mget s.tp.flows k = some f) (hfl : flowInFlight s k = false)
    (hdue : f.lastAt + us 100 ≤ s.timeNs) : flowIdle s k = setTp s fun t => { t with flows := mdel t.flows k } := by
  simp only [flowIdle, h]
  exact if_pos ⟨hfl, hdue⟩

theorem rdvLimit_due {i at' : Nat} {r : Rdv} (h : mget s.mt.rdv i = some r) (hs : r.sentAt = some at') (hl : rd s F.mtCfgRdvLimitMs ≠ 0)
    (hdue : at' + ms (rd s F.mtCfgRdvLimitMs) ≤ s.timeNs) : rdvLimit s i = startWaiting (endRdvEntry s i r) := by
  simp only [rdvLimit, h, hs]
  exact if_pos ⟨hl, hdue⟩

theorem rdvClose_due {ec : Nat} {c : EcCtx} (h : mget s.tp.ecs ec = some c) (hc : c.closing = true)
    (hdue : c.closeAt + ms (rd s F.mtCfgRdvCloseMs) ≤ s.timeNs) : rdvClose s ec = endClose s ec := by
  simp only [rdvClose, h]
  exact if_pos ⟨hc, hdue⟩

end

end Sys2Proof.Machine
end

section
/-!
The obligations of the chapter on the transport: responses at the requester, and the timers of messages and records.
-/

namespace Sys2Proof.Machine

/-- Settles O25: each response at the message that it names by its opcode, a GET_RSP by whether it was asked for and not received before;
one that names no message is counted. -/
theorem responsesComplete : Obligations.ResponsesComplete := by
  unfold Obligations.ResponsesComplete
  refine ⟨fun s now u p m t a t2 l hop hmop hr hack hc hres hx => ?placed, fun s now u p m t hop hmop hr h => ?dup,
    fun s now u p m t hop hmop hr hk => ?atomic, fun s now u p m t hop hmop hr hk => ?lock, fun s now u p m t hop hr => ?ack,
    fun s now u p m t hop hr => ?nack, fun s now u p t ht hm => ?noMessage⟩
  case placed =>
    rw [exec_getRspArrived s now u hop, handPacket_getRsp u hr hop hmop, placeGetRsp_translated hr.finish_eq hack hc hres hx]
  case dup =>
    rw [exec_getRspArrived s now u hop, handPacket_getRsp u hr hop hmop, sampleGetRsp_dup _ h, placeGetRsp_dup hr.finish_eq h]
  case atomic =>
    rw [exec_atomicRspArrived s now u hop, handPacket_result u hr (.inl ⟨hop, hmop⟩), resultArrival_first p _ hk hr.finish_eq]
  case lock =>
    rw [exec_lockRspArrived s now u hop, handPacket_result u hr (.inr ⟨hop, hmop⟩), resultArrival_first p _ hk hr.finish_eq]
  case ack => rw [exec_ackArrived s now u hop, handPacket_ack u hr hop]
  case nack => rw [exec_nackArrived s now u hop, handPacket_nack u hr hop]
  case noMessage =>
    have hlate (hop : TpResponse p.op) := congrArg (done s) (handPacket_noMessage u hop ht hm)
    exact ⟨fun hop => (exec_ackArrived s now u hop).trans (hlate (by simp [TpResponse, hop])),
      fun hop => (exec_nackArrived s now u hop).trans (hlate (by simp [TpResponse, hop])),
      fun hop => (exec_getRspArrived s now u hop).trans (hlate (by simp [TpResponse, hop])),
      fun hop => (exec_atomicRspArrived s now u hop).trans (hlate (by simp [TpResponse, hop])),
      fun hop => (exec_lockRspArrived s now u hop).trans (hlate (by simp [TpResponse, hop]))⟩

/-- Settles O28: each timer at the time that the command reports; a message's by whether every packet waits for a backoff, and whether it
may be retried. -/
theorem messageAndRecordTimersComplete : Obligations.MessageAndRecordTimersComplete := by
  unfold Obligations.MessageAndRecordTimersComplete
  refine ⟨fun s now id m at' hm ht hh hf hk hst hdue hq => ?retransmit, fun s now id psn m c hm hc hw hwait hf hl => ?backoff,
    fun s now id psn m c hm hc hw hack hf hdue => ?nackWait, fun s now src id r at' psn hr hfirst hdue => ?ack,
    fun s now src id r hr hdue => ?record, fun s now id at' h hdue => ?quarantine, fun s now ec dst tc f h hfl hdue => ?flow,
    fun s now i r at' h hs hl hdue => ?rdvLimit, fun s now ec c h hc hdue => ?rdvClose⟩
  case retransmit =>
    rw [exec_retransmitTimerExpired, retransmitDue_due (s := atTime s now) hm hf ht hh hk hst (le_atTime_timeNs s hdue)
      (le_atTime_timeNs s hq), retryMsg_eq]
    rfl
  case backoff =>
    rw [exec_nackBackoffExpired, backoffOver_due (s := atTime s now) hm hf (backoffPast_waiting hc hw (le_atTime_timeNs s hwait)) hl]
    rfl
  case nackWait => rw [exec_nackWaitLimitExpired, nackWaitOver_due (s := atTime s now) hm hf hc hw hack (le_atTime_timeNs s hdue)]
  case ack => rw [exec_ackTimeExpired, ackDue_due (s := atTime s now) hr hfirst (le_atTime_timeNs s hdue)]; rfl
  case record =>
    have hstamp : r.stamp + 2000000 ≤ ((atTime s now).timeNs : Int) := by rw [atTime_timeNs]; omega
    rw [exec_receiverRecordExpired, recordExpired_due (s := atTime s now) hr hstamp]
    rfl
  case quarantine => rw [exec_msgidQuarantineEnd, quarantineOver_due (s := atTime s now) h (le_atTime_timeNs s hdue)]
  case flow => rw [exec_flowEntryIdle, flowIdle_due (s := atTime s now) h hfl (le_atTime_timeNs s hdue)]
  case rdvLimit => rw [exec_rdvLimitExpired, rdvLimit_due (s := atTime s now) h hs hl (le_atTime_timeNs s hdue)]
  case rdvClose => rw [exec_rdvCloseExpired, rdvClose_due (s := atTime s now) h hc (le_atTime_timeNs s hdue)]

end Sys2Proof.Machine
end

section
/-!
SUPPORT. Requests at the target (R236, R241, R513): the way of a request to its context and to its record, and to the operation of its
opcode.
-/

namespace Sys2Proof.Machine

/-- The opcodes of what the transport takes in by EC. -/
def TpRequest (op : Nat) : Prop :=
  op = opPut ∨ op = opGetReq ∨ op = opSend ∨ op = opSendRts ∨ op = opAtomic ∨ op = opLock ∨ op = opMcPut

/-- Of them the word operations first count as work of AT. -/
theorem takePacket_tpRequest (s : State) (u : Nat) {p : Pkt} (h : TpRequest p.op) :
    takePacket s u p = arrive (if p.op = opAtomic ∨ p.op = opLock then work s 4 (atKey s p) p.tc else s) p := by
  unfold takePacket
  rcases h with h | h | h | h | h | h | h <;> rw [h] <;> rfl

section
variable {s t : State} {now k : Nat} {p : Pkt} {r : Rec} (u : Nat) (hop : TpRequest p.op)
include hop

theorem handPacket_reachesContext (hr : ReachesContext s now p t) :
    handPacket (atTime s now) u p = deliverRequest t p t.timeNs := by
  obtain ⟨v, w, hh, hv, hd, hrsp, rfl, rfl, hshut, hserves, hcached, hparked, -⟩ := hr
  rw [handPacket_outside_hold (s := atTime s now) u p hh, takePacket_tpRequest _ u hop]
  simp only [arrive, ← hv, hd, hrsp, hshut, hserves, hcached, hparked, Bool.not_true, Bool.not_false, Bool.or_self, Bool.and_self,
    Bool.false_eq_true, if_false, if_true]

/-- A request not seen before goes to the operation of its opcode, with its packet entered in its record (R236 step 6). -/
theorem handPacket_reachesRecord (hget : p.op ≠ opGetReq) (hmc : p.op ≠ opMcPut) (hr : ReachesRecord s now p t k r) :
    handPacket (atTime s now) u p =
      if p.op = opSend then (if p.psn = 0 ∧ r.place = none then sendFirst t p k else sendLater t p k r.place)
      else if p.op = opSendRts then (if isFin p then finArrival t p else rtsArrival t p k)
      else if p.op = opAtomic then regionArrival (seeOp t k) p (atomicSize p)
      else if p.op = opLock then regionArrival (seeOp t k) p 8
      else regionArrival t p 0 := by
  obtain ⟨x, v, hctx, hrec, rfl⟩ := hr
  rw [handPacket_reachesContext u hop hctx]
  obtain ⟨_, _, -, -, -, -, -, -, hshut, hserves, -, -, c, hc, hstate, hserving, hclosing, hops⟩ := hctx
  simp only [deliverRequest, hc, hshut, hstate, hserving, hserves, hclosing, hops, hget, hmc, hrec, bne_self_eq_false, Bool.not_true,
    Bool.or_self, Bool.false_and, Bool.false_eq_true, or_self, if_false, handRequest]

end

section
variable {s t : State} {now k : Nat} {p : Pkt} {r : Rec} (u : Nat) (hr : ReachesRecord s now p t k r)
include hr

theorem handPacket_send (hop : p.op = opSend) :
    handPacket (atTime s now) u p = if p.psn = 0 ∧ r.place = none then sendFirst t p k else sendLater t p k r.place := by
  rw [handPacket_reachesRecord u (by simp [TpRequest, hop]) (by rw [hop]; decide) (by rw [hop]; decide) hr, if_pos hop]

theorem handPacket_sendRts (hop : p.op = opSendRts) :
    handPacket (atTime s now) u p = if isFin p then finArrival t p else rtsArrival t p k := by
  rw [handPacket_reachesRecord u (by simp [TpRequest, hop]) (by rw [hop]; decide) (by rw [hop]; decide) hr,
    if_neg (by rw [hop]; decide), if_pos hop]

end

/-- A request that would be executed and meets an uncorrectable word of HBM (R513). -/
theorem takeRequest_uncorrectable {s : State} (u : Nat) {p : Pkt} (h : Nat) (hh : holdOn s = false) (hx : executes s p = true) :
    takeRequest s u p (some h) = targetError s p h := by
  simp only [takeRequest, hh, hx, Bool.not_false, Bool.and_self, if_true]

end Sys2Proof.Machine
end

section
/-!
SUPPORT. Sends at the target (R282 to R286, R289, R290, R339): what decides among the cases of a SEND's packet, of an RTS and of a FIN.
-/

namespace Sys2Proof.Machine

/-! ### The three commands -/

section
variable (s : State) (now u : Nat) {p : Pkt}

theorem exec_sendArrived (hop : p.op = opSend) (ue : Option Nat) :
    exec (.sendArrived now u p ue) s = .next (settled s (takeRequest (atTime s now) u p ue)) := congrArg (done s) (if_pos hop)

theorem exec_sendRtsArrived (hop : p.op = opSendRts) (hfin : isFin p = false) :
    exec (.sendRtsArrived now u p) s = .next (settled s (handPacket (atTime s now) u p)) := congrArg (done s) (if_pos ⟨hop, hfin⟩)

theorem exec_finArrived (hop : p.op = opSendRts) (hfin : isFin p = true) :
    exec (.finArrived now u p) s = .next (settled s (handPacket (atTime s now) u p)) := congrArg (done s) (if_pos ⟨hop, hfin⟩)

end

section
variable {s t : State} {now k : Nat} {p : Pkt} {r : Rec} (u : Nat) (hr : ReachesRecord s now p t k r)
include hr

theorem exec_sendArrived_first (hop : p.op = opSend) (hpsn : p.psn = 0) (hplace : r.place = none) :
    exec (.sendArrived now u p none) s = .next (settled s (sendFirst t p k)) := by
  rw [exec_sendArrived s now u hop, takeRequest, handPacket_send u hr hop, if_pos ⟨hpsn, hplace⟩]

theorem exec_sendArrived_later (hop : p.op = opSend) (h : ¬(p.psn = 0 ∧ r.place = none)) :
    exec (.sendArrived now u p none) s = .next (settled s (sendLater t p k r.place)) := by
  rw [exec_sendArrived s now u hop, takeRequest, handPacket_send u hr hop, if_neg h]

theorem exec_sendRtsArrived_record (hop : p.op = opSendRts) (hfin : isFin p = false) :
    exec (.sendRtsArrived now u p) s = .next (settled s (rtsArrival t p k)) := by
  rw [exec_sendRtsArrived s now u hop hfin, handPacket_sendRts u hr hop, hfin, if_neg Bool.false_ne_true]

theorem exec_finArrived_record (hop : p.op = opSendRts) (hfin : isFin p = true) :
    exec (.finArrived now u p) s = .next (settled s (finArrival t p)) := by
  rw [exec_finArrived s now u hop hfin, handPacket_sendRts u hr hop, if_pos hfin]

end

/-! ### The refusal of a full unexpected buffer -/

theorem raiseIrq_csr (s : State) (hp fn vec : Nat) (poll : Bool) : (raiseIrq s hp fn vec poll).csr = s.csr := by
  unfold raiseIrq
  dsimp only
  split
  · rfl
  · split <;> rfl

theorem eqPut_csr (s : State) (key : Nat) (e : Evq) (w0 w1 : Nat) : (eqPut s key e w0 w1).csr = s.csr := by
  unfold eqPut
  dsimp only
  split
  · exact raiseIrq_csr ..
  · rfl

theorem eqOverflow_csr (s : State) (key : Nat) (e : Evq) : (eqOverflow s key e).csr = s.csr := by
  unfold eqOverflow
  split
  · rfl
  · exact eqPut_csr ..

theorem eqEvent_csr (s : State) (key w0 w1 : Nat) : (eqEvent s key w0 w1).csr = s.csr := by
  unfold eqEvent
  split
  · rfl
  next e _ =>
    dsimp only
    split
    · exact eqOverflow_csr s key e
    · split
      · exact eqOverflow_csr s key e
      · rw [eqPut_csr, eqOverflow_csr]

theorem event_csr (s : State) (hp fn w0 w1 : Nat) : (event s hp fn w0 w1).csr = s.csr := by
  unfold event
  split
  · rfl
  · dsimp only
    split
    · split
      · exact eqEvent_csr ..
      · rfl
    · rfl

/-- An event goes to an event queue: no register changes. -/
theorem mtEvent_csr (s : State) (ec code : Nat) : (mtEvent s ec code).csr = s.csr := by
  unfold mtEvent
  split
  · rw [drawn_csr, event_csr]
  · rfl

/-- The NACK's counter is the only register that the refusal changes. -/
theorem unexpNack_csr (s : State) (ec : Nat) : (unexpNack s ec).csr = (inc s F.mtCnt2UnexpNack).csr := by
  have hevent (v : State) (fire : Bool) : (if fire = true then mtEvent v ec 0x22 else v).csr = v.csr := by
    split
    · exact mtEvent_csr ..
    · rfl
  exact hevent (setMt (inc s F.mtCnt2UnexpNack) fun m => { m with unexpFullAt := some (inc s F.mtCnt2UnexpNack).timeNs }) _

theorem rd_unexpNack_backoffUs (s : State) (ec : Nat) : rd (unexpNack s ec) F.mtCfgBackoffUs = rd s F.mtCfgBackoffUs := by
  rw [rd, csrRaw, unexpNack_csr]
  exact rd_inc_apart _ _ _ _ _ _ _ _ (by decide) (.inl (by decide))

/-! ### PSN 0 of a SEND -/

/-- The units of what came before PSN 0 under a record. -/
def earlyUnits (s : State) (k : Nat) : Nat := (mgetD s.mt.early k []).foldl (fun n e => n + ceilDiv e.2.length 64) 0

/-- A SEND given to the posted receive id, with what came before PSN 0 (R283, R284). -/
def matchSend (s : State) (p : Pkt) (k id : Nat) (x : Recv) : State :=
  let v := leftList (matched (countMatch s x) id x (matchOf p) (sendDataLen p) p.tc) { x with matched := true }
  let w := giveEarly (setTp v fun y => { y with recs := mmod y.recs k fun z => { z with place := some id } }) k id
  match mget w.mt.recvs id with
  | some y => sendIntoRecv w p id y
  | none => w

/-- The entry of an arrival on the unexpected list: of n bytes of data, with its units, its rendezvous fields and the data stored. -/
def unexpOf (p : Pkt) (n units : Nat) (rts : Option (Nat × Nat × Nat)) (data : Map (List Byte)) : Unexp :=
  { ec := p.ec, src := p.src, srcEc := (matchOf p).srcEc, bits := (matchOf p).bits, comm := (matchOf p).comm, dataLen := n, tc := p.tc,
    units := units, msgid := p.msgid, rts := rts, data := data }

/-- A SEND that goes on the unexpected list with what came before PSN 0 (R284). -/
def queueSend (s : State) (p : Pkt) (k : Nat) : State :=
  let y := takeEarly s k
  let x := unexpOf p (sendDataLen p) (1 + ceilDiv (sendDataLen p) 64) none (mset y.2 0 (sendData p))
  let v := refreshMt (setMt y.1 fun m => { m with unexp := mset m.unexp y.1.mt.next x, next := y.1.mt.next + 1 })
  placePsn (setTp v fun z => { z with recs := mmod z.recs k fun w => { w with place := some y.1.mt.next } }) p p.len true

section
variable {s : State} {p : Pkt} {k id : Nat} {x : Recv}

section
variable (hf : findPosted s p.ec (matchOf p) = some (id, x))
include hf

theorem sendFirst_posted (hb : sendBlocked s p = false) : sendFirst s p k = matchSend s p k id x := by
  simp only [sendFirst, hf, hb, Bool.false_eq_true, if_false]
  rfl

theorem sendFirst_posted_blocked (hb : sendBlocked s p = true) : sendFirst s p k = refuse s p 1 20 := by
  simp only [sendFirst, hf, hb, if_true]

end

section
variable (hf : findPosted s p.ec (matchOf p) = none)
include hf

theorem sendFirst_unexpected (hu : unitsUsed s - earlyUnits s k + (1 + ceilDiv (sendDataLen p) 64) ≤ unexpSize) :
    sendFirst s p k = queueSend s p k := by
  simp only [sendFirst, hf]
  exact if_neg (Nat.not_lt.mpr hu)

theorem sendFirst_unexpectedFull (hu : unexpSize < unitsUsed s - earlyUnits s k + (1 + ceilDiv (sendDataLen p) 64)) :
    sendFirst s p k = refuse (unexpNack s p.ec) p 4 (rd (unexpNack s p.ec) F.mtCfgBackoffUs) := by
  simp only [sendFirst, hf, rd_unexpNack_backoffUs]
  exact if_pos hu

end

/-! ### A later packet of a SEND -/

/-- A packet that does not end the message needs no completion of its receive (R462). -/
theorem sendLater_matched (hx : mget s.mt.recvs id = some x) (hb : x.got + (sendData p).length < x.dataLen ∨ sendBlocked s p = false) :
    sendLater s p k (some id) = sendIntoRecv s p id x := by
  simp only [sendLater, hx]
  refine if_neg fun h => ?_
  obtain ⟨hlast, hfull⟩ := Bool.and_eq_true_iff.mp h
  rcases hb with hmore | hroom
  · exact absurd (of_decide_eq_true hlast) (Nat.not_le.mpr hmore)
  · exact Bool.false_ne_true (hroom.symm.trans hfull)

theorem sendLater_unexpected {e : Unexp} (hx : mget s.mt.recvs id = none) (he : mget s.mt.unexp id = some e) :
    sendLater s p k (some id) =
      placePsn (setMt s fun m => { m with unexp := mset m.unexp id { e with data := mset e.data p.psn (sendData p) } }) p p.len
        (p.psn == 0) := by
  simp only [sendLater, hx, he]

theorem sendLater_beforeFirst (hu : unitsUsed s + ceilDiv p.len 64 ≤ unexpSize) :
    sendLater s p k none =
      placePsn (refreshMt (setMt s fun m =>
        { m with early := mset m.early k (mset (mgetD m.early k []) p.psn p.payload) })) p p.len false :=
  if_neg (Nat.not_lt.mpr hu)

end

/-! ### RTS and FIN -/

/-- An RTS given to the posted receive id, whose GET it starts (R289). -/
def matchRts (s : State) (p : Pkt) (id : Nat) (x : Recv) : State :=
  let v := placePsn (leftList (matched (countMatch s x) id x (matchOf p) (bits (payWord p 3) 32 31) p.tc) { x with matched := true })
    p p.len true
  match mget v.mt.recvs id with
  | some y => startRdv v id y (bits (payWord p 1) 38 26) (payWord p 2 % 2 ^ 46) (payWord p 3 % 2 ^ 32)
  | none => v

/-- An RTS that takes one unit of the unexpected list (R286). -/
def queueRts (s : State) (p : Pkt) (k : Nat) : State :=
  let x := unexpOf p (bits (payWord p 3) 32 31) 1
    (some (bits (payWord p 1) 38 26, payWord p 2 % 2 ^ 46, payWord p 3 % 2 ^ 32)) []
  let v := refreshMt (setMt s fun m => { m with unexp := mset m.unexp m.next x, next := m.next + 1 })
  placePsn (setTp v fun y => { y with recs := mmod y.recs k fun z => { z with place := some (v.mt.next - 1) } }) p p.len true

section
variable {s : State} {p : Pkt} {k : Nat}

theorem rtsArrival_posted {id : Nat} {x : Recv} (hf : findPosted s p.ec (matchOf p) = some (id, x)) (hb : sendBlocked s p = false) :
    rtsArrival s p k = matchRts s p id x := by
  simp only [rtsArrival, hf, hb, Bool.false_eq_true, if_false]
  rfl

theorem rtsArrival_unexpected (hf : findPosted s p.ec (matchOf p) = none) (hu : unitsUsed s + 1 ≤ unexpSize) :
    rtsArrival s p k = queueRts s p k := by
  simp only [rtsArrival, hf]
  exact if_neg (Nat.not_lt.mpr hu)

theorem rtsArrival_unexpectedFull (hf : findPosted s p.ec (matchOf p) = none) (hu : unexpSize < unitsUsed s + 1) :
    rtsArrival s p k = refuse (unexpNack s p.ec) p 4 (rd (unexpNack s p.ec) F.mtCfgBackoffUs) := by
  simp only [rtsArrival, hf, rd_unexpNack_backoffUs]
  exact if_pos hu

/-- The send of a rendezvous entry ended by a FIN, and its entry free (R290). -/
def finishRdv (s : State) (p : Pkt) (i : Nat) (x : Rdv) : State :=
  let v := refreshMt (setMt s fun m => { m with rdv := mdel m.rdv i })
  let w := if payWord p 2 % 256 = 2 then descDone v x.origin 3 0 (bits (payWord p 2) 8 16) 0 0 0
    else descDone v x.origin 0 0 0 x.len 0 0
  startWaiting (settleClose w x.ec)

theorem finArrival_entry {x : Rdv} (hx : mget (placePsn s p p.len true).mt.rdv (bits (payWord p 1) 38 26 % 2 ^ 16) = some x)
    (hgen : x.gen = bits (payWord p 1) 38 26 / 2 ^ 16) :
    finArrival s p = finishRdv (placePsn s p p.len true) p (bits (payWord p 1) 38 26 % 2 ^ 16) x := by
  simp only [finArrival, hx]
  exact if_neg (not_not_intro hgen)

theorem finArrival_stray (h : ∀ x, mget (placePsn s p p.len true).mt.rdv (bits (payWord p 1) 38 26 % 2 ^ 16) = some x →
      x.gen ≠ bits (payWord p 1) 38 26 / 2 ^ 16) :
    finArrival s p = inc (placePsn s p p.len true) F.mtCnt4StrayFin := by
  simp only [finArrival]
  split
  next x hx => exact if_pos (h x hx)
  next => rfl

end

end Sys2Proof.Machine
end

section
/-!
SUPPORT. Matching descriptors (R279, R282, R296, R298, R457, R460 to R462): the start of a WQ's next descriptor, and what decides among the
cases of a RECV, a PROBE and a CANCEL.
-/

namespace Sys2Proof.Machine

/-! ### The start of a descriptor -/

theorem startDesc_starts {s : State} {now hp wq op : Nat} {w : Wq} {d : List Word} {sel : Nat → Bool}
    {f : State → Nat → Wq → List Word → State} (h : Starts s now hp wq w d op) (hsel : sel op = true) :
    startDesc (atTime s now) hp wq sel f = f (atTime s now) (qKey hp wq) w d := by
  obtain ⟨hnext, hruns, rfl⟩ := h
  simp only [startDesc, hnext, hruns, hsel, Bool.and_self, if_true]

section
variable {s : State} {now hp wq : Nat} {w : Wq} {d : List Word}

theorem exec_descRecv (h : Starts s now hp wq w d 4) :
    exec (.descRecv now hp wq) s = .next (settled s (descRecv (atTime s now) (qKey hp wq) w d)) :=
  congrArg (done s) (startDesc_starts h rfl)

theorem exec_descProbe (h : Starts s now hp wq w d 5) :
    exec (.descProbe now hp wq) s = .next (settled s (descProbe (atTime s now) (qKey hp wq) w d)) :=
  congrArg (done s) (startDesc_starts h rfl)

theorem exec_descCancel (h : Starts s now hp wq w d 6) :
    exec (.descCancel now hp wq) s = .next (settled s (descCancel (atTime s now) (qKey hp wq) w d)) :=
  congrArg (done s) (startDesc_starts h rfl)

end

section
variable (s : State) (k : Nat) (w : Wq) (d : List Word) {ok bad : Bool} (go : State → State)

theorem judged_wrongFields (h : ok = false ∨ bad = true) : judged s k w d (badField (!ok || bad)) go = descFails s k w d 22 := by
  have hbad : (!ok || bad) = true := by rcases h with rfl | rfl <;> simp
  rw [hbad]
  rfl

theorem judged_rightFields (hok : ok = true) (hbad : bad = false) : judged s k w d (badField (!ok || bad)) go = go s := by
  rw [hok, hbad]
  rfl

end

/-! ### RECV -/

/-- With an overflow entry of its EC, or without room on the die, a receive is not posted on the die (R279). -/
theorem not_onDie {s : State} {ec : Nat} (h : overflowOf s ec ≠ [] ∨ 32768 ≤ onDieCount s) :
    ((overflowOf s ec).isEmpty && decide (onDieCount s < 32768)) = false := by
  rcases h with h | h <;> simp [h]

section
variable {s : State} {w : Wq} {d : List Word} (k : Nat)

theorem descRecv_wrongFields (h : wordsOk d wCommon (mask 38 0) (mask 15 0) allBits allBits allBits 0 = false ∨ lenBad d = true) :
    descRecv s k w d = descFails s k w d 22 := judged_wrongFields s k w d _ h

section
variable (hok : wordsOk d wCommon (mask 38 0) (mask 15 0) allBits allBits allBits 0 = true) (hlen : lenBad d = false)
include hok hlen

theorem descRecv_unexpected {id : Nat} {u : Unexp}
    (hf : findUnexp s w.ec (dword d 3) (dword d 4) (dword d 6) (bitAt (dword d 2) 38) (dDev d) (dEc d) = some (id, u)) :
    descRecv s k w d = takeUnexp (takeDesc s k w) (recvOf k w d true) id u := by
  rw [descRecv, judged_rightFields s k w d _ hok hlen, hf]

variable (hf : findUnexp s w.ec (dword d 3) (dword d 4) (dword d 6) (bitAt (dword d 2) 38) (dDev d) (dEc d) = none)
include hf

theorem descRecv_onDie (ho : overflowOf s w.ec = []) (hn : onDieCount s < 32768) :
    descRecv s k w d = postRecv (takeDesc s k w) (recvOf k w d true) := by
  rw [descRecv, judged_rightFields s k w d _ hok hlen, hf]
  simp only [ho, decide_eq_true hn, List.isEmpty_nil, Bool.and_self, Bool.not_true, Bool.false_and, Bool.false_eq_true, if_false]

variable (ho : overflowOf s w.ec ≠ [] ∨ 32768 ≤ onDieCount s)
include ho

theorem descRecv_overflow (hn : ovfCount s < 33554432) : descRecv s k w d = postRecv (takeDesc s k w) (recvOf k w d false) := by
  rw [descRecv, judged_rightFields s k w d _ hok hlen, hf]
  simp only [not_onDie ho, decide_eq_false (Nat.not_le.mpr hn), Bool.and_false, Bool.false_eq_true, if_false]

theorem descRecv_overflowFull (hn : 33554432 ≤ ovfCount s) : descRecv s k w d = mtEvent (descFails s k w d 23) w.ec 0x23 := by
  rw [descRecv, judged_rightFields s k w d _ hok hlen, hf]
  simp only [not_onDie ho, decide_eq_true hn, Bool.not_false, Bool.and_self, if_true]

end

/-! ### PROBE -/

theorem descProbe_blocked (hb : rcqBlocked s w.ec = true) : descProbe s k w d = s := if_pos hb

section
variable (hb : rcqBlocked s w.ec = false)
include hb

theorem descProbe_wrongFields (h : wordsOk d wCommon (mask 38 0) (mask 15 0) allBits 0 allBits 0 = false ∨ lenBad d = true) :
    descProbe s k w d = descFails s k w d 22 := by
  rw [descProbe, hb, if_neg Bool.false_ne_true, judged_wrongFields s k w d _ h]

variable (hok : wordsOk d wCommon (mask 38 0) (mask 15 0) allBits 0 allBits 0 = true) (hlen : lenBad d = false)
include hok hlen

theorem descProbe_found {id : Nat} {u : Unexp}
    (hf : findUnexp s w.ec (dword d 3) (dword d 4) (dword d 6) (bitAt (dword d 2) 38) (dDev d) (dEc d) = some (id, u)) :
    descProbe s k w d =
      descDone (takeDesc s k w) (originOf k w d) 5 0 0 u.dataLen u.bits (u.src % 2 ^ 18 + u.srcEc % 2 ^ 20 * 2 ^ 18) := by
  rw [descProbe, hb, if_neg Bool.false_ne_true, judged_rightFields s k w d _ hok hlen, hf]

theorem descProbe_notFound
    (hf : findUnexp s w.ec (dword d 3) (dword d 4) (dword d 6) (bitAt (dword d 2) 38) (dDev d) (dEc d) = none) :
    descProbe s k w d = descDone (takeDesc s k w) (originOf k w d) 6 0 0 0 0 0 := by
  rw [descProbe, hb, if_neg Bool.false_ne_true, judged_rightFields s k w d _ hok hlen, hf]

end

/-! ### CANCEL -/

theorem descCancel_wrongFields (h : wordsOk d wCommon allBits 0 0 0 0 0 = false ∨ lenBad d = true) :
    descCancel s k w d = descFails s k w d 22 := judged_wrongFields s k w d _ h

section
variable (hok : wordsOk d wCommon allBits 0 0 0 0 0 = true) (hlen : lenBad d = false)
include hok hlen

theorem descCancel_found {id : Nat} {r : Recv}
    (hf : ((unmatched s).find? fun e => e.2.ec == w.ec && tagged e.2 (dword d 2)) = some (id, r)) :
    descCancel s k w d = descOk (leftList (endRecv s id r 2 0 0) r) k w d 0 := by
  rw [descCancel, judged_rightFields s k w d _ hok hlen, hf]

theorem descCancel_notFound (hf : ((unmatched s).find? fun e => e.2.ec == w.ec && tagged e.2 (dword d 2)) = none) :
    descCancel s k w d = descDone (takeDesc s k w) (originOf k w d) 7 0 0 0 0 0 := by
  rw [descCancel, judged_rightFields s k w d _ hok hlen, hf]

end

end

end Sys2Proof.Machine
end

section
/-!
The obligations of the chapter on message matching.
-/

namespace Sys2Proof.Machine

/-- Settles O23: a SEND's packet by whether it is PSN 0 and where the message has been put, an RTS by the posted receive that it matches,
a FIN by the entry that its tag names. -/
theorem messageRequestsComplete : Obligations.MessageRequestsComplete := by
  unfold Obligations.MessageRequestsComplete
  refine ⟨fun s now u p t k r id x hop hpsn hr hplace hf hb => ?firstPosted,
    fun s now u p t k r id x hop hpsn hr hplace hf hb => ?firstBlocked, fun s now u p t k r hop hpsn hr hplace hf hu => ?firstUnexpected,
    fun s now u p t k r hop hpsn hr hplace hf hu => ?firstFull, fun s now u p t k r id x hop hr hplace hx hb => ?laterMatched,
    fun s now u p t k r id x hop hr hplace hx he => ?laterUnexpected, fun s now u p t k r hop hpsn hr hplace hu => ?beforeFirst,
    fun s now u p h hop hh hx => ?uncorrectable, fun s now u p t k r id x hop hfin hr hf hb => ?rtsPosted,
    fun s now u p t k r hop hfin hr hf hu => ?rtsUnexpected, fun s now u p t k r hop hfin hr hf hu => ?rtsFull,
    fun s now u p t k r x hop hfin hr hx hgen => ?finEntry, fun s now u p t k r hop hfin hr hx => ?finStray⟩
  case firstPosted => rw [exec_sendArrived_first u hr hop hpsn hplace, sendFirst_posted hf hb]; rfl
  case firstBlocked => rw [exec_sendArrived_first u hr hop hpsn hplace, sendFirst_posted_blocked hf hb]
  case firstUnexpected => rw [exec_sendArrived_first u hr hop hpsn hplace, sendFirst_unexpected hf hu]; rfl
  case firstFull => rw [exec_sendArrived_first u hr hop hpsn hplace, sendFirst_unexpectedFull hf hu]
  case laterMatched => rw [exec_sendArrived_later u hr hop (by simp [hplace]), hplace, sendLater_matched hx hb]
  case laterUnexpected => rw [exec_sendArrived_later u hr hop (by simp [hplace]), hplace, sendLater_unexpected hx he]
  case beforeFirst => rw [exec_sendArrived_later u hr hop (by simp [hpsn]), hplace, sendLater_beforeFirst hu]
  case uncorrectable => rw [exec_sendArrived s now u hop, takeRequest_uncorrectable (s := atTime s now) u h hh hx]
  case rtsPosted => rw [exec_sendRtsArrived_record u hr hop hfin, rtsArrival_posted hf hb]; rfl
  case rtsUnexpected => rw [exec_sendRtsArrived_record u hr hop hfin, rtsArrival_unexpected hf hu]; rfl
  case rtsFull => rw [exec_sendRtsArrived_record u hr hop hfin, rtsArrival_unexpectedFull hf hu]
  case finEntry => rw [exec_finArrived_record u hr hop hfin, finArrival_entry hx hgen]; rfl
  case finStray => rw [exec_finArrived_record u hr hop hfin, finArrival_stray hx]

/-- Settles O35: a RECV by the unexpected arrival found for it, else by the room of the lists; a PROBE by the receive CQ and the arrival
found; a CANCEL by the receive with its tag. -/
theorem matchingDescriptorsComplete : Obligations.MatchingDescriptorsComplete := by
  unfold Obligations.MatchingDescriptorsComplete
  refine ⟨fun s now hp wq w d t k id u ht hk hs hok hlen hf => ?recvTakes,
    fun s now hp wq w d t k ht hk hs hok hlen hf ho hn => ?recvOnDie,
    fun s now hp wq w d t k ht hk hs hok hlen hf ho hn => ?recvOverflow, fun s now hp wq w d t k ht hk hs hok hlen hf ho hn => ?recvFull,
    fun s now hp wq w d t k ht hk hs h => ?recvWrong, fun s now hp wq w d hs hb => ?probeWaits,
    fun s now hp wq w d t k ht hk hs hb h => ?probeWrong, fun s now hp wq w d t k ht hk hs h => ?cancelWrong,
    fun s now hp wq w d t k id u ht hk hs hb hok hlen hf => ?probeFound, fun s now hp wq w d t k ht hk hs hb hok hlen hf => ?probeNotFound,
    fun s now hp wq w d t k id r ht hk hs hok hlen hf => ?cancelFound, fun s now hp wq w d t k ht hk hs hok hlen hf => ?cancelNotFound⟩
  case probeWaits => rw [exec_descProbe hs, descProbe_blocked _ hb]
  all_goals subst ht hk
  case recvTakes => rw [exec_descRecv hs, descRecv_unexpected _ hok hlen hf]
  case recvOnDie => rw [exec_descRecv hs, descRecv_onDie _ hok hlen hf ho hn]; rfl
  case recvOverflow => rw [exec_descRecv hs, descRecv_overflow _ hok hlen hf ho hn]; rfl
  case recvFull => rw [exec_descRecv hs, descRecv_overflowFull _ hok hlen hf ho hn]
  case recvWrong => rw [exec_descRecv hs, descRecv_wrongFields _ h]
  case probeWrong => rw [exec_descProbe hs, descProbe_wrongFields _ hb h]
  case probeFound => rw [exec_descProbe hs, descProbe_found _ hb hok hlen hf]
  case probeNotFound => rw [exec_descProbe hs, descProbe_notFound _ hb hok hlen hf]
  case cancelWrong => rw [exec_descCancel hs, descCancel_wrongFields _ h]
  case cancelFound => rw [exec_descCancel hs, descCancel_found _ hok hlen hf]; rfl
  case cancelNotFound => rw [exec_descCancel hs, descCancel_notFound _ hok hlen hf]

end Sys2Proof.Machine
end

section
/-!
SUPPORT. Writes of XL_INVAL_CMD and XL_DOM (R303, R317, R322): the way of each to its own operation behind the gate, what that operation
takes of a writer, and what it refuses.
-/

namespace Sys2Proof.Machine

/-! ### What the gate keeps of translation, and who writes -/

/-- A writer that is PF0 of no port is another function or the management controller. -/
theorem otherWriter_cases {who : Who} (h : ∀ hp, who ≠ .fn hp 0) : who = .mgmt ∨ ∃ hp n, who = .fn hp (n + 1) := by
  cases who with
  | mgmt => exact .inl rfl
  | fn hp fn =>
    cases fn with
    | zero => exact absurd rfl (h hp)
    | succ n => exact .inr ⟨hp, n, rfl⟩

theorem Entry.xl_eq {t s : State} (h : Entry t s) : t.xl = s.xl := by
  have hs : t = { s with csr := t.csr } := h.same
  exact (congrArg State.xl hs :)

/-- A field of an XL_DOM entry reads the same behind the gate. -/
theorem Entry.xlDom_eq {t s : State} (h : Entry t s) {g : Fld} (haddr : g.addr = 0x06008000) (hstride : g.stride = 8) {d : Nat}
    (hd : d < 4096) : rd t g d = rd s g d := by
  have hkey : g.key d = 0x06008000 + 8 * d := by rw [Fld.key, haddr, hstride]
  exact h.raw g d 0 (by omega) (by omega) (by omega)

/-! ### XL_INVAL_CMD -/

theorem exec_xlInvalCmdWrite (who : Who) (width : Nat) (val : Word) (s : State) :
    exec (.xlInvalCmdWrite who width val) s = .next (settled s (csrWriteBy s who 0x06000108 width val noEnv)) := rfl

theorem blockWrite_xlInvalCmd (t : State) (who : Who) (w : Word) (env : CsrEnv) :
    blockWrite t who 0x06000108 w env = invalCmd t who w := by
  have hpage : pageOf 0x06000108 = none := pageOf_of_lt (by omega)
  simp only [blockWrite, hpage]
  rfl

/-- A served write of XL_INVAL_CMD reaches invalCmd. -/
theorem csrWriteBy_xlInvalCmd {s : State} {who : Who} {width : Nat} {w : Word} {f : State → State} (h : Served s who) (hw : 64 ≤ width)
    (hl : wordLegal (fieldsAt 0x06000108) w = true) (hf : ∀ t, Entry t s → invalCmd t who w = f t) :
    csrWriteBy s who 0x06000108 width w noEnv = viaGate s who f :=
  csrWriteBy_block s who 0x06000108 width w noEnv f h hw (by decide +kernel) (.inr hl) fun t ht => by
    rw [blockWrite_xlInvalCmd, hf t ht]

/-- The commands of XL_INVAL_CMD that are pending (R317). -/
def invalsPending (s : State) : Nat := mcount s.xl.invals fun _ v => v.seq.isSome

theorem Entry.invalsPending_eq {t s : State} (h : Entry t s) : invalsPending t = invalsPending s := by
  simp only [invalsPending, h.xl_eq]

/-- PAGES is none or too many for scope PAGES (R317). -/
def PagesWrong (w : Word) : Prop := wordGet w 0 2 = 1 ∧ (wordGet w 30 17 = 0 ∨ 65536 < wordGet w 30 17)

theorem not_pagesWrong {w : Word} (h : wordGet w 0 2 ≠ 1 ∨ (1 ≤ wordGet w 30 17 ∧ wordGet w 30 17 ≤ 65536)) : ¬ PagesWrong w := by
  rintro ⟨hscope, hpages⟩
  omega

/-- The check of R317 as invalCmd makes it. -/
theorem invalCmd_check_iff (s : State) (w : Word) :
    (decide (16 ≤ invalsPending s) || (wordGet w 0 2 == 1 && (wordGet w 30 17 == 0 || decide (65536 < wordGet w 30 17)))) = true
      ↔ 16 ≤ invalsPending s ∨ PagesWrong w := by
  simp [PagesWrong]

theorem invalCmd_accepted {s : State} (hp : Nat) {w : Word} (hn : invalsPending s < 16) (hpages : ¬ PagesWrong w) :
    invalCmd s (.fn hp 0) w =
      startInval (wr s F.xlInvalStatIssued ((rd s F.xlInvalStatIssued + 1) % 2 ^ 32)) (some ((rd s F.xlInvalStatIssued + 1) % 2 ^ 32))
        (wordGet w 0 2) (wordGet w 16 12) (rd s F.xlInvalAddrDva) (wordGet w 30 17) none :=
  if_neg (mt (invalCmd_check_iff s w).mp (not_or.mpr ⟨Nat.not_le.mpr hn, hpages⟩))

theorem invalCmd_refused {s : State} (hp : Nat) {w : Word} (h : 16 ≤ invalsPending s ∨ PagesWrong w) :
    invalCmd s (.fn hp 0) w = refuseWrite s := if_pos ((invalCmd_check_iff s w).mpr h)

/-- XL_INVAL_CMD takes writes of PF0 only (R317). -/
theorem invalCmd_otherWriter (s : State) {who : Who} (w : Word) (h : ∀ hp, who ≠ .fn hp 0) : invalCmd s who w = refuseWrite s := by
  rcases otherWriter_cases h with rfl | ⟨hp, n, rfl⟩ <;> rfl

/-! ### XL_DOM -/

/-- The offset of a domain's XL_DOM. -/
def xlDomKey (d : Nat) : Nat := F.xlDomValid.key d

theorem xlDomKey_eq (d : Nat) : xlDomKey d = 0x06008000 + 8 * d := rfl

theorem exec_xlDomWrite {d : Nat} (who : Who) (width : Nat) (val : Word) (s : State) (h : d < 4096) :
    exec (.xlDomWrite who d width val) s = .next (settled s (csrWriteBy s who (xlDomKey d) width val noEnv)) :=
  congrArg (done s) (if_pos h)

theorem regsAt_xlDomKey {d : Nat} (h : d < 4096) : regsAt (xlDomKey d) = blockXl := by
  have hkey := xlDomKey_eq d
  unfold regsAt
  iterate 12 rw [if_neg (by omega)]
  exact if_pos (by omega)

theorem regFind_xlDomKey {d : Nat} (h : d < 4096) : regFind (xlDomKey d) = some R.xlDom := by
  have hkey := xlDomKey_eq d
  rw [regFind, regsAt_xlDomKey h, hkey, List.find?_eq_some_iff_append]
  refine ⟨?here, [R.xlInvalAddr, R.xlInvalCmd, R.xlInvalStat, R.xlFaultLast, R.xlFaultInfo, R.xlWinBase, R.xlWinLimit],
    [R.xlCnt0, R.xlCnt1, R.xlCnt2], rfl, ?before⟩
  case here =>
    simp [R.xlDom]
    omega
  case before =>
    simp [R.xlInvalAddr, R.xlInvalCmd, R.xlInvalStat, R.xlFaultLast, R.xlFaultInfo, R.xlWinBase, R.xlWinLimit]
    omega

theorem takesWrites_xlDomKey {d : Nat} (h : d < 4096) : takesWrites (xlDomKey d) = true := by
  have hr := regFind_xlDomKey h
  refine takesWrites_of_not_rwt (by rw [hr]; rfl) ?_
  rw [isRwt, fieldsAt_of_regFind hr]
  decide

theorem blockWrite_xlDom (t : State) (who : Who) {d : Nat} (w : Word) (env : CsrEnv) (h : d < 4096) :
    blockWrite t who (xlDomKey d) w env = domWrite t who d w := by
  have hkey := xlDomKey_eq d
  have hpage : pageOf (xlDomKey d) = none := pageOf_of_lt (by omega)
  have hdom : (xlDomKey d - 0x06008000) / 8 = d := by omega
  simp only [blockWrite, hpage]
  iterate 11 rw [if_neg (by omega)]
  rw [if_pos (by omega), hdom]

/-- A served write of XL_DOM reaches domWrite. -/
theorem csrWriteBy_xlDom {s : State} {who : Who} {width d : Nat} {w : Word} {f : State → State} (h : Served s who) (hw : 64 ≤ width)
    (hd : d < 4096) (hl : wordLegal (fieldsAt (xlDomKey d)) w = true) (hf : ∀ t, Entry t s → domWrite t who d w = f t) :
    csrWriteBy s who (xlDomKey d) width w noEnv = viaGate s who f := by
  have hkey := xlDomKey_eq d
  refine csrWriteBy_block s who (xlDomKey d) width w noEnv f h hw ?place (.inr hl) fun t ht => ?effect
  case place =>
    simp only [takesWrites_xlDomKey hd, Bool.true_and, Bool.and_eq_true, beq_iff_eq, decide_eq_true_eq]
    omega
  case effect => rw [blockWrite_xlDom t who w noEnv hd, hf t ht]

/-- A word moves a domain's HP, FUNC or ROOT (R322). -/
def MovesDomain (s : State) (d : Nat) (w : Word) : Prop :=
  wordGet w 62 1 ≠ rd s F.xlDomHp d ∨ wordGet w 54 8 ≠ rd s F.xlDomFunc d ∨ wordGet w 12 40 ≠ rd s F.xlDomRoot d

/-- What XL_DOM refuses of PF0 of a port (R303, R322): a valid entry of the other port, VALID for the other port, a valid entry moved,
VALID while a sweep runs. -/
def DomWriteWrong (s : State) (p d : Nat) (w : Word) : Prop :=
  (rdb s F.xlDomValid d = true ∧ rd s F.xlDomHp d ≠ p)
    ∨ (wordGet w 63 1 = 1 ∧ (wordGet w 62 1 ≠ p ∨ rdb s F.xlDomSweep d = true))
    ∨ (rdb s F.xlDomValid d = true ∧ MovesDomain s d w)

/-- The gate leaves a domain's entry, and so what is wrong with a write of it. -/
theorem Entry.domWriteWrong_iff {t s : State} (h : Entry t s) (p : Nat) {d : Nat} (w : Word) (hd : d < 4096) :
    DomWriteWrong t p d w ↔ DomWriteWrong s p d w := by
  simp only [DomWriteWrong, MovesDomain, rdb, h.xlDom_eq (g := F.xlDomValid) rfl rfl hd, h.xlDom_eq (g := F.xlDomHp) rfl rfl hd,
    h.xlDom_eq (g := F.xlDomFunc) rfl rfl hd, h.xlDom_eq (g := F.xlDomRoot) rfl rfl hd, h.xlDom_eq (g := F.xlDomSweep) rfl rfl hd]

/-- The checks of R303 and R322 as domWrite makes them. -/
theorem domWriteWrong_iff (s : State) (p d : Nat) (w : Word) :
    DomWriteWrong s p d w ↔
      (!(!rdb s F.xlDomValid d || rd s F.xlDomHp d == p) || (wordGet w 63 1 == 1 && wordGet w 62 1 != p)
        || (rdb s F.xlDomValid d && (wordGet w 62 1 != rd s F.xlDomHp d || wordGet w 54 8 != rd s F.xlDomFunc d
          || wordGet w 12 40 != rd s F.xlDomRoot d))
        || (wordGet w 63 1 == 1 && rdb s F.xlDomSweep d)) = true := by
  simp only [DomWriteWrong, MovesDomain, Bool.or_eq_true, Bool.and_eq_true, Bool.not_eq_true', Bool.or_eq_false_iff, beq_iff_eq,
    bne_iff_ne, beq_eq_false_iff_ne, Bool.not_eq_false']
  tauto

/-- What XL_DOM stores of a word (R9). -/
def domStored (t : State) (d : Nat) (w : Word) : State :=
  csrPut t (xlDomKey d) (wordWrite (locked t (xlDomKey d)) (fieldsAt (xlDomKey d)) (csrRaw t (xlDomKey d)) w)

/-- PF0 changes an entry when nothing is wrong with the write, and clearing VALID starts a sweep (R322). -/
theorem domWrite_taken {s : State} {p d : Nat} {w : Word} (hd : d < 4096) (hl : wordLegal (fieldsAt (xlDomKey d)) w = true)
    (h : ¬ DomWriteWrong s p d w) :
    domWrite s (.fn p 0) d w =
      if rdb s F.xlDomValid d = true ∧ wordGet w 63 1 = 0 then sweepDomain (domStored s d w) d else domStored s d w := by
  have hstored : csrPlain s (xlDomKey d) w = domStored s d w := csrPlain_legal s (by rw [regFind_xlDomKey hd]; rfl) hl
  have hbit : wordGet w 63 1 < 2 := Nat.mod_lt _ (by decide)
  have hclears : (rdb s F.xlDomValid d && !(wordGet w 63 1 == 1)) = true ↔ rdb s F.xlDomValid d = true ∧ wordGet w 63 1 = 0 := by
    simp only [Bool.and_eq_true, Bool.not_eq_true', beq_eq_false_iff_ne]
    exact and_congr_right fun _ => by omega
  rw [← hstored, ← if_congr hclears rfl rfl]
  exact if_neg (mt (domWriteWrong_iff s p d w).mpr h)

theorem domWrite_refused {s : State} {p d : Nat} {w : Word} (h : DomWriteWrong s p d w) : domWrite s (.fn p 0) d w = refuseWrite s :=
  if_pos ((domWriteWrong_iff s p d w).mp h)

/-- XL_DOM takes writes of PF0 only (R303). -/
theorem domWrite_otherWriter (s : State) {who : Who} (d : Nat) (w : Word) (h : ∀ hp, who ≠ .fn hp 0) :
    domWrite s who d w = refuseWrite s := by
  rcases otherWriter_cases h with rfl | ⟨hp, n, rfl⟩ <;> rfl

end Sys2Proof.Machine
end

section
/-!
SUPPORT. Ends of invalidations, sweeps and walks, and stores of XL_PKRR (R309, R313, R318, R322): what decides among the cases of each.
-/

namespace Sys2Proof.Machine

/-! ### Invalidations and sweeps -/

theorem exec_xlInvalComplete (s : State) (now id : Nat) :
    exec (.xlInvalComplete now id) s = .next (settled s (invalDone (atTime s now) id)) := rfl

section
variable {s : State} {id : Nat} {v : Inval} (h : mget s.xl.invals id = some v)
include h

theorem invalDone_waits (hr : invalReady s id v = false) : invalDone s id = s := by simp [invalDone, h, hr]

theorem invalDone_command {q : Nat} (hq : v.seq = some q) (ho : v.origin = none) (hr : invalReady s id v = true) :
    invalDone s id = wr (setXl s fun x => { x with invals := mdel x.invals id }) F.xlInvalStatDone q := by
  simp [invalDone, h, hr, hq, ho]

theorem invalDone_descriptor {o : Origin} (hq : v.seq = none) (ho : v.origin = some o) (hr : invalReady s id v = true) :
    invalDone s id = descDone (setXl s fun x => { x with invals := mdel x.invals id }) o 0 0 0 0 0 0 := by
  simp [invalDone, h, hr, hq, ho]

end

theorem exec_domainSweepDone (s : State) (d : Nat) : exec (.domainSweepDone d) s = .next (settled s (sweepDone s d)) := rfl

theorem sweepDone_running {s : State} {d : Nat} (h : d ∈ s.xl.sweeps) :
    sweepDone s d = wrb (setXl s fun x => { x with sweeps := x.sweeps.erase d }) F.xlDomSweep false d :=
  if_pos (List.contains_iff_mem.mpr h)

/-! ### Walks -/

theorem exec_pageWalkDone (s : State) (now id : Nat) (reads : List WalkRead) :
    exec (.pageWalkDone now id reads) s = .next (settled s (walkDone (atTime s now) id reads)) := rfl

theorem walkDone_running {s : State} {id : Nat} {w : Walk} (reads : List WalkRead) (h : mget s.xl.walks id = some w)
    (hr : w.running = true) : walkDone s id reads = walkEnded s id w (walk s w.dom reads) := by
  simp only [walkDone, h, hr, if_true]

/-! ### XL_PKRR -/

theorem exec_xlPkrrWrite (s : State) (hp fn page width : Nat) (val : Word) :
    exec (.xlPkrrWrite hp fn page width val) s = .next (settled s (pkrrStore s hp fn page width val)) := rfl

/-- A store that is not 64 bits wide has no effect (R313). -/
theorem pkrrStore_narrow (s : State) (hp fn page : Nat) {width : Nat} (val : Word) (h : width ≠ 64) :
    pkrrStore s hp fn page width val = s :=
  if_pos (by rw [bne_iff_ne.mpr h, Bool.or_true])

theorem pkrrStore_bound {s : State} {hp fn page k : Nat} {w : Wq} {c : EcCtx} (val : Word) (hs : fnSilent s hp fn = false)
    (he : fnEnabled s hp fn = true) (hk : pageWq s hp fn page = some k) (hw : mget s.hi.wqs k = some w) (hc : ctxOf s w.ec = some c) :
    pkrrStore s hp fn page 64 val = setCtx s w.ec { c with pkrr := val.toNat % 2 ^ 32 } := by
  simp [pkrrStore, hs, he, hk, hw, hc]

end Sys2Proof.Machine
end

section
/-!
The obligations of the chapter on translation.
-/

namespace Sys2Proof.Machine

/-- Settles O29: the writes of XL_INVAL_CMD and XL_DOM by what their checks find behind the gate; an invalidation, a sweep and a walk by
what ends it; a store of XL_PKRR by its width and its page's WQ. -/
theorem translationCommandsComplete : Obligations.TranslationCommandsComplete := by
  unfold Obligations.TranslationCommandsComplete
  refine ⟨fun s hp width val h hw hl hn hpages => ?inval, fun s who width val h hw hl hwrong => ?invalRefused,
    fun s now id v q hv hq ho hr => ?command, fun s now id v o hv hq ho hr => ?descriptor, fun s now id v hv hr => ?notReady,
    fun s hp d width val h hw hd hl hport hvalid hstays => ?dom, fun s who d width val h hw hd hl hwrong => ?domRefused,
    fun s d hd => ?sweep, fun s now id reads w leaf hw hr hend => ?leaf, fun s now id reads w kind level hw hr hend => ?fault,
    fun s hp fn page val k w c hs he hk hw hc => ?pkrr, fun s hp fn page width val hw => ?pkrrNarrow⟩
  case inval =>
    rw [exec_xlInvalCmdWrite, csrWriteBy_xlInvalCmd h hw hl fun t ht =>
      invalCmd_accepted hp (ht.invalsPending_eq.trans_lt hn) (not_pagesWrong hpages)]
  case invalRefused =>
    rw [exec_xlInvalCmdWrite, csrWriteBy_xlInvalCmd h hw hl fun t ht => ?_]
    by_cases hwho : ∀ hp, who ≠ .fn hp 0
    · exact invalCmd_otherWriter t val hwho
    · obtain ⟨hp, rfl⟩ := not_forall_not.mp hwho
      refine invalCmd_refused hp ?_
      rw [ht.invalsPending_eq]
      exact hwrong.resolve_left hwho
  case command => rw [exec_xlInvalComplete, invalDone_command (s := atTime s now) hv hq ho hr]
  case descriptor => rw [exec_xlInvalComplete, invalDone_descriptor (s := atTime s now) hv hq ho hr]
  case notReady => rw [exec_xlInvalComplete, invalDone_waits (s := atTime s now) hv hr]
  case dom =>
    have hok : ¬ DomWriteWrong s hp d val := by
      rintro (⟨hv, hne⟩ | ⟨hset, hbad⟩ | ⟨hv, hmoves⟩)
      · exact hne (hport.resolve_left (ne_false_of_eq_true hv))
      · obtain ⟨hself, hsweep⟩ := hvalid hset
        exact hbad.elim (· hself) (ne_true_of_eq_false hsweep)
      · obtain ⟨hhp, hfunc, hroot⟩ := hstays hv
        rcases hmoves with hne | hne | hne <;> contradiction
    rw [exec_xlDomWrite _ _ _ _ hd, csrWriteBy_xlDom h hw hd hl fun t ht =>
      domWrite_taken hd hl (mt (ht.domWriteWrong_iff hp val hd).mp hok)]
    rfl
  case domRefused =>
    rw [exec_xlDomWrite _ _ _ _ hd, csrWriteBy_xlDom h hw hd hl fun t ht => ?_]
    by_cases hwho : ∀ hp, who ≠ .fn hp 0
    · exact domWrite_otherWriter t d val hwho
    · obtain ⟨hp, rfl⟩ := not_forall_not.mp hwho
      refine domWrite_refused ((ht.domWriteWrong_iff hp val hd).mpr ?_)
      rcases hwrong.resolve_left hwho with ⟨p, hp', hother⟩ | ⟨p, hp', hset⟩ | hmoves
      · cases hp'; exact .inl hother
      · cases hp'; exact .inr (.inl hset)
      · exact .inr (.inr hmoves)
  case sweep => rw [exec_domainSweepDone, sweepDone_running hd]
  case leaf => rw [exec_pageWalkDone, walkDone_running (s := atTime s now) reads hw hr, hend]; rfl
  case fault => rw [exec_pageWalkDone, walkDone_running (s := atTime s now) reads hw hr, hend]; rfl
  case pkrr => rw [exec_xlPkrrWrite, pkrrStore_bound val hs he hk hw hc]
  case pkrrNarrow => rw [exec_xlPkrrWrite, pkrrStore_narrow s hp fn page val hw]

end Sys2Proof.Machine
end

section
/-!
SUPPORT. Collective, exchange and lock packets (R388, R395, R401, R402, R405, R415, R416, R437): a packet taken in in RUN reaches the
operation of its opcode, and what decides among the cases of a collective packet, a batch and a credit.
-/

namespace Sys2Proof.Machine

/-! ### Packets taken in, in RUN -/

/-- Packet p, taken in from state s at time `now`, finds the device in RUN outside a TEST entry, in state t (R26, R86). -/
structure TakenInRun (s : State) (now : Nat) (p : Pkt) (t : State) : Prop where
  taken : TakenIn s now p t
  run : baseOf t = 2
  noTest : enteringTest t = false

section
variable {s t : State} {now : Nat} {p : Pkt} (u : Nat) (ht : TakenInRun s now p t)
include ht

theorem TakenInRun.holdOn_eq : holdOn (atTime s now) = false := ht.taken.1

/-- A collective packet goes to the operation of collective packets. -/
theorem handPacket_clArrival (hop : p.op = opClUp ∨ p.op = opClDown) : handPacket (atTime s now) u p = clArrival (atTime s now) p := by
  rw [handPacket_outside_hold u p ht.holdOn_eq]
  rcases hop with h | h <;> simp only [takePacket, h] <;> rfl

theorem handPacket_lockNotice (hop : p.op = opLockNotice) :
    handPacket (atTime s now) u p = event t (bits (payloadWord p 0) 21 1) (bits (payloadWord p 0) 13 8)
      (0x60 + bits (payloadWord p 0) 8 36 * 2 ^ 8) (payloadWord p 1) := by
  have htake (v : State) : takePacket v u p = noticeArrival v p := by simp only [takePacket, hop]; rfl
  obtain ⟨⟨_, hin, hd⟩, hb, he⟩ := id ht
  rw [handPacket_outside_hold u p ht.holdOn_eq, htake, noticeArrival, ← hin]
  simp [hd, hb, he]

theorem handPacket_exBatch (hop : p.op = opExBatch) :
    handPacket (atTime s now) u p = takeBatch (work t 3 (p.key % 256) p.tc) p := by
  have htake (v : State) : takePacket v u p = batchArrival v p := by simp only [takePacket, hop]; rfl
  obtain ⟨⟨_, hin, hd⟩, hb, he⟩ := id ht
  rw [handPacket_outside_hold u p ht.holdOn_eq, htake, batchArrival, ← hin]
  simp [hd, hb, he]

theorem handPacket_exCredit (hop : p.op = opExCredit) : handPacket (atTime s now) u p = takeCredit t p := by
  have htake (v : State) : takePacket v u p = creditArrival v p := by simp only [takePacket, hop]; rfl
  obtain ⟨⟨_, hin, hd⟩, hb, he⟩ := id ht
  rw [handPacket_outside_hold u p ht.holdOn_eq, htake, creditArrival, ← hin]
  simp [hd, hb, he]

theorem clArrival_stray (hn : clNeighbour t p = none) : clArrival (atTime s now) p = inc t F.clCnt1Stray := by
  obtain ⟨⟨_, hin, hd⟩, hb, he⟩ := ht
  simp [clArrival, ← hin, hd, hb, he, hn]

/-! #### A packet of a neighbour, by its KIND (R388, Table 13-2) -/

section
variable {g : Nat} {c : Option Nat} (hn : clNeighbour t p = some (g, c))
include hn

theorem clArrival_ack (hk : p.key % 8 = 1) : clArrival (atTime s now) p = clAck t g p := by
  obtain ⟨⟨_, hin, hd⟩, hb, he⟩ := ht
  simp [clArrival, ← hin, hd, hb, he, hn, hk]

theorem clArrival_abort (hk : p.key % 8 = 2) : clArrival (atTime s now) p = clAbort t g p := by
  obtain ⟨⟨_, hin, hd⟩, hb, he⟩ := ht
  simp [clArrival, ← hin, hd, hb, he, hn, hk]

theorem clArrival_busy (hk : p.key % 8 = 3) : clArrival (atTime s now) p = clBusy t g p := by
  obtain ⟨⟨_, hin, hd⟩, hb, he⟩ := ht
  simp [clArrival, ← hin, hd, hb, he, hn, hk]

end

theorem clArrival_child {g i : Nat} (hn : clNeighbour t p = some (g, some i)) (hk : p.key % 8 = 0) :
    clArrival (atTime s now) p = dataUp (pmCount (work t 2 g p.tc) 0x80 g 1 1) g i p := by
  obtain ⟨⟨_, hin, hd⟩, hb, he⟩ := ht
  simp [clArrival, ← hin, hd, hb, he, hn, hk]

theorem clArrival_parent {g : Nat} (hn : clNeighbour t p = some (g, none)) (hk : p.key % 8 = 0) :
    clArrival (atTime s now) p =
      let v := pmCount (work t 2 g p.tc) 0x80 g 1 1
      if rd v F.clGroupState g = 2 then ackColl v p
      else if mhas (grp v g).ops p.msgid then takeDown v g p
      else if seqBehind (rd v F.clGroupOpSeq g) p.msgid < 2 ^ 23 ∧ p.msgid ≠ rd v F.clGroupOpSeq g then ackColl (inc v F.clCnt0Dup) p
      else inc v F.clCnt1Stray := by
  obtain ⟨⟨_, hin, hd⟩, hb, he⟩ := ht
  simp [clArrival, ← hin, hd, hb, he, hn, hk]

end

/-! ### The commands -/

theorem isClKind_iff (p : Pkt) (kind : Nat) : isClKind p kind = true ↔ (p.op = opClUp ∨ p.op = opClDown) ∧ p.key % 8 = kind := by
  simp only [isClKind, Bool.and_eq_true, Bool.or_eq_true, beq_iff_eq]

section
variable (s : State) (now u : Nat) {p : Pkt}

theorem exec_lockNoticeArrived (hop : p.op = opLockNotice) :
    exec (.lockNoticeArrived now u p) s = .next (settled s (handPacket (atTime s now) u p)) := congrArg (done s) (if_pos hop)

theorem exec_clUpArrived (hop : p.op = opClUp) (hk : p.key % 8 = 0) :
    exec (.clUpArrived now u p) s = .next (settled s (handPacket (atTime s now) u p)) := congrArg (done s) (if_pos ⟨hop, .inl hk⟩)

theorem exec_clDownArrived (hop : p.op = opClDown) (hk : p.key % 8 = 0) :
    exec (.clDownArrived now u p) s = .next (settled s (handPacket (atTime s now) u p)) := congrArg (done s) (if_pos ⟨hop, .inl hk⟩)

theorem exec_clAckArrived (h : isClKind p 1 = true) :
    exec (.clAckArrived now u p) s = .next (settled s (handPacket (atTime s now) u p)) := congrArg (done s) (if_pos h)

theorem exec_clAbortArrived (h : isClKind p 2 = true) :
    exec (.clAbortArrived now u p) s = .next (settled s (handPacket (atTime s now) u p)) := congrArg (done s) (if_pos h)

theorem exec_clBusyArrived (h : isClKind p 3 = true) :
    exec (.clBusyArrived now u p) s = .next (settled s (handPacket (atTime s now) u p)) := congrArg (done s) (if_pos h)

theorem exec_exBatchArrived (hop : p.op = opExBatch) :
    exec (.exBatchArrived now u p) s = .next (settled s (handPacket (atTime s now) u p)) := congrArg (done s) (if_pos hop)

theorem exec_exCreditArrived (hop : p.op = opExCredit) :
    exec (.exCreditArrived now u p) s = .next (settled s (handPacket (atTime s now) u p)) := congrArg (done s) (if_pos hop)

end

/-! ### Batches and credits -/

theorem takeBatch_closed {t : State} {p : Pkt}
    (h : 64 ≤ p.key % 256 ∨ rd t F.exJobState (p.key % 256 % 64) ≠ 1 ∨ rd t F.exJobRxEc (p.key % 256 % 64) ≠ p.ec) :
    takeBatch t p = sendCredit (inc t F.exCnt3ClosedRx) (p.key % 256) p.src p.ec p.tc p.msgid 2 {} := if_pos h

theorem takeBatch_unserved {t : State} {p : Pkt} (hj : p.key % 256 < 64) (hst : rd t F.exJobState (p.key % 256) = 1)
    (hec : rd t F.exJobRxEc (p.key % 256) = p.ec) (hs : serving t (rd t F.exJobHp (p.key % 256)) = false) :
    takeBatch t p
      = sendCredit t (p.key % 256) p.src p.ec p.tc p.msgid 3 (mgetD (job t (p.key % 256)).recvs p.src {}) := by
  have hopen : ¬(p.key % 256 ≥ 64 ∨ rd t F.exJobState (p.key % 256) ≠ 1 ∨ rd t F.exJobRxEc (p.key % 256) ≠ p.ec) := by
    simp only [hst, hec, ne_eq, not_true, or_false]
    omega
  simp only [takeBatch, Nat.mod_eq_of_lt hj, if_neg hopen, hs, Bool.not_false, if_true]

/-- A credit CLOSED or FAILED fails the job of anything outstanding (R415). -/
theorem takeCredit_ended {t : State} {p : Pkt} (hj : p.key % 256 < 64) (hst : rd t F.exJobState (p.key % 256) = 1)
    (hc : bits (ofBytes (p.payload.take 8)) 45 3 = 2 ∨ bits (ofBytes (p.payload.take 8)) 45 3 = 3)
    (hout : ((job t (p.key % 256)).batches.isEmpty && (job t (p.key % 256)).sends.isEmpty) = false) :
    takeCredit t p = failJob t (p.key % 256) (if bits (ofBytes (p.payload.take 8)) 45 3 = 2 then 3 else 2) p.src := by
  have hopen : ¬(p.key % 256 ≥ 64 ∨ rd t F.exJobState (p.key % 256) ≠ 1) := by
    simp only [hst, ne_eq, not_true, or_false]
    omega
  simp only [takeCredit, if_neg hopen, if_pos hc, hout, Bool.false_eq_true, if_false]

end Sys2Proof.Machine
end

section
/-!
The obligation about the collective, exchange and lock packets that arrive.
-/

namespace Sys2Proof.Machine

/-- Settles O26: each packet by the operation of its opcode; a collective one by its neighbour and its KIND, a batch and a credit by the
state of their job. -/
theorem collectiveAndExchangeArrivalsComplete : Obligations.CollectiveAndExchangeArrivalsComplete := by
  unfold Obligations.CollectiveAndExchangeArrivalsComplete
  refine ⟨fun s now u p t ht hb he hop => ?notice, fun s now u p t g i ht hb he hop hk hn => ?up,
    fun s now u p t g ht hb he hop hk hn => ?down, fun s now u p t g c ht hb he hk hn => ?ack,
    fun s now u p t g c ht hb he hk hn => ?abort, fun s now u p t g c ht hb he hk hn => ?busy,
    fun s now u p t ht hb he hn => ⟨fun ⟨hop, hk⟩ => ?strayUp, fun ⟨hop, hk⟩ => ?strayDown, fun hk => ?strayAck, fun hk => ?strayAbort,
      fun hk => ?strayBusy⟩,
    fun s now u p t ht hb he hop => ?batch, fun t p => takeBatch_closed, fun t p hj hst hec => takeBatch_unserved hj hst hec,
    fun s now u p t ht hb he hop => ?credit, fun t p status => ?creditEnded⟩
  case notice => rw [exec_lockNoticeArrived s now u hop, handPacket_lockNotice u ⟨ht, hb, he⟩ hop]
  case up => rw [exec_clUpArrived s now u hop hk, handPacket_clArrival u ⟨ht, hb, he⟩ (.inl hop), clArrival_child ⟨ht, hb, he⟩ hn hk]
  case down => rw [exec_clDownArrived s now u hop hk, handPacket_clArrival u ⟨ht, hb, he⟩ (.inr hop), clArrival_parent ⟨ht, hb, he⟩ hn hk]
  case ack =>
    obtain ⟨hop, hkind⟩ := (isClKind_iff p 1).mp hk
    rw [exec_clAckArrived s now u hk, handPacket_clArrival u ⟨ht, hb, he⟩ hop, clArrival_ack ⟨ht, hb, he⟩ hn hkind, clAck]
  case abort =>
    obtain ⟨hop, hkind⟩ := (isClKind_iff p 2).mp hk
    rw [exec_clAbortArrived s now u hk, handPacket_clArrival u ⟨ht, hb, he⟩ hop, clArrival_abort ⟨ht, hb, he⟩ hn hkind, clAbort]
  case busy =>
    obtain ⟨hop, hkind⟩ := (isClKind_iff p 3).mp hk
    rw [exec_clBusyArrived s now u hk, handPacket_clArrival u ⟨ht, hb, he⟩ hop, clArrival_busy ⟨ht, hb, he⟩ hn hkind, clBusy]
  case strayUp => rw [exec_clUpArrived s now u hop hk, handPacket_clArrival u ⟨ht, hb, he⟩ (.inl hop), clArrival_stray ⟨ht, hb, he⟩ hn]
  case strayDown => rw [exec_clDownArrived s now u hop hk, handPacket_clArrival u ⟨ht, hb, he⟩ (.inr hop), clArrival_stray ⟨ht, hb, he⟩ hn]
  case strayAck =>
    rw [exec_clAckArrived s now u hk, handPacket_clArrival u ⟨ht, hb, he⟩ ((isClKind_iff p 1).mp hk).1, clArrival_stray ⟨ht, hb, he⟩ hn]
  case strayAbort =>
    rw [exec_clAbortArrived s now u hk, handPacket_clArrival u ⟨ht, hb, he⟩ ((isClKind_iff p 2).mp hk).1, clArrival_stray ⟨ht, hb, he⟩ hn]
  case strayBusy =>
    rw [exec_clBusyArrived s now u hk, handPacket_clArrival u ⟨ht, hb, he⟩ ((isClKind_iff p 3).mp hk).1, clArrival_stray ⟨ht, hb, he⟩ hn]
  case batch => rw [exec_exBatchArrived s now u hop, handPacket_exBatch u ⟨ht, hb, he⟩ hop]
  case credit => rw [exec_exCreditArrived s now u hop, handPacket_exCredit u ⟨ht, hb, he⟩ hop]
  case creditEnded =>
    intro j hj hst hs hc hout
    subst hs
    exact takeCredit_ended hj hst hc hout

end Sys2Proof.Machine
end

section
/-!
SUPPORT. Requests at the target that their region admits (R94, R249, R337, R431, R434): the way of a PUT, a GET_REQ, an MC_PUT, an ATOMIC
and a LOCK from its arrival to the operation on its translated spans.
-/

namespace Sys2Proof.Machine

/-! ### A request that translates -/

/-- An admitted request whose spans translate is acted on at once (R337 step 7). -/
theorem regionArrival_translated {s t : State} {p : Pkt} {opLen : Nat} {a : Adm} {l : List (Nat × Nat)}
    (h : Translated s p opLen t a l) : regionArrival s p opLen = placeArrival t p a l := by
  obtain ⟨v, hmr, hadm, htr, halign, hempty⟩ := h
  have haligned : ¬(0 < opLen ∧ (match a.spans with | [] => 0 | x :: _ => x.1) % opLen ≠ 0) := by
    rintro ⟨hpos, hoff⟩
    cases hs : a.spans with
    | nil => exact absurd (hempty hs) (by omega)
    | cons x l =>
      rw [hs] at hoff
      exact hoff (halign hpos x (by rw [hs]; rfl))
  simp only [regionArrival, hmr, hadm, Bool.false_eq_true, if_false]
  rw [translateArrival, htr]
  exact if_neg haligned

/-! ### What is done with the spans of a request that goes into no receive -/

section
variable {s : State} {p : Pkt} {a : Adm} (l : List (Nat × Nat)) (ha : a.recv = none)
include ha

theorem placeArrival_put (hop : p.op = opPut) : placeArrival s p a l = placePut s p a l := by
  simp only [placeArrival, ha, hop, if_true]

theorem placeArrival_getReq (hop : p.op = opGetReq) :
    placeArrival s p a l = beginAcc (readPieces s a.hp l) { what := .getRead p, mr := a.mr, hp := a.hp, pages := pagesOf a } := by
  have hput : ¬opGetReq = opPut := by decide
  simp only [placeArrival, ha, hop, hput, if_true, if_false]

theorem placeArrival_mcPut (hop : p.op = opMcPut) :
    placeArrival s p a l
      = beginAcc (writePieces s a.hp l p.payload) { what := .write, mr := a.mr, hp := a.hp, pages := pagesOf a } := by
  have hput : ¬opMcPut = opPut := by decide
  have hget : ¬opMcPut = opGetReq := by decide
  simp only [placeArrival, ha, hop, hput, hget, if_true, if_false]

theorem placeArrival_wordOp (hop : p.op = opAtomic ∨ p.op = opLock) (pa n : Nat) :
    placeArrival s p a ((pa, n) :: l) = queueOp s p a pa := by
  have hput : p.op ≠ opPut := by rcases hop with h | h <;> rw [h] <;> decide
  have hget : p.op ≠ opGetReq := by rcases hop with h | h <;> rw [h] <;> decide
  have hmc : p.op ≠ opMcPut := by rcases hop with h | h <;> rw [h] <;> decide
  simp only [placeArrival, ha, hput, hget, hmc, if_false]

end

/-! ### From the arrival to the region -/

section
variable {s t : State} {now : Nat} {p : Pkt} (u : Nat)

/-- A GET_REQ and an MC_PUT that their context admits go to their region: they have no record (R241). -/
theorem handPacket_recordless (hop : p.op = opGetReq ∨ p.op = opMcPut) (hr : ReachesContext s now p t) :
    handPacket (atTime s now) u p = regionArrival t p 0 := by
  rw [handPacket_reachesContext u (by rcases hop with h | h <;> simp [TpRequest, h]) hr]
  obtain ⟨_, _, -, -, -, -, -, -, hshut, hserves, -, -, c, hc, hstate, hserving, hclosing, hops⟩ := hr
  simp only [deliverRequest, hc, hshut, hstate, hserving, hserves, hclosing, hops, bne_self_eq_false, Bool.not_true, Bool.or_self,
    Bool.false_and, Bool.false_eq_true, if_false, if_pos hop]

variable {k : Nat} {r : Rec} (hr : ReachesRecord s now p t k r)
include hr

theorem handPacket_put (hop : p.op = opPut) : handPacket (atTime s now) u p = regionArrival t p 0 := by
  rw [handPacket_reachesRecord u (.inl hop) (by rw [hop]; decide) (by rw [hop]; decide) hr, if_neg (by rw [hop]; decide),
    if_neg (by rw [hop]; decide), if_neg (by rw [hop]; decide), if_neg (by rw [hop]; decide)]

theorem handPacket_atomic (hop : p.op = opAtomic) :
    handPacket (atTime s now) u p = regionArrival (seeOp t k) p (atomicSize p) := by
  rw [handPacket_reachesRecord u (by simp [TpRequest, hop]) (by rw [hop]; decide) (by rw [hop]; decide) hr,
    if_neg (by rw [hop]; decide), if_neg (by rw [hop]; decide), if_pos hop]

theorem handPacket_lock (hop : p.op = opLock) : handPacket (atTime s now) u p = regionArrival (seeOp t k) p 8 := by
  rw [handPacket_reachesRecord u (by simp [TpRequest, hop]) (by rw [hop]; decide) (by rw [hop]; decide) hr,
    if_neg (by rw [hop]; decide), if_neg (by rw [hop]; decide), if_neg (by rw [hop]; decide), if_pos hop]

end

/-! ### The commands -/

section
variable (s : State) (now u : Nat) {p : Pkt} (ue : Option Nat)

theorem exec_putArrived (hop : p.op = opPut) :
    exec (.putArrived now u p ue) s = .next (settled s (takeRequest (atTime s now) u p ue)) := congrArg (done s) (if_pos hop)

theorem exec_getReqArrived (hop : p.op = opGetReq) :
    exec (.getReqArrived now u p ue) s = .next (settled s (takeRequest (atTime s now) u p ue)) := congrArg (done s) (if_pos hop)

theorem exec_atomicArrived (hop : p.op = opAtomic) :
    exec (.atomicArrived now u p ue) s = .next (settled s (takeRequest (atTime s now) u p ue)) := congrArg (done s) (if_pos hop)

theorem exec_lockArrived (hop : p.op = opLock) :
    exec (.lockArrived now u p ue) s = .next (settled s (takeRequest (atTime s now) u p ue)) := congrArg (done s) (if_pos hop)

theorem exec_mcPutArrived (hop : p.op = opMcPut) :
    exec (.mcPutArrived now u p) s = .next (settled s (handPacket (atTime s now) u p)) := congrArg (done s) (if_pos hop)

theorem takeRequest_plain : takeRequest s u p none = handPacket s u p := rfl

end

end Sys2Proof.Machine
end

section
/-!
The obligations about the memory requests and the word operations that arrive.
-/

namespace Sys2Proof.Machine

/-- Settles O22: a request of each opcode goes to its region, where it is acted on with its translated spans. -/
theorem memoryRequestsComplete : Obligations.MemoryRequestsComplete := by
  unfold Obligations.MemoryRequestsComplete
  refine ⟨fun s now u p t k r t2 a l hop hr htr ha => ?put, fun s now u p t t2 a l hop hr htr ha => ?getReq,
    fun s now u p t t2 a l hop hr htr ha => ?mcPut, fun s now u p h hop hh hx => ?putLost, fun s now u p h hop hh hx => ?getLost⟩
  case put =>
    rw [exec_putArrived s now u none hop, takeRequest_plain, handPacket_put u hr hop, regionArrival_translated htr,
      placeArrival_put l ha hop]
  case getReq =>
    rw [exec_getReqArrived s now u none hop, takeRequest_plain, handPacket_recordless u (.inl hop) hr, regionArrival_translated htr,
      placeArrival_getReq l ha hop]
  case mcPut =>
    rw [exec_mcPutArrived s now u hop, handPacket_recordless u (.inr hop) hr, regionArrival_translated htr, placeArrival_mcPut l ha hop]
  case putLost => rw [exec_putArrived s now u (some h) hop, takeRequest_uncorrectable (s := atTime s now) u h hh hx]
  case getLost => rw [exec_getReqArrived s now u (some h) hop, takeRequest_uncorrectable (s := atTime s now) u h hh hx]

/-- Settles O24: a word operation goes to its region with an ACK due, where it queues at its translated word. -/
theorem wordOperationsComplete : Obligations.WordOperationsComplete := by
  unfold Obligations.WordOperationsComplete
  refine ⟨fun s now u p t k r t2 a pa n l hop hr htr ha => ?atomic, fun s now u p t k r t2 a pa n l hop hr htr ha => ?lock,
    fun s now u p h hop hh hx => ?atomicLost, fun s now u p h hop hh hx => ?lockLost⟩
  case atomic =>
    rw [exec_atomicArrived s now u none hop, takeRequest_plain, handPacket_atomic u hr hop, regionArrival_translated htr,
      placeArrival_wordOp l ha (.inl hop)]
  case lock =>
    rw [exec_lockArrived s now u none hop, takeRequest_plain, handPacket_lock u hr hop, regionArrival_translated htr,
      placeArrival_wordOp l ha (.inr hop)]
  case atomicLost => rw [exec_atomicArrived s now u (some h) hop, takeRequest_uncorrectable (s := atTime s now) u h hh hx]
  case lockLost => rw [exec_lockArrived s now u (some h) hop, takeRequest_uncorrectable (s := atTime s now) u h hh hx]

end Sys2Proof.Machine
end

section
/-!
The obligations about every step: what a step runs, that every command answers, and what a command with nothing to follow leaves.
-/

namespace Sys2Proof.Machine

/-- Settles O1: the step's own case of a queue with a front. -/
theorem stepRunsFrontCommand : Obligations.StepRunsFrontCommand := by
  intro s c rest h
  rw [step, h]

/-- Settles O2: the step's own case of an empty queue. -/
theorem idleStepPassesOneNanosecond : Obligations.IdleStepPassesOneNanosecond := by
  intro s h
  simp only [step, h, tick, done_eq]

/-- Settles O3: every command ends in the follow-up of its effect, which keeps the queue. -/
theorem everyCommandAnswersAndKeepsQueue : Obligations.EveryCommandAnswersAndKeepsQueue := by
  intro i s
  obtain ⟨e, he⟩ := exec_settles i s
  exact ⟨settled s e, he, settled_pending s e⟩

/-- Settles O6: with nothing to follow only the queue is put back and MODE_STAT.MODE written, which leaves the other fields of its word. -/
theorem quietCommandEndsInItsEffect : Obligations.QuietCommandEndsInItsEffect := by
  intro s e hq
  rw [settled_quiet s e hq]
  refine ⟨fun key hk => ?word, fun f hf hap => ?field, rfl⟩
  case word => exact csrRaw_wr_ne _ _ _ _ _ _ hk
  case field => exact rd_refreshMode { e with pending := s.pending } f 0 0 (.inr hap.symm)

end Sys2Proof.Machine
end

section
/-!
SUPPORT. Resets and boot (R31, R526, R539, R561, R614): what a power-on reset and a chip reset leave in each register, and the cases of
the cold boot.
-/

namespace Sys2Proof.Machine

/-! ### Power-on reset -/

theorem exec_powerOnReset (s : State) : exec .powerOnReset s = .next (settled s (powerOn s)) := rfl

theorem csrRaw_powerOn (s : State) (key : Nat) : csrRaw (powerOn s) key = wordReset .por key (csrRaw s key) :=
  mgetD_csrReset .por (fun _ => true) s.csr key

/-! ### Chip reset -/

/-- What a chip reset leaves, but for the verified slots and the record of causes: the fields that CHIP does not restore, FC's own state,
the flash, the supplies and the cage channels (R614, R615). -/
def chipCleared (s : State) : State :=
  { pending := s.pending, csr := csrReset .chip (fun _ => true) s.csr, out := s.out, free := s.free, timeNs := s.timeNs,
    hi := { ports := portsAfterReset s }, eng := { failed := s.eng.failed },
    fc := { s.fc with fences := [], inReset := [], lastEvent := [], blkAt := [], wdogAt := s.timeNs, chipReset := true, unmirrored := false },
    fw := { flash := s.fw.flash, boards := s.fw.boards }, pw := s.pw, cage := s.cage }

/-- A slot that was VERIFIED keeps its word (R545). -/
def keepSlot (s n : State) (x : Nat) : State :=
  if rd s F.fwSlotState x = 2 then csrPut n (F.fwSlotState.key x) (csrRaw s (F.fwSlotState.key x)) else n

theorem chipReset_eq (s : State) (cause src inst : Nat) :
    chipReset s cause src inst =
      emit (inc (wr (wr (wr (keepSlot s (keepSlot s (chipCleared s) 0) 1) F.fcResetCauseCause cause) F.fcResetCauseSrc src)
        F.fcResetCauseInst inst) F.fcResetCauseCount) (.chipReset cause) := by
  have hslots : [0, 1].foldl (keepSlot s) (chipCleared s) = keepSlot s (keepSlot s (chipCleared s) 0) 1 := by
    rw [List.foldl_cons, List.foldl_cons, List.foldl_nil]
  rw [← hslots]
  delta chipReset
  rfl

theorem keepSlot_sameBut (s n : State) (x : Nat) : SameBut (keepSlot s n x) n := by
  unfold keepSlot
  split <;> rfl

theorem csrRaw_keepSlot_ne (s n : State) {x key : Nat} (h : rd s F.fwSlotState x = 2 → key ≠ F.fwSlotState.key x) :
    csrRaw (keepSlot s n x) key = csrRaw n key := by
  unfold keepSlot
  split
  · next hv => exact csrRaw_csrPut_ne _ _ (h hv)
  · rfl

theorem csrRaw_keepSlot_same {s : State} {x : Nat} (n : State) (h : rd s F.fwSlotState x = 2) :
    csrRaw (keepSlot s n x) (F.fwSlotState.key x) = csrRaw s (F.fwSlotState.key x) := by
  rw [keepSlot, if_pos h, csrRaw_csrPut_same]

theorem SameBut.trans {r t u : State} (h : SameBut r t) (h' : SameBut t u) : SameBut r u := by
  unfold SameBut at h h'
  rw [h'] at h
  exact h

/-- Beside the registers a chip reset leaves what it clears, and its notice. -/
theorem chipReset_parts (s : State) (cause src inst : Nat) :
    ∃ n, chipReset s cause src inst = emit n (.chipReset cause) ∧ SameBut n (chipCleared s) :=
  ⟨_, chipReset_eq s cause src inst, (wr_sameBut ..).trans <| (wr_sameBut ..).trans <| (wr_sameBut ..).trans <| (wr_sameBut ..).trans <|
    (keepSlot_sameBut ..).trans (keepSlot_sameBut ..)⟩

section
variable (s : State) (cause src inst : Nat)

theorem chipReset_chipReset : (chipReset s cause src inst).fc.chipReset = true := by
  obtain ⟨n, h, hn⟩ := chipReset_parts s cause src inst
  rw [h, hn]
  rfl

theorem chipReset_boards : (chipReset s cause src inst).fw.boards = s.fw.boards := by
  obtain ⟨n, h, hn⟩ := chipReset_parts s cause src inst
  rw [h, hn]
  rfl

theorem chipReset_pw : (chipReset s cause src inst).pw = s.pw := by
  obtain ⟨n, h, hn⟩ := chipReset_parts s cause src inst
  rw [h, hn]
  rfl

theorem chipReset_cage : (chipReset s cause src inst).cage = s.cage := by
  obtain ⟨n, h, hn⟩ := chipReset_parts s cause src inst
  rw [h, hn]
  rfl

theorem csrRaw_chipReset_ne {key : Nat} (h : key ≠ 0x00200020) :
    csrRaw (chipReset s cause src inst) key = csrRaw (keepSlot s (keepSlot s (chipCleared s) 0) 1) key := by
  rw [chipReset_eq, csrRaw_emit, inc]
  rw [csrRaw_wr_ne _ _ _ _ _ _ h, csrRaw_wr_ne _ _ _ _ _ _ h, csrRaw_wr_ne _ _ _ _ _ _ h, csrRaw_wr_ne _ _ _ _ _ _ h]

theorem rd_chipReset_cause : rd (chipReset s cause src inst) F.fcResetCauseCause = cause % 2 ^ F.fcResetCauseCause.width := by
  rw [chipReset_eq, rd_emit, inc, rd_wr_apart _ _ _ _ _ _ _ _ (by decide) (by unfold Apart; decide),
    rd_wr_apart _ _ _ _ _ _ _ _ (by decide) (by unfold Apart; decide), rd_wr_apart _ _ _ _ _ _ _ _ (by decide) (by unfold Apart; decide),
    rd_wr_same _ _ _ _ _ (by decide)]

end

theorem csrRaw_chipCleared (s : State) (key : Nat) : csrRaw (chipCleared s) key = wordReset .chip key (csrRaw s key) :=
  mgetD_csrReset .chip (fun _ => true) s.csr key

/-- A register that is not the record of causes or a verified slot is reset by CHIP. -/
theorem csrRaw_chipReset_reset (s : State) (cause src inst : Nat) {key : Nat} (h : key ≠ 0x00200020)
    (hv : ∀ x, x < 2 → rd s F.fwSlotState x = 2 → key ≠ F.fwSlotState.key x) :
    csrRaw (chipReset s cause src inst) key = wordReset .chip key (csrRaw s key) := by
  rw [csrRaw_chipReset_ne s cause src inst h, csrRaw_keepSlot_ne _ _ (hv 1 (by omega)), csrRaw_keepSlot_ne _ _ (hv 0 (by omega)),
    csrRaw_chipCleared]

theorem csrRaw_chipReset_slot {s : State} {x : Nat} (cause src inst : Nat) (hx : x < 2) (hv : rd s F.fwSlotState x = 2) :
    csrRaw (chipReset s cause src inst) (F.fwSlotState.key x) = csrRaw s (F.fwSlotState.key x) := by
  obtain rfl | rfl : x = 0 ∨ x = 1 := by omega
  · rw [csrRaw_chipReset_ne s cause src inst (by decide), csrRaw_keepSlot_ne _ _ (fun _ => by decide), csrRaw_keepSlot_same _ hv]
  · rw [csrRaw_chipReset_ne s cause src inst (by decide), csrRaw_keepSlot_same _ hv]

theorem exec_chipRstNAssert (s : State) : exec .chipRstNAssert s = .next (settled s (chipReset s 1 0 0)) := rfl

theorem exec_chipRstNRelease (s : State) : exec .chipRstNRelease s = .next (settled s (resetReleased s)) := rfl

theorem resetReleased_inReset {s : State} (h : s.fc.chipReset = true) :
    resetReleased s = { s with fc := { s.fc with chipReset := false }, pw := { s.pw with low := [] } } := if_pos h

/-! ### Cold boot -/

section
variable {s : State} {a b : Image} {failed : List Nat} (hb : baseOf s = 1) (hr : s.fc.chipReset = false) (hn : booted s = false)
include hb hr hn

theorem exec_bootSlotVerified :
    exec (.bootSlotVerified a b failed) s = .next (settled s (coldBoot s a b failed)) :=
  congrArg (done s) (if_pos ⟨hb, hr, hn⟩)

end

theorem boardNow_wr (s : State) (f : Fld) (v i j : Nat) : boardNow (wr s f v i j) = boardNow s := by simp only [boardNow, wr_fw]

theorem coldBoot_requested {s : State} (a b : Image) (failed : List Nat) (h : (boardNow s).recovery = true) :
    coldBoot s a b failed = setBase (wr s F.fwStatPreferred (boardNow s).preferred) 0 := by
  simp only [coldBoot, boardNow_wr, h, if_true, enterRecovery]

section
variable {s s1 : State} {a b img : Image} {failed : List Nat} {pref mask : Nat} (h : (boardNow s).recovery = false)
  (hpref : pref = (boardNow s).preferred) (himg : img = if pref = 0 then a else b) (hs1 : s1 = wr s F.fwStatPreferred pref)
  (hmask : mask = rd s1 F.fwFuseArmMask)
include h hpref himg hs1 hmask

theorem coldBoot_preferred {m : ArmStream} (hv : verifySlot s1 mask img = 0) (hm : img.armature = some m) :
    coldBoot s a b failed = buildWith (runSlot (showSlot s1 pref img 0) pref (runOf img)) (armOf m) failed := by
  subst hmask hs1 himg hpref
  simp only [coldBoot, boardNow_wr, h, hv, hm, Bool.false_eq_true, if_false, if_true]

variable {s2 : State} {other : Image} (hother : other = if 1 - pref = 0 then a else b)
  (hs2 : s2 = showSlot s1 pref img (verifySlot s1 mask img)) (hbad : verifySlot s1 mask img ≠ 0)
include hother hs2 hbad

theorem coldBoot_other {m : ArmStream} (hv : verifySlot s2 mask other = 0) (hm : other.armature = some m) :
    coldBoot s a b failed = buildWith (runSlot (showSlot s2 (1 - pref) other 0) (1 - pref) (runOf other)) (armOf m) failed := by
  subst hs2 hother hmask hs1 himg hpref
  simp only [coldBoot, boardNow_wr, h, hbad, hv, hm, Bool.false_eq_true, if_false, if_true]

theorem coldBoot_neither (hv : verifySlot s2 mask other ≠ 0) :
    coldBoot s a b failed = setBase (showSlot s2 (1 - pref) other (verifySlot s2 mask other)) 0 := by
  subst hs2 hother hmask hs1 himg hpref
  simp only [coldBoot, boardNow_wr, h, hbad, hv, Bool.false_eq_true, if_false, enterRecovery]

end

/-! ### The passage to RUN -/

theorem exec_buildEnterRun (s : State) (now : Nat) :
    exec (.buildEnterRun now) s = .next (settled s (buildDone (atTime s now))) := rfl

theorem buildDone_joined {s : State} (hb : baseOf s = 1) (hn : booted s = true) (hj : rd s F.rtStatJoin = 2) :
    buildDone s = enterRun s := if_pos ⟨hb, hn, hj⟩

end Sys2Proof.Machine
end

section
/-!
The obligation about resets and boot.
-/

namespace Sys2Proof.Machine

/-- Settles O9: each register by the reset that the command begins; the cold boot by the request flag and what verifies. -/
theorem resetsAndBootComplete : Obligations.ResetsAndBootComplete := by
  unfold Obligations.ResetsAndBootComplete
  refine ⟨fun s => ⟨exec_powerOnReset s, rfl, csrRaw_powerOn s, rfl, rfl, rfl⟩, fun s => ?chip, fun s h => ?release,
    fun s a b failed hb hr hn hreq => ?requested, fun s a b failed m hb hr hn hreq hv hm => ?preferred,
    fun s a b failed m hb hr hn hreq hbad hv hm => ?other,
    fun s a b failed hb hr hn hreq hbad hv => ?neither, fun s now hb hn hj => ?run⟩
  case chip =>
    exact ⟨exec_chipRstNAssert s, chipReset_chipReset s 1 0 0, rd_chipReset_cause s 1 0 0, fun _ => csrRaw_chipReset_reset s 1 0 0,
      fun _ => csrRaw_chipReset_slot 1 0 0, chipReset_boards s 1 0 0, chipReset_pw s 1 0 0, chipReset_cage s 1 0 0⟩
  case release => rw [exec_chipRstNRelease, resetReleased_inReset h]
  case requested => rw [exec_bootSlotVerified hb hr hn, coldBoot_requested a b failed hreq]
  case preferred => rw [exec_bootSlotVerified hb hr hn, coldBoot_preferred hreq rfl rfl rfl rfl hv hm]
  case other => rw [exec_bootSlotVerified hb hr hn, coldBoot_other hreq rfl rfl rfl rfl rfl rfl hbad hv hm]
  case neither => rw [exec_bootSlotVerified hb hr hn, coldBoot_neither hreq rfl rfl rfl rfl rfl rfl hbad hv]
  case run =>
    have hbase : baseOf (atTime s now) = 1 := (rd_atTime ..).trans hb
    have hboot : booted (atTime s now) = true := by rw [← hn]; simp only [booted, rd_atTime]
    rw [exec_buildEnterRun, buildDone_joined hbase hboot ((rd_atTime ..).trans hj)]

end Sys2Proof.Machine
end

section
/-!
SUPPORT. Fields of one place of a register array: a read after the write of another field of the same place, and the way of a served write
to an array's register.
-/

namespace Sys2Proof.Machine

/-- Two fields of register arrays of one stride that share no bit at any place: of different registers, or apart in one. -/
def Fld.besides (f g : Fld) : Bool :=
  f.stride == g.stride && decide (f.lo + f.bstep * 0 + f.width ≤ 64)
    && (g.addr != f.addr || decide (f.lo + f.bstep * 0 + f.width ≤ g.lo + g.bstep * 0)
      || decide (g.lo + g.bstep * 0 + g.width ≤ f.lo + f.bstep * 0))

theorem rd_wr_besides {f g : Fld} (s : State) (v i : Nat) (h : f.besides g = true) : rd (wr s f v i) g i = rd s g i := by
  simp only [Fld.besides, Bool.and_eq_true, Bool.or_eq_true, beq_iff_eq, bne_iff_ne, decide_eq_true_eq] at h
  obtain ⟨⟨hstride, hin⟩, hap⟩ := h
  refine rd_wr_apart s f v i 0 g i 0 hin ?_
  rcases hap with (haddr | hbelow) | habove
  · exact .inl (by simp only [Fld.key, hstride]; omega)
  · exact .inr (.inl hbelow)
  · exact .inr (.inr habove)

theorem rd_wr_self {f : Fld} (s : State) (v i : Nat) (h : f.lo + f.bstep * 0 + f.width ≤ 64) :
    rd (wr s f v i) f i = v % 2 ^ f.width := rd_wr_same s f v i 0 h

/-- A register that takes writes, of a map entry without RWT fields. -/
theorem takesWrites_of_regFind {key : Nat} {r : Reg} (hr : regFind key = some r) (h : (r.fields.any fun f => f.acc == .rwt) = false) :
    takesWrites key = true :=
  takesWrites_of_not_rwt (by rw [hr]; rfl) (by rw [isRwt, fieldsAt_of_regFind hr, h])

end Sys2Proof.Machine
end

section
/-!
SUPPORT. Cage-power channels (R573 to R583): the word of CG_CTL and its way to the channel, what a fault leaves in a channel's registers,
and the cases of each timer and measurement.
-/

namespace Sys2Proof.Machine

/-! ### CG_CTL -/

/-- The offset of a channel's CG_CTL. -/
def cgCtlKey (c : Nat) : Nat := 0x00420000 + 64 * c

theorem cgCtlKey_eq (c : Nat) : cgCtlKey c = 0x00420000 + 64 * c := rfl

/-- The word of CG_CTL with EN, CLEAR and RAMP. -/
def cgCtlWord (en clear : Bool) (ramp : Nat) : Word := BitVec.ofNat 64 (bit en + bit clear * 2 + ramp * 2 ^ 8)

section
variable {ramp : Nat} (en clear : Bool) (h : ramp < 256)
include h

theorem cgCtlWord_toNat : (cgCtlWord en clear ramp).toNat = bit en + bit clear * 2 + ramp * 256 := by
  have hen : bit en ≤ 1 := by cases en <;> decide
  have hclear : bit clear ≤ 1 := by cases clear <;> decide
  rw [cgCtlWord, BitVec.toNat_ofNat]
  omega

theorem cgCtlWord_ramp : wordGet (cgCtlWord en clear ramp) 8 8 = ramp := by
  rw [wordGet, cgCtlWord_toNat en clear h]
  have hen : bit en ≤ 1 := by cases en <;> decide
  have hclear : bit clear ≤ 1 := by cases clear <;> decide
  omega

theorem cgCtlWord_en : bitAt (cgCtlWord en clear ramp).toNat 0 = en := by
  have hbit : (bit en + bit clear * 2 + ramp * 256) / 2 ^ 0 % 2 = bit en := by
    have hen : bit en ≤ 1 := by cases en <;> decide
    omega
  rw [bitAt, cgCtlWord_toNat en clear h, hbit]
  cases en <;> rfl

theorem cgCtlWord_clear : bitAt (cgCtlWord en clear ramp).toNat 1 = clear := by
  have hbit : (bit en + bit clear * 2 + ramp * 256) / 2 ^ 1 % 2 = bit clear := by
    have hen : bit en ≤ 1 := by cases en <;> decide
    have hclear : bit clear ≤ 1 := by cases clear <;> decide
    omega
  rw [bitAt, cgCtlWord_toNat en clear h, hbit]
  cases clear <;> rfl

end

theorem regFind_cgCtlKey : ∀ c < 64, regFind (cgCtlKey c) = some R.cgCtl := by decide +kernel

theorem blockWrite_cgCtl (t : State) (who : Who) {c : Nat} (w : Word) (env : CsrEnv) (h : c < 64) :
    blockWrite t who (cgCtlKey c) w env = cageControl t c (wordGet w 8 8) (bitAt w.toNat 0) (bitAt w.toNat 1) := by
  have hkey := cgCtlKey_eq c
  have hpage : pageOf (cgCtlKey c) = none := pageOf_of_lt (by omega)
  have hchan : (cgCtlKey c - 0x00420000) / 64 = c := by omega
  have hoff : cgCtlKey c % 64 = 0 := by omega
  simp only [blockWrite, hpage]
  iterate 4 rw [if_neg (by omega)]
  rw [if_pos (by omega), hchan, hoff, cgWrite]

section
variable {s : State} {who : Who} {c width ramp : Nat} {en clear : Bool} (now : Nat) (h : Served s who) (hw : 64 ≤ width) (hc : c < 64)
  (hr : ramp < 256) (hl : wordLegal (fieldsAt (cgCtlKey c)) (cgCtlWord en clear ramp) = true)
include h hw hc hr hl

/-- A served write of CG_CTL with a legal RAMP reaches the channel's control. -/
theorem cgStore_served {f : State → State} (hf : ∀ t, Entry t (atTime s now) → cageControl t c ramp en clear = f t) :
    cgStore (atTime s now) who c width ramp en clear = viaGate (atTime s now) who f := by
  have hkey := cgCtlKey_eq c
  rw [cgStore, if_pos hc, Nat.mod_eq_of_lt hr]
  refine csrWriteBy_block (atTime s now) who (cgCtlKey c) width (cgCtlWord en clear ramp) noEnv f (served_atTime now h) hw ?place
    (.inr hl) fun t ht => ?effect
  case place =>
    simp only [takesWrites_of_regFind (regFind_cgCtlKey c hc) (by decide), Bool.true_and, Bool.and_eq_true, beq_iff_eq, decide_eq_true_eq]
    omega
  case effect =>
    rw [blockWrite_cgCtl t who _ noEnv hc, cgCtlWord_ramp en clear hr, cgCtlWord_en en clear hr, cgCtlWord_clear en clear hr, hf t ht]

end

theorem Entry.cageField {t s : State} {c : Nat} (h : Entry t s) (hc : c < 64) (f : Fld)
    (hf : (decide (0x00420000 ≤ f.addr) && decide (f.addr < 0x00420040) && f.stride == 64) = true) : rd t f c = rd s f c := by
  simp only [Bool.and_eq_true, beq_iff_eq, decide_eq_true_eq] at hf
  have hkey : f.key c = f.addr + 64 * c := by rw [Fld.key, hf.2]
  exact h.raw f c 0 (by omega) (by omega) (by omega)

/-- A channel's state does not change with the write of its CG_CTL. -/
theorem cageState_control (s : State) (c ramp : Nat) (en : Bool) :
    cageState (wrb (wr s F.cgCtlRamp ramp c) F.cgCtlEn en c) c = cageState s c := by
  rw [cageState, wrb, rd_wr_besides _ _ _ (by decide), rd_wr_besides _ _ _ (by decide), cageState]

section
variable (s : State) (c ramp : Nat)

theorem cageControl_enable :
    cageControl s c ramp true false =
      let u := wrb (wr s F.cgCtlRamp ramp c) F.cgCtlEn true c
      if rdb s F.cgCtlEn c = true then u else cageCheck (wr u F.cgStatCause 0 c) c := by
  cases hen : rdb s F.cgCtlEn c <;> simp [cageControl, hen]

theorem cageControl_disable :
    cageControl s c ramp false false =
      let u := wrb (wr s F.cgCtlRamp ramp c) F.cgCtlEn false c
      if rdb s F.cgCtlEn c = true then cageOff u c else u := by
  cases hen : rdb s F.cgCtlEn c <;> simp [cageControl, hen]

theorem cageControl_disable_enabled {s : State} (h : rdb s F.cgCtlEn c = true) :
    cageControl s c ramp false false = cageOff (wrb (wr s F.cgCtlRamp ramp c) F.cgCtlEn false c) c := by
  rw [cageControl_disable]
  exact if_pos h

variable {s c} (hst : cageState s c = 6 ∨ cageState s c = 7)
include hst

theorem cageControl_clear_enabled :
    cageControl s c ramp true true =
      let u := wr (wrb (wr s F.cgCtlRamp ramp c) F.cgCtlEn true c) F.cgRetryUsed 0 c
      cageCheck (wr (wr (wrb (wr u F.cgStatCause 0 c) F.cgStatCwarn false c) F.cgStatState 0 c) F.cgStatCause 0 c) c := by
  rw [← cageState_control s c ramp true] at hst
  simp [cageControl, hst]

theorem cageControl_clear_disabled (hen : rdb s F.cgCtlEn c = false) :
    cageControl s c ramp false true =
      let u := wr (wrb (wr s F.cgCtlRamp ramp c) F.cgCtlEn false c) F.cgRetryUsed 0 c
      wr (wrb (wr u F.cgStatCause 0 c) F.cgStatCwarn false c) F.cgStatState 0 c := by
  rw [← cageState_control s c ramp false] at hst
  simp [cageControl, hst, hen]

end

/-! ### The commands -/

section
variable (s : State) (now : Nat) (who : Who) (c width ramp : Nat)

theorem exec_cgEnable :
    exec (.cgEnable now who c width ramp) s = .next (settled s (cgStore (atTime s now) who c width ramp true false)) := rfl

theorem exec_cgDisable :
    exec (.cgDisable now who c width ramp) s = .next (settled s (cgStore (atTime s now) who c width ramp false false)) := rfl

theorem exec_cgClear (en : Bool) :
    exec (.cgClear now who c width ramp en) s = .next (settled s (cgStore (atTime s now) who c width ramp en true)) := rfl

variable {c} (hc : c < 64)
include hc

theorem exec_cgHardShort : exec (.cgHardShort now c) s = .next (settled s (cageShort (atTime s now) c)) :=
  congrArg (done s) (if_pos hc)

end

theorem done_onCage {s e : State} {now c : Nat} {f : State → State} (hc : c < 64) (h : f (atTime s now) = e) :
    done s (onCage s now c f) = .next (settled s e) := congrArg (done s) ((if_pos hc).trans h)

/-- A command of a channel that leaves the channel as it is lets time pass; one of no channel does so too. -/
theorem done_onCage_idle {s : State} {now : Nat} (c : Nat) {f : State → State} (h : f (atTime s now) = atTime s now) :
    done s (onCage s now c f) = .next (settled s (atTime s now)) := by
  rw [onCage, h, ite_self, done_eq]

/-! ### Checks, ramps, limits and timers of a channel -/

section
variable {s : State} {c : Nat}

theorem cageChecked_passes {reads : CageReads} (hst : cageState s c = 1) (hw : ((cageOf s c).waits && warningStands s) = false)
    (hcause : cageCause s c reads = 0) :
    cageChecked s c reads = wr (drawn (setCage s c { cageOf s c with waits := false, zeroAt := s.timeNs })) F.cgStatState 2 c := by
  simp [cageChecked, hst, hw, hcause]

theorem cageChecked_refused {reads : CageReads} (hst : cageState s c = 1) (hw : ((cageOf s c).waits && warningStands s) = false)
    (hcause : cageCause s c reads ≠ 0) :
    cageChecked s c reads =
      let u := drawn (setCage s c { cageOf s c with waits := false, zeroAt := s.timeNs })
      tell (wrb (wr (wr u F.cgStatState 7 c) F.cgStatCause (cageCause s c reads) c) F.cgStatCwarn true c) (.fault 17 c) := by
  simp [cageChecked, hst, hw, hcause]

theorem cageChecked_waits (reads : CageReads) (h : cageState s c ≠ 1 ∨ ((cageOf s c).waits = true ∧ warningStands s = true)) :
    cageChecked s c reads = s := if_pos (by rwa [Bool.and_eq_true])

theorem cageRamped_ramping (hst : cageState s c = 2) (hl : rdb s F.cgStatLimit c = false) :
    cageRamped s c = wr (setCage s c { cageOf s c with qualAt := s.timeNs }) F.cgStatState 3 c := if_pos ⟨hst, hl⟩

theorem cageRamped_other (h : cageState s c ≠ 2 ∨ rdb s F.cgStatLimit c = true) : cageRamped s c = s :=
  if_neg fun ⟨hst, hl⟩ => h.elim (· hst) fun hlimit => Bool.false_ne_true (hl.symm.trans hlimit)

theorem cageLimit_drives {u v : State} (hd : cageDrives s c = true) (hl : rdb s F.cgStatLimit c = false)
    (hu : u = setLimit (wrb s F.cgStatPg false c) c true) (hv : v = if rdb s F.cgStatPg c = true then wrb u F.cgStatCwarn true c else u) :
    cageLimit s c = if cageState v c = 4 then wr v F.cgStatState 3 c else v := by
  subst hv hu
  exact if_pos ⟨hd, hl⟩

theorem cageUnlimit_limiting {u : State} (hd : cageDrives s c = true) (hl : rdb s F.cgStatLimit c = true)
    (hu : u = wrb (setLimit s c false) F.cgStatCwarn false c) :
    cageUnlimit s c = setCage u c { cageOf u c with qualAt := u.timeNs } := by
  subst hu
  exact if_pos ⟨hd, hl⟩

theorem cageLimit_undriven (h : cageDrives s c = false) : cageLimit s c = s :=
  if_neg fun ⟨hd, _⟩ => Bool.false_ne_true (h.symm.trans hd)

theorem cageUnlimit_undriven (h : cageDrives s c = false) : cageUnlimit s c = s :=
  if_neg fun ⟨hd, _⟩ => Bool.false_ne_true (h.symm.trans hd)

theorem cageTimedOut_due (hd : cageDrives s c = true) (ht : rd s F.cgPlimTimerUs c * 8000 ≤ cageTimer s c) :
    cageTimedOut s c = cageFault s c 1 := if_pos ⟨hd, ht⟩

theorem cageTimedOut_not_due (h : cageDrives s c = false ∨ cageTimer s c < rd s F.cgPlimTimerUs c * 8000) : cageTimedOut s c = s :=
  if_neg fun ⟨hd, ht⟩ => h.elim (fun hoff => Bool.false_ne_true (hoff.symm.trans hd)) (Nat.not_lt.mpr ht)

theorem cageShort_retried (h1 : 1 ≤ cageState s c) (h5 : cageState s c ≤ 5) : cageShort s c = cageFault s c 2 := if_neg (by omega)

theorem cageShort_latched (h : cageState s c = 0 ∨ 6 ≤ cageState s c) :
    cageShort s c = wr (cageTrip s c 2) F.cgStatState 6 c := if_pos h

theorem cageFault_eq (s : State) (c cause : Nat) :
    cageFault s c cause =
      let t := cageTrip s c cause
      if rdb t F.cgRetryAuto c = true ∧ rd t F.cgRetryUsed c < 3 then
        wr (setCage t c { cageOf t c with backoffAt := t.timeNs }) F.cgStatState 5 c
      else wr t F.cgStatState 6 c := by
  simp only [cageFault, Bool.and_eq_true, decide_eq_true_eq]

theorem cageRetry_backoff (h : cageState s c = 5) :
    cageRetry s c = cageCheck (wrb (wr s F.cgRetryUsed (rd s F.cgRetryUsed c + 1) c) F.cgStatCwarn false c) c := if_pos h

theorem cageRetry_other (h : cageState s c ≠ 5) : cageRetry s c = s := if_neg h

theorem cageGood_qualified (hst : cageState s c = 3) (hl : rdb s F.cgStatLimit c = false) (ht : (cageOf s c).qualAt + 1000000 ≤ s.timeNs) :
    cageGood s c = wrb (wr s F.cgStatState 4 c) F.cgStatPg true c := if_pos ⟨hst, hl, ht⟩

theorem cageGood_other (h : cageState s c ≠ 3 ∨ rdb s F.cgStatLimit c = true ∨ s.timeNs < (cageOf s c).qualAt + 1000000) :
    cageGood s c = s := by
  refine if_neg fun ⟨hst, hl, ht⟩ => ?_
  rcases h with h | h | h
  · exact h hst
  · exact Bool.false_ne_true (hl.symm.trans h)
  · exact absurd ht (Nat.not_le.mpr h)

theorem cageZero_due (hst : cageState s c = 0) (ht : (cageOf s c).zeroAt + 100000000 ≤ s.timeNs) :
    cageZero s c = setCage s c { cageOf s c with zeroAt := s.timeNs } := if_pos ⟨hst, ht⟩

end

/-! ### What a fault leaves in a channel's registers -/

section
variable (s : State) (c cause : Nat)

/-- A fault's gate and power good, CAUSE and CWARN_N are the only registers that it writes, and all are CG_STAT of its channel. -/
theorem cageTrip_reads {g : Fld} (hl : F.cgStatLimit.besides g = true) (hp : F.cgStatPg.besides g = true)
    (hc : F.cgStatCause.besides g = true) (hw : F.cgStatCwarn.besides g = true) : rd (cageTrip s c cause) g c = rd s g c := by
  rw [cageTrip, rd_tell, wrb, rd_wr_besides _ _ _ hw, rd_wr_besides _ _ _ hc, cageGateOff, wrb, rd_wr_besides _ _ _ hp, setLimit]
  exact rd_wr_besides _ _ _ hl

theorem cageTrip_cause : rd (cageTrip s c cause) F.cgStatCause c = cause % 2 ^ 4 := by
  rw [cageTrip, rd_tell, wrb, rd_wr_besides _ _ _ (by decide), rd_wr_self _ _ _ (by decide), F.cgStatCause]

theorem cageTrip_pg : rdb (cageTrip s c cause) F.cgStatPg c = false := by
  rw [rdb, cageTrip, rd_tell, wrb, rd_wr_besides _ _ _ (by decide), rd_wr_besides _ _ _ (by decide), cageGateOff, wrb,
    rd_wr_self _ _ _ (by decide)]
  rfl

theorem csrRaw_cageTrip_ne {key : Nat} (h : key ≠ F.cgStatState.key c) : csrRaw (cageTrip s c cause) key = csrRaw s key := by
  have hset (v : State) : csrRaw (setLimit v c false) key = csrRaw v key := csrRaw_wr_ne _ _ _ _ _ _ h
  have htell (v : State) (n : Notice) : csrRaw (tell v n) key = csrRaw v key := rfl
  rw [cageTrip, htell, wrb, csrRaw_wr_ne _ F.cgStatCwarn _ _ _ _ h, csrRaw_wr_ne _ F.cgStatCause _ _ _ _ h, cageGateOff, wrb,
    csrRaw_wr_ne _ F.cgStatPg _ _ _ _ h, hset]

end

/-- The state that a hard short leaves a channel in: BACKOFF with AUTO and a retry left, out of a state from which it drives or retries,
else FAULT (R576, R577; log entry 56). -/
def shortState (s : State) (c : Nat) : Nat :=
  if (1 ≤ cageState s c ∧ cageState s c ≤ 5) ∧ rdb s F.cgRetryAuto c = true ∧ rd s F.cgRetryUsed c < 3 then 5 else 6

theorem shortState_eq (s : State) (c : Nat) : shortState s c = 5 ∨ shortState s c = 6 := by
  unfold shortState
  split
  · exact .inl rfl
  · exact .inr rfl

/-- A hard short is a fault with CAUSE 2 and one of two states; beside that it may note when BACKOFF began. -/
theorem cageShort_eq (s : State) (c : Nat) :
    ∃ x, cageShort s c = wr { cageTrip s c 2 with cage := x } F.cgStatState (shortState s c) c := by
  have hauto : rdb (cageTrip s c 2) F.cgRetryAuto c = rdb s F.cgRetryAuto c :=
    congrArg (· == 1) (cageTrip_reads s c 2 (by decide) (by decide) (by decide) (by decide))
  have hused : rd (cageTrip s c 2) F.cgRetryUsed c = rd s F.cgRetryUsed c :=
    cageTrip_reads s c 2 (by decide) (by decide) (by decide) (by decide)
  by_cases hst : 1 ≤ cageState s c ∧ cageState s c ≤ 5
  · rw [cageShort_retried hst.1 hst.2, cageFault_eq]
    dsimp only
    rw [hauto, hused]
    by_cases hretry : rdb s F.cgRetryAuto c = true ∧ rd s F.cgRetryUsed c < 3
    · rw [if_pos hretry, show shortState s c = 5 from if_pos ⟨hst, hretry⟩]
      exact ⟨_, rfl⟩
    · rw [if_neg hretry, show shortState s c = 6 from if_neg fun h => hretry h.2]
      exact ⟨(cageTrip s c 2).cage, rfl⟩
  · rw [cageShort_latched (by omega), show shortState s c = 6 from if_neg fun h => hst h.1]
    exact ⟨(cageTrip s c 2).cage, rfl⟩

section
variable (s : State) (c : Nat)

theorem cageState_cageShort : cageState (cageShort s c) c = shortState s c := by
  obtain ⟨x, h⟩ := cageShort_eq s c
  rw [cageState, h, rd_wr_self _ _ _ (by decide)]
  rcases shortState_eq s c with h | h <;> rw [h] <;> rfl

theorem cageDrives_cageShort : cageDrives (cageShort s c) c = false := by
  rw [cageDrives, cageState_cageShort]
  rcases shortState_eq s c with h | h <;> rw [h] <;> rfl

theorem cause_cageShort : rd (cageShort s c) F.cgStatCause c = 2 := by
  obtain ⟨x, h⟩ := cageShort_eq s c
  rw [h, rd_wr_besides _ _ _ (by decide)]
  exact cageTrip_cause s c 2

theorem pg_cageShort : rdb (cageShort s c) F.cgStatPg c = false := by
  obtain ⟨x, h⟩ := cageShort_eq s c
  rw [rdb, h, rd_wr_besides _ _ _ (by decide)]
  exact cageTrip_pg s c 2

theorem csrRaw_cageShort_ne {key : Nat} (hk : key ≠ F.cgStatState.key c) : csrRaw (cageShort s c) key = csrRaw s key := by
  obtain ⟨x, h⟩ := cageShort_eq s c
  rw [h, csrRaw_wr_ne _ _ _ _ _ _ hk]
  exact csrRaw_cageTrip_ne s c 2 hk

end

/-! ### A channel turned off or on again -/

section
variable (s : State) (c ramp : Nat)

theorem cageState_cageOff : cageState (cageOff s c) c = 0 := by
  rw [cageState, cageOff, rd_wr_self _ _ _ (by decide)]
  rfl

/-- Turning a channel off leaves its other fields as they were. -/
theorem rd_cageOff {g : Fld} (hst : F.cgStatState.besides g = true) (hw : F.cgStatCwarn.besides g = true)
    (hu : F.cgRetryUsed.besides g = true) (hp : F.cgStatPg.besides g = true) (hl : F.cgStatLimit.besides g = true) :
    rd (cageOff s c) g c = rd s g c := by
  rw [cageOff, rd_wr_besides _ _ _ hst, wrb, rd_wr_besides _ _ _ hw, rd_wr_besides _ _ _ hu, cageGateOff, wrb, rd_wr_besides _ _ _ hp,
    setLimit]
  exact rd_wr_besides _ _ _ hl

/-- The next enable of a channel clears its CAUSE. -/
theorem cause_cageControl_enable {s : State} (h : rdb s F.cgCtlEn c = false) :
    rd (cageControl s c ramp true false) F.cgStatCause c = 0 := by
  rw [cageControl_enable, h]
  dsimp only
  rw [if_neg Bool.false_ne_true, cageCheck, rd_wr_besides _ _ _ (by decide), rd_setCage, rd_wr_self _ _ _ (by decide), Nat.zero_mod]

end

end Sys2Proof.Machine
end

section
/-!
The obligations about the cage-power channels.
-/

namespace Sys2Proof.Machine

/-- Settles O60: a hard short is a fault whose state follows AUTO and the retries; turning off and enabling by the fields that each writes. -/
theorem shortTurnsGateOffAndDisableEndsRetries : Obligations.ShortTurnsGateOffAndDisableEndsRetries := by
  unfold Obligations.ShortTurnsGateOffAndDisableEndsRetries
  refine ⟨fun s now c hc => ?short, fun s now who c width ramp h hw hc hr hl hen => ?disable, fun t c ramp hc hst => ?off,
    fun t c ramp hc hen => cause_cageControl_enable c ramp hen⟩
  case short =>
    refine ⟨exec_cgHardShort s now hc, cageDrives_cageShort _ c, cause_cageShort _ c, pg_cageShort _ c, ?ends, fun h1 h5 => ?retry,
      fun c' _ hne => ?other⟩
    case ends => rw [cageState_cageShort]; exact shortState_eq _ c
    case retry =>
      rw [cageState_cageShort, shortState]
      have hst : 1 ≤ cageState (atTime s now) c ∧ cageState (atTime s now) c ≤ 5 := ⟨h1, h5⟩
      simp only [hst, and_self, true_and, rdb_atTime, rd_atTime]
    case other =>
      refine (csrRaw_cageShort_ne (atTime s now) c ?_).trans (csrRaw_atTime s now _)
      simp only [Fld.key, F.cgStatState]
      omega
  case disable =>
    rw [exec_cgDisable, cgStore_served (en := false) (clear := false) now h hw hc hr hl fun t ht => ?_]
    have hent : rd t F.cgCtlEn c = rd (atTime s now) F.cgCtlEn c := ht.cageField hc F.cgCtlEn (by decide)
    have ht' : rdb t F.cgCtlEn c = true := by rw [← hen, rdb, hent, rdb, rd_atTime]
    rw [cageControl_disable_enabled c ramp ht']
  case off =>
    refine ⟨cageState_cageOff _ c, ?cause, ?en⟩
    case cause =>
      rw [rd_cageOff _ _ (by decide) (by decide) (by decide) (by decide) (by decide), wrb, rd_wr_besides _ _ _ (by decide),
        rd_wr_besides _ _ _ (by decide)]
    case en =>
      rw [rdb, rd_cageOff _ _ (by decide) (by decide) (by decide) (by decide) (by decide), wrb, rd_wr_self _ _ _ (by decide)]
      rfl

/-- Settles O54: CG_CTL past the gate by what its word asks of the channel; every other command by the channel's state and limit, at the
time that it reports. -/
theorem cageCommandsComplete : Obligations.CageCommandsComplete := by
  unfold Obligations.CageCommandsComplete
  refine ⟨fun s now who c width ramp h hw hc hr hl => ?enable, fun s now who c width ramp h hw hc hr hl => ?disable,
    fun s now who c width ramp h hw hc hr hl hst => ?clearEnabled, fun s now who c width ramp h hw hc hr hl hen hst => ?clearDisabled,
    fun s now c reads hc hst hw hcause => ?passes, fun s now c reads cause hc hst hw hcause hne => ?refused,
    fun s now c reads h => ?waits, fun s now c hc hst hlim => ?ramped, fun s now c h => ?notRamped,
    fun s now c u v hc hd hlim hu hv => ?limits, fun s now c u hc hd hlim hu => ?unlimits, fun s now c hd => ⟨?undriven, ?undriven'⟩,
    fun s now c hc hd ht => ?timedOut, fun s now c h => ?notTimedOut, fun s now c hc h1 h5 => ?short, fun s now c hc hst => ?shortLatched,
    fun s c cause => cageFault_eq s c cause, fun s now c hc hst ht => ?retry, fun s now c h => ?notRetry,
    fun s now c hc hst hlim ht => ?good, fun s now c h => ?notGood, fun s now c hc hst ht => ?zero,
    fun s now c vin vout iout u hc hu => ?measure⟩
  case enable =>
    rw [exec_cgEnable, cgStore_served (en := true) (clear := false) now h hw hc hr hl fun t _ => cageControl_enable t c ramp]
  case disable =>
    rw [exec_cgDisable, cgStore_served (en := false) (clear := false) now h hw hc hr hl fun t _ => cageControl_disable t c ramp]
  case clearEnabled =>
    rw [exec_cgClear, cgStore_served (en := true) (clear := true) now h hw hc hr hl fun t ht => ?_]
    have hstate : cageState t c = cageState s c := (ht.cageField hc F.cgStatState (by decide)).trans (rd_atTime ..)
    exact cageControl_clear_enabled ramp (hstate ▸ hst)
  case clearDisabled =>
    rw [exec_cgClear, cgStore_served (en := false) (clear := true) now h hw hc hr hl fun t ht => ?_]
    have hstate : cageState t c = cageState s c := (ht.cageField hc F.cgStatState (by decide)).trans (rd_atTime ..)
    have hent : rd t F.cgCtlEn c = rd s F.cgCtlEn c := (ht.cageField hc F.cgCtlEn (by decide)).trans (rd_atTime ..)
    exact cageControl_clear_disabled ramp (hstate ▸ hst) (by rw [rdb, hent]; exact hen)
  case passes =>
    exact done_onCage hc (cageChecked_passes (s := atTime s now) hst hw hcause)
  case refused =>
    subst hcause
    exact done_onCage hc (cageChecked_refused (s := atTime s now) hst hw hne)
  case waits => exact done_onCage_idle c (cageChecked_waits (s := atTime s now) reads h)
  case ramped =>
    exact done_onCage hc (cageRamped_ramping (s := atTime s now) hst hlim)
  case notRamped => exact done_onCage_idle c (cageRamped_other (s := atTime s now) h)
  case limits =>
    exact done_onCage hc (cageLimit_drives (s := atTime s now) hd hlim hu hv)
  case unlimits =>
    exact done_onCage hc (cageUnlimit_limiting (s := atTime s now) hd hlim hu)
  case undriven => exact done_onCage_idle c (cageLimit_undriven (s := atTime s now) hd)
  case undriven' => exact done_onCage_idle c (cageUnlimit_undriven (s := atTime s now) hd)
  case timedOut =>
    exact done_onCage hc (cageTimedOut_due (s := atTime s now) hd ht)
  case notTimedOut => exact done_onCage_idle c (cageTimedOut_not_due (s := atTime s now) h)
  case short => rw [exec_cgHardShort s now hc, cageShort_retried (s := atTime s now) h1 h5]
  case shortLatched => rw [exec_cgHardShort s now hc, cageShort_latched (s := atTime s now) hst]
  case retry =>
    exact done_onCage hc ((if_pos ht).trans (cageRetry_backoff (s := atTime s now) hst))
  case notRetry =>
    refine done_onCage_idle c ?_
    rcases h with hst | ht
    · rw [cageRetry_other (s := atTime s now) hst, ite_self]
    · exact if_neg (Nat.not_le.mpr ht)
  case good =>
    exact done_onCage hc (cageGood_qualified (s := atTime s now) hst hlim ht)
  case notGood => exact done_onCage_idle c (cageGood_other (s := atTime s now) h)
  case zero =>
    exact done_onCage hc (cageZero_due (s := atTime s now) hst ht)
  case measure =>
    subst hu
    exact done_onCage hc rfl

end Sys2Proof.Machine
end

section
/-!
SUPPORT. Supplies, THERMTRIP and the reference clocks (R564 to R571, R585, R590): the cases of each monitor's guard.
-/

namespace Sys2Proof.Machine

section
variable {s : State} {rail : Nat} (cv : Nat)

theorem supplyWarns_rail (h : rail = 1 ∨ rail = 2) :
    supplyWarns s rail cv =
      let u := setDip (setWarn s rail true) rail
      tell (supplySource (refreshRecovering (setPw u fun w => { w with recoverAt := mdel w.recoverAt rail })) true) (.fault 15 rail) := by
  have hshow : rail ≠ 0 := by omega
  have hmon : ¬(3 ≤ rail ∨ rail = 0 ∧ rdb s F.pwStatVmonOpen = true) := by omega
  simp only [supplyWarns, if_neg hmon, if_neg hshow]

theorem supplyWarns_vmon (h : rdb s F.pwStatVmonOpen = false) :
    supplyWarns s 0 cv =
      let u := setDip (setWarn (showVmon s cv) 0 true) 0
      tell (supplySource (refreshRecovering (setPw u fun w => { w with recoverAt := mdel w.recoverAt 0 })) true) (.fault 15 0) := by
  simp [supplyWarns, h]

theorem supplyWarns_unmonitored (h : 3 ≤ rail ∨ (rail = 0 ∧ rdb s F.pwStatVmonOpen = true)) : supplyWarns s rail cv = s := by
  rw [supplyWarns, if_pos h]

theorem supplyRises_low (h : railWarns s rail = true ∨ mhas s.pw.recoverAt rail = true) :
    supplyRises s rail cv =
      let u := setWarn (if rail = 0 then showVmon s cv else s) rail false
      refreshRecovering (setPw u fun w => { w with recoverAt := mset w.recoverAt rail s.timeNs }) := by
  have htime : (showVmon s cv).timeNs = s.timeNs := by rw [showVmon, wr_timeNs, wr_timeNs]
  by_cases h0 : rail = 0
  · subst h0
    simp [supplyRises, h, htime]
  · simp [supplyRises, h, h0]

theorem supplyRises_idle (hw : railWarns s rail = false) (hc : mhas s.pw.recoverAt rail = false) : supplyRises s rail cv = s :=
  if_neg (by simp [hw, hc])

theorem countOver_due {at' : Nat} {u : State} (hm : mget s.pw.recoverAt rail = some at') (ht : at' + 2000000 ≤ s.timeNs)
    (hu : u = refreshRecovering (setPw s fun w => { w with recoverAt := mdel w.recoverAt rail })) :
    countOver s rail = if warningStands u = true ∨ u.pw.recoverAt ≠ [] then u else supplySource u false := by
  subst hu
  simp only [countOver, hm, if_pos ht, supplyRecovered, Bool.or_eq_true, Bool.not_eq_true', List.isEmpty_eq_false_iff]

theorem countOver_not_due (h : ∀ at', mget s.pw.recoverAt rail = some at' → s.timeNs < at' + 2000000) : countOver s rail = s := by
  cases hm : mget s.pw.recoverAt rail with
  | none => simp only [countOver, hm]
  | some at' => simp only [countOver, hm, if_neg (Nat.not_le.mpr (h at' hm))]

theorem supplyReset_rail {u : State} (hr : rail < 9) (hopen : rail = 0 → rdb s F.pwStatVmonOpen = false)
    (hu : u = setPw (wrb s F.pwEvtSupplyReset true) fun w => { w with low := rail :: w.low.erase rail }) :
    supplyReset s rail = if s.fc.chipReset = true then u else chipReset u 3 15 (0x0100 + rail) := by
  subst hu
  refine if_neg ?_
  rintro (hmany | ⟨h0, ho⟩)
  · omega
  · exact Bool.false_ne_true ((hopen h0).symm.trans ho)

theorem supplyReset_unmonitored (h : 9 ≤ rail ∨ (rail = 0 ∧ rdb s F.pwStatVmonOpen = true)) : supplyReset s rail = s := if_pos h

theorem vmonTest_opens {rise : Nat} (hr : 300 < rise) (ho : rdb s F.pwStatVmonOpen = false) :
    vmonTest s rise = tell (wrb (wrb s F.pwStatVmonOpen true) F.pwEvtVmonOpenSeen true) (.fault 19 1) := by
  simp only [vmonTest, if_pos hr, ho, Bool.false_eq_true, if_false]

theorem vmonTest_open {rise : Nat} (hr : 300 < rise) (ho : rdb s F.pwStatVmonOpen = true) :
    vmonTest s rise = wrb s F.pwEvtVmonOpenSeen true := by
  simp only [vmonTest, if_pos hr, ho, if_true]

theorem vmonTest_closed {rise : Nat} (hr : rise ≤ 300) : vmonTest s rise = wrb s F.pwStatVmonOpen false := if_neg (Nat.not_lt.mpr hr)

/-- A port's links drop when its link is up. -/
theorem linkResets_port {hp : Nat} (h : hp < 2) :
    linkResets s hp = if rdb s F.hiPortStatLinkUp hp = true then beginPortReset s hp else s := by
  simp only [linkResets, decide_eq_true h, Bool.and_true]

theorem trips_first {t : State} (h : s.pw.tripped = false)
    (ht : t = (List.range 64).foldl (fun x c => if cageState x c = 0 then x else cageOff x c)
      (setPw s fun w => { w with tripped := true })) :
    trips s =
      let u := if rdb t F.hiPortStatLinkUp 0 = true then beginPortReset t 0 else t
      if rdb u F.hiPortStatLinkUp 1 = true then beginPortReset u 1 else u := by
  have htrip : thermTrip s = t := ht.symm
  rw [trips, h, if_neg Bool.false_ne_true, htrip, linkResets_port (by omega), linkResets_port (by omega)]

theorem trips_latched (h : s.pw.tripped = true) : trips s = s := if_pos h

end

section
variable (s : State) (now rail : Nat)

theorem exec_supplyWarning (cv : Nat) :
    exec (.supplyWarning now rail cv) s = .next (settled s (supplyWarns (atTime s now) rail cv)) := rfl

theorem exec_supplyAboveRecovery (cv : Nat) :
    exec (.supplyAboveRecovery now rail cv) s = .next (settled s (supplyRises (atTime s now) rail cv)) := rfl

theorem exec_supplyRecoveryDone : exec (.supplyRecoveryDone now rail) s = .next (settled s (countOver (atTime s now) rail)) := rfl

theorem exec_supplyReset : exec (.supplyReset now rail) s = .next (settled s (supplyReset (atTime s now) rail)) := rfl

theorem exec_vmonOpenTest (rise : Nat) : exec (.vmonOpenTest now rise) s = .next (settled s (vmonTest (atTime s now) rise)) := rfl

theorem exec_thermtrip : exec (.thermtrip now) s = .next (settled s (trips (atTime s now))) := rfl

theorem exec_refclkLoss (clock : Nat) :
    exec (.refclkLoss now clock) s
      = .next (settled s (if clock < 6 then takeFault (atTime s now) 20 clock else atTime s now)) := rfl

end

/-- Settles O53: each monitor by its own guard, at the time that the command reports. -/
theorem supplyCommandsComplete : Obligations.SupplyCommandsComplete := by
  unfold Obligations.SupplyCommandsComplete
  refine ⟨fun s now rail cv h => ?warns, fun s now cv h => ?vmon, fun s now rail cv h => ?unmonitored, fun s now rail cv h => ?rises,
    fun s now rail cv hw hc => ?idle, fun s now rail at' u hm ht hu => ?counted, fun s now rail h => ?counting,
    fun s now rail u hr ho hu => ?resets, fun s now rail h => ?noReset, fun s now rise hr ho => ?opens, fun s now rise hr ho => ?stillOpen,
    fun s now rise hr => ?closed, fun s now t h ht => ?trips, fun s now h => ?tripped, fun s now clock h => ?clock,
    fun s now clock h => ?noClock⟩
  case warns => rw [exec_supplyWarning, supplyWarns_rail cv h]
  case vmon => rw [exec_supplyWarning, supplyWarns_vmon (s := atTime s now) cv h]
  case unmonitored => rw [exec_supplyWarning, supplyWarns_unmonitored (s := atTime s now) cv h]
  case rises => rw [exec_supplyAboveRecovery, supplyRises_low (s := atTime s now) cv h]
  case idle => rw [exec_supplyAboveRecovery, supplyRises_idle (s := atTime s now) cv hw hc]
  case counted => rw [exec_supplyRecoveryDone, countOver_due (s := atTime s now) hm ht hu]
  case counting => rw [exec_supplyRecoveryDone, countOver_not_due (s := atTime s now) h]
  case resets => rw [exec_supplyReset, supplyReset_rail (s := atTime s now) hr ho hu]; rfl
  case noReset => rw [exec_supplyReset, supplyReset_unmonitored (s := atTime s now) h]
  case opens => rw [exec_vmonOpenTest, vmonTest_opens (s := atTime s now) hr ho]
  case stillOpen => rw [exec_vmonOpenTest, vmonTest_open (s := atTime s now) hr ho]
  case closed => rw [exec_vmonOpenTest, vmonTest_closed hr]
  case trips => rw [exec_thermtrip, trips_first (s := atTime s now) h ht]
  case tripped => rw [exec_thermtrip, trips_latched (s := atTime s now) h]
  case clock => rw [exec_refclkLoss, if_pos h]
  case noClock => rw [exec_refclkLoss, if_neg (Nat.not_lt.mpr h)]

end Sys2Proof.Machine
end

section
/-!
SUPPORT. Monitoring (R594 to R605): the registers of PM past the gate, and the cases of samples, snapshots, drains and the patina.
-/

namespace Sys2Proof.Machine

/-! ### Registers of PM -/

/-- A write of a register of PM reaches pmWrite. -/
theorem blockWrite_pm (t : State) (who : Who) {key : Nat} (w : Word) (env : CsrEnv) (h : 0x00500000 ≤ key ∧ key < 0x00600000) :
    blockWrite t who key w env = pmWrite t who key w := by
  have hpage : pageOf key = none := pageOf_of_lt (by omega)
  simp only [blockWrite, hpage]
  iterate 5 rw [if_neg (by omega)]
  rw [if_pos h]

/-- The offset of a counter's word. -/
def pmCntKey (i : Nat) : Nat := 0x00501800 + 8 * i

theorem pmCntKey_eq (i : Nat) : pmCntKey i = 0x00501800 + 8 * i := rfl

theorem regFind_pmCntKey : ∀ i < 256, regFind (pmCntKey i) = some R.pmCnt := by decide +kernel

theorem pmWrite_cnt (t : State) (who : Who) {i : Nat} (w : Word) : pmWrite t who (pmCntKey i) w = csrPlain t (pmCntKey i) w := by
  have hkey := pmCntKey_eq i
  unfold pmWrite
  iterate 5 rw [if_neg (by omega)]

/-- A counter's word after the write of its fields (R605). -/
def cntStored (t : State) (i : Nat) (w : Word) : State :=
  csrPut t (pmCntKey i) (wordWrite (locked t (pmCntKey i)) (fieldsAt (pmCntKey i)) (csrRaw t (pmCntKey i)) w)

theorem exec_pmCounterWrite_served {s : State} {who : Who} {width i : Nat} {w : Word} (h : Served s who) (hw : 64 ≤ width) (hi : i < 256)
    (hl : wordLegal (fieldsAt (pmCntKey i)) w = true) :
    exec (.pmCounterWrite who i width w) s = .next (settled s (viaGate s who fun t => cntStored t i w)) := by
  have hkey := pmCntKey_eq i
  have hreg := regFind_pmCntKey i hi
  refine congrArg (done s) ((if_pos hi).trans ?_)
  refine csrWriteBy_block s who (pmCntKey i) width w noEnv _ h hw ?place (.inr hl) fun t ht => ?effect
  case place =>
    simp only [takesWrites_of_regFind hreg (by decide), Bool.true_and, Bool.and_eq_true, beq_iff_eq, decide_eq_true_eq]
    omega
  case effect => rw [blockWrite_pm t who w noEnv (by omega), pmWrite_cnt, csrPlain_legal t (by rw [hreg]; rfl) hl, cntStored]

section
variable {s : State} {who : Who} {width : Nat} {w : Word} {f : State → State} (h : Served s who) (hw : 64 ≤ width)
include h hw

theorem csrWriteBy_pmCtl (hl : wordLegal (fieldsAt 0x00500000) w = true) (hf : ∀ t, Entry t s → pmCtlWrite t w = f t) :
    csrWriteBy s who 0x00500000 width w noEnv = viaGate s who f :=
  csrWriteBy_block s who 0x00500000 width w noEnv f h hw (by decide +kernel) (.inr hl) fun t ht => by
    rw [blockWrite_pm t who w noEnv (by omega), ← hf t ht]
    exact if_pos rfl

/-- The port over which a write comes, if any. -/
def portOfWriter : Who → Option Nat
  | .fn hp _ => some hp
  | .mgmt => none

theorem csrWriteBy_pmDrainCmd (hl : wordLegal (fieldsAt 0x00500118) w = true)
    (hf : ∀ t, Entry t s → drainCmd t (portOfWriter who) w = f t) : csrWriteBy s who 0x00500118 width w noEnv = viaGate s who f :=
  csrWriteBy_block s who 0x00500118 width w noEnv f h hw (by decide +kernel) (.inr hl) fun t ht => by
    rw [blockWrite_pm t who w noEnv (by omega), ← hf t ht]
    cases who <;> rfl

end

/-! ### PM_CNT -/

theorem fieldsAt_pmCntKey {i : Nat} (h : i < 256) : fieldsAt (pmCntKey i) = R.pmCnt.fields := fieldsAt_of_regFind (regFind_pmCntKey i h)

/-- VALUE is replaced; OVF takes the bits that the word clears. -/
theorem wordWrite_pmCnt (l : Bool) (old w : Word) :
    wordWrite l R.pmCnt.fields old w
      = wordSet (wordSet old 63 1 (wordGet old 63 1 - Nat.land (wordGet old 63 1) (wordGet w 63 1))) 0 48 (wordGet w 0 48) := rfl

theorem wordGet_wordWrite_value (l : Bool) (old w : Word) : wordGet (wordWrite l R.pmCnt.fields old w) 0 48 = wordGet w 0 48 := by
  rw [wordWrite_pmCnt, wordGet_wordSet_same _ _ _ _ (by decide)]
  exact Nat.mod_mod _ _

theorem wordGet_wordWrite_ovf (l : Bool) (old w : Word) :
    (wordGet (wordWrite l R.pmCnt.fields old w) 63 1 == 1) = ((wordGet old 63 1 == 1) && !bitAt w.toNat 63) := by
  have hbit : bitAt w.toNat 63 = (wordGet w 63 1 == 1) := rfl
  have hold : wordGet old 63 1 < 2 := Nat.mod_lt _ (by decide)
  have hnew : wordGet w 63 1 < 2 := Nat.mod_lt _ (by decide)
  rw [wordWrite_pmCnt, wordGet_wordSet_above _ _ _ _ _ _ (by decide) (by decide), wordGet_wordSet_same _ _ _ _ (by decide), hbit]
  generalize wordGet old 63 1 = o at hold
  generalize wordGet w 63 1 = n at hnew
  revert o n
  decide

section
variable {i : Nat} (t : State) (l : Bool) (w : Word) (n : Nat)

theorem rd_freezePm (s : State) (cause : Nat) {g : Fld} (k : Nat) (h : g.key k ≠ 0x00500008) : rd (freezePm s cause) g k = rd s g k := by
  unfold freezePm
  dsimp only
  split
  · exact rd_wr_apart _ _ _ _ _ _ _ _ (by decide) (.inl h)
  · rfl

theorem rd_eventPf0 (s : State) (w0 w1 k : Nat) (g : Fld) : rd (eventPf0 s w0 w1) g k = rd s g k := by
  have hcsr : (eventPf0 s w0 w1).csr = s.csr := by rw [eventPf0, event_csr, event_csr]
  rw [rd, csrRaw, hcsr]
  rfl

/-- Events are added to VALUE, whatever a wrap past 48 bits brings about (R596). -/
theorem rd_pmAdd_value (i : Nat) : rd (pmAdd t i n) F.pmCntValue i = (rd t F.pmCntValue i + n) % 2 ^ 48 := by
  have hwritten (v : Nat) : rd (wr t F.pmCntValue (v % 2 ^ 48) i) F.pmCntValue i = v % 2 ^ 48 := by
    rw [rd_wr_self _ _ _ (by decide)]
    exact Nat.mod_mod _ _
  have hovf (s : State) : rd (wrb s F.pmCntOvf true i) F.pmCntValue i = rd s F.pmCntValue i := rd_wr_besides _ _ _ (by decide)
  have hfreeze (s : State) : rd (if rdb s F.pmCtlFrzOnOvf = true then freezePm s 2 else s) F.pmCntValue i = rd s F.pmCntValue i := by
    split
    · exact rd_freezePm s 2 i (by simp only [Fld.key, F.pmCntValue]; omega)
    · rfl
  have htold (s : State) (b : Bool) (w0 : Nat) (f : PmSt → PmSt) :
      rd (if b = true then eventPf0 (setPm s f) w0 0 else s) F.pmCntValue i = rd s F.pmCntValue i := by
    split
    · rw [rd_eventPf0, rd_setPm]
    · rfl
  unfold pmAdd
  dsimp only
  split
  · exact hwritten _
  · rw [hfreeze, htold, hovf, hwritten]

end

/-- Settles O59: the counter's two fields by their access codes; events of its tick are added to what the write left. -/
theorem counterWriteReplacesValueAtOnce : Obligations.CounterWriteReplacesValueAtOnce := by
  unfold Obligations.CounterWriteReplacesValueAtOnce
  refine fun i hi => ⟨fun s who width val h hw hl => exec_pmCounterWrite_served h hw hi hl, fun t l val n => ?_⟩
  rw [show fieldsAt (0x00501800 + 8 * i) = R.pmCnt.fields from fieldsAt_pmCntKey hi]
  have hkey : 0x00501800 + 8 * i = F.pmCntValue.key i := by simp only [Fld.key, F.pmCntValue]
  have hvalue : rd (csrPut t (0x00501800 + 8 * i) (wordWrite l R.pmCnt.fields (csrRaw t (0x00501800 + 8 * i)) val)) F.pmCntValue i
      = wordGet val 0 48 := by
    rw [rd, hkey, csrRaw_csrPut_same]
    exact wordGet_wordWrite_value l _ val
  refine ⟨hvalue, ?ovf, ?added, fun key hne => csrRaw_csrPut_ne _ _ hne⟩
  case ovf =>
    have hovf : 0x00501800 + 8 * i = F.pmCntOvf.key i := by simp only [Fld.key, F.pmCntOvf]
    rw [rdb, rd, hovf, csrRaw_csrPut_same]
    exact wordGet_wordWrite_ovf l _ val
  case added => rw [rd_pmAdd_value, hvalue]

/-! ### Samples, snapshots, drains and the patina -/

theorem exec_pmLevelSample (s : State) (now : Nat) :
    exec (.pmLevelSample now) s = .next (settled s (pmSampleLevels (atTime s now))) := rfl

/-- What a sampled level does to its counter, by MODE (R595). -/
theorem pmSampleLevels_eq (t : State) :
    pmSampleLevels t = (List.range 256).foldl (fun u i =>
      if pmRuns t i && pmLevel (rd u F.pmSelBlock i) (rd u F.pmSelEvent i) then
        let v := pmSampled u i
        let x := setPm u fun p => { p with levels := mset p.levels i v }
        if rd x F.pmSelMode i = 0 then pmAdd x i v
        else if rd x F.pmSelMode i = 1 then if rd u F.pmSelThr i ≤ v then pmAdd x i 1 else x
        else if rd x F.pmSelMode i = 2 then
          if mgetD u.pm.levels i 0 < rd u F.pmSelThr i ∧ rd u F.pmSelThr i ≤ v then pmAdd x i 1 else x
        else x
      else u) t := by
  unfold pmSampleLevels
  dsimp only
  congr 1
  funext u i
  split
  · generalize rd (setPm u _) F.pmSelMode i = mode
    match mode with
    | 0 => rfl
    | 1 => rfl
    | 2 => rfl
    | _ + 3 => rfl
  · rfl

section
variable {s : State} {w : Word}

theorem pmCtlWrite_taken {u v x : State} (hp : wordGet w 16 16 = 0 ∨ 10 ≤ wordGet w 16 16)
    (hu : u = csrPlain s 0x500000 (wordSet w 2 1 0))
    (hv : v = if rd s F.pmCtlPeriodUs = wordGet w 16 16 then u else setPm u fun p => { p with snapAt := u.timeNs })
    (hx : x = if bitAt w.toNat 1 = true then freezePm v 1 else wr (setPm v fun p => { p with frozen := false }) F.pmStatFrzCause 0) :
    pmCtlWrite s w = if bitAt w.toNat 2 = true then takeSnapshot x else x := by
  subst hx hv hu
  have hperiod : ¬(1 ≤ wordGet w 16 16 ∧ wordGet w 16 16 ≤ 9) := by omega
  simp only [pmCtlWrite, if_neg hperiod]

theorem pmCtlWrite_refused (h1 : 1 ≤ wordGet w 16 16) (h9 : wordGet w 16 16 ≤ 9) : pmCtlWrite s w = refuseWrite s := by
  have hperiod : 1 ≤ wordGet w 16 16 ∧ wordGet w 16 16 ≤ 9 := ⟨h1, h9⟩
  simp only [pmCtlWrite, if_pos hperiod]

theorem exec_pmSnapshotPeriod (s : State) (now : Nat) :
    exec (.pmSnapshotPeriod now) s = .next (settled s (snapDue (atTime s now))) := rfl

theorem snapDue_due (hp : rd s F.pmCtlPeriodUs ≠ 0) (ht : s.pm.snapAt + rd s F.pmCtlPeriodUs * 1000 ≤ s.timeNs) :
    snapDue s = takeSnapshot (setPm s fun x => { x with snapAt := s.timeNs }) := if_neg (by omega)

theorem snapDue_not_due (h : rd s F.pmCtlPeriodUs = 0 ∨ s.timeNs < s.pm.snapAt + rd s F.pmCtlPeriodUs * 1000) :
    snapDue s = s := if_pos h

theorem exec_pmDrainCmd (s : State) (who : Who) (width : Nat) (val : Word) :
    exec (.pmDrainCmd who width val) s = .next (settled s (csrWriteBy s who 0x00500118 width val noEnv)) := rfl

theorem Entry.pmDrainStatSt_eq {t : State} (h : Entry t s) : rd t F.pmDrainStatSt = rd s F.pmDrainStatSt :=
  h.raw _ 0 0 (by decide) (by decide) (by decide)

theorem drainCmd_begins (hp : Nat) (hst : rd s F.pmDrainStatSt ≠ 1) (hn : wordGet w 16 16 ≠ 0) (hgo : bitAt w.toNat 0 = true) :
    drainCmd s (some hp) w = wr (setPm s fun p => { p with drain := some (wordGet w 8 1, wordGet w 16 16, hp) }) F.pmDrainStatSt 1 := by
  simp only [drainCmd, hst, hn, or_self, if_false, hgo, Bool.not_true, Bool.false_eq_true]

theorem drainCmd_noGo (hp : Option Nat) (hst : rd s F.pmDrainStatSt ≠ 1) (hn : wordGet w 16 16 ≠ 0) (hgo : bitAt w.toNat 0 = false) :
    drainCmd s hp w = s := by
  simp only [drainCmd, hst, hn, or_self, if_false, hgo, Bool.not_false, if_true]

theorem drainCmd_refused {hp : Option Nat}
    (h : rd s F.pmDrainStatSt = 1 ∨ wordGet w 16 16 = 0 ∨ (bitAt w.toNat 0 = true ∧ hp = none)) : drainCmd s hp w = refuseWrite s := by
  by_cases hbusy : rd s F.pmDrainStatSt = 1 ∨ wordGet w 16 16 = 0
  · simp only [drainCmd, if_pos hbusy]
  · obtain ⟨hgo, rfl⟩ : bitAt w.toNat 0 = true ∧ hp = none := by tauto
    simp only [drainCmd, if_neg hbusy, hgo, Bool.not_true, Bool.false_eq_true, if_false]

theorem exec_pmDrainDone (s : State) : exec .pmDrainDone s = .next (settled s (drainDone s)) := rfl

theorem drainDone_running {ring count hp n : Nat} {l : List (List Word)} (hd : s.pm.drain = some (ring, count, hp))
    (hl : l = if ring = 0 then s.pm.snaps else s.pm.samples) (hn : n = min count l.length) :
    drainDone s =
      let u := if serving s hp = true ∧ 0 < n then emit s (.hostWords hp (rd s F.pmDrainAddrAddr * 64) (l.take n).flatten) else s
      wr (wr (setPm u fun p => { p with
        drain := none, snaps := if ring = 0 then p.snaps.drop n else p.snaps,
        samples := if ring = 0 then p.samples else p.samples.drop n }) F.pmDrainStatSt 2) F.pmDrainStatCopied n := by
  subst hn hl
  simp only [drainDone, hd, Bool.and_eq_true, decide_eq_true_eq]

theorem drainDone_idle (hd : s.pm.drain = none) : drainDone s = s := by simp only [drainDone, hd]

theorem exec_patinaPeriodicWrite (s : State) (now hot powered : Nat) :
    exec (.patinaPeriodicWrite now hot powered) s = .next (settled s (patinaWritten (atTime s now) hot powered)) := rfl

theorem patinaWritten_running (hot powered : Nat) (h : firmwareRuns s = true) :
    patinaWritten s hot powered =
      let u := setPat s 6 0 (hot % 2 ^ 32 * 2 ^ 32 + powered % 2 ^ 32) true
      setFc u fun f => { f with patinaFlash := f.patina } := if_pos h

theorem patinaWritten_stopped (hot powered : Nat) (h : firmwareRuns s = false) : patinaWritten s hot powered = s :=
  if_neg (ne_true_of_eq_false h)

end

theorem firmwareRuns_atTime (s : State) (now : Nat) : firmwareRuns (atTime s now) = firmwareRuns s := rfl

/-- Settles O55: the registers of PM past the gate by what each takes; samples, snapshots, drains and the patina by their own guards. -/
theorem monitoringCommandsComplete : Obligations.MonitoringCommandsComplete := by
  unfold Obligations.MonitoringCommandsComplete
  refine ⟨fun s now t ht => ?sample, fun s now who width val h hw hl => ?freeze, fun s now who width val h hw hl => ?snap,
    fun s w u v x => pmCtlWrite_taken, fun s w => pmCtlWrite_refused, fun s now hp ht => ?period, fun s now h => ?noPeriod,
    fun s hp fn width val h hw hl hst hn hgo => ?drain, fun s who width val h hw hl hst hn hgo => ?noGo,
    fun s who width val h hw hl hbad => ?drainRefused, fun s ring count hp l n hd hl hn => ?drained, fun s hd => ?noDrain,
    fun s who width i val h hw hi hl => exec_pmCounterWrite_served h hw hi hl, fun s now hot powered h => ?patina,
    fun s now hot powered h => ?noPatina⟩
  case sample => subst ht; rw [exec_pmLevelSample, pmSampleLevels_eq]
  case freeze => exact congrArg (done s) (csrWriteBy_pmCtl (served_atTime now h) hw hl fun _ _ => rfl)
  case snap => exact congrArg (done s) (csrWriteBy_pmCtl (served_atTime now h) hw hl fun _ _ => rfl)
  case period => rw [exec_pmSnapshotPeriod, snapDue_due (s := atTime s now) hp ht]
  case noPeriod => rw [exec_pmSnapshotPeriod, snapDue_not_due (s := atTime s now) h]
  case drain =>
    rw [exec_pmDrainCmd, csrWriteBy_pmDrainCmd h hw hl fun t ht => drainCmd_begins hp (ht.pmDrainStatSt_eq ▸ hst) hn hgo]
  case noGo =>
    rw [exec_pmDrainCmd, csrWriteBy_pmDrainCmd (f := id) h hw hl fun t ht => drainCmd_noGo _ (ht.pmDrainStatSt_eq ▸ hst) hn hgo]
  case drainRefused =>
    rw [exec_pmDrainCmd, csrWriteBy_pmDrainCmd h hw hl fun t ht => drainCmd_refused ?_]
    rw [ht.pmDrainStatSt_eq]
    refine hbad.imp_right fun hbad => hbad.imp_right fun ⟨hgo, hwho⟩ => ⟨hgo, ?_⟩
    rw [hwho, portOfWriter]
  case drained => rw [exec_pmDrainDone, drainDone_running hd hl hn]
  case noDrain => rw [exec_pmDrainDone, drainDone_idle hd]
  case patina => rw [exec_patinaPeriodicWrite, patinaWritten_running (s := atTime s now) hot powered (firmwareRuns_atTime s now ▸ h)]
  case noPatina => rw [exec_patinaPeriodicWrite, patinaWritten_stopped (s := atTime s now) hot powered (firmwareRuns_atTime s now ▸ h)]

end Sys2Proof.Machine
end

section
/-!
SUPPORT. Groups (R401, R402, R405): CL_CMD past the gate by its code and the group's state, and the timers of a hop and of an operation.
-/

namespace Sys2Proof.Machine

/-! ### CL_CMD -/

/-- The word of CL_CMD for a group. -/
def clCmdWord (g cmd : Nat) : Word := BitVec.ofNat 64 (cmd * 2 ^ 32 + g % 2 ^ 12)

theorem clCmdWord_group {g : Nat} (hg : g < 4096) (cmd : Nat) : wordGet (clCmdWord g cmd) 0 12 = g := by
  simp only [clCmdWord, wordGet, BitVec.toNat_ofNat]
  omega

theorem clCmdWord_cmd {cmd : Nat} (hc : cmd < 4) (g : Nat) : wordGet (clCmdWord g cmd) 32 2 = cmd := by
  simp only [clCmdWord, wordGet, BitVec.toNat_ofNat]
  omega

theorem clCmdWord_legal (g : Nat) {cmd : Nat} (h : cmd = 1 ∨ cmd = 2) : wordLegal (fieldsAt 0x08000010) (clCmdWord g cmd) = true := by
  have hreg : regFind 0x08000010 = some R.clCmd := by decide +kernel
  rw [fieldsAt_of_regFind hreg]
  rcases h with rfl | rfl <;> simp [R.clCmd, wordLegal, Access.judged, Legal.ok, clCmdWord_cmd]

theorem blockWrite_clCmd (t : State) (who : Who) (w : Word) (env : CsrEnv) : blockWrite t who 0x08000010 w env = clCommand t who w := rfl

/-- A served write of CL_CMD reaches clCommand. -/
theorem clStore_served {s : State} {who : Who} {width g cmd : Nat} {f : State → State} (h : Served s who) (hw : 64 ≤ width)
    (hc : cmd = 1 ∨ cmd = 2) (hf : ∀ t, Entry t s → clCommand t who (clCmdWord g cmd) = f t) :
    clStore s who width g cmd = viaGate s who f :=
  csrWriteBy_block s who 0x08000010 width (clCmdWord g cmd) noEnv f h hw (by decide +kernel) (.inr (clCmdWord_legal g hc)) fun t ht => by
    rw [blockWrite_clCmd, hf t ht]

section
variable {s : State} {who : Who} {g : Nat} (hg : g < 4096)
include hg

theorem clCommand_abort (hp : isPf0 who = true) :
    clCommand s who (clCmdWord g 1) = if rdb s F.clGroupValid g = true then abortGrp s g (abortSeq s g) 6 none else s := by
  simp only [clCommand, hp, clCmdWord_cmd (show 1 < 4 by omega), clCmdWord_group hg, Bool.not_true,
    Bool.false_eq_true, if_false]

theorem clCommand_reset (hp : isPf0 who = true) :
    clCommand s who (clCmdWord g 2) = if rd s F.clGroupState g = 2 then
      refreshPool (setGrp (wr (wr s F.clGroupState 0 g) F.clGroupCause 0 g) g {}) else s := by
  simp only [clCommand, hp, clCmdWord_cmd (show 2 < 4 by omega), clCmdWord_group hg, Bool.not_true,
    Bool.false_eq_true, if_false]

omit hg in
theorem clCommand_other (w : Word) (hp : isPf0 who = false) : clCommand s who w = refuseWrite s := by
  simp only [clCommand, hp, Bool.not_false, if_true]

theorem Entry.clGroup {t : State} (h : Entry t s) (f : Fld)
    (hf : (decide (0x08010000 ≤ f.addr) && decide (f.addr < 0x08010020) && f.stride == 32) = true) : rd t f g = rd s f g := by
  simp only [Bool.and_eq_true, beq_iff_eq, decide_eq_true_eq] at hf
  have hkey : f.key g = f.addr + 32 * g := by rw [Fld.key, hf.2]
  exact h.raw f g 0 (by omega) (by omega) (by omega)

theorem Entry.clGroupValid_eq {t : State} (h : Entry t s) : rdb t F.clGroupValid g = rdb s F.clGroupValid g := by
  rw [rdb, h.clGroup hg F.clGroupValid (by decide), rdb]

theorem Entry.clGroupState_eq {t : State} (h : Entry t s) : rd t F.clGroupState g = rd s F.clGroupState g :=
  h.clGroup hg F.clGroupState (by decide)

end

theorem exec_collClCmdAbort (s : State) (who : Who) (g width : Nat) :
    exec (.collClCmdAbort who g width) s = .next (settled s (clStore s who width g 1)) := rfl

theorem exec_clCmdReset (s : State) (who : Who) (g width : Nat) :
    exec (.clCmdReset who g width) s = .next (settled s (clStore s who width g 2)) := rfl

/-! ### Hop timers and operation limits -/

theorem exec_clHopRtoExpired (s : State) (now g dev seq psn : Nat) (abort : Bool) :
    exec (.clHopRtoExpired now g dev seq psn abort) s = .next (settled s (hopExpired (atTime s now) g dev seq psn abort)) := rfl

theorem exec_clOpLimitExpired (s : State) (now g seq : Nat) :
    exec (.clOpLimitExpired now g seq) s = .next (settled s (opLimit (atTime s now) g seq)) := rfl

section
variable {s : State} {g dev seq psn id : Nat} {abort : Bool} {p : CollPkt} (hp : collWaits s g dev seq psn abort = some (id, p))
include hp

theorem hopExpired_resends (hh : holdOn s = false) (ht : p.at' + hopWait s p ≤ s.timeNs)
    (hr : p.busy = true ∨ p.retries < rd s F.clCfgHopRetries) :
    hopExpired s g dev seq psn abort =
      let x := grp s g
      let q := { p with at' := s.timeNs, busy := false, retries := if p.busy then p.retries else p.retries + 1 }
      queueColl (pmCount (inc (setGrp s g { x with sends := mset x.sends id q }) F.clCnt0Retx) 0x80 g 3 1)
        g p.dev p.up p.key p.seq p.psn p.off p.tc p.last p.payload := by
  have hleft : (!p.busy && decide (rd s F.clCfgHopRetries ≤ p.retries)) = false := by
    rcases hr with hb | hr
    · rw [hb]; rfl
    · rw [decide_eq_false (Nat.not_le.mpr hr), Bool.and_false]
  simp only [hopExpired, hp, hh, decide_eq_false (Nat.not_lt.mpr ht), hleft, Bool.or_self, Bool.false_eq_true, if_false]

theorem hopExpired_ends (hh : holdOn s = false) (ht : p.at' + hopWait s p ≤ s.timeNs) (hb : p.busy = false)
    (hr : rd s F.clCfgHopRetries ≤ p.retries) :
    hopExpired s g dev seq psn abort =
      if p.kind = 2 then setGrp s g { grp s g with sends := mdel (grp s g).sends id } else abortGrp s g seq 1 none := by
  simp only [hopExpired, hp, hh, decide_eq_false (Nat.not_lt.mpr ht), hb, decide_eq_true hr, Bool.not_false, Bool.and_self, Bool.or_self,
    Bool.false_eq_true, if_false, if_true]

theorem hopExpired_stays (h : holdOn s = true ∨ s.timeNs < p.at' + hopWait s p) : hopExpired s g dev seq psn abort = s := by
  have hwait : (holdOn s || decide (s.timeNs < p.at' + hopWait s p)) = true := by simpa using h
  simp only [hopExpired, hp, hwait, if_true]

end

section
variable {s : State} {g seq : Nat}

theorem opLimit_due {o : CollOp} (ho : mget (grp s g).ops seq = some o) (hh : holdOn s = false) (hd : o.done = false)
    (hl : rd s F.clCfgOpLimitMs ≠ 0) (ht : o.since + rd s F.clCfgOpLimitMs * 1000000 ≤ s.timeNs) :
    opLimit s g seq = abortGrp s g seq 5 none := by
  simp only [opLimit, ho, hh, hd, beq_false_of_ne hl, decide_eq_false (Nat.not_lt.mpr ht), Bool.or_self, Bool.false_eq_true, if_false]

theorem opLimit_stays {o : CollOp} (ho : mget (grp s g).ops seq = some o) (h : holdOn s = true ∨ o.done = true ∨ rd s F.clCfgOpLimitMs = 0
    ∨ s.timeNs < o.since + rd s F.clCfgOpLimitMs * 1000000) : opLimit s g seq = s := by
  have hwait : (holdOn s || o.done || rd s F.clCfgOpLimitMs == 0
      || decide (s.timeNs < o.since + rd s F.clCfgOpLimitMs * 1000000)) = true := by
    simpa [or_assoc] using h
  simp only [opLimit, ho, hwait, if_true]

theorem opLimit_early {at' : Nat} {p : Pkt} (ho : mget (grp s g).ops seq = none) (hm : (at', p) ∈ (grp s g).early) (hseq : p.msgid = seq)
    (hh : holdOn s = false) (hl : rd s F.clCfgOpLimitMs ≠ 0) (ht : at' + rd s F.clCfgOpLimitMs * 1000000 ≤ s.timeNs) :
    opLimit s g seq = abortGrp s g seq 5 none := by
  have hany : ((grp s g).early.any fun e => e.2.msgid == seq && decide (e.1 + rd s F.clCfgOpLimitMs * 1000000 ≤ s.timeNs)) = true :=
    List.any_eq_true.mpr ⟨(at', p), hm, by simp [hseq, ht]⟩
  simp [opLimit, ho, hh, hl, hany]

end

/-- Settles O43: CL_CMD past the gate by its writer and the group's state; the timers by what waits and its time. -/
theorem groupCommandsComplete : Obligations.GroupCommandsComplete := by
  unfold Obligations.GroupCommandsComplete
  refine ⟨fun s who width g h hw hp hg hv => ?abort, fun s who width g h hw hp hg hv => ?noAbort, fun s who width g h hw hp hg hst => ?reset,
    fun s who width g h hw hp hg hst => ?noReset, fun s who width g h hw hp hg => ⟨?abortOther, ?resetOther⟩,
    fun s now g dev seq psn abort id p hp hh ht hr => ?resends, fun s now g dev seq psn abort id p hp hh ht hb hr => ?ends,
    fun s now g dev seq psn abort id p hp h => ?stays, fun s now g seq o ho hh hd hl ht => ?limit, fun s now g seq o ho h => ?noLimit,
    fun s now g seq at' p ho hm hseq hh hl ht => ?early⟩
  case abort =>
    rw [exec_collClCmdAbort, clStore_served h hw (.inl rfl) fun t ht => ?_]
    rw [clCommand_abort hg hp, ht.clGroupValid_eq hg, if_pos hv]
  case noAbort =>
    rw [exec_collClCmdAbort, clStore_served (f := id) h hw (.inl rfl) fun t ht => ?_]
    rw [clCommand_abort hg hp, ht.clGroupValid_eq hg, if_neg (ne_true_of_eq_false hv), id]
  case reset =>
    rw [exec_clCmdReset, clStore_served h hw (.inr rfl) fun t ht => ?_]
    rw [clCommand_reset hg hp, ht.clGroupState_eq hg, if_pos hst]
  case noReset =>
    rw [exec_clCmdReset, clStore_served (f := id) h hw (.inr rfl) fun t ht => ?_]
    rw [clCommand_reset hg hp, ht.clGroupState_eq hg, if_neg hst, id]
  case abortOther => rw [exec_collClCmdAbort, clStore_served h hw (.inl rfl) fun t _ => clCommand_other _ hp]
  case resetOther => rw [exec_clCmdReset, clStore_served h hw (.inr rfl) fun t _ => clCommand_other _ hp]
  case resends => rw [exec_clHopRtoExpired, hopExpired_resends (s := atTime s now) hp hh ht hr]; rfl
  case ends => rw [exec_clHopRtoExpired, hopExpired_ends (s := atTime s now) hp hh ht hb hr]; rfl
  case stays => rw [exec_clHopRtoExpired, hopExpired_stays (s := atTime s now) hp h]
  case limit => rw [exec_clOpLimitExpired, opLimit_due (s := atTime s now) ho hh hd hl ht]
  case noLimit => rw [exec_clOpLimitExpired, opLimit_stays (s := atTime s now) ho h]
  case early => rw [exec_clOpLimitExpired, opLimit_early (s := atTime s now) ho hm hseq hh hl ht]

end Sys2Proof.Machine
end

section
/-!
SUPPORT. Exchange (R413, R415, R417, R418): the CI of a ring past the gate, the timers of batches and streams, and the copy of the oldest
staged batch.
-/

namespace Sys2Proof.Machine

/-! ### CI of a ring -/

theorem takesWrites_exRingCi : ∀ j < 64, takesWrites (F.exRingCi.key j) = true := by decide +kernel

theorem exRingCi_key (j : Nat) : F.exRingCi.key j = 0x08820010 + 32 * j := rfl

theorem blockWrite_exRingCi (t : State) (who : Who) {j : Nat} (w : Word) (env : CsrEnv) (h : j < 64) :
    blockWrite t who (F.exRingCi.key j) w env = exCiWrite t who j w := by
  have hkey := exRingCi_key j
  have hpage : pageOf (F.exRingCi.key j) = none := pageOf_of_lt (by omega)
  have hjob : (F.exRingCi.key j - 0x08820000) / 32 = j := by omega
  simp only [blockWrite, hpage]
  iterate 17 rw [if_neg (by omega)]
  rw [if_pos (by omega), if_pos (by omega), hjob]

section
variable {s : State} {who : Who} {width j : Nat} {w : Word}

/-- A served write of a ring's CI reaches exCiWrite. -/
theorem exec_exRingCiWrite_served {f : State → State} (h : Served s who) (hw : 64 ≤ width) (hj : j < 64)
    (hl : wordLegal (fieldsAt (F.exRingCi.key j)) w = true) (hf : ∀ t, Entry t s → exCiWrite t who j w = f t) :
    exec (.exRingCiWrite who j width w) s = .next (settled s (viaGate s who f)) := by
  have hkey := exRingCi_key j
  refine congrArg (done s) ((if_pos hj).trans ?_)
  refine csrWriteBy_block s who (F.exRingCi.key j) width w noEnv f h hw ?place (.inr hl) fun t ht => ?effect
  case place =>
    simp only [takesWrites_exRingCi j hj, Bool.true_and, Bool.and_eq_true, beq_iff_eq, decide_eq_true_eq]
    omega
  case effect => rw [blockWrite_exRingCi t who w noEnv hj, hf t ht]

theorem Entry.exJobHp_eq {t : State} (h : Entry t s) (j : Nat) (_ : j < 64) : rd t F.exJobHp j = rd s F.exJobHp j := by
  have hkey : F.exJobHp.key j = 0x08810000 + 32 * j := rfl
  exact h.raw _ j 0 (by omega) (by omega) (by omega)

theorem Entry.exRingPi_eq {t : State} (h : Entry t s) (j : Nat) (_ : j < 64) : rd t F.exRingPi j = rd s F.exRingPi j := by
  have hkey : F.exRingPi.key j = 0x08820018 + 32 * j := rfl
  exact h.raw _ j 0 (by omega) (by omega) (by omega)

theorem exCiWrite_taken (h : who = .fn (rd s F.exJobHp j) 0) (hpi : w.toNat ≤ rd s F.exRingPi j) :
    exCiWrite s who j w = noteFull (wr s F.exRingCi w.toNat j) j := by
  have hok : (!isPf0Of who (rd s F.exJobHp j) || decide (rd s F.exRingPi j < w.toNat)) = false := by
    rw [isPf0Of, h, decide_eq_false (Nat.not_lt.mpr hpi), beq_self_eq_true, Bool.not_true, Bool.or_self]
  rw [exCiWrite, hok]
  exact if_neg Bool.false_ne_true

theorem exCiWrite_refused (h : who ≠ .fn (rd s F.exJobHp j) 0 ∨ rd s F.exRingPi j < w.toNat) : exCiWrite s who j w = refuseWrite s := by
  have hbad : (!isPf0Of who (rd s F.exJobHp j) || decide (rd s F.exRingPi j < w.toNat)) = true := by
    rcases h with h | h
    · rw [isPf0Of, beq_false_of_ne h, Bool.not_false, Bool.true_or]
    · rw [decide_eq_true h, Bool.or_true]
  rw [exCiWrite, hbad]
  exact if_pos rfl

end

/-! ### Batches and streams -/

section
variable (s : State) (now j dev : Nat)

theorem exec_exBatchTimer (ec : Nat) : exec (.exBatchTimer now j dev ec) s = .next (settled s (batchDue (atTime s now) j dev ec)) := rfl

theorem exec_exRtoExpired (q : Nat) : exec (.exRtoExpired now j dev q) s = .next (settled s (batchLate (atTime s now) j dev q)) := rfl

theorem exec_exProbeTimer : exec (.exProbeTimer now j dev) s = .next (settled s (probeStream (atTime s now) j dev)) := rfl

theorem exec_exRingCopy : exec (.exRingCopy now j) s = .next (settled s (copyBatch (atTime s now) j)) := rfl

theorem exec_exRingStall : exec (.exRingStall now j) s = .next (settled s (ringStalls (atTime s now) j)) := rfl

end

section
variable {s : State} {j dev : Nat}

section
variable {ec id : Nat} {b : ExBatch} (hb : openBatch s j dev ec = some (id, b))
include hb

theorem batchDue_due (hh : holdOn s = false) (ht : b.since + rd s F.exCfgBatchUs * 1000 ≤ s.timeNs) :
    batchDue s j dev ec = moveJob (closeBatch s j id) j := by
  simp only [batchDue, hb, hh, decide_eq_false (Nat.not_lt.mpr ht), Bool.or_self, Bool.false_eq_true, if_false]

theorem batchDue_stays (h : holdOn s = true ∨ s.timeNs < b.since + rd s F.exCfgBatchUs * 1000) : batchDue s j dev ec = s := by
  have hwait : (holdOn s || decide (s.timeNs < b.since + rd s F.exCfgBatchUs * 1000)) = true := by simpa using h
  simp only [batchDue, hb, hwait, if_true]

end

section
variable {q id : Nat} {b : ExBatch}
  (hb : ((job s j).batches.find? fun e => e.2.dev == dev && e.2.bseq == some q && e.2.sent) = some (id, b))
include hb

theorem batchLate_due (hh : holdOn s = false) (ht : b.sentAt + batchWait s b ≤ s.timeNs) :
    batchLate s j dev q = resendBatch s j id b := by
  simp only [batchLate, hb, hh, decide_eq_false (Nat.not_lt.mpr ht), Bool.or_self, Bool.false_eq_true, if_false]

theorem batchLate_stays (h : holdOn s = true ∨ s.timeNs < b.sentAt + batchWait s b) : batchLate s j dev q = s := by
  have hwait : (holdOn s || decide (s.timeNs < b.sentAt + batchWait s b)) = true := by simpa using h
  simp only [batchLate, hb, hwait, if_true]

end

theorem resendBatch_again (s : State) (j id : Nat) {b : ExBatch} (h : b.noroom = true ∨ b.retries < rd s F.exCfgRetries) :
    resendBatch s j id b =
      let b' := { b with sentAt := s.timeNs, noroom := false, retries := if b.noroom then b.retries else b.retries + 1 }
      queueBatch (inc (setJob s j { job s j with batches := mset (job s j).batches id b' }) F.exCnt0Retx)
        j b.dev b.ec (b.bseq.getD 0) b.count b.bytes := by
  have hleft : (!b.noroom && decide (rd s F.exCfgRetries ≤ b.retries)) = false := by
    rcases h with hn | hr
    · rw [hn]; rfl
    · rw [decide_eq_false (Nat.not_le.mpr hr), Bool.and_false]
  simp only [resendBatch, hleft, Bool.false_eq_true, if_false]

theorem resendBatch_fails (s : State) (j id : Nat) {b : ExBatch} (hn : b.noroom = false) (hr : rd s F.exCfgRetries ≤ b.retries) :
    resendBatch s j id b = failJob s j 1 b.dev := by
  simp only [resendBatch, hn, decide_eq_true hr, Bool.not_false, Bool.and_self, if_true]

section
variable {x : ExStream} (hx : mget (job s j).streams dev = some x)
include hx

theorem probeStream_due (hh : holdOn s = false) (hs : streamShut (job s j) dev x = true)
    (ht : x.probeAt + rd s F.exCfgBackoffUs * 1000 ≤ s.timeNs) :
    probeStream s j dev =
      queueBatch (setJob s j { job s j with streams := mset (job s j).streams dev { x with probeAt := s.timeNs } }) j dev x.ec
        ((x.base + 2 ^ 24 - 1) % 2 ^ 24) 0 [] := by
  simp only [probeStream, hx, hh, hs, decide_eq_false (Nat.not_lt.mpr ht), Bool.not_true, Bool.or_self, Bool.false_eq_true, if_false]

theorem probeStream_stays (h : holdOn s = true ∨ streamShut (job s j) dev x = false
    ∨ s.timeNs < x.probeAt + rd s F.exCfgBackoffUs * 1000) : probeStream s j dev = s := by
  have hwait : (holdOn s || !streamShut (job s j) dev x || decide (s.timeNs < x.probeAt + rd s F.exCfgBackoffUs * 1000)) = true := by
    simpa [or_assoc] using h
  simp only [probeStream, hx, hwait, if_true]

end

/-! ### The ring -/

theorem copyBatch_none (h : (job s j).arrival = []) : copyBatch s j = s := by simp only [copyBatch, h]

section
variable {q : Nat} {rest : List (Nat × Nat)} (harr : (job s j).arrival = (dev, q) :: rest)
include harr

theorem copyBatch_full (h : 2 ^ rd s F.exRingLog2 j < rd s F.exRingPi j - rd s F.exRingCi j
    + ((mget (mgetD (job s j).recvs dev {}).staged q).getD []).length) : copyBatch s j = noteFull s j := by
  simp only [copyBatch, harr]
  exact if_pos (.inr h)

theorem copyBatch_copies {r : ExRecv} {bs : List Byte} {pi : Nat} {u v : State} {l l' : List (Nat × Nat)} (hst : rd s F.exJobState j ≠ 0)
    (hr : r = mgetD (job s j).recvs dev {}) (hbs : bs = (mget r.staged q).getD []) (hpi : pi = rd s F.exRingPi j)
    (hfit : pi - rd s F.exRingCi j + bs.length ≤ 2 ^ rd s F.exRingLog2 j)
    (hdata : translateAdm s (ringAdm s j 1 (ringSpans s j pi bs.length)) = (u, .ok l))
    (hcopy : translateAdm u (ringAdm s j 1 [(rd s F.exRingPiDva j * 8, 8)]) = (v, .ok l')) :
    copyBatch s j =
      let a := writePieces v (ringAdm s j 1 (ringSpans s j pi bs.length)).hp l bs
      let b := writePieces (wr a F.exRingPi (pi + bs.length) j) (ringAdm s j 1 [(rd s F.exRingPiDva j * 8, 8)]).hp l'
        (toBytes 8 (pi + bs.length))
      let r' := moveBase 17 { r with staged := mdel r.staged q, have' := q :: r.have' }
      let c := grantWin (setJob b j { job s j with recvs := mset (job s j).recvs dev r', arrival := rest }) j dev
      let d := sendCredit c j dev r'.ec r'.tc q 0 (mgetD (job c j).recvs dev {})
      let e := if pi = rd d F.exRingCi j ∧ bs ≠ [] then
          drawn (event d (rd d F.exJobHp j) (rd d F.exJobFunc j) (openFields d 0x50) (freeNat d))
        else d
      refreshEx (noteFull e j) := by
  subst hpi hbs hr
  have hroom : ¬(rd s F.exJobState j = 0 ∨ 2 ^ rd s F.exRingLog2 j < rd s F.exRingPi j - rd s F.exRingCi j
      + ((mget (mgetD (job s j).recvs dev {}).staged q).getD []).length) := fun h => h.elim hst (Nat.not_lt.mpr hfit)
  simp only [copyBatch, harr, if_neg hroom, hdata, hcopy]

end

theorem ringStalls_due {full : Nat} (hf : (job s j).fullSince = some full) (hs : (job s j).stallTold = false)
    (hst : rd s F.exJobState j ≠ 0) (ht : full + 100000000 ≤ s.timeNs) :
    ringStalls s j =
      let t := setJob s j { job s j with stallTold := true }
      drawn (event t (rd t F.exJobHp j) (rd t F.exJobFunc j) (openFields t 0x51) (freeNat t)) := by
  simp only [ringStalls, hf, hs, beq_false_of_ne hst, decide_eq_false (Nat.not_lt.mpr ht), Bool.or_self, Bool.false_eq_true, if_false]

theorem ringStalls_stays (h : (job s j).fullSince = none ∨ (job s j).stallTold = true) : ringStalls s j = s := by
  cases hf : (job s j).fullSince with
  | none => simp only [ringStalls, hf]
  | some full =>
    have htold : (job s j).stallTold = true := h.resolve_left (by rw [hf]; nofun)
    simp only [ringStalls, hf, htold, Bool.true_or, if_true]

end

/-- Settles O44: a ring's CI past the gate by its writer and PI; the timers by what waits and its time; the copy by what is staged. -/
theorem exchangeCommandsComplete : Obligations.ExchangeCommandsComplete := by
  unfold Obligations.ExchangeCommandsComplete
  refine ⟨fun s width j val h hw hj hl hpi => ?ci, fun s who width j val h hw hj hl hbad => ?ciRefused,
    fun s now j dev ec id b hb hh ht => ?batch, fun s now j dev ec id b hb h => ?batchStays,
    fun s now j dev q id b hb hh ht hr => ?again, fun s now j dev q id b hb hh ht hn hr => ?fails,
    fun s now j dev q id b hb h => ?lateStays, fun s now j dev x hx hh hs ht => ?probe, fun s now j dev x hx h => ?probeStays,
    fun s now j h => ?nothing, fun s now j dev q rest harr h => ?full,
    fun s now j dev q rest t r bs pi u l v l' ht harr hst hr hbs hpi hfit hdata hcopy => ?copy,
    fun s now j full hf hs hst ht => ?stall, fun s now j h => ?stallStays⟩
  case ci =>
    refine exec_exRingCiWrite_served h hw hj hl fun t ht => exCiWrite_taken ?_ ?_
    · rw [ht.exJobHp_eq j hj]
    · rw [ht.exRingPi_eq j hj]; exact hpi
  case ciRefused =>
    refine exec_exRingCiWrite_served h hw hj hl fun t ht => exCiWrite_refused ?_
    rw [ht.exJobHp_eq j hj, ht.exRingPi_eq j hj]
    exact hbad
  case batch => rw [exec_exBatchTimer, batchDue_due (s := atTime s now) hb hh ht]
  case batchStays => rw [exec_exBatchTimer, batchDue_stays (s := atTime s now) hb h]
  case again =>
    rw [exec_exRtoExpired, batchLate_due (s := atTime s now) hb hh ht, resendBatch_again (atTime s now) j id hr]
    rfl
  case fails => rw [exec_exRtoExpired, batchLate_due (s := atTime s now) hb hh ht, resendBatch_fails (atTime s now) j id hn hr]
  case lateStays => rw [exec_exRtoExpired, batchLate_stays (s := atTime s now) hb h]
  case probe => rw [exec_exProbeTimer, probeStream_due (s := atTime s now) hx hh hs ht]; rfl
  case probeStays => rw [exec_exProbeTimer, probeStream_stays (s := atTime s now) hx h]
  case nothing => rw [exec_exRingCopy, copyBatch_none (s := atTime s now) h]
  case full => rw [exec_exRingCopy, copyBatch_full (s := atTime s now) harr h]
  case copy =>
    subst ht
    rw [exec_exRingCopy, copyBatch_copies (s := atTime s now) harr hst hr hbs hpi hfit hdata hcopy]
    rfl
  case stall => rw [exec_exRingStall, ringStalls_due (s := atTime s now) hf hs hst ht]; rfl
  case stallStays => rw [exec_exRingStall, ringStalls_stays (s := atTime s now) h]

end Sys2Proof.Machine
end

section
/-!
SUPPORT. Regions (R338, R343, R344, R348, R349): the end of each kind of access, MR_CMD and MR_PAGE_RESOLVE behind the gate, and the two
limits of a fault-table entry.
-/

namespace Sys2Proof.Machine

/-! ### Accesses -/

section
variable {s : State} {id : Nat} {a : Acc} (data : List Byte)

/-- An access whose data has the length asked for, or whose reads failed, is finished. -/
theorem exec_hostAccessFinished (now : Nat) {ok : Bool} (hm : mget s.mr.accs id = some a) (hfit : ok = true → accFits a data = true) :
    exec (.hostAccessFinished now id data ok) s = .next (settled s (accessFinished (atTime s now) id data ok)) := by
  have hshort : (ok && !accFits a data) = false := by cases ok <;> simp_all
  have hm' : mget (atTime s now).mr.accs id = some a := hm
  refine congrArg (done s) ?_
  simp only [hm', hshort, Bool.false_eq_true, if_false]

theorem accessFinished_write (ok : Bool) (hm : mget s.mr.accs id = some a) (hw : a.what = .write) :
    accessFinished s id data ok = endAcc s id a := by simp only [accessFinished, hm, hw]

theorem accessFinished_get {p : Pkt} (hm : mget s.mr.accs id = some a) (hw : a.what = .getRead p) :
    accessFinished s id data true = pmSample (answerGet (endAcc s id a) p data) 2 1 (arrivalId p) [0] := by
  simp only [accessFinished, hm, hw, if_true]

theorem accessFinished_getFailed {p : Pkt} (hm : mget s.mr.accs id = some a) (hw : a.what = .getRead p) :
    accessFinished s id data false = mrRefuse (endAcc s id a) p 11 0 := by
  simp only [accessFinished, hm, hw, Bool.false_eq_true, if_false]

variable {p : Pkt} {pa d page : Nat} {l : List (Nat × Nat)}

theorem accessFinished_atomic (hm : mget s.mr.accs id = some a) (hw : a.what = .atomic p pa) (hp : a.pages = (d, page) :: l) :
    accessFinished s id data true =
      finishOp (pmSample (endAcc s id a) 2 1 (arrivalId p) [0]) p (wordKey d (page * 4096 + pa % 4096)) a.hp pa
        (ofBytes (data.take 8)) := by
  simp only [accessFinished, hm, hw, hp, if_true]

theorem accessFinished_atomicFailed (hm : mget s.mr.accs id = some a) (hw : a.what = .atomic p pa) (hp : a.pages = (d, page) :: l) :
    accessFinished s id data false =
      let k := wordKey d (page * 4096 + pa % 4096)
      let t := setAt (endAcc s id a) fun x => { x with busy := x.busy.erase k }
      drainOps ((mgetD t.at'.waitq k []).length + 1) (mrRefuse t p 11 0) k := by
  simp only [accessFinished, hm, hw, hp, Bool.false_eq_true, if_false]

end

/-! ### MR_CMD -/

theorem Entry.mr_eq {t s : State} (h : Entry t s) : t.mr = s.mr := by
  have hs : t = { s with csr := t.csr } := h.same
  exact (congrArg State.mr hs :)

/-- The REVOKEs of MR_CMD that are pending (R349). -/
def revokesPending (s : State) : Nat := (rd s F.mrCmdStatIssued + 65536 - rd s F.mrCmdStatDone) % 65536

theorem Entry.revokesPending_eq {t s : State} (h : Entry t s) : revokesPending t = revokesPending s := by
  rw [revokesPending, h.raw F.mrCmdStatIssued 0 0 (by decide) (by decide) (by decide),
    h.raw F.mrCmdStatDone 0 0 (by decide) (by decide) (by decide), revokesPending]

/-- A REVOKE that MR_CMD takes (R348, R349): the next number, then the region that its key names. -/
def revokeTaken (s : State) (w : Word) : State :=
  let seq := (rd s F.mrCmdStatIssued + 1) % 65536
  let s := wr s F.mrCmdStatIssued seq
  match regionOf s (wordGet w 0 32) with
  | none => cmdResult s seq 1
  | some i =>
    match mget s.mr.revokes i with
    | some r => setMr s fun m => { m with revokes := mset m.revokes i { r with seqs := r.seqs ++ [(seq, 2)] } }
    | none => markRevoking s i ⟨[(seq, 0)], [], false⟩

section
variable {s : State} {who : Who} {w : Word}

theorem mrCommand_otherWriter (hp : isPf0 who = false) : mrCommand s who w = refuseWrite s :=
  if_pos (by rw [hp]; rfl)

theorem mrCommand_none (hp : isPf0 who = true) (hc : wordGet w 32 2 = 0) : mrCommand s who w = s := by
  simp only [mrCommand, hp, hc, Bool.not_true, Bool.false_eq_true, if_false, if_true]

theorem mrCommand_full (hp : isPf0 who = true) (hc : wordGet w 32 2 ≠ 0) (hn : 64 ≤ revokesPending s) :
    mrCommand s who w = refuseWrite s := by
  have hrefused : wordGet w 32 2 ≠ 1 ∨ 64 ≤ revokesPending s := .inr hn
  rw [revokesPending] at hrefused
  simp only [mrCommand, hp, Bool.not_true, Bool.false_eq_true, if_false, if_neg hc, if_pos hrefused]

theorem mrCommand_revoke (hp : isPf0 who = true) (hc : wordGet w 32 2 = 1) (hn : revokesPending s < 64) :
    mrCommand s who w = revokeTaken s w := by
  have hothers : ¬(!isPf0 who) = true := by rw [hp]; exact Bool.false_ne_true
  have hnone : ¬wordGet w 32 2 = 0 := by omega
  have hrefused : ¬(wordGet w 32 2 ≠ 1 ∨ 64 ≤ revokesPending s) := by omega
  exact ((if_neg hothers).trans (if_neg hnone)).trans (if_neg hrefused)

/-- A served write of MR_CMD reaches mrCommand. -/
theorem exec_mrCmdRevoke {width : Nat} {f : State → State} (h : Served s who) (hw : 64 ≤ width)
    (hl : wordLegal (fieldsAt 0x06800008) w = true) (hf : ∀ t, Entry t s → mrCommand t who w = f t) :
    exec (.mrCmdRevoke who width w) s = .next (settled s (viaGate s who f)) :=
  congrArg (done s) (csrWriteBy_block s who 0x06800008 width w noEnv f h hw (by decide +kernel) (.inr hl) hf)

end

theorem revokeDone_read {s : State} {i : Nat} {r : Revoke} (hm : mget s.mr.revokes i = some r) (hr : r.reading = true) :
    revokeDone s i =
      let u := freeEntry (setMr s fun m => { m with revokes := mdel m.revokes i }) i
      let v := r.seqs.foldl (fun x q => cmdResult x q.1 q.2) u
      r.descs.foldl (fun x d => descDone x d.1 0 0 0 0 d.2 0) v := by
  simp only [revokeDone, hm, hr, Bool.not_true, Bool.false_eq_true, if_false]

theorem exec_revokeFlushReadDone (now i : Nat) (s : State) :
    exec (.revokeFlushReadDone now i) s = .next (settled s (revokeDone (atTime s now) i)) := rfl

/-! ### MR_PAGE_RESOLVE -/

/-- The word of MR_PAGE_RESOLVE for an entry. -/
def resolveWord (id action : Nat) : Word := BitVec.ofNat 64 (id % 4096 + action * 2 ^ 12)

section
variable {id action : Nat}

theorem resolveWord_id (h : id < 4096) : wordGet (resolveWord id action) 0 12 = id := by
  simp only [resolveWord, wordGet, BitVec.toNat_ofNat]
  omega

theorem resolveWord_action (h : action < 4) : wordGet (resolveWord id action) 12 2 = action := by
  simp only [resolveWord, wordGet, BitVec.toNat_ofNat]
  omega

theorem resolveWord_legal (h : action = 1 ∨ action = 2) : wordLegal (fieldsAt 0x06800020) (resolveWord id action) = true := by
  have hreg : regFind 0x06800020 = some R.mrPageResolve := by decide +kernel
  rw [fieldsAt_of_regFind hreg]
  rcases h with rfl | rfl <;> simp [R.mrPageResolve, wordLegal, Access.judged, Legal.ok, resolveWord_action]

end

section
variable {s : State} {hp id : Nat}

/-- The domain of a fault-table entry is valid and a port's own (R343). -/
structure DomainOf (s : State) (hp : Nat) (f : FaultEnt) : Prop where
  valid : rdb s F.xlDomValid f.dom = true
  port : rd s F.xlDomHp f.dom = hp

theorem pageResolve_retry {f : FaultEnt} (hid : id < 4096) (hm : mget s.mr.faults id = some f) (hd : DomainOf s hp f) :
    pageResolve s (.fn hp 0) (resolveWord id 1) = resolveRetry s id := by
  obtain ⟨hv, hh⟩ := hd
  simp [pageResolve, resolveWord_id hid, resolveWord_action, hm, hv, hh]

theorem pageResolve_fail {f : FaultEnt} (hid : id < 4096) (hm : mget s.mr.faults id = some f) (hf : f.failed = false)
    (hd : DomainOf s hp f) : pageResolve s (.fn hp 0) (resolveWord id 2) = resolveFail s id f := by
  obtain ⟨hv, hh⟩ := hd
  simp [pageResolve, resolveWord_id hid, resolveWord_action, hm, hv, hh, hf]

theorem pageResolve_refused (action : Nat) (hid : id < 4096)
    (h : ∀ f, mget s.mr.faults id = some f → rdb s F.xlDomValid f.dom = false ∨ rd s F.xlDomHp f.dom ≠ hp) :
    pageResolve s (.fn hp 0) (resolveWord id action) = refuseWrite s := by
  cases hm : mget s.mr.faults id with
  | none => simp only [pageResolve, resolveWord_id hid, hm]
  | some f =>
    have hother : (!rdb s F.xlDomValid f.dom) = true ∨ rd s F.xlDomHp f.dom ≠ hp := by simpa using h f hm
    simp only [pageResolve, resolveWord_id hid, hm, if_pos hother]

/-- The owner of a domain reads the same once the port's link has left L1: the two fields and PM lie at bits of their own. -/
theorem rd_xlDom_wakePort (hp : Nat) (f : Fld) (i : Nat) (hf : f.bstep = 0 ∧ f.width = 1 ∧ 62 ≤ f.lo) :
    rd (wakePort s hp) f i = rd s f i := by
  obtain ⟨hstep, hwidth, hlo⟩ := hf
  unfold wakePort
  split
  · rfl
  · refine rd_wr_apart _ _ _ _ _ _ _ _ (by simp [F.hiPortStatPm]) (.inr (.inl ?_))
    simp only [F.hiPortStatPm, hstep]
    omega

theorem xlDomOwner_wakePort (q i : Nat) :
    rdb (wakePort s q) F.xlDomValid i = rdb s F.xlDomValid i ∧ rd (wakePort s q) F.xlDomHp i = rd s F.xlDomHp i := by
  have hv := rd_xlDom_wakePort (s := s) q F.xlDomValid i (by decide)
  exact ⟨by rw [rdb, hv, rdb], rd_xlDom_wakePort q F.xlDomHp i (by decide)⟩

theorem wakePort_mr (q : Nat) : (wakePort s q).mr = s.mr := by
  have hs : wakePort s q = { s with csr := (wakePort s q).csr } := wakePort_sameBut s q
  exact (congrArg State.mr hs :)

theorem csrWriteBy_pageResolve {width action : Nat} (h : Served s (.fn hp 0)) (hw : 64 ≤ width) (ha : action = 1 ∨ action = 2) :
    csrWriteBy s (.fn hp 0) 0x06800020 width (resolveWord id action) noEnv =
      viaGate s (.fn hp 0) fun t => pageResolve t (.fn hp 0) (resolveWord id action) :=
  csrWriteBy_block s (.fn hp 0) 0x06800020 width (resolveWord id action) noEnv _ h hw (by decide +kernel)
    (.inr (resolveWord_legal ha)) fun _ _ => rfl

theorem exec_mrPageResolveRetry {width : Nat} (h : Served s (.fn hp 0)) (hw : 64 ≤ width) :
    exec (.mrPageResolveRetry (.fn hp 0) width id) s
      = .next (settled s (viaGate s (.fn hp 0) fun t => pageResolve t (.fn hp 0) (resolveWord id 1))) :=
  congrArg (done s) (csrWriteBy_pageResolve h hw (.inl rfl))

theorem exec_mrPageResolveFail {width : Nat} (now : Nat) (h : Served s (.fn hp 0)) (hw : 64 ≤ width) :
    exec (.mrPageResolveFail now (.fn hp 0) width id) s
      = .next (settled s (viaGate (atTime s now) (.fn hp 0) fun t => pageResolve t (.fn hp 0) (resolveWord id 2))) :=
  congrArg (done s) (csrWriteBy_pageResolve (served_atTime now h) hw (.inr rfl))

end

/-! ### The limits of a fault-table entry -/

section
variable {s : State} {id : Nat} {f : FaultEnt}

theorem resolveLimit_due (hm : mget s.mr.faults id = some f) (hf : f.failed = false)
    (ht : f.since + ms (rd s F.mrPageCfgResolveLimitMs) ≤ s.timeNs) : resolveLimit s id = resolveFail s id f := by
  simp only [resolveLimit, hm, if_pos (And.intro hf ht)]

theorem failHoldOver_due (hm : mget s.mr.faults id = some f) (hf : f.failed = true)
    (ht : f.since + ms (rd s F.mrPageCfgFailHoldMs) ≤ s.timeNs) : failHoldOver s id = freeFault s id := by
  simp only [failHoldOver, hm, if_pos (And.intro hf ht)]

end

theorem exec_faultResolveLimitExpired (now id : Nat) (s : State) :
    exec (.faultResolveLimitExpired now id) s = .next (settled s (resolveLimit (atTime s now) id)) := rfl

theorem exec_faultFailHoldExpired (now id : Nat) (s : State) :
    exec (.faultFailHoldExpired now id) s = .next (settled s (failHoldOver (atTime s now) id)) := rfl

/-- Settles O30: an access ends by what it was for, the two commands go past the gate to the region or the entry that they name, and a
limit acts on an entry in its own state. -/
theorem regionCommandsComplete : Obligations.RegionCommandsComplete := by
  unfold Obligations.RegionCommandsComplete
  refine ⟨fun s now id a data ok hm hw => ?write, fun s now id a p data hm hw hfit => ?get, fun s now id a p data hm hw => ?getFailed,
    fun s now id a p pa d page l data hm hw hp hfit => ?atomic, fun s now id a p pa d page l data hm hw hp => ?atomicFailed,
    fun s who width val h hw hl hp hc hn => ?revoke, fun s who width val h hw hl hp hc => ?nothing,
    fun s who width val h hw hl hbad => ?refused, fun s now i r hm hr => ?flushed, fun s hp width id f h hw hid hm hv hh => ?retry,
    fun s hp width id h hw hid hf => ?retryRefused, fun s now hp width id f h hw hid hm hf hv hh => ?fail,
    fun s now hp width id h hw hid hf => ?failRefused, fun s now id f hm hf ht => ?limit, fun s now id f hm hf ht => ?hold⟩
  case write =>
    have hfit : accFits a data = true := by rw [accFits, hw]
    rw [exec_hostAccessFinished data now hm fun _ => hfit, accessFinished_write (s := atTime s now) data ok hm hw]
  case get => rw [exec_hostAccessFinished data now hm fun _ => hfit, accessFinished_get (s := atTime s now) data hm hw]
  case getFailed =>
    rw [exec_hostAccessFinished data now hm (ok := false) (by simp), accessFinished_getFailed (s := atTime s now) data hm hw]
  case atomic => rw [exec_hostAccessFinished data now hm fun _ => hfit, accessFinished_atomic (s := atTime s now) data hm hw hp]
  case atomicFailed =>
    rw [exec_hostAccessFinished data now hm (ok := false) (by simp), accessFinished_atomicFailed (s := atTime s now) data hm hw hp]
  case revoke =>
    refine exec_mrCmdRevoke (f := fun t => revokeTaken t val) h hw hl fun t ht => mrCommand_revoke hp hc ?_
    rw [ht.revokesPending_eq]
    exact hn
  case nothing => exact exec_mrCmdRevoke (f := id) h hw hl fun t _ => mrCommand_none hp hc
  case refused =>
    refine exec_mrCmdRevoke h hw hl fun t ht => ?_
    rcases hbad with hp | ⟨hc, hn⟩
    · exact mrCommand_otherWriter hp
    · cases hp : isPf0 who with
      | false => exact mrCommand_otherWriter hp
      | true => exact mrCommand_full hp hc (by rw [ht.revokesPending_eq]; exact hn)
  case flushed => rw [exec_revokeFlushReadDone, revokeDone_read (s := atTime s now) hm hr]
  case retry =>
    obtain ⟨hvalid, howner⟩ := xlDomOwner_wakePort (s := s) hp f.dom
    rw [exec_mrPageResolveRetry h hw, viaGate_fn, viaGate_fn,
      pageResolve_retry hid (by rw [wakePort_mr]; exact hm) ⟨hvalid.trans hv, howner.trans hh⟩]
  case retryRefused =>
    rw [exec_mrPageResolveRetry h hw, viaGate_fn, viaGate_fn, pageResolve_refused 1 hid fun f hm => ?_]
    obtain ⟨hvalid, howner⟩ := xlDomOwner_wakePort (s := s) hp f.dom
    rw [hvalid, howner]
    exact hf f (by rw [← wakePort_mr (s := s) hp]; exact hm)
  case fail =>
    obtain ⟨hvalid, howner⟩ := xlDomOwner_wakePort (s := atTime s now) hp f.dom
    rw [exec_mrPageResolveFail now h hw, viaGate_fn, viaGate_fn,
      pageResolve_fail hid (by rw [wakePort_mr]; exact hm) hf ⟨hvalid.trans hv, howner.trans hh⟩]
  case failRefused =>
    rw [exec_mrPageResolveFail now h hw, viaGate_fn, viaGate_fn, pageResolve_refused 2 hid fun f hm => ?_]
    obtain ⟨hvalid, howner⟩ := xlDomOwner_wakePort (s := atTime s now) hp f.dom
    rw [hvalid, howner]
    exact hf f (by rw [wakePort_mr] at hm; exact hm)
  case limit => rw [exec_faultResolveLimitExpired, resolveLimit_due (s := atTime s now) hm hf ht]
  case hold => rw [exec_faultFailHoldExpired, failHoldOver_due (s := atTime s now) hm hf ht]

end Sys2Proof.Machine
end

section
/-!
SUPPORT. The global memory window (R357 to R377): accesses by where they arrive and what they name, the commit of a decoder, ended
messages, the limits of an access and of a kept line, and GW_FLUSH_CMD behind the gate.
-/

namespace Sys2Proof.Machine

/-! ### Accesses -/

section
variable {s t : State} {hp addr off : Nat} (op : Nat) (data : List Byte) (en : List Bool) (poison : Bool)

theorem cxlAccess_begins (ht : t = wakePort s hp) (ha : cxlArrives t hp = true) (hd : hdmDecode t hp addr = some off) :
    cxlAccess s hp addr op data en poison = beginGw t hp addr off op data en poison := by
  subst ht
  simp only [cxlAccess, ha, hd, Bool.not_true, Bool.false_eq_true, if_false]

theorem cxlAccess_undecodedRead (ht : t = wakePort s hp) (ha : cxlArrives t hp = true) (hd : hdmDecode t hp addr = none) :
    cxlAccess s hp addr 0 data en poison = emit t (.cxl hp addr [] true) := by
  subst ht
  simp only [cxlAccess, ha, hd, Bool.not_true, Bool.false_eq_true, if_false, if_true, beq_self_eq_true]

theorem cxlAccess_undecodedWrite (ht : t = wakePort s hp) (ha : cxlArrives t hp = true) (hd : hdmDecode t hp addr = none)
    (hop : op ≠ 0) : cxlAccess s hp addr op data en poison = emit (inc t F.gwCnt2NoSpan) (.cxl hp addr [] false) := by
  subst ht
  simp only [cxlAccess, ha, hd, Bool.not_true, Bool.false_eq_true, if_false, if_neg hop, beq_false_of_ne hop]

theorem cxlAccess_noArrival (ha : cxlArrives (wakePort s hp) hp = false) : cxlAccess s hp addr op data en poison = wakePort s hp := by
  simp only [cxlAccess, ha, Bool.not_false, if_true]

end

section
variable (s : State) (now hp addr : Nat)

theorem exec_cxlMemRead : exec (.cxlMemRead now hp addr) s = .next (settled s (cxlAccess (atTime s now) hp addr 0 [] [] false)) := rfl

theorem exec_cxlMemWrite {data : List Byte} (poison : Bool) (hl : data.length = 64) :
    exec (.cxlMemWrite now hp addr data poison) s = .next (settled s (cxlAccess (atTime s now) hp addr 1 data [] poison)) :=
  congrArg (done s) (if_pos hl)

theorem exec_cxlMemWritePartial {data : List Byte} {en : List Bool} (poison : Bool) (hl : data.length = 64) (he : en.length = 64) :
    exec (.cxlMemWritePartial now hp addr data en poison) s
      = .next (settled s (cxlAccess (atTime s now) hp addr 2 data en poison)) :=
  congrArg (done s) (if_pos ⟨hl, he⟩)

end

/-! ### Decoders -/

section
variable {s t : State} {hp i base size skip ways : Nat}

/-- The check of R357 as commitHdm makes it, on the state in which the decoder stands committed. -/
theorem hdmCheck_iff :
    (ways == 1 && base % 2 ^ 28 == 0 && size % 2 ^ 28 == 0 && decide (hdmDpa t hp i + size ≤ 2 ^ 47)) = true
      ↔ ¬(ways ≠ 1 ∨ base % 2 ^ 28 ≠ 0 ∨ size % 2 ^ 28 ≠ 0 ∨ 2 ^ 47 < hdmDpa t hp i + size) := by
  simp only [Bool.and_eq_true, beq_iff_eq, decide_eq_true_eq, not_or, not_not, Nat.not_lt, and_assoc]

theorem commitHdm_committed (ht : t = setGw s (fun g => { g with hdm := mset g.hdm (hp * 8 + i) ⟨base, size, skip, true, false⟩ }))
    (h : ¬(ways ≠ 1 ∨ base % 2 ^ 28 ≠ 0 ∨ size % 2 ^ 28 ≠ 0 ∨ 2 ^ 47 < hdmDpa t hp i + size)) :
    commitHdm s hp i base size skip ways = t := by
  subst ht
  exact if_pos (hdmCheck_iff.mpr h)

theorem commitHdm_failed (ht : t = setGw s (fun g => { g with hdm := mset g.hdm (hp * 8 + i) ⟨base, size, skip, true, false⟩ }))
    (h : ways ≠ 1 ∨ base % 2 ^ 28 ≠ 0 ∨ size % 2 ^ 28 ≠ 0 ∨ 2 ^ 47 < hdmDpa t hp i + size) :
    commitHdm s hp i base size skip ways
      = setGw s fun g => { g with hdm := mset g.hdm (hp * 8 + i) ⟨base, size, skip, false, true⟩ } := by
  subst ht
  exact if_neg fun hgood => hdmCheck_iff.mp hgood h

theorem exec_hdmDecoderCommit (hh : hp < 2) (hi : i < 8) (hs : fnSilent s hp 0 = false) :
    exec (.hdmDecoderCommit hp i base size skip ways) s = .next (settled s (commitHdm s hp i base size skip ways)) :=
  congrArg (done s) (if_pos ⟨hh, hi, hs⟩)

end

/-- Settles O31: an access by whether it arrives and what it names, and a commit by the check of R357. -/
theorem windowAccessesComplete : Obligations.WindowAccessesComplete := by
  unfold Obligations.WindowAccessesComplete
  refine ⟨fun s now hp addr off t ht ha hd => ?read, fun s now hp addr t ht ha hd => ?readPoison, fun s now hp addr ha => ?noArrival,
    fun s now hp addr off data poison t ht ha hd hl => ?write, fun s now hp addr data poison t ht ha hd hl => ?writeDropped,
    fun s now hp addr off data en poison t ht ha hd hl he => ?partWrite,
    fun s now hp addr data en poison t ht ha hd hl he => ?partDropped, fun s now => rfl,
    fun s hp i base size skip t hh hi hs hb hz ht hr => ?commit, fun s hp i base size skip ways t hh hi hs ht hbad => ?fail⟩
  case read => rw [exec_cxlMemRead, cxlAccess_begins 0 [] [] false ht ha hd]
  case readPoison => rw [exec_cxlMemRead, cxlAccess_undecodedRead [] [] false ht ha hd]
  case noArrival => rw [exec_cxlMemRead, cxlAccess_noArrival 0 [] [] false ha]
  case write => rw [exec_cxlMemWrite s now hp addr poison hl, cxlAccess_begins 1 data [] poison ht ha hd]
  case writeDropped => rw [exec_cxlMemWrite s now hp addr poison hl, cxlAccess_undecodedWrite 1 data [] poison ht ha hd (by decide)]
  case partWrite => rw [exec_cxlMemWritePartial s now hp addr poison hl he, cxlAccess_begins 2 data en poison ht ha hd]
  case partDropped =>
    rw [exec_cxlMemWritePartial s now hp addr poison hl he, cxlAccess_undecodedWrite 2 data en poison ht ha hd (by decide)]
  case commit => rw [exec_hdmDecoderCommit hh hi hs, commitHdm_committed ht (by omega)]
  case fail => rw [exec_hdmDecoderCommit hh hi hs, commitHdm_failed ht hbad]

/-! ### Ended messages and limits -/

section
variable {s : State} {id st : Nat} {data : List Byte}

theorem fetchDone_line {line : Nat} {no : Bool} (hm : mget s.gw.msgs id = some ⟨.fetch line no, some (st, data)⟩) :
    fetchDone s id = fetchEnd s id line no st data := by simp only [fetchDone, hm]

theorem fetchDone_sector {a : Nat} (hm : mget s.gw.msgs id = some ⟨.sector a, some (st, data)⟩) :
    fetchDone s id = moveAccs (ownEnd s id a st data) := by simp only [fetchDone, hm]

theorem writtenBack_ended {line first n : Nat} (hm : mget s.gw.msgs id = some ⟨.writeBack line first n, some (st, data)⟩) :
    writtenBack s id = retryFills (wbEnd s id line first n st) := by simp only [writtenBack, hm]

theorem ownPutDone_ended {a : Nat} (hm : mget s.gw.msgs id = some ⟨.put a, some (st, data)⟩) :
    ownPutDone s id = moveAccs (ownEnd s id a st data) := by simp only [ownPutDone, hm]

theorem retryLine_due {line : Nat} {l : Line} (hm : mget s.gw.lines line = some l) (hk : l.kept = true)
    (ht : l.keptAt + ms (rd s F.gwCfgWbRetryMs) ≤ s.timeNs) : retryLine s line = writeBack s line := by
  simp only [retryLine, hm, if_pos (And.intro hk ht)]

variable {a : GwAcc} (hm : mget s.gw.accs id = some a)
include hm

theorem accLimit_read (ho : a.op = 0) (ht : a.since + us (rd s F.gwCfgLimitUs) ≤ s.timeNs) :
    accLimit s id = moveAccs (poisonRead s id a) := by
  simp only [accLimit, hm, if_neg (Nat.not_lt.mpr ht), if_pos ho]

theorem accLimit_lostWrite (ho : a.op ≠ 0) (ht : a.since + us (rd s F.gwCfgLimitUs) ≤ s.timeNs)
    (hl : rd s F.gwSpanMode (spanOf a.off) = 3 ∨ a.msgs ≠ [] ∨ a.stalled = true) : accLimit s id = moveAccs (loseWrite s id a) := by
  simp only [accLimit, hm, if_neg (Nat.not_lt.mpr ht), if_neg ho, if_pos hl]

theorem accLimit_waitingWrite (ho : a.op ≠ 0) (hl : ¬(rd s F.gwSpanMode (spanOf a.off) = 3 ∨ a.msgs ≠ [] ∨ a.stalled = true)) :
    accLimit s id = s := by
  simp only [accLimit, hm, if_neg ho, if_neg hl, ite_self]

end

section
variable (s : State) (now id : Nat)

theorem exec_farCacheFetchDone : exec (.farCacheFetchDone now id) s = .next (settled s (fetchDone (atTime s now) id)) := rfl

theorem exec_writeBackPutDone : exec (.writeBackPutDone now id) s = .next (settled s (writtenBack (atTime s now) id)) := rfl

theorem exec_sharedRwPutDone : exec (.sharedRwPutDone now id) s = .next (settled s (ownPutDone (atTime s now) id)) := rfl

theorem exec_wbRetryTimer : exec (.wbRetryTimer now id) s = .next (settled s (retryLine (atTime s now) id)) := rfl

theorem exec_gwLimitExpired : exec (.gwLimitExpired now id) s = .next (settled s (accLimit (atTime s now) id)) := rfl

theorem exec_gwFlushComplete : exec (.gwFlushComplete now) s = .next (settled s (gwFlushOver (atTime s now))) := rfl

end

/-! ### Flushes -/

section
variable {action scope lines : Nat}

theorem flushWord_action (h : action < 4) : wordGet (flushWord action scope lines) 0 2 = action := by
  simp only [flushWord, wordGet, BitVec.toNat_ofNat]
  omega

theorem flushWord_scope (h : scope < 4) : wordGet (flushWord action scope lines) 2 2 = scope := by
  simp only [flushWord, wordGet, BitVec.toNat_ofNat]
  omega

theorem flushWord_lines (h : lines < 2 ^ 21) : wordGet (flushWord action scope lines) 24 21 = lines := by
  simp only [flushWord, wordGet, BitVec.toNat_ofNat]
  omega

end

/-- What GW_FLUSH_CMD refuses (R363, R372). -/
def FlushRefused (s : State) (who : Who) (action scope lines : Nat) : Prop :=
  isPf0 who = false ∨ scope = 0 ∨ (scope = 1 ∧ (lines = 0 ∨ 1048576 < lines)) ∨ 16 ≤ flushesPending s
    ∨ (action = 3 ∧ rd s F.gwSecMode = 1 ∧ who ≠ .mgmt)

theorem Entry.flushRefused_iff {t s : State} (h : Entry t s) (who : Who) (action scope lines : Nat) :
    FlushRefused t who action scope lines ↔ FlushRefused s who action scope lines := by
  have hs : t = { s with csr := t.csr } := h.same
  have hgw : t.gw = s.gw := (congrArg State.gw hs :)
  rw [FlushRefused, FlushRefused, flushesPending, hgw, h.raw F.gwSecMode 0 0 (by decide) (by decide) (by decide), flushesPending]

section
variable {s : State} {who : Who} {action scope lines : Nat} (h1 : 1 ≤ action) (ha : action < 4) (hs : scope < 4) (hl : lines < 2 ^ 21)
include h1 ha hs hl

theorem flushCmd_eq [Decidable (FlushRefused s who action scope lines)] :
    flushCmd s who (flushWord action scope lines) =
      if FlushRefused s who action scope lines then refuseWrite s else acceptFlush s action scope lines := by
  have hsome : (action == 0) = false := by simpa using by omega
  have hiff : (!isPf0 who || action == 0 || scope == 0 || (scope == 1 && (lines == 0 || decide (1048576 < lines)))
      || decide (16 ≤ flushesPending s) || (action == 3 && rd s F.gwSecMode == 1 && who != .mgmt)) = true
      ↔ FlushRefused s who action scope lines := by
    simp only [FlushRefused, hsome, Bool.or_eq_true, Bool.and_eq_true, Bool.not_eq_true', beq_iff_eq, bne_iff_ne, decide_eq_true_eq,
      or_assoc, and_assoc, Bool.false_eq_true, false_or]
  simp only [flushCmd, flushWord_action ha, flushWord_scope hs, flushWord_lines hl, hiff]

/-- A served write of GW_FLUSH_CMD that is taken. -/
theorem flushStore_accepted {width : Nat} (h : Served s who) (hw : 64 ≤ width) (hok : ¬FlushRefused s who action scope lines) :
    csrWriteBy s who 0x07000108 width (flushWord action scope lines) noEnv = viaGate s who fun t => acceptFlush t action scope lines :=
  csrWriteBy_block s who 0x07000108 width _ noEnv _ h hw (by decide +kernel) (.inl rfl) fun t ht => by
    classical
    exact (flushCmd_eq h1 ha hs hl).trans (if_neg (mt (ht.flushRefused_iff who action scope lines).mp hok))

/-- A served write of GW_FLUSH_CMD that is refused. -/
theorem flushStore_refused {width : Nat} (h : Served s who) (hw : 64 ≤ width) (hbad : FlushRefused s who action scope lines) :
    csrWriteBy s who 0x07000108 width (flushWord action scope lines) noEnv = viaGate s who refuseWrite :=
  csrWriteBy_block s who 0x07000108 width _ noEnv _ h hw (by decide +kernel) (.inl rfl) fun t ht => by
    classical
    exact (flushCmd_eq h1 ha hs hl).trans (if_pos ((ht.flushRefused_iff who action scope lines).mpr hbad))

end

/-- A listed scope of PF0 with fewer than 16 commands pending is refused only as a DISCARD in MGMT mode. -/
theorem not_flushRefused {s : State} {who : Who} {action scope lines : Nat} (hp : isPf0 who = true) (h1 : 1 ≤ scope)
    (hr : scope = 1 → 1 ≤ lines ∧ lines ≤ 1048576) (hn : flushesPending s < 16)
    (hd : action ≠ 3 ∨ rd s F.gwSecMode ≠ 1 ∨ who = .mgmt) : ¬FlushRefused s who action scope lines := by
  rintro (hp' | h0 | ⟨hscope, hlines⟩ | hfull | ⟨haction, hmode, hwho⟩)
  · exact Bool.false_ne_true (hp'.symm.trans hp)
  · omega
  · have := hr hscope
    omega
  · omega
  · rcases hd with hd | hd | hd
    · exact hd haction
    · exact hd hmode
    · exact hwho hd

section
variable (s : State) (who : Who) (width scope lines : Nat)

theorem exec_gwFlushWriteback : exec (.gwFlushWriteback who width scope lines) s
    = .next (settled s (csrWriteBy s who 0x07000108 width (flushWord 1 scope lines) noEnv)) := rfl

theorem exec_gwFlushEvict : exec (.gwFlushEvict who width scope lines) s
    = .next (settled s (csrWriteBy s who 0x07000108 width (flushWord 2 scope lines) noEnv)) := rfl

theorem exec_gwFlushDiscard : exec (.gwFlushDiscard who width scope lines) s
    = .next (settled s (retryFills (csrWriteBy s who 0x07000108 width (flushWord 3 scope lines) noEnv))) := rfl

end

section
variable {s : State} {f : GwFlush} (hr : ∀ g, g ∈ s.gw.flushes → flushReady s g = true → g.seq ≠ none)
  (hf : s.gw.flushes.find? (fun g => g.seq.isSome) = some f)
include hr

/-- With every flush that is ready a numbered one, none of R380 is among them. -/
theorem readyFlush_numbered : (s.gw.flushes.filter fun g => flushReady s g).find? (fun g => g.seq.isNone) = none := by
  rw [List.find?_eq_none]
  intro g hg hnone
  rw [List.mem_filter] at hg
  exact hr g hg.1 hg.2 (Option.isNone_iff_eq_none.mp hnone)

include hf

theorem gwFlushOver_ready {q : Nat} (hq : f.seq = some q) (hready : flushReady s f = true) :
    gwFlushOver s =
      let u := setGw (evictClean s) fun g => { g with flushes := g.flushes.erase f }
      moveAccs (wr (wr u F.gwFlushStatDone q) F.gwFlushStatResult (bit f.failed)) := by
  simp only [gwFlushOver, readyFlush_numbered hr, hf, hq, hready, Bool.not_true, Bool.false_eq_true, if_false, Option.getD_some]

theorem gwFlushOver_waits (hready : flushReady s f = false) : gwFlushOver s = s := by
  simp only [gwFlushOver, readyFlush_numbered hr, hf, hready, Bool.not_false, if_true]

end

/-- Settles O32: an ended message by what it was for, the limits at their time, and a flush command by the check of R372. -/
theorem windowMessagesAndFlushesComplete : Obligations.WindowMessagesAndFlushesComplete := by
  unfold Obligations.WindowMessagesAndFlushesComplete
  refine ⟨fun s now id line no st data hm => ?fetch, fun s now id a st data hm => ?sector,
    fun s now id line first n st data hm => ?writtenBack, fun s now id a st data hm => ?put, fun s now line l hm hk ht => ?retry,
    fun s now id a hm ho ht => ?readLimit, fun s now id a hm ho ht hl => ?writeLimit, fun s now id a hm ho hmode hmsgs hst => ?waits,
    fun s who width scope lines h hw hp h1 h3 hr hl hn => ?writeback, fun s who width scope lines h hw hs hl hbad => ?writebackRefused,
    fun s who width scope lines h hw hp h1 h3 hr hl hn => ?evict, fun s who width scope lines h hw hs hl hbad => ?evictRefused,
    fun s who width scope lines h hw hp h1 h3 hr hl hn hm => ?discard, fun s who width scope lines h hw hs hl hbad => ?discardRefused,
    fun s now f q hr hf hq hready => ?completes, fun s now f hr hf hready => ?notOver⟩
  case fetch => rw [exec_farCacheFetchDone, fetchDone_line (s := atTime s now) hm]
  case sector => rw [exec_farCacheFetchDone, fetchDone_sector (s := atTime s now) hm]
  case writtenBack => rw [exec_writeBackPutDone, writtenBack_ended (s := atTime s now) hm]
  case put => rw [exec_sharedRwPutDone, ownPutDone_ended (s := atTime s now) hm]
  case retry => rw [exec_wbRetryTimer, retryLine_due (s := atTime s now) hm hk ht]
  case readLimit => rw [exec_gwLimitExpired, accLimit_read (s := atTime s now) hm ho ht]
  case writeLimit => rw [exec_gwLimitExpired, accLimit_lostWrite (s := atTime s now) hm ho ht hl]
  case waits =>
    have hstays : ¬(rd s F.gwSpanMode (spanOf a.off) = 3 ∨ a.msgs ≠ [] ∨ a.stalled = true) := by simp [hmode, hmsgs, hst]
    rw [exec_gwLimitExpired, accLimit_waitingWrite (s := atTime s now) hm ho hstays]
  case writeback =>
    rw [exec_gwFlushWriteback, flushStore_accepted (by decide) (by decide) (by omega) hl h hw
      (not_flushRefused hp h1 hr hn (.inl (by decide)))]
  case writebackRefused =>
    rw [exec_gwFlushWriteback, flushStore_refused (by decide) (by decide) hs hl h hw]
    rcases hbad with hp | h0 | hr | hn
    exacts [.inl hp, .inr (.inl h0), .inr (.inr (.inl hr)), .inr (.inr (.inr (.inl hn)))]
  case evict =>
    rw [exec_gwFlushEvict, flushStore_accepted (by decide) (by decide) (by omega) hl h hw
      (not_flushRefused hp h1 hr hn (.inl (by decide)))]
  case evictRefused =>
    rw [exec_gwFlushEvict, flushStore_refused (by decide) (by decide) hs hl h hw]
    rcases hbad with hp | h0 | hr | hn
    exacts [.inl hp, .inr (.inl h0), .inr (.inr (.inl hr)), .inr (.inr (.inr (.inl hn)))]
  case discard =>
    rw [exec_gwFlushDiscard, flushStore_accepted (by decide) (by decide) (by omega) hl h hw (not_flushRefused hp h1 hr hn (.inr hm))]
  case discardRefused =>
    rw [exec_gwFlushDiscard, flushStore_refused (by decide) (by decide) hs hl h hw]
    rcases hbad with hp | h0 | hr | hn | hd
    exacts [.inl hp, .inr (.inl h0), .inr (.inr (.inl hr)), .inr (.inr (.inr (.inl hn))), .inr (.inr (.inr (.inr ⟨rfl, hd⟩)))]
  case completes => rw [exec_gwFlushComplete, gwFlushOver_ready (s := atTime s now) hr hf hq hready]
  case notOver => rw [exec_gwFlushComplete, gwFlushOver_waits (s := atTime s now) hr hf hready]

end Sys2Proof.Machine
end

section
/-!
SUPPORT. Message descriptors (R249, R287, R430, R434, R454 to R457): the check of each operation decides between its error and its message.
-/

namespace Sys2Proof.Machine

section
variable {s : State} {now hp wq op : Nat} {w : Wq} {d : List Word}

theorem Starts.op_eq (h : Starts s now hp wq w d op) : dOp d = op := h.2.2

theorem exec_descNop (h : Starts s now hp wq w d op) (hop : op = 0 ∨ opKnown op = false) :
    exec (.descNop now hp wq) s = .next (settled s (descNop (atTime s now) (qKey hp wq) w d)) :=
  congrArg (done s) (startDesc_starts h (by simpa using hop))

theorem exec_descPut (h : Starts s now hp wq w d 1) :
    exec (.descPut now hp wq) s = .next (settled s (descPut (atTime s now) (qKey hp wq) w d)) :=
  congrArg (done s) (startDesc_starts h rfl)

theorem exec_descGet (h : Starts s now hp wq w d 2) :
    exec (.descGet now hp wq) s = .next (settled s (descGet (atTime s now) (qKey hp wq) w d)) :=
  congrArg (done s) (startDesc_starts h rfl)

theorem exec_descSend (h : Starts s now hp wq w d 3) :
    exec (.descSend now hp wq) s = .next (settled s (descSend (atTime s now) (qKey hp wq) w d)) :=
  congrArg (done s) (startDesc_starts h rfl)

theorem exec_descAtomic (h : Starts s now hp wq w d 8) :
    exec (.descAtomic now hp wq) s = .next (settled s (descAtomic (atTime s now) (qKey hp wq) w d)) :=
  congrArg (done s) (startDesc_starts h rfl)

theorem exec_descLock (h : Starts s now hp wq w d 9) :
    exec (.descLock now hp wq) s = .next (settled s (descLock (atTime s now) (qKey hp wq) w d)) :=
  congrArg (done s) (startDesc_starts h rfl)

end

section
variable (s : State) (k : Nat) (w : Wq) (d : List Word) (go : State → State)

theorem judged_none {bad : Option Nat} (h : bad = none) : judged s k w d bad go = go s := by rw [h, judged]

theorem judged_some {bad : Option Nat} {kind : Nat} (h : bad = some kind) : judged s k w d bad go = descFails s k w d kind := by
  rw [h, judged]

theorem judged_badField {b : Bool} (h : b = true) : judged s k w d (badField b) go = descFails s k w d 22 := by rw [h]; rfl

theorem judged_goodField {b : Bool} (h : b = false) : judged s k w d (badField b) go = go s := by rw [h]; rfl

end

section
variable {s : State} (k : Nat) {w : Wq} {d : List Word}

/-! ### NOP -/

theorem descNop_reserved (h : dOp d ≠ 0) : descNop s k w d = descFails s k w d 21 := by
  rw [descNop, if_pos h, judged_some s k w d _ rfl]

section
variable (h0 : dOp d = 0)
include h0

theorem descNop_wrongFields (h : wordsOk d wCommon 0 0 0 0 0 0 = false ∨ lenBad d = true) :
    descNop s k w d = descFails s k w d 22 := by
  rw [descNop, if_neg (not_not_intro h0), judged_wrongFields s k w d _ h]

theorem descNop_completes (hok : wordsOk d wCommon 0 0 0 0 0 0 = true) (hlen : lenBad d = false) :
    descNop s k w d = descOk s k w d 0 := by
  rw [descNop, if_neg (not_not_intro h0), judged_rightFields s k w d _ hok hlen]

end

/-! ### PUT, GET, SEND -/

theorem descPut_starts (h : putBad d = false) :
    descPut s k w d = descStart s k w { descMsg s k w d opPut (dLen d + if dFlag d then 16 else 0) with
      buf := descBuf d, flag := if dFlag d then some (dword d 6, dword d 7) else none, bulk := descBulk s d } :=
  judged_goodField s k w d _ h

theorem descPut_wrongFields (h : putBad d = true) : descPut s k w d = descFails s k w d 22 := judged_badField s k w d _ h

theorem descGet_wrongFields (h : wordsOk d wCommon wDest wKey wOff allBits 0 0 = false ∨ lenBad d = true ∨ dLen d = 0) :
    descGet s k w d = descFails s k w d 22 := by
  refine judged_badField s k w d _ ?_
  rcases h with h | h | h <;> simp [h]

theorem descGet_starts (hok : wordsOk d wCommon wDest wKey wOff allBits 0 0 = true) (hlen : lenBad d = false) (hn : dLen d ≠ 0) :
    descGet s k w d = descStart s k w { descMsg s k w d opGetReq (dLen d) with
      result := .dva (dword d 5), bulk := descBulk s d } :=
  judged_goodField s k w d _ (by simp [hok, hlen, hn])

theorem descSend_wrongFields (h : sendBad s d = true) : descSend s k w d = descFails s k w d 22 := judged_badField s k w d _ h

section
variable (h : sendBad s d = false)
include h

theorem descSend_eager (he : dLen d ≤ rd s F.mtCfgEagerMax) :
    descSend s k w d = descStart s k w { descMsg s k w d opSend (16 + dLen d) with
      key := 0, off := 0, order := dOrder d, buf := descBuf d, bulk := descBulk s d,
      prefixBytes := toBytes 8 (dword d 4) ++ toBytes 8 (sendWord1 w d + dLen d * 2 ^ 36) } := by
  have heager : sendEager s d = true := decide_eq_true he
  rw [descSend, judged_goodField s k w d _ h, if_pos heager]

theorem descSend_rts (he : rd s F.mtCfgEagerMax < dLen d) :
    descSend s k w d = descStart s k w { descMsg s k w d opSendRts 32 with
      key := 0, off := 0, order := dOrder d,
      prefixBytes := toBytes 8 (dword d 4) ++ toBytes 8 (sendWord1 w d) ++ toBytes 8 (dword d 7)
        ++ toBytes 8 (dword d 6 + dLen d * 2 ^ 32) } := by
  have hrts : ¬sendEager s d = true := by simpa [sendEager] using he
  rw [descSend, judged_goodField s k w d _ h, if_neg hrts]

end

/-! ### ATOMIC and LOCK -/

theorem descAtomic_bad {kind : Nat} (h : atomicBad d = some kind) : descAtomic s k w d = descFails s k w d kind :=
  judged_some s k w d _ h

theorem descAtomic_starts (h : atomicBad d = none) :
    descAtomic s k w d =
      let bs := toBytes 8 (dSub d % 64) ++ toBytes 8 (dword d 6) ++ (if aopHas2 (dSub d % 32) then toBytes 8 (dword d 7) else [])
      descStart s k w { descMsg s k w d opAtomic bs.length with result := .dva (dword d 5), prefixBytes := bs } :=
  judged_none s k w d _ h

theorem descLock_bad {kind : Nat} (h : lockBad d = some kind) : descLock s k w d = descFails s k w d kind :=
  judged_some s k w d _ h

/-- The message of a LOCK descriptor whose EC has context c (R434). -/
def lockMsg (s : State) (k : Nat) (w : Wq) (d : List Word) (c : EcCtx) : Slot :=
  { descMsg s k w d opLock 16 with
    result := .dva (dword d 5),
    prefixBytes := lockPayload (dSub d % 8) (bits (dSub d) 3 4) (reqId c.hp c.fn (bits (dSub d) 7 5)) (dword d 6) 0 }

section
variable {c : EcCtx} {v : State} (h : lockBad d = none) (hc : ctxOf s w.ec = some c)
  (hv : v = pmSample s 0 4 (descId k w.next) [w.ec, 9, dword d 4, selfId s, dDev d, dTc d, dLen d])
include h hc hv

theorem descLock_good : descLock s k w d =
    if (abandoning v d (reqId c.hp c.fn (bits (dSub d) 7 5)) && decide (dSub d % 8 ≤ 1)) = true then
      localOwner (takeDesc v k w) (lockMsg s k w d c) else descStart v k w (lockMsg s k w d c) := by
  have hreq : lockReq s k w d = reqId c.hp c.fn (bits (dSub d) 7 5) := by rw [lockReq, hc]
  rw [descLock, judged_none s k w d _ h, hreq, hv, lockMsg]

theorem descLock_sent (ha : abandoning v d (reqId c.hp c.fn (bits (dSub d) 7 5)) = false ∨ 1 < dSub d % 8) :
    descLock s k w d = descStart v k w (lockMsg s k w d c) := by
  rw [descLock_good k h hc hv, if_neg]
  rcases ha with ha | ha
  · simp [ha]
  · simp [Nat.not_le.mpr ha]

theorem descLock_local (ha : abandoning v d (reqId c.hp c.fn (bits (dSub d) 7 5)) = true) (hop : dSub d % 8 ≤ 1) :
    descLock s k w d = localOwner (takeDesc v k w) (lockMsg s k w d c) := by
  rw [descLock_good k h hc hv, if_pos (by simp [ha, hop])]

end

end

/-- Settles O34: each operation by its own check, a SEND by EAGER_MAX too, and a LOCK by what holds its word. -/
theorem messageDescriptorsComplete : Obligations.MessageDescriptorsComplete := by
  unfold Obligations.MessageDescriptorsComplete
  refine ⟨fun s now hp wq w d t k ht hk hs hok hlen => ?nop, fun s now hp wq w d t k ht hk hs h => ?nopWrong,
    fun s now hp wq w d t k op ht hk hs hop h0 => ?reserved, fun s now hp wq w d t k ht hk hs h => ?put,
    fun s now hp wq w d t k ht hk hs h => ?putWrong, fun s now hp wq w d t k ht hk hs h => ?getWrong,
    fun s now hp wq w d t k ht hk hs h => ?sendWrong, fun s now hp wq w d t k kind ht hk hs h => ?atomicWrong,
    fun s now hp wq w d t k kind ht hk hs h => ?lockWrong, fun s now hp wq w d t k ht hk hs hok hlen hn => ?get,
    fun s now hp wq w d t k ht hk hs h he => ?sendEager, fun s now hp wq w d t k ht hk hs h he => ?sendRts,
    fun s now hp wq w d t k ht hk hs h => ?atomic, fun s now hp wq w d t k c v ht hk hs h hc hv ha => ?lock,
    fun s now hp wq w d t k c v ht hk hs h hc hv ha hop => ?lockLocal⟩
  all_goals subst ht hk
  case nop => rw [exec_descNop hs (.inl rfl), descNop_completes _ hs.op_eq hok hlen]; rfl
  case nopWrong => rw [exec_descNop hs (.inl rfl), descNop_wrongFields _ hs.op_eq h]
  case reserved => rw [exec_descNop hs (.inr hop), descNop_reserved _ (by rw [hs.op_eq]; exact h0)]
  case put => rw [exec_descPut hs, descPut_starts _ h]; rfl
  case putWrong => rw [exec_descPut hs, descPut_wrongFields _ h]
  case get => rw [exec_descGet hs, descGet_starts _ hok hlen hn]; rfl
  case getWrong => rw [exec_descGet hs, descGet_wrongFields _ h]
  case sendEager => rw [exec_descSend hs, descSend_eager _ h he]; rfl
  case sendRts => rw [exec_descSend hs, descSend_rts _ h he]; rfl
  case sendWrong => rw [exec_descSend hs, descSend_wrongFields _ h]
  case atomic => rw [exec_descAtomic hs, descAtomic_starts _ h]; rfl
  case atomicWrong => rw [exec_descAtomic hs, descAtomic_bad _ h]
  case lock => rw [exec_descLock hs, descLock_sent _ h hc hv ha]; rfl
  case lockLocal => rw [exec_descLock hs, descLock_local _ h hc hv ha hop]; rfl
  case lockWrong => rw [exec_descLock hs, descLock_bad _ h]

/-! ### REG, REVOKE, RESOLVE, INVAL -/

section
variable {s : State} {now hp wq op : Nat} {w : Wq} {d : List Word}

theorem exec_descReg (h : Starts s now hp wq w d 0x10) :
    exec (.descReg now hp wq) s = .next (settled s (descReg (atTime s now) (qKey hp wq) w d)) :=
  congrArg (done s) (startDesc_starts h rfl)

theorem exec_descRevoke (h : Starts s now hp wq w d 0x11) :
    exec (.descRevoke now hp wq) s = .next (settled s (descRevoke (atTime s now) (qKey hp wq) w d)) :=
  congrArg (done s) (startDesc_starts h rfl)

theorem exec_descResolve (h : Starts s now hp wq w d 0x12) :
    exec (.descResolve now hp wq) s = .next (settled s (descResolve (atTime s now) (qKey hp wq) w d)) :=
  congrArg (done s) (startDesc_starts h rfl)

/-- An INVAL starts in HOLD too (R324). -/
theorem exec_descInval (hn : nextDesc (atTime s now) (qKey hp wq) = some (w, d)) (hw : wqOpen (atTime s now) (qKey hp wq) w = true)
    (hop : dOp d = 0x13) : exec (.descInval now hp wq) s = .next (settled s (descInval (atTime s now) (qKey hp wq) w d)) := by
  refine congrArg (done s) ?_
  simp only [invalStart, hn, hw, hop, beq_self_eq_true, Bool.and_self, if_true]

end

section
variable {s : State} (k : Nat) {w : Wq} {d : List Word}

theorem descReg_bad {kind : Nat} (h : regBad s k w d = some kind) : descReg s k w d = descFails s k w d kind :=
  judged_some s k w d _ h

theorem descReg_registers {i : Nat} (h : regBad s k w d = none) (hi : freeRegion s = some i) :
    descReg s k w d =
      let v := register s i (qPort k) w.fn (dword d 2) (dword d 4) (dword d 6) (dword d 5) (dword d 3) (dSub d % 2) (bits (dSub d) 1 1)
        (bits (dSub d) 2 1) (bits (dSub d) 3 1)
      descOk v k w d (keyOf v i) := by
  simp only [descReg, judged_none s k w d _ h, hi]

theorem descRevoke_wrongFields (h : wordsOk d wCommon wKey 0 0 0 0 0 = false ∨ lenBad d = true) :
    descRevoke s k w d = descFails s k w d 22 := judged_wrongFields s k w d _ h

/-- The region that a REVOKE descriptor names is one of its WQ's function (R349). -/
structure OwnsRegion (s : State) (k : Nat) (w : Wq) (i : Nat) : Prop where
  port : rd s F.mrEntryHp i = qPort k
  function : rd s F.mrEntryFunc i = w.fn

/-- A REVOKE that joins the revocation of entry i, or begins it (R348, R349). -/
def joinRevoke (s : State) (i : Nat) (o : Origin) : State :=
  match mget s.mr.revokes i with
  | some r => setMr s fun m => { m with revokes := mset m.revokes i { r with descs := r.descs ++ [(o, 2)] } }
  | none => markRevoking s i ⟨[], [(o, 0)], false⟩

section
variable (hok : wordsOk d wCommon wKey 0 0 0 0 0 = true) (hlen : lenBad d = false)
include hok hlen

theorem descRevoke_owned {i : Nat} (hr : regionOf s (dword d 2) = some i) (ho : OwnsRegion s k w i) :
    descRevoke s k w d = joinRevoke (takeDesc s k w) i (originOf k w d) := by
  obtain ⟨hport, hfn⟩ := ho
  have hmine : ((regionOf s (dword d 2)).filter fun i => rd s F.mrEntryHp i == qPort k && rd s F.mrEntryFunc i == w.fn) = some i := by
    simp [hr, Option.filter, hport, hfn]
  rw [descRevoke, judged_rightFields s k w d _ hok hlen, hmine]
  rfl

theorem descRevoke_notFound (h : ∀ i, regionOf s (dword d 2) = some i → ¬OwnsRegion s k w i) :
    descRevoke s k w d = descOk s k w d 1 := by
  have hnone : ((regionOf s (dword d 2)).filter fun i => rd s F.mrEntryHp i == qPort k && rd s F.mrEntryFunc i == w.fn) = none := by
    rw [Option.filter_eq_none_iff]
    intro i hi hmine
    rw [Bool.and_eq_true, beq_iff_eq, beq_iff_eq] at hmine
    exact h i hi ⟨hmine.1, hmine.2⟩
  rw [descRevoke, judged_rightFields s k w d _ hok hlen, hnone]

end

theorem descResolve_wrongFields (h : wordsOk d (wCommon + wSub 2) (mask 11 0) 0 0 0 0 0 = false ∨ lenBad d = true ∨ dSub d % 4 = 0
    ∨ dSub d % 4 = 3) : descResolve s k w d = descFails s k w d 22 := by
  have hbad : (!wordsOk d (wCommon + wSub 2) (mask 11 0) 0 0 0 0 0 || lenBad d || dSub d % 4 == 0 || dSub d % 4 == 3) = true := by
    rcases h with h | h | h | h <;> simp [h]
  rw [descResolve, judged_badField s k w d _ hbad]

section
variable (hok : wordsOk d (wCommon + wSub 2) (mask 11 0) 0 0 0 0 0 = true) (hlen : lenBad d = false)
include hok hlen

theorem resolveFields_good (ha : dSub d % 4 = 1 ∨ dSub d % 4 = 2) :
    (!wordsOk d (wCommon + wSub 2) (mask 11 0) 0 0 0 0 0 || lenBad d || dSub d % 4 == 0 || dSub d % 4 == 3) = false := by
  rcases ha with ha | ha <;> simp [hok, hlen, ha]

theorem descResolve_notOwned (ha : dSub d % 4 = 1 ∨ dSub d % 4 = 2)
    (h : ∀ f, mget s.mr.faults (dword d 2) = some f → ownsDom s k w f.dom = false) :
    descResolve s k w d = descFails s k w d 2 := by
  rw [descResolve, judged_goodField s k w d _ (resolveFields_good hok hlen ha)]
  cases hm : mget s.mr.faults (dword d 2) with
  | none => rfl
  | some f => exact if_pos (by rw [h f hm]; rfl)

variable {f : FaultEnt} (hm : mget s.mr.faults (dword d 2) = some f) (ho : ownsDom s k w f.dom = true)
include hm ho

theorem descResolve_retry (ha : dSub d % 4 = 1) : descResolve s k w d = resolveRetry (descOk s k w d 0) (dword d 2) := by
  rw [descResolve, judged_goodField s k w d _ (resolveFields_good hok hlen (.inl ha))]
  simp only [hm, ho, ha, Bool.not_true, Bool.false_eq_true, if_false, if_true]

theorem descResolve_fail (ha : dSub d % 4 = 2) :
    descResolve s k w d = if f.failed = true then descOk s k w d 0 else resolveFail (descOk s k w d 0) (dword d 2) f := by
  rw [descResolve, judged_goodField s k w d _ (resolveFields_good hok hlen (.inr ha))]
  simp [hm, ho, ha]

end

/-- The scope of an INVAL and its page count are ones that R319 lists. -/
def InvalScope (d : List Word) : Prop :=
  (dSub d % 4 = 1 ∧ 1 ≤ bits (dword d 2) 30 17 ∧ bits (dword d 2) 30 17 ≤ 65536) ∨ dSub d % 4 = 2

theorem descInval_wrongFields (h : wordsOk d (wCommon + wSub 2) (mask 11 0 + mask 46 30) allBits 0 0 0 0 = false ∨ lenBad d = true
    ∨ dSub d % 4 = 0 ∨ dSub d % 4 = 3 ∨ (dSub d % 4 = 1 ∧ (bits (dword d 2) 30 17 = 0 ∨ 65536 < bits (dword d 2) 30 17))) :
    descInval s k w d = descFails s k w d 22 := by
  have hbad : (!wordsOk d (wCommon + wSub 2) (mask 11 0 + mask 46 30) allBits 0 0 0 0 || lenBad d || dSub d % 4 == 0
      || dSub d % 4 == 3 || (dSub d % 4 == 1 && (bits (dword d 2) 30 17 == 0 || decide (65536 < bits (dword d 2) 30 17)))) = true := by
    rcases h with h | h | h | h | ⟨h, hpages | hpages⟩ <;> simp [*]
  rw [descInval, judged_badField s k w d _ hbad]

section
variable (hok : wordsOk d (wCommon + wSub 2) (mask 11 0 + mask 46 30) allBits 0 0 0 0 = true) (hlen : lenBad d = false)
  (hscope : InvalScope d)
include hok hlen hscope

theorem invalFields_good : (!wordsOk d (wCommon + wSub 2) (mask 11 0 + mask 46 30) allBits 0 0 0 0 || lenBad d || dSub d % 4 == 0
    || dSub d % 4 == 3 || (dSub d % 4 == 1 && (bits (dword d 2) 30 17 == 0 || decide (65536 < bits (dword d 2) 30 17)))) = false := by
  rcases hscope with ⟨hpages, h1, h2⟩ | hdom
  · have h0 : bits (dword d 2) 30 17 ≠ 0 := by omega
    simp [hok, hlen, hpages, h0, h2]
  · simp [hok, hlen, hdom]

theorem descInval_starts (ho : ownsDom s k w (dword d 2 % 2 ^ 12) = true) :
    descInval s k w d = startInval (takeDesc s k w) none (dSub d % 4) (dword d 2 % 2 ^ 12) (dword d 3 / 4096) (bits (dword d 2) 30 17)
      (some (originOf k w d)) := by
  rw [descInval, judged_goodField s k w d _ (invalFields_good hok hlen hscope), ho]
  rfl

theorem descInval_notOwned (ho : ownsDom s k w (dword d 2 % 2 ^ 12) = false) : descInval s k w d = descFails s k w d 2 := by
  rw [descInval, judged_goodField s k w d _ (invalFields_good hok hlen hscope), ho]
  rfl

end

end

/-- Settles O36: a REG by the checks of Table 11-2, a REVOKE by the region that its key names, a RESOLVE and an INVAL by their fields and
the domain's owner. -/
theorem regionDescriptorsComplete : Obligations.RegionDescriptorsComplete := by
  unfold Obligations.RegionDescriptorsComplete
  refine ⟨fun s now hp wq w d t k i ht hk hs h hi => ?reg, fun s now hp wq w d t k kind ht hk hs h => ?regBad,
    fun s now hp wq w d t k i ht hk hs hok hlen hr hport hfn => ?revoke, fun s now hp wq w d t k ht hk hs hok hlen h => ?notFound,
    fun s now hp wq w d t k ht hk hs h => ?revokeWrong, fun s now hp wq w d t k f ht hk hs hok hlen ha hm ho => ?retry,
    fun s now hp wq w d t k f ht hk hs hok hlen ha hm ho => ?fail, fun s now hp wq w d t k ht hk hs hok hlen ha h => ?notOwned,
    fun s now hp wq w d t k ht hk hs h => ?resolveWrong, fun s now hp wq w d t k ht hk hn hw hop hok hlen hscope ho => ?inval,
    fun s now hp wq w d t k ht hk hn hw hop hok hlen hscope ho => ?invalNotOwned,
    fun s now hp wq w d t k ht hk hn hw hop h => ?invalWrong⟩
  all_goals subst ht hk
  case reg => rw [exec_descReg hs, descReg_registers _ h hi]; rfl
  case regBad => rw [exec_descReg hs, descReg_bad _ h]
  case revoke => rw [exec_descRevoke hs, descRevoke_owned _ hok hlen hr ⟨hport, hfn⟩]; rfl
  case notFound =>
    rw [exec_descRevoke hs, descRevoke_notFound _ hok hlen fun i hi ho => (h i hi).elim (· ho.port) (· ho.function)]
    rfl
  case revokeWrong => rw [exec_descRevoke hs, descRevoke_wrongFields _ h]
  case retry => rw [exec_descResolve hs, descResolve_retry _ hok hlen hm ho ha]; rfl
  case fail => rw [exec_descResolve hs, descResolve_fail _ hok hlen hm ho ha]; rfl
  case notOwned => rw [exec_descResolve hs, descResolve_notOwned _ hok hlen ha h]
  case resolveWrong => rw [exec_descResolve hs, descResolve_wrongFields _ h]
  case inval => rw [exec_descInval hn hw hop, descInval_starts _ hok hlen hscope ho]
  case invalNotOwned => rw [exec_descInval hn hw hop, descInval_notOwned _ hok hlen hscope ho]
  case invalWrong => rw [exec_descInval hn hw hop, descInval_wrongFields _ h]

end Sys2Proof.Machine
end

section
/-!
SUPPORT. Collective and exchange descriptors (R316, R340, R393, R405, R410, R411, R415, R419): a local source by its translation, and
what each operation checks before it starts.
-/

namespace Sys2Proof.Machine

theorem readPieces_csr (s : State) (hp : Nat) (l : List (Nat × Nat)) : (readPieces s hp l).csr = s.csr := by
  induction l generalizing s with
  | nil => rfl
  | cons x l ih => exact ih _

theorem selfId_readPieces (s : State) (hp : Nat) (l : List (Nat × Nat)) : selfId (readPieces s hp l) = selfId s := by
  simp only [selfId, rd, csrRaw, readPieces_csr]

section
variable (s : State)

theorem pmSample_csr (phase kind id : Nat) (info : List Nat) : (pmSample s phase kind id info).csr = s.csr := by
  unfold pmSample; split <;> rfl

theorem pmSample_timeNs (phase kind id : Nat) (info : List Nat) : (pmSample s phase kind id info).timeNs = s.timeNs := by
  unfold pmSample; split <;> rfl

theorem pmCount_csr (block inst ev value : Nat) : (pmCount s block inst ev value).csr = s.csr := by
  unfold pmCount; split <;> rfl

theorem pmCount_timeNs (block inst ev value : Nat) : (pmCount s block inst ev value).timeNs = s.timeNs := by
  unfold pmCount; split <;> rfl

theorem takeDesc_csr (k : Nat) (w : Wq) : (takeDesc s k w).csr = s.csr := by rw [takeDesc, setWq_csr, pmCount_csr, pmSample_csr]

theorem takeDesc_timeNs (k : Nat) (w : Wq) : (takeDesc s k w).timeNs = s.timeNs := by
  rw [takeDesc, setWq_timeNs, pmCount_timeNs, pmSample_timeNs]

end

/-- What a COLL's operation is made of besides its descriptor: the group's registers and the time. -/
theorem collOf_congr {s t : State} (k : Nat) (w : Wq) (d : List Word) (data : List Byte) (hcsr : t.csr = s.csr)
    (htime : t.timeNs = s.timeNs) : collOf t k w d data = collOf s k w d data := by
  simp only [collOf, rd, csrRaw, hcsr, htime]

/-! ### A local source -/

/-- The admission of a descriptor's own source buffer in its context's domain (R316, R340). -/
def sourceAdm (c : EcCtx) (d : List Word) (dva len : Nat) : Adm :=
  { mr := none, dom := c.dom, hp := c.hp, fn := c.fn, pkrr := dword d 8, cls := 0, spans := [(dva, len)], recv := none }

section
variable {s v : State} (k : Nat) {w : Wq} {d : List Word} {dva len : Nat} {c : EcCtx} (go : State → State)
  (hc : ctxOf s w.ec = some c)
include hc

theorem withSource_empty : withSource s k w d dva 0 go = go s := by simp only [withSource, hc, if_true]

variable (hn : len ≠ 0)
include hn

theorem withSource_ok {l : List (Nat × Nat)} (ht : translateAdm s (sourceAdm c d dva len) = (v, .ok l)) :
    withSource s k w d dva len go = go (readPieces v c.hp l) := by
  rw [sourceAdm] at ht
  simp only [withSource, hc, if_neg hn, ht]

theorem withSource_miss {x : Nat} (ht : translateAdm s (sourceAdm c d dva len) = (v, .miss x)) :
    withSource s k w d dva len go = awaitWalk (setWq v k { w with walking := true }) c.dom x (.desc k) := by
  rw [sourceAdm] at ht
  simp only [withSource, hc, if_neg hn, ht]

theorem withSource_hard {kind x : Nat} (ht : translateAdm s (sourceAdm c d dva len) = (v, .hard kind x)) :
    withSource s k w d dva len go = descFails (recordFault v w.ec c.dom 0 0 kind x) k w d kind := by
  rw [sourceAdm] at ht
  simp only [withSource, hc, if_neg hn, ht]

end

/-! ### Starts -/

section
variable {s : State} {now hp wq : Nat} {w : Wq} {d : List Word}

theorem exec_descColl (data : List Byte) (h : Starts s now hp wq w d 0x18) :
    exec (.descColl now hp wq data) s = .next (settled s (descColl data (atTime s now) (qKey hp wq) w d)) :=
  congrArg (done s) (startDesc_starts h rfl)

theorem exec_descCollAbort (h : Starts s now hp wq w d 0x19) :
    exec (.descCollAbort now hp wq) s = .next (settled s (descCollAbort (atTime s now) (qKey hp wq) w d)) :=
  congrArg (done s) (startDesc_starts h rfl)

theorem exec_descExSend (data : List Byte) (h : Starts s now hp wq w d 0x1C) :
    exec (.descExSend now hp wq data) s = .next (settled s (descExSend data (atTime s now) (qKey hp wq) w d)) :=
  congrArg (done s) (startDesc_starts h rfl)

theorem exec_descExFlush (h : Starts s now hp wq w d 0x1D) :
    exec (.descExFlush now hp wq) s = .next (settled s (descExFlush (atTime s now) (qKey hp wq) w d)) :=
  congrArg (done s) (startDesc_starts h rfl)

theorem exec_descExConsume (h : Starts s now hp wq w d 0x1E) :
    exec (.descExConsume now hp wq) s = .next (settled s (descExConsume (atTime s now) (qKey hp wq) w d)) :=
  congrArg (done s) (startDesc_starts h rfl)

end

section
variable {s : State} (k : Nat) {w : Wq} {d : List Word}

/-! ### COLL and COLL_ABORT -/

theorem descColl_bad (data : List Byte) {kind : Nat} (h : collBad s k w d = some kind) :
    descColl data s k w d = descFails s k w d kind := judged_some s k w d _ h

section
variable (hb : collBad s k w d = none)
include hb

theorem descColl_aborted (data : List Byte) (hst : rd s F.clGroupState (dword d 2) = 2) :
    descColl data s k w d =
      descDone (takeDesc s k w) (originOf k w d) 1 0 (rd s F.clGroupCause (dword d 2)) 0 0 0 := by
  simp only [descColl, judged_none s k w d _ hb, if_pos hst]

theorem descColl_sourced {data : List Byte} (hst : rd s F.clGroupState (dword d 2) ≠ 2) (hl : data.length = collBytes s d) :
    descColl data s k w d = withSource s k w d (dword d 4) data.length fun s => collStart s k w d data := by
  rw [descColl, judged_none s k w d _ hb, if_neg hst, if_neg (not_not_intro hl)]

end

/-- The start of a COLL whose operation and own number read as they do before its descriptor is taken (R393, R394). -/
theorem collStart_eq (data : List Byte) :
    collStart s k w d data =
      let u := pmSample (takeDesc s k w) 0 3 (descId k w.next) [w.ec, 0x18, dword d 4, selfId s, selfId s, dTc d, data.length]
      let r := openOp u (dword d 2) (collOf s k w d data)
      refreshGrp (drainEarly (contributeAll r.1 (dword d 2) r.2) (dword d 2)) (dword d 2) := by
  have hop : ∀ info, collOf (pmSample (takeDesc s k w) 0 3 (descId k w.next) info) k w d data = collOf s k w d data := fun info =>
    collOf_congr k w d data (by rw [pmSample_csr, takeDesc_csr]) (by rw [pmSample_timeNs, takeDesc_timeNs])
  rw [collStart, hop]

theorem descCollAbort_wrongFields (h : wordsOk d wCommon (mask 11 0) 0 0 0 0 0 = false ∨ lenBad d = true) :
    descCollAbort s k w d = descFails s k w d 22 := judged_wrongFields s k w d _ h

section
variable (hok : wordsOk d wCommon (mask 11 0) 0 0 0 0 0 = true) (hlen : lenBad d = false)
include hok hlen

theorem descCollAbort_owned (ho : ownsGroup s k w (dword d 2) = true) :
    descCollAbort s k w d = abortGrp (descOk s k w d 0) (dword d 2) (abortSeq s (dword d 2)) 6 none := by
  simp only [descCollAbort, judged_rightFields s k w d _ hok hlen, ho, Bool.not_true, Bool.false_eq_true, if_false]

theorem descCollAbort_notOwned (ho : ownsGroup s k w (dword d 2) = false) : descCollAbort s k w d = descFails s k w d 2 := by
  simp only [descCollAbort, judged_rightFields s k w d _ hok hlen, ho, Bool.not_false, if_true]

end

/-! ### EX_SEND, EX_FLUSH, EX_CONSUME -/

theorem joinJob_open (x : ExSend) (hst : rd s F.exJobState (dword d 2) = 1) :
    joinJob s k w d x =
      let j := dword d 2
      let v := takeDesc s k w
      moveJob (setJob v j { job v j with sends := (job v j).sends ++ [x] }) j := if_neg (not_not_intro hst)

theorem joinJob_notOpen (x : ExSend) (hst : rd s F.exJobState (dword d 2) ≠ 1) : joinJob s k w d x = descFails s k w d 20 :=
  if_pos hst

theorem descExSend_wrongFields (data : List Byte) (h : wordsOk d wCommon (mask 5 0) allBits 0 0 0 0 = false ∨ lenBad d = true) :
    descExSend data s k w d = descFails s k w d 22 := judged_wrongFields s k w d _ h

section
variable (hok : wordsOk d wCommon (mask 5 0) allBits 0 0 0 0 = true) (hlen : lenBad d = false)
include hok hlen

theorem descExSend_notOpen (data : List Byte) (hst : rd s F.exJobState (dword d 2) ≠ 1) :
    descExSend data s k w d = descFails s k w d 20 := by
  rw [descExSend, judged_rightFields s k w d _ hok hlen, if_pos hst]

theorem descExSend_sourced {data : List Byte} (hst : rd s F.exJobState (dword d 2) = 1) (hl : data.length = dLen d) :
    descExSend data s k w d =
      withSource s k w d (dword d 3) data.length fun s => joinJob s k w d ⟨originOf k w d, false, data, [], 0, 0, none⟩ := by
  rw [descExSend, judged_rightFields s k w d _ hok hlen, if_neg (not_not_intro hst), if_neg (not_not_intro hl)]

end

theorem descExFlush_wrongFields (h : wordsOk d wCommon (mask 5 0) 0 0 0 0 0 = false ∨ lenBad d = true) :
    descExFlush s k w d = descFails s k w d 22 := judged_wrongFields s k w d _ h

theorem descExFlush_joins (hok : wordsOk d wCommon (mask 5 0) 0 0 0 0 0 = true) (hlen : lenBad d = false) :
    descExFlush s k w d = joinJob s k w d ⟨originOf k w d, true, [], [], 0, 0, none⟩ := judged_rightFields s k w d _ hok hlen

theorem descExConsume_wrong (h : wordsOk d wCommon (mask 5 0) allBits 0 0 0 0 = false ∨ lenBad d = true
    ∨ rd s F.exRingPi (dword d 2) < dword d 3) : descExConsume s k w d = descFails s k w d 22 := by
  have hbad : (!wordsOk d wCommon (mask 5 0) allBits 0 0 0 0 || lenBad d || decide (rd s F.exRingPi (dword d 2) < dword d 3)) = true := by
    rcases h with h | h | h <;> simp [h]
  rw [descExConsume, judged_badField s k w d _ hbad]

theorem descExConsume_taken (hok : wordsOk d wCommon (mask 5 0) allBits 0 0 0 0 = true) (hlen : lenBad d = false)
    (hci : dword d 3 ≤ rd s F.exRingPi (dword d 2)) :
    descExConsume s k w d = noteFull (wr (descOk s k w d 0) F.exRingCi (dword d 3) (dword d 2)) (dword d 2) := by
  have hgood : (!wordsOk d wCommon (mask 5 0) allBits 0 0 0 0 || lenBad d || decide (rd s F.exRingPi (dword d 2) < dword d 3)) = false := by
    simp [hok, hlen, hci]
  rw [descExConsume, judged_goodField s k w d _ hgood]

end

/-- Settles O37: each operation by its check; the source of a COLL and of an EX_SEND by its translation; the exchange's by the job's state
or the ring's PI. -/
theorem collectiveAndExchangeDescriptorsComplete : Obligations.CollectiveAndExchangeDescriptorsComplete := by
  unfold Obligations.CollectiveAndExchangeDescriptorsComplete
  refine ⟨fun s now hp wq w d t k data c v l a ht hk hs hb hst hl hn hc ha htr => ?coll,
    fun s now hp wq w d t k c ht hk hs hb hst hl hc => ?collEmpty,
    fun s now hp wq w d t k data c v x a ht hk hs hb hst hl hn hc ha htr => ?collMiss,
    fun s now hp wq w d t k data c v kind x a ht hk hs hb hst hl hn hc ha htr => ?collHard,
    fun s now hp wq w d t k data ht hk hs hb hst => ?collAborted, fun s now hp wq w d t k data kind ht hk hs hb => ?collBad,
    fun s now hp wq w d t k v ht hk hs hok hlen ho hv => ?abort, fun s now hp wq w d t k ht hk hs hok hlen ho => ?abortNotOwned,
    fun s now hp wq w d t k ht hk hs h => ?abortWrong, fun s now hp wq w d t k c ht hk hs hok hst hl hc => ?sendEmpty,
    fun s now hp wq w d t k data c u l a ht hk hs hok hlen hst hl hn hc ha htr hopen => ?send,
    fun s now hp wq w d t k data c v x a ht hk hs hok hlen hst hl hn hc ha htr => ?sendMiss,
    fun s now hp wq w d t k data c v kind x a ht hk hs hok hlen hst hl hn hc ha htr => ?sendHard,
    fun s now hp wq w d t k data ht hk hs hok hlen hst => ?sendNotOpen, fun s now hp wq w d t k data ht hk hs h => ?sendWrong,
    fun s now hp wq w d t k ht hk hs hok hlen hst => ?flush, fun s now hp wq w d t k ht hk hs hok hlen hst => ?flushNotOpen,
    fun s now hp wq w d t k ht hk hs h => ?flushWrong, fun s now hp wq w d t k ht hk hs hok hlen hci => ?consume,
    fun s now hp wq w d t k ht hk hs h => ?consumeWrong⟩
  all_goals subst ht hk
  case coll =>
    subst ha
    rw [exec_descColl _ hs, descColl_sourced _ hb hst hl, withSource_ok _ _ hc (mt List.eq_nil_of_length_eq_zero hn) htr,
      collStart_eq, selfId_readPieces]
  case collEmpty =>
    rw [exec_descColl _ hs, descColl_sourced (data := []) _ hb hst hl.symm, List.length_nil, withSource_empty _ _ hc,
      collStart_eq, List.length_nil]
  case collMiss =>
    subst ha
    rw [exec_descColl _ hs, descColl_sourced _ hb hst hl, withSource_miss _ _ hc (mt List.eq_nil_of_length_eq_zero hn) htr]
  case collHard =>
    subst ha
    rw [exec_descColl _ hs, descColl_sourced _ hb hst hl, withSource_hard _ _ hc (mt List.eq_nil_of_length_eq_zero hn) htr]
  case collAborted => rw [exec_descColl _ hs, descColl_aborted _ hb _ hst]
  case collBad => rw [exec_descColl _ hs, descColl_bad _ _ hb]
  case abort =>
    subst hv
    rw [exec_descCollAbort hs, descCollAbort_owned _ hok hlen ho, descOk]
  case abortNotOwned => rw [exec_descCollAbort hs, descCollAbort_notOwned _ hok hlen ho]
  case abortWrong => rw [exec_descCollAbort hs, descCollAbort_wrongFields _ h]
  case sendEmpty =>
    have hlen : lenBad d = false := by simp [lenBad, hl]
    rw [exec_descExSend _ hs, descExSend_sourced (data := []) _ hok hlen hst hl.symm, List.length_nil,
      withSource_empty _ _ hc, joinJob_open _ _ hst]
  case send =>
    subst ha
    rw [exec_descExSend _ hs, descExSend_sourced _ hok hlen hst hl, withSource_ok _ _ hc (mt List.eq_nil_of_length_eq_zero hn) htr,
      joinJob_open _ _ hopen]
  case sendMiss =>
    subst ha
    rw [exec_descExSend _ hs, descExSend_sourced _ hok hlen hst hl, withSource_miss _ _ hc (mt List.eq_nil_of_length_eq_zero hn) htr]
  case sendHard =>
    subst ha
    rw [exec_descExSend _ hs, descExSend_sourced _ hok hlen hst hl, withSource_hard _ _ hc (mt List.eq_nil_of_length_eq_zero hn) htr]
  case sendNotOpen => rw [exec_descExSend _ hs, descExSend_notOpen _ hok hlen _ hst]
  case sendWrong => rw [exec_descExSend _ hs, descExSend_wrongFields _ _ h]
  case flush => rw [exec_descExFlush hs, descExFlush_joins _ hok hlen, joinJob_open _ _ hst]
  case flushNotOpen => rw [exec_descExFlush hs, descExFlush_joins _ hok hlen, joinJob_notOpen _ _ hst]
  case flushWrong => rw [exec_descExFlush hs, descExFlush_wrongFields _ h]
  case consume => rw [exec_descExConsume hs, descExConsume_taken _ hok hlen hci]; rfl
  case consumeWrong => rw [exec_descExConsume hs, descExConsume_wrong _ h]

end Sys2Proof.Machine
end

section
/-!
SUPPORT. Doorbells, push slots and ring reads (R458, R459, R460): which of its guards a doorbell meets, and what each leaves.
-/

namespace Sys2Proof.Machine

/-! ### Doorbells -/

/-- A doorbell of a page reaches the device: the function answers, or is in D3hot, and is enabled (R459, R611). -/
structure BellHeard (s : State) (hp fn : Nat) : Prop where
  answers : (portOf s hp).d3hot.contains fn = true ∨ fnSilent s hp fn = false
  enabled : fnEnabled s hp fn = true

/-- A doorbell that is heard may be served: in D0, in RUN outside a TEST entry, over a serving port (R459). -/
structure BellServed (s : State) (hp fn : Nat) : Prop where
  inD0 : (portOf s hp).d3hot.contains fn = false
  run : baseOf s = 2
  noTest : enteringTest s = false
  serves : serving s hp = true

section
variable {s t : State} {hp fn page : Nat} (val : Word)

theorem doorbell_narrow {width : Nat} (hw : width ≠ 64) : doorbell s hp fn page width val = wakePort s hp := by
  simp only [doorbell, bne_iff_ne.mpr hw, Bool.or_true, if_true]

section
variable (ht : t = wakePort s hp) (hh : BellHeard t hp fn)
include ht hh

omit ht in
theorem bellHeard_guard : ((fnSilent t hp fn && !(portOf t hp).d3hot.contains fn) || !fnEnabled t hp fn || (64 : Nat) != 64) = false := by
  obtain ⟨hanswers, hen⟩ := hh
  rcases hanswers with h | h <;> rw [h, hen] <;> simp

theorem doorbell_noQueue (hk : pageWq t hp fn page = none) :
    doorbell s hp fn page 64 val = inc t F.qmFnStatDbDiscard 1 (fnIdx hp fn) := by
  subst ht
  simp only [doorbell, bellHeard_guard hh, Bool.false_eq_true, if_false, hk, discardBell, Option.bind_none, ite_self]

section
variable {k : Nat} {w : Wq} (hk : pageWq t hp fn page = some k) (hw : mget t.hi.wqs k = some w)
include hk hw

theorem doorbell_queue :
    doorbell s hp fn page 64 val =
      if ((portOf t hp).d3hot.contains fn || baseOf t != 2 || enteringTest t || !serving t hp) = true
          ∨ (w.state == .error || w.destroying) = true then
        clearPush (inc t F.qmFnStatDbDiscard 1 (fnIdx hp fn)) k
      else ringBell t k w (wordGet val 0 17) (min 4 (wordGet val 17 3)) := by
  subst ht
  simp only [doorbell, bellHeard_guard hh, Bool.false_eq_true, if_false, hk, discardBell, Option.bind_some, hw, Option.map_some, ite_or]

theorem doorbell_discarded (h : ¬BellServed t hp fn ∨ w.state = .error ∨ w.destroying = true) :
    doorbell s hp fn page 64 val = clearPush (inc t F.qmFnStatDbDiscard 1 (fnIdx hp fn)) k := by
  rw [doorbell_queue val ht hh hk hw]
  refine if_pos (h.imp (fun h => ?_) fun h => by simpa using h)
  rw [← Bool.not_eq_false]
  intro hserved
  simp only [Bool.or_eq_false_iff, bne_eq_false_iff_eq, Bool.not_eq_false'] at hserved
  obtain ⟨⟨⟨hd0, hrun⟩, htest⟩, hport⟩ := hserved
  exact h ⟨hd0, hrun, htest, hport⟩

theorem doorbell_rings (hb : BellServed t hp fn) (he : w.state ≠ .error) (hd : w.destroying = false) :
    doorbell s hp fn page 64 val = ringBell t k w (wordGet val 0 17) (min 4 (wordGet val 17 3)) := by
  obtain ⟨hd0, hrun, htest, hport⟩ := hb
  rw [doorbell_queue val ht hh hk hw]
  refine if_neg ?_
  rw [hd0, hrun, htest, hport, hd]
  simpa using he

end

end

end

section
variable {s : State} (k : Nat) {w : Wq} {pi n : Nat}

theorem ringBell_overrun (h : 2 ^ (w.log2 + 1) ≤ pi ∨ 2 ^ w.log2 < ringCount w.log2 pi w.ci) :
    ringBell s k w pi n = wqError (clearPush s k) k 1 := if_pos h

section
variable (hpi : pi < 2 ^ (w.log2 + 1)) (hci : ringCount w.log2 pi w.ci ≤ 2 ^ w.log2)
include hpi hci

theorem ringBell_noAdvance (h : ringCount w.log2 pi w.pi = 0 ∨ ringCount w.log2 pi w.ci < ringCount w.log2 w.pi w.ci) :
    ringBell s k w pi n = clearPush s k := by
  have hin : ¬(2 ^ (w.log2 + 1) ≤ pi ∨ 2 ^ w.log2 < ringCount w.log2 pi w.ci) := by omega
  rw [ringBell, if_neg hin, if_pos h]

theorem ringBell_advances (h0 : ringCount w.log2 pi w.pi ≠ 0) (h : ringCount w.log2 w.pi w.ci ≤ ringCount w.log2 pi w.ci) :
    ringBell s k w pi n = acceptBell s k w pi n (ringCount w.log2 pi w.pi) := by
  have hin : ¬(2 ^ (w.log2 + 1) ≤ pi ∨ 2 ^ w.log2 < ringCount w.log2 pi w.ci) := by omega
  have hnew : ¬(ringCount w.log2 pi w.pi = 0 ∨ ringCount w.log2 pi w.ci < ringCount w.log2 w.pi w.ci) := by omega
  rw [ringBell, if_neg hin, if_neg hnew]

end

end

theorem exec_doorbellWrite (now hp fn page width : Nat) (val : Word) (s : State) :
    exec (.doorbellWrite now hp fn page width val) s = .next (settled s (doorbell (atTime s now) hp fn page width val)) := rfl

/-! ### Push slots and ring reads -/

theorem pushBytes_stored {s t : State} {hp fn page off k : Nat} {bs : List Byte} (ht : t = wakePort s hp)
    (hk : pageWq t hp fn page = some k) (hw : mhas t.hi.wqs k = true) (hs : fnSilent t hp fn = false) (hen : fnEnabled t hp fn = true)
    (h1 : 0x100 ≤ off) (h2 : off + bs.length ≤ 0x200) (h8 : off % 8 = 0) (hl8 : bs.length % 8 = 0) (hn : bs ≠ []) (hl : bs.length ≤ 64) :
    pushBytes s hp fn page off bs =
      let old := mgetD t.hi.push k [] ++ List.replicate (256 - (mgetD t.hi.push k []).length) none
      let new := old.take (off - 0x100) ++ bs.map some ++ old.drop (off - 0x100 + bs.length)
      setHi t fun h => { h with push := mset h.push k new } := by
  subst ht
  have hgood : (fnSilent (wakePort s hp) hp fn || !fnEnabled (wakePort s hp) hp fn || !mhas (wakePort s hp).hi.wqs k
      || decide (off < 0x100) || decide (0x200 < off + bs.length) || off % 8 != 0 || bs.length % 8 != 0 || bs.isEmpty
      || decide (64 < bs.length)) = false := by
    simp [hw, hs, hen, h1, h2, h8, hl8, hn, hl]
  simp only [pushBytes, hk, hgood, Bool.false_eq_true, if_false]

theorem exec_pushSlotWrite (hp fn page off : Nat) (bs : List Byte) (s : State) :
    exec (.pushSlotWrite hp fn page off bs) s = .next (settled s (pushBytes s hp fn page off bs)) := rfl

section
variable {s : State} {k : Nat} {w : Wq} {ds : List (List Word)} (hm : mget s.hi.wqs k = some w) (hr : w.reading ≠ [])
include hm hr

theorem ringRead_failed : ringRead s k ds false = wqError (setWq s k { w with reading := [] }) k 3 := by
  have hreads : w.reading.isEmpty = false := by simpa using hr
  simp only [ringRead, hm, hreads, Bool.not_false, Bool.false_eq_true, if_false, if_true]

theorem ringRead_joins (hl : ds.length = w.reading.length) (h8 : ∀ d ∈ ds, d.length = 8) :
    ringRead s k ds true = setWq s k { w with
      reading := [], cache := (w.reading.zip ds).foldl (fun m e => mset m e.1 (e.2 ++ [pkrrWord s w])) w.cache } := by
  have hreads : w.reading.isEmpty = false := by simpa using hr
  have hfit : ¬(ds.length ≠ w.reading.length ∨ ds.any (fun d => d.length != 8) = true) := by simpa [hl] using h8
  simp only [ringRead, hm, hreads, Bool.not_true, Bool.false_eq_true, if_false, if_neg hfit]

end

theorem exec_descriptorFetchDone (now hp wq : Nat) (ds : List (List Word)) (ok : Bool) (s : State) :
    exec (.descriptorFetchDone now hp wq ds ok) s = .next (settled s (ringRead (atTime s now) (qKey hp wq) ds ok)) := rfl

/-- Settles O33: a doorbell by whether it is heard, whether it may be served, and what its PI is to the ring. -/
theorem doorbellAndFetchCommandsComplete : Obligations.DoorbellAndFetchCommandsComplete := by
  unfold Obligations.DoorbellAndFetchCommandsComplete
  refine ⟨fun s now hp fn page val t k w ht hk hw hd0 hs hen hrun htest hport he hd hpi hci h0 h => ?advances,
    fun s now hp fn page val t k w ht hk hw hd0 hs hen hrun htest hport he hd h => ?overrun,
    fun s now hp fn page val t k w ht hk hw hd0 hs hen hrun htest hport he hd hpi hci h => ?noAdvance,
    fun s now hp fn page val t k w ht hk hw hh hen h => ?discarded, fun s now hp fn page val t ht hk hh hen => ?noQueue,
    fun s now hp fn page width val hw => ?narrow,
    fun s hp fn page off bs t k ht hk hw hs hen h1 h2 h8 hl8 hn hl => ?push,
    fun s now hp wq ds w hm hr hl h8 => ?joins, fun s now hp wq ds w hm hr => ?failed⟩
  case advances =>
    rw [exec_doorbellWrite, doorbell_rings val ht ⟨.inr hs, hen⟩ hk hw ⟨hd0, hrun, htest, hport⟩ he hd,
      ringBell_advances k hpi hci h0 h]
  case overrun =>
    rw [exec_doorbellWrite, doorbell_rings val ht ⟨.inr hs, hen⟩ hk hw ⟨hd0, hrun, htest, hport⟩ he hd, ringBell_overrun k h]
  case noAdvance =>
    rw [exec_doorbellWrite, doorbell_rings val ht ⟨.inr hs, hen⟩ hk hw ⟨hd0, hrun, htest, hport⟩ he hd, ringBell_noAdvance k hpi hci h]
  case discarded =>
    rw [exec_doorbellWrite, doorbell_discarded val ht ⟨hh, hen⟩ hk hw]
    rcases h with he | hd | hd3 | hrun | htest | hport
    · exact .inr (.inl he)
    · exact .inr (.inr hd)
    · exact .inl fun hb => Bool.false_ne_true (hb.inD0.symm.trans hd3)
    · exact .inl fun hb => hrun hb.run
    · exact .inl fun hb => Bool.false_ne_true (hb.noTest.symm.trans htest)
    · exact .inl fun hb => Bool.false_ne_true (hport.symm.trans hb.serves)
  case noQueue => rw [exec_doorbellWrite, doorbell_noQueue val ht ⟨hh, hen⟩ hk]
  case narrow => rw [exec_doorbellWrite, doorbell_narrow val hw]
  case push => rw [exec_pushSlotWrite, pushBytes_stored ht hk hw hs hen h1 h2 h8 hl8 hn hl]
  case joins => rw [exec_descriptorFetchDone, ringRead_joins (s := atTime s now) hm hr hl h8]; rfl
  case failed => rw [exec_descriptorFetchDone, ringRead_failed (s := atTime s now) hm hr]

end Sys2Proof.Machine
end

section
/-!
SUPPORT. Queue commands (R297, R449 to R453, R461, R463, R474, R475): a write of a function page behind the gate, what decides whether a
command runs, and what each one does with the object that it names.
-/

namespace Sys2Proof.Machine

/-! ### A write of a function page -/

theorem entry_wakePort {s : State} {hp : Nat} (h : hp < 2) : Entry (wakePort s hp) s := by
  refine ⟨wakePort_sameBut s hp, fun key h1 h2 _ => ?_⟩
  unfold wakePort
  split
  · rfl
  · exact csrRaw_wr_ne _ _ _ _ _ _ (by simp only [F.hiPortStatPm, Fld.key]; omega)

theorem entry_wr_refused {s : State} : Entry (wr s F.topCsrRefusedCount 0) s :=
  ⟨wr_sameBut _ _ _ _ _, fun key _ _ h3 => csrRaw_wr_ne _ _ _ _ _ _ (by simpa [F.topCsrRefusedCount, Fld.key] using h3)⟩

theorem Entry.inRecovery_eq {t s : State} (h : Entry t s) : inRecovery t = inRecovery s := by simp only [inRecovery, h.baseOf_eq]

/-- Who may write the page of a function (R448; log entry 52). -/
def MayWritePage (who : Who) (hp fn : Nat) : Prop := who = .fn hp fn ∨ who = .fn hp 0 ∨ (who = .mgmt ∧ hp = 0)

theorem pageOf_fnPageKey {hp fn off : Nat} (hf : fn < 256) (ho : off < 0x8000) :
    pageOf (fnPageKey hp fn off) = some (hp, fn, off) := by
  have hport : fnPageKey hp fn off / 0x10000000 = hp := by simp only [fnPageKey]; omega
  have hkey : fnPageKey hp fn off % 0x10000000 = 0x0A800000 + fn * 0x8000 + off := by simp only [fnPageKey]; omega
  have hin : 0x0A800000 ≤ 0x0A800000 + fn * 0x8000 + off ∧ 0x0A800000 + fn * 0x8000 + off < 0x0B000000 := by omega
  have hfn : (0x0A800000 + fn * 0x8000 + off - 0x0A800000) / 0x8000 = fn := by omega
  have hoff : (0x0A800000 + fn * 0x8000 + off) % 0x8000 = off := by omega
  simp only [pageOf, hport, hkey, if_pos hin, hfn, hoff]

theorem blockWrite_page {t : State} {who : Who} {key hp fn off : Nat} {w : Word} {env : CsrEnv} (h : pageOf key = some (hp, fn, off)) :
    blockWrite t who key w env = pageWrite t key hp fn off w := by
  unfold blockWrite
  rw [h]

section
variable {s : State} {who : Who} {hp fn off width : Nat} {w : Word} {f : State → State} (h : Served s who) (hw : 64 ≤ width)
  (hf : fn < 256) (hh : hp < 2) (hwho : MayWritePage who hp fn) (ho : off < 0x8000)
  (hk : takesWrites (fnPageKey hp fn off) = true) (hl : wordLegal (fieldsAt (fnPageKey hp fn off)) w = true)
  (heff : ∀ t, Entry t s → pageWrite t (fnPageKey hp fn off) hp fn off w = f t)
include h hw hf hh hwho ho hk hl heff

/-- A served write of a page reaches pageWrite. -/
theorem pageStore_served (h8 : off % 8 = 0) : pageStore s who hp fn off width w = viaGate s who f := by
  have happly : ∀ t, Entry t s → csrApply noEnv t who (fnPageKey hp fn off) w = f t := fun t ht => by
    rw [csrApply_block noEnv t who (fnPageKey hp fn off) w (ht.inRecovery_eq.trans h.2.1) hk (.inr hl), ← heff t ht]
    exact blockWrite_page (pageOf_fnPageKey hf ho)
  have hin : ¬(256 ≤ fn ∨ 2 ≤ hp) := by omega
  have hhost : ∀ g, Served s (.fn hp g) → (g = 0 ∨ g = fn) → who = .fn hp g →
      pageStore s (.fn hp g) hp fn off width w = viaGate s (.fn hp g) f := fun g hs hg hwhoEq => by
    simp only [pageStore, if_neg hin, true_and, if_pos hg]
    rw [hostWrite_served s hp g _ width w noEnv hs hw]
    refine viaGate_congr s _ _ _ (fun hp' fn' he => ?_) fun he => nomatch he
    obtain ⟨rfl, rfl⟩ := Who.fn.inj he
    rw [← hwhoEq]
    exact happly _ (entry_wakePort hh)
  rcases hwho with rfl | rfl | ⟨rfl, rfl⟩
  · exact hhost fn h (.inr rfl) rfl
  · exact hhost 0 h (.inl rfl) rfl
  · have hkey : fnPageKey 0 fn off = 0x0A800000 + fn * 0x8000 + off := by unfold fnPageKey; omega
    simp only [pageStore, if_neg hin, if_true]
    rw [mctpIn_served s (fnPageKey 0 fn off) w noEnv h (by omega) (by omega)]
    exact viaGate_congr s .mgmt _ f (fun _ _ he => nomatch he) fun _ => happly _ entry_wr_refused

end

theorem regFind_qmCmd : ∀ hp < 2, ∀ fn < 256, regFind (fnPageKey hp fn 0) = some R.qmCmd := by decide +kernel

/-! ### QM_CMD -/

theorem qmWord_cmd {cmd : Nat} (h : cmd < 16) : wordGet (BitVec.ofNat 64 cmd) 0 4 = cmd := by
  simp only [wordGet, BitVec.toNat_ofNat]
  omega

/-- A queue command that runs acts on the arguments in QM_ARG0 to QM_ARG2 (R474). -/
def qmRun (s : State) (hp fn cmd : Nat) : State :=
  let a0 := rd s F.qmArg0Arg (fnIdx hp fn)
  let a1 := rd s F.qmArg1Arg (fnIdx hp fn)
  match cmd with
  | 1 => eqCreate s hp fn a0 a1
  | 2 => cqCreate s hp fn a0 a1
  | 3 => wqCreate s hp fn a0 a1 (rd s F.qmArg2Arg (fnIdx hp fn))
  | 4 => ecOpenCmd s hp fn a0 a1
  | 5 => ecCloseCmd s hp fn a0
  | _ => objCommand s hp fn cmd a0

section
variable {s : State} {hp fn cmd : Nat}

theorem qmCommand_busy (h : rd s F.qmCmdStatSt (fnIdx hp fn) = 1) : qmCommand s hp fn cmd = refuseWrite s := if_pos (.inl h)

section
variable (hst : rd s F.qmCmdStatSt (fnIdx hp fn) ≠ 1) (h1 : 1 ≤ cmd) (h8 : cmd ≤ 8)
include hst h1 h8

theorem qmCommand_notServing (hs : serving s hp = false) : qmCommand s hp fn cmd = qmFail s hp fn 5 := by
  have hok : ¬(rd s F.qmCmdStatSt (fnIdx hp fn) = 1 ∨ cmd = 0 ∨ 8 < cmd) := by omega
  rw [qmCommand, if_neg hok, hs]
  rfl

theorem qmCommand_runs (hs : serving s hp = true) : qmCommand s hp fn cmd = qmRun s hp fn cmd := by
  have hok : ¬(rd s F.qmCmdStatSt (fnIdx hp fn) = 1 ∨ cmd = 0 ∨ 8 < cmd) := by omega
  rw [qmCommand, if_neg hok, hs]
  rfl

end

end

theorem Entry.qmCmdStatSt_eq {t s : State} (h : Entry t s) (hp fn : Nat) :
    rd t F.qmCmdStatSt (fnIdx hp fn) = rd s F.qmCmdStatSt (fnIdx hp fn) := by
  have hkey : F.qmCmdStatSt.key (fnIdx hp fn) = 0x0A800028 + 0x8000 * fnIdx hp fn := rfl
  exact h.raw F.qmCmdStatSt (fnIdx hp fn) 0 (by omega) (by omega) (by omega)

theorem Entry.serving_eq {t s : State} (h : Entry t s) (hp : Nat) : serving t hp = serving s hp := by
  rw [serving, h.rdb' F.modeStatHp0Serving 0 0 (by decide) (by decide) (by decide),
    h.rdb' F.modeStatHp1Serving 0 0 (by decide) (by decide) (by decide), serving]

section
variable {s : State} {who : Who} {hp fn width cmd : Nat} (h : Served s who) (hw : 64 ≤ width) (hf : fn < 256) (hh : hp < 2)
  (hwho : MayWritePage who hp fn) (h8 : cmd ≤ 8)
include h hw hf hh hwho h8

/-- A served write of QM_CMD reaches qmCommand. -/
theorem qmStore_served {f : State → State} (heff : ∀ t, Entry t s → qmCommand t hp fn cmd = f t) :
    qmStore s who hp fn width cmd = viaGate s who f := by
  have hreg := regFind_qmCmd hp hh fn hf
  refine pageStore_served h hw hf hh hwho (by decide) (takesWrites_of_regFind hreg (by decide)) ?legal (fun t ht => ?effect) rfl
  case legal => rw [fieldsAt_of_regFind hreg]; rfl
  case effect =>
    refine (if_pos rfl).trans ?_
    rw [qmWord_cmd (by omega), heff t ht]

theorem qmStore_busy (hst : rd s F.qmCmdStatSt (fnIdx hp fn) = 1) : qmStore s who hp fn width cmd = viaGate s who refuseWrite :=
  qmStore_served h hw hf hh hwho h8 fun _ ht => qmCommand_busy ((ht.qmCmdStatSt_eq hp fn).trans hst)

variable (h1 : 1 ≤ cmd) (hst : rd s F.qmCmdStatSt (fnIdx hp fn) ≠ 1)
include h1 hst

theorem qmStore_notServing (hs : serving s hp = false) :
    qmStore s who hp fn width cmd = viaGate s who fun t => qmFail t hp fn 5 :=
  qmStore_served h hw hf hh hwho h8 fun _ ht =>
    qmCommand_notServing (by rw [ht.qmCmdStatSt_eq]; exact hst) h1 h8 ((ht.serving_eq hp).trans hs)

theorem qmStore_runs (hs : serving s hp = true) : qmStore s who hp fn width cmd = viaGate s who fun t => qmRun t hp fn cmd :=
  qmStore_served h hw hf hh hwho h8 fun _ ht =>
    qmCommand_runs (by rw [ht.qmCmdStatSt_eq]; exact hst) h1 h8 ((ht.serving_eq hp).trans hs)

end

/-! ### DESTROY, RESET, QUERY -/

section
variable {s : State} {hp fn a0 : Nat} (cmd : Nat)

theorem objCommand_outOfRange (h : bits a0 0 2 = 3 ∨ (bits a0 0 2 = 0 ∧ 4096 ≤ bits a0 16 16)
    ∨ ((bits a0 0 2 = 1 ∨ bits a0 0 2 = 2) ∧ 16384 ≤ bits a0 16 16)) : objCommand s hp fn cmd a0 = qmFail s hp fn 2 := by
  rcases h with hk | ⟨hk, hn⟩ | ⟨hk | hk, hn⟩
  · simp only [objCommand, hk]
  all_goals simp only [objCommand, hk, if_pos hn]

theorem objCommand_free (h : (bits a0 0 2 = 0 ∧ bits a0 16 16 < 4096 ∧ mget s.hi.eqs (eqKey hp (bits a0 16 16)) = none)
    ∨ (bits a0 0 2 = 1 ∧ bits a0 16 16 < 16384 ∧ mget s.hi.cqs (qKey hp (bits a0 16 16)) = none)
    ∨ (bits a0 0 2 = 2 ∧ bits a0 16 16 < 16384 ∧ mget s.hi.wqs (qKey hp (bits a0 16 16)) = none)) :
    objCommand s hp fn cmd a0 = freeObject s hp fn cmd := by
  rcases h with ⟨hk, hn, hm⟩ | ⟨hk, hn, hm⟩ | ⟨hk, hn, hm⟩ <;> simp only [objCommand, hk, if_neg (Nat.not_le.mpr hn), hm]

section
variable {e : Evq} (hk : bits a0 0 2 = 0) (hn : bits a0 16 16 < 4096) (hm : mget s.hi.eqs (eqKey hp (bits a0 16 16)) = some e)
include hk hn hm

theorem objCommand_eq : objCommand s hp fn cmd a0 =
    if e.fn ≠ fn then qmFail s hp fn 4 else eqCommand s hp fn cmd (eqKey hp (bits a0 16 16)) e := by
  simp only [objCommand, hk, if_neg (Nat.not_le.mpr hn), hm]

end

section
variable {q : Cq} (hk : bits a0 0 2 = 1) (hn : bits a0 16 16 < 16384) (hm : mget s.hi.cqs (qKey hp (bits a0 16 16)) = some q)
include hk hn hm

theorem objCommand_cq : objCommand s hp fn cmd a0 =
    if q.fn ≠ fn then qmFail s hp fn 4 else cqCommand s hp fn cmd (qKey hp (bits a0 16 16)) q := by
  simp only [objCommand, hk, if_neg (Nat.not_le.mpr hn), hm]

end

section
variable {w : Wq} (hk : bits a0 0 2 = 2) (hn : bits a0 16 16 < 16384) (hm : mget s.hi.wqs (qKey hp (bits a0 16 16)) = some w)
include hk hn hm

theorem objCommand_wq : objCommand s hp fn cmd a0 =
    if w.fn ≠ fn then qmFail s hp fn 4 else wqCommand s hp fn cmd (qKey hp (bits a0 16 16)) w := by
  simp only [objCommand, hk, if_neg (Nat.not_le.mpr hn), hm]

end

end

section
variable {s : State} {hp fn k : Nat}

section
variable {q : Cq}

theorem cqCommand_destroy : cqCommand s hp fn 6 k q =
    if cqBound s k = true then qmFail s hp fn 3
    else qmDone (refreshFnStat (setHi s fun h => { h with cqs := mdel h.cqs k }) hp fn) hp fn 0 := if_pos rfl

theorem cqCommand_reset : cqCommand s hp fn 7 k q =
    if q.state ≠ .error then qmFail s hp fn 5
    else if q.held.isEmpty = true then cqResetEnd s k q hp fn
    else setHi (qmBusy s hp fn) fun h => { h with resets := mset h.resets (fnIdx hp fn) k } :=
  (if_neg (by decide)).trans (if_pos rfl)

theorem cqCommand_resetReady (h : q.state = .ready) : cqCommand s hp fn 7 k q = qmFail s hp fn 5 :=
  cqCommand_reset.trans (if_pos (by rw [h]; exact QState.noConfusion))

theorem cqCommand_resetEnds (h : q.state = .error) (hh : q.held = []) : cqCommand s hp fn 7 k q = cqResetEnd s k q hp fn := by
  rw [cqCommand_reset, if_neg (not_not_intro h), hh]
  rfl

theorem cqCommand_resetWaits (h : q.state = .error) (hh : q.held ≠ []) :
    cqCommand s hp fn 7 k q = setHi (qmBusy s hp fn) fun h => { h with resets := mset h.resets (fnIdx hp fn) k } := by
  rw [cqCommand_reset, if_neg (not_not_intro h), if_neg (by simpa using hh)]

end

section
variable {w : Wq}

theorem wqCommand_destroyed (h : w.destroying = true) : wqCommand s hp fn 6 k w = qmFail s hp fn 5 :=
  (if_pos rfl).trans (if_pos h)

theorem wqCommand_destroys (h : w.destroying = false) : wqCommand s hp fn 6 k w = wqDestroy s k w :=
  (if_pos rfl).trans (if_neg (by rw [h]; exact Bool.false_ne_true))

theorem wqDestroy_eq : wqDestroy s k w =
    let rest := positions w.log2 w.next w.pi
    let u := setWq s k { w with destroying := true, cache := [], reading := [], live := rest ++ w.live, next := w.pi,
                                 stall := none, walking := false }
    let v := clearPush (flushDescs u k w rest) k
    if w.live = [] then qmDone (dropWq v k w.fn) (qPort k) w.fn 0 else qmBusy v (qPort k) w.fn := by
  simp only [wqDestroy, List.isEmpty_iff]

/-- A WQ that RESET does not take: not in ERROR, or with descriptors started, waiting or held, or being destroyed (R463). -/
def WqNotReset (s : State) (k : Nat) (w : Wq) : Prop :=
  w.state = .ready ∨ w.live ≠ [] ∨ w.next ≠ w.pi ∨ w.destroying = true ∨ wqHolds s k w.cq = true

theorem wqNotReset_iff : (w.state ≠ .error ∨ (!w.live.isEmpty) = true ∨ w.next ≠ w.pi ∨ w.destroying = true ∨ wqHolds s k w.cq = true)
    ↔ WqNotReset s k w := by
  have hready : w.state ≠ .error ↔ w.state = .ready := by cases w.state <;> decide
  have hlive : (!w.live.isEmpty) = true ↔ w.live ≠ [] := by simp
  rw [WqNotReset, hready, hlive]

theorem wqCommand_resetRefused (h : WqNotReset s k w) : wqCommand s hp fn 7 k w = qmFail s hp fn 5 := if_pos (wqNotReset_iff.mpr h)

theorem wqCommand_resets (h : ¬WqNotReset s k w) :
    wqCommand s hp fn 7 k w =
      qmDone (refreshFnStat (clearPush (setWq s k
        { w with state := .ready, cause := 0, pi := 0, ci := 0, next := 0, cache := [], reading := [], done := [],
                  shadowCi := 0 }) k) hp fn) hp fn 0 := if_neg (mt wqNotReset_iff.mp h)

end

end

/-- Settles O38: a queue command by the state of the function's last one and the port, then by the object that it names. -/
theorem queueCommandsComplete : Obligations.QueueCommandsComplete := by
  unfold Obligations.QueueCommandsComplete
  refine ⟨fun s who hp fn width i hi h hw hf hh hwho hst hs => ?eqCreate,
    fun s who hp fn width h hw hf hh hwho hst => ?eqCreateBusy,
    fun s who hp fn width h hw hf hh hwho hst hs => ?eqCreateUnserved,
    fun s who hp fn width i hi h hw hf hh hwho hst hs => ?cqCreate,
    fun s who hp fn width h hw hf hh hwho hst => ?cqCreateBusy,
    fun s who hp fn width h hw hf hh hwho hst hs => ?cqCreateUnserved,
    fun s who hp fn width i hi h hw hf hh hwho hst hs => ?wqCreate,
    fun s who hp fn width h hw hf hh hwho hst => ?wqCreateBusy,
    fun s who hp fn width h hw hf hh hwho hst hs => ?wqCreateUnserved,
    fun s who hp fn width i hi h hw hf hh hwho hst hs => ?ecOpen,
    fun s who hp fn width h hw hf hh hwho hst => ?ecOpenBusy,
    fun s who hp fn width h hw hf hh hwho hst hs => ?ecOpenUnserved,
    fun s now who hp fn width i hi h hw hf hh hwho hst hs => ?ecClose,
    fun s now who hp fn width h hw hf hh hwho hst => ?ecCloseBusy,
    fun s now who hp fn width h hw hf hh hwho hst hs => ?ecCloseUnserved,
    fun s who hp fn width i hi h hw hf hh hwho hst hs => ?destroy,
    fun s who hp fn width h hw hf hh hwho hst => ?destroyBusy,
    fun s who hp fn width h hw hf hh hwho hst hs => ?destroyUnserved,
    fun s who hp fn width i hi h hw hf hh hwho hst hs => ?reset,
    fun s who hp fn width h hw hf hh hwho hst => ?resetBusy,
    fun s who hp fn width h hw hf hh hwho hst hs => ?resetUnserved,
    fun s who hp fn width i hi h hw hf hh hwho hst hs => ?query,
    fun s who hp fn width h hw hf hh hwho hst => ?queryBusy,
    fun s who hp fn width h hw hf hh hwho hst hs => ?queryUnserved,
    fun s hp fn a0 e hk hn hm he => ?eq, fun s hp fn a0 q hk hn hm hq => ?cq, fun s hp fn a0 k w hk hn hkey hm hq => ?wq,
    fun s hp fn a0 cmd h => ?outOfRange, fun s hp fn a0 h => ?free, fun s hp fn a0 cmd h => ?notOwned⟩
  case eqCreate | cqCreate | wqCreate | ecOpen | destroy | reset | query =>
    subst hi
    exact congrArg (done s) (qmStore_runs h hw hf hh hwho (by decide) (by decide) hst hs)
  case eqCreateBusy | cqCreateBusy | wqCreateBusy | ecOpenBusy | destroyBusy | resetBusy | queryBusy =>
    exact congrArg (done s) (qmStore_busy h hw hf hh hwho (by decide) hst)
  case eqCreateUnserved | cqCreateUnserved | wqCreateUnserved | ecOpenUnserved | destroyUnserved | resetUnserved | queryUnserved =>
    exact congrArg (done s) (qmStore_notServing h hw hf hh hwho (by decide) (by decide) hst hs)
  case ecClose =>
    subst hi
    exact congrArg (done s) (qmStore_runs (served_atTime now h) hw hf hh hwho (by decide) (by decide) hst hs)
  case ecCloseBusy => exact congrArg (done s) (qmStore_busy (served_atTime now h) hw hf hh hwho (by decide) hst)
  case ecCloseUnserved =>
    exact congrArg (done s) (qmStore_notServing (served_atTime now h) hw hf hh hwho (by decide) (by decide) hst hs)
  case eq =>
    have hown : ¬e.fn ≠ fn := not_not_intro he
    exact ⟨(objCommand_eq 6 hk hn hm).trans (if_neg hown), (objCommand_eq 7 hk hn hm).trans (if_neg hown),
      (objCommand_eq 8 hk hn hm).trans (if_neg hown)⟩
  case cq =>
    have hown : ∀ cmd, objCommand s hp fn cmd a0 = cqCommand s hp fn cmd (qKey hp (bits a0 16 16)) q := fun cmd =>
      (objCommand_cq cmd hk hn hm).trans (if_neg (not_not_intro hq))
    exact ⟨(hown 6).trans cqCommand_destroy, fun h => (hown 7).trans (cqCommand_resetReady h),
      fun h hh => (hown 7).trans (cqCommand_resetEnds h hh), fun h hh => (hown 7).trans (cqCommand_resetWaits h hh), hown 8⟩
  case wq =>
    subst hkey
    have hown : ∀ cmd, objCommand s hp fn cmd a0 = wqCommand s hp fn cmd (qKey hp (bits a0 16 16)) w := fun cmd =>
      (objCommand_wq cmd hk hn hm).trans (if_neg (not_not_intro hq))
    refine ⟨fun h => ((hown 6).trans (wqCommand_destroys h)).trans wqDestroy_eq, fun h => (hown 6).trans (wqCommand_destroyed h),
      fun h => (hown 7).trans (wqCommand_resetRefused h), fun hst hl hnext hd hheld => (hown 7).trans (wqCommand_resets ?_), hown 8⟩
    simp [WqNotReset, hst, hl, hnext, hd, hheld]
  case outOfRange => exact objCommand_outOfRange cmd h
  case free => exact ⟨objCommand_free 6 h, objCommand_free 7 h, objCommand_free 8 h⟩
  case notOwned =>
    rcases h with ⟨e, hk, hn, hm, he⟩ | ⟨q, hk, hn, hm, hq⟩ | ⟨w, hk, hn, hm, hq⟩
    · exact (objCommand_eq cmd hk hn hm).trans (if_pos he)
    · exact (objCommand_cq cmd hk hn hm).trans (if_pos hq)
    · exact (objCommand_wq cmd hk hn hm).trans (if_pos hq)

end Sys2Proof.Machine
end

section
/-!
SUPPORT. Queues made by command (R451 to R453, R475), the doorbells of CQs and EQs (R462, R463, R465, R466), interrupt moderation and the
stall limit.
-/

namespace Sys2Proof.Machine

/-! ### Creating commands -/

section
variable {s : State} {hp fn a0 a1 : Nat}

section
variable (h : ringArgsOk fn a0 a1 = false)
include h

theorem eqCreate_badArgs : eqCreate s hp fn a0 a1 = qmFail s hp fn 2 := by rw [eqCreate, h]; rfl

theorem cqCreate_badArgs : cqCreate s hp fn a0 a1 = qmFail s hp fn 2 := by rw [cqCreate, h]; rfl

end

section
variable (h : ringArgsOk fn a0 a1 = true)
include h

theorem eqCreate_noneFree (hn : freeEq s hp fn = none) : eqCreate s hp fn a0 a1 = qmFail s hp fn 1 := by
  simp only [eqCreate, h, hn, Bool.not_true, Bool.false_eq_true, if_false]

theorem eqCreate_made {n : Nat} (hn : freeEq s hp fn = some n) :
    eqCreate s hp fn a0 a1 =
      qmDone (setHi s fun h => { h with
        eqs := mset h.eqs (eqKey hp n)
          { fn := fn, addr := a0, log2 := bits a1 0 5, vec := bits a1 16 11, poll := bitAt a1 27, modCount := bits a1 32 8,
            modUs := bits a1 40 10, pi := 0, ci := 0, lost := 0, cause := 0, armed := false, count := 0, firstAt := none } }) hp fn n := by
  simp only [eqCreate, h, hn, Bool.not_true, Bool.false_eq_true, if_false]

theorem cqCreate_made {n : Nat} (hn : freeCq s hp fn = some n) :
    cqCreate s hp fn a0 a1 =
      qmDone (setCq s (qKey hp n)
        { fn := fn, addr := a0, log2 := bits a1 0 5, vec := bits a1 16 11, poll := bitAt a1 27, modCount := bits a1 32 8,
          modUs := bits a1 40 10, state := .ready, cause := 0, pi := 0, ci := 0, held := [], pendWritten := false,
          fullSince := none, armed := false, count := 0, firstAt := none }) hp fn n := by
  simp only [cqCreate, h, hn, Bool.not_true, Bool.false_eq_true, if_false]

end

theorem wqCreate_made {a2 n : Nat} {q : Cq} {c : EcCtx} (h6 : 6 ≤ bits a1 0 5) (h16 : bits a1 0 5 ≤ 16) (h0 : a0 % 4096 = 0)
    (h2 : a2 % 8 = 0) (hq : mget s.hi.cqs (qKey hp (bits a1 16 14)) = some q) (hqf : q.fn = fn)
    (hc : ctxOf s (bits a1 32 20) = some c) (hch : c.hp = hp) (hcf : c.fn = fn) (hcl : c.closing = false) (hcs : c.state = 1)
    (hn : freeWq s hp fn = some n) :
    wqCreate s hp fn a0 a1 a2 =
      qmDone (setWq s (qKey hp n)
        { fn := fn, addr := a0, log2 := bits a1 0 5, cq := qKey hp (bits a1 16 14), ec := bits a1 32 20, shadow := a2,
          state := .ready, cause := 0, pi := 0, ci := 0, next := 0, cache := [], reading := [], live := [], done := [],
          shadowAt := s.timeNs, shadowCi := 0, destroying := false }) hp fn n := by
  have hargs : (!(decide (6 ≤ bits a1 0 5) && decide (bits a1 0 5 ≤ 16) && a0 % 4096 == 0 && a2 % 8 == 0)) = false := by
    simp [h6, h16, h0, h2]
  have hown : ¬(q.fn ≠ fn ∨ c.hp ≠ hp ∨ c.fn ≠ fn) := by simp [hqf, hch, hcf]
  have hopen : ¬(c.closing = true ∨ c.state ≠ 1) := by simp [hcl, hcs]
  simp only [wqCreate, hargs, Bool.false_eq_true, if_false, hq, hc, if_neg hown, if_neg hopen, hn]

theorem ecOpenCmd_opened {q : Cq} (hres : bits a1 17 3 = 0) (hd : domServes s (bits a1 0 12) hp fn = true)
    (hq : mget s.hi.cqs (qKey hp (bits a1 32 14)) = some q) (hqf : q.fn = fn)
    (hg : vfGrants s hp fn F.hiVfMapEcMax (mcount s.tp.ecs fun _ c => c.hp == hp && c.fn == fn) = true) (hnamed : bitAt a0 20 = false)
    (hfree : ctxOf s (bits a0 0 20) = none) (ha : ecAllowed s hp (bits a0 0 20) = true) :
    ecOpenCmd s hp fn a0 a1 =
      qmDone (setCtx s (bits a0 0 20)
        { state := 1, hp := hp, fn := fn, agg := bits a1 20 12, ops := bits a1 12 8, dom := bits a1 0 12, pkrr := 0,
          rcq := bits a1 32 14, closing := false, closeAt := 0 }) hp fn (bits a0 0 20) := by
  simp only [ecOpenCmd, hres, hd, hq, hqf, hg, hnamed, hfree, ha, ne_eq, not_true, Bool.not_true, Bool.false_eq_true, if_false,
    Option.isSome_none]

end

/-- Settles O39: each creating command with arguments in range, objects of its function and a free number. -/
theorem createdQueuesStartEmpty : Obligations.CreatedQueuesStartEmpty := by
  unfold Obligations.CreatedQueuesStartEmpty
  exact ⟨fun _ _ _ _ _ h => ⟨eqCreate_badArgs h, cqCreate_badArgs h⟩, fun _ _ _ _ _ h hn => eqCreate_noneFree h hn,
    fun _ _ _ _ _ _ h hn => eqCreate_made h hn, fun _ _ _ _ _ _ h hn => cqCreate_made h hn,
    fun _ _ _ _ _ _ _ _ _ h6 h16 h0 h2 hq hqf hc hch hcf hcl hcs hn => wqCreate_made h6 h16 h0 h2 hq hqf hc hch hcf hcl hcs hn,
    fun _ _ _ _ _ _ hres hd hq hqf hg hnamed hfree ha => ecOpenCmd_opened hres hd hq hqf hg hnamed hfree ha⟩

/-! ### Doorbells of CQs and EQs -/

theorem mset_mset {α : Type} (m : Map α) (k : Nat) (v v' : α) : mset (mset m k v) k v' = mset m k v' := by
  induction m with
  | nil => simp [mset]
  | cons e m ih =>
    obtain ⟨a, x⟩ := e
    rcases Nat.lt_trichotomy k a with h | h | h
    · simp [mset, h]
    · simp [mset, h]
    · have hlt : ¬k < a := by omega
      have hne : ¬k = a := by omega
      simp [mset, hlt, hne, ih]

theorem setCq_setCq (s : State) (k : Nat) (q r : Cq) : setCq (setCq s k q) k r = setCq s k r := by
  simp only [setCq, setHi, mset_mset]

/-- An EQ put in its place. -/
def setEq (s : State) (k : Nat) (e : Evq) : State := setHi s fun h => { h with eqs := mset h.eqs k e }

theorem setHi_eqs (s : State) (k : Nat) (e : Evq) : (setHi s fun h => { h with eqs := mset h.eqs k e }) = setEq s k e := rfl

theorem setEq_setEq (s : State) (k : Nat) (e f : Evq) : setEq (setEq s k e) k f = setEq s k f := by
  simp only [setEq, setHi, mset_mset]

theorem mget_setCq (s : State) (k : Nat) (q : Cq) : mget (setCq s k q).hi.cqs k = some q := mget_mset_same _ _ _

theorem mget_setEq (s : State) (k : Nat) (e : Evq) : mget (setEq s k e).hi.eqs k = some e := mget_mset_same _ _ _

theorem regFind_qmCqDb : ∀ hp < 2, ∀ fn < 256, regFind (fnPageKey hp fn 0x1000) = some R.qmCqDb := by decide +kernel

theorem regFind_qmEqDb : ∀ hp < 2, ∀ fn < 256, regFind (fnPageKey hp fn 0x1008) = some R.qmEqDb := by decide +kernel

section
variable {s : State} {who : Who} {hp fn width : Nat} {w : Word} (now : Nat) (h : Served s who) (hw : 64 ≤ width) (hf : fn < 256)
  (hh : hp < 2) (hwho : MayWritePage who hp fn)
include h hw hf hh hwho

theorem exec_cqDoorbellWrite (hl : wordLegal (fieldsAt (fnPageKey hp fn 0x1000)) w = true) :
    exec (.cqDoorbellWrite now who hp fn width w) s
      = .next (settled s (viaGate (atTime s now) who fun t => cqDoorbell t hp fn w)) :=
  congrArg (done s) (pageStore_served (served_atTime now h) hw hf hh hwho (by decide)
    (takesWrites_of_regFind (regFind_qmCqDb hp hh fn hf) (by decide)) hl (fun _ _ => rfl) rfl)

theorem exec_eqDoorbellWrite (hl : wordLegal (fieldsAt (fnPageKey hp fn 0x1008)) w = true) :
    exec (.eqDoorbellWrite now who hp fn width w) s
      = .next (settled s (viaGate (atTime s now) who fun t => eqDoorbell t hp fn w)) :=
  congrArg (done s) (pageStore_served (served_atTime now h) hw hf hh hwho (by decide)
    (takesWrites_of_regFind (regFind_qmEqDb hp hh fn hf) (by decide)) hl (fun _ _ => rfl) rfl)

end

section
variable {s : State} {hp fn : Nat} {w : Word}

theorem cqDoorbell_refused (h : ∀ q, mget s.hi.cqs (qKey hp (wordGet w 32 14)) = some q →
    q.fn ≠ fn ∨ ciOk q.log2 q.pi q.ci (wordGet w 0 17) = false) : cqDoorbell s hp fn w = refuseWrite s := by
  cases hm : mget s.hi.cqs (qKey hp (wordGet w 32 14)) with
  | none => simp only [cqDoorbell, hm]
  | some q =>
    have hbad : q.fn ≠ fn ∨ (!ciOk q.log2 q.pi q.ci (wordGet w 0 17)) = true := by simpa using h q hm
    simp only [cqDoorbell, hm, if_pos hbad]

theorem eqDoorbell_refused (h : ∀ e, mget s.hi.eqs (eqKey hp (wordGet w 32 12)) = some e →
    e.fn ≠ fn ∨ ciOk e.log2 e.pi e.ci (wordGet w 0 17) = false) : eqDoorbell s hp fn w = refuseWrite s := by
  cases hm : mget s.hi.eqs (eqKey hp (wordGet w 32 12)) with
  | none => simp only [eqDoorbell, hm]
  | some e =>
    have hbad : e.fn ≠ fn ∨ (!ciOk e.log2 e.pi e.ci (wordGet w 0 17)) = true := by simpa using h e hm
    simp only [eqDoorbell, hm, if_pos hbad]

/-- A drain of a CQ that holds nothing only forgets that a held completion was signalled (R462). -/
theorem cqDrain_none (k n : Nat) {q : Cq} (hq : q.held = []) :
    cqDrain (n + 1) (setCq s k q) k = setCq s k { q with pendWritten := false } := by
  simp only [cqDrain, mget_setCq, hq]
  exact setCq_setCq s k q _

/-- A CQ after its CI has moved to `new` with nothing held (R463, R466). -/
def cqMoved (q : Cq) (new time : Nat) : Cq :=
  let since := if new = q.ci then q.fullSince else none
  { q with ci := new, pendWritten := false,
           fullSince := if ringFull q.log2 q.pi new = true ∧ since = none then some time else since }

theorem cqDoorbell_moves {q : Cq} (hm : mget s.hi.cqs (qKey hp (wordGet w 32 14)) = some q) (hf : q.fn = fn)
    (hci : ciOk q.log2 q.pi q.ci (wordGet w 0 17) = true) (hq : q.held = []) :
    cqDoorbell s hp fn w =
      let k := qKey hp (wordGet w 32 14)
      let new := wordGet w 0 17
      let r := cqMoved q new s.timeNs
      let waits := ringCount q.log2 q.pi new
      if wordGet w 17 1 = 0 then setCq s k r
      else if waits ≠ 0 ∧ q.modUs = 0 then raiseIrq (setCq s k { r with armed := false, count := 0, firstAt := none }) hp fn q.vec q.poll
      else setCq s k { r with armed := true, count := 0, firstAt := if waits = 0 then none else some s.timeNs } := by
  have hok : ¬(q.fn ≠ fn ∨ (!ciOk q.log2 q.pi q.ci (wordGet w 0 17)) = true) := by simp [hf, hci]
  have hsince : (if (wordGet w 0 17 != q.ci) = true then none else q.fullSince)
      = if wordGet w 0 17 = q.ci then q.fullSince else none := by
    by_cases h : wordGet w 0 17 = q.ci <;> simp [h]
  have hlen : q.held.length = 0 := by rw [hq]; rfl
  simp only [cqDoorbell, hm, if_neg hok, hsince, hlen]
  rw [cqDrain_none _ 0 (by exact hq)]
  simp only [mget_setCq, setCq_setCq, setCq_timeNs, cqMoved, Bool.and_eq_true, Option.isNone_iff_eq_none]

section
variable {e : Evq} (hm : mget s.hi.eqs (eqKey hp (wordGet w 32 12)) = some e) (hf : e.fn = fn)
  (hci : ciOk e.log2 e.pi e.ci (wordGet w 0 17) = true)
include hm hf hci

theorem eqDoorbell_moves (hl : e.lost = 0) :
    eqDoorbell s hp fn w =
      let k := eqKey hp (wordGet w 32 12)
      let r := { e with ci := wordGet w 0 17 }
      let waits := ringCount e.log2 e.pi (wordGet w 0 17)
      if wordGet w 17 1 = 0 then setEq s k r
      else if waits ≠ 0 ∧ e.modUs = 0 then raiseIrq (setEq s k { r with armed := false, count := 0, firstAt := none }) hp fn e.vec e.poll
      else setEq s k { r with armed := true, count := 0, firstAt := if waits = 0 then none else some s.timeNs } := by
  have hok : ¬(e.fn ≠ fn ∨ (!ciOk e.log2 e.pi e.ci (wordGet w 0 17)) = true) := by simp [hf, hci]
  have hnone : (decide (e.lost ≠ 0) && !ringFull e.log2 e.pi (wordGet w 0 17)) = false := by simp [hl]
  simp only [eqDoorbell, hm, if_neg hok, hnone, Bool.false_eq_true, if_false, setHi_eqs, mget_setEq, setEq_setEq]
  rfl

theorem eqDoorbell_reportsLost (hl : e.lost ≠ 0) (hr : ringFull e.log2 e.pi (wordGet w 0 17) = false) (ha : wordGet w 17 1 = 0) :
    eqDoorbell s hp fn w =
      eqOverflow (setEq s (eqKey hp (wordGet w 32 12)) { e with ci := wordGet w 0 17 }) (eqKey hp (wordGet w 32 12))
        { e with ci := wordGet w 0 17 } := by
  have hok : ¬(e.fn ≠ fn ∨ (!ciOk e.log2 e.pi e.ci (wordGet w 0 17)) = true) := by simp [hf, hci]
  have hlost : (decide (e.lost ≠ 0) && !ringFull e.log2 e.pi (wordGet w 0 17)) = true := by simp [hl, hr]
  simp only [eqDoorbell, hm, if_neg hok, hlost, if_true, ha, setHi_eqs]
  split <;> rfl

end

end

/-! ### Moderation and stalls -/

section
variable {s : State} {k : Nat}

theorem cqModerated_fires {q : Cq} (hm : mget s.hi.cqs k = some q) (ha : q.armed = true) (hn : q.pi ≠ q.ci) (hf : q.firstAt ≠ none)
    (ho : modOver s q.firstAt q.modUs = true) :
    cqModerated s k = raiseIrq (setCq s k { q with armed := false, count := 0, firstAt := none }) (qPort k) q.fn q.vec q.poll := by
  have hdue : (q.armed && q.pi != q.ci && q.firstAt.isSome && modOver s q.firstAt q.modUs) = true := by
    simp [ha, hn, Option.isSome_iff_ne_none.mpr hf, ho]
  simp only [cqModerated, hm, hdue, if_true]

theorem cqModerated_stays {q : Cq} (hm : mget s.hi.cqs k = some q)
    (h : q.armed = false ∨ q.pi = q.ci ∨ q.firstAt = none ∨ modOver s q.firstAt q.modUs = false) : cqModerated s k = s := by
  have hwaits : (q.armed && q.pi != q.ci && q.firstAt.isSome && modOver s q.firstAt q.modUs) = false := by
    rcases h with h | h | h | h <;> simp [h]
  simp only [cqModerated, hm, hwaits, Bool.false_eq_true, if_false]

theorem eqModerated_fires {e : Evq} (hp : Nat) (hm : mget s.hi.eqs k = some e) (ha : e.armed = true) (hn : e.pi ≠ e.ci)
    (hf : e.firstAt ≠ none) (ho : modOver s e.firstAt e.modUs = true) :
    eqModerated s hp k = raiseIrq (setEq s k { e with armed := false, count := 0, firstAt := none }) hp e.fn e.vec e.poll := by
  have hdue : (e.armed && e.pi != e.ci && e.firstAt.isSome && modOver s e.firstAt e.modUs) = true := by
    simp [ha, hn, Option.isSome_iff_ne_none.mpr hf, ho]
  simp only [eqModerated, hm, hdue, if_true, setHi_eqs]

theorem eqModerated_stays {e : Evq} (hp : Nat) (hm : mget s.hi.eqs k = some e)
    (h : e.armed = false ∨ e.pi = e.ci ∨ e.firstAt = none ∨ modOver s e.firstAt e.modUs = false) : eqModerated s hp k = s := by
  have hwaits : (e.armed && e.pi != e.ci && e.firstAt.isSome && modOver s e.firstAt e.modUs) = false := by
    rcases h with h | h | h | h <;> simp [h]
  simp only [eqModerated, hm, hwaits, Bool.false_eq_true, if_false]

theorem cqStalls_due {hp n full : Nat} {q : Cq} (hm : mget s.hi.cqs (qKey hp n) = some q) (hf : q.fullSince = some full)
    (hst : q.state = .ready) (hr : ringFull q.log2 q.pi q.ci = true) (ht : full + rd s F.qmCqStallLimitMs hp * 1000000 ≤ s.timeNs) :
    cqStalls s hp n = cqError s (qKey hp n) q := by
  simp only [cqStalls, hm, hf, hst, hr, decide_eq_true ht, beq_self_eq_true, Bool.and_self, if_true]

theorem cqStalls_stays {hp n : Nat} {q : Cq} (hm : mget s.hi.cqs (qKey hp n) = some q)
    (h : q.fullSince = none ∨ q.state = .error ∨ ringFull q.log2 q.pi q.ci = false) : cqStalls s hp n = s := by
  cases hf : q.fullSince with
  | none => simp only [cqStalls, hm, hf]
  | some full =>
    have hstays : (q.state == .ready && ringFull q.log2 q.pi q.ci
        && decide (full + rd s F.qmCqStallLimitMs hp * 1000000 ≤ s.timeNs)) = false := by
      rcases h with h | h | h
      · exact absurd (hf.symm.trans h) (by simp)
      · rw [h]; rfl
      · simp [h]
    simp only [cqStalls, hm, hf, hstays, Bool.false_eq_true, if_false]

end

theorem exec_cqModerated (s : State) (now hp n : Nat) :
    exec (.interruptModerationExpired now false hp n) s = .next (settled s (cqModerated (atTime s now) (qKey hp n))) := rfl

theorem exec_eqModerated (s : State) (now hp n : Nat) :
    exec (.interruptModerationExpired now true hp n) s = .next (settled s (eqModerated (atTime s now) hp (eqKey hp n))) := rfl

theorem exec_cqStallLimitExpired (s : State) (now hp n : Nat) :
    exec (.cqStallLimitExpired now hp n) s = .next (settled s (cqStalls (atTime s now) hp n)) := rfl

/-- Settles O40: a doorbell goes past the gate of its page to the queue that it names; moderation and stall limit by what the queue holds
and since when. -/
theorem completionQueueCommandsComplete : Obligations.CompletionQueueCommandsComplete := by
  unfold Obligations.CompletionQueueCommandsComplete
  refine ⟨fun s now who hp fn width val h hw hf hh hwho hl => exec_cqDoorbellWrite now h hw hf hh hwho hl,
    fun s now who hp fn width val h hw hf hh hwho hl => exec_eqDoorbellWrite now h hw hf hh hwho hl,
    fun s hp fn w h => cqDoorbell_refused h, fun s hp fn w h => eqDoorbell_refused h,
    fun s hp fn w q hm hf hci hq => cqDoorbell_moves hm hf hci hq, fun s hp fn w e hm hf hci hl => eqDoorbell_moves hm hf hci hl,
    fun s hp fn w e hm hf hci hl hr ha => eqDoorbell_reportsLost hm hf hci hl hr ha,
    fun s now hp n q hm ha hn hf ho => ?cqFires, fun s now hp n q hm h => ?cqStays, fun s now hp n e hm ha hn hf ho => ?eqFires,
    fun s now hp n e hm h => ?eqStays, fun s now hp n q full hm hf hst hr ht => ?stalls, fun s now hp n q hm h => ?noStall⟩
  case cqFires => rw [exec_cqModerated, cqModerated_fires (s := atTime s now) hm ha hn hf ho]
  case cqStays => rw [exec_cqModerated, cqModerated_stays (s := atTime s now) hm h]
  case eqFires => rw [exec_eqModerated, eqModerated_fires (s := atTime s now) hp hm ha hn hf ho]; rfl
  case eqStays => rw [exec_eqModerated, eqModerated_stays (s := atTime s now) hp hm h]
  case stalls => rw [exec_cqStallLimitExpired, cqStalls_due (s := atTime s now) hm hf hst hr ht]
  case noStall => rw [exec_cqStallLimitExpired, cqStalls_stays (s := atTime s now) hm h]

end Sys2Proof.Machine
end

section
/-!
SUPPORT. Host ports and functions (R447, R450, R467 to R472, R585, R612, R613): the guard of each reset, enable and power state.
-/

namespace Sys2Proof.Machine

/-! ### Ports -/

section
variable {s : State} {hp : Nat}

theorem perstFalls_low (h : (portOf s hp).perstLow = true) : perstFalls s hp = s := by
  simp only [perstFalls, h, Bool.true_or, if_true]

theorem perstFalls_first (hh : hp < 2) (h : (portOf s hp).perstLow = false) :
    perstFalls s hp = beginHfund (wrb (setPort s hp { portOf s hp with perstLow := true }) F.hiPortStatPerst true hp) hp := by
  simp only [perstFalls, h, decide_eq_false (Nat.not_le.mpr hh), Bool.or_self, Bool.false_eq_true, if_false]

theorem linkResets_down (h : rdb s F.hiPortStatLinkUp hp = false) : linkResets s hp = s := by
  simp only [linkResets, h, Bool.false_and, Bool.false_eq_true, if_false]

theorem linkResets_up (hh : hp < 2) (h : rdb s F.hiPortStatLinkUp hp = true) : linkResets s hp = beginPortReset s hp := by
  rw [linkResets_port hh, if_pos h]

theorem endPortReset_over (hr : (portOf s hp).resetting = true) (ha : portAccs s hp = false) (hf : fnsFree s hp none = true)
    (hl : (portOf s hp).perstLow = false) :
    endPortReset s hp = refreshServing (wrb (setPort s hp { portOf s hp with resetting := false }) F.hiPortStatHotReset false hp) hp := by
  simp only [endPortReset, hr, ha, hf, hl, Bool.not_false, Bool.and_self, if_true]

theorem endPortReset_waits (h : (portOf s hp).resetting = false ∨ portAccs s hp = true ∨ fnsFree s hp none = false
    ∨ (portOf s hp).perstLow = true) : endPortReset s hp = s := by
  have hwaits : ((portOf s hp).resetting && !portAccs s hp && fnsFree s hp none && !(portOf s hp).perstLow) = false := by
    rcases h with h | h | h | h <;> simp [h]
  simp only [endPortReset, hwaits, Bool.false_eq_true, if_false]

theorem hostLinkUp_stays {flit : Bool} {speed width : Nat} (h : flit = false ∨ (portOf s hp).perstLow = true
    ∨ rdb s F.hiPortStatLinkUp hp = true ∨ speed = 0 ∨ 3 < speed ∨ width ∉ [4, 8, 16] ∨ s.pw.tripped = true) :
    hostLinkUp s hp flit speed width = s := by
  have hstays : (flit && decide (hp < 2) && !(portOf s hp).perstLow && !rdb s F.hiPortStatLinkUp hp && decide (1 ≤ speed)
      && decide (speed ≤ 3) && [4, 8, 16].contains width && !s.pw.tripped) = false := by
    rcases h with h | h | h | h | h | h | h
    · simp [h]
    · simp [h]
    · simp [h]
    · simp [h]
    · simp [Nat.not_le.mpr h]
    · have hwidth : [4, 8, 16].contains width = false := by simpa using h
      simp only [hwidth, Bool.and_false, Bool.false_and]
    · simp [h]
  simp only [hostLinkUp, hstays, Bool.false_eq_true, if_false]

theorem hostLinkUp_comesUp {speed width : Nat} (hh : hp < 2) (hl : (portOf s hp).perstLow = false)
    (hu : rdb s F.hiPortStatLinkUp hp = false) (h1 : 1 ≤ speed) (h3 : speed ≤ 3) (hw : width ∈ [4, 8, 16]) (ht : s.pw.tripped = false) :
    hostLinkUp s hp true speed width =
      let u := wr (wr (wr s F.hiPortStatSpeed speed hp) F.hiPortStatWidth width hp) F.hiPortStatL0pWidth width hp
      refreshServing (wrb (wr u F.hiPortStatPm 0 hp) F.hiPortStatLinkUp true hp) hp := by
  have hup : (true && decide (hp < 2) && !(portOf s hp).perstLow && !rdb s F.hiPortStatLinkUp hp && decide (1 ≤ speed)
      && decide (speed ≤ 3) && [4, 8, 16].contains width && !s.pw.tripped) = true := by
    have hwidth : [4, 8, 16].contains width = true := by simpa using hw
    rw [hwidth]
    simp [hh, hl, hu, h1, h3, ht]
  simp only [hostLinkUp, hup, if_true]

variable (cfg : PortCfg) (masked : List Nat)

theorem enablesSet_unanswered (h : configAnswers s hp 0 = false) : enablesSet s hp cfg masked = s := by
  simp only [enablesSet, h, Bool.false_eq_true, if_false]

theorem enablesSet_answered {t : State} (h : configAnswers s hp 0 = true) (ht : t = wakePort s hp) :
    enablesSet s hp cfg masked =
      let old := (portOf t hp).cfg
      unmask (refreshServing (setPort t hp { portOf t hp with
        cfg := { cfg with
          bme := true, mse := true, vfEnable := old.vfEnable || cfg.vfEnable,
          numVfs := if old.vfEnable then old.numVfs else min 255 cfg.numVfs } }) hp) hp masked := by
  subst ht
  simp only [enablesSet, h, if_true]

end

section
variable (s : State) (now hp : Nat)

theorem exec_perstAssert : exec (.perstAssert now hp) s = .next (settled s (perstFalls (atTime s now) hp)) := rfl

theorem exec_hotResetStart : exec (.hotResetStart now hp) s = .next (settled s (linkResets (atTime s now) hp)) := rfl

theorem exec_surpriseLinkDown_up (h : rdb s F.hiPortStatLinkUp hp = true) :
    exec (.surpriseLinkDown now hp) s = .next (settled s (wr (linkResets (atTime s now) hp) F.hiPortStatSpeed 0 hp)) :=
  congrArg (done s) (if_pos h)

theorem exec_surpriseLinkDown_down (h : rdb s F.hiPortStatLinkUp hp = false) :
    exec (.surpriseLinkDown now hp) s = .next (settled s (atTime s now)) :=
  congrArg (done s) (if_neg (by rw [h]; exact Bool.false_ne_true))

theorem exec_portResetComplete (h : hp < 2 ∨ endPortReset s hp = s) :
    exec (.portResetComplete hp) s = .next (settled s (endPortReset s hp)) := by
  refine congrArg (done s) ?_
  by_cases hh : hp < 2
  · exact if_pos hh
  · rw [if_neg hh, h.resolve_left hh]

theorem exec_hostLinkUp (flit : Bool) (speed width : Nat) :
    exec (.hostLinkUp now hp flit speed width) s = .next (settled s (hostLinkUp (atTime s now) hp flit speed width)) := rfl

theorem exec_pf0EnablesSet (cfg : PortCfg) (masked : List Nat) :
    exec (.pf0EnablesSet now hp cfg masked) s = .next (settled s (enablesSet (atTime s now) hp cfg masked)) := rfl

end

/-- Settles O41: each command of a port by the port's state. -/
theorem portCommandsComplete : Obligations.PortCommandsComplete := by
  unfold Obligations.PortCommandsComplete
  refine ⟨fun s now hp hh h => ?perst, fun s now hp h => ?perstLow, fun s now hp h => ⟨?hotDown, exec_surpriseLinkDown_down s now hp h⟩,
    fun s now hp hh h => ?hot, fun s now hp hh h => ?linkDown, fun s hp hh hr ha hf hl => ?ends, fun s hp h => ?waits,
    fun s now hp flit speed width h => ?staysDown, fun s now hp cfg masked h => ?unanswered,
    fun s now hp speed width hh hl hu h1 h3 hw ht => ?comesUp, fun s now hp cfg masked t h ht => ?enables⟩
  case perst => rw [exec_perstAssert, perstFalls_first (s := atTime s now) hh h]; rfl
  case perstLow => rw [exec_perstAssert, perstFalls_low (s := atTime s now) h]
  case hotDown => rw [exec_hotResetStart, linkResets_down (s := atTime s now) h]
  case hot => rw [exec_hotResetStart, linkResets_up (s := atTime s now) hh h]
  case linkDown => rw [exec_surpriseLinkDown_up s now hp h, linkResets_up (s := atTime s now) hh h]
  case ends => rw [exec_portResetComplete s hp (.inl hh), endPortReset_over hr ha hf hl]
  case waits => rw [exec_portResetComplete s hp (.inr (endPortReset_waits h)), endPortReset_waits h]
  case staysDown => rw [exec_hostLinkUp, hostLinkUp_stays (s := atTime s now) h]
  case unanswered =>
    rw [exec_pf0EnablesSet, enablesSet_unanswered (s := atTime s now) cfg masked ((configAnswers_atTime s now hp 0).trans h)]
  case comesUp => rw [exec_hostLinkUp, hostLinkUp_comesUp (s := atTime s now) hh hl hu h1 h3 hw ht]
  case enables =>
    rw [exec_pf0EnablesSet, enablesSet_answered (s := atTime s now) cfg masked ((configAnswers_atTime s now hp 0).trans h) ht]

/-! ### Functions -/

section
variable {s : State} {hp fn : Nat}

theorem flrStarts_begins (h : configAnswers s hp fn = true) (hr : (portOf s hp).resetting = false) :
    flrStarts s hp fn = beginFlr (wakePort s hp) hp fn := by
  simp only [flrStarts, h, hr, Bool.not_false, Bool.and_self, if_true]

theorem flrStarts_ignored (h : configAnswers s hp fn = false ∨ (portOf s hp).resetting = true) : flrStarts s hp fn = s := by
  have hignored : (configAnswers s hp fn && !(portOf s hp).resetting) = false := by rcases h with h | h <;> simp [h]
  simp only [flrStarts, hignored, Bool.false_eq_true, if_false]

theorem endFlr_over (hm : mhas (portOf s hp).flr fn = true) (hf : fnsFree s hp (if fn = 0 then none else some fn) = true) :
    endFlr s hp fn = setPort s hp { portOf s hp with flr := mdel (portOf s hp).flr fn } := by
  simp only [endFlr, flrScope, hm, hf, Bool.and_self, if_true]

theorem endFlr_waits (h : mhas (portOf s hp).flr fn = false ∨ fnsFree s hp (if fn = 0 then none else some fn) = false) :
    endFlr s hp fn = s := by
  have hwaits : (mhas (portOf s hp).flr fn && fnsFree s hp (flrScope fn)) = false := by
    rw [flrScope]
    rcases h with h | h <;> simp [h]
  simp only [endFlr, hwaits, Bool.false_eq_true, if_false]

theorem flrLate_wedges {since : Nat} (hm : mget (portOf s hp).flr fn = some since) (ht : since + 100000000 ≤ s.timeNs) :
    flrLate s hp fn =
      let u := setPort s hp { portOf s hp with flr := mdel (portOf s hp).flr fn }
      let j := hp * 4 + fn / 64
      let v := wr u F.hiWedgedFn (rd u F.hiWedgedFn j ||| 2 ^ (fn % 64)) j
      tell (wr v F.hiPortStatWedgedFns (rd v F.hiPortStatWedgedFns hp + 1) hp) (.fault 13 (hp * 256 + fn)) := by
  simp only [flrLate, hm, if_pos ht, wedgeFlr]

theorem vfsCleared_clears (h : configAnswers s hp 0 = true) (hv : (portOf s hp).cfg.vfEnable = true)
    (hr : (portOf s hp).resetting = false) :
    vfsCleared s hp =
      let p := portOf s hp
      let u := setPort (wakePort s hp) hp { p with cfg := { p.cfg with vfEnable := false, vfMse := false } }
      ((List.range p.cfg.numVfs).map (· + 1)).foldl
        (fun x f => if mhas (portOf x hp).flr f || wedged x hp f then x else beginFlr x hp f) u := by
  simp only [vfsCleared, h, hv, hr, Bool.not_false, Bool.and_self, if_true]

theorem toD3hot_enters (h : configAnswers s hp fn = true) (hd : (portOf s hp).d3hot.contains fn = false) :
    toD3hot s hp fn = refreshServing (setPort (wakePort s hp) hp
      { portOf s hp with
        d3hot := fn :: (portOf s hp).d3hot
        cfg := if fn = 0 then { (portOf s hp).cfg with mse := false } else (portOf s hp).cfg }) hp := by
  simp only [toD3hot, h, hd, Bool.not_false, Bool.and_self, if_true]
  split <;> rfl

theorem toD0_returns (h : configAnswers s hp fn = true) (hd : (portOf s hp).d3hot.contains fn = true) :
    toD0 s hp fn = refreshServing (setPort (wakePort s hp) hp { portOf s hp with d3hot := (portOf s hp).d3hot.erase fn }) hp := by
  simp only [toD0, h, hd, Bool.and_self, if_true]

/-! ### Power states of a link -/

theorem narrow_halves {lowNs : Nat} (hu : rdb s F.hiPortStatLinkUp hp = true) (he : rdb s F.hiPmL0pEn hp = true)
    (hp0 : rd s F.hiPortStatPm hp = 0) (hw : 4 < rd s F.hiPortStatL0pWidth hp) (ht : rd s F.hiPmL0pIdleUs hp * 1000 ≤ lowNs) :
    narrow s hp lowNs = wr s F.hiPortStatL0pWidth (rd s F.hiPortStatL0pWidth hp / 2) hp := by
  simp only [narrow, hu, he, hp0, decide_eq_true hw, decide_eq_true ht, beq_self_eq_true, Bool.and_self, if_true]

theorem narrow_down (lowNs : Nat) (hu : rdb s F.hiPortStatLinkUp hp = false) : narrow s hp lowNs = s := by
  simp only [narrow, hu, Bool.false_and, Bool.false_eq_true, if_false]

theorem enterL1_enters {idleNs : Nat} (hu : rdb s F.hiPortStatLinkUp hp = true) (ha : (portOf s hp).cfg.aspmL1 = true)
    (hp0 : rd s F.hiPortStatPm hp = 0) (haccs : ∀ id a, (id, a) ∈ s.gw.accs → a.hp ≠ hp)
    (hwb : wbPort s ≠ some hp ∨ (∀ i l, (i, l) ∈ s.gw.lines → l.wants = false)) (ht : rd s F.hiPmL1IdleUs hp * 1000 ≤ idleNs) :
    enterL1 s hp idleNs = wr s F.hiPortStatPm (if (portOf s hp).cfg.l1sub then 2 else 1) hp := by
  have hbusy : (s.gw.accs.any fun e => e.2.hp == hp) = false := by
    rw [List.any_eq_false]
    exact fun e he => by simpa using haccs e.1 e.2 he
  have hqueued : (wbPort s == some hp && s.gw.lines.any fun e => e.2.wants) = false := by
    rcases hwb with h | h
    · simp [h]
    · have hnone : (s.gw.lines.any fun e => e.2.wants) = false := by
        rw [List.any_eq_false]
        exact fun e he => by simpa using h e.1 e.2 he
      rw [hnone, Bool.and_false]
  simp only [enterL1, hu, ha, hp0, hbusy, hqueued, decide_eq_true ht, beq_self_eq_true, Bool.not_false, Bool.and_self, if_true]

theorem enterL1_down (idleNs : Nat) (hu : rdb s F.hiPortStatLinkUp hp = false) : enterL1 s hp idleNs = s := by
  simp only [enterL1, hu, Bool.false_and, Bool.false_eq_true, if_false]

end

section
variable (s : State) (now hp fn : Nat)

theorem exec_flrStart : exec (.flrStart now hp fn) s = .next (settled s (flrStarts (atTime s now) hp fn)) := rfl

theorem exec_flrComplete : exec (.flrComplete hp fn) s = .next (settled s (endFlr s hp fn)) := rfl

theorem exec_flrWedgeTimeout : exec (.flrWedgeTimeout now hp fn) s = .next (settled s (flrLate (atTime s now) hp fn)) := rfl

theorem exec_vfEnableClear : exec (.vfEnableClear now hp) s = .next (settled s (vfsCleared (atTime s now) hp)) := rfl

theorem exec_d3hotEnter : exec (.d3hotEnter hp fn) s = .next (settled s (toD3hot s hp fn)) := rfl

theorem exec_d0Return : exec (.d0Return hp fn) s = .next (settled s (toD0 s hp fn)) := rfl

theorem exec_l0pIdleNarrow (lowNs : Nat) : exec (.l0pIdleNarrow hp lowNs) s = .next (settled s (narrow s hp lowNs)) := rfl

theorem exec_l0pRestore_full {queued : Nat} (hu : rdb s F.hiPortStatLinkUp hp = true) (hq : 4096 < queued) :
    exec (.l0pRestore hp queued) s
      = .next (settled s (wr (wakePort s hp) F.hiPortStatL0pWidth (rd s F.hiPortStatWidth hp) hp)) :=
  congrArg (done s) (if_pos ⟨hu, hq⟩)

theorem exec_l0pRestore_down (queued : Nat) (hu : rdb s F.hiPortStatLinkUp hp = false) :
    exec (.l0pRestore hp queued) s = .next (settled s s) :=
  congrArg (done s) (if_neg fun h => Bool.false_ne_true (hu.symm.trans h.1))

theorem exec_l1IdleEntry (idleNs : Nat) : exec (.l1IdleEntry hp idleNs) s = .next (settled s (enterL1 s hp idleNs)) := rfl

end

/-- Settles O42: each command of a function or a power state by its guard. -/
theorem functionAndPowerStateCommandsComplete : Obligations.FunctionAndPowerStateCommandsComplete := by
  unfold Obligations.FunctionAndPowerStateCommandsComplete
  refine ⟨fun s now hp fn h hr => ?flr, fun s now hp fn h => ?flrIgnored, fun s hp fn hm hf => ?flrOver, fun s hp fn h => ?flrWaits,
    fun s now hp fn since hm ht => ?wedged, fun s now hp h hv hr => ?vfs, fun s hp fn h hd => ?d3hot, fun s hp fn h hd => ?d0,
    fun s hp lowNs hu he hp0 hw ht => ?narrows, fun s hp queued hu hq => exec_l0pRestore_full s hp hu hq,
    fun s hp idleNs hu ha hp0 haccs hwb ht => ?entersL1,
    fun s hp ns hu => ⟨?narrowDown, exec_l0pRestore_down s hp ns hu, ?l1Down⟩⟩
  case flr => rw [exec_flrStart, flrStarts_begins (s := atTime s now) ((configAnswers_atTime s now hp fn).trans h) hr]
  case flrIgnored =>
    rw [exec_flrStart, flrStarts_ignored (s := atTime s now) (h.imp_left (configAnswers_atTime s now hp fn).trans)]
  case flrOver => rw [exec_flrComplete, endFlr_over hm hf]
  case flrWaits => rw [exec_flrComplete, endFlr_waits h]
  case wedged => rw [exec_flrWedgeTimeout, flrLate_wedges (s := atTime s now) hm ht]; rfl
  case vfs => rw [exec_vfEnableClear, vfsCleared_clears (s := atTime s now) ((configAnswers_atTime s now hp 0).trans h) hv hr]; rfl
  case d3hot => rw [exec_d3hotEnter, toD3hot_enters h hd]
  case d0 => rw [exec_d0Return, toD0_returns h hd]
  case narrows => rw [exec_l0pIdleNarrow, narrow_halves hu he hp0 hw ht]
  case entersL1 => rw [exec_l1IdleEntry, enterL1_enters hu ha hp0 haccs hwb ht]
  case narrowDown => rw [exec_l0pIdleNarrow, narrow_down ns hu]
  case l1Down => rw [exec_l1IdleEntry, enterL1_down ns hu]

end Sys2Proof.Machine
end

section
/-!
SUPPORT. Alias slots and lock timers (R435, R438, R439, R441): what a read of a slot meets, and the guard of each timer.
-/

namespace Sys2Proof.Machine

/-! ### Reads of a slot -/

/-- A function whose reads of a slot are taken: it answers, and is enabled (R438). -/
structure ReadsSlots (s : State) (hp fn : Nat) : Prop where
  answers : fnSilent s hp fn = false
  enabled : fnEnabled s hp fn = true

section
variable {s t : State} {hp fn i : Nat} (off : Nat)

theorem aliasRead_atOnce (ht : t = wakePort s hp) (hi : i < 65536) (hh : holdOn t = false) :
    aliasRead s hp fn i off = aliasTaken t hp fn i off := by
  subst ht
  simp only [aliasRead, if_neg (Nat.not_le.mpr hi), hh, Bool.false_and, Bool.false_eq_true, if_false]

theorem aliasRead_held (ht : t = wakePort s hp) (hi : i < 65536) (hh : holdOn t = true) (h : ReadsSlots t hp fn) :
    aliasRead s hp fn i off = setTxn t fun x => { x with held := x.held ++ [.aliasRd hp fn i off] } := by
  subst ht
  simp only [aliasRead, if_neg (Nat.not_le.mpr hi), hh, h.answers, h.enabled, Bool.not_true, Bool.or_self, Bool.not_false, Bool.and_self,
    if_true]

theorem aliasTaken_unsupported (h : fnSilent s hp fn = true ∨ fnEnabled s hp fn = false) :
    aliasTaken s hp fn i off = emit s (.unsupported (.fn hp fn) (64 * i + off)) := by
  have hunsup : (fnSilent s hp fn || !fnEnabled s hp fn) = true := by rcases h with h | h <;> simp [h]
  simp only [aliasTaken, hunsup, if_true]

theorem aliasTaken_unbound (h : ReadsSlots s hp fn) (hb : aliasBound s hp fn i = false) :
    aliasTaken s hp fn i off = aliasData (drawn s) hp fn i off (aliasWord 8 (freeNat s)) := by
  simp only [aliasTaken, h.answers, h.enabled, hb, Bool.not_true, Bool.or_self, Bool.false_eq_true, if_false, Bool.not_false, if_true]

theorem aliasTaken_pending {r : AliasRead} (h : ReadsSlots s hp fn) (hb : aliasBound s hp fn i = true)
    (hr : r = { id := s.at'.nextRead, hp := hp, fn := fn, off := off, since := s.timeNs,
                dueAt := s.timeNs + 1000 * (waitLimit s (rd s F.atAliasWaitUs i) + rd s F.atCfgAliasMarginUs) })
    (ht : t = setAt s (fun a => { a with reads := mset a.reads i (mgetD s.at'.reads i [] ++ [r]), nextRead := a.nextRead + 1 })) :
    aliasTaken s hp fn i off =
      let u := pmSample (wrb t F.atAliasPending true i) 0 4 (aliasId i r.id)
        [rd t F.atAliasEc i, 9, aliasOff t i, selfId t, rd t F.atAliasDev i, 5, 16]
      if mgetD s.at'.reads i [] = [] then beginAlias u i else u := by
  subst ht hr
  simp only [aliasTaken, h.answers, h.enabled, hb, Bool.not_true, Bool.or_self, Bool.false_eq_true, if_false, List.isEmpty_iff]

theorem aliasLate_late {r : AliasRead} {l : List AliasRead} (hr : mget s.at'.reads i = some (r :: l)) (hh : holdOn s = false)
    (hd : r.dueAt ≤ s.timeNs) :
    aliasLate s i = beginAlias (undoAlias (answerAlias (drawn s) i (aliasWord 9 (freeNat s))) i r) i := by
  simp only [aliasLate, mgetD, hr, Option.getD_some, hh, decide_eq_false (Nat.not_lt.mpr hd), Bool.or_self, Bool.false_eq_true, if_false]

theorem aliasLate_waits {r : AliasRead} {l : List AliasRead} (hr : mget s.at'.reads i = some (r :: l))
    (h : holdOn s = true ∨ s.timeNs < r.dueAt) : aliasLate s i = s := by
  have hwaits : (holdOn s || decide (s.timeNs < r.dueAt)) = true := by rcases h with h | h <;> simp [h]
  simp only [aliasLate, mgetD, hr, Option.getD_some, hwaits, if_true]

end

/-! ### Timers of locks and abandoned words -/

section
variable {s : State} {k src msgid : Nat} {l : LockSt} {w : LockWait}

theorem setLock_timeNs (s : State) (k : Nat) (l : LockSt) : (setLock s k l).timeNs = s.timeNs := by
  simp [setLock, refreshAt]

theorem waitOver_times_out (hl : mget s.at'.locks k = some l)
    (hw : (l.waiters.find? fun w => w.src == src && w.msgid == msgid) = some w) (hh : holdOn s = false)
    (ht : w.since + w.waitUs * 1000 ≤ s.timeNs) :
    waitOver s k src msgid =
      let l' := { l with waiters := l.waiters.erase w }
      let u := setLock (inc s F.atCnt1Timeouts) k l'
      let v := if l'.waiters = [] ∧ serving u l.hp = true then writeLock u l.hp l.pa (heldWord l') else u
      lockRsp v w.ec w.src w.tc w.msgid (heldWord l') 2 ((s.timeNs - w.queued) / 1000) := by
  simp only [waitOver, hl, hw, hh, decide_eq_false (Nat.not_lt.mpr ht), Bool.or_self, Bool.false_eq_true, if_false, List.isEmpty_iff]
  rw [apply_ite State.timeNs, writeLock, emit_timeNs, ite_self, setLock_timeNs, inc_timeNs]

theorem waitOver_waits (hl : mget s.at'.locks k = some l)
    (hw : (l.waiters.find? fun w => w.src == src && w.msgid == msgid) = some w)
    (h : holdOn s = true ∨ s.timeNs < w.since + w.waitUs * 1000) : waitOver s k src msgid = s := by
  have hwaits : (holdOn s || decide (s.timeNs < w.since + w.waitUs * 1000)) = true := by rcases h with h | h <;> simp [h]
  simp only [waitOver, hl, hw, hwaits, if_true]

end

section
variable {s : State} {id : Nat} {h : Hold}

theorem abandonAgain_sends (hh : mget s.at'.holds id = some h) (hm : h.marked = true)
    (hslots : ∀ k m, (k, m) ∈ s.tp.slots → m.origin ≠ .abandon id) (hwait : ∀ m n, (m, n) ∈ s.tp.wait → m.origin ≠ .abandon id)
    (ht : h.sentAt + 10000000 ≤ s.timeNs) : abandonAgain s id = sendAbandon s id h := by
  have hs : (s.tp.slots.any fun e => e.2.origin == .abandon id) = false := by
    rw [List.any_eq_false]
    exact fun e he => by simpa using hslots e.1 e.2 he
  have hw : (s.tp.wait.any fun e => e.1.origin == .abandon id) = false := by
    rw [List.any_eq_false]
    exact fun e he => by simpa using hwait e.1 e.2 he
  simp only [abandonAgain, hh, hm, hs, hw, decide_eq_true ht, Bool.or_self, Bool.not_false, Bool.and_self, if_true]

theorem abandonAgain_waits (hh : mget s.at'.holds id = some h)
    (hw : h.marked = false ∨ (∃ k m, (k, m) ∈ s.tp.slots ∧ m.origin = .abandon id) ∨ s.timeNs < h.sentAt + 10000000) :
    abandonAgain s id = s := by
  have hwaits : (h.marked && !((s.tp.slots.any fun e => e.2.origin == .abandon id)
      || s.tp.wait.any fun e => e.1.origin == .abandon id) && decide (h.sentAt + 10000000 ≤ s.timeNs)) = false := by
    rcases hw with hm | ⟨k, m, hmem, ho⟩ | ht
    · simp [hm]
    · have hs : (s.tp.slots.any fun e => e.2.origin == .abandon id) = true := List.any_eq_true.mpr ⟨(k, m), hmem, by simp [ho]⟩
      simp only [hs, Bool.true_or, Bool.not_true, Bool.and_false, Bool.false_and]
    · simp [Nat.not_le.mpr ht]
  simp only [abandonAgain, hh, hwaits, Bool.false_eq_true, if_false]

end

section
variable (s : State) (now : Nat)

theorem exec_aliasAcquireRead (hp fn i : Nat) :
    exec (.aliasAcquireRead now hp fn i) s = .next (settled s (aliasRead (atTime s now) hp fn i 0x00)) := rfl

theorem exec_aliasTryRead (hp fn i : Nat) :
    exec (.aliasTryRead now hp fn i) s = .next (settled s (aliasRead (atTime s now) hp fn i 0x08)) := rfl

theorem exec_aliasReleaseRead (hp fn i : Nat) :
    exec (.aliasReleaseRead now hp fn i) s = .next (settled s (aliasRead (atTime s now) hp fn i 0x10)) := rfl

theorem exec_aliasResultRead (hp fn i : Nat) :
    exec (.aliasResultRead now hp fn i) s = .next (settled s (aliasRead (atTime s now) hp fn i 0x18)) := rfl

theorem exec_aliasMarginExpired (i : Nat) :
    exec (.aliasMarginExpired now i) s = .next (settled s (aliasLate (atTime s now) i)) := rfl

theorem exec_lockWaitExpired (dom dva src id : Nat) :
    exec (.lockWaitExpired now dom dva src id) s = .next (settled s (waitOver (atTime s now) (wordKey dom dva) src id)) := rfl

theorem exec_abandonResendTimer (id : Nat) :
    exec (.abandonResendTimer now id) s = .next (settled s (abandonAgain (atTime s now) id)) := rfl

end

/-- Settles O45: reads of a slot by the function and the HOLD, each timer by its guard. -/
theorem aliasAndLockTimersComplete : Obligations.AliasAndLockTimersComplete := by
  unfold Obligations.AliasAndLockTimersComplete
  refine ⟨fun s now hp fn i t ht hi hh => ?acquire, fun s now hp fn i t ht hi hh => ?tries, fun s now hp fn i t ht hi hh => ?release,
    fun s now hp fn i t ht hi hh => ?result, fun s now hp fn i t ht hi hh ha he => ⟨?acquireHeld, ?triesHeld, ?releaseHeld, ?resultHeld⟩,
    fun s hp fn i off h => aliasTaken_unsupported off h, fun s hp fn i off ha he hb => aliasTaken_unbound off ⟨ha, he⟩ hb,
    fun s hp fn i off r t ha he hb hr ht => aliasTaken_pending off ⟨ha, he⟩ hb hr ht, fun s now i r l t hr hh ht hd => ?late,
    fun s now i r l hr h => ?inTime, fun s now dom dva src id l w t ht hl hw hh hd => ?timesOut,
    fun s now dom dva src id l w hl hw h => ?waits, fun s now hp fn => rfl, fun s now id h hh hm hslots hwait hd => ?again,
    fun s now id h hh hw => ?notYet⟩
  case acquire => rw [exec_aliasAcquireRead, aliasRead_atOnce _ ht hi hh]
  case tries => rw [exec_aliasTryRead, aliasRead_atOnce _ ht hi hh]
  case release => rw [exec_aliasReleaseRead, aliasRead_atOnce _ ht hi hh]
  case result => rw [exec_aliasResultRead, aliasRead_atOnce _ ht hi hh]
  case acquireHeld => rw [exec_aliasAcquireRead, aliasRead_held _ ht hi hh ⟨ha, he⟩]
  case triesHeld => rw [exec_aliasTryRead, aliasRead_held _ ht hi hh ⟨ha, he⟩]
  case releaseHeld => rw [exec_aliasReleaseRead, aliasRead_held _ ht hi hh ⟨ha, he⟩]
  case resultHeld => rw [exec_aliasResultRead, aliasRead_held _ ht hi hh ⟨ha, he⟩]
  case late =>
    subst ht
    rw [exec_aliasMarginExpired, aliasLate_late (s := atTime s now) hr hh hd]
  case inTime => rw [exec_aliasMarginExpired, aliasLate_waits (s := atTime s now) hr h]
  case timesOut =>
    subst ht
    rw [exec_lockWaitExpired, waitOver_times_out (s := atTime s now) hl hw hh hd]
  case waits => rw [exec_lockWaitExpired, waitOver_waits (s := atTime s now) hl hw h]
  case again => rw [exec_abandonResendTimer, abandonAgain_sends (s := atTime s now) hh hm hslots hwait hd]
  case notYet => rw [exec_abandonResendTimer, abandonAgain_waits (s := atTime s now) hh hw]

end Sys2Proof.Machine
end

section
/-!
SUPPORT. The scheduler's commands (R483, R484, R487, R489 to R491): a unit at the kiln's gate, a policer's verdict, the choice of an
injection port and of a tile, a calendar's slot and a monitor's sample.
-/

namespace Sys2Proof.Machine

/-! ### Units at the kiln's gate -/

section
variable {s : State} {cls kind a b n : Nat}

theorem atGate_open (h : gateOpen s cls = true) :
    atGate s cls kind a b n = (drawC (setKn s fun k => { k with deferred := k.deferred.erase (kind, a, b) }) cls n, true) :=
  if_pos h

theorem atGate_closed (h : gateOpen s cls = false) : atGate s cls kind a b n = (deferUnit s cls kind a b, false) :=
  if_neg (by rw [h]; exact Bool.false_ne_true)

end

/-- A bulk message whose next packet is at the gate: it has one, and it has not passed. -/
structure AtMsgGate (s : State) (id : Nat) (m : Slot) : Prop where
  found : slotOf s id = some m
  bulk : isBulk s m = true
  some : 0 < nextCount m
  outside : m.gate = false
  running : holdOn s = false

section
variable {s : State} {id : Nat} {m : Slot}

theorem gateMsg_passes (h : AtMsgGate s id m) (ho : gateOpen s 1 = true) :
    gateMsg s id = setSlot
      (drawC (setKn s fun k => { k with deferred := k.deferred.erase (1, m.msgid, 0) }) 1 (requestBytes m (nextCount m)))
      { m with gate := true, chunkEnd := m.next + nextCount m } := by
  simp only [gateMsg, h.found, h.bulk, decide_eq_true h.some, h.outside, h.running, msgGate, atGate_open ho, Bool.not_false, Bool.not_true,
    Bool.and_self, Bool.false_eq_true, if_true, if_false]

theorem gateMsg_waits (h : AtMsgGate s id m) (ho : gateOpen s 1 = false) :
    gateMsg s id = setSlot (deferUnit s 1 1 m.msgid 0) { m with chunkEnd := m.next + nextCount m } := by
  simp only [gateMsg, h.found, h.bulk, decide_eq_true h.some, h.outside, h.running, msgGate, atGate_closed ho, Bool.not_false, Bool.not_true,
    Bool.and_self, Bool.false_eq_true, if_true, if_false]

end

section
variable {s : State} {g k : Nat} {p : CollPkt} (hp : mget (grp s g).sends k = some p) (hb : p.bulk = true) (hg : p.gated = false)
  (hh : holdOn s = false)
include hp hb hg hh

theorem gateColl_passes (ho : gateOpen s 2 = true) :
    gateColl s g k =
      let u := drawC (setKn s fun x => { x with deferred := x.deferred.erase (2, g, k) }) 2 p.payload.length
      let v := setGrp u g { grp u g with sends := mset (grp u g).sends k { p with gated := true, at' := u.timeNs } }
      queueColl (work v 2 g p.tc) g p.dev p.up p.key p.seq p.psn p.off p.tc p.last p.payload := by
  simp only [gateColl, hp, hb, hg, hh, atGate_open ho, Bool.not_false, Bool.and_self, if_true]

theorem gateColl_waits (ho : gateOpen s 2 = false) : gateColl s g k = deferUnit s 2 2 g k := by
  simp only [gateColl, hp, hb, hg, hh, atGate_closed ho, Bool.not_false, Bool.and_self, if_true]

end

section
variable {s : State} {j id : Nat} {b : ExBatch} (hb : mget (job s j).batches id = some b) (hq : b.bseq ≠ none) (hg : b.gated = false)
  (hs : b.sent = false) (hh : holdOn s = false)
include hb hq hg hs hh

theorem gateBatch_passes (ho : gateOpen s 3 = true) :
    gateBatch s j id =
      let u := drawC (setKn s fun x => { x with deferred := x.deferred.erase (3, j, id) }) 3 b.bytes.length
      trySend (setJob (work u 3 j (rd u F.exJobTc j)) j
        { job u j with batches := mset (job u j).batches id { b with gated := true } }) j id := by
  simp only [gateBatch, hb, Option.isSome_iff_ne_none.mpr hq, hg, hs, hh, atGate_open ho, Bool.not_false, Bool.and_self, if_true]

theorem gateBatch_waits (ho : gateOpen s 3 = false) : gateBatch s j id = deferUnit s 3 3 j id := by
  simp only [gateBatch, hb, Option.isSome_iff_ne_none.mpr hq, hg, hs, hh, atGate_closed ho, Bool.not_false, Bool.and_self, if_true]

end

section
variable {s : State} {j : Nat} {d : ExSend} (hd : ((job s j).sends.find? fun e => !(e.flush && e.mark.isSome)) = some d)
  (hf : d.flush = false) (hu : d.unread ≠ []) (hh : holdOn s = false) (hc : cutRecord s j d = .more)
include hd hf hu hh hc

theorem gateRecords_passes (ho : gateOpen s 3 = true) :
    gateRecords s j =
      let u := drawC (setKn s fun x => { x with deferred := x.deferred.erase (4, j, 0) }) 3 (min 4096 d.unread.length)
      moveJob (setJob (work u 3 j (rd u F.exJobTc j)) j { job u j with sends := (job u j).sends.map fun y =>
        if y = d then { d with unread := d.unread.drop 4096, rest := d.rest ++ d.unread.take 4096 } else y }) j := by
  simp only [gateRecords, hd, hf, List.isEmpty_eq_false_iff.mpr hu, hh, hc, atGate_open ho, Bool.or_self, Bool.false_eq_true, ne_eq,
    not_true, if_false]

theorem gateRecords_waits (ho : gateOpen s 3 = false) : gateRecords s j = deferUnit s 3 4 j 0 := by
  simp only [gateRecords, hd, hf, List.isEmpty_eq_false_iff.mpr hu, hh, hc, atGate_closed ho, Bool.or_self, Bool.false_eq_true, ne_eq,
    not_true, if_false]

end

/-! ### Policers -/

section
variable {s : State} {id : Nat} {m : Slot}

theorem policeAgain_free (hm : slotOf s id = some m) (hd : m.held = true) (hh : holdOn s = false) (hp : policerOf s m.ec = none) :
    policeAgain s id = setSlot s { m with polPassed := true } := by
  simp only [policeAgain, hm, hd, hh, msgPolice, hp, Bool.not_false, Bool.and_self, if_true]

/-- A policer that marks a packet again writes no register. -/
theorem police_again_csr {i n : Nat} : (police s i n false).1.csr = s.csr := by
  simp only [police, Bool.not_false, if_true]
  split <;> rfl

theorem policeAgain_marked {i n c : Nat} {u : State} (hm : slotOf s id = some m) (hd : m.held = true) (hf : m.polPassed = false)
    (hh : holdOn s = false) (hp : policerOf s m.ec = some i)
    (hn : n = if m.op = opGetReq then requestBytes m (m.chunkEnd - m.next)
      else 128 * flitsOf (requestBytes m (m.chunkEnd - m.next)))
    (hpol : police s i n false = (u, c)) :
    policeAgain s id = setSlot u (
      if c = 2 then { m with held := true }
      else if c = 1 then { m with polPassed := true, held := false, qtc := some (rd s F.scPolDemoteTc i) }
      else { m with polPassed := true, held := false }) := by
  subst hn
  have hcsr : rd u F.scPolDemoteTc i = rd s F.scPolDemoteTc i := by
    have hu : u.csr = s.csr := by rw [← police_again_csr (s := s), hpol]
    rw [rd, csrRaw, hu]
    rfl
  simp only [policeAgain, hm, hd, hh, msgPolice, hp, hf, Bool.not_false, Bool.not_true, Bool.and_self, Bool.false_and, Bool.false_eq_true,
    if_true, if_false, hpol]
  match c with
  | 0 => rfl
  | 1 => rw [← hcsr]; rfl
  | 2 => rfl
  | n + 3 => rw [if_neg (by omega), if_neg (by omega)]; rfl

end

/-! ### Injection ports, slices, the calendar -/

section
variable {s u : State} {k : Nat}

/-- What a scheduler's choice does (R483). -/
def injectChoice (s : State) (k : Nat) : State :=
  match (chooseTc s k).bind fun t => (tcHead s k t).map fun h => (t, h) with
  | some (t, f, id, it) => injectItem (fixHead (dequeue s k t id it f) k t) k it
  | none => s

theorem injectChoice_some {t f id : Nat} {it : InjItem} (hc : chooseTc u k = some t) (ht : tcHead u k t = some (f, id, it)) :
    injectChoice u k = injectItem (fixHead (dequeue u k t id it f) k t) k it := by
  simp only [injectChoice, hc, ht, Option.bind_some, Option.map_some]

theorem injectChoice_none (hc : chooseTc u k = none) : injectChoice u k = u := by
  simp only [injectChoice, hc, Option.bind_none]

theorem select_eq (s : State) (k : Nat) :
    select s k = if injectStopped s || holdOn s || decide (8 ≤ k) then s else injectChoice (fixHeads (dropDead s k) k) k := rfl

theorem select_goes (hs : injectStopped s = false) (hh : holdOn s = false) (hk : k < 8) (hu : u = fixHeads (dropDead s k) k) :
    select s k = injectChoice u k := by
  rw [select_eq, hs, hh, decide_eq_false (Nat.not_le.mpr hk), ← hu]
  exact if_neg Bool.false_ne_true

theorem select_stopped (h : injectStopped s = true ∨ holdOn s = true) : select s k = s := by
  have hstop : (injectStopped s || holdOn s || decide (8 ≤ k)) = true := by rcases h with h | h <;> simp [h]
  rw [select_eq, if_pos hstop]

theorem grantSlice_last {t id : Nat} {x : Stream} (hp : pick s (leastAskers s t) = some (id, x)) (hx : x.slices ≤ 1)
    (hu : u = pmSample (drawn s) 1 x.role x.key []) :
    grantSlice s t = placeWaiting (setEng u fun e => { e with
      vtime := mset e.vtime t x.tag, prevTag := mset e.prevTag (t * 8 + x.chan) x.tag, streams := mdel e.streams id
      backing := mdel e.backing id }) := by
  subst hu
  simp only [grantSlice, hp, if_pos hx]
  rfl

theorem grantSlice_more {t id : Nat} {x : Stream} (hp : pick s (leastAskers s t) = some (id, x)) (hx : 1 < x.slices)
    (hu : u = pmSample (drawn s) 1 x.role x.key []) :
    grantSlice s t =
      let v := setEng u fun e => { e with vtime := mset e.vtime t x.tag, prevTag := mset e.prevTag (t * 8 + x.chan) x.tag }
      let y := { x with slices := x.slices - 1, tag := sliceTag v t x.chan x.tc, since := v.timeNs }
      setEng v fun e => { e with streams := mset e.streams id y, backing := mset e.backing id y } := by
  subst hu
  simp only [grantSlice, hp, if_neg (Nat.not_le.mpr hx)]

theorem grantSlice_none {t : Nat} (h : leastAskers s t = []) : grantSlice s t = s := by
  simp only [grantSlice, h, pick, List.getElem?_nil]

theorem nextSlot_advances (hc : rdb s F.scCfgCal = true) (ht : s.sc.calAt + rd s F.scCalCfgSlotNs ≤ s.timeNs) :
    nextSlot s = setSc s fun x => { x with
      calSlot := if x.calSlot + 1 < rd s F.scCalCfgLen then x.calSlot + 1 else 0, calAt := s.timeNs, calUsed := [] } := by
  simp only [nextSlot, hc, decide_eq_true ht, Bool.and_self, if_true]

theorem nextSlot_stays (h : rdb s F.scCfgCal = false ∨ s.timeNs < s.sc.calAt + rd s F.scCalCfgSlotNs) : nextSlot s = s := by
  have hstays : (rdb s F.scCfgCal && decide (s.sc.calAt + rd s F.scCalCfgSlotNs ≤ s.timeNs)) = false := by
    rcases h with h | h
    · simp [h]
    · simp [Nat.not_le.mpr h]
  simp only [nextSlot, hstays, Bool.false_eq_true, if_false]

end

/-! ### Monitors -/

section
variable {s : State} {i : Nat}

/-- Whether a monitor is due (R490): no sample before, or SAMPLE_US have passed. -/
def monitorDue (s : State) (i : Nat) : Bool :=
  match mget s.sc.monAt i with
  | some t => decide (t + rd s F.scCfgSampleUs * 1000 ≤ s.timeNs)
  | none => true

theorem monitorDue_of_past (h : ∀ x, mget s.sc.monAt i = some x → x + rd s F.scCfgSampleUs * 1000 ≤ s.timeNs) :
    monitorDue s i = true := by
  rw [monitorDue]
  split
  case h_1 x hx => exact decide_eq_true (h x hx)
  case h_2 => rfl

theorem sampleMonitor_off (h : rdb s F.scQsmpSelEn i = false) : sampleMonitor s i = s := by
  simp only [sampleMonitor, h, Bool.not_false, Bool.true_or, if_true]

/-- The depths that a sample writes: the last one and the largest (R490). -/
def monitorDepths (s : State) (i depth : Nat) : State :=
  wr (wr (setSc s fun x => { x with monAt := mset x.monAt i s.timeNs }) F.scQsmpValDepthLast depth i)
    F.scQsmpValDepthMax (max depth (rd s F.scQsmpValDepthMax i)) i

/-- What a sample writes before the running mean: the depths and the largest delay (R490). -/
def monitorMaxima (s : State) (i depth d : Nat) : State :=
  wr (monitorDepths s i depth) F.scQsmpValDelayMax (max d (rd s F.scQsmpValDelayMax i)) i

theorem rd_monitorDepths {g : Fld} (depth : Nat) (hl : F.scQsmpValDepthLast.besides g = true)
    (hm : F.scQsmpValDepthMax.besides g = true) : rd (monitorDepths s i depth) g i = rd s g i := by
  rw [monitorDepths, rd_wr_besides _ _ _ hm, rd_wr_besides _ _ _ hl, rd_setSc]

theorem rd_monitorMaxima {g : Fld} (depth d : Nat) (hl : F.scQsmpValDepthLast.besides g = true)
    (hm : F.scQsmpValDepthMax.besides g = true) (hd : F.scQsmpValDelayMax.besides g = true) :
    rd (monitorMaxima s i depth d) g i = rd s g i := by
  rw [monitorMaxima, rd_wr_besides _ _ _ hd, rd_monitorDepths _ hl hm]

/-- The time since which the head of a watched queue has waited, in ns (R490). -/
def monitorWait (s : State) (i : Nat) : Nat :=
  match (watched s i).2 with
  | some x => s.timeNs - x
  | none => 0

/-- A sample at each of its reads: those of the monitor's word come after the writes before them. -/
theorem sampleMonitor_eq (s : State) (i : Nat) :
    sampleMonitor s i =
      if (!rdb s F.scQsmpSelEn i || !monitorDue s i || decide (64 ≤ i)) = true then s
      else
        let d := min 65535 (monitorWait s i / 10)
        let b := monitorDepths s i (min 65535 (watched s i).1)
        let u := wr b F.scQsmpValDelayMax (max d (rd b F.scQsmpValDelayMax i)) i
        let v := drawn (wr u F.scQsmpValDelayAvg (runningMean u (rd u F.scQsmpValDelayAvg i) d) i)
        if rd v F.scQsmpSelDelayThrUs i ≠ 0 ∧ rd v F.scQsmpSelDelayThrUs i * 1000 < monitorWait s i then
          delayEvent v i (monitorWait s i)
        else v :=
  rfl

theorem sampleMonitor_due (he : rdb s F.scQsmpSelEn i = true) (hi : i < 64) (hd : monitorDue s i = true) :
    sampleMonitor s i =
      let d := min 65535 (monitorWait s i / 10)
      let u := monitorMaxima s i (min 65535 (watched s i).1) d
      let v := drawn (wr u F.scQsmpValDelayAvg (runningMean u (rd s F.scQsmpValDelayAvg i) d) i)
      if rd s F.scQsmpSelDelayThrUs i ≠ 0 ∧ rd s F.scQsmpSelDelayThrUs i * 1000 < monitorWait s i then delayEvent v i (monitorWait s i)
      else v := by
  have hgoes : ¬ (!rdb s F.scQsmpSelEn i || !monitorDue s i || decide (64 ≤ i)) = true := by simp [he, hd, hi]
  rw [sampleMonitor_eq, if_neg hgoes]
  dsimp only
  rw [rd_monitorDepths _ (by decide) (by decide), ← monitorMaxima, rd_drawn, rd_wr_besides _ _ _ (by decide),
    rd_monitorMaxima _ _ (by decide) (by decide) (by decide), rd_monitorMaxima _ _ (by decide) (by decide) (by decide)]

end

section
variable (s : State) (now : Nat)

theorem exec_kilnGatePass (kind a b : Nat) :
    exec (.kilnGatePass now kind a b) s = .next (settled s (gateUnit (atTime s now) kind a b)) := rfl

theorem exec_policerRelease (id : Nat) : exec (.policerRelease now id) s = .next (settled s (policeAgain (atTime s now) id)) := rfl

theorem exec_injectionSelect (k : Nat) : exec (.injectionSelect now k) s = .next (settled s (select (atTime s now) k)) := rfl

theorem exec_sliceGrant (t : Nat) : exec (.sliceGrant now t) s = .next (settled s (grantSlice (atTime s now) t)) := rfl

theorem exec_calendarSlotAdvance : exec (.calendarSlotAdvance now) s = .next (settled s (nextSlot (atTime s now))) := rfl

theorem exec_queueMonitorSample (i : Nat) :
    exec (.queueMonitorSample now i) s = .next (settled s (sampleMonitor (atTime s now) i)) := rfl

end

/-- Settles O46: each unit by its gate, each choice by what it takes, each timer by its guard. -/
theorem schedulerCommandsComplete : Obligations.SchedulerCommandsComplete := by
  unfold Obligations.SchedulerCommandsComplete
  refine ⟨fun s now id b m t ht hm hb hn hg hh ho => ?msg, fun s now id b m t ht hm hb hn hg hh ho => ?msgWaits,
    fun s now g k p t ht hp hb hg hh ho => ?coll, fun s now g k p hp hb hg hh ho => ?collWaits,
    fun s now j id b t ht hb hq hg hs hh ho => ?batch, fun s now j id b hb hq hg hs hh ho => ?batchWaits,
    fun s now j b d t ht hd hf hu hh hc ho => ?records, fun s now j b d t ht hd hf hu hh hc ho => ?recordsWait,
    fun s now id m hm hd hh hp => ?free, fun s now id m i n u c t ht hm hd hf hh hp hn hpol => ?marked,
    fun s now k u t f id it hs hh hk hu hc ht => ?injects, fun s now k u hs hh hk hu hc => ?chosenNone, fun s now k h => ?stopped,
    fun s now t id x u hp hx hu => ?lastSlice, fun s now t id x u hp hx hu => ?slice, fun s now t h => ?noSlice,
    fun s now hc ht => ?slot, fun s now h => ?slotStays, fun s now i w wait d t u he hi ht hdue hw hwait hd hu => ?sample,
    fun s now i h => ?sampleOff⟩
  case msg =>
    subst ht
    rw [exec_kilnGatePass, gateUnit, gateMsg_passes (s := atTime s now) ⟨hm, hb, hn, hg, hh⟩ ho]
  case msgWaits =>
    subst ht
    rw [exec_kilnGatePass, gateUnit, gateMsg_waits (s := atTime s now) ⟨hm, hb, hn, hg, hh⟩ ho]
  case coll =>
    subst ht
    rw [exec_kilnGatePass, gateUnit, gateColl_passes (s := atTime s now) hp hb hg hh ho]
  case collWaits => rw [exec_kilnGatePass, gateUnit, gateColl_waits (s := atTime s now) hp hb hg hh ho]
  case batch =>
    subst ht
    rw [exec_kilnGatePass, gateUnit, gateBatch_passes (s := atTime s now) hb hq hg hs hh ho]
  case batchWaits => rw [exec_kilnGatePass, gateUnit, gateBatch_waits (s := atTime s now) hb hq hg hs hh ho]
  case records =>
    subst ht
    rw [exec_kilnGatePass, gateUnit, gateRecords_passes (s := atTime s now) hd hf hu hh hc ho]
  case recordsWait =>
    subst ht
    rw [exec_kilnGatePass, gateUnit, gateRecords_waits (s := atTime s now) hd hf hu hh hc ho]
  case free => rw [exec_policerRelease, policeAgain_free (s := atTime s now) hm hd hh hp]
  case marked =>
    subst ht
    rw [exec_policerRelease, policeAgain_marked (s := atTime s now) hm hd hf hh hp hn hpol]
  case injects => rw [exec_injectionSelect, select_goes (s := atTime s now) hs hh hk hu, injectChoice_some hc ht]
  case chosenNone => rw [exec_injectionSelect, select_goes (s := atTime s now) hs hh hk hu, injectChoice_none hc]
  case stopped => rw [exec_injectionSelect, select_stopped (s := atTime s now) h]
  case lastSlice => rw [exec_sliceGrant, grantSlice_last hp hx hu]
  case slice => rw [exec_sliceGrant, grantSlice_more hp hx hu]
  case noSlice => rw [exec_sliceGrant, grantSlice_none h]
  case slot => rw [exec_calendarSlotAdvance, nextSlot_advances (s := atTime s now) hc ht]; rfl
  case slotStays => rw [exec_calendarSlotAdvance, nextSlot_stays (s := atTime s now) h]
  case sample =>
    subst ht hw hwait hd hu
    rw [exec_queueMonitorSample, sampleMonitor_due (s := atTime s now) he hi (monitorDue_of_past hdue)]
    rfl
  case sampleOff => rw [exec_queueMonitorSample, sampleMonitor_off (s := atTime s now) h]

end Sys2Proof.Machine
end

section
/-!
SUPPORT. The kiln's commands (R492, R493, R496, R497, R500, R502): a period in its order, a step of VCORE by its policy, the
regulator's answers, and the budget's ranges.
-/

namespace Sys2Proof.Machine

/-! ### A period -/

section
variable {s : State} {p : Nat} {temps speeds : List Nat} {rails : List (Nat × Nat)}

theorem kilnPeriod_eq {t u v w : State} (ht : t = showReadings s temps speeds rails)
    (hu : u = wr (wr (wr t F.knStatPW p) F.knStatTjMax (hottest temps)) F.knStatSpeed (slowest speeds))
    (hv : v = wrb u F.knStatThermSoft (decide ((rd u F.knThermTjSoft : Int) < degrees (hottest temps))))
    (hw : w = refreshBrown (kilnSources (thermRises (deferShown (credits v p)) temps) p)) :
    kilnPeriod s p temps speeds rails = brownActions (lateMode (if brownOn w then stopPrep w else w)) := by
  subst hw hv hu ht
  rfl

end

/-! ### VCORE -/

section
variable (s : State)

/-- A transaction that writes VCORE: it succeeds, or fails and counts (R497). -/
def vcoreWritten (mv : Nat) (ok : Bool) : State := if ok then avsResult (writeVcore s mv) true else avsResult s false

/-- A step of VCORE under FIXED (R496): up without THERM_SOFT, down unless HOLD keeps it. -/
def vcoreFixed (ok : Bool) : State :=
  let v := rd s F.knStatVcoreMv
  let t := rd s F.knVcoreSetMv
  if v < t then (if rdb s F.knStatThermSoft then s else vcoreWritten s (min t (v + 5)) ok)
  else if t < v then (if lowersLater s then s else vcoreWritten s (max t (v - 5)) ok)
  else s

/-- A step of VCORE under SPEED (R496). -/
def vcoreSpeed (ok : Bool) : State :=
  let v := rd s F.knStatVcoreMv
  let sp := rd s F.knStatSpeed
  let t := rd s F.knVcoreSpeedTgt * 10
  let up := if rdb s F.knStatThermSoft then s else vcoreWritten s (v + 5) ok
  let down := if lowersLater s then s else vcoreWritten s (v - 5) ok
  if sp + 10 < t ∧ v + 5 ≤ rd s F.knVcoreMaxMv then up
  else if t + 10 < sp ∧ rd s F.knVcoreMinMv + 5 ≤ v then down
  else if v < rd s F.knVcoreMinMv then up
  else if rd s F.knVcoreMaxMv < v then down
  else s

theorem vcoreWritten_true (mv : Nat) : vcoreWritten s mv true = avsResult (writeVcore s mv) true := rfl

theorem vcoreStep_eq (ok : Bool) :
    vcoreStep s ok =
      if s.kn.applied || rdb s F.knStatAvsFault || rd s F.knStatVcoreMv == 0 then s
      else if rd s F.knVcorePolicy = 0 then vcoreFixed s ok else vcoreSpeed s ok := rfl

end

section
variable {s : State}

theorem lowersLater_false (h : holdOn s = false ∨ brownOn s = false) : lowersLater s = false := by
  rcases h with h | h <;> simp [lowersLater, h]

theorem vcoreStep_stays (ok : Bool) (h : s.kn.applied = true ∨ rdb s F.knStatAvsFault = true ∨ rd s F.knStatVcoreMv = 0) :
    vcoreStep s ok = s := by
  have hstays : (s.kn.applied || rdb s F.knStatAvsFault || rd s F.knStatVcoreMv == 0) = true := by
    rcases h with h | h | h <;> simp [h]
  rw [vcoreStep_eq, if_pos hstays]

theorem vcoreStep_moves (ok : Bool) (ha : s.kn.applied = false) (hf : rdb s F.knStatAvsFault = false) (hv : rd s F.knStatVcoreMv ≠ 0) :
    vcoreStep s ok = if rd s F.knVcorePolicy = 0 then vcoreFixed s ok else vcoreSpeed s ok := by
  have hmoves : (s.kn.applied || rdb s F.knStatAvsFault || rd s F.knStatVcoreMv == 0) = false := by simp [ha, hf, hv]
  rw [vcoreStep_eq, hmoves, if_neg Bool.false_ne_true]

theorem vcoreStep_fixed (ok : Bool) (ha : s.kn.applied = false) (hf : rdb s F.knStatAvsFault = false) (hv : rd s F.knStatVcoreMv ≠ 0)
    (hp : rd s F.knVcorePolicy = 0) : vcoreStep s ok = vcoreFixed s ok := by
  rw [vcoreStep_moves ok ha hf hv, if_pos hp]

theorem vcoreStep_speed (ok : Bool) (ha : s.kn.applied = false) (hf : rdb s F.knStatAvsFault = false) (hv : rd s F.knStatVcoreMv ≠ 0)
    (hp : rd s F.knVcorePolicy ≠ 0) : vcoreStep s ok = vcoreSpeed s ok := by
  rw [vcoreStep_moves ok ha hf hv, if_neg hp]

theorem vcoreFixed_up (ok : Bool) (ht : rdb s F.knStatThermSoft = false) (h : rd s F.knStatVcoreMv < rd s F.knVcoreSetMv) :
    vcoreFixed s ok = vcoreWritten s (min (rd s F.knVcoreSetMv) (rd s F.knStatVcoreMv + 5)) ok := by
  simp only [vcoreFixed, if_pos h, ht, Bool.false_eq_true, if_false]

theorem vcoreFixed_down (ok : Bool) (hl : lowersLater s = false) (h : rd s F.knVcoreSetMv < rd s F.knStatVcoreMv) :
    vcoreFixed s ok = vcoreWritten s (max (rd s F.knVcoreSetMv) (rd s F.knStatVcoreMv - 5)) ok := by
  simp only [vcoreFixed, if_neg (Nat.lt_asymm h), if_pos h, hl, Bool.false_eq_true, if_false]

theorem vcoreFixed_at (ok : Bool) (h : rd s F.knStatVcoreMv = rd s F.knVcoreSetMv) : vcoreFixed s ok = s := by
  simp only [vcoreFixed, h, lt_irrefl, if_false]

theorem vcoreFixed_hot (ok : Bool) (ht : rdb s F.knStatThermSoft = true) (h : rd s F.knStatVcoreMv < rd s F.knVcoreSetMv) :
    vcoreFixed s ok = s := by
  simp only [vcoreFixed, if_pos h, ht, if_true]

theorem vcoreFixed_kept (ok : Bool) (hl : lowersLater s = true) (h : rd s F.knVcoreSetMv < rd s F.knStatVcoreMv) :
    vcoreFixed s ok = s := by
  simp only [vcoreFixed, if_neg (Nat.lt_asymm h), if_pos h, hl, if_true]

/-- What keeps VCORE where it is under FIXED, or at all (R496, R500). -/
theorem vcoreStep_unmoved (ok : Bool) (h : s.kn.applied = true ∨ rdb s F.knStatAvsFault = true ∨ rd s F.knStatVcoreMv = 0
    ∨ (rd s F.knVcorePolicy = 0 ∧ rd s F.knStatVcoreMv = rd s F.knVcoreSetMv)
    ∨ (rd s F.knVcorePolicy = 0 ∧ rd s F.knStatVcoreMv < rd s F.knVcoreSetMv ∧ rdb s F.knStatThermSoft = true)
    ∨ (rd s F.knVcorePolicy = 0 ∧ rd s F.knVcoreSetMv < rd s F.knStatVcoreMv ∧ holdOn s = true ∧ brownOn s = true)) :
    vcoreStep s ok = s := by
  by_cases hstop : s.kn.applied = true ∨ rdb s F.knStatAvsFault = true ∨ rd s F.knStatVcoreMv = 0
  · exact vcoreStep_stays ok hstop
  · simp only [not_or, Bool.not_eq_true] at hstop
    obtain ⟨ha, hf, hv⟩ := hstop
    rcases h with h | h | h | ⟨hp, h⟩ | ⟨hp, h, ht⟩ | ⟨hp, h, hh, hb⟩
    · exact absurd h (by simp [ha])
    · exact absurd h (by simp [hf])
    · exact absurd h hv
    · rw [vcoreStep_fixed ok ha hf hv hp, vcoreFixed_at ok h]
    · rw [vcoreStep_fixed ok ha hf hv hp, vcoreFixed_hot ok ht h]
    · rw [vcoreStep_fixed ok ha hf hv hp, vcoreFixed_kept ok (by simp [lowersLater, hh, hb]) h]

theorem vcoreSpeed_up (ok : Bool) (ht : rdb s F.knStatThermSoft = false) (hs : rd s F.knStatSpeed + 10 < rd s F.knVcoreSpeedTgt * 10)
    (hm : rd s F.knStatVcoreMv + 5 ≤ rd s F.knVcoreMaxMv) : vcoreSpeed s ok = vcoreWritten s (rd s F.knStatVcoreMv + 5) ok := by
  simp only [vcoreSpeed, if_pos (And.intro hs hm), ht, Bool.false_eq_true, if_false]

theorem vcoreSpeed_down (ok : Bool) (hl : lowersLater s = false) (hs : rd s F.knVcoreSpeedTgt * 10 + 10 < rd s F.knStatSpeed)
    (hm : rd s F.knVcoreMinMv + 5 ≤ rd s F.knStatVcoreMv) : vcoreSpeed s ok = vcoreWritten s (rd s F.knStatVcoreMv - 5) ok := by
  have hslow : ¬ (rd s F.knStatSpeed + 10 < rd s F.knVcoreSpeedTgt * 10 ∧ rd s F.knStatVcoreMv + 5 ≤ rd s F.knVcoreMaxMv) := by omega
  simp only [vcoreSpeed, if_neg hslow, if_pos (And.intro hs hm), hl, Bool.false_eq_true, if_false]

theorem thermStep_lowers (ok : Bool) (ht : rdb s F.knStatThermSoft = true) (hf : rdb s F.knStatAvsFault = false)
    (hl : lowersLater s = false) (hv : rd s F.knVcoreMinMv < rd s F.knStatVcoreMv) :
    thermStep s ok = vcoreWritten s (max (rd s F.knVcoreMinMv) (rd s F.knStatVcoreMv - 5)) ok := by
  simp only [thermStep, vcoreWritten, ht, hf, hl, decide_eq_true hv, Bool.not_false, Bool.and_self, if_true]

theorem thermStep_stays (ok : Bool) (h : rdb s F.knStatThermSoft = false ∨ rdb s F.knStatAvsFault = true
    ∨ (holdOn s = true ∧ brownOn s = true) ∨ rd s F.knStatVcoreMv ≤ rd s F.knVcoreMinMv) : thermStep s ok = s := by
  have hstays : (rdb s F.knStatThermSoft && !rdb s F.knStatAvsFault && !lowersLater s
      && decide (rd s F.knVcoreMinMv < rd s F.knStatVcoreMv)) = false := by
    rcases h with h | h | ⟨hh, hb⟩ | h
    · simp [h]
    · simp [h]
    · simp [lowersLater, hh, hb]
    · simp [Nat.not_lt.mpr h]
  simp only [thermStep, hstays, Bool.false_eq_true, if_false]

/-! ### The regulator's answers -/

/-- The readback of a regulator in fault does nothing but wait for a retry (R497). -/
theorem avsCalibrate_faulted (ok : Bool) (mv gain : Nat) (h : rdb s F.knStatAvsFault = true) : avsCalibrate s ok mv gain = s := by
  simp only [avsCalibrate, h, if_true]

theorem avsCalibrate_read (mv gain : Nat) (h : rdb s F.knStatAvsFault = false) :
    avsCalibrate s true mv gain
      = wrb (setKn (wr s F.knStatVcoreMv mv) fun k => { k with gain := gain, avsFails := 0 }) F.knStatAvsFault false := by
  simp only [avsCalibrate, h, Bool.false_eq_true, if_false, if_true, avsResult]
  rfl

theorem avsCalibrate_failed (mv gain : Nat) (h : rdb s F.knStatAvsFault = false) : avsCalibrate s false mv gain = avsResult s false := by
  simp only [avsCalibrate, h, Bool.false_eq_true, if_false]

theorem avsResult_fails (h : s.kn.avsFails ≠ 2) : avsResult s false = setKn s fun k => { k with avsFails := k.avsFails + 1 } := by
  simp only [avsResult, Bool.false_eq_true, if_false, if_neg (show s.kn.avsFails + 1 ≠ 3 by omega)]
  rfl

theorem avsResult_third (h : s.kn.avsFails = 2) :
    avsResult s false = tell (wrb (setKn s fun k => { k with avsFails := 3 }) F.knStatAvsFault true) (.fault 14 0) := by
  simp only [avsResult, Bool.false_eq_true, if_false, h, if_true]

theorem avsRetry_works {mv : Nat} {u : State} (h : rdb s F.knStatAvsFault = true) (hu : u = avsResult (wr s F.knStatVcoreMv mv) true) :
    avsRetry s true mv = if brownOn u then brownVcore u else setKn u fun k => { k with brownWrite := false } := by
  subst hu
  simp only [avsRetry, h, Bool.and_self, if_true]

theorem avsRetry_idle (mv : Nat) {ok : Bool} (h : rdb s F.knStatAvsFault = false ∨ ok = false) : avsRetry s ok mv = s := by
  have hidle : (rdb s F.knStatAvsFault && ok) = false := by rcases h with h | h <;> simp [h]
  simp only [avsRetry, hidle, Bool.false_eq_true, if_false]

end

/-! ### The budget -/

/-- A budget within its ranges (R502): HARD_W of 100 to 560, SOFT_W of 100 to HARD_W. -/
structure BudgetInRange (w : Word) : Prop where
  hardLow : 100 ≤ wordGet w 16 10
  hardHigh : wordGet w 16 10 ≤ 560
  softLow : 100 ≤ wordGet w 0 10
  softHigh : wordGet w 0 10 ≤ wordGet w 16 10

theorem knLegal_budget (w : Word) : knLegal 0x00400000 w = true ↔ BudgetInRange w := by
  rw [knLegal, if_pos rfl, decide_eq_true_iff]
  exact ⟨fun ⟨h1, h2, h3, h4⟩ => ⟨h1, h2, h3, h4⟩, fun h => ⟨h.hardLow, h.hardHigh, h.softLow, h.softHigh⟩⟩

theorem blockWrite_budget (t : State) (who : Who) (w : Word) (env : CsrEnv) :
    blockWrite t who 0x00400000 w env = knWrite t who 0x00400000 w := by
  have hpage : pageOf 0x00400000 = none := pageOf_of_lt (by decide)
  simp only [blockWrite, hpage]
  rw [if_neg (by decide), if_neg (by decide), if_neg (by decide), if_pos (by decide)]

section
variable {s t : State} {who : Who} {w : Word}

theorem knWrite_budget (hp : isPf0 who = true) (hw : BudgetInRange w) (hl : wordLegal (fieldsAt 0x00400000) w = true) :
    knWrite t who 0x00400000 w
      = csrPut t 0x00400000 (wordWrite (locked t 0x00400000) (fieldsAt 0x00400000) (csrRaw t 0x00400000) w) := by
  rw [knWrite, hp, (knLegal_budget w).mpr hw, csrPlain_legal t (by decide +kernel) hl]
  rfl

theorem knWrite_refused (h : isPf0 who = false ∨ ¬ BudgetInRange w) : knWrite t who 0x00400000 w = refuseWrite t := by
  have hbad : ¬ (isPf0 who && knLegal 0x00400000 w) = true := by
    rw [Bool.and_eq_true, knLegal_budget]
    rcases h with h | h
    · simp [h]
    · exact fun hgood => h hgood.2
  exact if_neg hbad

theorem exec_knBudgetWrite {width : Nat} {f : State → State} (hs : Served s who) (hw : 64 ≤ width)
    (hl : wordLegal (fieldsAt 0x00400000) w = true) (hf : ∀ t, knWrite t who 0x00400000 w = f t) :
    exec (.knBudgetWrite who width w) s = .next (settled s (viaGate s who f)) :=
  congrArg (done s) (csrWriteBy_block s who 0x00400000 width w noEnv f hs hw (by decide +kernel) (.inr hl) fun t _ => by
    rw [blockWrite_budget, hf])

end

section
variable (s : State) (now : Nat) (ok : Bool)

theorem exec_kilnPeriod (p : Nat) (temps speeds : List Nat) (rails : List (Nat × Nat)) :
    exec (.kilnPeriod now p temps speeds rails) s
      = .next (settled s (keepWaiting (kilnPeriod (atTime s now) p temps speeds rails))) := rfl

theorem exec_vcoreStep : exec (.vcoreStep now ok) s = .next (settled s (vcoreStep (atTime s now) ok)) := rfl

theorem exec_thermSoftStep : exec (.thermSoftStep now ok) s = .next (settled s (thermStep (atTime s now) ok)) := rfl

theorem exec_avsCalibration (mv gain : Nat) :
    exec (.avsCalibration now ok mv gain) s = .next (settled s (avsCalibrate (atTime s now) ok mv gain)) := rfl

theorem exec_avsRetry (mv : Nat) : exec (.avsRetry now ok mv) s = .next (settled s (avsRetry (atTime s now) ok mv)) := rfl

end

/-- Settles O47: a period in its order, a step of VCORE by its policy, the regulator's answers by AVS_FAULT, the budget by its ranges. -/
theorem kilnCommandsComplete : Obligations.KilnCommandsComplete := by
  unfold Obligations.KilnCommandsComplete
  refine ⟨fun s now p temps speeds rails t u v w ht hu hv hw => ?period,
    fun s now ha hf hv hp ht h => ⟨?up, ?upFails⟩, fun s now ha hf hp hl h => ⟨?down, ?downFails⟩,
    fun s now ha hf hv hp ht hs hm => ?faster, fun s now ha hf hv hp hl hs hm => ?slower, fun s now ok h => ?stays,
    fun s now ht hf hl hv => ⟨?cools, ?coolsNot⟩, fun s now ok h => ?warm, fun s now mv gain h => ?read, fun s now mv gain h hn => ?fails,
    fun s now mv gain h hn => ?third, fun s now ok mv gain h => ?faulted, fun s now mv u h hu hb => ?retried,
    fun s now mv u h hu hb => ?retriedBrown, fun s now ok mv h => ?idle,
    fun s who width val hs hw hl hp h1 h2 h3 h4 => ?budget, fun s who width val hs hw hl h => ?refused⟩
  case period => rw [exec_kilnPeriod, kilnPeriod_eq ht hu hv hw]
  case up | upFails =>
    rw [exec_vcoreStep, vcoreStep_fixed (s := atTime s now) _ ha hf hv hp, vcoreFixed_up (s := atTime s now) _ ht h, rd_atTime, rd_atTime]
    simp only [vcoreWritten, if_true, Bool.false_eq_true, if_false]
  case down | downFails =>
    rw [exec_vcoreStep, vcoreStep_fixed (s := atTime s now) _ ha hf (Nat.ne_of_gt (Nat.zero_lt_of_lt h)) hp,
      vcoreFixed_down (s := atTime s now) _ (lowersLater_false hl) h, rd_atTime, rd_atTime]
    simp only [vcoreWritten, if_true, Bool.false_eq_true, if_false]
  case faster =>
    rw [exec_vcoreStep, vcoreStep_speed (s := atTime s now) _ ha hf hv hp, vcoreSpeed_up (s := atTime s now) _ ht hs hm, rd_atTime, vcoreWritten_true]
  case slower =>
    rw [exec_vcoreStep, vcoreStep_speed (s := atTime s now) _ ha hf hv hp,
      vcoreSpeed_down (s := atTime s now) _ (lowersLater_false hl) hs hm, rd_atTime, vcoreWritten_true]
  case stays => rw [exec_vcoreStep, vcoreStep_unmoved (s := atTime s now) ok h]
  case cools | coolsNot =>
    rw [exec_thermSoftStep, thermStep_lowers (s := atTime s now) _ ht hf (lowersLater_false hl) hv, rd_atTime, rd_atTime]
    simp only [vcoreWritten, if_true, Bool.false_eq_true, if_false]
  case warm => rw [exec_thermSoftStep, thermStep_stays (s := atTime s now) ok h]
  case read => rw [exec_avsCalibration, avsCalibrate_read (s := atTime s now) mv gain h]
  case fails =>
    rw [exec_avsCalibration, avsCalibrate_failed (s := atTime s now) mv gain h, avsResult_fails (s := atTime s now) hn]
  case third =>
    rw [exec_avsCalibration, avsCalibrate_failed (s := atTime s now) mv gain h, avsResult_third (s := atTime s now) hn]
  case faulted => rw [exec_avsCalibration, avsCalibrate_faulted (s := atTime s now) ok mv gain h]
  case retried => rw [exec_avsRetry, avsRetry_works (s := atTime s now) h hu, hb, if_neg Bool.false_ne_true]
  case retriedBrown => rw [exec_avsRetry, avsRetry_works (s := atTime s now) h hu, hb, if_pos rfl]
  case idle => rw [exec_avsRetry, avsRetry_idle (s := atTime s now) mv h]
  case budget => exact exec_knBudgetWrite hs hw hl fun t => knWrite_budget hp ⟨h1, h2, h3, h4⟩ hl
  case refused =>
    refine exec_knBudgetWrite hs hw hl fun t => knWrite_refused (h.imp_right fun hout hin => ?_)
    obtain ⟨h1, h2, h3, h4⟩ := hin
    omega

end Sys2Proof.Machine
end

section
/-!
SUPPORT. The fault collector's commands (R508, R512, R514, R517, R527, R530): a source's wires, a fence's release, and the words of
FC_CMD and FC_PEND.
-/

namespace Sys2Proof.Machine

/-! ### Sources -/

section
variable {s : State} {src : Nat}

/-- A fault of HBM writes no word of a source. -/
theorem rdb_l2Struck (cause : Nat) (h : src < 23) : rdb (l2Struck s cause) F.fcSrcWireBroken src = rdb s F.fcSrcWireBroken src := by
  have hinc (u : State) : rdb (inc u F.xlCnt1L2Ecc) F.fcSrcWireBroken src = rdb u F.fcSrcWireBroken src := by
    refine rdb_wr_apart _ _ _ _ _ _ _ _ (by decide) (.inl ?_)
    simp only [Fld.key, F.fcSrcWireBroken, F.xlCnt1L2Ecc]
    omega
  simp only [l2Struck]
  split
  · rfl
  · split
    · split
      · rw [hinc, rdb_setXl, rdb_drawn, rdb_drawn]
      · exact rdb_drawn _ _ _ _
    · exact rdb_drawn _ _ _ _

theorem takeFault_whole (inst : Nat) (h : rdb s F.fcSrcWireBroken src = false) : takeFault s src inst = raiseFault s src inst false :=
  if_neg (by rw [h]; exact Bool.false_ne_true)

theorem takeFault_broken (inst : Nat) (h : rdb s F.fcSrcWireBroken src = true) : takeFault s src inst = s := if_pos h

theorem wireBreaks_first (hs : src < 23) (h : rdb s F.fcSrcWireBroken src = false) :
    wireBreaks s src = raiseFault (wrb s F.fcSrcWireBroken true src) 0 src true := by
  simp only [wireBreaks, h, decide_eq_false (Nat.not_le.mpr hs), Bool.or_self, Bool.false_eq_true, if_false]

theorem wireBreaks_known (h : rdb s F.fcSrcWireBroken src = true ∨ 23 ≤ src) : wireBreaks s src = s := by
  have hknown : (rdb s F.fcSrcWireBroken src || decide (23 ≤ src)) = true := by rcases h with h | h <;> simp [h]
  simp only [wireBreaks, hknown, if_true]

theorem selfTested_idle (failed : Option Nat) (h : rd s F.fcSelftestSt ≠ 1) : selfTested s failed = s := by
  simp only [selfTested, if_pos h]

end

/-! ### The release of a fence -/

section
variable {s : State} {src inst : Nat} {held : List (Nat × Nat)}

theorem releaseFull_full (h : rdb s F.fcFenceFull = true) :
    releaseFull s =
      let u := refreshFences (wr (wr (wrb s F.fcFenceFull false) F.fcFenceFullSrc 0) F.fcFenceFullInst 0)
      (portUnits u).foldl restartLink u := by
  rw [releaseFull, if_pos h]

theorem releaseCmd_held (h : held.contains (src, inst) = true) : releaseCmd s false src inst held = refuseWrite s := by
  rw [releaseCmd, if_neg Bool.false_ne_true, if_pos h]

theorem releaseCmd_fence (h : held.contains (src, inst) = false) (hf : s.fc.fences.contains (src, inst) = true)
    (hn : rdb s F.fcFenceFull = false) (hb : baseOf (releaseFence s src inst) = 2) :
    releaseCmd s false src inst held = refreshFences (releaseFence s src inst) := by
  simp only [releaseCmd, Bool.false_eq_true, if_false, h, hf, hn, hb, Bool.false_and, if_true]

theorem releaseCmd_full (h : held.contains (src, inst) = false) (hf : s.fc.fences.contains (src, inst) = false)
    (hn : rdb s F.fcFenceFull = true) (hsrc : rd s F.fcFenceFullSrc = src) (hinst : rd s F.fcFenceFullInst = inst) :
    releaseCmd s false src inst held = releaseFull s := by
  simp only [releaseCmd, Bool.false_eq_true, if_false, h, hf, hn, hsrc, hinst, beq_self_eq_true, Bool.and_self, if_true]

theorem releaseCmd_allHeld (h : ∃ x ∈ held, fenceNamed s x.1 x.2 = true) : releaseCmd s true src inst held = refuseWrite s := by
  have hany : (held.any fun x => fenceNamed s x.1 x.2) = true := List.any_eq_true.mpr h
  simp only [releaseCmd, if_true, hany]

theorem releaseCmd_all (h : ∀ x ∈ held, fenceNamed s x.1 x.2 = false) :
    releaseCmd s true src inst held =
      let t := s.fc.fences.foldl (fun u x => releaseFence u x.1 x.2) s
      releaseFull (if baseOf t = 2 then refreshFences t else t) := by
  have hany : (held.any fun x => fenceNamed s x.1 x.2) = false := List.any_eq_false.mpr fun x hx => by simp [h x hx]
  simp only [releaseCmd, if_true, hany, Bool.false_eq_true, if_false]

end

/-! ### The word of FC_CMD -/

section
variable {cmd src inst confirm : Nat} {all : Bool}

theorem fcWord_cmd (h : cmd < 4) : wordGet (fcWord cmd src inst all confirm) 0 2 = cmd := by
  simp only [fcWord, wordGet, BitVec.toNat_ofNat]
  omega

theorem fcWord_src (hc : cmd < 4) (h : src < 64) : wordGet (fcWord cmd src inst all confirm) 16 6 = src := by
  simp only [fcWord, wordGet, BitVec.toNat_ofNat]
  omega

theorem fcWord_inst (hc : cmd < 4) (h : inst < 65536) : wordGet (fcWord cmd src inst all confirm) 24 16 = inst := by
  simp only [fcWord, wordGet, BitVec.toNat_ofNat]
  omega

theorem fcWord_all (hc : cmd < 4) : bitAt (fcWord cmd src inst all confirm).toNat 40 = all := by
  simp only [fcWord, bitAt, BitVec.toNat_ofNat]
  cases all
  · simp only [bit, Bool.false_eq_true, if_false, beq_eq_false_iff_ne]
    omega
  · simp only [bit, if_true, beq_iff_eq]
    omega

theorem fcWord_confirm (hc : cmd < 4) (h : confirm < 65536) : wordGet (fcWord cmd src inst all confirm) 48 16 = confirm := by
  have hall : bit all ≤ 1 := by cases all <;> decide
  simp only [fcWord, wordGet, BitVec.toNat_ofNat]
  omega

theorem fcWord_legal (h1 : 1 ≤ cmd) (h3 : cmd ≤ 3) : wordLegal (fieldsAt 0x00200010) (fcWord cmd src inst all confirm) = true := by
  have hreg : regFind 0x00200010 = some R.fcCmd := by decide +kernel
  rw [fieldsAt_of_regFind hreg]
  simp [R.fcCmd, wordLegal, Access.judged, Legal.ok, fcWord_cmd (show cmd < 4 by omega), h1, h3]

end

/-! ### FC_CMD and FC_PEND -/

theorem blockWrite_fcCmd (t : State) (who : Who) (w : Word) (env : CsrEnv) :
    blockWrite t who 0x00200010 w env = fcCommand t who w env := by
  have hpage : pageOf 0x00200010 = none := pageOf_of_lt (by decide)
  simp only [blockWrite, hpage]
  rw [if_neg (by decide), if_pos (by decide), if_pos trivial]

theorem blockWrite_fcPend (t : State) (who : Who) (w : Word) (env : CsrEnv) :
    blockWrite t who 0x00200000 w env = fcPlain t who 0x00200000 w := by
  have hpage : pageOf 0x00200000 = none := pageOf_of_lt (by decide)
  simp only [blockWrite, hpage]
  rw [if_neg (by decide), if_pos (by decide), if_neg (by decide), if_pos (by decide)]

section
variable {s t : State} {who : Who} {src inst confirm : Nat} {all : Bool}

theorem fcCommand_other {w : Word} (env : CsrEnv) (h : isPf0 who = false) : fcCommand t who w env = refuseWrite t := by
  simp only [fcCommand, h, Bool.not_false, if_true]

theorem fcCommand_release (env : CsrEnv) (h : isPf0 who = true) (hs : src < 64) (hi : inst < 65536) :
    fcCommand t who (fcWord 1 src inst all 0) env = releaseCmd t all src inst env.held := by
  simp only [fcCommand, h, Bool.not_true, Bool.false_eq_true, if_false, fcWord_cmd (show 1 < 4 by decide),
    fcWord_all (show 1 < 4 by decide), fcWord_src (show 1 < 4 by decide) hs, fcWord_inst (show 1 < 4 by decide) hi]

theorem fcCommand_chipReset (env : CsrEnv) (h : isPf0 .mgmt = true) :
    fcCommand t .mgmt (fcWord 2 0 0 false 0x0C17) env = chipReset t 2 0 0 := by
  simp only [fcCommand, h, Bool.not_true, Bool.false_eq_true, if_false, fcWord_cmd (show 2 < 4 by decide),
    fcWord_confirm (show 2 < 4 by decide) (show 0x0C17 < 65536 by decide), beq_self_eq_true, Bool.and_self, if_true]

theorem fcCommand_chipReset_refused (env : CsrEnv) (hc : confirm < 65536) (h : who ≠ .mgmt ∨ confirm ≠ 0x0C17) :
    fcCommand t who (fcWord 2 0 0 false confirm) env = refuseWrite t := by
  have hbad : (who == .mgmt && confirm == 0x0C17) = false := by
    rcases h with h | h
    · rw [beq_eq_false_iff_ne.mpr h, Bool.false_and]
    · rw [beq_eq_false_iff_ne.mpr h, Bool.and_false]
  cases hp : isPf0 who with
  | false => exact fcCommand_other env hp
  | true =>
    simp only [fcCommand, hp, Bool.not_true, Bool.false_eq_true, if_false, fcWord_cmd (show 2 < 4 by decide),
      fcWord_confirm (show 2 < 4 by decide) hc, hbad]

theorem fcCommand_selftest (env : CsrEnv) (h : isPf0 who = true) :
    fcCommand t who (fcWord 3 0 0 false 0) env
      = if baseOf t = 3 && rd t F.fcSelftestSt != 1 then wr (wr t F.fcSelftestSt 1) F.fcSelftestFailSrc 0 else t := by
  simp only [fcCommand, h, Bool.not_true, Bool.false_eq_true, if_false, fcWord_cmd (show 3 < 4 by decide)]

theorem fcPlain_pf0 {w : Word} (h : isPf0 who = true) (hl : wordLegal (fieldsAt 0x00200000) w = true) :
    fcPlain t who 0x00200000 w
      = refreshErrN (csrPut t 0x00200000 (wordWrite (locked t 0x00200000) (fieldsAt 0x00200000) (csrRaw t 0x00200000) w)) := by
  rw [fcPlain, if_pos h, csrPlain_legal t (by decide +kernel) hl]

theorem fcPlain_other {w : Word} (h : isPf0 who = false) : fcPlain t who 0x00200000 w = refuseWrite t :=
  if_neg (by rw [h]; exact Bool.false_ne_true)

end

/-- A write of the collector's registers as it is served. -/
structure ServedWrite (s : State) (who : Who) (width : Nat) : Prop where
  served : Served s who
  wide : 64 ≤ width

section
variable {s : State} {who : Who} {width : Nat} {f : State → State}

theorem csrWriteBy_fcCmd {cmd src inst confirm : Nat} {all : Bool} {env : CsrEnv} (h : ServedWrite s who width) (h1 : 1 ≤ cmd)
    (h3 : cmd ≤ 3) (hf : ∀ t, Entry t s → fcCommand t who (fcWord cmd src inst all confirm) env = f t) :
    csrWriteBy s who 0x00200010 width (fcWord cmd src inst all confirm) env = viaGate s who f :=
  csrWriteBy_block s who 0x00200010 width _ env f h.served h.wide (by decide +kernel) (.inr (fcWord_legal h1 h3)) fun t ht => by
    rw [blockWrite_fcCmd, hf t ht]

theorem exec_fcCmdRelease {all : Bool} {src inst : Nat} {held : List (Nat × Nat)} (h : ServedWrite s who width)
    (hf : ∀ t, fcCommand t who (fcWord 1 src inst all 0) { held := held, flashOk := true } = f t) :
    exec (.fcCmdRelease who width all src inst held) s = .next (settled s (viaGate s who f)) :=
  congrArg (done s) (csrWriteBy_fcCmd h (by decide) (by decide) fun t _ => hf t)

theorem exec_fcCmdChipReset {confirm : Nat} (h : ServedWrite s who width)
    (hf : ∀ t, fcCommand t who (fcWord 2 0 0 false confirm) noEnv = f t) :
    exec (.fcCmdChipReset who width confirm) s = .next (settled s (viaGate s who f)) :=
  congrArg (done s) (csrWriteBy_fcCmd h (by decide) (by decide) fun t _ => hf t)

theorem exec_fcCmdSelftest (h : ServedWrite s who width) (hf : ∀ t, Entry t s → fcCommand t who (fcWord 3 0 0 false 0) noEnv = f t) :
    exec (.fcCmdSelftest who width) s = .next (settled s (viaGate s who f)) :=
  congrArg (done s) (csrWriteBy_fcCmd h (by decide) (by decide) hf)

theorem exec_fcPendClear {w : Word} (h : ServedWrite s who width) (hl : wordLegal (fieldsAt 0x00200000) w = true)
    (hf : ∀ t, fcPlain t who 0x00200000 w = f t) :
    exec (.fcPendClear who width w) s = .next (settled s (viaGate s who f)) :=
  congrArg (done s) (csrWriteBy_block s who 0x00200000 width w noEnv f h.served h.wide (by decide +kernel) (.inr hl) fun t _ => by
    rw [blockWrite_fcPend, hf])

theorem Entry.selftest_eq {t : State} (ht : Entry t s) :
    (baseOf t = 3 && rd t F.fcSelftestSt != 1) = (baseOf s = 3 && rd s F.fcSelftestSt != 1) := by
  rw [ht.baseOf_eq, ht.raw F.fcSelftestSt 0 0 (by decide) (by decide) (by decide)]

end

section
variable (s : State) (now src inst : Nat)

theorem exec_faultRaised (h : src < 23) :
    exec (.faultRaised now src inst) s = .next (settled s (takeFault (l2Struck (atTime s now) src) src (inst % 65536))) :=
  congrArg (done s) (if_pos h)

theorem exec_brokenWireDetected :
    exec (.brokenWireDetected now src) s = .next (settled s (wireBreaks (atTime s now) src)) := rfl

theorem exec_selftestDone (failed : Option Nat) : exec (.selftestDone failed) s = .next (settled s (selfTested s failed)) := rfl

end

/-- Settles O48: a source by its wires, a release by what is held and fenced, the other commands by their writer and the mode. -/
theorem collectorCommandsComplete : Obligations.CollectorCommandsComplete := by
  unfold Obligations.CollectorCommandsComplete
  refine ⟨fun s now src inst hs h => ?fault, fun s now src inst hs h => ?faultBroken, fun s now src hs h => ?wire,
    fun s now src h => ?wireKnown, fun s who width all src inst held h hw hp hs hi => ?release,
    fun s src inst held h => releaseCmd_held h, fun s src inst held h => releaseCmd_allHeld h,
    fun s src inst held h hf hn hb => releaseCmd_fence h hf hn hb,
    fun s src inst held h hf hn hsrc hinst => (releaseCmd_full h hf hn hsrc hinst).trans (releaseFull_full hn),
    fun s src inst held h => releaseCmd_all h, fun s width h hw => ?chip, fun s who width confirm h hw hc hbad => ?chipRefused,
    fun s who width h hw hp hb hr => ?selftest, fun s who width h hw hp hno => ?selftestNot, fun s hr => ?passed,
    fun s src hr => ?failed, fun s failed hr => ?notRunning, fun s who width val h hw hp hl => ?pend,
    fun s who width all src inst held val h hw hp hs hi hl => ⟨?releaseOther, ?selftestOther, ?pendOther⟩⟩
  case fault =>
    rw [exec_faultRaised s now src inst hs, takeFault_whole _ ((rdb_l2Struck src hs).trans ((rdb_atTime s now _ _ _).trans h))]
    rfl
  case faultBroken =>
    rw [exec_faultRaised s now src inst hs, takeFault_broken _ ((rdb_l2Struck src hs).trans ((rdb_atTime s now _ _ _).trans h))]
  case wire =>
    rw [exec_brokenWireDetected, wireBreaks_first (s := atTime s now) hs h]
    rfl
  case wireKnown => rw [exec_brokenWireDetected, wireBreaks_known (s := atTime s now) h]
  case release => exact exec_fcCmdRelease ⟨h, hw⟩ fun t => fcCommand_release _ hp hs hi
  case chip => exact exec_fcCmdChipReset ⟨h, hw⟩ fun t => fcCommand_chipReset noEnv (isPf0_of_served h (.inl rfl))
  case chipRefused => exact exec_fcCmdChipReset ⟨h, hw⟩ fun t => fcCommand_chipReset_refused noEnv hc hbad
  case selftest =>
    refine exec_fcCmdSelftest ⟨h, hw⟩ fun t ht => ?_
    rw [fcCommand_selftest noEnv hp, ht.selftest_eq, if_pos (by simp [hb, hr])]
  case selftestNot =>
    refine exec_fcCmdSelftest (f := id) ⟨h, hw⟩ fun t ht => ?_
    rw [fcCommand_selftest noEnv hp, ht.selftest_eq, if_neg (by rcases hno with h | h <;> simp [h])]
    rfl
  case passed => rw [exec_selftestDone, selfTested, if_neg (not_not.mpr hr)]
  case failed => rw [exec_selftestDone, selfTested, if_neg (not_not.mpr hr)]
  case notRunning => rw [exec_selftestDone, selfTested_idle failed hr]
  case pend => exact exec_fcPendClear ⟨h, hw⟩ hl fun t => fcPlain_pf0 hp hl
  case releaseOther => exact exec_fcCmdRelease ⟨h, hw⟩ fun t => fcCommand_other _ hp
  case selftestOther => exact exec_fcCmdSelftest ⟨h, hw⟩ fun t _ => fcCommand_other _ hp
  case pendOther => exact exec_fcPendClear ⟨h, hw⟩ hl fun t => fcPlain_other hp

end Sys2Proof.Machine
end

section
/-!
SUPPORT. The management controller's messages (R556 to R559, R589): one that nothing puts off is answered at once, and each request's
answer.
-/

namespace Sys2Proof.Machine

/-! ### A message's way in -/

/-- A message over a transport is answered at once: firmware runs, none waits before it, and a host port serves (R557). -/
structure MctpReady (s : State) (via : Option Nat) : Prop where
  runs : firmwareRuns s = true
  none : s.fw.waiting = []
  serves : ∀ hp, via = some hp → serving s hp = true

section
variable {s : State} {via : Option Nat} {r : MctpReq}

theorem mctpWaits_setFw_waiting (l : List (Nat × MctpReq)) :
    mctpWaits (setFw s fun f => { f with waiting := l }) r = mctpWaits s r := rfl

theorem mctpWaits_runs (h : firmwareRuns s = true) (hh : holdOn s = false) : mctpWaits s r = false := by
  simp only [mctpWaits, h, hh, Bool.not_true, Bool.false_or]
  split <;> rfl

/-- A request that joins an empty line. -/
theorem setFw_waiting_first (t : Nat) (h : s.fw.waiting = []) :
    setFw s (fun f => { f with waiting := f.waiting ++ [(t, r)] }) = setFw s fun f => { f with waiting := [(t, r)] } := by
  simp only [setFw, h, List.nil_append]

theorem mctpIn_first (t : Nat) (hn : s.fw.waiting = []) (hw : mctpWaits s r = false) : mctpIn s t r = mctpDo s r := by
  have hback : setFw (setFw s fun f => { f with waiting := [(t, r)] }) (fun f => { f with waiting := [] }) = s := by
    simp only [setFw]
    rw [← hn]
  simp only [mctpIn, setFw_waiting_first t hn, setFw_fw, List.length_singleton, mctpRun, mctpPick, mctpWaits_setFw_waiting, hw,
    List.contains_nil, Bool.or_self, Bool.false_eq_true, if_false, hback]

theorem mctpIn_put_off (t : Nat) (hn : s.fw.waiting = []) (hw : mctpWaits s r = true) :
    mctpIn s t r = setFw s fun f => { f with waiting := [(t, r)] } := by
  simp only [mctpIn, setFw_waiting_first t hn, setFw_fw, List.length_singleton, mctpRun, mctpPick, mctpWaits_setFw_waiting, hw,
    Bool.or_true, if_true, Option.map_none]

theorem mctpVia_answered (h : MctpReady s via) (hw : mctpWaits s r = false) : mctpVia s via r = mctpDo s r := by
  cases via with
  | none => exact mctpIn_first 2 h.none hw
  | some hp => rw [mctpVia, if_pos (h.serves hp rfl), mctpIn_first hp h.none hw]

theorem mctpVia_stopped {hp : Nat} (hr : firmwareRuns s = false) (hn : s.fw.waiting = []) (hs : serving s hp = true) :
    mctpVia s (some hp) r = setFw s fun w => { w with waiting := [(hp, r)] } := by
  have hwaits : mctpWaits s r = true := by
    unfold mctpWaits
    rw [hr]
    exact Bool.true_or _
  rw [mctpVia, if_pos hs, mctpIn_put_off hp hn hwaits]

/-! ### Answers -/

/-- A request that is no write waits for firmware alone. -/
theorem MctpReady.goes (h : MctpReady s via) (hr : mctpWaits s r = !firmwareRuns s) : mctpVia s via r = mctpDo s r :=
  mctpVia_answered h (by rw [hr, h.runs]; rfl)

theorem mctpWaits_status : mctpWaits s .status = !firmwareRuns s := Bool.or_false _
theorem mctpWaits_cert (i : Nat) : mctpWaits s (.cert i) = !firmwareRuns s := Bool.or_false _
theorem mctpWaits_attest (i3c : Bool) (nonce : List Byte) : mctpWaits s (.attest i3c nonce) = !firmwareRuns s := Bool.or_false _
theorem mctpWaits_csrRead (off : Nat) : mctpWaits s (.csrRead off) = !firmwareRuns s := Bool.or_false _

theorem mctpDo_status :
    mctpDo s .status = emit s (.mctp 0 [csrView s 0x00300000, csrView s 0x00300008, csrView s 0x00300010]) := rfl

theorem mctpDo_cert (i : Nat) :
    mctpDo s (.cert i) = emit s (if inRecovery s = true then .mctp 3 [] else .mctp 0 (Config.certificate i)) :=
  (apply_ite (emit s) _ _ _).symm

theorem mctpDo_attest (i3c : Bool) (nonce : List Byte) : mctpDo s (.attest i3c nonce) = attest s i3c nonce := rfl

theorem mctpDo_csrRead (off : Nat) : mctpDo s (.csrRead off) = mctpRead s off := rfl

theorem mctpDo_csrWrite (off : Nat) (w : Word) (env : CsrEnv) : mctpDo s (.csrWrite off w env) = mctpWrite s off w env := rfl

/-- The policy of a transport (R558). -/
theorem attestPolicy (via : Option Nat) :
    (if via.isNone then rdb s F.fwIdPolicyAttestI3c else rdb s F.fwIdPolicyAttestVdm)
      = rdb s (if via = none then F.fwIdPolicyAttestI3c else F.fwIdPolicyAttestVdm) := by
  cases via <;> rfl

theorem attest_reports (nonce : List Byte) (hr : inRecovery s = false)
    (hp : rdb s (if via = none then F.fwIdPolicyAttestI3c else F.fwIdPolicyAttestVdm) = true) :
    attest s via.isNone nonce
      = emit (openWords 12 s).1 (.mctp 0 (wordsOfBytes 52 (reportBytes s nonce) ++ (openWords 12 s).2)) := by
  rw [← attestPolicy] at hp
  simp only [attest, hr, hp, Bool.not_false, Bool.and_self, if_true]

theorem attest_refuses (nonce : List Byte) (h : inRecovery s = true
    ∨ rdb s (if via = none then F.fwIdPolicyAttestI3c else F.fwIdPolicyAttestVdm) = false) :
    attest s via.isNone nonce = emit (drawn s) (.mctp (1 + freeNat s % 255) []) := by
  rw [← attestPolicy] at h
  have hno : (!inRecovery s && if via.isNone then rdb s F.fwIdPolicyAttestI3c else rdb s F.fwIdPolicyAttestVdm) = false := by
    rcases h with h | h
    · rw [h, Bool.not_true, Bool.false_and]
    · rw [h, Bool.and_false]
  simp only [attest, hno, Bool.false_eq_true, if_false]

theorem mctpRead_word {off : Nat} (hr : inRecovery s = false) (ho : mctpOffOk off = true) :
    mctpRead s off = emit (csrRead s off 64).1 (.mctp 0 [(csrRead s off 64).2]) := by
  simp only [mctpRead, ho, hr, Bool.not_true, Bool.false_and, Bool.false_eq_true, if_false]

theorem mctpRead_nowhere {off : Nat} (ho : mctpOffOk off = false) : mctpRead s off = emit s (.mctp 2 []) := by
  simp only [mctpRead, ho, Bool.not_false, if_true]

theorem mctpWrite_word {off : Nat} (w : Word) (env : CsrEnv) (hr : inRecovery s = false) (ho : mctpOffOk off = true) :
    mctpWrite s off w env = emit (mgmtWrite s off w env).1 (.mctp (bit (mgmtWrite s off w env).2) []) := by
  simp only [mctpWrite, ho, hr, Bool.not_true, Bool.false_eq_true, if_false]

theorem mctpWrite_refused {off : Nat} (w : Word) (env : CsrEnv) (h : mctpOffOk off = false ∨ inRecovery s = true) :
    mctpWrite s off w env = emit s (.mctp (if mctpOffOk off = false then 2 else 3) []) := by
  cases ho : mctpOffOk off with
  | false => simp only [mctpWrite, ho, Bool.not_false, if_true]
  | true =>
    have hr : inRecovery s = true := h.resolve_left (by simp [ho])
    simp only [mctpWrite, ho, hr, Bool.not_true, Bool.false_eq_true, if_false, if_true, reduceCtorEq]

/-! ### The TAP -/

/-- A token that opens debug access (R559). -/
structure Unlocks (s : State) (key : Nat) : Prop where
  slot : key < 4
  fuse : rdb s F.fwFuseDebugEn = true
  unlocked : rdb s F.lckBitsDebugDis = false
  mode : baseOf s = 3 ∨ baseOf s = 0
  programmed : bitAt (rd s F.fwFuseFwProg) key = true
  valid : bitAt (rd s F.fwFuseFwRevoked) key = false

theorem unlock_opens {key : Nat} (h : Unlocks s key) :
    unlock s key true = emit (setFw s fun w => { w with debugOpen := true, debugEver := true }) (.jtag true) := by
  have hmode : (baseOf s == 3 || baseOf s == 0) = true := by rcases h.mode with h | h <;> simp [h]
  simp only [unlock, h.fuse, h.unlocked, hmode, h.programmed, h.valid, decide_eq_true h.slot, Bool.not_false, Bool.and_self, if_true]

theorem unlock_refused {key : Nat} {valid : Bool} (h : valid = false ∨ 4 ≤ key ∨ rdb s F.fwFuseDebugEn = false
    ∨ rdb s F.lckBitsDebugDis = true ∨ (baseOf s ≠ 3 ∧ baseOf s ≠ 0) ∨ bitAt (rd s F.fwFuseFwProg) key = false
    ∨ bitAt (rd s F.fwFuseFwRevoked) key = true) : unlock s key valid = emit s (.jtag false) := by
  have hno : (rdb s F.fwFuseDebugEn && !rdb s F.lckBitsDebugDis && (baseOf s == 3 || baseOf s == 0) && valid
      && bitAt (rd s F.fwFuseFwProg) key && !bitAt (rd s F.fwFuseFwRevoked) key && decide (key < 4)) = false := by
    rcases h with h | h | h | h | ⟨h3, h0⟩ | h | h
    · simp [h]
    · simp [Nat.not_lt.mpr h]
    · simp [h]
    · simp [h]
    · simp [h3, h0]
    · simp [h]
    · simp [h]
  simp only [unlock, hno, Bool.false_eq_true, if_false]

end

section
variable (s : State) (via : Option Nat)

theorem exec_mctpGetStatus : exec (.mctpGetStatus via) s = .next (settled s (mctpVia s via .status)) := rfl

theorem exec_mctpGetCert (i : Nat) : exec (.mctpGetCert via i) s = .next (settled s (mctpVia s via (.cert i))) := rfl

theorem exec_mctpAttest {nonce : List Byte} (h : nonce.length = 32) :
    exec (.mctpAttest via nonce) s = .next (settled s (mctpVia s via (.attest via.isNone nonce))) :=
  congrArg (done s) (if_pos h)

theorem exec_mctpCsrRead (off : Nat) : exec (.mctpCsrRead via off) s = .next (settled s (mctpVia s via (.csrRead off))) := rfl

theorem exec_mctpCsrWrite (off : Nat) (w : Word) (env : CsrEnv) :
    exec (.mctpCsrWrite via off w env) s = .next (settled s (mctpVia s via (.csrWrite off w env))) := rfl

theorem exec_jtagDebugUnlock (key : Nat) (valid : Bool) :
    exec (.jtagDebugUnlock key valid) s = .next (settled s (unlock s key valid)) := rfl

end

/-- Settles O52: a message that nothing puts off is answered at once, by its kind; the TAP by the token; the bus by its times. -/
theorem managementMessagesComplete : Obligations.ManagementMessagesComplete := by
  unfold Obligations.ManagementMessagesComplete
  refine ⟨fun s via hr hn hs => ?status, fun s i via hr hn hs => ?cert, fun s nonce via hr hn hs hrec hp hl => ?attest,
    fun s nonce via hr hn hs hl h => ?attestNot, fun s off via hr hn hs hrec ho => ?read,
    fun s off val env via hr hn hs hrec hh ho => ?write, fun s off val env via hr hn hs hh h => ?writeNot,
    fun s off via hr hn hs ho => ?readNot, fun s hp i hr hn hs => ⟨?statusWaits, ?certWaits⟩,
    fun s key hk hf hl hm hp hv => ?unlock, fun s key valid h => ?unlockNot,
    fun s now ns h => congrArg (done s) (if_pos h), fun s now ns h => congrArg (done s) (if_neg (Nat.not_lt.mpr h)),
    fun s now ns h => congrArg (done s) (if_pos h), fun s now ns h => congrArg (done s) (if_neg (Nat.not_le.mpr h)), fun s => rfl⟩
  case status => rw [exec_mctpGetStatus, MctpReady.goes ⟨hr, hn, hs⟩ mctpWaits_status, mctpDo_status]
  case cert => rw [exec_mctpGetCert, MctpReady.goes ⟨hr, hn, hs⟩ (mctpWaits_cert i), mctpDo_cert]
  case attest =>
    rw [exec_mctpAttest s via hl, MctpReady.goes ⟨hr, hn, hs⟩ (mctpWaits_attest _ nonce), mctpDo_attest, attest_reports nonce hrec hp]
  case attestNot =>
    rw [exec_mctpAttest s via hl, MctpReady.goes ⟨hr, hn, hs⟩ (mctpWaits_attest _ nonce), mctpDo_attest, attest_refuses nonce h]
  case read =>
    rw [exec_mctpCsrRead, MctpReady.goes ⟨hr, hn, hs⟩ (mctpWaits_csrRead off), mctpDo_csrRead, mctpRead_word hrec ho]
  case readNot =>
    rw [exec_mctpCsrRead, MctpReady.goes ⟨hr, hn, hs⟩ (mctpWaits_csrRead off), mctpDo_csrRead, mctpRead_nowhere ho]
  case write =>
    rw [exec_mctpCsrWrite, mctpVia_answered ⟨hr, hn, hs⟩ (mctpWaits_runs hr hh), mctpDo_csrWrite, mctpWrite_word val env hrec ho]
  case writeNot =>
    rw [exec_mctpCsrWrite, mctpVia_answered ⟨hr, hn, hs⟩ (mctpWaits_runs hr hh), mctpDo_csrWrite, mctpWrite_refused val env h]
  case statusWaits => rw [exec_mctpGetStatus, mctpVia_stopped hr hn hs]
  case certWaits => rw [exec_mctpGetCert, mctpVia_stopped hr hn hs]
  case unlock => rw [exec_jtagDebugUnlock, unlock_opens ⟨hk, hf, hl, hm, hp, hv⟩]
  case unlockNot => rw [exec_jtagDebugUnlock, unlock_refused h]

end Sys2Proof.Machine
end

section
/-!
SUPPORT. FW_CMD, the health window and the fuses (R541, R544, R552 to R554): the command's word, and what each command finds.
-/

namespace Sys2Proof.Machine

/-! ### The word of FW_CMD -/

section
variable {cmd slot key confirm : Nat}

theorem fwWord_cmd (h : cmd < 16) : wordGet (fwWord cmd slot key confirm) 0 4 = cmd := by
  simp only [fwWord, wordGet, BitVec.toNat_ofNat]
  omega

theorem fwWord_slot (hc : cmd < 16) (h : slot < 2) : wordGet (fwWord cmd slot key confirm) 8 1 = slot := by
  simp only [fwWord, wordGet, BitVec.toNat_ofNat]
  omega

theorem fwWord_key (hc : cmd < 16) (h : key < 4) : wordGet (fwWord cmd slot key confirm) 12 2 = key := by
  simp only [fwWord, wordGet, BitVec.toNat_ofNat]
  omega

theorem fwWord_confirm (hc : cmd < 16) (h : confirm < 65536) : wordGet (fwWord cmd slot key confirm) 48 16 = confirm := by
  simp only [fwWord, wordGet, BitVec.toNat_ofNat]
  omega

theorem fwWord_legal (h1 : 1 ≤ cmd) (h5 : cmd ≤ 5) : wordLegal (fieldsAt 0x00300018) (fwWord cmd slot key confirm) = true := by
  have hreg : regFind 0x00300018 = some R.fwCmd := by decide +kernel
  rw [fieldsAt_of_regFind hreg]
  simp [R.fwCmd, wordLegal, Access.judged, Legal.ok, fwWord_cmd (show cmd < 16 by omega), h1, h5]

end

theorem blockWrite_fwCmd (t : State) (who : Who) (w : Word) (env : CsrEnv) :
    blockWrite t who 0x00300018 w env = fwCommand t who w := by
  have hpage : pageOf 0x00300018 = none := pageOf_of_lt (by decide)
  simp only [blockWrite, hpage]
  rw [if_neg (by decide), if_neg (by decide), if_pos (by decide), if_pos trivial]

section
variable {t : State} {who : Who} {slot key confirm : Nat}

theorem fwCommand_activate (h : slot < 2) : fwCommand t who (fwWord 1 slot 0 0) = activate t who slot := by
  simp only [fwCommand, fwWord_cmd (show 1 < 16 by decide), fwWord_slot (show 1 < 16 by decide) h]

theorem fwCommand_confirm : fwCommand t who (fwWord 2 0 0 0) = fwConfirm t := by
  simp only [fwCommand, fwWord_cmd (show 2 < 16 by decide)]

theorem fwCommand_recovery (h : confirm < 65536) : fwCommand t who (fwWord 3 0 0 confirm) = recoveryReq t who confirm := by
  simp only [fwCommand, fwWord_cmd (show 3 < 16 by decide), fwWord_confirm (show 3 < 16 by decide) h]

theorem fwCommand_commit : fwCommand t who (fwWord 4 0 0 0) = commitSvn t who := by
  simp only [fwCommand, fwWord_cmd (show 4 < 16 by decide)]

theorem fwCommand_revoke (hk : key < 4) (h : confirm < 65536) :
    fwCommand t who (fwWord 5 0 key confirm) = revokeKey t who key confirm := by
  simp only [fwCommand, fwWord_cmd (show 5 < 16 by decide), fwWord_key (show 5 < 16 by decide) hk,
    fwWord_confirm (show 5 < 16 by decide) h]

end

section
variable {s : State} {who : Who} {width : Nat} {f : State → State}

/-- A served FW_CMD has its command's effect. -/
theorem fwStore_served {cmd slot key confirm : Nat} (h : ServedWrite s who width) (h1 : 1 ≤ cmd) (h5 : cmd ≤ 5)
    (hf : ∀ t, Entry t s → fwCommand t who (fwWord cmd slot key confirm) = f t) :
    fwStore s who width (fwWord cmd slot key confirm) = viaGate s who f :=
  csrWriteBy_block s who 0x00300018 width _ noEnv f h.served h.wide (by decide +kernel) (.inr (fwWord_legal h1 h5)) fun t ht => by
    rw [blockWrite_fwCmd, hf t ht]

theorem exec_fwCmdConfirm (h : ServedWrite s who width) (hf : ∀ t, Entry t s → fwConfirm t = f t) :
    exec (.fwCmdConfirm who width) s = .next (settled s (viaGate s who f)) :=
  congrArg (done s) (fwStore_served h (by decide) (by decide) fun t ht => fwCommand_confirm.trans (hf t ht))

theorem exec_fwCmdRecoveryReq {confirm : Nat} (h : ServedWrite s who width) (hc : confirm < 65536)
    (hf : ∀ t, Entry t s → recoveryReq t who confirm = f t) :
    exec (.fwCmdRecoveryReq who width confirm) s = .next (settled s (viaGate s who f)) :=
  congrArg (done s) (fwStore_served h (by decide) (by decide) fun t ht => (fwCommand_recovery hc).trans (hf t ht))

theorem exec_fwCmdCommitSvn (h : ServedWrite s who width) (hf : ∀ t, Entry t s → commitSvn t who = f t) :
    exec (.fwCmdCommitSvn who width) s = .next (settled s (viaGate s who f)) :=
  congrArg (done s) (fwStore_served h (by decide) (by decide) fun t ht => fwCommand_commit.trans (hf t ht))

theorem exec_fwCmdRevokeKey {key confirm : Nat} (h : ServedWrite s who width) (hk : key < 4) (hc : confirm < 65536)
    (hf : ∀ t, Entry t s → revokeKey t who key confirm = f t) :
    exec (.fwCmdRevokeKey who width key confirm) s = .next (settled s (viaGate s who f)) :=
  congrArg (done s) (fwStore_served h (by decide) (by decide) fun t ht => (fwCommand_revoke hk hc).trans (hf t ht))

end

/-! ### What a served command finds unchanged -/

section
variable {t s : State}

theorem Entry.fw_eq (h : Entry t s) : t.fw = s.fw := by
  have hs : t = { s with csr := t.csr } := h.same
  exact (congrArg State.fw hs :)

theorem Entry.ownerLocked_eq (h : Entry t s) : ownerLocked t = ownerLocked s := by
  simp only [ownerLocked, h.word 0x00102000 (by decide) (by decide) (by decide)]

theorem Entry.actSt_eq (h : Entry t s) : actSt t = actSt s := h.raw F.fwStatActSt 0 0 (by decide) (by decide) (by decide)

/-- CONFIRM counts: the window is open, OK is set, and the host confirms (R544). -/
structure Confirms (s : State) : Prop where
  window : actSt s = 4
  ok : rdb s F.fwHealthOk = true
  host : rdb s F.fwCtlHostConfirm = true

theorem fwConfirm_confirms (h : Confirms s) : fwConfirm s = confirmHealth s := if_pos ⟨h.window, h.ok, h.host⟩

theorem fwConfirm_idle (h : ¬ Confirms s) : fwConfirm s = s := if_neg fun ⟨hw, ho, hh⟩ => h ⟨hw, ho, hh⟩

theorem Entry.confirms_iff (h : Entry t s) : Confirms t ↔ Confirms s := by
  have hok : rdb t F.fwHealthOk = rdb s F.fwHealthOk := h.rdb' F.fwHealthOk 0 0 (by decide) (by decide) (by decide)
  have hhost : rdb t F.fwCtlHostConfirm = rdb s F.fwCtlHostConfirm := h.rdb' F.fwCtlHostConfirm 0 0 (by decide) (by decide) (by decide)
  exact ⟨fun c => ⟨h.actSt_eq ▸ c.window, hok ▸ c.ok, hhost ▸ c.host⟩,
    fun c => ⟨h.actSt_eq.trans c.window, hok.trans c.ok, hhost.trans c.host⟩⟩

end

/-! ### The health window -/

section
variable {s : State}

theorem healthOk_outside (h : actSt s ≠ 4) : healthOk s = s := if_neg h

theorem healthOk_window (h : actSt s = 4) :
    healthOk s = if rdb (wrb s F.fwHealthOk true) F.fwCtlHostConfirm then wrb s F.fwHealthOk true
      else confirmHealth (wrb s F.fwHealthOk true) := if_pos h

theorem rdb_hostConfirm_ok : rdb (wrb s F.fwHealthOk true) F.fwCtlHostConfirm = rdb s F.fwCtlHostConfirm :=
  rdb_wr_apart _ _ _ _ _ _ _ _ (by decide) (.inl (by decide))

theorem beginFall_begins (hb : brownOn s = false) (hf : fenceOn s = false) :
    beginFall s =
      let slot := (s.fw.prev.map fun e => e.2.2).getD (1 - rd s F.fwStatRunning)
      beginWarm (wr (setFw s fun w => { w with windowAt := none, pendFall := false }) F.fwStatActSt 1) slot 2 := by
  simp only [beginFall, hb, hf, Bool.or_self, Bool.false_eq_true, if_false]

theorem beginFall_waits (h : brownOn s = true ∨ fenceOn s = true) : beginFall s = setFw s fun w => { w with pendFall := true } := by
  have hwaits : (brownOn s || fenceOn s) = true := by rcases h with h | h <;> simp [h]
  simp only [beginFall, hwaits, if_true]

theorem windowDue_past {at' : Nat} (hw : s.fw.windowAt = some at') (ht : at' + 30000000000 ≤ s.timeNs) (ha : actSt s = 4) :
    windowDue s = beginFall s := by
  simp only [windowDue, hw, if_pos ht, windowOver, if_pos ha]

theorem windowDue_stays (h : (∀ at', s.fw.windowAt = some at' → s.timeNs < at' + 30000000000) ∨ actSt s ≠ 4) : windowDue s = s := by
  rw [windowDue]
  split
  case h_1 t hw =>
    rcases h with h | h
    · exact if_neg (Nat.not_le.mpr (h t hw))
    · rw [windowOver, if_neg h, ite_self]
  case h_2 => rfl

/-! ### Keys and fuses -/

theorem recoveryReq_flag (h : ownerLocked s = false) :
    recoveryReq s .mgmt 0x0E5C = writeBoard s fun b => { b with recovery := true } := by
  rw [recoveryReq, if_neg (by simp [h]), if_neg (by decide), if_pos rfl]

theorem recoveryReq_refused {who : Who} (confirm : Nat) (h : ownerLocked s = true ∨ who ≠ .mgmt) :
    recoveryReq s who confirm = wr s F.fwStatCause (if ownerLocked s = true then 1 else 11) := by
  rw [recoveryReq]
  cases ho : ownerLocked s with
  | true => rfl
  | false =>
    have hwho : who ≠ .mgmt := h.resolve_left (by simp [ho])
    rw [if_neg Bool.false_ne_true, if_neg Bool.false_ne_true, if_pos hwho]

variable {who : Who}

theorem commitSvn_raises (hp : isPf0 who = true) (h : ownerLocked s = false) (ha : actSt s = 5) :
    commitSvn s who = wr s F.fwFuseSvnMin (max (rd s F.fwFuseSvnMin) s.fw.run.svn) := by
  simp only [commitSvn, hp, h, ha, Bool.not_true, Bool.false_eq_true, if_false, if_true]

theorem commitSvn_early (hp : isPf0 who = true) (h : ownerLocked s = false) (ha : actSt s ≠ 5) : commitSvn s who = s := by
  simp only [commitSvn, hp, h, ha, Bool.not_true, Bool.false_eq_true, if_false]

theorem commitSvn_refused (h : ownerLocked s = true ∨ isPf0 who = false) :
    commitSvn s who = wr s F.fwStatCause (if ownerLocked s = true then 1 else 11) := by
  rw [commitSvn]
  cases ho : ownerLocked s with
  | true => rfl
  | false =>
    have hp : isPf0 who = false := h.resolve_left (by simp [ho])
    simp only [hp, Bool.false_eq_true, if_false, Bool.not_false, if_true]

/-- The keys that a revocation leaves (R554). -/
def keysLeft (s : State) (k : Nat) : List Nat :=
  (List.range 4).filter fun i => i != k && bitAt (rd s F.fwFuseFwProg) i && !bitAt (rd s F.fwFuseFwRevoked) i

theorem revokeKey_mgmt (s : State) (k confirm : Nat) :
    revokeKey s .mgmt k confirm =
      if confirm = 0x0E5C ∧ s.fw.run.signer ≠ k ∧ (keysLeft s k).isEmpty = false then
        wr s F.fwFuseFwRevoked (rd s F.fwFuseFwRevoked ||| 2 ^ k)
      else s := by
  rw [revokeKey]
  exact if_neg (not_not.mpr rfl)

theorem revokeKey_other (k confirm : Nat) (h : who ≠ .mgmt) : revokeKey s who k confirm = wr s F.fwStatCause 11 := if_pos h

theorem mem_keysLeft {k j : Nat} :
    j ∈ keysLeft s k ↔ j < 4 ∧ j ≠ k ∧ bitAt (rd s F.fwFuseFwProg) j = true ∧ bitAt (rd s F.fwFuseFwRevoked) j = false := by
  simp only [keysLeft, List.mem_filter, List.mem_range, Bool.and_eq_true, bne_iff_ne, Bool.not_eq_true', and_assoc]

theorem keysLeft_some {k j : Nat} (hj : j < 4) (hne : j ≠ k) (hp : bitAt (rd s F.fwFuseFwProg) j = true)
    (hr : bitAt (rd s F.fwFuseFwRevoked) j = false) : (keysLeft s k).isEmpty = false :=
  List.isEmpty_eq_false_iff.mpr (List.ne_nil_of_mem (mem_keysLeft.mpr ⟨hj, hne, hp, hr⟩))

theorem keysLeft_none {k : Nat}
    (h : ∀ j, j < 4 → j ≠ k → bitAt (rd s F.fwFuseFwProg) j = false ∨ bitAt (rd s F.fwFuseFwRevoked) j = true) :
    keysLeft s k = [] := by
  refine List.eq_nil_iff_forall_not_mem.mpr fun j hj => ?_
  obtain ⟨hlt, hne, hp, hr⟩ := mem_keysLeft.mp hj
  rcases h j hlt hne with h | h <;> simp_all

theorem Entry.keysLeft_eq {t : State} (h : Entry t s) (k : Nat) : keysLeft t k = keysLeft s k := by
  simp only [keysLeft, h.raw F.fwFuseFwProg 0 0 (by decide) (by decide) (by decide),
    h.raw F.fwFuseFwRevoked 0 0 (by decide) (by decide) (by decide)]

end

section
variable (s : State) (now : Nat)

theorem exec_fwHealthOk_runs (h : firmwareRuns s = true) : exec .fwHealthOk s = .next (settled s (healthOk s)) :=
  congrArg (done s) (if_pos h)

theorem exec_fwHealthOk_stopped (h : firmwareRuns s = false) : exec .fwHealthOk s = .next (settled s s) :=
  congrArg (done s) (if_neg (by rw [h]; exact Bool.false_ne_true))

theorem exec_healthWindowExpired : exec (.healthWindowExpired now) s = .next (settled s (windowDue (atTime s now))) := rfl

theorem exec_mctpConfirm (via : Option Nat) : exec (.mctpConfirm via) s = .next (settled s (mctpVia s via .confirm)) := rfl

theorem mctpWaits_confirm : mctpWaits s .confirm = !firmwareRuns s := Bool.or_false _

theorem mctpDo_confirm (h : inRecovery s = false) : mctpDo s .confirm = emit (fwConfirm s) (.mctp 0 []) :=
  if_neg (by rw [h]; exact Bool.false_ne_true)

end

/-- Settles O51: the health window by what is shown and confirmed, and each command by its writer, the lock and what it finds. -/
theorem healthAndKeyCommandsComplete : Obligations.HealthAndKeyCommandsComplete := by
  unfold Obligations.HealthAndKeyCommandsComplete
  refine ⟨fun s hr ha hh => ?ok, fun s hr ha hh => ?okWaits, fun s h => ?okOutside, fun s who width h hw ha ho hh => ?confirm,
    fun s who width h hw hno => ?confirmNot, fun s via hr hn hs hrec => ?message, fun s => rfl, fun s now at' hw ht ha hb hf => ?fall,
    fun s now at' hw ht ha h => ?fallWaits, fun s now h => ?inWindow, fun s width h hw ho => ?recovery,
    fun s who width confirm h hw hc hno => ?recoveryNot, fun s who width h hw hp ho ha => ?commit, fun s who width h hw hno => ?commitNot,
    fun s who width h hw hp ho ha => ?commitEarly, fun s width k j h hw hk hsig hj hne hprog hrev => ?revoke,
    fun s who width k confirm h hw hk hc hno => ?revokeOther, fun s width k confirm h hw hk hc hno => ?revokeNot⟩
  case ok => rw [exec_fwHealthOk_runs s hr, healthOk_window ha, rdb_hostConfirm_ok, hh, if_neg Bool.false_ne_true]
  case okWaits => rw [exec_fwHealthOk_runs s hr, healthOk_window ha, rdb_hostConfirm_ok, hh, if_pos rfl]
  case okOutside =>
    cases hr : firmwareRuns s with
    | false => exact exec_fwHealthOk_stopped s hr
    | true => rw [exec_fwHealthOk_runs s hr, healthOk_outside (h.resolve_left (by simp [hr]))]
  case confirm => exact exec_fwCmdConfirm ⟨h, hw⟩ fun t ht => fwConfirm_confirms (ht.confirms_iff.mpr ⟨ha, ho, hh⟩)
  case confirmNot =>
    refine exec_fwCmdConfirm (f := id) ⟨h, hw⟩ fun t ht => fwConfirm_idle fun hc => ?_
    obtain ⟨ha, ho, hh⟩ := ht.confirms_iff.mp hc
    rcases hno with hno | hno | hno <;> simp_all
  case message => rw [exec_mctpConfirm, MctpReady.goes ⟨hr, hn, hs⟩ (mctpWaits_confirm s), mctpDo_confirm s hrec, fwConfirm]
  case fall =>
    rw [exec_healthWindowExpired, windowDue_past (s := atTime s now) hw ht ha, beginFall_begins (s := atTime s now) hb hf]
    rfl
  case fallWaits =>
    rw [exec_healthWindowExpired, windowDue_past (s := atTime s now) hw ht ha, beginFall_waits (s := atTime s now) h]
  case inWindow => rw [exec_healthWindowExpired, windowDue_stays (s := atTime s now) h]
  case recovery => exact exec_fwCmdRecoveryReq ⟨h, hw⟩ (by decide) fun t ht => recoveryReq_flag (ht.ownerLocked_eq.trans ho)
  case recoveryNot =>
    refine exec_fwCmdRecoveryReq ⟨h, hw⟩ hc fun t ht => ?_
    rw [recoveryReq_refused confirm (hno.imp_left ht.ownerLocked_eq.trans), ht.ownerLocked_eq]
  case commit =>
    exact exec_fwCmdCommitSvn ⟨h, hw⟩ fun t ht => commitSvn_raises hp (ht.ownerLocked_eq.trans ho) (ht.actSt_eq.trans ha)
  case commitNot =>
    refine exec_fwCmdCommitSvn ⟨h, hw⟩ fun t ht => ?_
    rw [commitSvn_refused (hno.imp_left ht.ownerLocked_eq.trans), ht.ownerLocked_eq]
  case commitEarly =>
    exact exec_fwCmdCommitSvn (f := id) ⟨h, hw⟩ fun t ht => commitSvn_early hp (ht.ownerLocked_eq.trans ho) (ht.actSt_eq ▸ ha)
  case revoke =>
    refine exec_fwCmdRevokeKey ⟨h, hw⟩ hk (by decide) fun t ht => ?_
    rw [revokeKey_mgmt, if_pos ⟨rfl, by rw [ht.fw_eq]; exact hsig, by rw [ht.keysLeft_eq]; exact keysLeft_some hj hne hprog hrev⟩]
  case revokeOther => exact exec_fwCmdRevokeKey ⟨h, hw⟩ hk hc fun t _ => revokeKey_other k confirm hno
  case revokeNot =>
    refine exec_fwCmdRevokeKey (f := id) ⟨h, hw⟩ hk hc fun t ht => (revokeKey_mgmt t k confirm).trans (if_neg ?_)
    rintro ⟨hcode, hsig, hleft⟩
    rw [ht.fw_eq] at hsig
    rw [ht.keysLeft_eq] at hleft
    rcases hno with hno | hno | hno
    · exact hno hcode
    · exact hsig hno
    · rw [keysLeft_none hno] at hleft
      exact Bool.false_ne_true hleft.symm

end Sys2Proof.Machine
end

section
/-!
SUPPORT. Downloads and activations (R540 to R544, R551): a block asked for and written, an activation begun, and how a warm boot ends.
-/

namespace Sys2Proof.Machine

/-! ### Downloads -/

theorem blockWrite_fwDl (t : State) (who : Who) (w : Word) (env : CsrEnv) : blockWrite t who 0x00300028 w env = dlCommand t who w := by
  have hpage : pageOf 0x00300028 = none := pageOf_of_lt (by decide)
  simp only [blockWrite, hpage]
  rw [if_neg (by decide), if_neg (by decide), if_pos (by decide), if_neg (by decide), if_pos trivial]

/-- A served FW_DL_CMD is judged by its own handler (R541). -/
theorem exec_fwDlCmdWrite {s : State} {hp fn width : Nat} {w : Word} {f : State → State} (h : ServedWrite s (.fn hp fn) width)
    (hf : ∀ t, dlCommand t (.fn hp fn) w = f t) :
    exec (.fwDlCmdWrite (.fn hp fn) width w) s = .next (settled s (viaGate s (.fn hp fn) f)) :=
  congrArg (done s) (csrWriteBy_block s (.fn hp fn) 0x00300028 width w noEnv f h.served h.wide (by decide +kernel) (.inl rfl) fun t _ => by
    rw [blockWrite_fwDl, hf])

section
variable {s : State} {who : Who} {slot off len : Nat}

theorem download_refused (hp : Option Nat) (data : List Byte) (h : fwRefusal s who false slot (blockOk off len) ≠ 0) :
    download s who slot off len hp data = wr s F.fwDlStatCause (fwRefusal s who false slot (blockOk off len)) := by
  simp only [download, if_pos h]

/-- The block of a download that is taken: BUSY, with no cause (R540). -/
def blockTaken (s : State) (slot off len : Nat) (hp : Option Nat) (data : List Byte) : State :=
  wr (wr (setFw s fun w => { w with block := some ⟨slot, off, len, hp, data⟩ }) F.fwDlStatSt 1) F.fwDlStatCause 0

theorem download_message (data : List Byte) (h : fwRefusal s who false slot (blockOk off len) = 0) :
    download s who slot off len none data = blockTaken s slot off len none data := by
  simp only [download, if_neg (not_not.mpr h), blockTaken]

theorem download_host (hp : Nat) (data : List Byte) (h : fwRefusal s who false slot (blockOk off len) = 0) :
    download s who slot off len (some hp) data
      = emit (blockTaken s slot off len (some hp) data) (.hostRead hp (rd s F.fwDlSrcAddr * 4096) len) := by
  have hsrc : rd (blockTaken s slot off len (some hp) data) F.fwDlSrcAddr = rd s F.fwDlSrcAddr := by
    rw [blockTaken, rd_wr_besides _ _ _ (by decide), rd_wr_besides _ _ _ (by decide), rd_setFw]
  simp only [download, if_neg (not_not.mpr h)]
  rw [← blockTaken, hsrc]

end

theorem mctpWaits_download (s : State) (slot off : Nat) (data : List Byte) :
    mctpWaits s (.download slot off data) = !firmwareRuns s := Bool.or_false _

theorem mctpDo_download (s : State) (slot off : Nat) (data : List Byte) :
    mctpDo s (.download slot off data) = emit (download s .mgmt slot off data.length none data)
      (.mctp (fwRefusal s .mgmt false slot (blockOk off data.length)) [csrView (download s .mgmt slot off data.length none data) 0x00300030]) :=
  rfl

section
variable {s : State} {b : Block} {data : List Byte}

/-- The bytes of a block: those of its message, or those that host memory returned (R540). -/
def blockBytes (b : Block) (data : List Byte) : List Byte :=
  match b.hp with
  | some _ => data
  | none => b.data

/-- A block in flash, its slot unverified (R540). -/
def blockFlashed (s : State) (b : Block) (bs : List Byte) : State :=
  emit (wr (setFw s fun w => { w with
      block := none, flash := programFlash (b.len / 4096) ((b.slot * 0x4000000 + b.off) / 4096) bs w.flash }) F.fwSlotState 1 b.slot)
    (.flash (b.slot * 0x4000000 + b.off) b.len)

theorem blockWritten_runs (ok : Bool) (hb : s.fw.block = some b) (hr : firmwareRuns s = true) :
    blockWritten s data ok =
      let u := blockFlashed s b (blockBytes b data)
      if ok then wr (wr u F.fwDlStatSt 2) F.fwDlStatBlocks ((rd u F.fwDlStatBlocks + 1) % 2 ^ 32)
      else tell (wr (wr u F.fwDlStatSt 3) F.fwDlStatCause 12) (.fault 18 0) := by
  simp only [blockWritten, hb, hr, Bool.not_true, Bool.false_eq_true, if_false]
  rfl

theorem blockEnds_idle (ok : Bool) (h : s.fw.block = none ∨ firmwareRuns s = false) : blockEnds s data ok = s := by
  have hstays : blockWritten s data ok = s := by
    rw [blockWritten]
    split
    · rfl
    next hb => rw [h.resolve_left (by simp [hb]), Bool.not_false, if_pos rfl]
  rw [blockEnds]
  split
  · rw [hstays, ite_self]
  · rfl

/-- The bytes that a block needs are there (R540). -/
theorem blockEnds_ends (ok : Bool) {bs : List Byte} (hb : s.fw.block = some b)
    (h : (b.hp = none ∧ bs = b.data) ∨ (b.hp ≠ none ∧ data.length = b.len ∧ bs = data)) :
    blockEnds s data ok = blockWritten s data ok ∧ blockBytes b data = bs := by
  simp only [blockEnds, hb, blockBytes]
  rcases h with ⟨hp, rfl⟩ | ⟨hp, hlen, rfl⟩
  · simp [hp]
  · obtain ⟨p, hp⟩ := Option.ne_none_iff_exists'.mp hp
    simp [hp, hlen]

end

/-! ### Activations -/

section
variable {s : State} {who : Who} {slot : Nat}

theorem activate_refused (h : fwRefusal s who true slot true ≠ 0) :
    activate s who slot = wr s F.fwStatCause (fwRefusal s who true slot true) := by
  simp only [activate, if_pos h]

theorem beginWarm_activation (t : State) (slot : Nat) :
    beginWarm t slot 1 = setFw (wr (setTxn t fun x => { x with staged := none, stagedBytesOn := [] }) F.armStageSt 0) fun w =>
      { w with booting := true, bootSlot := slot, bootKind := 1 } := by
  rw [beginWarm, if_pos rfl]

theorem activate_begins (h : fwRefusal s who true slot true = 0) :
    activate s who slot = beginWarm (wr (wr (wr s F.fwStatActSt 1) F.fwStatCause 0) F.fwStatDeferred 0) slot 1 := by
  simp only [activate, if_neg (not_not.mpr h)]

end

theorem mctpWaits_activate (s : State) (slot : Nat) : mctpWaits s (.activate slot) = !firmwareRuns s := Bool.or_false _

theorem mctpDo_activate (s : State) (slot : Nat) :
    mctpDo s (.activate slot) = emit (activate s .mgmt slot) (.mctp (fwRefusal s .mgmt true slot true) []) := rfl

/-! ### The end of a warm boot -/

/-- A warm boot that has not ended (R543, R544): the complex boots, not to build, and its activation is not past its preparation. -/
structure WarmBoot (s : State) : Prop where
  booting : s.fw.booting = true
  kind : s.fw.bootKind ≠ 4
  early : actSt s < 2

section
variable {s : State} {img : Image}

theorem warmDone_goes (h : WarmBoot s) :
    warmDone s img =
      if inRecovery s then plinthDone s img
      else if s.fw.bootKind = 3 then wr (endWarm s) F.fwStatActSt 6
      else
        let u := showSlot s s.fw.bootSlot img (verifySlot s (rd s F.armSignerEnable) img)
        if verifySlot s (rd s F.armSignerEnable) img = 0 then
          wr (setFw u fun w => { w with newImage := some (runOf img, (img.armature.map armOf).getD u.txn.arm) }) F.fwStatActSt 2
        else if u.fw.bootKind = 2 then
          tell (endWarm (wr (wr u F.fwStatCause 10) F.fwStatActSt 6)) (.fault 21 (rd u F.fwStatRunning))
        else wr (endWarm (wr u F.fwStatCause 7)) F.fwStatActSt 6 := by
  have hgoes : ¬ (!s.fw.booting || decide (s.fw.bootKind = 4) || decide (2 ≤ actSt s)) = true := by
    simp [h.booting, h.kind, h.early]
  rw [warmDone]
  exact if_neg hgoes

theorem showSlot_txn (x cause : Nat) : (showSlot s x img cause).txn = s.txn := by simp only [showSlot, wr_txn]

theorem showSlot_fw (x cause : Nat) : (showSlot s x img cause).fw = s.fw := by simp only [showSlot, wr_fw]

theorem warmDone_verified (h : WarmBoot s) (hk : s.fw.bootKind ≠ 3) (hr : inRecovery s = false)
    (hv : verifySlot s (rd s F.armSignerEnable) img = 0) :
    warmDone s img =
      let u := showSlot s s.fw.bootSlot img 0
      wr (setFw u fun w => { w with newImage := some (runOf img, (img.armature.map armOf).getD s.txn.arm) }) F.fwStatActSt 2 := by
  rw [warmDone_goes h, hr, if_neg Bool.false_ne_true, if_neg hk]
  dsimp only
  rw [hv, if_pos rfl, showSlot_txn]

theorem warmDone_bad {cause : Nat} (h : WarmBoot s) (hk : s.fw.bootKind ≠ 3) (hr : inRecovery s = false)
    (hv : verifySlot s (rd s F.armSignerEnable) img = cause) (hc : cause ≠ 0) :
    warmDone s img =
      let u := showSlot s s.fw.bootSlot img cause
      if s.fw.bootKind = 2 then tell (endWarm (wr (wr u F.fwStatCause 10) F.fwStatActSt 6)) (.fault 21 (rd u F.fwStatRunning))
      else wr (endWarm (wr u F.fwStatCause 7)) F.fwStatActSt 6 := by
  rw [warmDone_goes h, hr, if_neg Bool.false_ne_true, if_neg hk]
  dsimp only
  rw [hv, if_neg hc, showSlot_fw]

theorem warmDone_back (h : WarmBoot s) (hk : s.fw.bootKind = 3) (hr : inRecovery s = false) :
    warmDone s img = wr (endWarm s) F.fwStatActSt 6 := by
  rw [warmDone_goes h, hr, if_neg Bool.false_ne_true, if_pos hk]

theorem warmDone_recovery {c : Nat} {u : State} (h : WarmBoot s) (hr : inRecovery s = true)
    (hv : verifySlot s (rd s F.fwFuseArmMask) img = c) (hu : u = endWarm (showSlot s s.fw.bootSlot img c)) :
    warmDone s img =
      if c = 0 then
        let v := writeBoard u fun b => { b with preferred := s.fw.bootSlot, recovery := false }
        setBase (wr (wr v F.fwStatPreferred s.fw.bootSlot) F.fwStatActSt 5) 1
      else wr (wr u F.fwStatCause 7) F.fwStatActSt 6 := by
  subst hv hu
  rw [warmDone_goes h, hr, if_pos rfl, plinthDone]

theorem swapHold_begins (ha : actSt s = 2) (hb : baseOf s = 2) (hh : holdOn s = false) (hn : s.fw.newImage ≠ none) :
    swapHold s =
      let u := setTxn s fun t => { t with swap := if s.fw.bootKind = 2 then .fallback else .activation }
      setHold (wr u F.fwStatActSt 3) true := by
  rw [swapHold, if_pos ⟨ha, hb, hh, Option.isSome_iff_ne_none.mpr hn⟩]

theorem swapHold_idle (h : actSt s ≠ 2 ∨ baseOf s ≠ 2 ∨ holdOn s = true ∨ s.fw.newImage = none) : swapHold s = s := by
  refine if_neg ?_
  rintro ⟨ha, hb, hh, hn⟩
  rcases h with h | h | h | h
  · exact h ha
  · exact h hb
  · exact Bool.false_ne_true (hh.symm.trans h)
  · rw [h] at hn
    exact Bool.false_ne_true hn

end

section
variable (s : State) (now : Nat)

theorem exec_mctpDownload (via : Option Nat) (slot off : Nat) (data : List Byte) :
    exec (.mctpDownload via slot off data) s = .next (settled s (mctpVia s via (.download slot off data))) := rfl

theorem exec_mctpActivate (via : Option Nat) (slot : Nat) :
    exec (.mctpActivate via slot) s = .next (settled s (mctpVia s via (.activate slot))) := rfl

theorem exec_fwBlockWritten (data : List Byte) (ok : Bool) :
    exec (.fwBlockWritten now data ok) s = .next (settled s (blockEnds (atTime s now) data ok)) := rfl

theorem exec_fwWarmBootDone (img : Image) :
    exec (.fwWarmBootDone now img) s = .next (settled s (resumeMctp (warmDone (atTime s now) img))) := rfl

theorem exec_fwSwapPrepared : exec (.fwSwapPrepared now) s = .next (settled s (swapHold (atTime s now))) := rfl

end

/-- Settles O50: a download and an activation by their refusal, a block by its bytes, a warm boot by its kind and its image. -/
theorem downloadAndActivationComplete : Obligations.DownloadAndActivationComplete := by
  unfold Obligations.DownloadAndActivationComplete
  refine ⟨fun s hp fn width val h hw hgo => ?dl, fun s hp fn width val h hw hgo => ?dlNoGo,
    fun s who slot off len hp data h => download_host hp data h, fun s who slot off len hp data h => download_refused hp data h,
    fun s slot off data t via hr hn hs hc ht => ?message, fun s slot off data c t via hr hn hs hc hne ht => ?messageRefused,
    fun s now b u data bs hb hr hbs hu => ⟨?written, ?writtenBadly⟩, fun s now data ok h => ?noBlock,
    fun s who width slot h hw hslot => ?activate, fun s who slot h => ?begins, fun s slot via hr hn hs => ?activateMessage,
    fun s who slot h => activate_refused h, fun s now img hb hk ha hr hv => ?verified, fun s now img cause hb hk ha hr hv hc => ?bad,
    fun s now img hb hk ha hr => ?back, fun s now img c u hb hk ha hr hv hu => ?recovery, fun s now ha hb hh hn => ?swap,
    fun s now h => ?swapNot⟩
  case dl => exact exec_fwDlCmdWrite ⟨h, hw⟩ fun t => by rw [dlCommand, if_pos hgo]
  case dlNoGo => exact exec_fwDlCmdWrite (f := id) ⟨h, hw⟩ fun t => by rw [dlCommand, hgo, if_neg Bool.false_ne_true, id]
  case message =>
    rw [exec_mctpDownload, MctpReady.goes ⟨hr, hn, hs⟩ (mctpWaits_download s slot off data), mctpDo_download, hc, download_message data hc,
      ht, blockTaken]
  case messageRefused =>
    have hcause : fwRefusal s .mgmt false slot (blockOk off data.length) ≠ 0 := hc ▸ hne
    rw [exec_mctpDownload, MctpReady.goes ⟨hr, hn, hs⟩ (mctpWaits_download s slot off data), mctpDo_download,
      download_refused none data hcause, hc, ht]
  case written | writtenBadly =>
    obtain ⟨hends, hbytes⟩ := blockEnds_ends (s := atTime s now) _ hb hbs
    rw [exec_fwBlockWritten, hends, blockWritten_runs (s := atTime s now) _ hb hr, hbytes, hu]
    rfl
  case noBlock => rw [exec_fwBlockWritten, blockEnds_idle (s := atTime s now) ok h]
  case activate => exact congrArg (done s) (fwStore_served ⟨h, hw⟩ (by decide) (by decide) fun t _ => fwCommand_activate hslot)
  case begins => rw [activate_begins h, beginWarm_activation]
  case activateMessage =>
    rw [exec_mctpActivate, MctpReady.goes ⟨hr, hn, hs⟩ (mctpWaits_activate s slot), mctpDo_activate]
  case verified =>
    have hwarm : WarmBoot (atTime s now) := ⟨hb, by rcases hk with h | h <;> simp [h], ha⟩
    rw [exec_fwWarmBootDone, warmDone_verified hwarm (by rcases hk with h | h <;> simp [h]) hr hv]
    rfl
  case bad =>
    have hwarm : WarmBoot (atTime s now) := ⟨hb, by rcases hk with h | h <;> simp [h], ha⟩
    rw [exec_fwWarmBootDone, warmDone_bad hwarm (by rcases hk with h | h <;> simp [h]) hr hv hc]
    rfl
  case back =>
    have hwarm : WarmBoot (atTime s now) := ⟨hb, by simp [hk], ha⟩
    rw [exec_fwWarmBootDone, warmDone_back hwarm hk hr]
  case recovery =>
    rw [exec_fwWarmBootDone, warmDone_recovery (s := atTime s now) ⟨hb, hk, ha⟩ hr hv hu]
    rfl
  case swap =>
    rw [exec_fwSwapPrepared, swapHold_begins (s := atTime s now) ha hb hh hn]
    rfl
  case swapNot => rw [exec_fwSwapPrepared, swapHold_idle (s := atTime s now) h]

end Sys2Proof.Machine
end
